-- ==== Sys2Proof/Word.lean ====
section
/-! DEFINITION. The word types of the model and the names of its numbered units (R2, R4, R26).  A value the manual adds,
shifts, masks or transmits is a bit vector or a natural number of stated width; a unit number is a `Fin` of the number of
units the part has. -/
namespace Sys2Proof

/-- One byte. -/
abbrev Byte := BitVec 8

/-- A byte string in transmission order (R5: least significant byte first). -/
abbrev Bytes := List Byte

/-- Axis slot 0-511 (R2). -/
abbrev Ax := Fin 512
/-- Servo ring 0-7 (R2). -/
abbrev Ring := Fin 8
/-- Field line 0-3 (R2). -/
abbrev Line := Fin 4
/-- Segment 0-11: rings 0-7, then lines 0-3 (R4). -/
abbrev Seg := Fin 12
/-- Ring node, counted from 0; its address is this number plus 1 (R2, R196). -/
abbrev RNode := Fin 48
/-- Field node 0-1023 of a line (R2). -/
abbrev FNode := Fin 1024
/-- Window of a ring node. -/
abbrev Win := Fin 8
/-- Pulse input FB0-FB15. -/
abbrev PIn := Fin 16
/-- Encoder emulation output EE0-EE7. -/
abbrev EOut := Fin 8
/-- Step channel ST0-ST15. -/
abbrev SOut := Fin 16
/-- Host port ETH0, ETH1. -/
abbrev Port := Fin 2
/-- Fault source 0-191. -/
abbrev Src := Fin 192
/-- Acquisition set 0-3. -/
abbrev ASet := Fin 4
/-- Safety input SI0-SI15. -/
abbrev SIn := Fin 16
/-- Safety output pair SO0-SO3. -/
abbrev SoPair := Fin 4
/-- PTP domain A (0) or B (1). -/
abbrev Dom := Fin 2
/-- Cluster CL0-CL7. -/
abbrev Clus := Fin 8

/-- Ring channels, or line cables, A and B. -/
inductive Chan where
  | a
  | b
  deriving DecidableEq, Repr

/-- A node of a segment: a ring node or a field node (R3). -/
inductive NodeId where
  | ring (r : Ring) (j : RNode)
  | line (l : Line) (k : FNode)
  deriving DecidableEq, Repr

end Sys2Proof
end

