-- ==== Sys2Proof/Machine/Num.lean ====
section
/-! DEFINITION. Numbers: exact rational arithmetic and its narrowing to the formats the manual gives values (R26 F32, F64;
R27 TIME112), two's complement reading, and byte order (R5). -/
namespace Sys2Proof.Machine

/-- A binary32 value (R26). -/
abbrev F32 := BitVec 32
/-- A binary64 value (R26). -/
abbrev F64 := BitVec 64

/-- An IEEE 754 binary format: exponent bits and fraction bits. -/
structure Fmt where
  ebits : Nat
  mbits : Nat
  deriving DecidableEq, Repr

/-- binary32. -/
def fmt32 : Fmt := ⟨8, 23⟩
/-- binary64. -/
def fmt64 : Fmt := ⟨11, 52⟩

/-- Exponent bias of a format. -/
def fmtBias (f : Fmt) : Nat := 2 ^ (f.ebits - 1) - 1

/-- The exact power of two 2^e. -/
def ratPow2 (e : Int) : Rat :=
  match e with
  | .ofNat n => ((2 ^ n : Nat) : Rat)
  | .negSucc n => mkRat 1 (2 ^ (n + 1))

/-- Absolute value of a rational. -/
def ratAbs (q : Rat) : Rat := if q < 0 then -q else q

/-- Nearest integer, ties to even. -/
def ratRoundEven (q : Rat) : Int :=
  let fl := q.floor
  let r := q - (fl : Rat)
  if r < mkRat 1 2 then fl
  else if mkRat 1 2 < r then fl + 1
  else if fl % 2 = 0 then fl else fl + 1

/-- Nearest integer, ties away from zero. -/
def ratRoundAway (q : Rat) : Int :=
  if q < 0 then -((-q + mkRat 1 2).floor) else (q + mkRat 1 2).floor

/-- Truncation toward zero. -/
def ratTrunc (q : Rat) : Int := if q < 0 then -((-q).floor) else q.floor

/-- Floor of the base-two logarithm of a positive rational. -/
def ratLog2 (q : Rat) : Int :=
  let e0 : Int := (Nat.log2 q.num.natAbs : Int) - (Nat.log2 q.den : Int)
  if q < ratPow2 e0 then e0 - 1 else e0

/-- Whether a pattern is finite (R26: NaN and infinities are never valid values). -/
def fmtFinite (f : Fmt) (b : Nat) : Bool := (b >>> f.mbits) % 2 ^ f.ebits != 2 ^ f.ebits - 1

/-- Sign bit of a pattern. -/
def fmtSign (f : Fmt) (b : Nat) : Bool := (b >>> (f.mbits + f.ebits)) % 2 = 1

/-- The exact value of a pattern (an infinity pattern reads as the power of two above the largest finite value). -/
def fmtToRat (f : Fmt) (b : Nat) : Rat :=
  let e := (b >>> f.mbits) % 2 ^ f.ebits
  let m := b % 2 ^ f.mbits
  let v : Rat :=
    if e = 0 then (m : Rat) * ratPow2 (1 - (fmtBias f : Int) - f.mbits)
    else if e = 2 ^ f.ebits - 1 then ratPow2 ((fmtBias f : Int) + 1)
    else ((2 ^ f.mbits + m : Nat) : Rat) * ratPow2 ((e : Int) - (fmtBias f : Int) - f.mbits)
  if fmtSign f b then -v else v

/-- The pattern nearest to an exact value, ties to even, overflow to infinity; `neg0` is the sign of a zero result. -/
def fmtOfRat (f : Fmt) (neg0 : Bool) (q : Rat) : Nat :=
  let sgn := 2 ^ (f.mbits + f.ebits)
  if q = 0 then (if neg0 then sgn else 0)
  else
    let a := ratAbs q
    let emin : Int := 1 - (fmtBias f : Int)
    let e0 := ratLog2 a
    let e := if e0 < emin then emin else e0
    let m := (ratRoundEven (a * ratPow2 (f.mbits - e))).toNat
    let pat := (e + fmtBias f - 1).toNat * 2 ^ f.mbits + m
    let inf := (2 ^ f.ebits - 1) * 2 ^ f.mbits
    let pat := if pat < inf then pat else inf
    if q < 0 then sgn + pat else pat

/-- Integer square root by bits: the largest r with r*r ≤ n, from `fuel` bits. -/
def isqrtAux (n : Nat) : Nat → Nat → Nat
  | 0, r => r
  | k + 1, r =>
    let c := r + 2 ^ k
    if c * c ≤ n then isqrtAux n k c else isqrtAux n k r

/-- Integer square root. -/
def isqrt (n : Nat) : Nat := isqrtAux n (Nat.log2 n / 2 + 1) 0

/-- A rational within 2^-200 relative below the square root of a positive rational, with a sticky part when it is
inexact, so that one rounding to binary32 or binary64 gives the correctly rounded root. -/
def ratSqrt (q : Rat) : Rat :=
  if q ≤ 0 then 0 else
  let sh : Nat := 2 * (256 + Nat.log2 q.den)
  let n := (q * ratPow2 sh).floor.toNat
  let r := isqrt n
  let exact := decide (((r * r : Nat) : Rat) = q * ratPow2 sh)
  let r2 : Rat := if exact then (r : Rat) else (r : Rat) + mkRat 1 2
  r2 * ratPow2 (-((256 + Nat.log2 q.den : Nat) : Int))

/-- The exact value of a binary32 pattern. -/
def f32ToRat (x : F32) : Rat := fmtToRat fmt32 x.toNat
/-- The nearest binary32 value. -/
def f32OfRat (q : Rat) : F32 := BitVec.ofNat 32 (fmtOfRat fmt32 false q)
/-- The exact value of a binary64 pattern. -/
def f64ToRat (x : F64) : Rat := fmtToRat fmt64 x.toNat
/-- The nearest binary64 value. -/
def f64OfRat (q : Rat) : F64 := BitVec.ofNat 64 (fmtOfRat fmt64 false q)

/-- binary32 addition. -/
def f32Add (a b : F32) : F32 :=
  BitVec.ofNat 32 (fmtOfRat fmt32 (fmtSign fmt32 a.toNat && fmtSign fmt32 b.toNat) (f32ToRat a + f32ToRat b))
/-- binary32 negation. -/
def f32Neg (a : F32) : F32 := a ^^^ 0x80000000#32
/-- binary32 subtraction. -/
def f32Sub (a b : F32) : F32 := f32Add a (f32Neg b)
/-- binary32 multiplication. -/
def f32Mul (a b : F32) : F32 :=
  BitVec.ofNat 32 (fmtOfRat fmt32 (fmtSign fmt32 a.toNat != fmtSign fmt32 b.toNat) (f32ToRat a * f32ToRat b))
/-- binary32 fused multiply-add a*b + c, one rounding. -/
def f32Fma (a b c : F32) : F32 :=
  let p := fmtSign fmt32 a.toNat != fmtSign fmt32 b.toNat
  BitVec.ofNat 32 (fmtOfRat fmt32 (p && fmtSign fmt32 c.toNat) (f32ToRat a * f32ToRat b + f32ToRat c))
/-- binary32 division by a nonzero value. -/
def f32Div (a b : F32) : F32 :=
  BitVec.ofNat 32 (fmtOfRat fmt32 (fmtSign fmt32 a.toNat != fmtSign fmt32 b.toNat) (f32ToRat a / f32ToRat b))
/-- binary32 square root. The manual states no root of a negative value, which R87's rounded differences and a lowered I_max can give: the
model answers 0 (DESIGN CHOICE, log 77). -/
def f32Sqrt (a : F32) : F32 := f32OfRat (ratSqrt (f32ToRat a))
/-- binary32 absolute value. -/
def f32Abs (a : F32) : F32 := a &&& 0x7FFFFFFF#32
/-- Numeric order of binary32 values. -/
def f32Lt (a b : F32) : Bool := decide (f32ToRat a < f32ToRat b)
/-- Numeric order of binary32 values. -/
def f32Le (a b : F32) : Bool := decide (f32ToRat a ≤ f32ToRat b)
/-- The value limited to lo ≤ x ≤ hi. -/
def f32Clamp (lo hi x : F32) : F32 := if f32Lt x lo then lo else if f32Lt hi x then hi else x
/-- binary32 of an integer. -/
def f32OfInt (i : Int) : F32 := f32OfRat (i : Rat)

/-- A binary32 constant given as a rational. -/
def f32c (q : Rat) : F32 := f32OfRat q

/-- The signed reading of an n-bit pattern. -/
def sgn (n : Nat) (b : Nat) : Int := if b % 2 ^ n < 2 ^ (n - 1) then (b % 2 ^ n : Int) else (b % 2 ^ n : Int) - 2 ^ n
/-- The n-bit pattern of an integer, wrapping. -/
def pat (n : Nat) (i : Int) : Nat := (i % 2 ^ n).toNat
/-- An integer wrapped into n-bit two's complement. -/
def wrap (n : Nat) (i : Int) : Int := sgn n (pat n i)
/-- An integer limited to lo ≤ i ≤ hi. -/
def clampInt (lo hi i : Int) : Int := if i < lo then lo else if hi < i then hi else i
/-- An integer limited to n-bit two's complement. -/
def satInt (n : Nat) (i : Int) : Int := clampInt (-(2 ^ (n - 1))) (2 ^ (n - 1) - 1) i

/-- The little-endian bytes of a number (R5). -/
def leBytes : Nat → Nat → Bytes
  | 0, _ => []
  | n + 1, v => BitVec.ofNat 8 v :: leBytes n (v / 256)
/-- The number that little-endian bytes spell (R5). -/
def ofLe : Bytes → Nat
  | [] => 0
  | b :: bs => b.toNat + 256 * ofLe bs

/-- Bit n of a number. -/
def bit (v n : Nat) : Bool := (v >>> n) % 2 = 1
/-- A number with bit n set or cleared. -/
def setBit (v n : Nat) (x : Bool) : Nat :=
  if bit v n = x then v else if x then v + 2 ^ n else v - 2 ^ n
/-- Bits lo to lo+n-1 of a number. -/
def bits (v lo n : Nat) : Nat := (v >>> lo) % 2 ^ n
/-- 1 for true, 0 for false. -/
def b2n (b : Bool) : Nat := if b then 1 else 0

/-- A TIME112 pattern (R27) from whole seconds, nanoseconds and 2^-16 ns. -/
def mkTime (sec ns frac : Nat) : Nat := sec % 2 ^ 64 + (ns % 2 ^ 32) * 2 ^ 64 + (frac % 2 ^ 16) * 2 ^ 96
/-- Whether the nanoseconds field of a TIME112 pattern is valid (R26). -/
def timeValid (t : Nat) : Bool := decide (bits t 64 32 < 1000000000)
/-- The time a TIME112 pattern stands for, in units of 2^-16 ns (R27). -/
def timeUnits (t : Nat) : Nat := (bits t 0 64 * 1000000000 + bits t 64 32) * 65536 + bits t 96 16
/-- The TIME112 pattern of a time in units of 2^-16 ns (R27). -/
def timeOfUnits (u : Nat) : Nat := mkTime (u / 65536 / 1000000000) (u / 65536 % 1000000000) (u % 65536)

/-! Transcendental functions in fixed point: integers in units of 2^-F, with an error far below half a unit of any result they are
narrowed to. -/

/-- Product of two fixed-point numbers. -/
def fxMul (F : Nat) (a b : Int) : Int := (a * b).fdiv (2 ^ F)
/-- A rational as a fixed-point number. -/
def fxOf (F : Nat) (q : Rat) : Int := (q * ((2 ^ F : Nat) : Rat)).floor
/-- A fixed-point number as a rational. -/
def fxRat (F : Nat) (a : Int) : Rat := mkRat a (2 ^ F)
/-- The sum of `fuel` terms of a power series from the term t with the index i: each next term is t times x, divided by what `den` gives
for its index. -/
def fxSeries (F : Nat) (x : Int) (den : Nat → Int) : Nat → Nat → Int → Int
  | 0, _, _ => 0
  | fuel + 1, i, t => t + fxSeries F x den fuel (i + 1) ((fxMul F t x).fdiv (den i))
/-- pi to 100 digits. -/
def piLong : Rat := mkRat 31415926535897932384626433832795028841971693993751058209749445923078164062862089986280348253421170679 (10 ^ 100)
/-- ln 10 to 100 digits. -/
def ln10Long : Rat := mkRat 23025850929940456840179914546843642076011014886287729760333279009675726096773524802359972050895982983 (10 ^ 100)
/-- Sine of a fixed-point angle in radians between -pi and pi. -/
def fxSin (F : Nat) (x : Int) : Int := fxSeries F (-(fxMul F x x)) (fun i => ((2 * i + 2) * (2 * i + 3) : Nat)) 50 0 x
/-- Cosine of such an angle. -/
def fxCos (F : Nat) (x : Int) : Int := fxSeries F (-(fxMul F x x)) (fun i => ((2 * i + 1) * (2 * i + 2) : Nat)) 50 0 (2 ^ F)
/-- Exponential of a fixed-point number between -1 and 0. -/
def fxExp (F : Nat) (x : Int) : Int := fxSeries F x (fun i => ((i + 1 : Nat) : Int)) 60 0 (2 ^ F)
/-- z / (1 + sqrt(1 + z^2)): the tangent of half the angle whose tangent is z. -/
def fxHalf (F : Nat) (z : Int) : Int :=
  let r : Int := isqrt ((2 ^ F * 2 ^ F + z * z).toNat)
  (z * 2 ^ F).fdiv (2 ^ F + r)
/-- The powers z, z^3, z^5 ... over 1, 3, 5 ..., with alternating signs: atan of a fixed-point number below a quarter. -/
def fxAtanSmall (F : Nat) (x2 : Int) : Nat → Nat → Int → Int
  | 0, _, _ => 0
  | fuel + 1, i, t => t.fdiv ((2 * i + 1 : Nat) : Int) + fxAtanSmall F x2 fuel (i + 1) (-(fxMul F t x2))
/-- atan of a fixed-point number from 0 to 1. -/
def fxAtan (F : Nat) (z : Int) : Int :=
  let w := fxHalf F (fxHalf F z)
  4 * fxAtanSmall F (fxMul F w w) 120 0 w

/-- The tangent of an angle in radians below pi/2, to more than 200 bits. -/
def ratTan (q : Rat) : Rat :=
  let x := fxOf 256 q
  mkRat (fxSin 256 x) 1 / mkRat (fxCos 256 x) 1
/-- 10^q for q from -16 to 0, to more than 200 bits. -/
def ratPow10 (q : Rat) : Rat :=
  let e := fxExp 256 (fxOf 256 (q * ln10Long / 64))
  fxRat 256 ((List.range 6).foldl (fun a _ => fxMul 256 a a) e)
/-- The sine of a U32 fraction of a turn. -/
def ratSin (t : BitVec 32) : Rat := fxRat 256 (fxSin 256 (fxOf 256 (2 * piLong * mkRat t.toInt (2 ^ 32))))
/-- The cosine of a U32 fraction of a turn. -/
def ratCos (t : BitVec 32) : Rat := fxRat 256 (fxCos 256 (fxOf 256 (2 * piLong * mkRat t.toInt (2 ^ 32))))
/-- The angle of the point (x, y), not the origin, in degrees from -180 (not included) to 180. -/
def ratAtan2 (y x : Rat) : Rat :=
  let ay := ratAbs y
  let ax := ratAbs x
  let f (z : Rat) : Rat := fxRat 640 (fxAtan 640 (fxOf 640 z)) * 180 / piLong
  let a := if ay ≤ ax then f (ay / ax) else 90 - f (ax / ay)
  let a := if x < 0 then 180 - a else a
  if y < 0 then -a else a

/-- The weight of the last place of a finite binary32 value. -/
def f32Ulp (q : Rat) : Rat := if q = 0 then ratPow2 (-149) else ratPow2 (max (ratLog2 (ratAbs q)) (-126) - 23)
/-- A binary32 value within one unit in the last place of the exact result q: the nearest one or, where the part's choice c says so (1
below, 2 above) and it lies within that unit, its neighbour. -/
def f32Within (q : Rat) (c : Nat) : F32 :=
  let p := f32OfRat q
  let v := f32ToRat p
  let u := f32Ulp v
  let w := if c = 1 then v - u else if c = 2 then v + u else v
  if ratAbs (w - q) ≤ u then f32OfRat w else p

/-- A rational rounded to binary64. -/
def r64 (q : Rat) : Rat := f64ToRat (f64OfRat q)

end Sys2Proof.Machine
end

