-- ==== Sys2Proof/Machine/Table.lean ====
section
/-! DEFINITION. Sparse tables: sorted lists of key and value pairs that list no value equal to the default of its key, so
that equal contents are equal data (the one canonical form of R24's object store and of every per-unit state). -/
namespace Sys2Proof.Machine

/-- A sparse table: keys strictly rising, no entry equal to its key's default. -/
abbrev Table (α : Type) := List (Nat × α)

/-- The value at a key: the entry listed for it, or the key's default. -/
def tget {α : Type} (d : Nat → α) : Table α → Nat → α
  | [], k => d k
  | p :: t, k => if p.1 = k then p.2 else tget d t k

/-- The table without any entry for a key. -/
def tdel {α : Type} (k : Nat) : Table α → Table α
  | [] => []
  | p :: t => if p.1 = k then tdel k t else p :: tdel k t

/-- Insertion of a pair before the first larger key. -/
def tinsert {α : Type} (k : Nat) (v : α) : Table α → Table α
  | [] => [(k, v)]
  | p :: t => if k < p.1 then (k, v) :: p :: t else p :: tinsert k v t

/-- The table with a key's value replaced; writing the default removes the entry. -/
def tput {α : Type} [DecidableEq α] (d : Nat → α) (t : Table α) (k : Nat) (v : α) : Table α :=
  if v = d k then tdel k t else tinsert k v (tdel k t)

/-- Every key of the table is above `lo` and the keys rise. -/
def tsorted {α : Type} : Option Nat → Table α → Bool
  | _, [] => true
  | none, p :: t => tsorted (some p.1) t
  | some lo, p :: t => decide (lo < p.1) && tsorted (some p.1) t

/-- The canonical form: keys strictly rising and no entry equal to what an unlisted key reads as. -/
def twf {α : Type} [DecidableEq α] (d : Nat → α) (t : Table α) : Bool :=
  tsorted none t && t.all (fun p => decide (p.2 ≠ d p.1))

end Sys2Proof.Machine
end

