-- ==== Sys2Proof/Machine/Parts.lean ====
section
/-! DEFINITION. The parts of the state that no object of the dictionary holds, chapter by chapter: the collector and its
log, the supply, the pattern key, the management and host-link engines, the time unit and the motion state of an axis. -/
namespace Sys2Proof.Machine

/-- A log entry (R454). Times are nanoseconds. -/
structure LogEntry where
  seq    : Nat
  local_ : Nat
  seg    : Nat
  flags  : Nat
  source : Nat
  code   : Nat
  data   : Nat
  deriving DecidableEq, Repr

/-- A report of a source. `stop` says what it means for the axis that `datum` names: 1 its fault stop category, 2 torque
off (R64, R60), 3 the fault stop of every axis fed by the input it names (R161), 0 nothing. -/
structure Report where
  src   : Nat
  cause : Nat
  datum : Nat
  wire  : Bool
  force : Bool
  stop  : Nat
  deriving DecidableEq, Repr

/-- The fault collector and its arbiter (R374-R391): numbering, rail states and the on-chip log buffer; `island` is what the report pairs 144-159 last
showed. `waiting` counts
the newest entries of `log` not yet journalled (R455). -/
structure Collector where
  nextSeq  : Nat
  sSeal    : Nat
  cond     : Nat
  wire     : Nat
  held     : List Report
  errPins  : Bool
  todo     : List Report
  island   : Nat
  log      : List LogEntry
  waiting  : Nat
  commitLog : Nat
  deriving DecidableEq, Repr

/-- A pending entry into Safe-hold (R424): its cause and the number of the item that caused it (0 for none, R526);
`later` says that a host request was already accepted and waiting (R47). -/
structure SafeHoldEntry where
  cause : Nat
  seq   : Nat
  later : Bool
  deriving DecidableEq, Repr

/-- The mode sequencer and supply monitor (R412-R428) between steps. -/
structure PowerSt where
  powered    : Bool
  booted     : Bool
  safeHold   : Option SafeHoldEntry
  belowClear : Bool
  commitRan  : Bool
  vbakOk     : Bool
  vsoOk      : Bool
  testEn     : Bool
  recovery   : Bool
  restart    : Nat
  d0Valid    : Bool
  otp        : Nat
  cleared    : Bool
  deriving DecidableEq, Repr

/-- A parameter set of the pattern key (R438): its format byte, header and values. `sums` says whether its CRCs agree. -/
structure ParamSet where
  format : Nat
  seq    : Nat
  cycle  : Nat
  bytes  : Nat
  fw     : Nat
  serial : Nat
  sums   : Bool
  nums   : List (Nat × Nat)
  strs   : List (Nat × Bytes)
  deriving DecidableEq, Repr

/-- A boot control record (R437). -/
structure BootRec where
  valid    : Bool
  seq      : Nat
  selected : Nat
  trial    : Nat
  tries    : Nat
  progress : Nat
  length   : Nat
  version  : Nat
  deriving DecidableEq, Repr

/-- A state record (R444). -/
structure StateRec where
  valid  : Bool
  seq    : Nat
  kind   : Nat
  copy   : Nat
  s      : Nat
  time   : Nat
  count  : Nat
  serial : Nat
  deriving DecidableEq, Repr

/-- A position snapshot (R448): header values and one entry per axis whose valid bit is set. -/
structure Snapshot where
  good  : Bool
  seq   : Nat
  cycle : Nat
  seg   : Nat
  time  : Nat
  axes  : List (Nat × Int × Int × Bool)
  deriving DecidableEq, Repr

/-- A safety record of the key (R441). -/
structure SafetyRec where
  valid : Bool
  seq   : Nat
  check : Nat
  conf  : Nat
  block : Bytes
  deriving DecidableEq, Repr

/-- The pattern key on the KEY connector (R430-R448): every persistent record it holds. -/
structure KeySt where
  present  : Bool
  readable : Bool
  flashMiB : Nat
  memKiB   : Nat
  writer   : Nat
  slotA    : Bytes
  slotB    : Bytes
  nodeImg  : Table Bytes
  nodeDir  : Table Bytes
  boot0    : BootRec
  boot1    : BootRec
  state0   : StateRec
  state1   : StateRec
  setA     : ParamSet
  setB     : ParamSet
  safety0  : SafetyRec
  safety1  : SafetyRec
  snap0    : Snapshot
  snap1    : Snapshot
  journal  : List LogEntry
  count    : Nat
  deriving DecidableEq, Repr

/-- Management work in progress: a parameter store with the values copied at its acceptance (R41), an image load and a
node-firmware relay (R459-R463): per node still to serve whether it has begun and its next offset, the nodes done, the segment and the
directory entry, and in `relayOld` the nodes that the last interruption left with partial images. -/
structure MgmtSt where
  storing   : Bool
  storeB    : Bool
  storeSet  : ParamSet
  reloading : Bool
  imgBuf    : Bytes
  imgTrial  : Bool
  relayList : List (Nat × Nat × Nat)
  relayDone : List Nat
  relaySeg  : Nat
  relayEntry : Nat
  relayOld  : List (Nat × Nat × Nat)
  deriving DecidableEq, Repr

/-- A segmented write in progress (R478). -/
structure SegWrite where
  key   : Nat
  total : Nat
  data  : Bytes
  deriving DecidableEq, Repr

/-- A device-to-host image for one subscriber (R480, R481): number, cycle tag, image applied, bytes and how many were sent. -/
structure OutImage where
  num     : Nat
  cycle   : Nat
  applied : Nat
  data    : Bytes
  off     : Nat
  deriving DecidableEq, Repr

/-- A host session (R470-R473), open or awaiting confirmation: subscriptions with their counts and what waits to be sent, transfers and
snapshots. -/
structure Session where
  id       : Nat
  isOpen   : Bool
  key      : Bytes
  keySet   : Bool
  comm     : Bool
  idle     : Nat
  rx       : Nat
  tx       : Nat
  stored   : List (Nat × Nat × Nat × Bytes)
  events   : Nat
  evCount  : Nat
  evQueue  : List Bytes
  logQueue : List Bytes
  period   : Nat
  images   : Nat
  sending  : Option OutImage
  waitImg  : Option OutImage
  segw     : Option SegWrite
  snaps    : List (Nat × Bytes)
  deriving DecidableEq, Repr

/-- The host link (R464-R485). `ports` holds enable, speed setting and address mode of each port as taken at bring-up (R466) and `offer`
the address a DHCP server offered; `imgNum` numbers the incomplete host-to-device image whose bytes `image` collects by offset, `floor` is
the lowest number still accepted, `applied` the image last made active and `d2h` the newest device-to-host image with its cycle (R21). -/
structure HostSt where
  ports    : List (Nat × Nat × Nat)
  offer    : Table Nat
  sessions : List Session
  lease    : Nat
  imgNum   : Option Nat
  imgLen   : Nat
  image    : Table Nat
  floor    : Nat
  pending  : Option (Nat × Bytes)
  applied  : Nat
  d2h      : Nat × Bytes
  deriving DecidableEq, Repr

/-- A master a domain clock can follow (R278): its Announce data set in comparison order, identity, port and transport. -/
structure Master where
  rank   : List Nat
  ident  : Nat
  port   : Nat
  utc    : Nat
  scale  : Nat
  steps  : Nat
  udp    : Bool
  deriving DecidableEq, Repr

/-- A PTP domain clock (R279): its value in units of 2^-40/10 ns, the masters heard per port, the servo's offsets since
its last step, the run counts of its state table and the sequence numbers of the messages sent, by port and type. -/
structure DomainSt where
  clock   : Nat
  best    : Option Master
  heard   : List Master
  offsets : List Int
  good    : Nat
  bad     : Nat
  sent    : Table Nat
  deriving DecidableEq, Repr

/-- The time unit (R269-R284). Times are in units of 2^-40/10 ns, so that one point of the 0.8 ns grid advances a base by
its per-tick step exactly; `grid` counts 0.8 ns points of the root. `k` is the base cycle, `kc` and `kt` the cycles of the
last control instant and of the last tight one. `taps` holds the pulses of CYC_TAP by their begin, their end and the end of the inactive
time after them, in local time (R250), `srcWrite` says that the source of segment time has been written (R276). `ptCount` counts the occurrences of each cycle point and
`ptDue` holds the base cycle, segment time and local time of one that has come and not yet fired (R249). -/
structure TimeSt where
  grid   : Nat
  local_ : Nat
  seg    : Nat
  k      : Nat
  kc     : Nat
  kt     : Nat
  ySrc   : F32
  hold   : Bool
  srcWrite : Bool
  domA   : DomainSt
  domB   : DomainSt
  capHeld : Nat
  trigNext : Table Nat
  taps    : List (Nat × Nat × Nat)
  chillAt : Option Nat
  ptCount : Table Nat
  ptDue   : Table (Option (Nat × Nat × Nat))
  deriving DecidableEq, Repr

/-- Stop categories, in rising strictness (R103). -/
inductive StopCat where
  | hold | quick | torqueOff
  deriving DecidableEq, Repr

/-- A stop demand on an axis (R103): category, cause of 0x09.02, the arbiter's number (0 for none), and whether it arose after
the control instant of its cycle. -/
structure Demand where
  cat   : StopCat
  cause : Nat
  seq   : Nat
  late  : Bool
  deriving DecidableEq, Repr

/-- A phase of a profile: a duration in seconds and a constant jerk, as binary64 patterns (R108). -/
structure Phase where
  dur  : F64
  jerk : F64
  deriving DecidableEq, Repr

/-- A profile: activation instant, start position (Q48.16), start velocity and acceleration, phases and, for a position
entry, the target (R108). -/
structure Prof where
  k0     : Nat
  p0     : Int
  v0     : F64
  a0     : F64
  phases : List Phase
  target : Option Int
  deriving DecidableEq, Repr

/-- States of a queue entry (R107). -/
inductive EntryState where
  | queued | active | interrupted
  deriving DecidableEq, Repr

/-- A queue entry (R105) with the fields taken at its Append; `resolved` is its absolute target once known (R106), `since` the control
instant from which its duration counts (R109, R110). -/
structure QEntry where
  typ      : Nat
  tag      : Nat
  target   : Int
  vel      : F32
  acc      : F32
  dec      : F32
  jerk     : F32
  fillet   : Nat
  dur      : Nat
  span     : Int
  mkind    : Nat
  mnum     : Nat
  num      : Int
  den      : Nat
  anchor   : Nat
  phi      : Int
  engage   : Nat
  st       : EntryState
  resolved : Option Int
  durLeft  : Nat
  reached  : Bool
  ending   : Bool
  started  : Bool
  since    : Nat
  deriving DecidableEq, Repr

/-- A running gear law (R114, R115): anchor, last master position, travel and the blend's start differences. -/
structure GearRun where
  m0      : Int
  p0      : Int
  lastM   : Int
  travel  : Int
  ka      : Nat
  e0      : F64
  ev      : F64
  ea      : F64
  deriving DecidableEq, Repr

/-- A limit or reference input of an axis (R120-R123): sampled level, release count, the instants of its last changes and
the chatter latch. -/
structure InputSt where
  active   : Bool
  released : Bool
  quiet    : Nat
  changes  : List Nat
  latched  : Bool
  deriving DecidableEq, Repr

/-- A homing run (R125, R126) with the settings copied at Home: the search direction in force, the path length since Home in
Q48.16 counts, the phase of 0x29.01 (the one to come while `braking`) whether the first instant is still to come, and the result a stop gives the run. -/
structure HomeRun where
  method  : Nat
  neg     : Bool
  search  : F32
  creep   : F32
  acc     : F32
  jerk    : F32
  home    : Int
  park    : Option Int
  travel  : F32
  last    : Int
  path    : Nat
  phase   : Nat
  braking : Bool
  fresh   : Bool
  outcome : Nat
  deriving DecidableEq, Repr

/-- The motion state of an axis slot (R98-R127). -/
structure MotionSt where
  queue    : List QEntry
  prof     : Option Prof
  blend    : Option Prof
  gear     : Option GearRun
  livePhi  : Option Int
  demands  : List Demand
  homing   : Option HomeRun
  inPos    : InputSt
  inNeg    : InputSt
  inRef    : InputSt
  digital  : Nat
  refFlag  : Bool
  refLatch : Int
  restore  : Option Int
  stop     : Option StopCat
  pPrev    : Int
  vPrev    : F32
  deriving DecidableEq, Repr

/-- The loop state of a servo axis (R57-R74): newest accepted sample, tracking, notch filter states and probe values; `lost` says that
the running stretch of stale instants has been reported (R60). Times are segment time in units of 2^-16 ns (R54). -/
structure ServoSt where
  count   : Nat
  ps      : Int
  ts      : Int
  pExt    : Int
  stale   : Nat
  hor     : F32
  ev      : F32
  tIn     : F32
  tOut    : F32
  n1s1    : F32
  n1s2    : F32
  n2s1    : F32
  n2s2    : F32
  n1on    : Bool
  n2on    : Bool
  fresh   : Bool
  lost    : Bool
  deriving DecidableEq, Repr

/-- The current loop of a wire-current axis (R87-R94): `asked` says that the newest frame carried the clear bit and its answer is still to
come, `fault` that the stage reported a fault last; and the last sample of a phase-reporting stepper axis (R96): currents,
time, whether there is one, and whether the estimate was valid. -/
structure CurrentSt where
  jd      : F32
  jq      : F32
  missing : Nat
  dutyA   : Nat
  dutyB   : Nat
  dutyC   : Nat
  apply   : Nat
  gates   : Bool
  clear   : Bool
  asked   : Bool
  fault   : Bool
  ia      : F32
  ib      : F32
  at_     : Int
  held    : Bool
  valid   : Bool
  deriving DecidableEq, Repr

/-- A network stepper axis (R130, R138-R148): extended position, window contents, counts, the bus voltage and duty of the newest
window and its sample timestamp `ts`; `lost` says that the running stretch without a window has been reported (R143). -/
structure StepperSt where
  ps      : Int
  missing : Nat
  stall   : Nat
  tgt     : Nat
  vel     : Int
  apply   : Nat
  energise : Bool
  clear   : Bool
  ud      : F32
  duty    : F32
  accepted : Bool
  lost    : Bool
  ts      : Int
  deriving DecidableEq, Repr

/-- A step channel (R133-R136, R150): step count S, accumulator, velocity word and direction (`neg`: sigma is -1); suppressed ticks of this
cycle and of the next, the tick of this cycle at which the last pulse and its inactive time end, and the settings of this cycle. -/
structure ChanSt where
  s       : Int
  acc     : Nat
  v       : Nat
  neg     : Bool
  nSup    : Nat
  supLeft : Nat
  idle    : Nat
  width   : Nat
  setup   : Nat
  pol     : Nat
  on      : Bool
  deriving DecidableEq, Repr

/-- A pulse input (R153-R163). Times are segment time in units of 0.8 ns. `waiting` holds the active edges whose processing is
not complete (R155): time, completion, width in ns and the latched command direction. -/
structure PulseSt where
  ta      : Int
  te      : Int
  lastEdge : Option Int
  tp      : Option F64
  v       : F32
  invalid : Bool
  restart : Bool
  sNeg    : Bool
  cmdNeg  : Bool
  refPending : Bool
  basis   : Option Int
  mism    : Bool
  dLast   : Int
  pRef    : Int
  suspect : Bool
  refNow  : Bool
  pExt    : Int
  pPrev   : Int
  vPrev   : F32
  refEvent : Bool
  toothNow : Bool
  watch   : Nat
  waiting : List (Int × Int × Nat × Bool)
  deriving DecidableEq, Repr

/-- An encoder emulation output (R165-R169): the count and phase accumulator the running cycle began with (or was stopped at), scaling
residue, previous target and edge direction. -/
structure EmuSt where
  on      : Bool
  c       : Int
  r       : Nat
  prev    : Int
  tgt     : Int
  acc     : Nat
  v       : Nat
  neg     : Bool
  shift   : Int
  ovr    : Bool
  deriving DecidableEq, Repr

/-- Phases of a cold start (R236, R237). -/
inductive ColdPhase where
  | idle | listening | sending | backoff
  deriving DecidableEq, Repr

/-- A mailbox exchange with a node (R241): class of R242, request sequence and payload, opportunities used (0: not yet sent) and
the cycle it was sent last. -/
structure Exchange where
  node    : Nat
  cls     : Nat
  seq     : Nat
  payload : Bytes
  used    : Nat
  at_     : Nat
  deriving DecidableEq, Repr

/-- The head's sequencing state of a segment (R229-R245). `forced` is a departure from Synchronous due at the next cycle
boundary; `swap` is the mould still in force after another was written to a Stopped segment (R245), `pend` the role (1 originator, 2
follower) in which a line enters Integrating at its next boundary, `waits` counts corrections that had to wait (R221); `missNow` says that this cycle's
report of source 81 has been made, `mailed` that a mailbox frame was sent this cycle, `start` is the cycle its state or step began,
`lastClaim` the claim of the last frame sent, `area` the last coded area and corrections, and `lead` says that the unit was the leader at
the line's field cycle start (R319). -/
structure SegSt where
  hold      : Bool
  forced    : Bool
  quietExit : Bool
  swap      : Option Bytes
  pend      : Nat
  cold      : ColdPhase
  sent      : Nat
  heard     : Bool
  start     : Nat
  rolled    : Bool
  exchanges : List Exchange
  hostReq   : Option (Nat × Bytes)
  served    : Nat
  missNow   : Bool
  corrections : List (Nat × Nat × Int)
  waits     : Nat
  fieldCycle : Nat
  mailed    : Bool
  lastClaim : Nat
  area      : Bytes
  lead      : Bool
  deriving DecidableEq, Repr

/-- What the head keeps of a node (R239-R248, R530): state, exchange sequence, identity, the node block accepted this
cycle (`rx1` that of the first cycle of a tight base cycle) and the run counts of R221 and R530. Of a line node, `own` says which of its slot (1) and riser (2) of this field cycle this unit has itself
taken, `onTime` and `dev1`, `dev2` what its frames' deviations were on either pair. -/
structure HeadNode where
  state    : Nat
  addressed : Bool
  step     : Nat
  chunk    : Nat
  seq      : Nat
  ntype    : Nat
  latency  : Nat
  rx       : Option Bytes
  rx1      : Option Bytes
  replyReady : Bool
  missing  : Nat
  dev      : Nat
  own      : Nat
  onTime   : Bool
  dev1     : Option Int
  dev2     : Option Int
  exclAt   : Nat
  alarm    : Bool
  chillSt  : Nat
  chillCyc : Nat
  chillCnt : List Nat
  chillHeld : Nat
  slot     : Option Bytes
  riser    : Option Bytes
  slotMiss : Bool
  h1       : Int
  h2       : Int
  synced   : Bool
  approx   : Bool
  words    : List Nat
  flags    : Nat
  recCyc   : Nat
  resync   : Option Nat
  age      : Option Nat
  needAbs  : Bool
  tables   : List Nat
  asked    : Option Nat
  deriving DecidableEq, Repr

/-- A window of a ring node (R83-R86, R138-R142, R199-R202): the downstream window in force, whether the node drives with it, ring cycles in a
row without a copy and whether the last one was held, and the ring cycles begun whose apply instant is still to come. A stepper window's
target is `age` periods of 32 µs old (2: held) since the node time `at_`, its winding currents are in mA/32767; `latch` is the index
position a servo window holds. -/
structure WinSt where
  word  : Bytes
  gates : Bool
  miss  : Nat
  held  : Bool
  owed  : Nat
  age   : Nat
  at_   : Int
  coilA : Int
  coilB : Int
  latch : Option Int
  deriving DecidableEq, Repr

/-- The state an Ndeom node holds by the node builder's obligations (R188-R248, R360): `run` counts headers in a row with
`runTag` and rising cycles, `foreign` those in a row with another tag than its own, `miss` cycles without one; `half` says that the second
cycle of a tight ring runs, `best` is the copy selected so far in this ring cycle and `prev` that of the one before, each with its channel,
and `up` the node word and windows that every copy of this ring cycle takes; `err` is the node's error code, `sampT` the half base cycle
after that of the last sample. On a line, `recs` holds the records sampled and `slots` the slots coded by field cycle, `pdu` the safety PDU
by field cycle, `due` the field cycle of its mailbox reply and `corr` the corrections to come. `pduSeq` is sequence and permit by claim, `watch` the claims whose watchdog runs and since how many microseconds, `tabs` the microstep tables as loaded, `tabOk` the tables verified,
`fwNext` the next offset of a firmware relay; `counters` counts frames of no type of R195 and frames dropped on pairs 1 and 2. -/
structure NodeSt where
  addrA    : Option Nat
  addrB    : Option Nat
  syncA    : Bool
  syncB    : Bool
  lock     : Bool
  tag      : Nat
  run      : Nat
  runTag   : Nat
  foreign  : Nat
  lastCyc  : Nat
  lastHalf : Bool
  miss     : Nat
  sched    : Option Bytes
  integrated : Bool
  timeCyc  : Nat
  half     : Bool
  bestClaim : Nat
  best     : Option (Bool × Bytes)
  prev     : Option (Bool × Bytes)
  appChan  : Bool
  noCopy   : Bool
  up       : Option Bytes
  outputs  : Bool
  err      : Nat
  clear    : Bool
  wins     : Table WinSt
  sampT    : Nat
  sample   : Bytes
  written  : Bytes
  reqSeq   : Nat
  reply    : Bytes
  ready    : Bool
  due      : Option Nat
  counters : List Nat
  copied   : List Nat
  chillCyc : Nat
  chill    : List Nat
  wrapA    : Bool
  wrapB    : Bool
  s1       : Int
  s2       : Int
  corr     : List (Nat × Int)
  excluded : Bool
  setpoint : Nat
  alarm    : Bool
  h1       : Int
  h2       : Int
  anchor   : Bool
  anchorAt : Option Nat
  slots    : List (Nat × Bytes)
  recs     : List (Nat × Bytes)
  spSync   : Bool
  pduSeq   : List (Nat × Nat)
  watch    : List (Nat × Nat)
  sto      : Bool
  pduOut   : Nat
  pdu      : Option (Nat × Bytes)
  tabs     : Table Bytes
  tabOk    : Nat
  fwNext   : Nat
  deriving DecidableEq, Repr

/-- The shared memory (R395, R400): bytes listed by address, and the words that hold a single-bit or a double-bit error. -/
structure MemSt where
  cells  : List (Nat × Byte)
  single : List Nat
  bad    : List Nat
  deriving DecidableEq, Repr

/-- The scratchpad of a cluster (R2, R403): bytes listed by address (others read 0), and the addresses of the bytes whose odd parity
does not hold. -/
structure Pad where
  cells : List (Nat × Byte)
  bad   : List Nat
  deriving DecidableEq, Repr

/-- The memory testers' and ports' state (R399-R408): the scrub queue, the corrections of the current second, the
millisecond of the pass and the region test in progress with the banks in it. -/
structure MemTest where
  scrubs  : List Nat
  corr    : Nat
  ms      : Nat
  testing : Bool
  deriving DecidableEq, Repr

/-- A group of samples not yet coded (R306): first sample number and, per sample, one stored value per channel; or, with a
reason other than 0, a gap of `len` samples (R303). -/
structure Group where
  first  : Int
  vals   : List (List Int)
  len    : Nat
  reason : Nat
  deriving DecidableEq, Repr

/-- A record of the store (R305): its bytes, its trigger time as a TIME112 pattern (0 for none) and whether it is complete. -/
structure Record where
  num      : Nat
  set      : Nat
  bytes    : Bytes
  complete : Bool
  trig     : Nat
  stored   : Nat
  gaps     : Nat
  deriving DecidableEq, Repr

/-- A run of dropped samples being described (R303). -/
structure GapRun where
  first  : Int
  len    : Nat
  reason : Nat
  deriving DecidableEq, Repr

/-- An acquisition set (R291-R303) beside its objects. `sums` accumulates averaging, `hist` keeps the source samples of each channel
that can still bracket a grid instant, oldest first, `armed` the level conditions by bit (rising and falling of T1, then of T2), `coder`
the two last reconstructed values and the count since the history restarted; `started` says that the start unit is written. -/
structure SetSt where
  owner   : Nat
  occ     : Nat
  sums    : List Int
  summed  : Nat
  hist    : List (List (Int × Int))
  armAt   : Nat
  count   : Nat
  prev    : Option (List Int)
  armed   : Nat
  auto    : Bool
  started : Bool
  pre     : List Group
  cur     : Option Group
  trigAt  : Option Nat
  gap     : Option GapRun
  gapSeen : Bool
  coder   : List (Int × Int × Nat)
  rearmAt : Nat
  rearms  : Nat
  rearmT  : Nat
  manual  : Nat
  faults  : List (Nat × Nat)
  fires   : List (Nat × Nat)
  deriving DecidableEq, Repr

/-- An upload request in progress (R311): record, next offset, end and destination session. -/
structure Upload where
  num  : Nat
  off  : Nat
  stop : Nat
  dest : Nat
  deriving DecidableEq, Repr

/-- The acquisition engine (R289-R315): sets, records oldest first, the upload, the stream queues and the datagram
sequences per set and kind. A queue entry is a set, a record number, an offset within the record, bytes and the last flag. -/
structure AcqSt where
  sets    : Table SetSt
  recs    : List Record
  upload  : Option Upload
  streams : List (Nat × Nat × Nat × Bytes × Bool)
  seqs    : Table Nat
  deriving DecidableEq, Repr

/-- A pairing message (R326 type 0x0E). -/
structure PairingMsg where
  serial  : BitVec 64
  claim   : BitVec 8
  version : BitVec 16
  paired  : BitVec 16
  tags    : List (BitVec 16)
  ends    : BitVec 8
  digest  : BitVec 32
  deriving DecidableEq, Repr

/-- The state of one pulse input as the leader sends it (R326 type 0x08, R330). -/
structure PulseImage where
  num    : PIn
  st     : PulseSt
  pe     : BitVec 64
  te     : BitVec 112
  vrep   : BitVec 32
  status : BitVec 16
  tooth  : BitVec 16
  deriving DecidableEq, Repr

/-- One item of a dictionary write (R474): index, sub-index, reserved flags and the value's bytes. -/
structure WrItem where
  idx   : BitVec 16
  sub   : BitVec 8
  flags : BitVec 8
  val   : Bytes
  deriving DecidableEq, Repr

/-- A forwarded item (R330). -/
inductive FwdItem where
  | write (items : List WrItem)
  | image (data : Bytes)
  | command (n : Ax) (v : BitVec 16)
  | mode (m : BitVec 8)
  | mailbox (nd : NodeId) (seq : BitVec 8) (payload : Bytes)
  | nodeState (nd : NodeId) (st : BitVec 8)
  | chill (cyc : BitVec 64)
  | safeHold (cause : BitVec 16)
  deriving DecidableEq, Repr

/-- The content of an axis unit of the state transfer (R333): the axis slot's object values and its internal state. -/
structure AxisImage where
  objs    : List (Nat × Nat)
  motion  : MotionSt
  servo   : ServoSt
  current : CurrentSt
  stepper : StepperSt
  chan    : ChanSt
  deriving DecidableEq, Repr

/-- A unit of the state transfer (R333). The manual gives sizes, not layouts; the content is the unit's state itself. -/
inductive StateUnit where
  | device (mode : BitVec 8) (pending : Option (Nat × Bytes)) (items : List (Nat × FwdItem)) (chill : Option Nat) (objs : List (Nat × Nat))
  | segment (g : Seg) (st : SegSt) (nodes : List (Nat × HeadNode)) (objs : List (Nat × Nat))
  | axis (n : Ax) (a : AxisImage)
  | node (l : Line) (k : FNode) (nd : HeadNode) (objs : List (Nat × Nat))
  deriving DecidableEq, Repr

/-- The last beacon of the partner (R326 type 0x01). -/
structure Beacon where
  k     : Nat
  time  : Nat
  claim : Nat
  st    : Nat
  mode  : Nat
  deriving DecidableEq, Repr

/-- A message that waits for the pair link (R325-R327): class, type, cycle, bytes still to go of its 14 and its payload, whether some have
gone, and the payload. -/
structure LinkMsg where
  cls     : Nat
  typ     : Nat
  cycle   : Nat
  left    : Nat
  started : Bool
  data    : Bytes
  deriving DecidableEq, Repr

/-- The pair link and pair state (R316-R342) beside their objects. Table keys of blocks are segment*256+node. `excl` holds the
exclusions that came in time, `mine` and `theirs` the digests of the last cycles, `applied` the bytes of the items applied since the last
control instant, `dropAt` a boundary at which the claim drops and the state becomes `dropTo`, `dropped` a claim given up, `differ` the units to send or to
receive, `checked` the units compared in this verification, `debt` the state bytes sent ahead, `heardLines` the lines whose last field
cycle start brought the partner's summation frame, `holdSeq` the number of the item behind a forwarded entry into Safe-hold, `queue` the
messages that wait for the link, oldest first, `used` and `usedFwd` the bytes of this base cycle given to messages and to Forward (R327),
`digestAt` the next unit whose digest this unit sends and `found` what the running verification found different (R333), `decided` the ring
channels decided in this ring cycle and whether the own frame was sent (R318), `counted` the nodes a roll call of the other head had
counted on channel A of a ring (R324), and `fieldIn` the node frames of a line whose decoded values the next publication shows (R331). -/
structure PairSt where
  linkAt   : Nat
  heardHead : Bool
  partner  : Option PairingMsg
  beaconIn : Bool
  missed   : Nat
  last     : Option Beacon
  prints   : Table Nat
  requested : List Nat
  excl     : Option (List (Nat × Nat))
  fullSets : List Nat
  fullServe : List Nat
  mine     : List (Nat × Nat × Nat)
  theirs   : List (Nat × Nat × Nat)
  items    : List (Nat × FwdItem)
  applied  : Bytes
  announced : Option (Nat × Nat)
  dropAt   : Option Nat
  dropTo   : Nat
  dropped  : Bool
  arrivals : Table (List Nat)
  driving  : Bool
  differ   : List Nat
  checked  : Nat
  debt     : Nat
  startedAt : Nat
  delayT   : Option Nat
  safety   : List Bytes
  heardLines : List Nat
  holdSeq  : Nat
  queue    : List LinkMsg
  used     : Nat
  usedFwd  : Nat
  digestAt : Nat
  found    : List Nat
  decided  : List (Nat × Bool)
  counted  : Table (Option Nat)
  fieldIn  : Table Bytes
  deriving DecidableEq, Repr

/-- A safety node or partner stream the island verifies (R349, R363): last sequence per claim, time since the last fresh
PDU in microseconds (none before the first) and its payload. -/
structure SafeIn where
  seq  : Option Nat
  age  : Option Nat
  bits : Nat
  deriving DecidableEq, Repr

/-- A function instance (R350-R354). `disc` counts the microseconds of a running discrepancy, `timer` those since entry
into Demand, `low` the bridged low of a light curtain, `unlockT` those since the permit fell. -/
structure InstSt where
  state   : Nat
  permit  : Bool
  disc    : Nat
  disc2   : Nat
  ovr    : Bool
  cause   : Nat
  timer   : Option Nat
  low     : Nat
  unlockT : Nat
  unlockOn : Bool
  resetHigh : Option Nat
  released : Bool
  btn1    : Option Nat
  btn2    : Option Nat
  seen    : Nat
  seenT   : Nat
  deriving DecidableEq, Repr

/-- The safety island (R343-R373): its objects, block, confirmation, instances, outputs and PDU sequences. `sampleMode` is
the commissioning request, `mism` counts the island cycles of disagreement. -/
structure IslandSt where
  state    : Nat
  cause    : Nat
  stopReq  : Bool
  block    : Bytes
  check    : Nat
  conf     : Nat
  storedConf : Nat
  storeStatus : Nat
  storing  : Option SafetyRec
  permits  : Nat
  insts    : Table InstSt
  si       : Nat
  siFault  : Nat
  siT      : Table Nat
  so       : Nat
  soFault  : Nat
  soBad    : Table Nat
  vso      : Bool
  unlocks  : Nat
  counters : Table Nat
  mism     : Nat
  nodeIn   : Table SafeIn
  partner  : Table SafeIn
  seqs     : Table Nat
  now      : Nat
  sat      : List Nat
  commissioned : Bool
  deriving DecidableEq, Repr

/-- What the part hands to a port (the model's own list of effects outside the part, oldest first): a frame of a segment on
one or both channels, a datagram of a session, another Ethernet frame, a pair-link message, step pulses of a cycle, a
CYC_TAP pulse, an action of a node, the status of a write (R37) with the mapping entry it names (R49), the response of the shared memory to a port (0 done, 1 error,
2 collision, 3 not ready, 4 lost). -/
inductive Msg where
  | segment (g : Nat) (ch : Option Chan) (data : Bytes)
  | passed (g : Nat) (ch : Chan)
  | datagram (p : Port) (session kind : Nat) (data : Bytes)
  | ether (p : Port) (kind : Nat) (data : Bytes)
  | pair (kind cycle : Nat) (data : Bytes)
  | steps (o : SOut) (n : Int)
  | tap
  | node (nd : NodeId) (data : Bytes)
  | status (code entry : Nat)
  | memory (port resp data : Nat)
  deriving DecidableEq, Repr

end Sys2Proof.Machine
end

