-- ==== Sys2Proof/Syntax.lean ====
section
/-! DEFINITION. The commands of the part: one constructor per row of the table of operations and events (opcode_table.json,
whose rows are the steps of the manual), with the operands the step's rule names. -/
namespace Sys2Proof

open Sys2Proof.Machine

/-- The frame, header and tag of a KDA request (R465, R467-R472); its type is the command's. `plain` says that it came as one untagged,
unfragmented IPv4 datagram without options, `udp` is the UDP port it was sent to, `length` and `reserved` are the header's fields. -/
structure Kda where
  session  : BitVec 32
  counter  : BitVec 64
  reqId    : BitVec 32
  tag      : Bytes
  plain    : Bool
  udp      : BitVec 16
  version  : BitVec 8
  flags    : BitVec 8
  status   : BitVec 8
  length   : BitVec 16
  reserved : BitVec 16
  deriving DecidableEq, Repr

/-- One item of a dictionary read (R474). -/
structure RdItem where
  idx   : BitVec 16
  sub   : BitVec 8
  flags : BitVec 8
  deriving DecidableEq, Repr

/-- A port's request in one fabric clock (R396-R402): 2^size bytes at an address; `upset` says whether the addressed word has
gained a single-bit (1) or a double-bit (2) error by then, `parity` that the transfer fails its parity, `aged` that the
request has waited 16 bank clocks. -/
structure MemReq where
  port   : Fin 16
  write  : Bool
  addr   : BitVec 23
  size   : Fin 4
  data   : BitVec 64
  upset  : Fin 3
  parity : Bool
  aged   : Bool
  deriving DecidableEq, Repr

/-- The commands: one per row of the table. -/
inductive Instr where
  /-- BASE_CYCLE_START (R15): At each base cycle start the ring engines emit the cyclic frame of the cycle on both channels and boundary-timed changes take effect. -/
  | baseCycleStart
  /-- CONTROL_INSTANT (R16): At the control instant the ring engine closes the cycle's inputs and the control phase runs in its fixed order. -/
  | controlInstant
  /-- TIGHT_CONTROL_INSTANT (R77): At t0 + 12 µs a cluster holding tight-ring axes evaluates only the current loops of wire-current axes. -/
  | tightControlInstant
  /-- FIELD_CYCLE_START (R19): At the start of a field cycle the line head emits its summation frame, which carries setpoints taken at the end of the previous base cycle. -/
  | fieldCycleStart (l : Line)
  /-- WINDOW_COPY_RECEIVED (R17): A returning window copy is kept if it is the first acceptable copy; a second copy is discarded and counted if it differs. -/
  | windowCopyReceived (r : Ring) (j : RNode) (c : Chan) (typ flags : BitVec 8) (hdrOk crcOk : Bool) (inv err : BitVec 8) (claim cyc : BitVec 8) (data : Bytes)
  /-- AXIS_FEEDBACK_LOSS (R60): When the consecutive-stale count reaches the loss threshold, the axis raises feedback loss and turns its torque off. -/
  | axisFeedbackLoss (n : Ax)
  /-- AXIS_CURRENT_FEEDBACK_LOSS (R92): When the count of consecutive phases without a usable sample reaches its threshold, the gates are turned off and current feedback loss is raised. -/
  | axisCurrentFeedbackLoss (n : Ax)
  /-- NODE_APPLY_INSTANT (R86): At t_app a node applies the highest-claim valid copy, or holds its duties and after two missing cycles turns its gates off. -/
  | nodeApplyInstant (nd : NodeId) (w : Win)
  /-- AXIS_COMMAND_NONE (R102): Command 0x00 takes the sequence byte and does nothing else. -/
  | axisCommandNone (n : Ax) (seq : BitVec 8)
  /-- ENABLE (R104): The Enable command sets p_ref to p_ext and starts the cascade when its conditions are met. -/
  | enable (n : Ax) (seq : BitVec 8)
  /-- DISABLE (R104): The Disable command sets the torque to 0 at once and keeps the queue. -/
  | disable (n : Ax) (seq : BitVec 8)
  /-- APPEND (R106): The Append command checks the staged entry and appends it to the move queue or refuses it. -/
  | append (n : Ax) (seq : BitVec 8)
  /-- STOP_HOLD (R117): The hold stop command brings the reference to rest with the active entry's deceleration and jerk. -/
  | stopHold (n : Ax) (seq : BitVec 8)
  /-- STOP_QUICK (R117): The quick stop command brings the reference to rest with the quick deceleration and jerk. -/
  | stopQuick (n : Ax) (seq : BitVec 8)
  /-- RESUME (R119): The Resume command continues an interrupted entry, or starts the first queued entry, from Held. -/
  | resume (n : Ax) (seq : BitVec 8)
  /-- FLUSH (R107): The Flush command removes all queued and interrupted entries. -/
  | flush (n : Ax) (seq : BitVec 8)
  /-- HOME (R125): The Home command starts the configured homing method from Standstill. -/
  | home (n : Ax) (seq : BitVec 8)
  /-- ACKNOWLEDGE (R104): The Acknowledge command takes a Faulted axis to Disabled when no cause is present and clears a chatter latch. -/
  | acknowledge (n : Ax) (seq : BitVec 8)
  /-- LIMIT_RELEASED (R121): A limit that has been inactive for the debounce count of control instants becomes released. -/
  | limitReleased (n : Ax) (input : Fin 2)
  /-- LIMIT_CHATTER (R123): When an input's change count in the chatter window exceeds N, the axis raises limit chatter and takes its fault stop. -/
  | limitChatter (n : Ax) (input : Fin 3)
  /-- VELOCITY_DURATION_END (R109): When a velocity entry's duration has run, it ends or ramps to rest. -/
  | velocityDurationEnd (n : Ax)
  /-- DWELL_END (R110): When a dwell entry's duration has run, the dwell entry ends. -/
  | dwellEnd (n : Ax)
  /-- GEAR_SPAN_REACHED (R111): When the accumulated master travel reaches the span, a gear entry ends or ramps to rest. -/
  | gearSpanReached (n : Ax)
  /-- GEAR_ENGAGE_END (R115): After n_e base cycles the gear engage blend ends and the references equal the gear law. -/
  | gearEngageEnd (n : Ax)
  /-- LIVE_PHASE_OFFSET_WRITE (R116): A write of the live phase offset sets φ and starts a new engage of the active gear entry. -/
  | livePhaseOffsetWrite (n : Ax) (phi : BitVec 64)
  /-- AXIS_STALL (R147): When the stall count reaches N_stall, the axis raises stall, clears referenced and takes its fault stop. -/
  | axisStall (n : Ax)
  /-- STEPPER_FEEDBACK_LOSS (R143): When the missing-window count reaches the loss threshold, a stepper axis raises feedback loss and goes Faulted. -/
  | stepperFeedbackLoss (n : Ax)
  /-- MICROSTEP_TABLE_WRITE (R145): A microstep table write is checked, its CRC computed, and the table reloaded into integrated stepper nodes. -/
  | microstepTableWrite (t : Fin 4) (data : Bytes)
  /-- NODE_TARGET_MISSING (R142): A stepper node with no new target within 32 µs continues at its last velocity, and within 64 µs holds its position. -/
  | nodeTargetMissing (r : Ring) (j : RNode) (w : Win)
  /-- TOOTH_EVENT (R157): An accepted active edge is counted as a tooth event, and the position, period, speed and reference tests are updated. -/
  | toothEvent (i : PIn) (dg : BitVec 32) (width : BitVec 32)
  /-- STANDSTILL_TIMEOUT (R162): When no tooth comes within T_ss, standstill is set and the next tooth takes the restart path. -/
  | standstillTimeout (i : PIn)
  /-- PULSE_INPUT_SIGNAL_FAULT (R163): A differential level below the fail-safe threshold for 1 µs raises signal fault and stops the axes fed by the input. -/
  | pulseInputSignalFault (i : PIn)
  /-- PULSE_INPUT_LOSS (R163): No tooth for the watch time while the command axis runs at the watch speed or above declares pulse input loss. -/
  | pulseInputLoss (i : PIn)
  /-- RECEIVER_SYNCHRONISED (R177): After equaliser convergence, a receiver synchronises on 4 aligned idle sets. -/
  | receiverSynchronised (g : Seg) (c : Chan) (eq eye : BitVec 8)
  /-- RECEIVER_SYNC_LOSS (R177): A receiver loses synchronisation on invalid characters or on loss of signal detect. -/
  | receiverSyncLoss (g : Seg) (c : Chan) (inv : BitVec 8)
  /-- NODE_WRAP_START (R321): A paired-ring node whose input on one channel fails begins to wrap the other channel onto it. -/
  | nodeWrapStart (r : Ring) (j : RNode) (c : Chan)
  /-- NODE_WRAP_END (R321): A wrapping node stops wrapping during idle once the failed input is synchronised again. -/
  | nodeWrapEnd (r : Ring) (j : RNode) (c : Chan)
  /-- MOULD_WRITE (R223): A mould write is checked for length, format, CRC and ranges and takes effect on a Stopped or Off segment. -/
  | mouldWrite (g : Seg) (data : Bytes)
  /-- FIELD_FRAME_RECEIVED (R220): The head takes a field node frame, measures its deviation and classifies it as on time, edge, out of window or missing. -/
  | fieldFrameReceived (l : Line) (k : FNode) (kind : Fin 4) (cable : Chan) (crcOk : Bool) (inv err : BitVec 8) (dev : BitVec 32) (alarm waited : Bool) (cyc : BitVec 3) (body : Bytes)
  /-- NODE_EXCLUDED (R221): A node whose deviation count reaches 8 consecutive field cycles receives an exclude entry. -/
  | nodeExcluded (l : Line) (k : FNode)
  /-- SEGMENT_REQUEST (R230): A write of the segment request asks for Off, Stopped or running, and it releases a trap hold. -/
  | segmentRequest (g : Seg) (v : BitVec 8)
  /-- COLD_START_LISTEN_END (R236): After listening for 4 slots without hearing the segment, the unit sends its first cold-start frame. -/
  | coldStartListenEnd (g : Seg)
  /-- COLD_START_SLOT_END (R236): At the end of a cold-start slot the unit judges the slot a success or a contention. -/
  | coldStartSlotEnd (g : Seg) (returned contention : Bool)
  /-- COLD_START_BACKOFF_END (R237): When a backoff ends with nothing heard, the unit restarts the cold start with the next round. -/
  | coldStartBackoffEnd (g : Seg)
  /-- OTHER_HEAD_HEARD (R237): A unit in Cold-start that hears another head's valid frame of the segment follows it into Integrating. -/
  | otherHeadHeard (g : Seg) (c : Chan) (crcOk : Bool) (kind : Fin 3) (claim : BitVec 8) (tag counter : BitVec 16) (cycle : BitVec 32)
  /-- INTEGRATION_END (R232): A segment leaves Integrating for Stopped when every node is settled or the integration time has run. -/
  | integrationEnd (g : Seg)
  /-- ROLL_CALL (R240): The originating unit sends a roll call at the rate its segment state sets. -/
  | rollCall (g : Seg) (seenA seenB : BitVec 16)
  /-- NODE_ROLL_CALL_FRAME (R235): A synchronised node takes its address from a roll-call or cold-start frame and increments the counter. -/
  | nodeRollCallFrame (nd : NodeId) (c : Chan) (count counter : BitVec 16)
  /-- NODE_FRAME_LOCK_TAKEN (R238): A node takes frame lock after enough consecutive valid headers and adopts the tag. -/
  | nodeFrameLockTaken (nd : NodeId) (tag : BitVec 16)
  /-- NODE_FRAME_LOCK_LOST (R238): A node that loses frame lock drops its address, its schedule and its Integrated status. -/
  | nodeFrameLockLost (nd : NodeId)
  /-- NODE_COPY_RECEIVED (R203): A node checks a passing cyclic frame copy, writes its upstream block and selects the copy to apply. -/
  | nodeCopyReceived (r : Ring) (j : RNode) (c : Chan) (typ : BitVec 8) (hdrOk blockOk late : Bool) (seg : BitVec 8) (claim : BitVec 8) (cycle : BitVec 32) (flags : BitVec 8) (tag : BitVec 16) (pdu data : Bytes)
  /-- NODE_SUMMATION_RECEIVED (R222): A field node accepts a summation frame, decodes its setpoint area and applies the setpoint at the apply offset. -/
  | nodeSummationReceived (l : Line) (k : FNode) (c : Chan) (typ : BitVec 8) (ok late : Bool) (claim : BitVec 8) (cycle : BitVec 32) (flags : BitVec 8) (tag : BitVec 16) (corrections : List (BitVec 16 × BitVec 16)) (pdus : List Bytes) (coded : Bytes)
  /-- NODE_SEND_INSTANT (R219): A field node starts its slot frame at its send instant, waiting for a passing frame or dropping its own. -/
  | nodeSendInstant (l : Line) (k : FNode) (kind : Fin 4) (c : Chan) (passing : BitVec 16)
  /-- MAILBOX_REPLY (R241): A mailbox reply with a matching sequence completes its exchange. -/
  | mailboxReply (nd : NodeId) (seq : BitVec 8) (payload : Bytes)
  /-- NODE_MAILBOX_TIMEOUT (R241): After 16 opportunities without a matching reply, the exchange fails with node mailbox timeout. -/
  | nodeMailboxTimeout (nd : NodeId)
  /-- NODE_ABSENT (R530): An Integrated node that misses 32 cycles of windows, or 8 field cycles of slots, is set absent. -/
  | nodeAbsent (nd : NodeId)
  /-- HOST_MAILBOX_REQUEST (R244): A host write of the mailbox request starts a pass-through exchange with a node. -/
  | hostMailboxRequest (g : Seg) (payload : Bytes)
  /-- CHILL_REQUEST (R246): A write of the chill cycle C is checked and schedules a chill. -/
  | chillRequest (cyc : BitVec 64)
  /-- CHILL_LATCH (R247): At cycle C every statistics counter is latched into its shadow and the frames carry the chill bit. -/
  | chillLatch
  /-- CHILL_COLLECTION_END (R248): When every node record has been collected or has failed, the chill set is complete or partial. -/
  | chillCollectionEnd
  /-- CYCLE_POINT (R249): A cycle point fires on its n-th occurrence and sends a UDP notification, a CYC_TAP pulse, or both. -/
  | cyclePoint (i : Fin 8)
  /-- PTP_ANNOUNCE (R278): A received Announce feeds the best-master selection of its domain. -/
  | ptpAnnounce (d : Dom) (p : Port) (udp : Bool) (rank : List (BitVec 16)) (ident : BitVec 64) (utc : BitVec 16) (arb : Bool) (steps : BitVec 16)
  /-- PTP_SYNC (R279): A Sync update measures the offset, steers or steps the domain clock and moves its state. -/
  | ptpSync (d : Dom) (udp : Bool) (t1 : BitVec 112) (dg : BitVec 32)
  /-- PTP_DELAY_RESPONSE (R279): A delay response updates the mean path delay of the domain. -/
  | ptpDelayResponse (d : Dom) (udp : Bool) (delay : BitVec 64)
  /-- PTP_TIMEOUT (R279): An announce-receipt timeout, or missing Syncs, sends the domain clock into Holdover. -/
  | ptpTimeout (d : Dom)
  /-- DELAY_REQ_SEND (R278): The device sends Delay_Req at the rate the master states. -/
  | delayReqSend (d : Dom)
  /-- PDELAY_REQ_SEND (R278): With peer-to-peer delay, the device sends Pdelay_Req once per second on each enabled port. -/
  | pdelayReqSend (d : Dom) (p : Port)
  /-- PDELAY_REQ_RECEIVED (R278): The device answers a received Pdelay_Req with Pdelay_Resp and its follow-up. -/
  | pdelayReqReceived (d : Dom) (p : Port) (udp : Bool) (dg : BitVec 32) (msg : Bytes)
  /-- ALIGNMENT_HOLD_END (R274): The alignment hold ends by stepping segment time to the locked domain or by timing out. -/
  | alignmentHoldEnd
  /-- SOURCE_RELOCKED (R276): After 60 s of uninterrupted lock, the configured source becomes the active source again. -/
  | sourceRelocked
  /-- TIME_SOURCE_WRITE (R276): A host write of the segment-time source is a switch like any other. -/
  | timeSourceWrite (v : BitVec 8)
  /-- REALIGN (R275): The realign command steps segment time to the source when every segment is Off. -/
  | realign
  /-- CAPTURE_EVENT (R281): An event of a capture unit's source records all four time bases. -/
  | captureEvent (u : Fin 8) (dg : BitVec 32)
  /-- CAPTURE_ARM (R281): Writing Enable arms or re-arms a capture unit. -/
  | captureArm (u : Fin 8) (on : Bool)
  /-- TIME_TRIGGER_FIRE (R282): A time trigger fires when its base reaches the next instant, and it acts through its outputs. -/
  | timeTriggerFire (u : Fin 4)
  /-- TIME_TRIGGER_ENABLE (R282): A trigger instant or enable write is checked against the base and arms the trigger. -/
  | timeTriggerEnable (u : Fin 4) (on : Bool) (instant : Option (BitVec 112))
  /-- DOMAIN_CONFIG_WRITE (R287): A write to a PTP domain configuration takes effect by passing the domain through Disabled. -/
  | domainConfigWrite (d : Dom) (sub : BitVec 8) (v : BitVec 32)
  /-- ACQUISITION_ARM (R300): The Arm command checks the load and starts a record of the set. -/
  | acquisitionArm (a : ASet) (id : BitVec 32)
  /-- ACQUISITION_STOP (R300): The Stop command ends the record with cause stopped and returns the set to Idle. -/
  | acquisitionStop (a : ASet)
  /-- MANUAL_TRIGGER (R297): The manual trigger command is an event for trigger conditions of kind manual. -/
  | manualTrigger (a : ASet)
  /-- DELETE_RECORDS (R313): The delete command removes the set's complete unlocked records. -/
  | deleteRecords (a : ASet)
  /-- AUTO_TRIGGER (R299): When the auto timeout runs out, the set fires itself with cause auto. -/
  | autoTrigger (a : ASet)
  /-- REARM_END (R300): At base cycle k + 2 after the last post-trigger sample, the next record starts. -/
  | rearmEnd (a : ASet)
  /-- UPLOAD_START (R311): An upload request sends a byte range of a stored record and locks the record. -/
  | uploadStart (id : BitVec 32)
  /-- ACQUISITION_DATAGRAM_SEND (R311): A queued acquisition datagram leaves within the rate limit. -/
  | acquisitionDatagramSend (a : ASet) (upload : Bool) (p : Port) (upset : Fin 3)
  /-- PAIR_ENABLE_WRITE (R323): Setting pair enable starts link training, and clearing it returns the unit to Unpaired. -/
  | pairEnableWrite (v : Bool)
  /-- PAIR_LINK_UP (R323): When the link is up and the pairing checks pass, the unit enters Sole or Joining. -/
  | pairLinkUp (lanes : BitVec 4)
  /-- PAIR_LANE_LOSS (R325): A lane loss drops the link to 2 lanes, which raises link degraded, or takes the link down. -/
  | pairLaneLoss (lane : Fin 4)
  /-- LINKING_TIMEOUT (R323): After 1 s in Linking without a link and with no other head heard, the unit enters Sole. -/
  | linkingTimeout
  /-- PAIRING_MESSAGE (R324): A received pairing message is checked item by item, and its cause is recorded. -/
  | pairingMessage (crcOk : Bool) (m : PairingMsg)
  /-- BEACON (R326): A received beacon carries the partner's cycle, segment time, claim, pair state and mode. -/
  | beacon (crcOk : Bool) (k : BitVec 64) (t0 : BitVec 112) (claim st mode : BitVec 8)
  /-- BEACON_MISSING (R323): When the beacon has been missing in 4 consecutive cycles, the partner is lost. -/
  | beaconMissing
  /-- FINGERPRINT (R328): A fingerprint message from the leader is compared with the follower's copy of a block. -/
  | fingerprint (crcOk : Bool) (es : List (BitVec 8 × BitVec 8 × BitVec 32))
  /-- BLOCK_REQUEST (R328): The leader answers a block request with the requested blocks. -/
  | blockRequest (crcOk : Bool) (es : List (BitVec 8 × BitVec 8))
  /-- BLOCK (R328): A received block enters the follower's set of inputs. -/
  | block (crcOk : Bool) (g : Seg) (node : BitVec 8) (cycle : BitVec 32) (data : Bytes)
  /-- EXCLUSIONS (R331): The follower's exclusions are removed from the leader's set if they arrive by control instant + 0.40 µs. -/
  | exclusions (crcOk : Bool) (inTime : Bool) (es : List (BitVec 8 × BitVec 8))
  /-- DIGESTS (R332): The input and output digests of both units are compared for the cycle. -/
  | digests (crcOk : Bool) (cycle : BitVec 32) (inp outp : BitVec 64)
  /-- FIELD_FRAME_MESSAGE (R329): A forwarded field node frame contributes to the agreed line inputs. -/
  | fieldFrameMessage (crcOk : Bool) (l : Line) (k : FNode) (hdr : BitVec 8) (dev : BitVec 16) (body : Bytes)
  /-- LOCAL_INPUTS (R330): The leader's pulse-input states are taken by both units. -/
  | localInputs (crcOk : Bool) (es : List PulseImage)
  /-- FORWARD (R330): A forwarded item is assigned its cycle k_e by the leader and sent to the partner. -/
  | forward (crcOk : Bool) (item : FwdItem) (len : BitVec 32) (ke : Option (BitVec 64))
  /-- FORWARDED_ITEM_APPLY (R330): Both units apply a forwarded item at the control instant of k_e. -/
  | forwardedItemApply
  /-- PAIR_SAFETY_MESSAGE (R363): The partner island's PDUs fill the safety buffer for the island to verify. -/
  | pairSafetyMessage (crcOk : Bool) (pdus : List Bytes)
  /-- STATE_UNIT (R333): The follower installs a received state unit before the next control instant. -/
  | stateUnit (crcOk : Bool) (u : StateUnit)
  /-- STATE_DIGESTS (R333): A verification round compares the digests of all units and resends those that differ. -/
  | stateDigests (crcOk : Bool) (first : BitVec 16) (ds : List (BitVec 64))
  /-- STATE_TRANSFER_TIMEOUT (R323): A transfer not complete in 31,250 cycles fails and the unit returns to Joining. -/
  | stateTransferTimeout
  /-- IN_STEP_COUNT_REACHED (R323): After 1,024 consecutive equal digests the unit announces its takeover cycle. -/
  | inStepCountReached
  /-- ANNOUNCE (R335): An announce message sets or withdraws a takeover or release cycle. -/
  | announce (crcOk : Bool) (cycle : BitVec 64) (claim : BitVec 8)
  /-- TAKEOVER_CYCLE (R335): At the announced cycle the unit sets its effective claim and leadership passes. -/
  | takeoverCycle
  /-- PARTNER_SEND_DECISION (R318): At t0 + a_c + 256 ns the partner-position unit passes the leader's frame or sends its own. -/
  | partnerSendDecision (r : Ring) (c : Chan) (hdr : Option (BitVec 8)) (arrival : BitVec 32)
  /-- PAIR_DELAY (R336): A delay exchange measures the link delay for segment-time following. -/
  | pairDelay (crcOk : Bool) (response : Bool) (t : BitVec 112) (arrival : BitVec 112)
  /-- RELEASE (R342): The release command announces that the partner takes over. -/
  | release
  /-- REPEAT_PAIRING_CHECKS (R342): The command repeats the pairing checks in Linking. -/
  | repeatPairingChecks
  /-- ADOPT_CONFIGURATION (R324): The command copies the partner's configuration values into working values. -/
  | adoptConfiguration (vals : List WrItem)
  /-- ISLAND_CYCLE (R343): Each 125 µs both island channels evaluate every function, then exchange and compare their results. -/
  | islandCycle (disagree clock missed supply : Bool) (read : BitVec 8) (ovr : BitVec 8)
  /-- ISLAND_SELF_TEST_DONE (R345): The island's self-test completes and it enters Unconfirmed, Run or Fault. -/
  | islandSelfTestDone (pass : Bool)
  /-- SI_CHANGE_ACCEPTED (R347): A safety input level stable for the filter time is accepted, stamped and reported. -/
  | siChangeAccepted (i : SIn) (level : Bool)
  /-- TEST_PULSE (R348): A test source emits its off-pulse, and the pins it feeds are checked in the hold window. -/
  | testPulse (srcB : Bool) (low : BitVec 16)
  /-- SO_OFF_PULSE (R357): An SO pin that is on is pulsed off once per second and read back. -/
  | soOffPulse (o : SoPair) (pinB low : Bool)
  /-- DISCREPANCY_TIMEOUT (R351): A discrepancy between source channels lasting longer than t_disc takes the instance into Fault. -/
  | discrepancyTimeout (f : Fin 64)
  /-- PERMIT_DELAY_END (R352): For stop category 1, the permit falls t_d1 after entry into Demand. -/
  | permitDelayEnd (f : Fin 64)
  /-- UNLOCK_RUNDOWN_END (R353): After the run-down time t_rd, the unlock consumer switches on. -/
  | unlockRundownEnd (f : Fin 64)
  /-- SAFETY_BLOCK_WRITE (R368): A safety parameter block write is checked, and its check value is computed. -/
  | safetyBlockWrite (data : Bytes)
  /-- CONFIRMATION_WRITE (R369): The confirmation write is accepted only when it equals the computed check value. -/
  | confirmationWrite (v : BitVec 32)
  /-- SAFETY_STORE (R369): The stor command writes the block, check value and confirmation to the pattern key. -/
  | safetyStore
  /-- SAFETY_STORE_COMPLETE (R369): The safety record write ends, and the store status becomes done or failed. -/
  | safetyStoreComplete (ok : Bool)
  /-- ISLAND_RESTART (R345): The rest command restarts the island into Starting, with a fresh self-test. -/
  | islandRestart
  /-- VSO_RANGE_CHANGE (R357): VSO leaving or re-entering 19.2–30 V switches every SO pin off or lets them resume. -/
  | vsoRangeChange (ok : Bool)
  /-- NODE_SAFETY_PDU (R360): A safety node checks a received PDU, restarts the claim's watchdog and acts on a 0. -/
  | nodeSafetyPdu (nd : NodeId) (claim : BitVec 8) (pdu : Bytes)
  /-- SAFETY_WATCHDOG_EXPIRY (R360): When every watchdog of a safety node has expired, the node reaches STO. -/
  | safetyWatchdogExpiry (nd : NodeId)
  /-- SOURCE_ASSERTION (R376): An asserted fault source is numbered by the arbiter and runs its reactions. -/
  | sourceAssertion (src : Src) (cause : BitVec 16) (datum : BitVec 32)
  /-- WIRE_FAULT (R375): An invalid rail code lasting more than 2 clocks is treated as an assertion and marked in the wire-fault map. -/
  | wireFault (src : Src) (both : Bool) (clocks : BitVec 16)
  /-- BLOCK_SELF_TEST_DONE (R384): A restarted block's self-test completes, and its ready or failed bit sets. -/
  | blockSelfTestDone (bit : Fin 32) (pass : Bool)
  /-- LATCH_CLEAR (R386): The clar command clears the first-source latch, the overflow bit and the wire-fault map. -/
  | latchClear
  /-- FORCE_WRITE (R391): A write of a force bit injects or removes an assertion of the source. -/
  | forceWrite (src : Src) (v : Bool)
  /-- FORCE_ENABLE_WRITE (R391): Writing the force enable permits force bits, and clearing it clears every force bit. -/
  | forceEnableWrite (v : Bool)
  /-- COUNTER_CLEAR (R388): Writing 0 clears a statistics counter; any other value is refused. -/
  | counterClear (idx : BitVec 16) (sub : BitVec 8) (v : BitVec 32)
  /-- MEMORY_ACCESS (R396): A port request to a shared memory bank is arbitrated and served. -/
  | memoryAccess (reqs : List MemReq)
  /-- SCRUB (R400): In the next free bank clock the corrected word is written back. -/
  | scrub
  /-- CORRECTION_RATE_CHECK (R400): More than 16 corrections within a whole second raise source 44 once. -/
  | correctionRateCheck
  /-- BACKGROUND_TEST_REGION (R404): Each millisecond one region of every bank is saved to the spare and tested by March C−. -/
  | backgroundTestRegion (fails : BitVec 16)
  /-- REGION_RESTORE (R404): After the March phase and any running control phase, the spare is copied back to the region. -/
  | regionRestore
  /-- BACKGROUND_TEST_ENABLE (R407): Clearing or setting the background test enable stops or resumes the pass. -/
  | backgroundTestEnable (on : Bool)
  /-- FULL_MEMORY_TEST (R408): The test command starts the destructive full memory test in Service. -/
  | fullMemoryTest
  /-- FULL_MEMORY_TEST_END (R408): The full memory test ends, clears memory, releases retired regions and reports failures. -/
  | fullMemoryTestEnd (mem : Fin 12) (addr : BitVec 32)
  /-- SUPPLY_WARNING (R414): VIN falling through 18.0 V asserts the warning and starts the last commit. -/
  | supplyWarning
  /-- LAST_COMMIT_COMPLETE (R446): The last commit ends with the journal flushed, the snapshot written and the seal record written. -/
  | lastCommitComplete (us : BitVec 32)
  /-- COMMIT_ENTRY_JOURNAL (R447): An entry numbered after the seal is journalled 1 ms after its number. -/
  | commitEntryJournal
  /-- WARNING_END (R416): With VIN above the clear threshold and the commit complete, the warning ends and the journal is unsealed. -/
  | warningEnd
  /-- RESET_LEVEL_FALL (R418): VIN falling through 12.0 V switches off every domain except D0 and enters Backup or power-off. -/
  | resetLevelFall
  /-- BRING_UP (R435): VIN rising through the restart threshold runs bring-up in its fixed order. -/
  | bringUp (hw : BitVec 4) (testEn below vbak : Bool)
  /-- BRING_UP_COMPLETE (R425): With the core bits set and the key read, the device leaves Bring-up. -/
  | bringUpComplete
  /-- DOMAIN_ENABLE_WRITE (R420): A write of the enable mask switches power domains off or on. -/
  | domainEnableWrite (mask : BitVec 8)
  /-- DOMAIN_IN_WINDOW (R420): A domain that reaches its window runs the self-tests of its blocks. -/
  | domainInWindow (d : Fin 8)
  /-- STATE_RECORD_REFRESH (R443): Every 60 s the device rewrites the state record with local time and sequence number. -/
  | stateRecordRefresh
  /-- KEY_REMOVED (R434): An accepted key removal asserts source 179 and makes key writes fail. -/
  | keyRemoved
  /-- KEY_INSERTED (R499): An accepted key insertion ends source 179, though the key is not read until the next bring-up. -/
  | keyInserted
  /-- JOURNAL_WRITE (R455): With 32 entries waiting, or the oldest 100 ms old, the entries are journalled to the key. -/
  | journalWrite (ok : Bool)
  /-- JOURNAL_RETRY (R455): A failed journal write is retried every 1 s. -/
  | journalRetry (ok : Bool)
  /-- MODE_REQUEST (R47): An accepted write of the requested mode is numbered and becomes pending. -/
  | modeRequest (m : BitVec 8)
  /-- MODE_TRANSITION (R424): At a base cycle boundary the device carries out a mode change or refuses a request. -/
  | modeTransition
  /-- STORE_PARAMETERS (R41): The save command copies the working key values and starts writing them into the older set. -/
  | storeParameters
  /-- STORE_COMPLETE (R41): A parameter store ends done, or failed with an event logged. -/
  | storeComplete (ok : Bool)
  /-- RESTORE_DEFAULTS (R42): The load command sets every key object to its default in working values. -/
  | restoreDefaults
  /-- RELOAD_STORED (R42): The reload command starts reading the newest valid set into working values. -/
  | reloadStored
  /-- RELOAD_COMPLETE (R42): A reload of the stored set ends done, or failed with the values unchanged. -/
  | reloadComplete
  /-- MAPPING_ACTIVATE (R49): A write of a mapping record's entry count checks and activates its entries. -/
  | mappingActivate (idx : BitVec 16) (n : BitVec 8)
  /-- MANAGEMENT_WATCHDOG (R452): 250 ms without service by the firmware expires the watchdog and asserts source 176. -/
  | managementWatchdog
  /-- SENSOR_SAMPLE (R453): Every millisecond the management processor samples every sensor channel. -/
  | sensorSample (temps : List (BitVec 32)) (supply : List (BitVec 32)) (volts : List (BitVec 32)) (amps : List (BitVec 32))
  /-- LOG_SELECT (R457): A write of the from-sequence selects the first log entry to read. -/
  | logSelect (seq : BitVec 64)
  /-- LOG_READ (R457): A read of the log entries returns up to 32 entries and sets the continue point. -/
  | logRead
  /-- IMAGE_LOAD_BEGIN (R459): The begn command starts or resumes an image load. -/
  | imageLoadBegin
  /-- IMAGE_BLOCK (R459): A block of the image is accepted at the expected number and written to the key. -/
  | imageBlock (num : BitVec 16) (data : Bytes)
  /-- IMAGE_BLOCK_WRITTEN (R459): A block has been erased, programmed and read back, and the progress advances. -/
  | imageBlockWritten (ok : Bool)
  /-- IMAGE_VERIFY (R459): The vrfy command checks the loaded image. -/
  | imageVerify
  /-- IMAGE_ACTIVATE (R460): The actv command sets the verified slot as the trial slot. -/
  | imageActivate
  /-- IMAGE_ABORT (R459): The abrt command ends a load and empties the slot or entry. -/
  | imageAbort
  /-- IMAGE_BOOT (R460): The boot command is the commanded restart from Service. -/
  | imageBoot
  /-- RELAY_START (R462): The strt command starts relaying node firmware to one node or to all nodes of a type. -/
  | relayStart
  /-- RELAY_ABORT (R462): The abrt command interrupts the relay. -/
  | relayAbort
  /-- RELAY_ACTIVATE (R463): The actv command makes every node done in the last relay restart into its new image. -/
  | relayActivate
  /-- SESSION_OPEN (R470): A session open is answered with a tagged challenge or refused. -/
  | sessionOpen (p : Port) (req : BitVec 32) (nonce : BitVec 128) (comm : Bool) (idle : BitVec 16)
  /-- SESSION_CONFIRM (R470): A verified confirm opens the session, and the device answers accept. -/
  | sessionConfirm (p : Port) (h : Kda)
  /-- CHALLENGE_LAPSE (R470): A challenge not confirmed within 2 s lapses. -/
  | challengeLapse (id : BitVec 32)
  /-- SESSION_CLOSE (R473): A close message ends the session and releases its lease, subscriptions and transfers. -/
  | sessionClose (p : Port) (h : Kda)
  /-- SESSION_IDLE_TIMEOUT (R473): A session with no accepted datagram for its idle timeout closes. -/
  | sessionIdleTimeout (id : BitVec 32)
  /-- DICTIONARY_READ (R475): A read request executes its items in order and returns their values and statuses. -/
  | dictionaryRead (p : Port) (h : Kda) (items : List RdItem)
  /-- DICTIONARY_WRITE (R475): A write request checks each item and applies the accepted writes at one control instant. -/
  | dictionaryWrite (p : Port) (h : Kda) (items : List WrItem)
  /-- SEGMENTED_BEGIN (R478): A segmented write Begin opens a transfer after a length check. -/
  | segmentedBegin (p : Port) (h : Kda) (idx : BitVec 16) (sub : BitVec 8) (total : BitVec 32)
  /-- SEGMENTED_DATA (R478): A segmented write Data is accepted only at the expected offset. -/
  | segmentedData (p : Port) (h : Kda) (idx : BitVec 16) (sub : BitVec 8) (total offset : BitVec 32) (data : Bytes)
  /-- SEGMENTED_END (R478): A segmented write End runs the object's checks and takes the value. -/
  | segmentedEnd (p : Port) (h : Kda) (idx : BitVec 16) (sub : BitVec 8) (total : BitVec 32)
  /-- SEGMENTED_ABORT (R478): A segmented write Abort keeps the previous value. -/
  | segmentedAbort (p : Port) (h : Kda) (idx : BitVec 16) (sub : BitVec 8) (total : BitVec 32)
  /-- SEGMENTED_TIMEOUT (R478): A transfer with no accepted segment for 5 s is aborted. -/
  | segmentedTimeout (id : BitVec 32)
  /-- SEGMENTED_READ (R479): A segmented read serves bytes from a snapshot taken at offset 0. -/
  | segmentedRead (p : Port) (h : Kda) (idx : BitVec 16) (sub : BitVec 8) (offset : BitVec 32) (max : BitVec 16)
  /-- SNAPSHOT_RELEASE_TIMEOUT (R479): A segmented-read snapshot is released after 5 s without a read. -/
  | snapshotReleaseTimeout (id : BitVec 32) (idx : BitVec 16) (sub : BitVec 8)
  /-- IMAGE_FRAGMENT (R480): A host-to-device fragment is checked for lease and number, and a complete image becomes pending. -/
  | imageFragment (p : Port) (h : Kda) (num : BitVec 32) (total offset : BitVec 16) (data : Bytes)
  /-- IMAGE_SUBSCRIPTION (R481): An image subscription sets or ends the period of device-to-host images. -/
  | imageSubscription (p : Port) (h : Kda) (period : BitVec 16)
  /-- IMAGE_FRAGMENT_SEND (R481): The fragments of a taken image are sent in order, and waiting images are replaced and counted. -/
  | imageFragmentSend (p : Port) (id : BitVec 32)
  /-- EVENT_SUBSCRIPTION (R482): An event subscription sets or ends the kinds of events notified. -/
  | eventSubscription (p : Port) (h : Kda) (mask : BitVec 8)
  /-- EVENT_DATAGRAM_SEND (R482): An event datagram is sent for a cycle point or trigger, or for a batch of log entries. -/
  | eventDatagramSend (p : Port) (id : BitVec 32)
  /-- ARP_REQUEST (R465): The port answers an ARP request per RFC 826. -/
  | arpRequest (p : Port) (plain : Bool) (target sender : BitVec 32) (mac : BitVec 48)
  /-- ICMP_ECHO (R465): The port answers an ICMP echo request. -/
  | icmpEcho (p : Port) (plain : Bool) (src dst : BitVec 32) (ident seq : BitVec 16) (data : Bytes)
  /-- DHCP_REPLY (R466): A DHCP reply binds or renews the port's address. -/
  | dhcpReply (p : Port) (kind : Fin 3) (addr mask router lease : BitVec 32)
  /-- DHCP_RENEW (R466): At T1 the port renews its lease. -/
  | dhcpRenew (p : Port)
  /-- DHCP_REBIND (R466): At T2 the port rebinds its lease. -/
  | dhcpRebind (p : Port)
  /-- DHCP_LEASE_EXPIRY (R466): When the lease expires, the port drops its address and starts discovery again. -/
  | dhcpLeaseExpiry (p : Port)
  /-- ETHERNET_LINK_CHANGE (R485): A port losing or regaining its link moves source 188. -/
  | ethernetLinkChange (p : Port) (speed : Fin 3)
  /-- SOURCE_DEASSERTED (R527): A level source's rails return to the deasserted code, so its live state clears and it may react again at a new assertion. -/
  | sourceDeasserted (src : Src)
  /-- NODE_MAILBOX_REQUEST (R241): A node takes a ring mailbox frame or line mailbox request addressed to it, accepts a new request sequence and writes or sends its reply. -/
  | nodeMailboxRequest (nd : NodeId) (seq : BitVec 8) (cap : BitVec 16) (payload : Bytes) (answer : Bytes)
  /-- NODE_SAMPLE_INSTANT (R84): At its scheduled sample instant t_s or σ, a node latches its feedback, currents or upstream record and reports the actual instant. -/
  | nodeSampleInstant (nd : NodeId) (offset : BitVec 32) (data : Bytes)
  /-- NODE_CYCLE_START (R247): At each base cycle start on a ring, or field cycle start on a line, a node copies its counters for a possible chill record. -/
  | nodeCycleStart (nd : NodeId)
  /-- VBAK_LOSS (R428): VBAK falling below 2.0 V while the device is in Backup leaves the device unpowered and D0 loses its contents. -/
  | vbakLoss
  /-- PULSE_INPUT_SIGNAL_RESTORED (R163): A differential pulse input whose level is restored above the fail-safe threshold clears its signal fault and status bit 8. -/
  | pulseInputSignalRestored (i : PIn)
  deriving DecidableEq, Repr

end Sys2Proof
end

