-- ==== Sys2Proof/Decode.lean ====
section
/-! DEFINITION. Words that spell a command: the table gives its rows no bits, so no word spells one. -/
namespace Sys2Proof

/-- The command that a word spells by the table's bits: none, since no row of the table has bits. -/
def decodeTableWord (nbits w : Nat) : Option Instr :=
  match nbits, w with
  | _, _ => none

end Sys2Proof
end

