-- ==== Sys2Proof/Machine/Crc.lean ====
section
/-! DEFINITION. The check codes of R193, R194 and R331. -/
namespace Sys2Proof.Machine

/-- One step of a CRC that shifts right (reflected). -/
def crcShiftR (poly c : Nat) : Nat := if c % 2 = 1 then (c / 2) ^^^ poly else c / 2
/-- A CRC that shifts right over bytes. -/
def crcR (poly : Nat) (c : Nat) (bs : Bytes) : Nat :=
  bs.foldl (fun c b => Nat.repeat (crcShiftR poly) 8 (c ^^^ b.toNat)) c
/-- One step of a CRC of n bits that shifts left. -/
def crcShiftL (n poly c : Nat) : Nat :=
  if bit c (n - 1) then ((c * 2) % 2 ^ n) ^^^ poly else (c * 2) % 2 ^ n
/-- A CRC of n bits that shifts left over bytes. -/
def crcL (n poly : Nat) (c : Nat) (bs : Bytes) : Nat :=
  bs.foldl (fun c b => Nat.repeat (crcShiftL n poly) 8 (c ^^^ (b.toNat * 2 ^ (n - 8)))) c

/-- CRC-32C (R193): 0x1EDC6F41 reflected, initial value and final XOR of ones. -/
def crc32c (bs : Bytes) : Nat := crcR 0x82F63B78 0xFFFFFFFF bs ^^^ 0xFFFFFFFF
/-- CRC-16 (R193). -/
def crc16 (bs : Bytes) : Nat := crcL 16 0x1021 0xFFFF bs
/-- CRC-16 over node-originated bytes: the node number goes first (R194). -/
def crc16Node (node : Nat) (bs : Bytes) : Nat := crc16 (leBytes 2 node ++ bs)
/-- Safety CRC-32 with the domain value as its initial value (R193). -/
def crcSafety (domain : Nat) (bs : Bytes) : Nat := crcL 32 0x741B8CD7 domain bs
/-- The digest CRC-64 of R331. -/
def crc64 (bs : Bytes) : Nat := crcL 64 0x42F0E1EBA9EA3693 0 bs

end Sys2Proof.Machine
end

