-- ==== Sys2Proof/Config.lean ====
section
/-! DEFINITION. What a part or its surroundings fix and the manual does not: identity values, transcendental functions whose
rounding the manual leaves open, secrets, and the free values.  No constant here has a body, so no proof can see a value. -/
namespace Sys2Proof.Config

open Sys2Proof.Machine

/-- The n-th free value: a number the manual leaves open at the n-th point where the machine needs one (log 3). -/
opaque free : Nat → Nat

/-- Ordering variant of the part (R43 0x1001.04). -/
opaque variant : BitVec 1
/-- Serial number of the part (R43 0x1001.05). -/
opaque serial : BitVec 64
/-- Base MAC address of the part (R43 0x1001.06). -/
opaque mac : BitVec 48
/-- Pair protocol version of the image (R339 0x3C00.03). -/
opaque pairVersion : BitVec 16
/-- Whether an image's signature verifies against the fused key (R436, R459). -/
opaque signatureOk : Bytes → Bool
/-- The rollback counter's fuse count at delivery (R437). -/
opaque rollback : BitVec 6
/-- The session identifier and device nonce of the n-th session opened (R470). -/
opaque sessionId : Nat → BitVec 32
/-- The device nonce of the n-th session opened (R470). -/
opaque nonce : Nat → BitVec 128
/-- Which value within 1 ulp of the exact sine the angle unit returns for an angle given as a U32 fraction of a turn (R88): 1 the one below the
nearest, 2 the one above, else the nearest. -/
opaque sinUlp : BitVec 32 → Nat
/-- The same for the cosine (R88). -/
opaque cosUlp : BitVec 32 → Nat
/-- The same for atan2 (R88). -/
opaque atan2Ulp : F32 → F32 → Nat
/-- What the angle unit's atan2 returns for the origin, where there is no exact result (R88). -/
opaque atan2Origin : F32 → F32 → F32
/-- The 64-bit digest of a state unit (R333 gives no layout to digest). -/
opaque unitDigest : StateUnit → BitVec 64
/-- The frequency steering a domain clock's servo applies for its offsets, newest first, and bandwidth (R279). -/
opaque ptpSteer : List Int → F32 → F32

/-- The configuration digest of a pair over the values and byte strings of the objects R324 names, in an order the manual leaves open. -/
opaque configDigest : List (Nat × Nat) → List (Nat × Bytes) → BitVec 32

end Sys2Proof.Config
end

