-- ==== Sys2Proof/Machine/ObjectTypes.lean ====
section
/-! DEFINITION. The types of the object tables: value types (R26), access classes (R28), ranges and defaults (R38). -/
namespace Sys2Proof.Machine

/-- Value types of R26. -/
inductive Ty where
  | bool | u8 | u16 | u32 | u64 | i8 | i16 | i32 | i64 | f32 | f64 | time | octets | str
  deriving DecidableEq, Repr

/-- Access classes of R28. -/
inductive Acc where
  | ro | rw | wo | rws | rwc
  deriving DecidableEq, Repr

/-- The Range column of an object table: all encodings, unsigned bounds, signed bounds, bounds given as binary32
patterns, a list of values, byte-length bounds, or a condition that needs other objects. -/
inductive Rng where
  | all
  | nat (lo hi : Nat)
  | int (lo hi : Int)
  | f32 (lo hi : Nat)
  | set (vs : List Nat)
  | len (lo hi : Nat)
  | special
  deriving DecidableEq, Repr

/-- The Default column: a bit pattern, or a value that depends on the unit or on other objects. -/
inductive Dfl where
  | num (n : Nat)
  | special
  deriving DecidableEq, Repr

/-- One line of an object table. -/
structure Row where
  base   : Nat
  count  : Nat
  stride : Nat
  lo     : Nat
  hi     : Nat
  ty     : Ty
  acc    : Acc
  pm     : Bool
  key    : Bool
  rng    : Rng
  dfl    : Dfl
  deriving DecidableEq, Repr

/-- Size in bytes of a value of a fixed-size type (R26); OCTETS and STRING carry their length (0 here). -/
def Ty.size : Ty → Nat
  | .bool => 1 | .u8 => 1 | .u16 => 2 | .u32 => 4 | .u64 => 8
  | .i8 => 1 | .i16 => 2 | .i32 => 4 | .i64 => 8
  | .f32 => 4 | .f64 => 8 | .time => 14 | .octets => 0 | .str => 0

/-- Whether values of the type are byte strings. -/
def Ty.isBlob : Ty → Bool
  | .octets => true
  | .str => true
  | _ => false

end Sys2Proof.Machine
end

