-- ==== Sys2Proof/Machine/Objects.lean ====
section
/-! DEFINITION. The object tables of the manual, one row per table line (R24 divides the index space; each piece names the
rules its lines come from).  A row stands for every index `base + stride*i` (i below `count`) and every sub-index from
`lo` to `hi`. -/
namespace Sys2Proof.Machine

/-- Object rows of R43, R44, R46, R48. -/
def rowsMgmt0 : List Row :=
  [ ⟨0x1000, 1, 1, 0, 0, .u32, .ro, false, false, .all, (.num 34066)⟩,
    ⟨0x1001, 1, 1, 0, 0, .u8, .ro, false, false, (.nat 6 6), (.num 6)⟩,
    ⟨0x1001, 1, 1, 1, 1, .u32, .ro, false, false, .all, (.num 1263358720)⟩,
    ⟨0x1001, 1, 1, 2, 2, .u32, .ro, false, false, .all, (.num 34066)⟩,
    ⟨0x1001, 1, 1, 3, 3, .u16, .ro, false, false, .all, (.num 177)⟩,
    ⟨0x1001, 1, 1, 4, 4, .u8, .ro, false, false, (.nat 1 2), .special⟩,
    ⟨0x1001, 1, 1, 5, 5, .u64, .ro, false, false, .all, .special⟩,
    ⟨0x1001, 1, 1, 6, 6, .octets, .ro, false, false, (.len 6 6), .special⟩,
    ⟨0x1002, 1, 1, 0, 0, .u8, .ro, false, false, (.nat 4 4), (.num 4)⟩,
    ⟨0x1002, 1, 1, 1, 1, .u8, .ro, false, false, (.nat 0 1), (.num 0)⟩,
    ⟨0x1002, 1, 1, 2, 2, .u32, .ro, false, false, .all, (.num 0)⟩,
    ⟨0x1002, 1, 1, 3, 3, .u32, .ro, false, false, .all, (.num 0)⟩,
    ⟨0x1002, 1, 1, 4, 4, .u8, .ro, false, false, (.nat 0 64), (.num 0)⟩,
    ⟨0x1008, 1, 1, 0, 0, .str, .ro, false, false, .all, .special⟩,
    ⟨0x1009, 1, 1, 0, 0, .str, .rw, false, true, (.nat 0 32), (.num 0)⟩,
    ⟨0x1010, 1, 1, 0, 0, .u32, .ro, true, false, .all, (.num 0)⟩,
    ⟨0x1011, 1, 1, 0, 0, .u32, .ro, false, false, .all, (.num 0)⟩,
    ⟨0x1020, 1, 1, 0, 0, .u8, .ro, false, false, (.nat 5 5), (.num 5)⟩,
    ⟨0x1020, 1, 1, 1, 1, .u8, .ro, true, false, (.nat 1 5), (.num 1)⟩,
    ⟨0x1020, 1, 1, 2, 2, .u8, .ro, false, false, (.nat 0 5), (.num 0)⟩,
    ⟨0x1020, 1, 1, 3, 3, .u64, .ro, false, false, .all, (.num 0)⟩,
    ⟨0x1020, 1, 1, 4, 4, .u16, .ro, false, false, (.nat 1 6), (.num 4)⟩,
    ⟨0x1020, 1, 1, 5, 5, .u64, .ro, false, false, .all, (.num 0)⟩,
    ⟨0x1021, 1, 1, 0, 0, .u8, .ro, false, false, (.nat 4 4), (.num 4)⟩,
    ⟨0x1021, 1, 1, 1, 1, .u8, .rw, false, false, (.nat 2 5), (.num 0)⟩,
    ⟨0x1021, 1, 1, 2, 2, .u8, .ro, false, false, (.nat 0 3), (.num 0)⟩,
    ⟨0x1021, 1, 1, 3, 3, .u16, .ro, false, false, .all, (.num 0)⟩,
    ⟨0x1021, 1, 1, 4, 4, .u64, .ro, false, false, .all, (.num 0)⟩,
    ⟨0x1600, 512, 1, 0, 0, .u8, .rws, false, true, (.nat 0 64), (.num 0)⟩,
    ⟨0x1600, 512, 1, 1, 64, .u32, .rws, false, true, .special, (.num 0)⟩,
    ⟨0x1A00, 512, 1, 0, 0, .u8, .rws, false, true, (.nat 0 64), (.num 0)⟩,
    ⟨0x1A00, 512, 1, 1, 64, .u32, .rws, false, true, .special, (.num 0)⟩ ]

/-- Object rows with index from 0x1000 to below 0x2000. -/
def rowsMgmt : List Row := rowsMgmt0

/-- Object rows of R429, R453. -/
def rowsSys0 : List Row :=
  [ ⟨0x2000, 1, 1, 0, 0, .u8, .ro, false, false, (.nat 7 7), (.num 7)⟩,
    ⟨0x2000, 1, 1, 1, 1, .u16, .ro, true, false, .all, (.num 0)⟩,
    ⟨0x2000, 1, 1, 2, 2, .u8, .rw, false, true, (.nat 0 1), (.num 0)⟩,
    ⟨0x2000, 1, 1, 3, 3, .u32, .rw, false, false, .all, (.num 0)⟩,
    ⟨0x2000, 1, 1, 4, 4, .u32, .rw, false, false, .all, (.num 0)⟩,
    ⟨0x2000, 1, 1, 5, 5, .u64, .ro, false, false, .all, (.num 0)⟩,
    ⟨0x2000, 1, 1, 6, 6, .u32, .ro, false, false, (.nat 0 1600), (.num 0)⟩,
    ⟨0x2000, 1, 1, 7, 7, .u8, .ro, false, false, (.nat 0 4), (.num 0)⟩,
    ⟨0x2010, 1, 1, 0, 0, .u8, .ro, false, false, (.nat 3 3), (.num 3)⟩,
    ⟨0x2010, 1, 1, 1, 1, .u8, .rws, false, true, .special, (.num 255)⟩,
    ⟨0x2010, 1, 1, 2, 2, .u8, .ro, true, false, .all, (.num 0)⟩,
    ⟨0x2010, 1, 1, 3, 3, .u8, .ro, false, false, .all, (.num 0)⟩,
    ⟨0x2020, 1, 1, 0, 0, .u8, .ro, false, false, (.nat 3 3), (.num 3)⟩,
    ⟨0x2020, 1, 1, 1, 1, .u8, .ro, false, false, .all, (.num 7)⟩,
    ⟨0x2020, 1, 1, 2, 2, .u32, .rw, false, false, .all, (.num 0)⟩,
    ⟨0x2020, 1, 1, 3, 3, .u32, .rw, false, false, .all, (.num 0)⟩,
    ⟨0x2030, 1, 1, 0, 0, .u8, .ro, false, false, (.nat 3 3), (.num 3)⟩,
    ⟨0x2030, 1, 1, 1, 1, .f32, .rw, false, true, (.f32 1114636288 1121058816), (.num 1120403456)⟩,
    ⟨0x2030, 1, 1, 2, 2, .f32, .ro, false, false, (.nat 1121320960 1121320960), (.num 1121320960)⟩,
    ⟨0x2030, 1, 1, 3, 3, .f32, .ro, false, false, (.nat 1084227584 1084227584), (.num 1084227584)⟩,
    ⟨0x2040, 1, 1, 0, 0, .u8, .ro, false, false, (.nat 32 32), (.num 32)⟩,
    ⟨0x2040, 1, 1, 1, 32, .u32, .rw, false, false, .all, (.num 0)⟩,
    ⟨0x2041, 1, 1, 0, 0, .u8, .ro, false, false, (.nat 1 1), (.num 1)⟩,
    ⟨0x2041, 1, 1, 1, 1, .bool, .ro, false, false, (.nat 0 1), (.num 0)⟩,
    ⟨0x2050, 1, 1, 0, 0, .u8, .ro, false, false, (.nat 12 12), (.num 12)⟩,
    ⟨0x2050, 1, 1, 1, 6, .f32, .ro, true, false, .all, (.num 0)⟩,
    ⟨0x2050, 1, 1, 7, 7, .f32, .ro, true, false, .all, (.num 0)⟩,
    ⟨0x2050, 1, 1, 8, 8, .f32, .ro, true, false, .all, (.num 0)⟩,
    ⟨0x2050, 1, 1, 9, 9, .f32, .ro, true, false, .all, (.num 0)⟩,
    ⟨0x2050, 1, 1, 10, 10, .f32, .ro, false, false, .all, (.num 0)⟩,
    ⟨0x2050, 1, 1, 11, 11, .f32, .ro, true, false, .all, (.num 0)⟩,
    ⟨0x2050, 1, 1, 12, 12, .f32, .ro, true, false, .all, (.num 0)⟩,
    ⟨0x2051, 1, 1, 0, 0, .u8, .ro, false, false, (.nat 8 8), (.num 8)⟩,
    ⟨0x2051, 1, 1, 1, 8, .f32, .ro, false, false, .all, (.num 0)⟩,
    ⟨0x2052, 1, 1, 0, 0, .u8, .ro, false, false, (.nat 8 8), (.num 8)⟩,
    ⟨0x2052, 1, 1, 1, 8, .f32, .ro, false, false, .all, (.num 0)⟩ ]

/-- Object rows of R40, R451, R457. -/
def rowsSys1 : List Row :=
  [ ⟨0x2100, 1, 1, 0, 0, .u8, .ro, false, false, (.nat 7 7), (.num 7)⟩,
    ⟨0x2100, 1, 1, 1, 1, .u16, .ro, false, false, (.nat 0 1024), (.num 0)⟩,
    ⟨0x2100, 1, 1, 2, 2, .u16, .ro, true, false, (.nat 0 1024), (.num 0)⟩,
    ⟨0x2100, 1, 1, 3, 3, .u64, .ro, false, false, .all, (.num 0)⟩,
    ⟨0x2100, 1, 1, 4, 4, .u64, .ro, false, false, .all, (.num 0)⟩,
    ⟨0x2100, 1, 1, 5, 5, .u64, .ro, true, false, .all, (.num 0)⟩,
    ⟨0x2100, 1, 1, 6, 6, .u32, .rw, false, false, .all, (.num 0)⟩,
    ⟨0x2100, 1, 1, 7, 7, .u32, .rw, false, false, .all, (.num 0)⟩,
    ⟨0x2101, 1, 1, 0, 0, .u8, .ro, false, false, (.nat 3 3), (.num 3)⟩,
    ⟨0x2101, 1, 1, 1, 1, .u64, .rw, false, false, .all, (.num 0)⟩,
    ⟨0x2101, 1, 1, 2, 2, .octets, .ro, false, false, (.len 0 1024), (.num 0)⟩,
    ⟨0x2101, 1, 1, 3, 3, .u64, .ro, false, false, .all, (.num 0)⟩,
    ⟨0x2E00, 1, 1, 0, 0, .u8, .ro, false, false, (.nat 13 13), (.num 13)⟩,
    ⟨0x2E00, 1, 1, 1, 1, .bool, .ro, true, false, (.nat 0 1), (.num 0)⟩,
    ⟨0x2E00, 1, 1, 2, 2, .u8, .ro, false, false, (.nat 0 4), (.num 1)⟩,
    ⟨0x2E00, 1, 1, 3, 3, .u32, .ro, false, false, .all, (.num 0)⟩,
    ⟨0x2E00, 1, 1, 4, 4, .u32, .ro, false, false, .all, (.num 0)⟩,
    ⟨0x2E00, 1, 1, 5, 5, .u32, .ro, false, false, .all, (.num 0)⟩,
    ⟨0x2E00, 1, 1, 6, 6, .u8, .ro, false, false, (.nat 0 2), (.num 0)⟩,
    ⟨0x2E00, 1, 1, 7, 7, .u32, .ro, false, false, .all, (.num 0)⟩,
    ⟨0x2E00, 1, 1, 8, 8, .u8, .ro, false, false, (.nat 0 2), (.num 0)⟩,
    ⟨0x2E00, 1, 1, 9, 9, .u8, .ro, false, false, (.set [0, 1, 255]), (.num 255)⟩,
    ⟨0x2E00, 1, 1, 10, 10, .u32, .ro, false, false, (.nat 0 262096), (.num 0)⟩,
    ⟨0x2E00, 1, 1, 11, 11, .u64, .ro, false, false, .all, (.num 0)⟩,
    ⟨0x2E00, 1, 1, 12, 12, .u32, .rw, false, false, .all, (.num 0)⟩,
    ⟨0x2E00, 1, 1, 13, 13, .bool, .ro, false, false, (.nat 0 1), (.num 0)⟩,
    ⟨0x2E10, 1, 1, 0, 0, .u8, .ro, false, false, (.nat 4 4), (.num 4)⟩,
    ⟨0x2E10, 1, 1, 1, 1, .u32, .wo, false, false, (.nat 1702257011 1702257011), (.num 0)⟩,
    ⟨0x2E10, 1, 1, 2, 2, .u8, .ro, false, false, (.nat 0 3), (.num 0)⟩,
    ⟨0x2E10, 1, 1, 3, 3, .u32, .ro, false, false, .all, (.num 0)⟩,
    ⟨0x2E10, 1, 1, 4, 4, .u64, .ro, false, false, .all, (.num 0)⟩,
    ⟨0x2E11, 1, 1, 0, 0, .u8, .ro, false, false, (.nat 3 3), (.num 3)⟩,
    ⟨0x2E11, 1, 1, 1, 1, .u32, .wo, false, false, (.nat 1684107116 1684107116), (.num 0)⟩,
    ⟨0x2E11, 1, 1, 2, 2, .u32, .wo, false, false, (.nat 1684107116 1684107116), (.num 0)⟩,
    ⟨0x2E11, 1, 1, 3, 3, .u8, .ro, false, false, (.nat 0 3), (.num 0)⟩,
    ⟨0x2E20, 1, 1, 0, 0, .octets, .rws, false, true, (.len 512 512), .special⟩ ]

/-- Object rows of R451, R460, R463. -/
def rowsSys2 : List Row :=
  [ ⟨0x2E30, 1, 1, 0, 0, .u8, .ro, false, false, (.nat 9 9), (.num 9)⟩,
    ⟨0x2E30, 1, 1, 1, 1, .u8, .ro, false, false, (.nat 0 4), (.num 0)⟩,
    ⟨0x2E30, 1, 1, 2, 2, .u64, .ro, false, false, .all, (.num 0)⟩,
    ⟨0x2E30, 1, 1, 3, 3, .time, .ro, false, false, .all, (.num 0)⟩,
    ⟨0x2E30, 1, 1, 4, 4, .u8, .ro, false, false, (.nat 0 3), (.num 0)⟩,
    ⟨0x2E30, 1, 1, 5, 5, .u64, .ro, false, false, .all, (.num 0)⟩,
    ⟨0x2E30, 1, 1, 6, 6, .u16, .ro, false, false, (.nat 0 512), (.num 0)⟩,
    ⟨0x2E30, 1, 1, 7, 7, .u32, .rw, false, false, .all, (.num 0)⟩,
    ⟨0x2E30, 1, 1, 8, 8, .u32, .rw, false, false, .all, (.num 0)⟩,
    ⟨0x2E30, 1, 1, 9, 9, .u8, .ro, false, false, (.nat 0 2), (.num 0)⟩,
    ⟨0x2E40, 1, 1, 0, 0, .u8, .ro, false, false, (.nat 8 8), (.num 8)⟩,
    ⟨0x2E40, 1, 1, 1, 1, .u8, .rw, false, false, (.nat 0 63), (.num 0)⟩,
    ⟨0x2E40, 1, 1, 2, 2, .u32, .rw, false, false, (.nat 1 16777216), (.num 0)⟩,
    ⟨0x2E40, 1, 1, 3, 3, .u16, .ro, false, false, (.nat 0 256), (.num 0)⟩,
    ⟨0x2E40, 1, 1, 4, 4, .octets, .wo, false, false, (.len 1 65536), (.num 0)⟩,
    ⟨0x2E40, 1, 1, 5, 5, .u32, .wo, false, false, .special, (.num 0)⟩,
    ⟨0x2E40, 1, 1, 6, 6, .u8, .ro, false, false, (.nat 0 7), (.num 0)⟩,
    ⟨0x2E40, 1, 1, 7, 7, .u8, .ro, false, false, (.nat 0 7), (.num 0)⟩,
    ⟨0x2E40, 1, 1, 8, 8, .u32, .ro, false, false, .all, (.num 0)⟩,
    ⟨0x2E60, 1, 1, 0, 0, .u8, .ro, false, false, (.nat 8 8), (.num 8)⟩,
    ⟨0x2E60, 1, 1, 1, 1, .u8, .rw, false, false, (.nat 0 11), (.num 0)⟩,
    ⟨0x2E60, 1, 1, 2, 2, .u16, .rw, false, false, .special, (.num 65535)⟩,
    ⟨0x2E60, 1, 1, 3, 3, .u8, .rw, false, false, (.nat 1 63), (.num 1)⟩,
    ⟨0x2E60, 1, 1, 4, 4, .u32, .wo, false, false, .special, (.num 0)⟩,
    ⟨0x2E60, 1, 1, 5, 5, .u8, .ro, false, false, (.nat 0 4), (.num 0)⟩,
    ⟨0x2E60, 1, 1, 6, 6, .u16, .ro, false, false, (.nat 0 1024), (.num 0)⟩,
    ⟨0x2E60, 1, 1, 7, 7, .u16, .ro, false, false, (.nat 0 1024), (.num 0)⟩,
    ⟨0x2E60, 1, 1, 8, 8, .u16, .ro, false, false, (.nat 0 1024), (.num 0)⟩ ]

/-- Object rows with index from 0x2000 to below 0x2F00. -/
def rowsSys : List Row := rowsSys0 ++ rowsSys1 ++ rowsSys2

/-- Object rows of R486, R487. -/
def rowsHost0 : List Row :=
  [ ⟨0x2F00, 2, 1, 0, 0, .u8, .ro, false, false, (.nat 6 6), (.num 6)⟩,
    ⟨0x2F00, 2, 1, 1, 1, .bool, .rw, false, true, (.nat 0 1), (.num 1)⟩,
    ⟨0x2F00, 2, 1, 2, 2, .u8, .rw, false, true, (.nat 0 2), (.num 0)⟩,
    ⟨0x2F00, 2, 1, 3, 3, .u8, .rw, false, true, (.nat 0 1), (.num 0)⟩,
    ⟨0x2F00, 2, 1, 4, 4, .u32, .rw, false, true, .special, .special⟩,
    ⟨0x2F00, 2, 1, 5, 5, .u8, .rw, false, true, (.nat 8 30), (.num 24)⟩,
    ⟨0x2F00, 2, 1, 6, 6, .u32, .rw, false, true, .all, (.num 0)⟩,
    ⟨0x2F08, 2, 1, 0, 0, .u8, .ro, false, false, (.nat 7 7), (.num 7)⟩,
    ⟨0x2F08, 2, 1, 1, 1, .u8, .ro, true, false, (.nat 0 2), (.num 0)⟩,
    ⟨0x2F08, 2, 1, 2, 2, .u32, .ro, false, false, .all, (.num 0)⟩,
    ⟨0x2F08, 2, 1, 3, 3, .u8, .ro, false, false, (.nat 0 30), (.num 0)⟩,
    ⟨0x2F08, 2, 1, 4, 4, .u32, .ro, false, false, .all, (.num 0)⟩,
    ⟨0x2F08, 2, 1, 5, 5, .u8, .ro, false, false, (.nat 0 3), (.num 0)⟩,
    ⟨0x2F08, 2, 1, 6, 6, .u32, .ro, false, false, .all, (.num 0)⟩,
    ⟨0x2F08, 2, 1, 7, 7, .u32, .rw, false, false, .all, (.num 0)⟩,
    ⟨0x2F10, 1, 1, 0, 0, .u8, .ro, false, false, (.nat 5 5), (.num 5)⟩,
    ⟨0x2F10, 1, 1, 1, 1, .octets, .wo, false, true, (.len 32 32), (.num 0)⟩,
    ⟨0x2F10, 1, 1, 2, 2, .u8, .ro, false, false, (.nat 0 1), (.num 0)⟩,
    ⟨0x2F10, 1, 1, 3, 3, .u16, .rw, false, true, (.nat 1 600), (.num 10)⟩,
    ⟨0x2F10, 1, 1, 4, 4, .u8, .ro, false, false, (.nat 0 8), (.num 0)⟩,
    ⟨0x2F10, 1, 1, 5, 5, .bool, .ro, false, false, (.nat 0 1), (.num 0)⟩,
    ⟨0x2F20, 1, 1, 0, 0, .u8, .ro, false, false, (.nat 9 9), (.num 9)⟩,
    ⟨0x2F20, 1, 1, 1, 1, .u32, .rw, false, false, .all, (.num 0)⟩,
    ⟨0x2F20, 1, 1, 2, 2, .u32, .rw, false, false, .all, (.num 0)⟩,
    ⟨0x2F20, 1, 1, 3, 3, .u32, .rw, false, false, .all, (.num 0)⟩,
    ⟨0x2F20, 1, 1, 4, 4, .u32, .rw, false, false, .all, (.num 0)⟩,
    ⟨0x2F20, 1, 1, 5, 5, .u32, .rw, false, false, .all, (.num 0)⟩,
    ⟨0x2F20, 1, 1, 6, 6, .u32, .rw, false, false, .all, (.num 0)⟩,
    ⟨0x2F20, 1, 1, 7, 7, .u32, .rw, false, false, .all, (.num 0)⟩,
    ⟨0x2F20, 1, 1, 8, 8, .u32, .rw, false, false, .all, (.num 0)⟩,
    ⟨0x2F20, 1, 1, 9, 9, .u32, .rw, false, false, .all, (.num 0)⟩ ]

/-- Object rows with index from 0x2F00 to below 0x3000. -/
def rowsHost : List Row := rowsHost0

/-- Object rows of R191, R227, R251. -/
def rowsRing0 : List Row :=
  [ ⟨0x3000, 8, 64, 0, 0, .u8, .ro, false, false, (.nat 10 10), (.num 10)⟩,
    ⟨0x3000, 8, 64, 1, 1, .u8, .rw, false, true, (.nat 0 2), (.num 0)⟩,
    ⟨0x3000, 8, 64, 2, 2, .u8, .ro, true, false, (.nat 0 4), (.num 0)⟩,
    ⟨0x3000, 8, 64, 3, 3, .u8, .ro, false, false, (.nat 0 2), (.num 0)⟩,
    ⟨0x3000, 8, 64, 4, 4, .u64, .ro, false, false, .all, (.num 0)⟩,
    ⟨0x3000, 8, 64, 5, 5, .u16, .ro, false, false, (.nat 0 1024), (.num 0)⟩,
    ⟨0x3000, 8, 64, 6, 6, .u16, .ro, false, false, (.nat 0 1024), (.num 0)⟩,
    ⟨0x3000, 8, 64, 7, 7, .u16, .ro, true, false, (.nat 0 1024), (.num 0)⟩,
    ⟨0x3000, 8, 64, 8, 8, .u8, .ro, false, false, (.nat 0 255), (.num 0)⟩,
    ⟨0x3000, 8, 64, 9, 9, .u32, .rw, false, false, .all, (.num 0)⟩,
    ⟨0x3000, 8, 64, 10, 10, .u32, .rw, false, false, .all, (.num 0)⟩,
    ⟨0x3008, 8, 64, 0, 0, .u8, .ro, false, false, (.nat 8 8), (.num 8)⟩,
    ⟨0x3008, 8, 64, 1, 1, .u16, .ro, false, false, .special, (.num 1)⟩,
    ⟨0x3008, 8, 64, 2, 2, .u16, .ro, false, false, .all, (.num 0)⟩,
    ⟨0x3008, 8, 64, 3, 3, .u32, .ro, false, false, .all, (.num 0)⟩,
    ⟨0x3008, 8, 64, 4, 4, .u32, .ro, false, false, .all, (.num 0)⟩,
    ⟨0x3008, 8, 64, 5, 5, .u32, .ro, false, false, .all, (.num 0)⟩,
    ⟨0x3008, 8, 64, 6, 6, .i32, .ro, false, false, .all, (.num 0)⟩,
    ⟨0x3008, 8, 64, 7, 7, .u16, .ro, false, false, .all, (.num 0)⟩,
    ⟨0x3008, 8, 64, 8, 8, .u16, .ro, false, false, .all, (.num 0)⟩,
    ⟨0x3009, 8, 64, 0, 0, .u8, .ro, false, false, (.nat 8 8), (.num 8)⟩,
    ⟨0x3009, 8, 64, 1, 2, .u32, .rw, false, false, .all, (.num 0)⟩,
    ⟨0x3009, 8, 64, 3, 4, .u32, .rw, false, false, .all, (.num 0)⟩,
    ⟨0x3009, 8, 64, 5, 5, .u32, .rw, false, false, .all, (.num 0)⟩,
    ⟨0x3009, 8, 64, 6, 6, .u32, .rw, false, false, .all, (.num 0)⟩,
    ⟨0x3009, 8, 64, 7, 7, .u32, .rw, false, false, .all, (.num 0)⟩,
    ⟨0x3009, 8, 64, 8, 8, .u32, .rw, false, false, .all, (.num 0)⟩,
    ⟨0x300A, 8, 64, 0, 0, .u8, .ro, false, false, (.nat 5 5), (.num 5)⟩,
    ⟨0x300A, 8, 64, 1, 1, .u16, .rw, false, false, .special, (.num 1)⟩,
    ⟨0x300A, 8, 64, 2, 2, .octets, .rw, false, false, .special, (.num 0)⟩,
    ⟨0x300A, 8, 64, 3, 3, .octets, .ro, false, false, .special, (.num 0)⟩,
    ⟨0x300A, 8, 64, 4, 4, .u8, .ro, false, false, (.nat 0 3), (.num 0)⟩,
    ⟨0x300A, 8, 64, 5, 5, .u32, .rw, false, false, .all, (.num 0)⟩,
    ⟨0x3010, 8, 64, 0, 0, .octets, .ro, false, false, .special, (.num 0)⟩,
    ⟨0x3011, 8, 64, 0, 0, .octets, .ro, false, false, .special, (.num 0)⟩,
    ⟨0x3030, 8, 64, 0, 0, .u8, .ro, false, false, (.nat 7 7), (.num 7)⟩ ]

/-- Object rows of R191. -/
def rowsRing1 : List Row :=
  [ ⟨0x3030, 8, 64, 1, 1, .bool, .ro, true, false, (.nat 0 1), (.num 0)⟩,
    ⟨0x3030, 8, 64, 2, 2, .bool, .ro, true, false, (.nat 0 1), (.num 0)⟩,
    ⟨0x3030, 8, 64, 3, 3, .u8, .ro, false, false, (.nat 0 63), (.num 0)⟩,
    ⟨0x3030, 8, 64, 4, 4, .u8, .ro, false, false, (.nat 0 63), (.num 0)⟩,
    ⟨0x3030, 8, 64, 5, 5, .u8, .ro, false, false, (.nat 0 100), (.num 0)⟩,
    ⟨0x3030, 8, 64, 6, 6, .u8, .ro, false, false, (.nat 0 100), (.num 0)⟩,
    ⟨0x3030, 8, 64, 7, 7, .u16, .ro, false, false, (.nat 260 260), (.num 260)⟩,
    ⟨0x3031, 8, 64, 0, 0, .u8, .ro, false, false, (.nat 6 6), (.num 6)⟩,
    ⟨0x3031, 8, 64, 1, 2, .u32, .rw, false, false, .all, (.num 0)⟩,
    ⟨0x3031, 8, 64, 3, 4, .u32, .rw, false, false, .all, (.num 0)⟩,
    ⟨0x3031, 8, 64, 5, 6, .u32, .rw, false, false, .all, (.num 0)⟩ ]

/-- Object rows with index from 0x3000 to below 0x3200. -/
def rowsRing : List Row := rowsRing0 ++ rowsRing1

/-- Object rows of R227, R251, R268. -/
def rowsLine0 : List Row :=
  [ ⟨0x3200, 4, 64, 0, 0, .u8, .ro, false, false, (.nat 10 10), (.num 10)⟩,
    ⟨0x3200, 4, 64, 1, 1, .u8, .rw, false, true, (.nat 0 2), (.num 0)⟩,
    ⟨0x3200, 4, 64, 2, 2, .u8, .ro, true, false, (.nat 0 4), (.num 0)⟩,
    ⟨0x3200, 4, 64, 3, 3, .u8, .ro, false, false, (.nat 0 2), (.num 0)⟩,
    ⟨0x3200, 4, 64, 4, 4, .u64, .ro, false, false, .all, (.num 0)⟩,
    ⟨0x3200, 4, 64, 5, 5, .u16, .ro, false, false, (.nat 0 1024), (.num 0)⟩,
    ⟨0x3200, 4, 64, 6, 6, .u16, .ro, false, false, (.nat 0 1024), (.num 0)⟩,
    ⟨0x3200, 4, 64, 7, 7, .u16, .ro, true, false, (.nat 0 1024), (.num 0)⟩,
    ⟨0x3200, 4, 64, 8, 8, .u8, .ro, false, false, (.nat 0 255), (.num 0)⟩,
    ⟨0x3200, 4, 64, 9, 9, .u32, .rw, false, false, .all, (.num 0)⟩,
    ⟨0x3200, 4, 64, 10, 10, .u32, .rw, false, false, .all, (.num 0)⟩,
    ⟨0x3208, 4, 64, 0, 0, .u8, .ro, false, false, (.nat 8 8), (.num 8)⟩,
    ⟨0x3208, 4, 64, 1, 1, .u16, .ro, false, false, .special, (.num 1)⟩,
    ⟨0x3208, 4, 64, 2, 2, .u16, .ro, false, false, .all, (.num 0)⟩,
    ⟨0x3208, 4, 64, 3, 3, .u32, .ro, false, false, .all, (.num 0)⟩,
    ⟨0x3208, 4, 64, 4, 4, .u32, .ro, false, false, .all, (.num 0)⟩,
    ⟨0x3208, 4, 64, 5, 5, .u32, .ro, false, false, .all, (.num 0)⟩,
    ⟨0x3208, 4, 64, 6, 6, .i32, .ro, false, false, .all, (.num 0)⟩,
    ⟨0x3208, 4, 64, 7, 7, .u16, .ro, false, false, .all, (.num 0)⟩,
    ⟨0x3208, 4, 64, 8, 8, .u16, .ro, false, false, .all, (.num 0)⟩,
    ⟨0x3209, 4, 64, 0, 0, .u8, .ro, false, false, (.nat 8 8), (.num 8)⟩,
    ⟨0x3209, 4, 64, 1, 2, .u32, .rw, false, false, .all, (.num 0)⟩,
    ⟨0x3209, 4, 64, 3, 4, .u32, .rw, false, false, .all, (.num 0)⟩,
    ⟨0x3209, 4, 64, 5, 5, .u32, .rw, false, false, .all, (.num 0)⟩,
    ⟨0x3209, 4, 64, 6, 6, .u32, .rw, false, false, .all, (.num 0)⟩,
    ⟨0x3209, 4, 64, 7, 7, .u32, .rw, false, false, .all, (.num 0)⟩,
    ⟨0x3209, 4, 64, 8, 8, .u32, .rw, false, false, .all, (.num 0)⟩,
    ⟨0x320A, 4, 64, 0, 0, .u8, .ro, false, false, (.nat 5 5), (.num 5)⟩,
    ⟨0x320A, 4, 64, 1, 1, .u16, .rw, false, false, .special, (.num 1)⟩,
    ⟨0x320A, 4, 64, 2, 2, .octets, .rw, false, false, .special, (.num 0)⟩,
    ⟨0x320A, 4, 64, 3, 3, .octets, .ro, false, false, .special, (.num 0)⟩,
    ⟨0x320A, 4, 64, 4, 4, .u8, .ro, false, false, (.nat 0 3), (.num 0)⟩,
    ⟨0x320A, 4, 64, 5, 5, .u32, .rw, false, false, .all, (.num 0)⟩,
    ⟨0x320C, 4, 64, 0, 0, .u8, .ro, false, false, (.nat 8 8), (.num 8)⟩,
    ⟨0x320C, 4, 64, 1, 1, .u16, .ro, false, false, (.nat 0 4096), (.num 0)⟩,
    ⟨0x320C, 4, 64, 2, 2, .u16, .ro, false, false, (.nat 0 1024), (.num 0)⟩ ]

/-- Object rows of R192, R251, R268. -/
def rowsLine1 : List Row :=
  [ ⟨0x320C, 4, 64, 3, 3, .u16, .ro, true, false, (.nat 0 1024), (.num 0)⟩,
    ⟨0x320C, 4, 64, 4, 4, .u16, .ro, true, false, .all, (.num 0)⟩,
    ⟨0x320C, 4, 64, 5, 5, .u16, .ro, false, false, (.nat 0 1023), (.num 0)⟩,
    ⟨0x320C, 4, 64, 6, 6, .u32, .rw, false, false, .all, (.num 0)⟩,
    ⟨0x320C, 4, 64, 7, 7, .u16, .ro, false, false, (.nat 0 1024), (.num 0)⟩,
    ⟨0x320C, 4, 64, 8, 8, .u32, .rw, false, false, .all, (.num 0)⟩,
    ⟨0x3210, 4, 64, 0, 0, .octets, .ro, false, false, .special, (.num 0)⟩,
    ⟨0x3211, 4, 64, 0, 0, .octets, .ro, false, false, .special, (.num 0)⟩,
    ⟨0x3230, 4, 64, 0, 0, .u8, .ro, false, false, (.nat 1 1), (.num 1)⟩,
    ⟨0x3230, 4, 64, 1, 1, .u8, .rws, false, true, (.nat 0 1), (.num 0)⟩,
    ⟨0x3231, 4, 64, 0, 0, .u8, .ro, false, false, (.nat 6 6), (.num 6)⟩,
    ⟨0x3231, 4, 64, 1, 2, .bool, .ro, true, false, (.nat 0 1), (.num 0)⟩,
    ⟨0x3231, 4, 64, 3, 4, .u8, .ro, false, false, (.nat 0 63), (.num 0)⟩,
    ⟨0x3231, 4, 64, 5, 6, .u8, .ro, false, false, (.nat 0 100), (.num 0)⟩,
    ⟨0x3232, 4, 64, 0, 0, .u8, .ro, false, false, (.nat 6 6), (.num 6)⟩,
    ⟨0x3232, 4, 64, 1, 2, .u32, .rw, false, false, .all, (.num 0)⟩,
    ⟨0x3232, 4, 64, 3, 4, .u32, .rw, false, false, .all, (.num 0)⟩,
    ⟨0x3232, 4, 64, 5, 6, .u32, .rw, false, false, .all, (.num 0)⟩ ]

/-- Object rows with index from 0x3200 to below 0x3300. -/
def rowsLine : List Row := rowsLine0 ++ rowsLine1

/-- Object rows of R223. -/
def rowsMould0 : List Row :=
  [ ⟨0x3300, 12, 1, 0, 0, .octets, .rws, false, true, (.len 0 20524), (.num 0)⟩ ]

/-- Object rows with index from 0x3300 to below 0x3400. -/
def rowsMould : List Row := rowsMould0

/-- Object rows of R285, R286, R287. -/
def rowsTime0 : List Row :=
  [ ⟨0x3400, 1, 1, 0, 0, .u8, .ro, false, false, (.nat 5 5), (.num 5)⟩,
    ⟨0x3400, 1, 1, 1, 1, .time, .ro, true, false, .all, (.num 0)⟩,
    ⟨0x3400, 1, 1, 2, 2, .time, .ro, true, false, .all, (.num 0)⟩,
    ⟨0x3400, 1, 1, 3, 3, .time, .ro, true, false, .all, (.num 0)⟩,
    ⟨0x3400, 1, 1, 4, 4, .time, .ro, true, false, .all, (.num 0)⟩,
    ⟨0x3400, 1, 1, 5, 5, .u64, .ro, true, false, .all, (.num 0)⟩,
    ⟨0x3410, 1, 1, 0, 0, .u8, .ro, false, false, (.nat 12 12), (.num 12)⟩,
    ⟨0x3410, 1, 1, 1, 1, .u8, .rw, false, true, (.nat 0 2), (.num 0)⟩,
    ⟨0x3410, 1, 1, 2, 2, .bool, .rw, false, true, (.nat 0 1), (.num 1)⟩,
    ⟨0x3410, 1, 1, 3, 3, .f32, .rw, false, true, (.f32 1065353216 1112014848), (.num 1112014848)⟩,
    ⟨0x3410, 1, 1, 4, 4, .f32, .rw, false, true, (.f32 1036831949 1120403456), (.num 1065353216)⟩,
    ⟨0x3410, 1, 1, 5, 5, .u32, .rw, false, true, (.nat 0 600000), (.num 10000)⟩,
    ⟨0x3410, 1, 1, 6, 6, .u8, .ro, true, false, (.nat 0 3), (.num 0)⟩,
    ⟨0x3410, 1, 1, 7, 7, .i64, .ro, false, false, .all, (.num 0)⟩,
    ⟨0x3410, 1, 1, 8, 8, .f32, .ro, false, false, (.f32 3259498496 1112014848), (.num 0)⟩,
    ⟨0x3410, 1, 1, 9, 9, .u16, .ro, true, false, .all, (.num 8)⟩,
    ⟨0x3410, 1, 1, 10, 10, .u32, .rw, false, false, .all, (.num 0)⟩,
    ⟨0x3410, 1, 1, 11, 11, .f32, .ro, false, false, .all, (.num 0)⟩,
    ⟨0x3410, 1, 1, 12, 12, .u32, .wo, false, false, (.nat 1668184435 1668184435), (.num 0)⟩,
    ⟨0x3420, 2, 1, 0, 0, .u8, .ro, false, false, (.nat 10 10), (.num 10)⟩,
    ⟨0x3420, 2, 1, 1, 1, .bool, .rw, false, true, (.nat 0 1), (.num 0)⟩,
    ⟨0x3420, 2, 1, 2, 2, .u8, .rw, false, true, (.nat 0 127), .special⟩,
    ⟨0x3420, 2, 1, 3, 3, .u8, .rw, false, true, (.nat 1 3), (.num 3)⟩,
    ⟨0x3420, 2, 1, 4, 4, .u8, .rw, false, true, (.nat 1 3), (.num 3)⟩,
    ⟨0x3420, 2, 1, 5, 5, .u8, .rw, false, true, (.nat 0 1), (.num 0)⟩,
    ⟨0x3420, 2, 1, 6, 6, .f32, .rw, false, true, (.f32 981668463 1065353216), (.num 1036831949)⟩,
    ⟨0x3420, 2, 1, 7, 7, .u32, .rw, false, true, (.nat 10 1000000), (.num 1000)⟩,
    ⟨0x3420, 2, 1, 8, 8, .u32, .rw, false, true, (.nat 1000 1000000000), (.num 100000)⟩,
    ⟨0x3420, 2, 1, 9, 9, .i32, .rw, false, true, (.int (-1000000) 1000000), (.num 0)⟩,
    ⟨0x3420, 2, 1, 10, 10, .f32, .rw, false, true, (.f32 1092616192 1140457472), (.num 1128792064)⟩,
    ⟨0x3428, 2, 1, 0, 0, .u8, .ro, false, false, (.nat 11 11), (.num 11)⟩,
    ⟨0x3428, 2, 1, 1, 1, .u8, .ro, true, false, (.nat 0 4), (.num 0)⟩,
    ⟨0x3428, 2, 1, 2, 2, .octets, .ro, false, false, (.len 8 8), (.num 0)⟩,
    ⟨0x3428, 2, 1, 3, 3, .u8, .ro, false, false, (.nat 0 2), (.num 0)⟩,
    ⟨0x3428, 2, 1, 4, 4, .i64, .ro, false, false, .all, (.num 0)⟩,
    ⟨0x3428, 2, 1, 5, 5, .i64, .ro, false, false, .all, (.num 0)⟩ ]

/-- Object rows of R252, R287, R288. -/
def rowsTime1 : List Row :=
  [ ⟨0x3428, 2, 1, 6, 6, .f32, .ro, false, false, .all, (.num 0)⟩,
    ⟨0x3428, 2, 1, 7, 7, .i16, .ro, false, false, .all, (.num 0)⟩,
    ⟨0x3428, 2, 1, 8, 8, .u8, .ro, false, false, (.nat 0 1), (.num 0)⟩,
    ⟨0x3428, 2, 1, 9, 9, .u16, .ro, false, false, .all, (.num 0)⟩,
    ⟨0x3428, 2, 1, 10, 10, .u32, .rw, false, false, .all, (.num 0)⟩,
    ⟨0x3428, 2, 1, 11, 11, .u32, .rw, false, false, .all, (.num 0)⟩,
    ⟨0x3440, 8, 1, 0, 0, .u8, .ro, false, false, (.nat 10 10), (.num 10)⟩,
    ⟨0x3440, 8, 1, 1, 1, .bool, .rw, false, false, (.nat 0 1), (.num 0)⟩,
    ⟨0x3440, 8, 1, 2, 2, .u32, .rw, false, false, .special, (.num 0)⟩,
    ⟨0x3440, 8, 1, 3, 3, .u8, .rw, false, false, (.nat 0 1), (.num 0)⟩,
    ⟨0x3440, 8, 1, 4, 4, .u8, .ro, false, false, .all, (.num 0)⟩,
    ⟨0x3440, 8, 1, 5, 5, .u32, .rw, false, false, .all, (.num 0)⟩,
    ⟨0x3440, 8, 1, 6, 6, .u32, .rw, false, false, .all, (.num 0)⟩,
    ⟨0x3440, 8, 1, 7, 7, .time, .ro, false, false, .all, (.num 0)⟩,
    ⟨0x3440, 8, 1, 8, 8, .time, .ro, false, false, .all, (.num 0)⟩,
    ⟨0x3440, 8, 1, 9, 9, .time, .ro, false, false, .all, (.num 0)⟩,
    ⟨0x3440, 8, 1, 10, 10, .time, .ro, false, false, .all, (.num 0)⟩,
    ⟨0x3450, 4, 1, 0, 0, .u8, .ro, false, false, (.nat 8 8), (.num 8)⟩,
    ⟨0x3450, 4, 1, 1, 1, .bool, .rw, false, false, (.nat 0 1), (.num 0)⟩,
    ⟨0x3450, 4, 1, 2, 2, .u8, .rw, false, false, (.nat 0 3), (.num 1)⟩,
    ⟨0x3450, 4, 1, 3, 3, .time, .rw, false, false, .special, (.num 0)⟩,
    ⟨0x3450, 4, 1, 4, 4, .time, .rw, false, false, .special, (.num 0)⟩,
    ⟨0x3450, 4, 1, 5, 5, .u8, .rw, false, false, (.nat 0 7), (.num 1)⟩,
    ⟨0x3450, 4, 1, 6, 6, .u32, .rw, false, false, .all, (.num 0)⟩,
    ⟨0x3450, 4, 1, 7, 7, .u32, .rw, false, false, .all, (.num 0)⟩,
    ⟨0x3450, 4, 1, 8, 8, .time, .ro, false, false, .all, (.num 0)⟩,
    ⟨0x3500, 8, 1, 0, 0, .u8, .ro, false, false, (.nat 6 6), (.num 6)⟩,
    ⟨0x3500, 8, 1, 1, 1, .bool, .rw, false, false, (.nat 0 1), (.num 0)⟩,
    ⟨0x3500, 8, 1, 2, 2, .u8, .rw, false, false, (.nat 1 7), (.num 1)⟩,
    ⟨0x3500, 8, 1, 3, 3, .u8, .rw, false, false, (.nat 0 11), (.num 0)⟩,
    ⟨0x3500, 8, 1, 4, 4, .u16, .rw, false, false, (.nat 1 65535), (.num 31250)⟩,
    ⟨0x3500, 8, 1, 5, 5, .u8, .rw, false, false, (.nat 0 3), (.num 1)⟩,
    ⟨0x3500, 8, 1, 6, 6, .u32, .rw, false, false, .all, (.num 0)⟩,
    ⟨0x3508, 1, 1, 0, 0, .u8, .ro, false, false, (.nat 4 4), (.num 4)⟩,
    ⟨0x3508, 1, 1, 1, 1, .u16, .rw, false, false, (.nat 100 10000), (.num 1000)⟩,
    ⟨0x3508, 1, 1, 2, 2, .u16, .rw, false, false, (.nat 0 31000), (.num 0)⟩ ]

/-- Object rows of R252. -/
def rowsTime2 : List Row :=
  [ ⟨0x3508, 1, 1, 3, 3, .bool, .rw, false, false, (.nat 0 1), (.num 0)⟩,
    ⟨0x3508, 1, 1, 4, 4, .u32, .rw, false, false, .all, (.num 0)⟩,
    ⟨0x3510, 1, 1, 0, 0, .u8, .ro, false, false, (.nat 4 4), (.num 4)⟩,
    ⟨0x3510, 1, 1, 1, 1, .u64, .rw, false, false, .all, (.num 0)⟩,
    ⟨0x3510, 1, 1, 2, 2, .u8, .ro, true, false, (.nat 0 4), (.num 0)⟩,
    ⟨0x3510, 1, 1, 3, 3, .u16, .ro, false, false, (.nat 0 4480), (.num 0)⟩,
    ⟨0x3510, 1, 1, 4, 4, .u64, .ro, false, false, .all, (.num 0)⟩ ]

/-- Object rows with index from 0x3400 to below 0x3600. -/
def rowsTime : List Row := rowsTime0 ++ rowsTime1 ++ rowsTime2

/-- Object rows of R312, R313. -/
def rowsAcq0 : List Row :=
  [ ⟨0x3600, 1, 1, 0, 0, .u8, .ro, false, false, (.nat 6 6), (.num 6)⟩,
    ⟨0x3600, 1, 1, 1, 1, .u32, .ro, false, false, .all, (.num 16777216)⟩,
    ⟨0x3600, 1, 1, 2, 2, .u16, .ro, false, false, (.nat 0 2048), (.num 0)⟩,
    ⟨0x3600, 1, 1, 3, 3, .u32, .ro, false, false, .all, (.num 1)⟩,
    ⟨0x3600, 1, 1, 4, 4, .u32, .rw, false, false, .all, (.num 0)⟩,
    ⟨0x3600, 1, 1, 5, 5, .u32, .rw, false, false, .all, (.num 0)⟩,
    ⟨0x3600, 1, 1, 6, 6, .u32, .rw, false, false, .all, (.num 0)⟩,
    ⟨0x3610, 4, 16, 0, 0, .u8, .ro, false, false, (.nat 15 15), (.num 15)⟩,
    ⟨0x3610, 4, 16, 1, 1, .u8, .rw, false, true, (.nat 1 3), (.num 1)⟩,
    ⟨0x3610, 4, 16, 2, 2, .u8, .rw, false, true, .special, (.num 0)⟩,
    ⟨0x3610, 4, 16, 3, 3, .u16, .rw, false, true, (.nat 1 65535), (.num 1)⟩,
    ⟨0x3610, 4, 16, 4, 4, .u8, .rw, false, true, .special, (.num 0)⟩,
    ⟨0x3610, 4, 16, 5, 5, .u8, .rw, false, true, (.nat 0 1), (.num 0)⟩,
    ⟨0x3610, 4, 16, 6, 6, .u32, .rw, false, true, (.nat 0 16384000), (.num 64000)⟩,
    ⟨0x3610, 4, 16, 7, 7, .u32, .rw, false, true, (.nat 64 16777216), (.num 4096)⟩,
    ⟨0x3610, 4, 16, 8, 8, .u8, .rw, false, true, (.nat 0 100), (.num 25)⟩,
    ⟨0x3610, 4, 16, 9, 9, .u8, .rw, false, true, (.nat 0 1), (.num 0)⟩,
    ⟨0x3610, 4, 16, 10, 10, .u32, .rw, false, true, .all, (.num 0)⟩,
    ⟨0x3610, 4, 16, 11, 11, .u32, .rw, false, true, (.nat 0 600000), (.num 0)⟩,
    ⟨0x3610, 4, 16, 12, 12, .u8, .rw, false, true, (.nat 0 2), (.num 0)⟩,
    ⟨0x3610, 4, 16, 13, 13, .u8, .rw, false, true, (.nat 0 1), (.num 0)⟩,
    ⟨0x3610, 4, 16, 14, 14, .u16, .rw, false, true, .special, (.num 64)⟩,
    ⟨0x3610, 4, 16, 15, 15, .u16, .rw, false, true, (.nat 0 256), (.num 0)⟩,
    ⟨0x3611, 4, 16, 0, 0, .u8, .ro, false, false, (.nat 6 6), (.num 6)⟩,
    ⟨0x3611, 4, 16, 1, 1, .u8, .rw, false, true, (.nat 0 7), (.num 0)⟩,
    ⟨0x3611, 4, 16, 2, 2, .u16, .rw, false, true, .special, (.num 0)⟩,
    ⟨0x3611, 4, 16, 3, 3, .f64, .rw, false, true, .special, (.num 0)⟩,
    ⟨0x3611, 4, 16, 4, 4, .f64, .rw, false, true, .special, (.num 0)⟩,
    ⟨0x3611, 4, 16, 5, 5, .u8, .rw, false, true, .special, (.num 64)⟩,
    ⟨0x3611, 4, 16, 6, 6, .u16, .rw, false, true, .special, (.num 0)⟩,
    ⟨0x3612, 4, 16, 0, 0, .u8, .ro, false, false, (.nat 6 6), (.num 6)⟩,
    ⟨0x3612, 4, 16, 1, 1, .u8, .rw, false, true, (.nat 0 7), (.num 0)⟩,
    ⟨0x3612, 4, 16, 2, 2, .u16, .rw, false, true, .special, (.num 0)⟩,
    ⟨0x3612, 4, 16, 3, 3, .f64, .rw, false, true, .special, (.num 0)⟩,
    ⟨0x3612, 4, 16, 4, 4, .f64, .rw, false, true, .special, (.num 0)⟩,
    ⟨0x3612, 4, 16, 5, 5, .u8, .rw, false, true, .special, (.num 64)⟩ ]

/-- Object rows of R313, R314, R315. -/
def rowsAcq1 : List Row :=
  [ ⟨0x3612, 4, 16, 6, 6, .u16, .rw, false, true, .special, (.num 0)⟩,
    ⟨0x3613, 4, 16, 0, 0, .u8, .ro, false, false, (.nat 4 4), (.num 4)⟩,
    ⟨0x3613, 4, 16, 1, 1, .u8, .ro, true, false, (.nat 0 4), (.num 0)⟩,
    ⟨0x3613, 4, 16, 2, 2, .u32, .ro, false, false, .all, (.num 0)⟩,
    ⟨0x3613, 4, 16, 3, 3, .i64, .ro, false, false, .all, (.num 0)⟩,
    ⟨0x3613, 4, 16, 4, 4, .u32, .ro, false, false, .all, (.num 0)⟩,
    ⟨0x3614, 4, 16, 0, 0, .u8, .ro, false, false, (.nat 6 6), (.num 6)⟩,
    ⟨0x3614, 4, 16, 1, 1, .u32, .rw, false, false, .all, (.num 0)⟩,
    ⟨0x3614, 4, 16, 2, 2, .u32, .rw, false, false, .all, (.num 0)⟩,
    ⟨0x3614, 4, 16, 3, 3, .u32, .rw, false, false, .all, (.num 0)⟩,
    ⟨0x3614, 4, 16, 4, 4, .u32, .rw, false, false, .all, (.num 0)⟩,
    ⟨0x3614, 4, 16, 5, 5, .u32, .rw, false, false, .all, (.num 0)⟩,
    ⟨0x3614, 4, 16, 6, 6, .u32, .rw, false, false, .all, (.num 0)⟩,
    ⟨0x3615, 4, 16, 0, 0, .u8, .wo, false, false, (.nat 1 4), (.num 0)⟩,
    ⟨0x3680, 1, 1, 0, 0, .octets, .ro, false, false, .all, (.num 0)⟩,
    ⟨0x3681, 1, 1, 0, 0, .u8, .ro, false, false, (.nat 5 5), (.num 5)⟩,
    ⟨0x3681, 1, 1, 1, 1, .u32, .rw, false, false, .all, (.num 0)⟩,
    ⟨0x3681, 1, 1, 2, 2, .u32, .rw, false, false, .all, (.num 0)⟩,
    ⟨0x3681, 1, 1, 3, 3, .u32, .rw, false, false, .all, (.num 0)⟩,
    ⟨0x3681, 1, 1, 4, 4, .u8, .wo, false, false, (.nat 1 1), (.num 0)⟩,
    ⟨0x3681, 1, 1, 5, 5, .u8, .ro, false, false, (.nat 0 3), (.num 0)⟩,
    ⟨0x3700, 8, 1, 0, 0, .u8, .ro, false, false, (.nat 128 128), (.num 128)⟩,
    ⟨0x3700, 8, 1, 1, 128, .u64, .rw, false, true, .special, (.num 0)⟩ ]

/-- Object rows with index from 0x3600 to below 0x3800. -/
def rowsAcq : List Row := rowsAcq0 ++ rowsAcq1

/-- Object rows of R392, R393, R394. -/
def rowsFault0 : List Row :=
  [ ⟨0x3800, 1, 1, 0, 0, .u8, .ro, false, false, (.nat 10 10), (.num 10)⟩,
    ⟨0x3800, 1, 1, 1, 1, .bool, .ro, true, false, (.nat 0 1), (.num 0)⟩,
    ⟨0x3800, 1, 1, 2, 2, .u8, .ro, true, false, .special, (.num 255)⟩,
    ⟨0x3800, 1, 1, 3, 3, .u64, .ro, false, false, .all, (.num 0)⟩,
    ⟨0x3800, 1, 1, 4, 4, .time, .ro, false, false, .all, (.num 0)⟩,
    ⟨0x3800, 1, 1, 5, 5, .time, .ro, false, false, .all, (.num 0)⟩,
    ⟨0x3800, 1, 1, 6, 6, .u16, .ro, false, false, .all, (.num 0)⟩,
    ⟨0x3800, 1, 1, 7, 7, .u32, .ro, false, false, .all, (.num 0)⟩,
    ⟨0x3800, 1, 1, 8, 8, .u8, .ro, false, false, (.nat 0 3), (.num 0)⟩,
    ⟨0x3800, 1, 1, 9, 9, .u64, .ro, false, false, .all, (.num 0)⟩,
    ⟨0x3800, 1, 1, 10, 10, .u32, .rw, false, false, .all, (.num 0)⟩,
    ⟨0x3801, 1, 1, 0, 0, .u8, .ro, false, false, (.nat 3 3), (.num 3)⟩,
    ⟨0x3801, 1, 1, 1, 3, .u64, .ro, true, false, .all, (.num 0)⟩,
    ⟨0x3802, 1, 1, 0, 0, .u8, .ro, false, false, (.nat 3 3), (.num 3)⟩,
    ⟨0x3802, 1, 1, 1, 3, .u64, .ro, false, false, .all, (.num 0)⟩,
    ⟨0x3803, 1, 1, 0, 0, .u8, .ro, false, false, (.nat 3 3), (.num 3)⟩,
    ⟨0x3803, 1, 1, 1, 3, .u64, .ro, false, false, .all, (.num 0)⟩,
    ⟨0x3811, 1, 1, 0, 0, .u32, .wo, false, false, (.nat 1918987363 1918987363), (.num 0)⟩,
    ⟨0x3820, 4, 1, 0, 0, .u8, .ro, false, false, (.nat 8 8), (.num 8)⟩,
    ⟨0x3820, 4, 1, 1, 8, .u16, .rw, false, true, .special, .special⟩,
    ⟨0x3830, 1, 1, 0, 0, .u8, .ro, false, false, (.nat 1 1), (.num 1)⟩,
    ⟨0x3830, 1, 1, 1, 1, .bool, .rw, false, false, (.nat 0 1), (.num 0)⟩,
    ⟨0x3840, 192, 1, 0, 0, .u32, .rw, false, false, .all, (.num 0)⟩,
    ⟨0x3900, 192, 1, 0, 0, .u8, .ro, false, false, (.nat 4 4), (.num 4)⟩,
    ⟨0x3900, 192, 1, 1, 1, .u8, .rw, false, true, (.nat 0 31), .special⟩,
    ⟨0x3900, 192, 1, 2, 2, .u8, .rw, false, true, (.nat 0 3), (.num 0)⟩,
    ⟨0x3900, 192, 1, 3, 3, .bool, .rw, false, false, (.nat 0 1), (.num 0)⟩,
    ⟨0x3900, 192, 1, 4, 4, .u8, .ro, false, false, (.nat 0 31), .special⟩ ]

/-- Object rows with index from 0x3800 to below 0x3A00. -/
def rowsFault : List Row := rowsFault0

/-- Object rows of R373. -/
def rowsSafety0 : List Row :=
  [ ⟨0x3A00, 1, 1, 0, 0, .u32, .ro, false, false, .all, (.num 0)⟩,
    ⟨0x3A01, 1, 1, 0, 0, .u32, .rwc, false, false, .all, (.num 0)⟩,
    ⟨0x3A02, 1, 1, 0, 0, .u32, .wo, false, false, (.set [1919906931, 1953719666]), (.num 0)⟩,
    ⟨0x3A03, 1, 1, 0, 0, .u8, .ro, false, false, (.nat 6 6), (.num 6)⟩,
    ⟨0x3A03, 1, 1, 1, 1, .u8, .ro, true, false, (.nat 0 5), (.num 0)⟩,
    ⟨0x3A03, 1, 1, 2, 2, .u16, .ro, false, false, (.nat 0 4), (.num 0)⟩,
    ⟨0x3A03, 1, 1, 3, 3, .bool, .ro, true, false, (.nat 0 1), (.num 1)⟩,
    ⟨0x3A03, 1, 1, 4, 4, .u32, .ro, false, false, .all, (.num 0)⟩,
    ⟨0x3A03, 1, 1, 5, 5, .u16, .ro, false, false, (.nat 0 16384), (.num 0)⟩,
    ⟨0x3A03, 1, 1, 6, 6, .u8, .ro, false, false, (.nat 0 3), (.num 0)⟩,
    ⟨0x3A10, 1, 1, 0, 0, .octets, .rwc, false, false, .special, (.num 0)⟩,
    ⟨0x3A20, 1, 1, 0, 0, .u64, .ro, true, false, .all, (.num 0)⟩,
    ⟨0x3A21, 1, 1, 0, 0, .octets, .ro, false, false, (.len 64 64), (.num 0)⟩,
    ⟨0x3A22, 1, 1, 0, 0, .u16, .ro, true, false, .all, (.num 0)⟩,
    ⟨0x3A23, 1, 1, 0, 0, .u8, .ro, true, false, .all, (.num 0)⟩,
    ⟨0x3A24, 1, 1, 0, 0, .u64, .rw, true, false, .all, (.num 0)⟩,
    ⟨0x3A30, 1, 1, 0, 0, .u8, .ro, false, false, (.nat 6 6), (.num 6)⟩,
    ⟨0x3A30, 1, 1, 1, 1, .u32, .rw, false, false, .all, (.num 0)⟩,
    ⟨0x3A30, 1, 1, 2, 2, .u32, .rw, false, false, .all, (.num 0)⟩,
    ⟨0x3A30, 1, 1, 3, 3, .u32, .rw, false, false, .all, (.num 0)⟩,
    ⟨0x3A30, 1, 1, 4, 4, .u32, .rw, false, false, .all, (.num 0)⟩,
    ⟨0x3A30, 1, 1, 5, 5, .u32, .rw, false, false, .all, (.num 0)⟩,
    ⟨0x3A30, 1, 1, 6, 6, .u32, .rw, false, false, .all, (.num 0)⟩ ]

/-- Object rows with index from 0x3A00 to below 0x3C00. -/
def rowsSafety : List Row := rowsSafety0

/-- Object rows of R339, R340, R341. -/
def rowsPair0 : List Row :=
  [ ⟨0x3C00, 1, 1, 0, 0, .u8, .ro, false, false, (.nat 5 5), (.num 5)⟩,
    ⟨0x3C00, 1, 1, 1, 1, .bool, .rws, false, true, (.nat 0 1), (.num 0)⟩,
    ⟨0x3C00, 1, 1, 2, 2, .u8, .rws, false, true, (.nat 1 254), (.num 1)⟩,
    ⟨0x3C00, 1, 1, 3, 3, .u16, .ro, false, false, .all, .special⟩,
    ⟨0x3C00, 1, 1, 4, 4, .u16, .ro, false, false, (.nat 0 4095), (.num 0)⟩,
    ⟨0x3C00, 1, 1, 5, 5, .u64, .ro, false, false, .all, (.num 0)⟩,
    ⟨0x3C01, 1, 1, 0, 0, .u8, .ro, false, false, (.nat 13 13), (.num 13)⟩,
    ⟨0x3C01, 1, 1, 1, 1, .u8, .ro, true, false, (.nat 0 7), (.num 0)⟩,
    ⟨0x3C01, 1, 1, 2, 2, .u8, .ro, true, false, (.nat 0 2), (.num 0)⟩,
    ⟨0x3C01, 1, 1, 3, 3, .u8, .ro, true, false, (.nat 0 254), (.num 0)⟩,
    ⟨0x3C01, 1, 1, 4, 4, .u8, .ro, false, false, (.nat 0 254), (.num 0)⟩,
    ⟨0x3C01, 1, 1, 5, 5, .u8, .ro, true, false, (.nat 0 254), (.num 0)⟩,
    ⟨0x3C01, 1, 1, 6, 6, .u8, .ro, false, false, (.nat 0 7), (.num 0)⟩,
    ⟨0x3C01, 1, 1, 7, 7, .u16, .ro, false, false, (.nat 0 1024), (.num 0)⟩,
    ⟨0x3C01, 1, 1, 8, 8, .u64, .ro, false, false, .all, (.num 0)⟩,
    ⟨0x3C01, 1, 1, 9, 9, .u8, .ro, false, false, (.nat 0 15), (.num 0)⟩,
    ⟨0x3C01, 1, 1, 10, 10, .u16, .ro, false, false, (.nat 0 1000), (.num 0)⟩,
    ⟨0x3C01, 1, 1, 11, 11, .u16, .ro, false, false, (.nat 0 8), (.num 0)⟩,
    ⟨0x3C01, 1, 1, 12, 12, .u64, .ro, false, false, .all, (.num 0)⟩,
    ⟨0x3C01, 1, 1, 13, 13, .u16, .ro, false, false, (.nat 0 4621), (.num 0)⟩,
    ⟨0x3C02, 1, 1, 0, 0, .u8, .ro, false, false, (.nat 9 9), (.num 9)⟩,
    ⟨0x3C02, 1, 1, 1, 1, .u32, .rw, false, false, .all, (.num 0)⟩,
    ⟨0x3C02, 1, 1, 2, 2, .u32, .rw, false, false, .all, (.num 0)⟩,
    ⟨0x3C02, 1, 1, 3, 3, .u32, .rw, false, false, .all, (.num 0)⟩,
    ⟨0x3C02, 1, 1, 4, 4, .u32, .rw, false, false, .all, (.num 0)⟩,
    ⟨0x3C02, 1, 1, 5, 5, .u32, .rw, false, false, .all, (.num 0)⟩,
    ⟨0x3C02, 1, 1, 6, 6, .u32, .rw, false, false, .all, (.num 0)⟩,
    ⟨0x3C02, 1, 1, 7, 7, .u32, .rw, false, false, .all, (.num 0)⟩,
    ⟨0x3C02, 1, 1, 8, 8, .u32, .rw, false, false, .all, (.num 0)⟩,
    ⟨0x3C02, 1, 1, 9, 9, .u32, .rw, false, false, .all, (.num 0)⟩,
    ⟨0x3C03, 1, 1, 0, 0, .u8, .wo, false, false, (.nat 1 3), (.num 0)⟩ ]

/-- Object rows with index from 0x3C00 to below 0x3D00. -/
def rowsPair : List Row := rowsPair0

/-- Object rows of R170, R171. -/
def rowsIo0 : List Row :=
  [ ⟨0x3D00, 16, 1, 0, 0, .u8, .ro, false, false, (.nat 19 19), (.num 19)⟩,
    ⟨0x3D00, 16, 1, 1, 1, .bool, .rws, false, true, (.nat 0 1), (.num 0)⟩,
    ⟨0x3D00, 16, 1, 2, 2, .u8, .rws, false, true, (.nat 0 2), (.num 0)⟩,
    ⟨0x3D00, 16, 1, 3, 3, .u8, .rws, false, true, (.nat 0 1), (.num 0)⟩,
    ⟨0x3D00, 16, 1, 4, 4, .u8, .rws, false, true, (.nat 0 255), (.num 8)⟩,
    ⟨0x3D00, 16, 1, 5, 5, .u32, .rws, false, true, (.nat 200 1000000), (.num 2000)⟩,
    ⟨0x3D00, 16, 1, 6, 6, .u32, .rws, false, true, (.nat 1 16777216), (.num 1000)⟩,
    ⟨0x3D00, 16, 1, 7, 7, .u16, .rws, false, true, (.nat 3 4096), (.num 60)⟩,
    ⟨0x3D00, 16, 1, 8, 8, .u8, .rws, false, true, (.nat 0 2), (.num 1)⟩,
    ⟨0x3D00, 16, 1, 9, 9, .u8, .rws, false, true, (.nat 1 8), (.num 2)⟩,
    ⟨0x3D00, 16, 1, 10, 10, .f32, .rws, false, true, .special, (.num 1070386381)⟩,
    ⟨0x3D00, 16, 1, 11, 11, .f32, .rws, false, true, (.f32 1036831949 1063675494), (.num 1058642330)⟩,
    ⟨0x3D00, 16, 1, 12, 12, .u8, .rw, false, true, (.nat 0 8), (.num 0)⟩,
    ⟨0x3D00, 16, 1, 13, 13, .u8, .rws, false, true, (.nat 0 1), (.num 0)⟩,
    ⟨0x3D00, 16, 1, 14, 14, .u16, .rws, false, true, (.nat 0 511), (.num 0)⟩,
    ⟨0x3D00, 16, 1, 15, 15, .u32, .rws, false, true, (.nat 1000 10000000), (.num 75000)⟩,
    ⟨0x3D00, 16, 1, 16, 16, .u8, .rw, false, true, (.nat 1 16), (.num 4)⟩,
    ⟨0x3D00, 16, 1, 17, 17, .u32, .rw, false, true, (.nat 1000 1000000), (.num 100000)⟩,
    ⟨0x3D00, 16, 1, 18, 18, .f32, .rw, false, true, (.f32 0 1315859240), (.num 0)⟩,
    ⟨0x3D00, 16, 1, 19, 19, .u32, .rw, false, true, (.nat 1000 10000000), (.num 50000)⟩,
    ⟨0x3D10, 16, 1, 0, 0, .u8, .ro, false, false, (.nat 9 9), (.num 9)⟩,
    ⟨0x3D10, 16, 1, 1, 1, .i64, .ro, true, false, .all, (.num 0)⟩,
    ⟨0x3D10, 16, 1, 2, 2, .time, .ro, false, false, .all, (.num 0)⟩,
    ⟨0x3D10, 16, 1, 3, 3, .f32, .ro, true, false, .all, (.num 0)⟩,
    ⟨0x3D10, 16, 1, 4, 4, .u16, .ro, true, false, .all, (.num 4)⟩,
    ⟨0x3D10, 16, 1, 5, 5, .u16, .ro, true, false, .special, (.num 65535)⟩,
    ⟨0x3D10, 16, 1, 6, 6, .i64, .ro, false, false, .all, (.num 0)⟩,
    ⟨0x3D10, 16, 1, 7, 7, .time, .ro, false, false, .all, (.num 0)⟩,
    ⟨0x3D10, 16, 1, 8, 8, .i16, .ro, false, false, .special, (.num 0)⟩,
    ⟨0x3D10, 16, 1, 9, 9, .f32, .ro, false, false, .all, (.num 0)⟩,
    ⟨0x3D20, 16, 1, 0, 0, .u8, .ro, false, false, (.nat 8 8), (.num 8)⟩,
    ⟨0x3D20, 16, 1, 1, 1, .u32, .rw, false, false, .all, (.num 0)⟩,
    ⟨0x3D20, 16, 1, 2, 2, .u32, .rw, false, false, .all, (.num 0)⟩,
    ⟨0x3D20, 16, 1, 3, 3, .u32, .rw, false, false, .all, (.num 0)⟩,
    ⟨0x3D20, 16, 1, 4, 4, .u32, .rw, false, false, .all, (.num 0)⟩,
    ⟨0x3D20, 16, 1, 5, 5, .u32, .rw, false, false, .all, (.num 0)⟩ ]

/-- Object rows of R150, R171, R172. -/
def rowsIo1 : List Row :=
  [ ⟨0x3D20, 16, 1, 6, 6, .u32, .rw, false, false, .all, (.num 0)⟩,
    ⟨0x3D20, 16, 1, 7, 7, .u32, .rw, false, false, .all, (.num 0)⟩,
    ⟨0x3D20, 16, 1, 8, 8, .u32, .rw, false, false, .all, (.num 0)⟩,
    ⟨0x3D40, 8, 1, 0, 0, .u8, .ro, false, false, (.nat 9 9), (.num 9)⟩,
    ⟨0x3D40, 8, 1, 1, 1, .bool, .rws, false, true, (.nat 0 1), (.num 0)⟩,
    ⟨0x3D40, 8, 1, 2, 2, .u8, .rws, false, true, (.nat 1 3), (.num 1)⟩,
    ⟨0x3D40, 8, 1, 3, 3, .u16, .rws, false, true, .special, (.num 0)⟩,
    ⟨0x3D40, 8, 1, 4, 4, .i32, .rws, false, true, .special, (.num 1)⟩,
    ⟨0x3D40, 8, 1, 5, 5, .u32, .rws, false, true, (.nat 1 2147483648), (.num 1)⟩,
    ⟨0x3D40, 8, 1, 6, 6, .u32, .rws, false, true, .special, (.num 0)⟩,
    ⟨0x3D40, 8, 1, 7, 7, .u32, .rws, false, true, .special, (.num 0)⟩,
    ⟨0x3D40, 8, 1, 8, 8, .f32, .rws, false, true, (.f32 1148846080 1259902592), (.num 1259902592)⟩,
    ⟨0x3D40, 8, 1, 9, 9, .bool, .rws, false, true, (.nat 0 1), (.num 0)⟩,
    ⟨0x3D48, 8, 1, 0, 0, .u8, .ro, false, false, (.nat 5 5), (.num 5)⟩,
    ⟨0x3D48, 8, 1, 1, 1, .i64, .ro, true, false, .all, (.num 0)⟩,
    ⟨0x3D48, 8, 1, 2, 2, .i64, .ro, false, false, .all, (.num 0)⟩,
    ⟨0x3D48, 8, 1, 3, 3, .u16, .ro, true, false, .all, (.num 0)⟩,
    ⟨0x3D48, 8, 1, 4, 4, .u32, .rw, false, false, .all, (.num 0)⟩,
    ⟨0x3D48, 8, 1, 5, 5, .u32, .rw, false, false, .all, (.num 0)⟩,
    ⟨0x3D80, 16, 1, 0, 0, .u8, .ro, false, false, (.nat 5 5), (.num 5)⟩,
    ⟨0x3D80, 16, 1, 1, 1, .u16, .rws, false, true, (.nat 100 10000), (.num 1000)⟩,
    ⟨0x3D80, 16, 1, 2, 2, .u16, .rws, false, true, (.nat 1000 50000), (.num 1000)⟩,
    ⟨0x3D80, 16, 1, 3, 3, .u8, .rws, false, true, (.nat 0 3), (.num 0)⟩,
    ⟨0x3D80, 16, 1, 4, 4, .bool, .rws, false, true, (.nat 0 1), (.num 0)⟩,
    ⟨0x3D80, 16, 1, 5, 5, .f32, .ro, false, false, .all, (.num 1223959552)⟩,
    ⟨0x3D90, 4, 1, 0, 0, .octets, .rws, false, true, (.len 1024 1024), .special⟩,
    ⟨0x3D94, 1, 1, 0, 0, .u8, .ro, false, false, (.nat 4 4), (.num 4)⟩,
    ⟨0x3D94, 1, 1, 1, 4, .u32, .ro, false, false, .all, .special⟩ ]

/-- Object rows with index from 0x3D00 to below 0x3E00. -/
def rowsIo : List Row := rowsIo0 ++ rowsIo1

/-- Object rows of R409. -/
def rowsMem0 : List Row :=
  [ ⟨0x3E00, 1, 1, 0, 0, .u8, .ro, false, false, (.nat 4 4), (.num 4)⟩,
    ⟨0x3E00, 1, 1, 1, 1, .bool, .rw, false, true, (.nat 0 1), (.num 1)⟩,
    ⟨0x3E00, 1, 1, 2, 2, .u16, .ro, false, false, (.nat 0 2047), (.num 0)⟩,
    ⟨0x3E00, 1, 1, 3, 3, .u32, .rw, false, false, .all, (.num 0)⟩,
    ⟨0x3E00, 1, 1, 4, 4, .u16, .ro, false, false, .all, (.num 0)⟩,
    ⟨0x3E10, 16, 1, 0, 0, .u8, .ro, false, false, (.nat 4 4), (.num 4)⟩,
    ⟨0x3E10, 16, 1, 1, 1, .u32, .rw, false, false, .all, (.num 0)⟩,
    ⟨0x3E10, 16, 1, 2, 2, .u32, .rw, false, false, .all, (.num 0)⟩,
    ⟨0x3E10, 16, 1, 3, 3, .u32, .rw, false, false, .all, (.num 0)⟩,
    ⟨0x3E10, 16, 1, 4, 4, .u16, .ro, false, false, .special, (.num 65535)⟩,
    ⟨0x3E30, 16, 1, 0, 0, .u8, .ro, false, false, (.nat 4 4), (.num 4)⟩,
    ⟨0x3E30, 16, 1, 1, 1, .u32, .rw, false, false, .all, (.num 0)⟩,
    ⟨0x3E30, 16, 1, 2, 2, .u32, .rw, false, false, .all, (.num 0)⟩,
    ⟨0x3E30, 16, 1, 3, 3, .u32, .rw, false, false, .all, (.num 0)⟩,
    ⟨0x3E30, 16, 1, 4, 4, .u32, .rw, false, false, .all, (.num 0)⟩,
    ⟨0x3E40, 1, 1, 0, 0, .u8, .ro, false, false, (.nat 8 8), (.num 8)⟩,
    ⟨0x3E40, 1, 1, 1, 8, .u32, .rw, false, false, .all, (.num 0)⟩,
    ⟨0x3E50, 1, 1, 0, 0, .u8, .ro, false, false, (.nat 4 4), (.num 4)⟩,
    ⟨0x3E50, 1, 1, 1, 1, .u32, .wo, false, false, (.nat 1953719668 1953719668), (.num 0)⟩,
    ⟨0x3E50, 1, 1, 2, 2, .u8, .ro, false, false, (.nat 0 3), (.num 0)⟩,
    ⟨0x3E50, 1, 1, 3, 3, .u32, .ro, false, false, .all, (.num 0)⟩,
    ⟨0x3E50, 1, 1, 4, 4, .u8, .ro, false, false, (.nat 0 11), (.num 0)⟩ ]

/-- Object rows with index from 0x3E00 to below 0x4000. -/
def rowsMem : List Row := rowsMem0

/-- Object rows of R228, R266, R267, R531. -/
def rowsFieldNode0 : List Row :=
  [ ⟨0x4000, 4096, 4, 0, 0, .u8, .ro, false, false, (.nat 8 8), (.num 8)⟩,
    ⟨0x4000, 4096, 4, 1, 1, .u8, .ro, true, false, (.nat 0 6), (.num 0)⟩,
    ⟨0x4000, 4096, 4, 2, 2, .u8, .ro, false, false, (.nat 0 3), (.num 0)⟩,
    ⟨0x4000, 4096, 4, 3, 3, .u32, .ro, false, false, .all, (.num 0)⟩,
    ⟨0x4000, 4096, 4, 4, 4, .u16, .ro, false, false, .all, (.num 0)⟩,
    ⟨0x4000, 4096, 4, 5, 5, .u16, .ro, false, false, .all, (.num 0)⟩,
    ⟨0x4000, 4096, 4, 6, 6, .u16, .ro, false, false, .all, (.num 0)⟩,
    ⟨0x4000, 4096, 4, 7, 7, .u32, .ro, false, false, .all, (.num 0)⟩,
    ⟨0x4000, 4096, 4, 8, 8, .u64, .ro, false, false, .all, (.num 0)⟩,
    ⟨0x4001, 4096, 4, 0, 0, .u8, .ro, false, false, (.nat 3 3), (.num 3)⟩,
    ⟨0x4001, 4096, 4, 1, 1, .u16, .rw, true, false, .all, (.num 0)⟩,
    ⟨0x4001, 4096, 4, 2, 2, .u16, .ro, false, false, .all, (.num 0)⟩,
    ⟨0x4001, 4096, 4, 3, 3, .u16, .ro, false, false, .all, (.num 0)⟩,
    ⟨0x4002, 4096, 4, 0, 0, .u8, .ro, false, false, (.nat 18 18), (.num 18)⟩,
    ⟨0x4002, 4096, 4, 1, 1, .u16, .ro, true, false, .all, (.num 0)⟩,
    ⟨0x4002, 4096, 4, 2, 2, .i16, .ro, true, false, .all, (.num 0)⟩,
    ⟨0x4002, 4096, 4, 3, 16, .u16, .ro, true, false, .all, (.num 0)⟩,
    ⟨0x4002, 4096, 4, 17, 17, .u16, .ro, true, false, .all, (.num 0)⟩,
    ⟨0x4002, 4096, 4, 18, 18, .u64, .ro, false, false, .all, (.num 0)⟩,
    ⟨0x4003, 4096, 4, 0, 0, .u8, .ro, false, false, (.nat 8 8), (.num 8)⟩,
    ⟨0x4003, 4096, 4, 1, 1, .u32, .rw, false, false, .all, (.num 0)⟩,
    ⟨0x4003, 4096, 4, 2, 2, .u32, .rw, false, false, .all, (.num 0)⟩,
    ⟨0x4003, 4096, 4, 3, 3, .u32, .rw, false, false, .all, (.num 0)⟩,
    ⟨0x4003, 4096, 4, 4, 4, .u32, .rw, false, false, .all, (.num 0)⟩,
    ⟨0x4003, 4096, 4, 5, 5, .u32, .rw, false, false, .all, (.num 0)⟩,
    ⟨0x4003, 4096, 4, 6, 6, .u32, .rw, false, false, .all, (.num 0)⟩,
    ⟨0x4003, 4096, 4, 7, 7, .u32, .rw, false, false, .all, (.num 0)⟩,
    ⟨0x4003, 4096, 4, 8, 8, .u32, .rw, false, false, .all, (.num 0)⟩ ]

/-- Object rows with index from 0x4000 to below 0x8000. -/
def rowsFieldNode : List Row := rowsFieldNode0

/-- Object rows of R55, R128. -/
def rowsAxisA0 : List Row :=
  [ ⟨0x8000, 512, 64, 0, 0, .u8, .ro, false, false, (.nat 2 2), (.num 2)⟩,
    ⟨0x8000, 512, 64, 1, 1, .u16, .ro, false, false, (.nat 0 511), .special⟩,
    ⟨0x8000, 512, 64, 2, 2, .str, .rw, false, true, (.nat 0 16), (.num 0)⟩,
    ⟨0x8001, 512, 64, 0, 0, .u8, .ro, false, false, (.nat 6 6), (.num 6)⟩,
    ⟨0x8001, 512, 64, 1, 1, .u8, .rws, false, true, (.nat 0 6), (.num 0)⟩,
    ⟨0x8001, 512, 64, 2, 2, .u8, .rws, false, true, (.nat 0 7), (.num 0)⟩,
    ⟨0x8001, 512, 64, 3, 3, .u8, .rws, false, true, (.nat 1 48), (.num 1)⟩,
    ⟨0x8001, 512, 64, 4, 4, .u8, .rws, false, true, (.nat 0 7), (.num 0)⟩,
    ⟨0x8001, 512, 64, 5, 5, .u8, .rws, false, true, (.nat 0 15), (.num 0)⟩,
    ⟨0x8001, 512, 64, 6, 6, .u8, .rws, false, true, .special, (.num 0)⟩,
    ⟨0x8008, 512, 64, 0, 0, .u8, .ro, false, false, (.nat 1 1), (.num 1)⟩,
    ⟨0x8008, 512, 64, 1, 1, .u16, .rw, true, false, .all, (.num 0)⟩,
    ⟨0x8009, 512, 64, 0, 0, .u8, .ro, false, false, (.nat 5 5), (.num 5)⟩,
    ⟨0x8009, 512, 64, 1, 1, .u8, .ro, true, false, (.nat 0 6), (.num 0)⟩,
    ⟨0x8009, 512, 64, 2, 2, .u16, .ro, false, false, (.nat 0 8), (.num 0)⟩,
    ⟨0x8009, 512, 64, 3, 3, .u16, .ro, true, false, .all, (.num 0)⟩,
    ⟨0x8009, 512, 64, 4, 4, .u16, .ro, true, false, .all, (.num 0)⟩,
    ⟨0x8009, 512, 64, 5, 5, .u64, .ro, false, false, .all, (.num 0)⟩,
    ⟨0x800A, 512, 64, 0, 0, .u8, .ro, false, false, (.nat 5 5), (.num 5)⟩,
    ⟨0x800A, 512, 64, 1, 1, .u8, .rw, false, true, (.nat 1 3), (.num 2)⟩,
    ⟨0x800A, 512, 64, 2, 2, .u8, .rw, false, true, (.nat 1 3), (.num 2)⟩,
    ⟨0x800A, 512, 64, 3, 3, .u8, .rw, false, true, (.nat 1 2), (.num 2)⟩,
    ⟨0x800A, 512, 64, 4, 4, .f32, .rw, false, true, (.f32 1065353216 1343554297), (.num 1287568416)⟩,
    ⟨0x800A, 512, 64, 5, 5, .f32, .rw, false, true, (.f32 1065353216 1427211495), (.num 1343554297)⟩ ]

/-- Object rows with index from 0x8000 to below 0x8010. -/
def rowsAxisA : List Row := rowsAxisA0

/-- Object rows of R80. -/
def rowsAxisB0 : List Row :=
  [ ⟨0x8010, 512, 64, 0, 0, .u8, .ro, false, false, (.nat 5 5), (.num 5)⟩,
    ⟨0x8010, 512, 64, 1, 1, .f32, .rw, false, true, (.f32 0 1176256512), (.num 0)⟩,
    ⟨0x8010, 512, 64, 2, 2, .f32, .rw, false, true, (.f32 0 1232348160), (.num 0)⟩,
    ⟨0x8010, 512, 64, 3, 3, .f32, .rw, false, true, (.f32 0 1287568416), (.num 0)⟩,
    ⟨0x8010, 512, 64, 4, 4, .f32, .rw, false, true, (.f32 0 1315859240), (.num 1259902592)⟩,
    ⟨0x8010, 512, 64, 5, 5, .f32, .rw, false, true, (.f32 0 1399379109), (.num 1199570944)⟩,
    ⟨0x8011, 512, 64, 0, 0, .u8, .ro, false, false, (.nat 3 3), (.num 3)⟩,
    ⟨0x8011, 512, 64, 1, 1, .f32, .rw, false, true, (.f32 0 1065353216), (.num 0)⟩,
    ⟨0x8011, 512, 64, 2, 2, .f32, .rw, false, true, (.f32 0 1148846080), (.num 0)⟩,
    ⟨0x8011, 512, 64, 3, 3, .f32, .rw, false, true, (.f32 0 1082130432), (.num 1065353216)⟩,
    ⟨0x8012, 512, 64, 0, 0, .u8, .ro, false, false, (.nat 2 2), (.num 2)⟩,
    ⟨0x8012, 512, 64, 1, 1, .f32, .rw, false, true, (.f32 0 1069547520), (.num 0)⟩,
    ⟨0x8012, 512, 64, 2, 2, .f32, .rw, false, true, (.f32 0 981668463), (.num 0)⟩,
    ⟨0x8013, 512, 64, 0, 0, .u8, .ro, false, false, (.nat 2 2), (.num 2)⟩,
    ⟨0x8013, 512, 64, 1, 1, .f32, .rw, true, true, (.f32 0 1082130432), (.num 1065353216)⟩,
    ⟨0x8013, 512, 64, 2, 2, .f32, .rw, true, true, (.f32 0 1082130432), (.num 1065353216)⟩,
    ⟨0x8014, 512, 64, 0, 0, .u8, .ro, false, false, (.nat 9 9), (.num 9)⟩,
    ⟨0x8014, 512, 64, 1, 1, .bool, .rw, false, true, (.nat 0 1), (.num 0)⟩,
    ⟨0x8014, 512, 64, 2, 2, .f32, .rw, false, true, (.f32 1101004800 1178304512), (.num 1148846080)⟩,
    ⟨0x8014, 512, 64, 3, 3, .f32, .rw, false, true, .special, (.num 1120403456)⟩,
    ⟨0x8014, 512, 64, 4, 4, .f32, .rw, false, true, (.f32 3262119936 0), (.num 3248488448)⟩,
    ⟨0x8014, 512, 64, 5, 9, .f32, .ro, false, false, .all, .special⟩,
    ⟨0x8015, 512, 64, 0, 0, .u8, .ro, false, false, (.nat 9 9), (.num 9)⟩,
    ⟨0x8015, 512, 64, 1, 1, .bool, .rw, false, true, (.nat 0 1), (.num 0)⟩,
    ⟨0x8015, 512, 64, 2, 2, .f32, .rw, false, true, (.f32 1101004800 1178304512), (.num 1148846080)⟩,
    ⟨0x8015, 512, 64, 3, 3, .f32, .rw, false, true, .special, (.num 1120403456)⟩,
    ⟨0x8015, 512, 64, 4, 4, .f32, .rw, false, true, (.f32 3262119936 0), (.num 3248488448)⟩,
    ⟨0x8015, 512, 64, 5, 9, .f32, .ro, false, false, .all, .special⟩,
    ⟨0x8016, 512, 64, 0, 0, .u8, .ro, false, false, (.nat 2 2), (.num 2)⟩,
    ⟨0x8016, 512, 64, 1, 1, .f32, .rw, false, true, (.f32 1008981770 1065353216), (.num 1065353216)⟩,
    ⟨0x8016, 512, 64, 2, 2, .u8, .rw, false, true, (.nat 1 16), (.num 3)⟩,
    ⟨0x8017, 512, 64, 0, 0, .u8, .ro, false, false, (.nat 5 5), (.num 5)⟩,
    ⟨0x8017, 512, 64, 1, 1, .u8, .rws, false, true, (.nat 0 4), (.num 0)⟩,
    ⟨0x8017, 512, 64, 2, 2, .f32, .rw, false, true, (.f32 3602245153 1454761505), (.num 0)⟩,
    ⟨0x8017, 512, 64, 3, 3, .f32, .rw, false, true, (.f32 1065353216 1454761505), (.num 1232348160)⟩,
    ⟨0x8017, 512, 64, 4, 4, .u32, .rws, false, true, .special, (.num 0)⟩ ]

/-- Object rows of R80, R97. A display whose default the table leaves open reads 0 before the first control instant (DESIGN CHOICE, log 107). -/
def rowsAxisB1 : List Row :=
  [ ⟨0x8017, 512, 64, 5, 5, .u8, .rws, false, true, (.nat 1 8), (.num 1)⟩,
    ⟨0x8018, 512, 64, 0, 0, .u8, .ro, false, false, (.nat 8 8), (.num 8)⟩,
    ⟨0x8018, 512, 64, 1, 8, .f32, .rw, false, true, .special, .special⟩,
    ⟨0x8019, 512, 64, 0, 0, .u8, .ro, false, false, (.nat 48 48), (.num 48)⟩,
    ⟨0x8019, 512, 64, 1, 48, .f32, .rw, false, true, .special, (.num 0)⟩,
    ⟨0x801A, 512, 64, 0, 0, .u8, .ro, false, false, (.nat 8 8), (.num 8)⟩,
    ⟨0x801A, 512, 64, 1, 6, .f32, .ro, false, false, .all, (.num 0)⟩,
    ⟨0x801A, 512, 64, 7, 7, .f32, .ro, true, false, .all, (.num 0)⟩,
    ⟨0x801A, 512, 64, 8, 8, .u8, .ro, false, false, (.nat 1 8), (.num 1)⟩,
    ⟨0x801B, 512, 64, 0, 0, .u8, .ro, false, false, (.nat 7 7), (.num 7)⟩,
    ⟨0x801B, 512, 64, 1, 1, .f32, .ro, true, false, .all, (.num 0)⟩,
    ⟨0x801B, 512, 64, 2, 2, .f32, .ro, true, false, .all, (.num 0)⟩,
    ⟨0x801B, 512, 64, 3, 3, .f32, .ro, true, false, .all, (.num 0)⟩,
    ⟨0x801B, 512, 64, 4, 4, .f32, .ro, true, false, .all, (.num 0)⟩,
    ⟨0x801B, 512, 64, 5, 5, .f32, .ro, false, false, .all, (.num 0)⟩,
    ⟨0x801B, 512, 64, 6, 6, .f32, .ro, false, false, .all, (.num 0)⟩,
    ⟨0x801B, 512, 64, 7, 7, .u16, .ro, true, false, .all, (.num 32)⟩,
    ⟨0x801C, 512, 64, 0, 0, .u8, .ro, false, false, (.nat 9 9), (.num 9)⟩,
    ⟨0x801C, 512, 64, 1, 1, .u8, .rws, false, true, (.nat 1 100), (.num 4)⟩,
    ⟨0x801C, 512, 64, 2, 2, .f32, .rws, false, true, (.f32 981668463 1120403456), (.num 1065353216)⟩,
    ⟨0x801C, 512, 64, 3, 3, .f32, .rws, false, true, (.f32 897988541 1065353216), (.num 981668463)⟩,
    ⟨0x801C, 512, 64, 4, 4, .f32, .rws, false, true, (.f32 897988541 1065353216), (.num 981668463)⟩,
    ⟨0x801C, 512, 64, 5, 5, .f32, .rws, false, true, (.f32 0 1092616192), (.num 0)⟩,
    ⟨0x801C, 512, 64, 6, 6, .f32, .rws, false, true, (.f32 1008981770 1148846080), (.num 1065353216)⟩,
    ⟨0x801C, 512, 64, 7, 7, .f32, .rw, false, true, (.f32 1008981770 1148846080), (.num 1073741824)⟩,
    ⟨0x801C, 512, 64, 8, 8, .u32, .rws, false, true, (.nat 16 2147483648), (.num 1048576)⟩,
    ⟨0x801C, 512, 64, 9, 9, .f32, .rws, false, true, .special, (.num 0)⟩,
    ⟨0x801D, 512, 64, 0, 0, .u8, .ro, false, false, (.nat 1 1), (.num 1)⟩,
    ⟨0x801D, 512, 64, 1, 1, .u8, .rws, false, true, (.nat 0 7), .special⟩,
    ⟨0x801E, 512, 64, 0, 0, .u8, .ro, false, false, (.nat 1 1), (.num 1)⟩,
    ⟨0x801E, 512, 64, 1, 1, .u8, .rws, false, true, (.nat 0 2), (.num 1)⟩,
    ⟨0x801F, 512, 64, 0, 0, .u8, .ro, false, false, (.nat 22 22), (.num 22)⟩,
    ⟨0x801F, 512, 64, 1, 1, .f32, .rw, false, true, (.f32 1120403456 1174011904), (.num 1148846080)⟩,
    ⟨0x801F, 512, 64, 2, 2, .f32, .rw, true, true, .special, (.num 0)⟩,
    ⟨0x801F, 512, 64, 3, 3, .f32, .rw, false, true, (.f32 1056964608 1065353216), (.num 1064514355)⟩,
    ⟨0x801F, 512, 64, 4, 4, .f32, .rws, false, true, (.f32 1036831949 1157234688), (.num 1092616192)⟩ ]

/-- Object rows of R97. -/
def rowsAxisB2 : List Row :=
  [ ⟨0x801F, 512, 64, 5, 5, .f32, .rw, false, true, (.f32 1008981770 1157234688), (.num 1077936128)⟩,
    ⟨0x801F, 512, 64, 6, 6, .f32, .rw, false, true, (.f32 0 1148846080), (.num 1101004800)⟩,
    ⟨0x801F, 512, 64, 7, 7, .u8, .rw, false, true, (.nat 1 4), (.num 2)⟩,
    ⟨0x801F, 512, 64, 8, 8, .u8, .rws, false, true, (.set [1, 2, 4]), (.num 1)⟩,
    ⟨0x801F, 512, 64, 9, 9, .bool, .rw, false, true, (.nat 0 1), (.num 0)⟩,
    ⟨0x801F, 512, 64, 10, 10, .f32, .ro, false, false, .all, .special⟩,
    ⟨0x801F, 512, 64, 11, 11, .f32, .ro, false, false, .all, .special⟩,
    ⟨0x801F, 512, 64, 12, 12, .f32, .ro, false, false, .all, .special⟩,
    ⟨0x801F, 512, 64, 13, 13, .f32, .ro, false, false, .all, (.num 0)⟩,
    ⟨0x801F, 512, 64, 14, 14, .f32, .ro, true, false, .all, (.num 0)⟩,
    ⟨0x801F, 512, 64, 15, 15, .f32, .ro, true, false, .all, (.num 0)⟩,
    ⟨0x801F, 512, 64, 16, 16, .f32, .ro, false, false, .all, (.num 0)⟩,
    ⟨0x801F, 512, 64, 17, 17, .f32, .ro, false, false, .all, (.num 0)⟩,
    ⟨0x801F, 512, 64, 18, 18, .f32, .ro, true, false, .all, (.num 0)⟩,
    ⟨0x801F, 512, 64, 19, 19, .u16, .ro, true, false, .all, (.num 0)⟩,
    ⟨0x801F, 512, 64, 20, 20, .f32, .ro, true, false, .all, (.num 0)⟩,
    ⟨0x801F, 512, 64, 21, 21, .f32, .rw, false, true, (.f32 1008981770 1065353216), (.num 1040187392)⟩,
    ⟨0x801F, 512, 64, 22, 22, .f32, .rw, false, true, (.f32 1056964608 1140457472), (.num 1084227584)⟩ ]

/-- Object rows with index from 0x8010 to below 0x8020. -/
def rowsAxisB : List Row := rowsAxisB0 ++ rowsAxisB1 ++ rowsAxisB2

/-- Object rows of R128. -/
def rowsAxisC0 : List Row :=
  [ ⟨0x8020, 512, 64, 0, 0, .u8, .ro, false, false, (.nat 10 10), (.num 10)⟩,
    ⟨0x8020, 512, 64, 1, 1, .u8, .rw, true, false, (.nat 1 5), (.num 1)⟩,
    ⟨0x8020, 512, 64, 2, 2, .u16, .rw, true, false, .all, (.num 0)⟩,
    ⟨0x8020, 512, 64, 3, 3, .i64, .rw, true, false, .all, (.num 0)⟩,
    ⟨0x8020, 512, 64, 4, 4, .f32, .rw, true, false, .special, (.num 0)⟩,
    ⟨0x8020, 512, 64, 5, 5, .f32, .rw, true, false, .special, (.num 1232348160)⟩,
    ⟨0x8020, 512, 64, 6, 6, .f32, .rw, true, false, .special, (.num 1232348160)⟩,
    ⟨0x8020, 512, 64, 7, 7, .f32, .rw, true, false, .special, (.num 1287568416)⟩,
    ⟨0x8020, 512, 64, 8, 8, .u16, .rw, true, false, .all, (.num 0)⟩,
    ⟨0x8020, 512, 64, 9, 9, .u32, .rw, true, false, .all, (.num 0)⟩,
    ⟨0x8020, 512, 64, 10, 10, .i64, .rw, true, false, .special, (.num 0)⟩,
    ⟨0x8021, 512, 64, 0, 0, .u8, .ro, false, false, (.nat 8 8), (.num 8)⟩,
    ⟨0x8021, 512, 64, 1, 1, .u8, .rw, true, false, (.nat 1 3), (.num 1)⟩,
    ⟨0x8021, 512, 64, 2, 2, .u16, .rw, true, false, .special, (.num 0)⟩,
    ⟨0x8021, 512, 64, 3, 3, .i32, .rw, true, false, .special, (.num 1)⟩,
    ⟨0x8021, 512, 64, 4, 4, .u32, .rw, true, false, (.nat 1 2147483648), (.num 1)⟩,
    ⟨0x8021, 512, 64, 5, 5, .u8, .rw, true, false, (.nat 0 1), (.num 0)⟩,
    ⟨0x8021, 512, 64, 6, 6, .i64, .rw, true, false, .all, (.num 0)⟩,
    ⟨0x8021, 512, 64, 7, 7, .u32, .rw, true, false, (.nat 1 31250000), (.num 3125)⟩,
    ⟨0x8021, 512, 64, 8, 8, .i64, .rw, true, false, .all, (.num 0)⟩,
    ⟨0x8022, 512, 64, 0, 0, .u8, .ro, false, false, (.nat 5 5), (.num 5)⟩,
    ⟨0x8022, 512, 64, 1, 1, .u8, .ro, true, false, (.nat 0 16), (.num 0)⟩,
    ⟨0x8022, 512, 64, 2, 2, .u16, .ro, true, false, .all, (.num 0)⟩,
    ⟨0x8022, 512, 64, 3, 3, .u8, .ro, true, false, (.nat 0 5), (.num 0)⟩,
    ⟨0x8022, 512, 64, 4, 4, .i64, .ro, true, false, .all, (.num 0)⟩,
    ⟨0x8022, 512, 64, 5, 5, .u32, .rw, false, false, .all, (.num 0)⟩,
    ⟨0x8023, 512, 64, 0, 0, .u8, .ro, false, false, (.nat 6 6), (.num 6)⟩,
    ⟨0x8023, 512, 64, 1, 1, .f32, .rw, false, true, (.f32 1065353216 1315859240), (.num 1259902592)⟩,
    ⟨0x8023, 512, 64, 2, 2, .f32, .rw, false, true, (.f32 1065353216 1343554297), (.num 1315859240)⟩,
    ⟨0x8023, 512, 64, 3, 3, .f32, .rw, false, true, (.f32 1065353216 1427211495), (.num 1371161527)⟩,
    ⟨0x8023, 512, 64, 4, 4, .bool, .rw, false, true, (.nat 0 1), (.num 0)⟩,
    ⟨0x8023, 512, 64, 5, 5, .i64, .rw, false, true, .special, (.num 9223372036854775808)⟩,
    ⟨0x8023, 512, 64, 6, 6, .i64, .rw, false, true, .special, (.num 9223372036854775807)⟩,
    ⟨0x8024, 512, 64, 0, 0, .u8, .ro, false, false, (.nat 4 4), (.num 4)⟩,
    ⟨0x8024, 512, 64, 1, 1, .i64, .ro, true, false, .all, (.num 0)⟩,
    ⟨0x8024, 512, 64, 2, 2, .f32, .ro, true, false, .all, (.num 0)⟩ ]

/-- Object rows of R128. -/
def rowsAxisC1 : List Row :=
  [ ⟨0x8024, 512, 64, 3, 3, .f32, .ro, true, false, .all, (.num 0)⟩,
    ⟨0x8024, 512, 64, 4, 4, .i64, .ro, false, false, .all, (.num 0)⟩,
    ⟨0x8028, 512, 64, 0, 0, .u8, .ro, false, false, (.nat 10 10), (.num 10)⟩,
    ⟨0x8028, 512, 64, 1, 1, .u8, .rw, false, true, (.nat 1 6), (.num 1)⟩,
    ⟨0x8028, 512, 64, 2, 2, .u8, .rw, false, true, (.nat 0 1), (.num 0)⟩,
    ⟨0x8028, 512, 64, 3, 3, .f32, .rw, false, true, .special, (.num 1203982336)⟩,
    ⟨0x8028, 512, 64, 4, 4, .f32, .rw, false, true, .special, (.num 1176256512)⟩,
    ⟨0x8028, 512, 64, 5, 5, .f32, .rw, false, true, .special, (.num 1232348160)⟩,
    ⟨0x8028, 512, 64, 6, 6, .f32, .rw, false, true, .special, (.num 1268291200)⟩,
    ⟨0x8028, 512, 64, 7, 7, .i64, .rw, false, true, .all, (.num 0)⟩,
    ⟨0x8028, 512, 64, 8, 8, .bool, .rw, false, true, (.nat 0 1), (.num 0)⟩,
    ⟨0x8028, 512, 64, 9, 9, .i64, .rw, false, true, .all, (.num 0)⟩,
    ⟨0x8028, 512, 64, 10, 10, .f32, .rw, false, true, (.f32 1065353216 1454761505), (.num 1315859240)⟩,
    ⟨0x8029, 512, 64, 0, 0, .u8, .ro, false, false, (.nat 4 4), (.num 4)⟩,
    ⟨0x8029, 512, 64, 1, 1, .u8, .ro, true, false, (.nat 0 6), (.num 0)⟩,
    ⟨0x8029, 512, 64, 2, 2, .u8, .ro, true, false, (.nat 0 5), (.num 0)⟩,
    ⟨0x8029, 512, 64, 3, 3, .i64, .ro, false, false, .all, (.num 0)⟩,
    ⟨0x8029, 512, 64, 4, 4, .u8, .ro, false, false, (.nat 0 1), (.num 0)⟩,
    ⟨0x802C, 512, 64, 0, 0, .u8, .ro, false, false, (.nat 7 7), (.num 7)⟩,
    ⟨0x802C, 512, 64, 1, 1, .u32, .rws, false, true, .special, (.num 0)⟩,
    ⟨0x802C, 512, 64, 2, 2, .u32, .rws, false, true, .special, (.num 0)⟩,
    ⟨0x802C, 512, 64, 3, 3, .u32, .rws, false, true, .special, (.num 0)⟩,
    ⟨0x802C, 512, 64, 4, 4, .u8, .rw, false, true, (.nat 0 7), (.num 0)⟩,
    ⟨0x802C, 512, 64, 5, 5, .u32, .rw, false, true, (.nat 0 1000000), (.num 2000)⟩,
    ⟨0x802C, 512, 64, 6, 6, .u8, .rw, false, true, (.nat 1 255), (.num 8)⟩,
    ⟨0x802C, 512, 64, 7, 7, .u32, .rw, false, true, (.nat 1000 10000000), (.num 100000)⟩,
    ⟨0x802D, 512, 64, 0, 0, .u8, .ro, false, false, (.nat 5 5), (.num 5)⟩,
    ⟨0x802D, 512, 64, 1, 1, .u32, .rw, false, false, .all, (.num 0)⟩,
    ⟨0x802D, 512, 64, 2, 2, .u32, .rw, false, false, .all, (.num 0)⟩,
    ⟨0x802D, 512, 64, 3, 3, .u32, .rw, false, false, .all, (.num 0)⟩,
    ⟨0x802D, 512, 64, 4, 4, .u32, .rw, false, false, .all, (.num 0)⟩,
    ⟨0x802D, 512, 64, 5, 5, .u32, .rw, false, false, .all, (.num 0)⟩ ]

/-- Object rows with index from 0x8020 to below 0x8030. -/
def rowsAxisC : List Row := rowsAxisC0 ++ rowsAxisC1

/-- Object rows of R80, R97, R151. -/
def rowsAxisD0 : List Row :=
  [ ⟨0x8034, 512, 64, 0, 0, .u8, .ro, false, false, (.nat 5 5), (.num 5)⟩,
    ⟨0x8034, 512, 64, 1, 1, .f32, .rw, false, true, (.f32 0 1115886060), (.num 1056964608)⟩,
    ⟨0x8034, 512, 64, 2, 2, .f32, .rw, false, true, (.f32 0 1115886060), (.num 1065353216)⟩,
    ⟨0x8034, 512, 64, 3, 3, .f32, .rw, false, true, (.f32 953267991 1115886060), (.num 1008981770)⟩,
    ⟨0x8034, 512, 64, 4, 4, .f32, .rw, false, true, (.f32 953267991 1115886060), (.num 981668463)⟩,
    ⟨0x8034, 512, 64, 5, 5, .u8, .rws, false, true, (.nat 0 3), (.num 0)⟩,
    ⟨0x8035, 512, 64, 0, 0, .u8, .ro, false, false, (.nat 5 5), (.num 5)⟩,
    ⟨0x8035, 512, 64, 1, 1, .f32, .rw, false, true, (.f32 1008981770 1065353216), (.num 1048576000)⟩,
    ⟨0x8035, 512, 64, 2, 2, .f32, .rw, false, true, (.f32 1028443341 1065353216), (.num 1056964608)⟩,
    ⟨0x8035, 512, 64, 3, 3, .f32, .rw, false, true, (.f32 1028443341 1065353216), (.num 1061997773)⟩,
    ⟨0x8035, 512, 64, 4, 4, .u16, .rw, false, true, (.nat 1 65535), (.num 313)⟩,
    ⟨0x8035, 512, 64, 5, 5, .f32, .rw, false, true, (.f32 1092616192 1126825984), (.num 1116471296)⟩,
    ⟨0x8036, 512, 64, 0, 0, .u8, .ro, false, false, (.nat 7 7), (.num 7)⟩,
    ⟨0x8036, 512, 64, 1, 1, .f32, .ro, true, false, .all, (.num 0)⟩,
    ⟨0x8036, 512, 64, 2, 2, .f32, .ro, true, false, .all, (.num 0)⟩,
    ⟨0x8036, 512, 64, 3, 3, .f32, .ro, false, false, .all, (.num 0)⟩,
    ⟨0x8036, 512, 64, 4, 4, .f32, .ro, false, false, .all, (.num 0)⟩,
    ⟨0x8036, 512, 64, 5, 5, .u16, .ro, true, false, .all, (.num 0)⟩,
    ⟨0x8036, 512, 64, 6, 6, .i64, .ro, false, false, .all, (.num 0)⟩,
    ⟨0x8036, 512, 64, 7, 7, .i64, .ro, true, false, .all, (.num 0)⟩,
    ⟨0x8037, 512, 64, 0, 0, .u8, .ro, false, false, (.nat 3 3), (.num 3)⟩,
    ⟨0x8037, 512, 64, 1, 1, .u64, .ro, false, false, .special, (.num 0)⟩,
    ⟨0x8037, 512, 64, 2, 2, .u64, .ro, false, false, (.nat 0 281474976710655), (.num 0)⟩,
    ⟨0x8037, 512, 64, 3, 3, .i8, .ro, false, false, (.set [255, 1]), (.num 1)⟩,
    ⟨0x8038, 512, 64, 0, 0, .u8, .ro, false, false, (.nat 1 1), (.num 1)⟩,
    ⟨0x8038, 512, 64, 1, 1, .u16, .rw, false, true, .all, (.num 65535)⟩,
    ⟨0x8039, 512, 64, 0, 0, .u8, .ro, false, false, (.nat 5 5), (.num 5)⟩,
    ⟨0x8039, 512, 64, 1, 1, .u32, .rw, false, false, .all, (.num 0)⟩,
    ⟨0x8039, 512, 64, 2, 2, .u32, .rw, false, false, .all, (.num 0)⟩,
    ⟨0x8039, 512, 64, 3, 3, .u32, .rw, false, false, .all, (.num 0)⟩,
    ⟨0x8039, 512, 64, 4, 4, .u32, .rw, false, false, .all, (.num 0)⟩,
    ⟨0x8039, 512, 64, 5, 5, .u32, .rw, false, false, .all, (.num 0)⟩,
    ⟨0x803A, 512, 64, 0, 0, .u8, .ro, false, false, (.nat 5 5), (.num 5)⟩,
    ⟨0x803A, 512, 64, 1, 1, .u32, .rw, false, false, .all, (.num 0)⟩,
    ⟨0x803A, 512, 64, 2, 2, .u32, .rw, false, false, .all, (.num 0)⟩,
    ⟨0x803A, 512, 64, 3, 3, .u32, .rw, false, false, .all, (.num 0)⟩ ]

/-- Object rows of R97, R151. -/
def rowsAxisD1 : List Row :=
  [ ⟨0x803A, 512, 64, 4, 4, .u32, .rw, false, false, .all, (.num 0)⟩,
    ⟨0x803A, 512, 64, 5, 5, .u32, .rw, false, false, .all, (.num 0)⟩,
    ⟨0x803B, 512, 64, 0, 0, .u8, .ro, false, false, (.nat 5 5), (.num 5)⟩,
    ⟨0x803B, 512, 64, 1, 1, .u32, .rw, false, false, .all, (.num 0)⟩,
    ⟨0x803B, 512, 64, 2, 2, .u32, .rw, false, false, .all, (.num 0)⟩,
    ⟨0x803B, 512, 64, 3, 3, .u32, .rw, false, false, .all, (.num 0)⟩,
    ⟨0x803B, 512, 64, 4, 4, .u32, .rw, false, false, .all, (.num 0)⟩,
    ⟨0x803B, 512, 64, 5, 5, .u32, .rw, false, false, .all, (.num 0)⟩ ]

/-- Object rows with index from 0x8030 to below 0x8040. -/
def rowsAxisD : List Row := rowsAxisD0 ++ rowsAxisD1

/-- The rows that can hold index `idx` (axis rows are chosen by the offset within the axis, R25). -/
def rowsFor (idx : Nat) : List Row :=
  if idx < 0x2000 then rowsMgmt else
  if idx < 0x2F00 then rowsSys else
  if idx < 0x3000 then rowsHost else
  if idx < 0x3200 then rowsRing else
  if idx < 0x3300 then rowsLine else
  if idx < 0x3400 then rowsMould else
  if idx < 0x3600 then rowsTime else
  if idx < 0x3800 then rowsAcq else
  if idx < 0x3A00 then rowsFault else
  if idx < 0x3C00 then rowsSafety else
  if idx < 0x3D00 then rowsPair else
  if idx < 0x3E00 then rowsIo else
  if idx < 0x4000 then rowsMem else
  if idx < 0x8000 then rowsFieldNode else
  if idx < 0x10000 then
    let o := (idx - 0x8000) % 0x40
    if o < 0x10 then rowsAxisA else if o < 0x20 then rowsAxisB else if o < 0x30 then rowsAxisC else rowsAxisD
  else []

end Sys2Proof.Machine
end

