-- ==== Sys2Proof/Machine/State.lean ====
section
/-! DEFINITION. The state of the part: the device around the object dictionary, the safety island, the nodes of the segments,
the shared memory and the queue of waiting commands; why a command can stop; and the state after reset. -/
namespace Sys2Proof.Machine

/-- The device without the safety island, the nodes and the shared memory cells. Object values live in `objs` (numbers) and
`blobs` (byte strings), `inForce` is the copy of `objs` the cycle uses (R34), `frames` the downstream windows
frozen in the last control phase, by axis (R16), `pdus` the newest safety PDUs handed to the
segment engines (R358) and `pdus1`, `pdus2` what they were at the starts of this base cycle and of the one before, `shadow` holds the counters
of the last chill (R247), `free` counts the free values used and `out` lists what was handed to the ports. -/
structure Dev where
  objs    : Table Nat
  blobs   : Table Bytes
  inForce : Table Nat
  fc      : Collector
  power   : PowerSt
  key     : KeySt
  mgmt    : MgmtSt
  host    : HostSt
  time    : TimeSt
  motion  : Table MotionSt
  servo   : Table ServoSt
  current : Table CurrentSt
  stepper : Table StepperSt
  chans   : Table ChanSt
  frames  : Table Bytes
  pulse   : Table PulseSt
  emu     : Table EmuSt
  segs    : Table SegSt
  heads   : Table HeadNode
  pdus    : Table Bytes
  pdus1   : Table Bytes
  pdus2   : Table Bytes
  shadow  : Table Nat
  pads    : Table Pad
  memt    : MemTest
  acq     : AcqSt
  pair    : PairSt
  free    : Nat
  out     : List Msg
  deriving DecidableEq, Repr

/-- The state: the device, the island no other block writes into (R14), the nodes (key segment*1024 + node), the shared
memory and the commands that wait, first in, first out. -/
structure State where
  dev     : Dev
  isl     : IslandSt
  nodes   : Table NodeSt
  mem     : MemSt
  pending : List Instr
  deriving DecidableEq, Repr

/-- Faults of the model: none. Every step of the manual has an effect, so no command stops with a fault (log 1). -/
inductive Fault where
  deriving DecidableEq, Repr

/-- Refusals of the model. -/
inductive Refusal where
  /-- Raised by an arm of `exec` whose command has no meaning yet; safe (the machine stops where the part goes on). -/
  | notModelled (mnemonic : String)
  deriving DecidableEq, Repr

/-- The collector after reset (R392 defaults; first number 0 without a state record, R445). -/
def Collector.reset : Collector := ⟨0, 0, 0, 0, [], false, [], 0, [], 0, 0⟩
/-- The supply and mode sequencer after reset. -/
def PowerSt.reset : PowerSt :=
  { powered := true, booted := false, safeHold := none, belowClear := false, commitRan := false,
    vbakOk := true, vsoOk := false, testEn := false, recovery := false, restart := 0, d0Valid := false, otp := 0,
    cleared := false }
/-- An empty parameter set. -/
def ParamSet.blank : ParamSet := ⟨0, 0, 0, 0, 0, 0, false, [], []⟩
/-- An empty boot control record. -/
def BootRec.blank : BootRec := ⟨false, 0, 0, 0, 0, 0, 0, 0⟩
/-- An empty state record. -/
def StateRec.blank : StateRec := ⟨false, 0, 0, 0, 0, 0, 0, 0⟩
/-- An empty snapshot. -/
def Snapshot.blank : Snapshot := ⟨false, 0, 0, 0, 0, []⟩
/-- An empty safety record. -/
def SafetyRec.blank : SafetyRec := ⟨false, 0, 0, 0, []⟩
/-- No pattern key connected: a key's contents come with its insertion or stand from before. -/
def KeySt.reset : KeySt :=
  { present := false, readable := true, flashMiB := 128, memKiB := 1024, writer := 0, slotA := [], slotB := [], nodeImg := [],
    nodeDir := [], boot0 := .blank, boot1 := .blank, state0 := .blank, state1 := .blank, setA := .blank, setB := .blank,
    safety0 := .blank, safety1 := .blank, snap0 := .blank, snap1 := .blank, journal := [], count := 0 }
/-- Management with nothing in progress. -/
def MgmtSt.reset : MgmtSt := ⟨false, false, .blank, false, [], false, [], [], 0, 0, []⟩
/-- The host link with no session. -/
def HostSt.reset : HostSt := 
  { ports := [], offer := [], sessions := [], lease := 0, imgNum := none, imgLen := 0, image := [], floor := 0, pending := none,
    applied := 0, d2h := (0, []) }
/-- A domain clock that has heard no master. -/
def DomainSt.reset : DomainSt := ⟨0, none, [], [], 0, 0, []⟩
/-- The time unit at its start. -/
def TimeSt.reset : TimeSt := ⟨0, 0, 0, 0, 0, 0, 0, false, false, .reset, .reset, 0, [], [], none, [], []⟩
/-- The memory testers at rest. -/
def MemTest.reset : MemTest := ⟨[], 0, 0, false⟩
/-- The acquisition engine with no record. -/
def AcqSt.reset : AcqSt := ⟨[], [], none, [], []⟩
/-- The pair link unpaired. -/
def PairSt.reset : PairSt :=
  { linkAt := 0, heardHead := false, partner := none, beaconIn := false, missed := 0, last := none, prints := [], requested := [],
    excl := none, fullSets := [], fullServe := [], mine := [], theirs := [], items := [], applied := [], announced := none,
    dropAt := none, dropTo := 0, dropped := false, arrivals := [], driving := true, differ := [], checked := 0, debt := 0,
    startedAt := 0, delayT := none, safety := [], heardLines := [], holdSeq := 0,
    queue := [], used := 0, usedFwd := 0, digestAt := 4621, found := [], decided := [], counted := [], fieldIn := [] }

/-- The device right after reset: every object at its default (R38), every part at rest, in Bring-up (R46). -/
def Dev.reset : Dev :=
  { objs := [], blobs := [], inForce := [], fc := .reset, power := .reset, key := .reset, mgmt := .reset, host := .reset,
    time := .reset, motion := [], servo := [], current := [], stepper := [], chans := [], frames := [], pulse := [], emu := [], segs := [], heads := [],
    pdus := [], pdus1 := [], pdus2 := [], shadow := [], pads := [], memt := .reset, acq := .reset, pair := .reset, free := 0, out := [] }

/-- The island right after reset: Off, stop request raised (R373), every output off. -/
def IslandSt.reset : IslandSt :=
  { state := 0, cause := 0, stopReq := true, block := [], check := 0, conf := 0, storedConf := 0, storeStatus := 0,
    storing := none, permits := 0, insts := [], si := 0, siFault := 0, siT := [], so := 0, soFault := 0, soBad := [],
    vso := false, unlocks := 0, counters := [], mism := 0, nodeIn := [], partner := [], seqs := [], now := 0, sat := [],
    commissioned := false }

/-- The shared memory with nothing listed. -/
def MemSt.reset : MemSt := ⟨[], [], []⟩

/-- The state right after reset. -/
def State.reset : State := ⟨.reset, .reset, [], .reset, []⟩

end Sys2Proof.Machine
end

