-- ==== Sys2Proof/Machine/Values.lean ====
section
/-! DEFINITION. Looking objects up: the row of an index and sub-index (R23-R25), defaults that depend on the unit (R38), and
the microstep tables a part starts with (R144). -/
namespace Sys2Proof.Machine


/-- Whether a row covers an index and sub-index. -/
def Row.covers (r : Row) (idx sub : Nat) : Bool :=
  decide (r.base ≤ idx) && decide ((idx - r.base) % r.stride = 0) && decide ((idx - r.base) / r.stride < r.count) &&
  decide (r.lo ≤ sub) && decide (sub ≤ r.hi)

/-- The row of an object value. -/
def findRow (idx sub : Nat) : Option Row := (rowsFor idx).find? (fun r => r.covers idx sub)

/-- Whether any table defines the index (R24 "no object"). -/
def indexKnown (idx : Nat) : Bool :=
  (rowsFor idx).any (fun r => decide (r.base ≤ idx) && decide ((idx - r.base) % r.stride = 0) &&
    decide ((idx - r.base) / r.stride < r.count))

/-- Default reactions of a source (R379, R372): bit 0 I, 1 T, 2 B, 3 C, 4 E. -/
def defaultReactions (src : Nat) : Nat :=
  if src ≤ 1 then 1
  else if src ≤ 3 then 25
  else if src = 4 then 1
  else if src ≤ 6 then 19
  else if src = 7 then 0
  else if src = 9 then 25
  else if src = 8 || src = 10 then 1
  else if src ≤ 31 then 19
  else if src ≤ 39 then 7
  else if src = 40 || src = 42 || src = 44 then 1
  else if src = 41 || src = 43 then 19
  else if src ≤ 47 then 0
  else if src ≤ 79 then (if src % 4 = 0 then 23 else 1)
  else if src ≤ 127 then (if src % 4 = 3 then 17 else 1)
  else if src ≤ 132 then 1
  else if src ≤ 134 then 7
  else if src = 135 then 1
  else if src ≤ 143 then 0
  else if src ≤ 146 || src = 149 then 17
  else if src ≤ 159 then 1
  else if src = 164 then 17
  else if src ≤ 167 then 1
  else if src ≤ 175 then 0
  else if src = 176 then 24
  else if src = 179 || src = 186 || src = 187 then 17
  else if src ≤ 188 then 1
  else 0

/-- Reserved sources (R379). -/
def reservedSource (src : Nat) : Bool :=
  src = 7 || (45 ≤ src && src ≤ 47) || (136 ≤ src && src ≤ 143) || (168 ≤ src && src ≤ 175) || 189 ≤ src

/-- Level sources (R527); the others are events. -/
def levelSource (src : Nat) : Bool :=
  src ≤ 5 || (8 ≤ src && src ≤ 15) || src = 130 || src = 131 || src = 135 || (144 ≤ src && src ≤ 159) || src = 163 ||
  src = 164 || src = 179 || src = 182 || src = 185 || src = 187 || src = 188

/-- Defaults that depend on the unit number, the part or another rule. -/
def specialDefault (idx sub : Nat) : Nat :=
  if idx = 0x1001 then (if sub = 4 then Config.variant.toNat + 1 else if sub = 5 then Config.serial.toNat else 0)
  else if idx = 0x2F00 then 0xC0A8000C
  else if idx = 0x2F01 then 0xC0A8010C
  else if 0x3420 ≤ idx && idx ≤ 0x3421 then idx - 0x3420
  else if idx = 0x3820 then (if sub = 1 then 0x0100 else 0)
  else if 0x3900 ≤ idx && idx < 0x39C0 then defaultReactions (idx - 0x3900)
  else if idx = 0x3C00 then Config.pairVersion.toNat
  else if 0x8000 ≤ idx then
    let n := (idx - 0x8000) / 0x40
    let o := (idx - 0x8000) % 0x40
    if o = 0 then n
    else if o = 0x18 then fmtOfRat fmt32 false (((sub - 1) * 1000000 : Nat) : Rat)
    else if o = 0x1D then n / 64
    else 0
  else 0

/-- The key of an object value. -/
def okey (idx sub : Nat) : Nat := idx * 256 + sub

/-- The default of an object value by key (R38). -/
def objDefault (k : Nat) : Nat :=
  match findRow (k / 256) (k % 256) with
  | some r => (match r.dfl with
    | .num n => n
    | .special => specialDefault (k / 256) (k % 256))
  | none => 0

/-- Winding A of the default microstep table, round(32767 cos(2 pi i / 1024)) (R144). -/
def microA : List Nat :=
  [32767, 32766, 32765, 32761, 32757, 32752, 32745, 32737, 32728, 32717, 32705, 32692, 32678, 32663, 32646, 32628] ++
  [32609, 32589, 32567, 32545, 32521, 32495, 32469, 32441, 32412, 32382, 32351, 32318, 32285, 32250, 32213, 32176] ++
  [32137, 32098, 32057, 32014, 31971, 31926, 31880, 31833, 31785, 31736, 31685, 31633, 31580, 31526, 31470, 31414] ++
  [31356, 31297, 31237, 31176, 31113, 31050, 30985, 30919, 30852, 30783, 30714, 30643, 30571, 30498, 30424, 30349] ++
  [30273, 30195, 30117, 30037, 29956, 29874, 29791, 29706, 29621, 29534, 29447, 29358, 29268, 29177, 29085, 28992] ++
  [28898, 28803, 28706, 28609, 28510, 28411, 28310, 28208, 28105, 28001, 27896, 27790, 27683, 27575, 27466, 27356] ++
  [27245, 27133, 27019, 26905, 26790, 26674, 26556, 26438, 26319, 26198, 26077, 25955, 25832, 25708, 25582, 25456] ++
  [25329, 25201, 25072, 24942, 24811, 24680, 24547, 24413, 24279, 24143, 24007, 23870, 23731, 23592, 23452, 23311] ++
  [23170, 23027, 22884, 22739, 22594, 22448, 22301, 22154, 22005, 21856, 21705, 21554, 21403, 21250, 21096, 20942] ++
  [20787, 20631, 20475, 20317, 20159, 20000, 19841, 19680, 19519, 19357, 19195, 19032, 18868, 18703, 18537, 18371] ++
  [18204, 18037, 17869, 17700, 17530, 17360, 17189, 17018, 16846, 16673, 16499, 16325, 16151, 15976, 15800, 15623] ++
  [15446, 15269, 15090, 14912, 14732, 14553, 14372, 14191, 14010, 13828, 13645, 13462, 13279, 13094, 12910, 12725] ++
  [12539, 12353, 12167, 11980, 11793, 11605, 11417, 11228, 11039, 10849, 10659, 10469, 10278, 10087, 9896, 9704] ++
  [9512, 9319, 9126, 8933, 8739, 8545, 8351, 8157, 7962, 7767, 7571, 7375, 7179, 6983, 6786, 6590] ++
  [6393, 6195, 5998, 5800, 5602, 5404, 5205, 5007, 4808, 4609, 4410, 4210, 4011, 3811, 3612, 3412] ++
  [3212, 3012, 2811, 2611, 2410, 2210, 2009, 1809, 1608, 1407, 1206, 1005, 804, 603, 402, 201] ++ [0]

/-- The bytes of the default microstep table: A_i, then B_i, where B_i is A at 256 - i (R144). -/
def microDefault : Bytes :=
  (List.range 256).flatMap (fun i => leBytes 2 (microA.getD i 0) ++ leBytes 2 (microA.getD (256 - i) 0))

/-- ASCII bytes of a text. -/
def ascii (t : String) : Bytes := t.toList.map (fun c => BitVec.ofNat 8 c.toNat)

/-- The default of a byte-string object by key (R38). -/
def blobDefault (k : Nat) : Bytes :=
  if k = okey 0x1008 0 then ascii "IKM-8512"
  else if k = okey 0x1001 6 then (leBytes 6 Config.mac.toNat).reverse
  else if k = okey 0x3428 2 || k = okey 0x3429 2 then List.replicate 8 0
  else if k = okey 0x2E20 0 then List.replicate 512 0
  else if k = okey 0x3D90 0 || k = okey 0x3D91 0 || k = okey 0x3D92 0 || k = okey 0x3D93 0 then microDefault
  else []

end Sys2Proof.Machine
end

