-- ==== Sys2Proof/Machine/Units.lean ====
section
/-! DEFINITION. Access to the state: object values (R23-R38) and the per-unit parts at their state after reset. -/
namespace Sys2Proof.Machine

/-- The current value of an object, as its bit pattern. -/
def og (d : Dev) (idx sub : Nat) : Nat := tget objDefault d.objs (okey idx sub)
/-- The device with an object's value replaced. -/
def os (d : Dev) (idx sub v : Nat) : Dev := { d with objs := tput objDefault d.objs (okey idx sub) v }
/-- The value of an object that the cycle uses: the one in force since the last control instant (R34). -/
def cg (d : Dev) (idx sub : Nat) : Nat := tget objDefault d.inForce (okey idx sub)
/-- The bytes of an OCTETS or STRING object. -/
def ob (d : Dev) (idx sub : Nat) : Bytes := tget blobDefault d.blobs (okey idx sub)
/-- The device with a byte-string object replaced. -/
def obs (d : Dev) (idx sub : Nat) (v : Bytes) : Dev := { d with blobs := tput blobDefault d.blobs (okey idx sub) v }
/-- A signed object value of n bits. -/
def ogi (n : Nat) (d : Dev) (idx sub : Nat) : Int := sgn n (og d idx sub)
/-- A signed object value of n bits in force. -/
def cgi (n : Nat) (d : Dev) (idx sub : Nat) : Int := sgn n (cg d idx sub)
/-- A binary32 object value in force. -/
def cgf (d : Dev) (idx sub : Nat) : F32 := BitVec.ofNat 32 (cg d idx sub)
/-- A binary32 object value. -/
def ogf (d : Dev) (idx sub : Nat) : F32 := BitVec.ofNat 32 (og d idx sub)
/-- Writes a binary32 object value. -/
def osf (d : Dev) (idx sub : Nat) (v : F32) : Dev := os d idx sub v.toNat
/-- Writes a signed object value of n bits, wrapping. -/
def osi (n : Nat) (d : Dev) (idx sub : Nat) (v : Int) : Dev := os d idx sub (pat n v)
/-- Sets or clears one bit of an object. -/
def osb (d : Dev) (idx sub b : Nat) (v : Bool) : Dev := os d idx sub (setBit (og d idx sub) b v)

/-- Index of axis object o of axis n (R25). -/
def ax (n o : Nat) : Nat := 0x8000 + 0x40 * n + o
/-- Base index of segment g: ring g or line g - 8 (R24). -/
def sgb (g : Nat) : Nat := if g < 8 then 0x3000 + 0x40 * g else 0x3200 + 0x40 * (g - 8)
/-- Index of field node object o of node k on line l (R25). -/
def fnx (l k o : Nat) : Nat := 0x4000 + 0x1000 * l + 4 * k + o
/-- Segment of line l (R4). -/
def lseg (l : Nat) : Nat := 8 + l
/-- The segment number of a node and its number there: a ring node's address, a field node's number. -/
def nodeSeg : NodeId → Nat
  | .ring r _ => r.val
  | .line l _ => lseg l.val
/-- The node's number within its segment: address 1-48 on a ring, 0-1023 on a line. -/
def nodeNum : NodeId → Nat
  | .ring _ j => j.val + 1
  | .line _ k => k.val
/-- The table key of a node of a segment. -/
def nkey (g j : Nat) : Nat := g * 1024 + j

/-- The readiness bit of a function (R9, R44). -/
def ready (d : Dev) (b : Nat) : Bool := bit (og d 0x1010 0) b
/-- Device modes of R46. -/
def mode (d : Dev) : Nat := og d 0x1020 1

/-- The next free value of the manual's open points (log 3). -/
def freeVal (d : Dev) (w : Nat) : Nat × Dev := (Config.free d.free % 2 ^ w, { d with free := d.free + 1 })

/-- Something handed to a port. -/
def emit (d : Dev) (m : Msg) : Dev := { d with out := d.out ++ [m] }

/-- A scratchpad with nothing written: every byte 0 with good parity. -/
def Pad.clear : Pad := ⟨[], []⟩

/-- Bytes written from an address on, in a memory whose unwritten bytes read 0. -/
def putCells (t : Table Byte) (a : Nat) : Bytes → Table Byte
  | [] => t
  | b :: bs => putCells (tput (fun _ => 0) t a b) (a + 1) bs

/-- The scratchpad of cluster c. -/
def pad (d : Dev) (c : Nat) : Pad := tget (fun _ => Pad.clear) d.pads c
/-- Replaces the scratchpad of cluster c. -/
def setPad (d : Dev) (c : Nat) (p : Pad) : Dev := { d with pads := tput (fun _ => Pad.clear) d.pads c p }
/-- A direct path writes bytes into the scratchpad of cluster c, each with its parity (R12, R403). -/
def padWrite (d : Dev) (c a : Nat) (b : Bytes) : Dev :=
  let p := pad d c
  setPad d c { cells := putCells p.cells a b, bad := p.bad.filter (fun x => !(decide (a ≤ x) && decide (x < a + b.length))) }

/-- A limit input at rest. -/
def InputSt.reset : InputSt := ⟨false, true, 0, [], false⟩
/-- The motion state of an axis at reset. -/
def MotionSt.reset : MotionSt := ⟨[], none, none, none, none, [], none, .reset, .reset, .reset, 0, false, 0, none, none, 0, 0⟩
/-- The loop state of an axis at reset. -/
def ServoSt.reset : ServoSt := ⟨0, 0, 0, 0, 0, 0, 0, 0, 0, 0, 0, 0, 0, false, false, false, false⟩
/-- The current loop of an axis at reset: stage off. -/
def CurrentSt.reset : CurrentSt := ⟨0, 0, 0, 32767, 32767, 32767, 0, false, false, false, false, 0, 0, 0, false, false⟩
/-- The stepper state of an axis at reset. -/
def StepperSt.reset : StepperSt := ⟨0, 0, 0, 0, 0, 0, false, false, 0, 0, false, false, 0⟩
/-- A step channel at reset: no step made, sigma +1, the default settings of R150. -/
def ChanSt.reset : ChanSt := ⟨0, 0, 0, false, 0, 0, 0, 1000, 1000, 0, false⟩
/-- A pulse input at reset: period invalid, position from an epoch not known. -/
def PulseSt.reset : PulseSt :=
  { ta := 0, te := 0, lastEdge := none, tp := none, v := 0, invalid := true, restart := true, sNeg := false, cmdNeg := false,
    refPending := false, basis := none, mism := false, dLast := 0, pRef := 0, suspect := false, refNow := false, pExt := 0, pPrev := 0, vPrev := 0,
    refEvent := false, toothNow := false, watch := 0, waiting := [] }
/-- An encoder emulation at reset. -/
def EmuSt.reset : EmuSt := ⟨false, 0, 0, 0, 0, 0, 0, false, 0, false⟩
/-- The head's sequencing of a segment at reset. -/
def SegSt.reset : SegSt :=
  { hold := false, forced := false, quietExit := false, swap := none, pend := 0, cold := .idle, sent := 0,
    heard := false, start := 0, rolled := false, exchanges := [], hostReq := none, served := 0,
    missNow := false, corrections := [], waits := 0, fieldCycle := 0, mailed := false, lastClaim := 0, area := [], lead := false }
/-- What the head knows of a node at reset: nothing. -/
def HeadNode.reset : HeadNode :=
  { state := 0, addressed := false, step := 0, chunk := 0, seq := 0, ntype := 0, latency := 0, rx := none, rx1 := none,
    replyReady := false, missing := 0, dev := 0, own := 0, onTime := false, dev1 := none, dev2 := none, exclAt := 0, alarm := false, chillSt := 0,
    chillCyc := 0, chillCnt := [], chillHeld := 0, slot := none, riser := none, slotMiss := false, h1 := 0, h2 := 0,
    synced := false, approx := false, words := [], flags := 0, recCyc := 0, resync := none, age := none, needAbs := true, tables := [], asked := none }
/-- A window of a node that has received nothing: not driven. -/
def WinSt.reset : WinSt := ⟨[], false, 0, false, 0, 0, 0, 0, 0, none⟩
/-- A node after its power-up: no address, no lock, outputs off. -/
def NodeSt.reset : NodeSt :=
  { addrA := none, addrB := none, syncA := false, syncB := false, lock := false, tag := 0, run := 0, runTag := 0, foreign := 0, lastCyc := 0,
    lastHalf := false, miss := 0, sched := none, integrated := false, timeCyc := 0, half := false, bestClaim := 0, best := none, prev := none,
    appChan := false, noCopy := false, up := none, outputs := false, err := 0, clear := false, wins := [], sampT := 0, sample := [],
    written := [], reqSeq := 0, reply := [], ready := false, due := none, counters := [0, 0, 0], copied := [], chillCyc := 0, chill := [],
    wrapA := false, wrapB := false, s1 := 0, s2 := 0, corr := [], excluded := false, setpoint := 0, alarm := false, h1 := 0, h2 := 0,
    anchor := false, anchorAt := none, slots := [], recs := [], spSync := false, pduSeq := [], watch := [], sto := true, pduOut := 0,
    pdu := none, tabs := [], tabOk := 0, fwNext := 0 }
/-- An acquisition set at rest. -/
def SetSt.reset : SetSt :=
  { owner := 0, occ := 0, sums := [], summed := 0, hist := [], armAt := 0, count := 0, prev := none, armed := 0, auto := false,
    started := false, pre := [], cur := none, trigAt := none, gap := none, gapSeen := false, coder := [], rearmAt := 0, rearms := 0, rearmT := 0,
    manual := 0, faults := [], fires := [] }
/-- A function instance at island start: in Demand (R350). -/
def InstSt.reset : InstSt :=
  { state := 1, permit := false, disc := 0, disc2 := 0, ovr := false, cause := 0, timer := none, low := 0, unlockT := 0,
    unlockOn := false, resetHigh := none, released := false, btn1 := none, btn2 := none, seen := 0, seenT := 0 }
/-- A stream of safety PDUs not heard yet. -/
def SafeIn.reset : SafeIn := ⟨none, none, 0⟩

/-- Motion state of axis n. -/
def mot (d : Dev) (n : Nat) : MotionSt := tget (fun _ => MotionSt.reset) d.motion n
/-- Replaces the motion state of axis n. -/
def setMot (d : Dev) (n : Nat) (m : MotionSt) : Dev := { d with motion := tput (fun _ => MotionSt.reset) d.motion n m }
/-- Loop state of axis n. -/
def srv (d : Dev) (n : Nat) : ServoSt := tget (fun _ => ServoSt.reset) d.servo n
/-- Replaces the loop state of axis n. -/
def setSrv (d : Dev) (n : Nat) (m : ServoSt) : Dev := { d with servo := tput (fun _ => ServoSt.reset) d.servo n m }
/-- Current loop state of axis n. -/
def cur (d : Dev) (n : Nat) : CurrentSt := tget (fun _ => CurrentSt.reset) d.current n
/-- Replaces the current loop state of axis n. -/
def setCur (d : Dev) (n : Nat) (m : CurrentSt) : Dev := { d with current := tput (fun _ => CurrentSt.reset) d.current n m }
/-- Stepper state of axis n. -/
def stp (d : Dev) (n : Nat) : StepperSt := tget (fun _ => StepperSt.reset) d.stepper n
/-- Replaces the stepper state of axis n. -/
def setStp (d : Dev) (n : Nat) (m : StepperSt) : Dev := { d with stepper := tput (fun _ => StepperSt.reset) d.stepper n m }
/-- State of step channel c. -/
def chan (d : Dev) (c : Nat) : ChanSt := tget (fun _ => ChanSt.reset) d.chans c
/-- Replaces the state of step channel c. -/
def setChan (d : Dev) (c : Nat) (m : ChanSt) : Dev := { d with chans := tput (fun _ => ChanSt.reset) d.chans c m }
/-- State of pulse input i. -/
def pls (d : Dev) (i : Nat) : PulseSt := tget (fun _ => PulseSt.reset) d.pulse i
/-- Replaces the state of pulse input i. -/
def setPls (d : Dev) (i : Nat) (m : PulseSt) : Dev := { d with pulse := tput (fun _ => PulseSt.reset) d.pulse i m }
/-- State of emulation output m. -/
def emul (d : Dev) (i : Nat) : EmuSt := tget (fun _ => EmuSt.reset) d.emu i
/-- Replaces the state of an emulation output. -/
def setEmu (d : Dev) (i : Nat) (m : EmuSt) : Dev := { d with emu := tput (fun _ => EmuSt.reset) d.emu i m }
/-- The head's state of segment g. -/
def seg (d : Dev) (g : Nat) : SegSt := tget (fun _ => SegSt.reset) d.segs g
/-- Replaces the head's state of segment g. -/
def setSeg (d : Dev) (g : Nat) (m : SegSt) : Dev := { d with segs := tput (fun _ => SegSt.reset) d.segs g m }
/-- What the head keeps of node j of segment g. -/
def hd (d : Dev) (g j : Nat) : HeadNode := tget (fun _ => HeadNode.reset) d.heads (nkey g j)
/-- Replaces what the head keeps of a node. -/
def setHd (d : Dev) (g j : Nat) (m : HeadNode) : Dev :=
  { d with heads := tput (fun _ => HeadNode.reset) d.heads (nkey g j) m }
/-- An acquisition set. -/
def aset (d : Dev) (s : Nat) : SetSt := tget (fun _ => SetSt.reset) d.acq.sets s
/-- Replaces an acquisition set. -/
def setAset (d : Dev) (s : Nat) (m : SetSt) : Dev :=
  { d with acq := { d.acq with sets := tput (fun _ => SetSt.reset) d.acq.sets s m } }
/-- The state of a node. -/
def nd (s : State) (n : NodeId) : NodeSt := tget (fun _ => NodeSt.reset) s.nodes (nkey (nodeSeg n) (nodeNum n))
/-- Replaces the state of a node. -/
def setNd (s : State) (n : NodeId) (m : NodeSt) : State :=
  { s with nodes := tput (fun _ => NodeSt.reset) s.nodes (nkey (nodeSeg n) (nodeNum n)) m }

/-- The bound axes: those whose kind (axis object 0x01.01) is not 0, in ascending number (R55). -/
def boundAxes (objs : Table Nat) : List Nat :=
  objs.filterMap (fun p =>
    if 0x800000 ≤ p.1 && p.1 % 0x4000 = 0x0101 && p.2 != 0 then some ((p.1 - 0x800000) / 0x4000) else none)

/-- Kind of an axis in force (R55). -/
def kind (d : Dev) (n : Nat) : Nat := cg d (ax n 1) 1
/-- Whether an axis of that kind has a ring window (kinds 0x01-0x04, R56). -/
def onRing (k : Nat) : Bool := 1 ≤ k && k ≤ 4
/-- The owning segment of an axis, if it has one (R56). -/
def axisSeg (d : Dev) (n : Nat) : Option Nat :=
  let k := og d (ax n 1) 1
  if onRing k then some (og d (ax n 1) 2) else none
/-- The cluster of an axis (axis object 0x1D.01). -/
def cluster (d : Dev) (n : Nat) : Nat := og d (ax n 0x1D) 1
/-- The pulse input of an axis's feedback binding, if it has one (R55). -/
def fbInput (d : Dev) (n : Nat) : Option Nat :=
  let s := og d (ax n 1) 6
  if og d (ax n 1) 1 = 1 && 0x10 ≤ s then some (s - 0x10) else none

/-- The axes whose feedback source is pulse input i (R61, R163). -/
def fedAxes (d : Dev) (i : Nat) : List Nat := (boundAxes d.objs).filter (fun n => fbInput d n = some i)
/-- State of an axis (axis object 0x09.01): 0 Disabled, 1 Standstill, 2 Moving, 3 Stopping, 4 Held, 5 Homing, 6 Faulted. -/
def axState (d : Dev) (n : Nat) : Nat := og d (ax n 9) 1
/-- The enabled states (R104). -/
def axEnabled (d : Dev) (n : Nat) : Bool := 1 ≤ axState d n && axState d n ≤ 5

/-- State of segment g (R229): 0 Off, 1 Cold-start, 2 Integrating, 3 Synchronous, 4 Stopped. -/
def segState (d : Dev) (g : Nat) : Nat := og d (sgb g) 2

/-- The local monotonic time in nanoseconds at the 8 ns resolution of an item's stamp (R377). -/
def localNs (d : Dev) : Nat := d.time.local_ / (10 * 2 ^ 40) / 8 * 8
/-- The segment time in nanoseconds at 8 ns resolution. -/
def segNs (d : Dev) : Nat := d.time.seg / (10 * 2 ^ 40) / 8 * 8
/-- The TIME112 value of a time in units of 2^-40/10 ns: rounded to the nearest 2^-16 ns, ties to even (R270). -/
def time112 (u : Nat) : Nat := timeOfUnits (ratRoundEven (mkRat u (10 * 2 ^ 24))).toNat
/-- A TIME112 pattern of whole nanoseconds. -/
def time112Ns (ns : Nat) : Nat := mkTime (ns / 1000000000) (ns % 1000000000) 0

end Sys2Proof.Machine
end

