-- ==== Sys2Proof/Machine/Operands.lean ====
section
/-! DEFINITION. Reading the operands that commands carry as bytes: fields of a byte string (R5), moulds (R223-R225), safety
PDUs (R206) and the safety parameter block (R366, R367). -/
namespace Sys2Proof.Machine

/-- The n bytes from offset o. -/
def slice (b : Bytes) (o n : Nat) : Bytes := (b.drop o).take n
/-- The unsigned little-endian field of n bytes at offset o (R5). -/
def rd (b : Bytes) (o n : Nat) : Nat := ofLe (slice b o n)

/-- The mould in force on segment g (R223): the object, but for one written to a Stopped segment before its next boundary (R245). -/
def mould (d : Dev) (g : Nat) : Bytes := ((seg d g).swap).getD (ob d (0x3300 + g) 0)
/-- The mould tag: bits [15:0] of the mould's own CRC (R223). -/
def mouldTag (b : Bytes) : Nat := rd b (b.length - 4) 2
/-- Ring mould: the tight flag (R224). -/
def mouldTight (b : Bytes) : Bool := bit (rd b 2 1) 0
/-- The paired flag of a mould (R224, R225). -/
def mouldPaired (b : Bytes) : Bool := bit (rd b 2 1) 1
/-- Node count of segment g's mould. -/
def mouldN (g : Nat) (b : Bytes) : Nat := if g < 8 then rd b 3 1 else rd b 4 2
/-- Mailbox capacity P of a mould. -/
def mouldP (g : Nat) (b : Bytes) : Nat := if g < 8 then rd b 6 2 else rd b 12 2
/-- Chill lead of a mould in base cycles. -/
def mouldLead (g : Nat) (b : Bytes) : Nat := if g < 8 then rd b 10 2 else rd b 36 2
/-- Base cycles per field cycle of a line, N_b: its mould's, or the default of 64 without one (R2, R19). -/
def mouldNb (b : Bytes) : Nat := if b.length = 0 then 64 else max 1 (rd b 6 2)
/-- The 16-byte entry of ring node address j (R224). -/
def ringEntry (b : Bytes) (j : Nat) : Bytes := slice b (16 + 16 * (j - 1)) 16
/-- Window count of ring node address j. -/
def winCount (b : Bytes) (j : Nat) : Nat := rd (ringEntry b j) 0 1
/-- Window kind of window i of ring node address j: 0 servo, 1 wire-current, 2 network stepper, 3 load-angle stepper. -/
def winKind (b : Bytes) (j i : Nat) : Nat := bits (rd (ringEntry b j) 12 2) (2 * i) 2
/-- The 20-byte entry of line node k (R225). -/
def lineEntry (b : Bytes) (k : Nat) : Bytes := slice b (40 + 20 * k) 20
/-- Whether line node k is present, that is scheduled (R528). -/
def linePresent (b : Bytes) (k : Nat) : Bool := k < mouldN 8 b && bit (rd (lineEntry b k) 0 1) 0
/-- Whether line node k is a safety node. -/
def lineSafety (b : Bytes) (k : Nat) : Bool := k < mouldN 8 b && bit (rd (lineEntry b k) 0 1) 1
/-- The node numbers a segment addresses: ring addresses 1 to N, or the scheduled line nodes (R528). -/
def mouldNodes (g : Nat) (b : Bytes) : List Nat :=
  if b.length = 0 then []
  else if g < 8 then (List.range (mouldN g b)).map (· + 1)
  else (List.range (mouldN g b)).filter (linePresent b)

/-- The readiness bit of the block that owns an object (R24, R36). -/
def ownerBit (d : Dev) (idx : Nat) : Nat :=
  if idx < 0x3000 then 0
  else if idx < 0x3200 then 18 + (idx - 0x3000) / 0x40
  else if idx < 0x3300 then 26 + (idx - 0x3200) / 0x40
  else if idx < 0x3400 then 18 + (idx - 0x3300)
  else if idx < 0x3600 then 4
  else if idx < 0x3800 then 17
  else if idx < 0x3A00 then 2
  else if idx < 0x3C00 then 5
  else if idx < 0x3D00 then 31
  else if idx < 0x3D80 then 16
  else if idx < 0x3E00 then 15
  else if idx < 0x4000 then 3
  else if idx < 0x8000 then 26 + (idx - 0x4000) / 0x1000
  else 6 + cluster d ((idx - 0x8000) / 0x40)

/-- Whether an object is a statistics counter (R388): the read-write U32 objects that are neither settings nor words. -/
def isCounter (idx sub : Nat) : Bool :=
  match findRow idx sub with
  | some r => decide (r.ty = .u32) && decide (r.acc = .rw) && !r.key && !r.pm && idx != 0x2040 && idx != 0x2E40 && idx != 0x3681 &&
    !(0x3440 ≤ idx && idx < 0x3448 && sub = 2)
  | none => false

/-- The power domain of a readiness bit (R9). -/
def blockDomain (b : Nat) : Nat :=
  if 6 ≤ b && b ≤ 9 then 3 else if 10 ≤ b && b ≤ 13 then 4 else if b = 17 then 7
  else if b = 15 || b = 16 || (18 ≤ b && b ≤ 25) || b = 31 then 5 else if 26 ≤ b && b ≤ 30 then 6 else 1

/-- A safety PDU (R206). -/
def pduBytes (domain conn seq payload : Nat) : Bytes :=
  let b := leBytes 2 conn ++ leBytes 2 seq ++ leBytes 8 payload
  b ++ leBytes 4 (crcSafety domain b)
/-- Whether a PDU has its length and a good safety CRC under a domain value. -/
def pduGood (domain : Nat) (p : Bytes) : Bool := p.length = 16 && rd p 12 4 = crcSafety domain (p.take 12)

/-- Function instances of a safety block. -/
def blkFns (b : Bytes) : Nat := rd b 1 1
/-- Consumer entries of a safety block. -/
def blkCons (b : Bytes) : Nat := rd b 2 2
/-- Domain value of a safety block. -/
def blkDomain (b : Bytes) : Nat := rd b 4 4
/-- T_wd,ring in microseconds. -/
def blkWdRing (b : Bytes) : Nat := rd b 8 2
/-- T_wd,line in microseconds. -/
def blkWdLine (b : Bytes) : Nat := rd b 10 2 * 100
/-- Whether SOn may be driven (R364). -/
def blkSo (b : Bytes) (n : Nat) : Bool := bit (rd b 16 1) n
/-- Node input entries. -/
def blkIns (b : Bytes) : Nat := rd b 17 1
/-- Pin entry of SIi: filter time, test source, type. -/
def blkPin (b : Bytes) (i : Nat) : Bytes := slice b (32 + 4 * i) 4
/-- Node input entry i: line U8, node U16. -/
def blkIn (b : Bytes) (i : Nat) : Bytes := slice b (96 + 4 * i) 4
/-- Function entry f. -/
def blkFn (b : Bytes) (f : Nat) : Bytes := slice b (96 + 4 * blkIns b + 24 * f) 24
/-- Consumer entry c: code U16, 2 reserved bytes, mask U64. -/
def blkCon (b : Bytes) (c : Nat) : Bytes := slice b (96 + 4 * blkIns b + 24 * blkFns b + 12 * c) 12
/-- The mask of a consumer code, if it has an entry (R355). -/
def conMask (b : Bytes) (code : Nat) : Option Nat :=
  ((List.range (blkCons b)).find? (fun c => rd (blkCon b c) 0 2 = code)).map (fun c => rd (blkCon b c) 4 8)

end Sys2Proof.Machine
end

