-- ==== Sys2Proof/Machine/Geometry.lean ====
section
/-! DEFINITION. Byte positions and instants that a mould fixes (R85, R196-R202, R210-R219, R265). Ring times are units of 2^-16 ns;
line times are half nanoseconds. -/
namespace Sys2Proof.Machine

/-- Size of a window by its mould kind (R201). -/
def winSize (kind : Nat) : Nat := if kind = 1 || kind = 3 then 24 else 16
/-- Window bytes of ring node j, Σw_j. -/
def nodeWinBytes (b : Bytes) (j : Nat) : Nat := ((List.range (winCount b j)).map (fun i => winSize (winKind b j i))).sum
/-- Offset of window i in the windows of node j (R197). -/
def winOffset (b : Bytes) (j i : Nat) : Nat := ((List.range i).map (fun x => winSize (winKind b j x))).sum
/-- Window bytes of all nodes of a ring. -/
def ringWinBytes (b : Bytes) : Nat := ((List.range (mouldN 0 b)).map (fun j => nodeWinBytes b (j + 1))).sum
/-- Windows of all nodes of a ring. -/
def ringWindows (b : Bytes) : Nat := ((List.range (mouldN 0 b)).map (fun j => winCount b (j + 1))).sum
/-- Bytes of the ring cyclic frame (R196). -/
def ringFrameBytes (b : Bytes) : Nat := 32 + 6 * mouldN 0 b + ringWinBytes b
/-- Sum of the hops of a ring in 0.1 m, closing hop and partner hop included (R210). -/
def ringHops (b : Bytes) : Nat :=
  ((List.range (mouldN 0 b)).map (fun j => rd (ringEntry b (j + 1)) 4 2)).sum + rd b 8 2 + (if mouldPaired b then rd b 12 2 else 0)
/-- Sum of the declared latencies in ns. -/
def ringLatency (b : Bytes) : Nat := ((List.range (mouldN 0 b)).map (fun j => rd (ringEntry b (j + 1)) 2 2)).sum
/-- T_ring in half nanoseconds (R210). -/
def ringPropHalf (b : Bytes) : Nat := 2 * ringLatency b + (if mouldPaired b then 520 else 0) + ringHops b
/-- One nanosecond. -/
def nsU : Int := 65536
/-- T_frame + T_ring (R210). -/
def ringTurn (b : Bytes) : Int := ringFrameBytes b * 8 * nsU + ringPropHalf b * 32768
/-- Cycle length of a ring: 16 µs when tight, else 32 µs. -/
def ringCycle (b : Bytes) : Int := if mouldTight b then 16000 * nsU else 32000 * nsU
/-- Scheduled sample offset t_s of ring node j (R224). -/
def sampleOffset (b : Bytes) (j : Nat) : Int := sgn 32 (rd (ringEntry b j) 6 4)
/-- t_app of servo and stepper windows: the first whole microsecond at or after T_frame + T_ring (R140, R202). -/
def applyWhole (b : Bytes) : Int := -((-(ringTurn b)).fdiv (1000 * nsU)) * (1000 * nsU)
/-- t_app of a wire-current window with m PWM periods per tight cycle: the first PWM period boundary at or after
T_frame + T_ring (R85). -/
def applyPwm (b : Bytes) (j m : Nat) : Int :=
  let tp : Int := (16000 * nsU).fdiv m
  let base := sampleOffset b j + tp / 2
  base - ((base - ringTurn b).fdiv tp) * tp

/-- Loop delay T_d of a wire-current axis of node j with m PWM periods per tight cycle (R91). -/
def loopDelay (b : Bytes) (j m : Nat) : Int := 16000 * nsU + applyPwm b j m + 8000 * nsU - sampleOffset b j

/-- Offset of node j's block from SOF (R196). -/
def blockOffset (b : Bytes) (j : Nat) : Nat := 31 + ((List.range (j - 1)).map (fun i => 6 + nodeWinBytes b (i + 1))).sum
/-- Declared latency of ring node j in half nanoseconds. -/
def ringLat (b : Bytes) (j : Nat) : Nat := 2 * rd (ringEntry b j) 2 2
/-- Hop before ring node j in half nanoseconds. -/
def ringHop (b : Bytes) (j : Nat) : Nat := rd (ringEntry b j) 4 2
/-- The pass-through of the partner and its hop, in half nanoseconds (R185). -/
def passThrough (b : Bytes) : Nat := 520 + rd b 12 2
/-- SOF delay from the head to node j's input on channel A (R211), in half nanoseconds. -/
def delayA (b : Bytes) (j : Nat) : Nat :=
  ((List.range j).map (fun i => ringHop b (i + 1))).sum + ((List.range (j - 1)).map (fun i => ringLat b (i + 1))).sum +
  (if mouldPaired b && rd b 4 1 < j then passThrough b else 0)
/-- SOF delay from the head to node j's input on channel B. -/
def delayB (b : Bytes) (j : Nat) : Nat :=
  let n := mouldN 0 b
  rd b 8 2 + ((List.range (n - j)).map (fun i => ringHop b (j + 1 + i))).sum +
  ((List.range (n - j)).map (fun i => ringLat b (j + 1 + i))).sum +
  (if mouldPaired b && j ≤ rd b 4 1 then passThrough b else 0)

/-- Hop before line node k in half nanoseconds. -/
def lineHop (b : Bytes) (k : Nat) : Nat := rd (lineEntry b k) 4 2
/-- Declared repeat latency of line node k in half nanoseconds. -/
def lineLat (b : Bytes) (k : Nat) : Nat := 2 * rd (lineEntry b k) 2 2
/-- E: the propagation over the whole line (R212), in half nanoseconds. -/
def lineProp (b : Bytes) : Nat := ((List.range (mouldN 8 b)).map (fun k => lineHop b k + lineLat b k)).sum + rd b 14 2
/-- q_2 and r_1 of line node k: between end 0 and the node (R219), in half nanoseconds. -/
def lineNear (b : Bytes) (k : Nat) : Nat :=
  ((List.range (k + 1)).map (lineHop b)).sum + ((List.range k).map (lineLat b)).sum
/-- q_1 and r_2 of line node k: between the node and the pair-1 receiving end. -/
def lineFar (b : Bytes) (k : Nat) : Nat := lineProp b - lineNear b k - lineLat b k
/-- Coded setpoint bytes B_c. -/
def lineBc (b : Bytes) : Nat := rd b 8 2
/-- Safety count n_s. -/
def lineNs (b : Bytes) : Nat := rd b 10 1
/-- Bytes of the summation frame (R213). -/
def summationBytes (b : Bytes) : Nat := 50 + 16 * lineNs b + lineBc b
/-- T_field in ns. -/
def fieldNs (b : Bytes) : Nat := mouldNb b * 32000

/-- An interval of a line's train: its failing item, start and duration in half nanoseconds (R217, R226). -/
structure TrainItem where
  item  : Nat
  start : Nat
  dur   : Nat
  deriving DecidableEq, Repr

/-- The frames of the train of pair p (R212-R217). -/
def train (b : Bytes) (p : Nat) : List TrainItem :=
  let n := mouldN 8 b
  let ks := (List.range n).filter (linePresent b)
  let P := mouldP 8 b
  let far : List TrainItem :=
    if p = 1 || mouldPaired b then [⟨0xFFF1, lineProp b % (2 * fieldNs b), summationBytes b * 160⟩] else []
  let slots := ks.flatMap (fun k =>
    let a := 16 * rd (lineEntry b k) (if p = 1 then 12 else 16) 4
    ⟨k, a, 1440⟩ :: (if lineSafety b k then [⟨k, a + 1440 + 400, 3360⟩] else []))
  let r := 16 * rd b (if p = 1 then 20 else 24) 4
  let risers := ((List.range 16).filter (fun i => ks.any (fun k => k % 16 = i))).map (fun i => (⟨0xFFF2, r + i * 6320, 5920⟩ : TrainItem))
  let m := 16 * rd b (if p = 1 then 28 else 32) 4
  let each := (14 + P) * 160 + 400 + (8 + P) * 160 + 400
  let boxes := (List.range (rd b 11 1)).flatMap (fun i =>
    (if p = 1 || mouldPaired b then [(⟨0xFFF3, m + i * each, (14 + P) * 160⟩ : TrainItem)] else []) ++
    [⟨0xFFF3, m + i * each + (14 + P) * 160 + 400, (8 + P) * 160⟩])
  far ++ slots ++ risers ++ boxes

/-- Bytes of the train per pair: the summation frame, slots, risers, safety frames and mailbox exchanges (R227). -/
def trainBytes (b : Bytes) : Nat := ((train b 1).map (fun t => t.dur / 160)).sum
/-- Time of the train including guards, in ns. -/
def trainNs (b : Bytes) : Nat := ((train b 1).map (fun t => t.dur / 2 + 200)).sum

/-- M of R265. -/
def codeM (b : Bytes) : Nat := (lineBc b - 17) / 4
/-- The delay bound of R265. -/
def delayBound (b : Bytes) : Nat := let n := mouldN 8 b; let m := codeM b; if m = 0 || n = 0 then 0 else (n + m - 1) / m - 1

/-- The parts of the cycle status record that a mould fixes (R227), and a line's delay bound (R268). -/
def mouldStatus (d : Dev) (g : Nat) : Dev :=
  let b := mould d g
  let o := sgb g + 8
  if b.length = 0 then
    (List.range 6).foldl (fun d i => os d o (i + 3) 0) (if g < 8 then d else os d (sgb g + 0x0C) 5 0)
  else if g < 8 then
    let tr := (ringPropHalf b + 1) / 2
    let tc : Int := if mouldTight b then 16000 else 32000
    let d := os (os (os d o 3 (ringFrameBytes b)) o 4 (8 * ringFrameBytes b)) o 5 tr
    let d := osi 32 d o 6 (tc - (8 * ringFrameBytes b : Nat) - tr - 4000)
    os (os d o 7 (mouldTag b)) o 8 (19 + 2 * (if mouldP g b < 64 then 64 else mouldP g b))
  else
    let d := os (os (os d o 3 (trainBytes b)) o 4 (trainNs b)) o 5 ((lineProp b + 1) / 2)
    let d := osi 32 d o 6 ((fieldNs b : Int) - trainNs b)
    os (os (os d o 7 (mouldTag b)) o 8 (22 + 2 * mouldP g b)) (sgb g + 0x0C) 5 (delayBound b)

/-- The paired-segment map (0x3C00.04) and the cycle status records follow the moulds (R227, R339). -/
def syncMoulds (d : Dev) : Dev :=
  let d := (List.range 12).foldl mouldStatus d
  os d 0x3C00 4 ((List.range 12).foldl (fun w g => setBit w g (mouldPaired (mould d g))) 0)

/-- The mould written to segment g comes into force (R245). -/
def takeMould (d : Dev) (g : Nat) : Dev :=
  if (seg d g).swap.isSome then syncMoulds (setSeg d g { seg d g with swap := none }) else d

/-- Start of base cycle k in segment time. -/
def cycleStart (k : Nat) : Int := k * 32000 * nsU
/-- The control instant of base cycle k (R16). -/
def instantAt (k : Nat) : Int := cycleStart k + 28000 * nsU

/-- The window bytes of axis n accepted in the running cycle of its ring, if any (R17, R205). -/
def axisWin (d : Dev) (n : Nat) : Option Bytes :=
  let g := cg d (ax n 1) 2
  let j := cg d (ax n 1) 3
  let i := cg d (ax n 1) 4
  let b := mould d g
  let k := cg d (ax n 1) 1
  let h := hd d g j
  let rx := if h.rx.isNone && (k = 3 || k = 4) then h.rx1 else h.rx
  if i < winCount b j then rx.map (fun w => slice w (2 + winOffset b j i) (winSize (winKind b j i))) else none

end Sys2Proof.Machine
end

