-- ==== Sys2Proof/Machine/Events.lean ====
section
/-! DEFINITION. What steps share: reports that arise inside a step, statistics counters (R388), numbering (R376, R378), the
log (R381, R454-R456) and event datagrams (R482). -/
namespace Sys2Proof.Machine

/-- Queues a report of source `src` that arises inside another step; `drain` handles it at the end of the step. -/
def later (d : Dev) (src cause datum : Nat) : Dev :=
  { d with fc := { d.fc with todo := d.fc.todo ++ [⟨src, cause, datum, false, false, 0⟩] } }

/-- Queues an axis's report of source `src` that stops the axis once it is numbered (R103): stop 1 by its fault stop
category, stop 2 by torque off. -/
def laterStop (d : Dev) (src cause n stop : Nat) : Dev :=
  { d with fc := { d.fc with todo := d.fc.todo ++ [⟨src, cause, n, false, false, stop⟩] } }

/-- One increment of a statistics counter (R388). -/
def bump (d : Dev) (idx sub : Nat) : Dev :=
  let v := og d idx sub
  if 0xFFFFFFFF ≤ v then d
  else
    let d1 := os d idx sub (v + 1)
    if v + 1 = 0xFFFFFFFF then later d1 183 0 (idx * 65536 + sub * 256) else d1

/-- Several increments of a statistics counter. -/
def bumpBy (d : Dev) (idx sub n : Nat) : Dev :=
  let v := og d idx sub
  if n = 0 || 0xFFFFFFFF ≤ v then d
  else if v + n < 0xFFFFFFFF then os d idx sub (v + n)
  else later (os d idx sub 0xFFFFFFFF) 183 0 (idx * 65536 + sub * 256)

/-- Whether the journal is sealed (0x2000.01 bit 2). -/
def sealed (d : Dev) : Bool := bit (og d 0x2000 1) 2

/-- The number the arbiter gives the next item (R376), or none while the journal is sealed and the limit of R378 is
reached; such an item is counted in 0x3800.0A. Before the collector is ready the arbiter numbers nothing (log 6). -/
def number (d : Dev) : Dev × Option Nat :=
  if !bit (og d 0x1010 0) 2 then (d, none)
  else if sealed d && decide (d.fc.sSeal + 65535 < d.fc.nextSeq) then (bump d 0x3800 0x0A, none)
  else ({ d with fc := { d.fc with nextSeq := d.fc.nextSeq + 1 } }, some d.fc.nextSeq)

/-- The bytes of a log entry (R454). -/
def LogEntry.encode (e : LogEntry) : Bytes :=
  leBytes 8 e.seq ++ leBytes 8 e.local_ ++ leBytes 8 e.seg ++ leBytes 1 e.flags ++ leBytes 1 e.source ++ leBytes 2 e.code ++
  leBytes 4 e.data

/-- Hands an event record of R482 to every subscriber whose mask has the bit; log entries are batched, the others go in a
datagram of their own. -/
def notify (d : Dev) (b : Nat) (rec : Bytes) : Dev :=
  { d with host := { d.host with sessions := d.host.sessions.map (fun s =>
      if s.isOpen && bit s.events b then
        (if b = 0 then { s with logQueue := s.logQueue ++ [rec] } else { s with evQueue := s.evQueue ++ [rec] })
      else s) } }

/-- Whether the last commit has reached its step 3 and the warning has not ended (R447). -/
def commitWindow (d : Dev) : Bool := d.power.commitRan && bit (og d 0x2000 1) 0

/-- Takes an entry into the on-chip buffer (R455), overwriting the oldest journalled entry. -/
def bufferEntry (d : Dev) (e : LogEntry) : Dev :=
  let l := d.fc.log ++ [e]
  let l := if 1024 < l.length then l.drop 1 else l
  let fc := { d.fc with log := l, waiting := d.fc.waiting + 1, cond := setBit d.fc.cond 185 false }
  notify { d with fc := fc } 0 (leBytes 1 1 ++ leBytes 7 0 ++ e.encode)

/-- Writes a log entry (R381) with the limits of R447 and R455. -/
def logEntry (d : Dev) (e : LogEntry) : Dev :=
  if commitWindow d then
    (if 16 ≤ d.fc.commitLog then bump d 0x2E30 7
     else bufferEntry { d with fc := { d.fc with commitLog := d.fc.commitLog + 1 } } e)
  else if 1024 ≤ d.fc.waiting then later (bump d 0x2100 6) 185 0 0
  else bufferEntry d e

/-- The log flag bit 4: segment time has the PTP epoch (R454, 0x3410.09 bit 5). -/
def epochFlag (d : Dev) : Nat := if bit (og d 0x3410 9) 5 then 16 else 0

/-- A port event of R376 that is logged (R456): numbered, and logged when it has a number. -/
def event (d : Dev) (block code data : Nat) : Dev × Option Nat :=
  match number d with
  | (d1, none) => (d1, none)
  | (d1, some q) => (logEntry d1 ⟨q, localNs d1, segNs d1, 2 + epochFlag d1, block, code, data % 2 ^ 32⟩, some q)

/-- `event` where the number is not needed. -/
def log (d : Dev) (block code data : Nat) : Dev := (event d block code data).1

end Sys2Proof.Machine
end

