-- ==== Sys2Proof/Machine/TimeBase.lean ====
section
/-! DEFINITION. The four time bases and their advance (R269-R272), steps and switches of segment time (R273-R276), time
triggers (R282, R283), cycle points (R249) and the CYC_TAP pulse (R250). Times are in units of 2^-40/10 ns. -/
namespace Sys2Proof.Machine

/-- One nanosecond. -/
def unitNs : Nat := 10 * 2 ^ 40
/-- One base cycle of segment time. -/
def unitCycle : Nat := 32000 * unitNs
/-- What a base at rate offset y (ppm) gains per point of the 0.8 ns grid: a tenth of its step per 8 ns tick (R269, R270). -/
def gridStep (y : F32) : Nat := (ratRoundEven ((1 + f32ToRat y / 1000000) * (8 * 2 ^ 40 : Nat))).toNat
/-- What segment time gains per grid point. -/
def segStep (d : Dev) : Nat := gridStep (ogf d 0x3410 0x0B)
/-- What domain n's clock gains per grid point. -/
def domStep (d : Dev) (n : Nat) : Nat := gridStep (ogf d (0x3428 + n) 6)

/-- State of domain n: 0 Disabled, 1 Listening, 2 Acquiring, 3 Locked, 4 Holdover (R279). -/
def domState (d : Dev) (n : Nat) : Nat := og d (0x3428 + n) 1
/-- Whether domain n's clock is valid (R279, R281). -/
def domValid (d : Dev) (n : Nat) : Bool := 2 ≤ domState d n
/-- The clock record of domain n. -/
def dom (d : Dev) (n : Nat) : DomainSt := if n = 0 then d.time.domA else d.time.domB
/-- Replaces the clock record of domain n. -/
def setDom (d : Dev) (n : Nat) (x : DomainSt) : Dev :=
  { d with time := if n = 0 then { d.time with domA := x } else { d.time with domB := x } }

/-- Time goes on by `g` points of the 0.8 ns grid: every base advances at its own rate (R269). While the root is off there is no grid (R12). -/
def advance (d : Dev) (g : Nat) : Dev :=
  if !d.power.powered then d else
  let t := d.time
  let a := if domValid d 0 then { t.domA with clock := t.domA.clock + g * domStep d 0 } else t.domA
  let b := if domValid d 1 then { t.domB with clock := t.domB.clock + g * domStep d 1 } else t.domB
  { d with time := { t with grid := t.grid + g, local_ := t.local_ + g * (8 * 2 ^ 40), seg := t.seg + g * segStep d,
                            domA := a, domB := b } }

/-- Grid points until a base at `cur` that gains `step` per point has reached `target` (R272). -/
def gridTo (cur target step : Nat) : Nat := if target ≤ cur || step = 0 then 0 else (target - cur + step - 1) / step

/-- Time goes on to the first grid point at or after segment time `target` (R272). -/
def advanceSeg (d : Dev) (target : Nat) : Dev := advance d (gridTo d.time.seg target (segStep d))

/-- Value of base b: 0 local monotonic, 1 segment time, 2 domain A, 3 domain B; none while invalid (R282, R285). -/
def baseVal (d : Dev) (b : Nat) : Option Nat :=
  if b = 0 then some d.time.local_
  else if b = 1 then some d.time.seg
  else if domValid d (b - 2) then some (dom d (b - 2)).clock else none
/-- The TIME112 value of base b, 0 while invalid. -/
def baseTime (d : Dev) (b : Nat) : Nat := ((baseVal d b).map time112).getD 0
/-- A TIME112 value in the units of the bases. -/
def unitsOf (t : Nat) : Nat := timeUnits t * (10 * 2 ^ 24)

/-- CYC_TAP_PULSE (R250): a point fires at local time `at_`. While a pulse or the inactive time after it runs then, it is counted; else a pulse
follows after the delay. -/
def tapPulse (d : Dev) (at_ : Nat) : Dev :=
  let start := at_ + og d 0x3508 2 * unitNs
  let width := og d 0x3508 1 * unitNs
  let taps := d.time.taps.filter (fun p => at_ < p.2.2)
  if taps.any (fun p => p.1 ≤ at_) then bump d 0x3508 4
  else emit { d with time := { d.time with taps := taps ++ [(start, start + width, start + 2 * width)] } } .tap

/-- The event record of a cycle point (2) or time trigger (3) (R482). -/
def pointRecord (kind segm seq k time unit pk : Nat) : Bytes :=
  leBytes 1 kind ++ leBytes 1 segm ++ leBytes 6 0 ++ leBytes 8 seq ++ leBytes 8 k ++ leBytes 14 time ++ leBytes 1 unit ++ leBytes 1 pk

/-- Sends the notification of a point or trigger; it takes a number of its own (R249, R283). -/
def pointNotify (d : Dev) (kind segm k time unit pk : Nat) : Dev :=
  match number d with
  | (d, q) => notify d (kind - 1) (pointRecord kind segm (q.getD 0) k time unit pk)

/-- The next instant of time trigger u, in units of 2^-16 ns. -/
def trigNext (d : Dev) (u : Nat) : Nat := tget (fun _ => 0) d.time.trigNext u
/-- Sets it, with object 0x3450.08. -/
def setTrigNext (d : Dev) (u v : Nat) : Dev :=
  os { d with time := { d.time with trigNext := tput (fun _ => 0) d.time.trigNext u v } } (0x3450 + u) 8 (timeOfUnits v)

/-- Trigger u fires now (R282, R283): outputs, counters and the next instant after the value `now` of its base. -/
def trigFire (d : Dev) (u now : Nat) (late : Bool) : Dev :=
  let o := 0x3450 + u
  let d := bump d o 6
  let d := if late then bump d o 7 else d
  let outs := og d o 5
  let d := if bit outs 0 then pointNotify d 3 0 d.time.k (time112 d.time.seg) u 0x10 else d
  let d := if bit outs 1 then tapPulse d d.time.local_ else d
  let d := if bit outs 2 then
      (List.range 4).foldl (fun d a =>
        if og d (0x3613 + 16 * a) 1 = 0 then d else setAset d a { aset d a with fires := (aset d a).fires ++ [(u, d.time.seg)] }) d
    else d
  let p := timeUnits (og d o 4)
  if p = 0 then os d o 1 0
  else
    let i := timeUnits (og d o 3)
    let v := now / (10 * 2 ^ 24)
    setTrigNext d u (if v < i then i else i + ((v - i) / p + 1) * p)

/-- A base stepped or became valid (R282): a trigger whose next instant it has passed fires once, late. -/
def baseStepped (d : Dev) (b : Nat) : Dev :=
  if !ready d 4 then d else
  (List.range 4).foldl (fun d u =>
    if og d (0x3450 + u) 1 = 1 && og d (0x3450 + u) 2 = b then
      (match baseVal d b with
       | some v => if trigNext d u * (10 * 2 ^ 24) < v then trigFire d u v true else d
       | none => d)
    else d) d

/-- An occurrence of a cycle point's kind (R249): points of that kind and segment count it, and those whose n-th occurrence
it is become due. Kinds 1 and 2 go by the base cycle count. -/
def occur (d : Dev) (kind g : Nat) : Dev :=
  if !ready d 4 then d else
  (List.range 8).foldl (fun d i =>
    let o := 0x3500 + i
    if og d o 1 = 1 && og d o 2 = kind && (kind < 3 || 5 < kind || og d o 3 = g) then
      let c := tget (fun _ => 0) d.time.ptCount i + 1
      let n := og d o 4
      let hit := if kind ≤ 2 then d.time.k % n = 0 else n ≤ c
      let t := { d.time with ptCount := tput (fun _ => 0) d.time.ptCount i (if hit then 0 else c) }
      let t := if hit then { t with ptDue := tput (fun _ => none) t.ptDue i (some (t.k, t.seg, t.local_)) } else t
      { d with time := t }
    else d) d

/-- Sets or clears a status bit of segment time (0x3410.09). -/
def segStatus (d : Dev) (b : Nat) (v : Bool) : Dev := osb d 0x3410 9 b v

/-- Segment time starts at bring-up (R274): the local monotonic value of the same tick, epoch local; the alignment hold
starts when the configured source is a domain and the hold is not 0. -/
def startSegTime (d : Dev) : Dev :=
  let src := og d 0x3410 1
  let h := src != 0 && og d 0x3410 5 != 0
  let l := d.time.local_
  let d := { d with time := { d.time with seg := l, k := l / unitCycle, kc := l / unitCycle, hold := h, ySrc := 0 } }
  let d := segStatus (segStatus (os d 0x3410 6 src) 3 (src = 0)) 5 false
  if src != 0 && !h then segStatus d 6 true else d

/-- Segment time steps to domain n's clock, and the base cycle count with it (R274, R275). -/
def stepSegTime (d : Dev) (n : Nat) : Dev :=
  let v := (dom d n).clock
  let d := { d with time := { d.time with seg := v, k := v / unitCycle } }
  baseStepped (segStatus (segStatus d 4 true) 5 true) 1

/-- TIME_SOURCE_SWITCH (R276): the active source becomes `src` (0 free running, else domain src - 1). -/
def switchSource (d : Dev) (src : Nat) : Dev :=
  let d := log (bump (os d 0x3410 6 src) 0x3410 0x0A) 2 1 src
  let d := segStatus (segStatus (segStatus (osf d 0x3410 8 0) 2 false) 1 false) 3 (src = 0)
  if src = 0 then segStatus (osf { d with time := { d.time with ySrc := 0 } } 0x3410 0x0B 0) 7 false else d

/-- Whether this unit's segment time follows another head's (R277, R336): its own source, servo and fallback do not act on it then. R277's
last sentence is read so (DEDUCED, log 90). -/
def followsTime (d : Dev) : Bool :=
  og d 0x3C01 2 != 1 && og d 0x3C00 4 != 0 &&
    (og d 0x3C01 2 = 2 || (List.range 12).any (fun g => bit (og d 0x3C00 4) g && 2 ≤ segState d g && og d (sgb g) 3 = 2))

/-- Domain n has left Locked (R276): fallback to the other domain or holdover at the last rate. -/
def leftLocked (d : Dev) (n : Nat) : Dev :=
  if og d 0x3410 6 != n + 1 || followsTime d then d
  else if og d 0x3410 2 = 1 && domState d (1 - n) = 3 then switchSource d (2 - n)
  else
    let d := osf (osf (os d 0x3410 6 3) 0x3410 8 0) 0x3410 0x0B d.time.ySrc
    segStatus (segStatus d 2 true) 1 false

/-- A unit that begins to follow another head takes segment time from that head's frame (R277): the start of its cycle of which `low` is the
count mod 2^32, `nb` base cycles each, was `late` ago. -/
def takeSegTime (d : Dev) (low nb late : Nat) : Dev :=
  let own := d.time.k / nb
  let near := (own + 2 ^ 31 - (own + 2 ^ 31) % 2 ^ 32) + low
  let c := if own + 2 ^ 31 < near ∧ 2 ^ 32 ≤ near then near - 2 ^ 32 else near
  baseStepped { d with time := { d.time with seg := c * nb * unitCycle + late, k := c * nb } } 1

/-- Moves domain n to a state; leaving Locked reaches segment time. -/
def setDomState (d : Dev) (n st : Nat) : Dev :=
  let was := domState d n
  let d := os d (0x3428 + n) 1 st
  if was = 3 && st != 3 then leftLocked d n else d

/-- A domain passes through Disabled (R279, R287): its clock is invalid and its masters are forgotten. -/
def domDisable (d : Dev) (n : Nat) : Dev :=
  let d := setDomState d n 0
  let d := setDom d n DomainSt.reset
  let d := os (osi 64 (osi 64 (os (obs d (0x3428 + n) 2 (List.replicate 8 0)) (0x3428 + n) 3 0) (0x3428 + n) 4 0) (0x3428 + n) 5 0) (0x3428 + n) 7 0
  os (os (osf d (0x3428 + n) 6 0) (0x3428 + n) 8 0) (0x3428 + n) 9 0

/-- An enabled domain starts to listen; without the Ethernet link layer it goes on into Holdover (R279, R284). -/
def domEnable (d : Dev) (n : Nat) : Dev :=
  if og d (0x3420 + n) 1 = 1 then setDomState d n (if ready d 30 then 1 else 4) else d

/-- Domain n loses its master or the link layer (R279): the clock runs on at its last rate. -/
def domHoldover (d : Dev) (n : Nat) : Dev :=
  if 1 ≤ domState d n && domState d n ≤ 3 then
    setDomState (setDom d n { dom d n with best := none, heard := [], offsets := [], good := 0, bad := 0 }) n 4
  else d

/-- The segment-time servo at a Sync of domain n (R273, R275). -/
def segServo (d : Dev) (n : Nat) : Dev :=
  if og d 0x3410 6 != n + 1 || domState d n != 3 || d.time.hold || followsTime d then d
  else
    let e : Int := (dom d n).clock - (d.time.seg : Int)
    let eu := ratRoundEven (mkRat e (10 * 2 ^ 24))
    let outside := decide (10000000 * unitNs < e.natAbs)
    let smax := f32ToRat (ogf d 0x3410 3)
    let w := mkRat e (unitNs * 1000) / f32ToRat (ogf d 0x3410 4)
    let u : Rat := if outside then 0 else if smax < w then smax else if w < -smax then -smax else w
    let y := ogf d (0x3428 + n) 6
    let uf := f32OfRat u
    let d := { d with time := { d.time with ySrc := y } }
    let d := osf (osf (osi 64 d 0x3410 7 (satInt 64 eu)) 0x3410 8 uf) 0x3410 0x0B (f32Add y uf)
    let d := if outside && !bit (og d 0x3410 9) 7 then log d 2 2 0 else d
    segStatus (segStatus (segStatus d 7 outside) 1 (ratAbs u = smax)) 0 (e.natAbs ≤ 100 * unitNs)

end Sys2Proof.Machine
end

