-- ==== Sys2Proof/Machine/Ops.lean ====
section
/-! DEFINITION. The shared operations: assertions and their reactions (R379-R387, R525-R527), readiness and resets (R10, R384,
R385), stop demands (R103) and entries into Safe-hold (R424). -/
namespace Sys2Proof.Machine

/-- Adds a stop demand to an enabled axis (R103). -/
def pushDemand (d : Dev) (n : Nat) (cat : StopCat) (cause seq : Nat) : Dev :=
  if axEnabled d n then
    let m := mot d n
    setMot d n { m with demands := m.demands ++ [⟨cat, cause, seq, d.time.kc = d.time.k⟩] }
  else d

/-- The stop category of a value of axis object 0x0A. -/
def stopCat (v : Nat) : StopCat := if v = 1 then .hold else if v = 2 then .quick else .torqueOff

/-- The axes assigned to cluster c, or to any cluster for 0xFF. -/
def clusterAxes (d : Dev) (c : Nat) : List Nat :=
  (boundAxes d.objs).filter (fun n => c = 0xFF || cluster d n = c)

/-- The remaining part of an entry, as axis object 0x22.04 shows it (R118). -/
def remaining (d : Dev) (n : Nat) (e : QEntry) : Int :=
  if e.typ = 1 || e.typ = 2 then wrap 64 (e.resolved.getD e.target - ogi 64 d (ax n 0x24) 1)
  else if e.typ = 4 then
    (if e.span = 0 then 0 else e.span - (((mot d n).gear.map GearRun.travel).getD 0))
  else (e.durLeft : Int)

/-- The head of the queue, if it is Active. -/
def activeEntry (d : Dev) (n : Nat) : Option QEntry :=
  match (mot d n).queue with
  | e :: _ => if e.st = .active then some e else none
  | [] => none

/-- Whether axis n is running a gear entry by its gear law (R99). -/
def gearing (d : Dev) (n : Nat) : Bool :=
  axState d n = 2 && (match activeEntry d n with
    | some e => e.typ = 4 && !e.ending && (mot d n).gear.isSome
    | none => false)

/-- Axis objects 0x22.01-0x22.04, 0x29.01 and the bits of 0x09.04 that follow the motion state (R118, R128). -/
def showAxis (d : Dev) (n : Nat) : Dev :=
  let m := mot d n
  let d := os d (ax n 0x22) 1 m.queue.length
  let d := match m.queue with
    | e :: _ => if e.st = .queued then os (os (os d (ax n 0x22) 2 0) (ax n 0x22) 3 0) (ax n 0x22) 4 0
                else osi 64 (os (os d (ax n 0x22) 2 e.tag) (ax n 0x22) 3 e.typ) (ax n 0x22) 4 (remaining d n e)
    | [] => os (os (os d (ax n 0x22) 2 0) (ax n 0x22) 3 0) (ax n 0x22) 4 0
  let d := os d (ax n 0x29) 1 ((m.homing.map HomeRun.phase).getD 0)
  let st := og d (ax n 9) 4
  let st := setBit (setBit st 2 (bit st 2 && gearing d n)) 3 (axState d n = 5)
  let st := setBit st 4 (decide (16 ≤ m.queue.length))
  let st := setBit st 6 (!m.inPos.released)
  os d (ax n 9) 4 (setBit st 7 (!m.inNeg.released))

/-- An entry interrupted with its remaining part (R107, R118). -/
def QEntry.interrupt (e : QEntry) : QEntry :=
  if e.st = .active then { e with st := .interrupted, ending := false, reached := false, started := false } else e

/-- Ends a homing run without success: result, phase and the failure count (R126). -/
def homeAbort (d : Dev) (n result : Nat) : Dev :=
  match (mot d n).homing with
  | some h =>
    let d := setMot d n { mot d n with homing := none }
    bump (os d (ax n 0x29) 2 (if result = 2 then h.outcome else result)) (ax n 0x2D) 5
  | none => d

/-- An entry that is Blending out is Done (R107). -/
def retireBlend (d : Dev) (n : Nat) : Dev :=
  if (mot d n).blend.isSome then bump (setMot d n { mot d n with blend := none }) (ax n 0x22) 5 else d

/-- A network stepper axis that is disabled: stage off, I = 0 (R148). -/
def stepperOff (d : Dev) (n : Nat) : Dev :=
  if kind d n = 3 || kind d n = 4 then
    let d := os (setStp d n { stp d n with energise := false, stall := 0 }) (ax n 0x36) 1 0
    osb (osb (osb d (ax n 0x36) 5 2 false) (ax n 0x36) 5 4 (f32ToRat (cgf d (ax n 0x34) 2) = 0)) (ax n 0x36) 5 6 false
  else d

/-- Takes an axis out of motion: torque, integrals, notch states and current integrals become 0, the Active entry is kept as
interrupted, the queue is kept (R74, R94, R102, R104, R118, R148). -/
def axisOff (d : Dev) (n st : Nat) : Dev :=
  let d := homeAbort (retireBlend d n) n 2
  let m := mot d n
  let d := setMot d n { m with queue := m.queue.map QEntry.interrupt, prof := none, demands := [], stop := none }
  let d := os (os (os d (ax n 9) 1 st) (ax n 0x24) 2 0) (ax n 0x24) 3 0
  let d := os (os (os d (ax n 0x1B) 4 0) (ax n 0x1B) 5 0) (ax n 0x1B) 6 0
  let v := srv d n
  let d := setSrv d n { v with tIn := 0, tOut := 0, n1s1 := 0, n1s2 := 0, n2s1 := 0, n2s2 := 0 }
  let c := cur d n
  showAxis (stepperOff (setCur d n { c with jd := 0, jq := 0, gates := false }) n) n

/-- Sets the cause of axis object 0x09.02 and its number in 0x09.05. -/
def setCause (d : Dev) (n cause seq : Nat) : Dev := os (os d (ax n 9) 2 cause) (ax n 9) 5 seq

/-- An enabled axis goes Disabled for a mode or segment change or a lost cluster (R104, R385). -/
def disableAxis (d : Dev) (n cause seq : Nat) : Dev :=
  if axEnabled d n then setCause (axisOff d n 0) n cause seq else d

/-- Ends a relay as interrupted; its nodes keep their partial images (R462). -/
def relayInterrupt (d : Dev) : Dev :=
  if og d 0x2E60 5 = 1 then os { d with mgmt := { d.mgmt with relayList := [], relayOld := d.mgmt.relayList } } 0x2E60 5 4 else d

/-- What the head keeps of a node that is no longer integrated: sequence, identity, chill record and last decoded words. -/
def HeadNode.forget (h : HeadNode) : HeadNode :=
  { HeadNode.reset with seq := h.seq, ntype := h.ntype, latency := h.latency, chillSt := h.chillSt, chillCyc := h.chillCyc,
                        chillCnt := h.chillCnt, chillHeld := h.chillHeld, words := h.words, recCyc := h.recCyc }

/-- The head forgets the nodes of segment g (R238, R245): node states, integration exchanges and corrections; a mould that waited for this
boundary is in force from now on. -/
def forgetNodes (d : Dev) (g : Nat) : Dev :=
  let d := (d.heads.filter (fun p => p.1 / 1024 = g)).foldl (fun d p =>
    let d := setHd d g (p.1 % 1024) p.2.forget
    if g < 8 then d else os d (fnx (g - 8) (p.1 % 1024) 0) 1 0) d
  let x := seg d g
  let x := { x with exchanges := x.exchanges.filter (fun e => 3 ≤ e.cls), corrections := [], rolled := false,
                    pend := 0, missNow := false, served := 0 }
  takeMould (os (setSeg d g x) (sgb g) 7 0) g

/-- Moves segment g to a state (R229): entry cycle, the logged event of R456 and the cycle point (R249). Entering Off, Cold-start
or Integrating forgets the nodes; a segment that leaves the sending states ends a relay on it (R462). -/
def setSegState (d : Dev) (g st : Nat) : Dev :=
  if segState d g = st then d
  else
    let d := occur (log (os (os d (sgb g) 2 st) (sgb g) 4 d.time.k) (0x10 + g) 1 st) 5 g
    let d := if st ≤ 2 then forgetNodes d g else d
    if st ≤ 1 then
      let d := os (setSeg d g { seg d g with forced := false, quietExit := false, cold := .idle, sent := 0, heard := false }) (sgb g) 3 0
      if d.mgmt.relaySeg = g then relayInterrupt d else d
    else d

/-- The axes bound to segment g. -/
def segAxes (d : Dev) (g : Nat) : List Nat := (boundAxes d.objs).filter (fun n => axisSeg d n = some g)

/-- Segment g leaves its state for `st`; from Synchronous its axes go Disabled, and source 83 + 4g reports the departure
unless the manual excepts it (R104, R232, R379). -/
def segLeave (d : Dev) (g st : Nat) (report : Bool) : Dev :=
  let was := segState d g
  let d := setSegState d g st
  if was = 3 && st != 3 then
    let d := (segAxes d g).foldl (fun d n => disableAxis d n 7 0) d
    if report then later d (83 + 4 * g) 0 st else d
  else d

/-- Readiness bits of the blocks a B reaction resets (R379, R525). -/
def sourceBlocks (src : Nat) : List Nat :=
  if src = 11 then [6, 7, 8, 9]
  else if src = 12 then [10, 11, 12, 13]
  else if src = 13 then [15, 16] ++ (List.range 8).map (· + 18) ++ [31]
  else if src = 14 then [26, 27, 28, 29, 30]
  else if src = 15 then [17]
  else if 32 ≤ src && src ≤ 39 then [src - 26]
  else if src = 40 then [17]
  else if 48 ≤ src && src ≤ 79 then [6 + (src - 48) / 4]
  else if 80 ≤ src && src ≤ 127 then [18 + (src - 80) / 4]
  else if 128 ≤ src && src ≤ 133 then [16]
  else if src = 134 then [15]
  else if src = 135 then [15, 16]
  else if 160 ≤ src && src ≤ 167 then [31]
  else if src = 188 then [30]
  else []

/-- The readiness bits of domain n's blocks (R9). -/
def domainBlocks (n : Nat) : List Nat :=
  if n = 3 then [6, 7, 8, 9] else if n = 4 then [10, 11, 12, 13]
  else if n = 5 then [15, 16] ++ (List.range 8).map (· + 18) ++ [31]
  else if n = 6 then [26, 27, 28, 29, 30] else if n = 7 then [17] else []

/-- The segments whose mould has the paired flag (0x3C00.04). -/
def pairedSeg (d : Dev) (g : Nat) : Bool := bit (og d 0x3C00 4) g

/-- The physical status record of segment g; its counters follow (R191, R192). -/
def phyStatus (g : Nat) : Nat := if g < 8 then sgb g + 0x30 else sgb g + 0x31

/-- Clears the bits of a list in a map. -/
def clearBits (m : Nat) (bs : List Nat) : Nat := bs.foldl (fun m b => setBit m b false) m

/-- The readiness map without the bits whose dependencies (R10) it does not hold. -/
def closeReady (d : Dev) (m : Nat) : Nat :=
  let m := if bit m 0 && bit m 3 && bit m 4 then m else clearBits m ((List.range 32).filter (fun b => b != 5 && b != 0 && b != 3 && b != 4))
  let m := if bit m 14 then m else clearBits m ((List.range 8).map (· + 6))
  let m := if (List.range 8).any (fun c => bit m (6 + c)) then m
    else clearBits m ([15, 16] ++ (List.range 8).map (· + 18))
  if og d 0x3C00 1 = 1 && (List.range 12).any (fun g => pairedSeg d g && !bit m (18 + g)) then clearBits m [31] else m

/-- The running cycle of a channel up to a number of ticks (R134): V is added at each tick after the suppressed ones, each carry is a step;
`idle` is then the tick at which the last pulse and its inactive time end. The answer is the number of steps and the channel. -/
def ChanSt.run (p : ChanSt) (ticks : Nat) : Nat × ChanSt :=
  let tot := p.acc + p.v * (ticks - p.nSup)
  let steps := tot / 2 ^ 48
  let last := p.nSup + (steps * 2 ^ 48 - p.acc + p.v - 1) / p.v - 1
  (steps, { p with acc := tot % 2 ^ 48, s := p.s + (if p.neg then -1 else 1) * (steps : Nat),
                   idle := if steps = 0 then p.idle else last + 2 * p.width / 4 })

/-- Runs channel c over a number of ticks of its cycle; its step pulses appear where its output is enabled and driven (R134, R322). -/
def chanRun (d : Dev) (c ticks : Nat) : Dev :=
  let r := (chan d c).run ticks
  let d := setChan d c r.2
  if r.1 != 0 && r.2.on && d.pair.driving then emit d (.steps (Fin.ofNat 16 c) ((if r.2.neg then -1 else 1) * (r.1 : Nat))) else d

/-- Ticks of the step unit since the cycle start. -/
def stepTicks (d : Dev) : Nat := min 8000 ((d.time.seg - d.time.k * unitCycle) / (4 * unitNs))

/-- An emulation output `ticks` fabric clocks into its cycle: count and accumulator (R167). -/
def EmuSt.run (e : EmuSt) (ticks : Nat) : EmuSt :=
  { e with c := wrap 64 (e.c + (if e.neg then -1 else 1) * ((e.acc + e.v * ticks) / 2 ^ 48 : Nat)), acc := (e.acc + e.v * ticks) % 2 ^ 48 }

/-- Fabric clocks since the cycle start: 3.2 ns each (R167). -/
def fabricTicks (d : Dev) : Nat := min 10000 (5 * (d.time.seg - d.time.k * unitCycle) / (16 * unitNs))

/-- An output that is switched off, or whose unit is lost, holds its count where it stands (R169); it starts afresh at its return. -/
def emuStop (d : Dev) (m ticks : Nat) : Dev := setEmu d m { (emul d m).run ticks with on := false, v := 0, shift := 0 }

/-- Channel c emits no step from now on (R131, R136). -/
def chanStop (d : Dev) (c : Nat) : Dev := setChan d c { chan d c with v := 0, acc := 0, nSup := 0, supLeft := 0 }

/-- The acquisition store's contents are lost: every set is Idle and no record is left (R289, R408). -/
def storeLost (d : Dev) : Dev :=
  let d := (List.range 4).foldl (fun d s => os d (0x3613 + 0x10 * s) 1 0) d
  os { d with acq := { d.acq with sets := [], recs := [], upload := none, streams := [] } } 0x3600 2 0

/-- What losing a readiness bit does at once (R131, R136, R164, R289, R385, R232): a cluster's axes go Disabled and its engine error is
raised while Running; a segment goes Off and its receivers are out of synchronisation (R177); the acquisition sets go Idle and lose their records; the PTP domains go into Holdover (R279, R284); the pair link goes down. -/
def lostBit (d : Dev) (b : Nat) : Dev :=
  if 6 ≤ b && b ≤ 13 then
    let d := (clusterAxes (setPad d (b - 6) Pad.clear) (b - 6)).foldl (fun d n => disableAxis d n 4 0) (setPad d (b - 6) Pad.clear)
    if mode d = 3 then later d (48 + 4 * (b - 6)) 3 0 else d
  else if 18 ≤ b && b ≤ 29 then
    let o := phyStatus (b - 18)
    segLeave (os (os d o 1 0) o 2 0) (b - 18) 0 true
  else if b = 17 then storeLost d
  else if b = 16 then
    let t := fabricTicks d
    let d := (List.range 8).foldl (fun d m => emuStop d m t) d
    (boundAxes d.objs).foldl (fun d n =>
      if (fbInput d n).isSome && axEnabled d n then laterStop (osb d (ax n 0x1B) 7 4 true) (50 + 4 * cluster d n) 1 n 2 else d) d
  else if b = 15 then
    let t := stepTicks d
    (List.range 16).foldl (fun d c => chanStop (chanRun d c t) c) d
  else if b = 30 then domHoldover (domHoldover d 0) 1
  else if b = 31 then os { d with pair := { d.pair with queue := [] } } 0x3C01 9 0
  else d

/-- Sends a DHCP message of the port's client (RFC 2131, R466): its type and the address it names. -/
def dhcpSend (d : Dev) (p typ addr : Nat) : Dev := emit d (.ether (Fin.ofNat 2 p) 0x44 (leBytes 1 typ ++ (leBytes 4 addr).reverse))

/-- The port looks for a server (R466). -/
def dhcpDiscover (d : Dev) (p : Nat) : Dev :=
  let o := 0x2F08 + p
  let d := { d with host := { d.host with offer := tdel p d.host.offer } }
  dhcpSend (os (os (os (os (os d o 2 0) o 3 0) o 4 0) o 5 1) o 6 0) p 1 0

/-- Clears readiness bits and every bit that depends on them in the same clock (R10, R384). -/
def clearReady (d : Dev) (bs : List Nat) : Dev :=
  let old := og d 0x1010 0
  let new := closeReady d (clearBits old bs)
  let d := os d 0x1010 0 new
  ((List.range 32).filter (fun b => bit old b && !bit new b)).foldl lostBit d

/-- A block reset of the listed blocks (R384): ready and failed bits clear; the self-tests follow as steps of their own. -/
def blockReset (d : Dev) (bs : List Nat) : Dev :=
  clearReady (os d 0x1011 0 (clearBits (og d 0x1011 0) bs)) bs

/-- The newest valid state record of the key (R444). -/
def newestState (k : KeySt) : StateRec :=
  if k.state0.valid && (!k.state1.valid || k.state1.seq ≤ k.state0.seq) then k.state0
  else if k.state1.valid then k.state1 else .blank

/-- Writes a state record into the older copy (R444, R445). -/
def writeState (d : Dev) (kind s : Nat) (copy : Option Nat) : Dev :=
  if d.key.present && d.key.readable then
    let n := newestState d.key
    let r : StateRec := { valid := true, seq := n.seq + 1, kind := kind, copy := copy.getD n.copy, s := s,
                          time := time112 d.time.local_, count := d.key.count, serial := Config.serial.toNat % 2 ^ 32 }
    let k := { d.key with writer := Config.serial.toNat }
    let k := if k.state0.valid && (!k.state1.valid || k.state1.seq ≤ k.state0.seq) then { k with state1 := r }
             else { k with state0 := r }
    { d with key := k }
  else d

/-- The object values that D0 keeps through a reset: the backup words and their validity (R428). -/
def backupObjs (t : Table Nat) : Table Nat := t.filter (fun p => 0x204000 ≤ p.1 && p.1 < 0x204200)

/-- Every domain except D0 and D2 restarts (R384): volatile state is lost, the key, D0's words and time, the external pins
and the island's readiness stay, and the device is in Bring-up. -/
def restart (d : Dev) (cause : Nat) : Dev :=
  let prev := mode d
  let isl := ready d 5
  let failed := bit (og d 0x1011 0) 5
  let r : Dev := { Dev.reset with
    objs := backupObjs d.objs, key := d.key, free := d.free, out := d.out,
    fc := { Collector.reset with errPins := d.fc.errPins },
    time := { TimeSt.reset with local_ := d.time.local_ },
    power := { PowerSt.reset with restart := cause, vbakOk := d.power.vbakOk, vsoOk := d.power.vsoOk,
                                  belowClear := d.power.belowClear, testEn := d.power.testEn,
                                  d0Valid := d.power.d0Valid, otp := d.power.otp, cleared := true } }
  osb (osb (os r 0x1020 2 prev) 0x1010 0 5 isl) 0x1011 0 5 failed

/-- A chip reset (R384): S_seal is written with the seal, then the restart. -/
def chipReset (d : Dev) : Dev :=
  restart (writeState d 3 (d.fc.nextSeq - 1) none) 3

/-- Moves the pair to a state, with the logged event of R456 (R323). -/
def setPairState (d : Dev) (st : Nat) : Dev := if og d 0x3C01 1 = st then d else log (os d 0x3C01 1 st) 4 1 st

/-- Whether this unit and its partner act on forwarded items: a partner from Transferring on (R330). -/
def paired (d : Dev) : Bool :=
  let st := og d 0x3C01 1
  (4 ≤ st && st ≤ 7) || (st = 2 && 4 ≤ og d 0x3C01 6 && og d 0x3C01 6 ≤ 7)

/-- The cycle the leader assigns a forwarded item of `len` bytes (R330). -/
def forwardCycle (d : Dev) (len : Nat) : Nat := d.time.k + (len + 14 + 1999) / 2000 + 2

/-! The pair link (R325-R327). -/

/-- A message with a bad CRC is discarded, counted and reported (R325, R379 source 167). -/
def badMessage (d : Dev) : Dev := if og d 0x3C01 9 = 0 then d else later (bump d 0x3C02 8) 167 0 0

/-- The class of a message type (R327); `full` marks a block sent as part of a full set. -/
def linkClass (typ : Nat) (full : Bool) : Nat :=
  if typ = 1 || typ = 5 || typ = 6 || typ = 0x0D then 1
  else if typ = 4 && full then 5
  else if typ = 2 || typ = 3 || typ = 4 || typ = 8 || typ = 0x0A then 2
  else if typ = 9 then 3
  else if typ = 0x0B || typ = 0x0C then 6
  else 4

/-- Bytes the link carries in a base cycle: 16,000 on 4 lanes (R327), half on 2. -/
def linkBytes (d : Dev) : Nat := if og d 0x3C01 9 = 15 then 16000 else 8000

/-- A message joins the queue of a link that is up, with the cycle its content belongs to (R325). -/
def queueLink (d : Dev) (typ : Nat) (full : Bool) (size : Nat) (b : Bytes) : Dev :=
  if og d 0x3C01 9 = 0 then d
  else { d with pair := { d.pair with queue := d.pair.queue ++ [⟨linkClass typ full, typ, d.time.k % 2 ^ 32, 14 + size, false, b⟩] } }

/-- The link gives a message what this cycle still has for its class: Forward keeps 2,000 bytes of each cycle (R327). A message whose last
byte has gone leaves; another waits on. -/
def serveOne (d : Dev) (m : LinkMsg) : Dev :=
  let p := d.pair
  let room := linkBytes d - p.used - (if m.cls = 3 then 0 else 2000 - p.usedFwd)
  let n := min m.left room
  let p := { p with used := p.used + n, usedFwd := if m.cls = 3 then p.usedFwd + n else p.usedFwd }
  if n = m.left then emit { d with pair := p } (.pair m.typ m.cycle m.data)
  else { d with pair := { p with queue := p.queue ++ [{ m with left := m.left - n, started := m.started || n != 0 }] } }

/-- The order in which waiting messages are sent: the one in progress, then by class, oldest first (R327). -/
def linkOrder (q : List LinkMsg) : List LinkMsg :=
  q.filter LinkMsg.started ++ (List.range 6).flatMap (fun c => q.filter (fun m => !m.started && m.cls = c + 1))

/-- The link sends what it can of what waits (R327). -/
def servePair (d : Dev) : Dev := (linkOrder d.pair.queue).foldl serveOne { d with pair := { d.pair with queue := [] } }

/-- A message for the partner, sent at once where the link is free (R326, R327). -/
def sendPair (d : Dev) (typ : Nat) (b : Bytes) : Dev := servePair (queueLink d typ false b.length b)

/-- The kind code and bytes of a forwarded item for the pair link (R326 type 0x09). -/
def FwdItem.encode : FwdItem → Bytes
  | .write is => leBytes 1 1 ++ is.flatMap (fun i => leBytes 2 i.idx.toNat ++ leBytes 1 i.sub.toNat ++ [i.flags] ++ leBytes 2 i.val.length ++ i.val)
  | .image b => leBytes 1 2 ++ b
  | .command n v => leBytes 1 3 ++ leBytes 2 n.val ++ leBytes 2 v.toNat
  | .mode m => leBytes 1 4 ++ [m]
  | .mailbox n q p => leBytes 1 5 ++ leBytes 1 (nodeSeg n) ++ leBytes 2 (nodeNum n) ++ [q] ++ p
  | .nodeState n st => leBytes 1 6 ++ leBytes 1 (nodeSeg n) ++ leBytes 2 (nodeNum n) ++ [st]
  | .chill c => leBytes 1 7 ++ leBytes 8 c.toNat
  | .safeHold c => leBytes 1 8 ++ leBytes 2 c.toNat

/-- Offers an item to the pair (R330): the leader assigns k_e, keeps the item and sends it on; the follower sends it to the
leader. -/
def forwardItem (d : Dev) (it : FwdItem) : Dev :=
  let b := it.encode
  if og d 0x3C01 2 = 2 then sendPair d 9 (leBytes 8 0 ++ b)
  else
    let ke := forwardCycle d b.length
    sendPair { d with pair := { d.pair with items := d.pair.items ++ [(ke, it)] } } 9 (leBytes 8 ke ++ b)

/-- Notes an entry into Safe-hold for the next boundary (R424); while Running the axes in motion get their Safe-hold stop demand, and an
axis at rest stays where it is (R103, R104). The first entry numbered stands. -/
def safeHoldNow (d : Dev) (cause seq : Nat) : Dev :=
  let m := mode d
  if m = 1 || m = 2 || m = 3 then
    let d := if d.power.safeHold.isNone then { d with power := { d.power with safeHold := some ⟨cause, seq, og d 0x1021 2 = 1⟩ } } else d
    if m = 3 then
      ((boundAxes d.objs).filter (fun n => axState d n = 2 || axState d n = 3 || axState d n = 5)).foldl
        (fun d n => pushDemand d n (stopCat (og d (ax n 0x0A) 2)) 5 seq) d
    else d
  else d

/-- An entry into Safe-hold by a reaction or the island: in a pair it is a forwarded item (R330, R365). -/
def safeHoldEntry (d : Dev) (cause seq : Nat) : Dev :=
  if paired d then forwardItem { d with pair := { d.pair with holdSeq := seq } } (.safeHold (BitVec.ofNat 16 cause)) else safeHoldNow d cause seq

/-- One step of a trap plan (R383). -/
def trapStep (d : Dev) (step seq : Nat) : Dev :=
  let act := step / 256
  let arg := step % 256
  if act = 1 then safeHoldEntry d 2 seq
  else if act = 2 then (clusterAxes d arg).foldl (fun d n => pushDemand d n .torqueOff 4 seq) d
  else if act = 3 then (clusterAxes d arg).foldl (fun d n => pushDemand d n .quick 4 seq) d
  else if act = 4 then
    (if segState d arg = 3 then setSeg d arg { seg d arg with hold := true, forced := true } else d)
  else if act = 5 then { d with pair := { d.pair with dropAt := some (d.time.k + 1), dropTo := 3 } }
  else d

/-- Runs steps until the first 0x00 (R383). -/
def trapSteps (d : Dev) (seq : Nat) : List Nat → Dev
  | [] => d
  | st :: rest => if st / 256 = 0 then d else trapSteps (trapStep d st seq) seq rest

/-- Runs trap plan p (R383). -/
def trapPlan (d : Dev) (p seq : Nat) : Dev := trapSteps d seq ((List.range 8).map (fun i => og d (0x3820 + p) (i + 1)))

/-- The first-source latch (R386). -/
def latch (d : Dev) (r : Report) (seq : Nat) : Dev :=
  if og d 0x3800 2 = 0xFF then
    let d := os (os d 0x3800 2 r.src) 0x3800 3 seq
    let d := os (os d 0x3800 4 (time112Ns (localNs d))) 0x3800 5 (time112Ns (segNs d))
    let d := os (os d 0x3800 6 r.cause) 0x3800 7 r.datum
    os d 0x3800 8 (b2n r.wire + 2 * b2n r.force)
  else os d 0x3800 1 1

/-- Whether a source's force bit is set (R391). -/
def forced (d : Dev) (src : Nat) : Bool := og d (0x3900 + src) 3 = 1

/-- Live state of a source (R387): its condition, a wire fault or its force bit. -/
def live (d : Dev) (src : Nat) : Bool := bit d.fc.cond src || bit d.fc.wire src || forced d src

/-- The interrupt reaction's log entry (R381). -/
def faultLog (d : Dev) (r : Report) (seq : Option Nat) : Dev :=
  match seq with
  | none => d
  | some q => logEntry d ⟨q, localNs d, segNs d, 1 + 4 * b2n r.wire + 8 * b2n r.force + epochFlag d, r.src, r.cause, r.datum⟩

/-- The acquisition sets whose trigger may name a fault source take note of the assertion (R297 kind 0x05). -/
def noteFault (d : Dev) (src : Nat) (seq : Option Nat) : Dev :=
  (List.range 4).foldl (fun d a =>
    if og d (0x3613 + 16 * a) 1 = 0 then d else setAset d a { aset d a with faults := (aset d a).faults ++ [(src, seq.getD 0)] }) d

/-- What a source shows elsewhere while it is asserted: supply, domain and clock status (R419, R422, R429). A domain whose voltage is out
(datum bit 0) is not within its window; clock monitor datum 0 names the resonator (log 102). -/
def sourceStatus (d : Dev) (src datum : Nat) : Dev :=
  if src = 1 then osb d 0x2000 1 5 true
  else if src = 2 then bump (osb d 0x2020 1 0 false) 0x2020 2
  else if src = 3 then bump (osb d 0x2020 1 (if datum = 0 then 1 else 2) false) 0x2020 3
  else if 8 ≤ src && src ≤ 15 then
    (let d := osb d 0x2010 3 (src - 8) true
     if bit datum 0 then osb d 0x2010 2 (src - 8) false else d)
  else d

/-- What ends with a source's condition. A domain that is enabled is within its window again. -/
def sourceEnded (d : Dev) (src : Nat) : Dev :=
  if src = 1 then osb d 0x2000 1 5 false
  else if src = 2 then osb d 0x2020 1 0 true
  else if src = 3 then osb (osb d 0x2020 1 1 true) 0x2020 1 2 true
  else if 8 ≤ src && src ≤ 15 then
    (let d := osb d 0x2010 3 (src - 8) false
     if bit (og d 0x2010 1) (src - 8) then osb d 0x2010 2 (src - 8) true else d)
  else d

/-- The reactions of an assertion in the order E, T, I, B, C (R380-R384). -/
def react (d : Dev) (r : Report) (seq : Option Nat) : Dev :=
  let cfg := og d (0x3900 + r.src) 1
  let d := if bit cfg 4 then { d with fc := { d.fc with errPins := true } } else d
  let d := if bit cfg 1 then trapPlan d (og d (0x3900 + r.src) 2) (seq.getD 0) else d
  let d := if bit cfg 0 then faultLog d r seq else d
  let d := if bit cfg 2 then blockReset d (sourceBlocks r.src) else d
  if bit cfg 3 then chipReset d else d

/-- A report of a source at the collector (R374-R387, R527). A level source already live, and a report while the source is
already live, do not assert it again; the latter is logged. The answer is the number given, if any. -/
def assertReport (d : Dev) (r : Report) : Dev × Option Nat :=
  if !ready d 2 then ({ d with fc := { d.fc with held := d.fc.held ++ [r] } }, none)
  else if levelSource r.src && bit d.fc.cond r.src && !r.wire && !r.force then (d, none)
  else
    let was := live d r.src
    let d := if levelSource r.src && !r.wire && !r.force then
      sourceStatus { d with fc := { d.fc with cond := setBit d.fc.cond r.src true } } r.src r.datum else d
    if was then
      (if r.wire || r.force then (bump d (0x3840 + r.src) 0, none)
       else if bit (og d (0x3900 + r.src) 1) 0 then
        match number d with
        | (d1, q) => (faultLog d1 r q, q)
       else (d, none))
    else
      let d := bump d (0x3840 + r.src) 0
      match number d with
      | (d1, q) =>
        let d1 := noteFault (latch d1 r (q.getD 0)) r.src q
        (react d1 r q, q)

/-- A report of a source: its number where one is given. -/
def raise (d : Dev) (src cause datum : Nat) : Dev × Option Nat := assertReport d ⟨src, cause, datum, false, false, 0⟩

/-- `raise` where the number is not needed. -/
def report (d : Dev) (src cause datum : Nat) : Dev := (raise d src cause datum).1

/-- A level source's condition ends (R527). -/
def deassert (d : Dev) (src : Nat) : Dev :=
  if bit d.fc.cond src then sourceEnded { d with fc := { d.fc with cond := setBit d.fc.cond src false } } src
  else { d with fc := { d.fc with held := d.fc.held.filter (fun r => r.src != src || !levelSource src) } }

/-- A level source follows a condition. -/
def level (d : Dev) (src cause datum : Nat) (on : Bool) : Dev := if on then report d src cause datum else deassert d src

/-- Stop demand of a fault on one axis with that axis's fault stop category (R64, R117): axis object 0x0A.01. -/
def faultStop (d : Dev) (n : Nat) (seq : Option Nat) : Dev :=
  pushDemand d n (stopCat (og d (ax n 0x0A) 1)) 4 (seq.getD 0)

/-- Torque off of an enabled axis at once, whatever its stop category (R60, R92, R93, R104); while Stopping the first cause stands (R103). -/
def torqueOff (d : Dev) (n cause seq : Nat) : Dev :=
  if !axEnabled d n then d else if axState d n = 3 then axisOff d n 6 else setCause (axisOff d n 6) n cause seq

/-- What a numbered report does to the axes it names (R60, R64, R161). -/
def stopOf (d : Dev) (r : Report) (q : Option Nat) : Dev :=
  if r.stop = 3 then (fedAxes d r.datum).foldl (fun d n => faultStop (osb d (ax n 9) 4 0 false) n q) d
  else if r.stop = 1 then faultStop d r.datum q else if r.stop = 2 then torqueOff d r.datum 4 (q.getD 0) else d

/-- Handles the reports that arose inside a step, oldest first. -/
def drain : Nat → Dev → Dev
  | 0, d => d
  | n + 1, d =>
    match d.fc.todo with
    | [] => d
    | r :: rs =>
      match assertReport { d with fc := { d.fc with todo := rs } } r with
      | (d1, q) => drain n (stopOf d1 r q)

/-- The end of every step: the reports that arose in it are handled. -/
def finish (d : Dev) : Dev := drain 4096 d

/-- Applies a change of the device; a chip reset in it also loses the shared memory's contents (R384). -/
def upd (s : State) (f : Dev → Dev) : State :=
  let d := finish (f s.dev)
  if d.power.cleared then { s with dev := { d with power := { d.power with cleared := false } }, mem := .reset }
  else { s with dev := d }

/-- Statuses of an access (R37). -/
inductive Status where
  | ok | notReady | noObject | noSub | readOnly | writeOnly | session | state | length | reserved | range | mapped | busy
  deriving DecidableEq, Repr

/-- Numeric code of a status (R476). -/
def statusCode : Status → Nat
  | .ok => 0 | .notReady => 1 | .noObject => 2 | .noSub => 3 | .readOnly => 4 | .writeOnly => 5 | .session => 6
  | .state => 7 | .length => 8 | .reserved => 9 | .range => 10 | .mapped => 11 | .busy => 12

/-- The objects the cycle of both units of a pair uses (R34): mapping, segments and moulds, feedback, emulation and step units,
field nodes and axes. Objects of an unpaired segment stay the unit's own. -/
def cycleObject (d : Dev) (idx : Nat) : Bool :=
  if 0x3000 ≤ idx && idx < 0x3200 then pairedSeg d ((idx - 0x3000) / 0x40)
  else if 0x3200 ≤ idx && idx < 0x3300 then pairedSeg d (8 + (idx - 0x3200) / 0x40)
  else if 0x4000 ≤ idx && idx < 0x8000 then pairedSeg d (8 + (idx - 0x4000) / 0x1000)
  else (0x1600 ≤ idx && idx < 0x1C00) || (0x3300 ≤ idx && idx < 0x330C) || (0x3D00 ≤ idx && idx < 0x3E00) || 0x8000 ≤ idx

/-- A write in a pair (R34, R330): one that is accepted and concerns the cycle is forwarded and takes effect in both units at
its agreed cycle. `r` is the write's outcome on this unit alone. -/
def agreed (d : Dev) (idx sub : Nat) (val : Bytes) (r : Dev × Status) : Dev × Status :=
  if paired d && cycleObject d idx && r.2 = .ok then
    (forwardItem d (.write [⟨BitVec.ofNat 16 idx, BitVec.ofNat 8 sub, 0, val⟩]), .ok)
  else r

/-- Reports the status of a write that is a command of its own. -/
def answer (d : Dev) (st : Status) : Dev := emit d (.status (statusCode st) 0)

end Sys2Proof.Machine
end

