-- ==== Sys2Proof/Machine/Island.lean ====
section
/-! DEFINITION. The safety island (R343-R373): its cycle, inputs, function instances, outputs, PDUs and commissioning. -/
namespace Sys2Proof.Machine

/-- The state of function instance f. -/
def inst (i : IslandSt) (f : Nat) : InstSt := tget (fun _ => InstSt.reset) i.insts f
/-- Replaces the state of function instance f. -/
def setInst (i : IslandSt) (f : Nat) (x : InstSt) : IslandSt :=
  { i with insts := tput (fun _ => InstSt.reset) i.insts f x }
/-- A safety counter 0x3A30 (R373). -/
def icount (i : IslandSt) (sub : Nat) : Nat := tget (fun _ => 0) i.counters sub
/-- One increment of a safety counter, saturating; the increment that saturates it is reported (R388). -/
def ibump (i : IslandSt) (sub : Nat) : IslandSt :=
  let v := icount i sub
  if 0xFFFFFFFF ≤ v then i
  else { i with counters := tput (fun _ => 0) i.counters sub (v + 1)
                sat := if v + 1 = 0xFFFFFFFF then i.sat ++ [sub] else i.sat }

/-- Whether a safety node's or partner's stream is fresh within a watchdog time in microseconds (R349, R360, R363). -/
def freshIn (x : SafeIn) (wd : Nat) : Bool :=
  match x.age with
  | some a => a < wd
  | none => false

/-- The level of a source of the block (R367): an SI pin, or a bit of a fresh and healthy safety node (R349); none when
unused. -/
def srcLevel (i : IslandSt) (src : Nat) : Option Bool :=
  if src = 0xFFFF || src = 0xFFFE then none
  else if src / 0x4000 = 0 then some (bit i.si (src % 16))
  else
    let x := tget (fun _ => SafeIn.reset) i.nodeIn (bits src 8 6)
    some (freshIn x (blkWdLine i.block) && bit x.bits 32 && bit x.bits (src % 64))

/-- A source's level, an unused source reading closed. -/
def lvl (i : IslandSt) (src : Nat) : Bool := (srcLevel i src).getD true

/-- The SI pin of a source, if it is one. -/
def srcPin (src : Nat) : Option Nat := if src < 0x4000 then some (src % 16) else none

/-- Field S1-S4 (n = 0-3), reset source (4) or unlock source (5) of instance f. -/
def fnSrc (i : IslandSt) (f n : Nat) : Nat := rd (blkFn i.block f) (4 + 2 * n) 2

/-- Whether an unlock is requested (R353): the host bit while set, another source at its low level. -/
def unlockReq (i : IslandSt) (f : Nat) : Bool :=
  let u := rd (blkFn i.block f) 14 2
  if u = 0xFFFF then false
  else if u = 0xFFFE then bit i.unlocks f
  else !lvl i u

/-- Whether a pin that the instance uses, for a contact, its reset or its unlock, has an input test fault (R348). -/
def testFault (i : IslandSt) (f : Nat) : Bool :=
  (List.range 6).any (fun n =>
    match srcPin (fnSrc i f n) with
    | some p => bit i.siFault p
    | none => false)

/-- The discrepancies of an instance (R351): S1 against S2 and, by kind, the lock against the door or button 2. -/
def discrepant (i : IslandSt) (f : Nat) : Bool × Bool :=
  let k := rd (blkFn i.block f) 0 1
  let s := fun n => lvl i (fnSrc i f n)
  if k = 1 then (s 0 != s 1, false)
  else if k = 2 then (s 0 != s 1, s 2 && (!s 0 || !s 1))
  else if k = 3 then (s 0 = s 1, s 2 = s 3)
  else (s 0 != s 1, false)

/-- Whether button 1 or 2 of a two-hand control is actuated: its NO closed and its NC open (R351). -/
def actuated (i : IslandSt) (f b : Nat) : Bool := lvl i (fnSrc i f (2 * b)) && !lvl i (fnSrc i f (2 * b + 1))
/-- Whether a button is released. -/
def releasedBtn (i : IslandSt) (f b : Nat) : Bool := !lvl i (fnSrc i f (2 * b)) && lvl i (fnSrc i f (2 * b + 1))

/-- The demand condition of R351 with the bridging of R354. -/
def demandCond (i : IslandSt) (f : Nat) (x : InstSt) : Bool :=
  let e := blkFn i.block f
  let k := rd e 0 1
  let s := fun n => lvl i (fnSrc i f n)
  let tbr := rd e 20 2
  if k = 1 then !s 0 || !s 1
  else if k = 2 then !s 0 || !s 1 || !s 2 || unlockReq i f
  else if k = 3 then !actuated i f 0 || !actuated i f 1
  else if !s 0 && !s 1 then !bit (rd e 3 1) 0 || tbr < x.low
  else (!s 0 || !s 1) && tbr < x.low

/-- The healthy condition of R351. -/
def healthyCond (i : IslandSt) (f : Nat) (x : InstSt) : Bool :=
  let k := rd (blkFn i.block f) 0 1
  let s := fun n => lvl i (fnSrc i f n)
  if k = 1 then s 0 && s 1
  else if k = 2 then s 0 && s 1 && s 2 && !unlockReq i f
  else if k = 3 then
    match x.btn1, x.btn2 with
    | some a, some b => actuated i f 0 && actuated i f 1 && x.released && (if a ≤ b then b - a ≤ 500000 else a - b ≤ 500000)
    | _, _ => false
  else s 0 && s 1

/-- Every source of the instance in its demand level (R350): contacts and locks open, both buttons released, OSSDs low. -/
def allDemand (i : IslandSt) (f : Nat) : Bool :=
  let k := rd (blkFn i.block f) 0 1
  if k = 3 then releasedBtn i f 0 && releasedBtn i f 1
  else (List.range 4).all (fun n =>
    match srcLevel i (fnSrc i f n) with
    | some b => !b
    | none => true)

/-- An instance enters Fault: the permit falls at once; cause 1 input test fault, 2 discrepancy (R350, R351). In Fault the way out starts
anew. -/
def instFault (i : IslandSt) (f cause : Nat) : IslandSt :=
  let x := inst i f
  if x.state = 3 then setInst i f { x with seen := 0, seenT := 0 }
  else setInst (ibump i (if cause = 1 then 3 else 2)) f
    { x with state := 3, permit := false, cause := cause, timer := none, seen := 0, seenT := 0 }

/-- The clocks of an instance, advanced by one island cycle: discrepancies, bridged low, reset source, buttons, unlock. -/
def instClocks (i : IslandSt) (f : Nat) (x : InstSt) : InstSt :=
  let e := blkFn i.block f
  let k := rd e 0 1
  let dis := discrepant i f
  let low := k = 4 && (!lvl i (fnSrc i f 0) || !lvl i (fnSrc i f 1))
  let b1 := k = 3 && actuated i f 0
  let b2 := k = 3 && actuated i f 1
  let pinT : Nat → Nat := fun n => match srcPin (fnSrc i f n) with
    | some p => tget (fun _ => 0) i.siT p
    | none => i.now
  let later2 := fun (a b : Nat) => if pinT a ≤ pinT b then pinT b else pinT a
  { x with
    disc := if dis.1 then x.disc + 125 else 0
    disc2 := if dis.2 then x.disc2 + 125 else 0
    low := if low then x.low + 125 else 0
    btn1 := if b1 then some (x.btn1.getD (later2 0 1)) else none
    btn2 := if b2 then some (x.btn2.getD (later2 2 3)) else none
    released := x.released || (k = 3 && releasedBtn i f 0 && releasedBtn i f 1)
    timer := x.timer.map (· + 125)
    unlockT := if x.permit then 0 else x.unlockT + 125 }

/-- Whether the reset source has just fallen after 100 ms to 5 s high (R350), and its new high time. -/
def resetStep (i : IslandSt) (f : Nat) (x : InstSt) : Bool × Option Nat :=
  match srcLevel i (rd (blkFn i.block f) 12 2) with
  | none => (false, none)
  | some true => (false, some (x.resetHigh.getD 0 + 125))
  | some false =>
    match x.resetHigh with
    | some t => (100000 ≤ t && t ≤ 5000000, none)
    | none => (false, none)

/-- Entry into Demand (R350, R352): the permit falls at once for stop category 0, after t_d1 for category 1. -/
def enterDemand (i : IslandSt) (f : Nat) (x : InstSt) (counted : Bool) : IslandSt :=
  let cat1 := rd (blkFn i.block f) 1 1 = 1
  let i := if counted then ibump i 1 else i
  setInst i f { x with state := 1, permit := x.permit && cat1, timer := if x.permit && cat1 then some (x.timer.getD 0) else none }

/-- One island cycle of instance f (R350-R354). A fault condition goes before every other event. -/
def instStep (i : IslandSt) (f : Nat) : IslandSt :=
  let e := blkFn i.block f
  let k := rd e 0 1
  let x := instClocks i f (inst i f)
  let (rst, rh) := resetStep i f x
  let x := { x with resetHigh := rh }
  let td := rd e 16 2 * 1000
  let ovr := decide (td < x.disc) || decide (td < x.disc2)
  let x := match x.timer with
    | some t => if rd e 18 2 * 1000 ≤ t then { x with permit := false, timer := none } else x
    | none => x
  let x := { x with unlockOn :=
    if x.unlockOn then !(!unlockReq i f && lvl i (fnSrc i f 0) && lvl i (fnSrc i f 1))
    else k = 2 && unlockReq i f && !x.permit && decide (rd e 22 2 * 1000 ≤ x.unlockT) }
  let i := setInst i f x
  let dem := demandCond i f x
  let heal := healthyCond i f x
  let grant := fun (i : IslandSt) => setInst i f { x with state := 0, permit := true, timer := none, released := false, unlockT := 0 }
  if testFault i f then instFault i f 1
  else if ovr then instFault i f 2
  else if x.state = 0 then (if dem then enterDemand i f x true else i)
  else if x.state = 1 then
    (if heal then (if rd e 2 1 = 1 then setInst i f { x with state := 2 } else grant i) else i)
  else if x.state = 2 then
    (if dem then enterDemand i f x true else if rst && heal then grant i else i)
  else if k ≤ 2 then
    (if x.seen = 0 then (if allDemand i f then setInst i f { x with seen := 1 } else i)
     else if heal then setInst i f { x with state := 2, seen := 0, cause := 0 } else i)
  else
    let t := if allDemand i f then x.seenT + 125 else 0
    if 100000 ≤ t then enterDemand i f { x with seenT := 0, cause := 0 } true else setInst i f { x with seenT := t }

/-- The permits of the instances (0x3A20). -/
def permitMap (i : IslandSt) : Nat :=
  (List.range (blkFns i.block)).foldl (fun m f => if (inst i f).permit then setBit m f true else m) 0

/-- The permit of a consumer (R355): the AND of the instances its mask names; 0 without an entry. -/
def conPermit (i : IslandSt) (code : Nat) : Bool :=
  match conMask i.block code with
  | some m => (List.range 64).all (fun f => !bit m f || bit i.permits f)
  | none => false

/-- Whether SOn is to be on (R355-R357, R364): its safety output's permit, or its unlock driver's. -/
def soOn (i : IslandSt) (n : Nat) : Bool :=
  i.state = 4 && i.vso && blkSo i.block n && !bit i.soFault n &&
  (conPermit i n ||
   match conMask i.block (0x10 + n) with
   | some m => (List.range 64).any (fun f => bit m f && (inst i f).unlockOn)
   | none => false)

/-- Permits and output states follow the instances; outside Run every permit is 0 and every output off (R345). -/
def refresh (i : IslandSt) : IslandSt :=
  let i := { i with permits := if i.state = 4 then permitMap i else 0 }
  { i with so := (List.range 4).foldl (fun m n => if soOn i n then setBit (setBit m (2 * n) true) (2 * n + 1) true else m) 0 }

/-- Whether the stop request is raised (R352): while an instance is in Demand, Wait reset or Fault, and outside Run. -/
def stopWanted (i : IslandSt) : Bool :=
  i.state != 4 || (List.range (blkFns i.block)).any (fun f => (inst i f).state != 0)

/-- Whether an instance of a kind is in a state, of a fault cause when one is given. -/
def anyInst (i : IslandSt) (k : Nat) (st : Nat) (cause : Option Nat) : Bool :=
  i.state = 4 && (List.range (blkFns i.block)).any (fun f =>
    (k = 0 || rd (blkFn i.block f) 0 1 = k) && (inst i f).state = st &&
    (match cause with | some c => (inst i f).cause = c | none => true))

/-- The live conditions of sources 144-159 (R372), bit s - 144. -/
def islandLevels (i : IslandSt) (inPair restarted : Bool) : Nat :=
  let b := fun (n : Nat) (c : Bool) => if c then 2 ^ n else 0
  b 0 (i.state = 5 && (i.cause = 1 || i.cause = 3)) + b 1 (i.state = 5 && i.cause = 2) + b 2 (i.state = 5 && i.cause = 4) +
  b 3 (anyInst i 0 3 (some 1)) + b 4 (anyInst i 0 3 (some 2)) + b 5 (i.soFault != 0) + b 6 (i.state != 0 && !i.vso) +
  b 7 (i.state != 0 && (List.range (blkIns i.block)).any (fun n => !freshIn (tget (fun _ => SafeIn.reset) i.nodeIn n) (blkWdLine i.block))) +
  b 8 (i.state = 2) + b 9 (i.state != 0 && i.stopReq) + b 10 (anyInst i 1 1 none) + b 11 (anyInst i 2 1 none) +
  b 12 (anyInst i 3 3 none) + b 13 (anyInst i 4 3 none) +
  b 14 (inPair && i.state != 0 && !i.partner.any (fun p => freshIn p.2 (blkWdRing i.block))) +
  b 15 (i.state = 1 && restarted)

/-- Brings the reports at the collector to the island's conditions (R372); a stop request that begins while the device is
Running leads to Safe-hold with cause 0x0003 (R352). -/
def islandReports (s : State) : State :=
  let want := islandLevels s.isl (paired s.dev) s.isl.commissioned
  let was := s.dev.fc.island
  let d := (List.range 16).foldl (fun (d : Dev) n =>
    if bit want n && !bit was n then
      let (d1, q) := raise d (144 + n) (if n = 0 then s.isl.cause else 0) (if n = 0 then s.isl.cause else 0)
      if n = 9 && mode d1 = 3 then safeHoldEntry d1 3 (q.getD 0) else d1
    else if !bit want n && bit was n then deassert d (144 + n)
    else d) s.dev
  let d := s.isl.sat.foldl (fun d n => later d 183 0 (0x3A30 * 65536 + n * 256)) d
  { s with dev := { d with fc := { d.fc with island := want } }, isl := { s.isl with sat := [] } }

/-- The island enters a state (R345) and reports it (R456). -/
def islandState (s : State) (st : Nat) : State :=
  if s.isl.state = st then s
  else { s with isl := { s.isl with state := st }, dev := log s.dev 5 2 st }

/-- Outputs, permits, stop request and reports after any change inside the island. -/
def islandSettle (s : State) : State :=
  let i := refresh s.isl
  let t := islandReports { s with isl := { i with stopReq := stopWanted i } }
  upd t id

/-- The island enters Fault (R344): every permit 0, every output off. -/
def islandFault (s : State) (cause : Nat) : State :=
  islandState { s with isl := { s.isl with cause := cause } } 5

/-- The next sequence value of a connection. -/
def nextSeq (i : IslandSt) (conn : Nat) : Nat × IslandSt :=
  let q := tget (fun _ => 0) i.seqs conn
  if i.state = 4 then
    let q := (q + 1) % 65536
    (q, { i with seqs := tput (fun _ => 0) i.seqs conn q })
  else (q, i)

/-- The payload of a to-ring or to-line PDU: the island's permits ANDed with the partner's while those are fresh (R363). -/
def withPartner (i : IslandSt) (conn payload : Nat) : Nat :=
  let p := tget (fun _ => SafeIn.reset) i.partner conn
  if freshIn p (blkWdRing i.block) then payload &&& p.bits else payload

/-- Forms the PDU of a connection and hands it to its segment's engine (R358). -/
def sendPdu (s : State) (conn payload : Nat) : State :=
  let (q, i) := nextSeq s.isl conn
  let pay := if i.state = 4 then withPartner i conn payload else 0
  { s with isl := i, dev := { s.dev with pdus := tput (fun _ => []) s.dev.pdus conn (pduBytes (blkDomain i.block) conn q pay) } }

/-- The bits of consumers `base + i`, i below n. -/
def mapOf (i : IslandSt) (base n : Nat) : Nat :=
  (List.range n).foldl (fun m b => if conPermit i (base + b) then setBit m b true else m) 0

/-- The connections the island sends at the end of a cycle (R358): the STO map of every ring that is not Off, every line STO
group with a consumer and every to-node connection with a consumer. -/
def pduList (s : State) : List (Nat × Nat) :=
  let i := s.isl
  let codes := (List.range (blkCons i.block)).map (fun c => rd (blkCon i.block c) 0 2)
  let rings := ((List.range 8).filter (fun r => segState s.dev r != 0)).map (fun r => (0x1000 + r, mapOf i (0x1001 + 0x40 * r) 48))
  let groups := ((List.range 4).flatMap (fun l => (List.range 16).map (fun g => (l, g)))).filter (fun p =>
      codes.any (fun c => 0x2000 ≤ c && c < 0x3000 && (c - 0x2000) / 0x400 = p.1 && (c % 0x400) / 64 = p.2))
  let groups := groups.map (fun p => (0x2000 + 16 * p.1 + p.2, mapOf i (0x2000 + 0x400 * p.1 + 64 * p.2) 64))
  let nodes := (codes.filter (fun c => 0x3000 ≤ c && c < 0x4000)).map (fun c => (c, b2n (conPermit i c)))
  rings ++ groups ++ nodes

/-- What the partner island gets: the PDUs of this cycle with the island's own permits, so that a 0 of either does not come back as the
other's own (R363, log 96). -/
def ownPdus (s : State) : Bytes :=
  (pduList s).flatMap (fun p => pduBytes (blkDomain s.isl.block) p.1 (tget (fun _ => 0) s.isl.seqs p.1) (if s.isl.state = 4 then p.2 else 0))

/-- The PDUs of a cycle; in Fault none is formed, so their sequences stand still (R344). -/
def handover (s : State) : State :=
  if s.isl.state = 5 || s.isl.state = 0 then s
  else
    let s := (pduList s).foldl (fun s p => sendPdu s p.1 p.2) s
    if paired s.dev then { s with dev := sendPair s.dev 10 (ownPdus s) } else s

/-- Island Fault: the PDUs at the engines carry all bits 0, with the sequence they had (R344). -/
def freezePdus (s : State) : State :=
  let z (t : Table Bytes) : Table Bytes := t.map (fun p => (p.1, pduBytes (blkDomain s.isl.block) p.1 (rd p.2 2 2) 0))
  { s with dev := { s.dev with pdus := z s.dev.pdus, pdus1 := z s.dev.pdus1, pdus2 := z s.dev.pdus2 } }

/-- Readback of the SO pins (R357): a pin that reads against its command for longer than 1 ms, or one above 0.7 A, is an
output fault that holds the pair off until the next restart. -/
def soReadback (i : IslandSt) (read ovr : Nat) : IslandSt :=
  let i := { i with soBad := (List.range 8).foldl (fun t p =>
      let bad := bit i.so p != bit read p
      tput (fun _ => 0) t p (if bad then tget (fun _ => 0) i.soBad p + 125 else 0)) i.soBad }
  (List.range 4).foldl (fun i n =>
    let bad := fun p => 1000 < tget (fun _ => 0) i.soBad p || bit ovr p
    if (bad (2 * n) || bad (2 * n + 1)) && !bit i.soFault n then ibump { i with soFault := setBit i.soFault n true } 4 else i) i

/-- Ages the verified streams by a cycle and counts those that stop being fresh (R349, R363). -/
def ageStreams (i : IslandSt) : IslandSt :=
  let stale := fun (wd : Nat) (t : Table SafeIn) =>
    (t.filter (fun p => freshIn p.2 wd && !freshIn { p.2 with age := p.2.age.map (· + 125) } wd)).length
  let n := stale (blkWdLine i.block) i.nodeIn + stale (blkWdRing i.block) i.partner
  let older := fun (t : Table SafeIn) => t.map (fun p => (p.1, { p.2 with age := p.2.age.map (· + 125) }))
  Nat.repeat (fun i => ibump i 5) n { i with nodeIn := older i.nodeIn, partner := older i.partner, now := i.now + 125 }

/-- ISLAND_CYCLE (R343-R358). In a cycle in which the channels disagree nothing new takes effect. -/
def execIslandCycle (disagree clock missed supply : Bool) (read ovr : BitVec 8) (s : State) : Host.Outcome State Fault Refusal :=
  .next (
    if s.isl.state = 0 || s.isl.state = 5 then s
    else
      let i := { s.isl with mism := if disagree then s.isl.mism + 1 else 0 }
      let i := ageStreams i
      let s := { s with isl := i }
      if supply then islandSettle (freezePdus (islandFault s 4))
      else if clock then islandSettle (freezePdus (islandFault s 2))
      else if missed then islandSettle (freezePdus (islandFault s 3))
      else if 2 ≤ i.mism then islandSettle (freezePdus (islandFault s 1))
      else
        let i := soReadback i read.toNat ovr.toNat
        if disagree then islandSettle { s with isl := i }
        else
          let i := if i.state = 4 then (List.range (blkFns i.block)).foldl instStep i else i
          let s := { s with isl := refresh i }
          islandSettle (handover s))

/-- The newest valid safety record of the key (R441). -/
def newestSafety (k : KeySt) : SafetyRec :=
  if !k.present || !k.readable then .blank
  else if k.safety0.valid && (!k.safety1.valid || k.safety1.seq ≤ k.safety0.seq) then k.safety0
  else if k.safety1.valid then k.safety1 else .blank

/-- ISLAND_SELF_TEST_DONE (R345, R370): the block is read from the key, and the island runs when the stored confirmation
equals the check value it computes. -/
def execIslandSelfTestDone (pass : Bool) (s : State) : Host.Outcome State Fault Refusal :=
  .next (
    if s.isl.state != 1 then s
    else if !pass then
      islandSettle (islandFault { s with dev := osb s.dev 0x1011 0 5 true } 0)
    else
      let r := newestSafety s.dev.key
      let chk := if r.block.length = 0 then 0 else crc32c r.block
      let i := { s.isl with block := r.block, check := chk, conf := r.conf, storedConf := r.conf, insts := [], stopReq := true,
                            mism := 0, soFault := 0, soBad := [], siFault := 0, cause := 0, commissioned := false }
      let s := { s with isl := i, dev := osb (osb s.dev 0x1011 0 5 false) 0x1010 0 5 true }
      islandSettle (islandState s (if r.block.length != 0 && chk = r.conf then 4 else 2)))

/-- The island restarts into Starting with its self-test ahead (R345). -/
def islandStart (s : State) (restart : Bool) : State :=
  let i := if restart then ibump s.isl 6 else s.isl
  let i := { i with commissioned := restart, soFault := 0, soBad := [], vso := s.dev.power.vsoOk }
  islandSettle (islandState { s with isl := i, dev := osb s.dev 0x1010 0 5 false } 1)

/-- ISLAND_RESTART: the signature "rest" (R345, R370). -/
def execIslandRestart (s : State) : Host.Outcome State Fault Refusal :=
  .next (
    if !ready s.dev 5 then { s with dev := answer s.dev .notReady }
    else
      let t := islandStart s true
      { t with dev := answer t.dev .ok })

/-- A safety-commissioning session opens (R345, R369): with the device Stopped, Unconfirmed or Run becomes Commissioning. -/
def openCommission (s : State) : State :=
  if mode s.dev = 2 && (s.isl.state = 2 || s.isl.state = 4) then islandSettle (islandState s 3) else s

/-- The commissioning session closes (R345, R370): the island restarts from the stored block. -/
def closeCommission (s : State) : State := if s.isl.state = 3 then islandStart s true else s

/-- SI_CHANGE_ACCEPTED (R347): the accepted level changes, is stamped and reported. -/
def execSiChangeAccepted (i : SIn) (level : Bool) (s : State) : Host.Outcome State Fault Refusal :=
  .next (
    if s.isl.state = 0 || bit s.isl.si i.val = level then s
    else
      let st := { s.isl with si := setBit s.isl.si i.val level, siT := tput (fun _ => 0) s.isl.siT i.val s.isl.now }
      upd { s with isl := st } (fun d => log d 5 1 (i.val + 256 * b2n level)))

/-- TEST_PULSE of TP_A or TP_B (R348): every pin fed from it must have read low in the hold window. -/
def execTestPulse (srcB : Bool) (low : BitVec 16) (s : State) : Host.Outcome State Fault Refusal :=
  .next (
    if s.isl.state = 0 || s.isl.state = 5 then s
    else
      let f := (List.range 16).foldl (fun m p =>
        if rd (blkPin s.isl.block p) 2 1 = (if srcB then 2 else 1) then setBit m p (!bit low.toNat p) else m) s.isl.siFault
      let i : IslandSt := { s.isl with siFault := f }
      let i := if i.state = 4 then (List.range (blkFns i.block)).foldl (fun (i : IslandSt) n => if testFault i n then instFault i n 1 else i) i else i
      islandSettle { s with isl := i })

/-- SO_OFF_PULSE (R357): a pin that is on is pulsed off and must read low; otherwise its pair has an output fault. -/
def execSoOffPulse (o : SoPair) (pinB low : Bool) (s : State) : Host.Outcome State Fault Refusal :=
  .next (
    let p := 2 * o.val + b2n pinB
    if bit s.isl.so p && !low && !bit s.isl.soFault o.val then
      islandSettle { s with isl := ibump { s.isl with soFault := setBit s.isl.soFault o.val true } 4 }
    else s)

/-- DISCREPANCY_TIMEOUT (R351): a discrepancy that lasts longer than t_disc takes the instance into Fault. -/
def execDiscrepancyTimeout (f : Fin 64) (s : State) : Host.Outcome State Fault Refusal :=
  .next (
    let dis := discrepant s.isl f.val
    if s.isl.state = 4 && f.val < blkFns s.isl.block && (dis.1 || dis.2) then islandSettle { s with isl := instFault s.isl f.val 2 }
    else s)

/-- PERMIT_DELAY_END (R352): t_d1 after entry into Demand the permit of a category 1 instance falls. -/
def execPermitDelayEnd (f : Fin 64) (s : State) : Host.Outcome State Fault Refusal :=
  .next (
    let x := inst s.isl f.val
    if s.isl.state = 4 && f.val < blkFns s.isl.block && x.timer.isSome then
      islandSettle { s with isl := setInst s.isl f.val { x with permit := false, timer := none, unlockT := 0 } }
    else s)

/-- UNLOCK_RUNDOWN_END (R353): t_rd after the permit fell the unlock consumer switches on. -/
def execUnlockRundownEnd (f : Fin 64) (s : State) : Host.Outcome State Fault Refusal :=
  .next (
    let x := inst s.isl f.val
    if s.isl.state = 4 && f.val < blkFns s.isl.block && rd (blkFn s.isl.block f.val) 0 1 = 2 && unlockReq s.isl f.val && !x.permit then
      islandSettle { s with isl := setInst s.isl f.val { x with unlockOn := true } }
    else s)

/-- Whether a source names what the block defines (R367, R368). -/
def srcDefined (b : Bytes) (src : Nat) : Bool := src < 16 || (src / 0x4000 = 1 && bits src 6 2 = 0 && bits src 8 6 < blkIns b && src % 64 < 32)

/-- Whether a reset or unlock source that is a node bit belongs to a safety node of its line's mould (R368). -/
def srcOnSafetyNode (d : Dev) (b : Bytes) (src : Nat) : Bool :=
  if src / 0x4000 = 1 then
    let e := blkIn b (bits src 8 6)
    lineSafety (mould d (8 + rd e 0 1)) (rd e 1 2)
  else true

/-- The checks of one function entry (R351, R367, R368). -/
def fnOk (d : Dev) (b e : Bytes) : Bool :=
  let k := rd e 0 1
  let s := fun n => rd e (4 + 2 * n) 2
  let rst := rd e 12 2
  let ul := rd e 14 2
  let need := if k = 2 then 3 else if k = 3 then 4 else 2
  1 ≤ k && k ≤ 4 && rd e 1 1 ≤ 1 && rd e 2 1 ≤ 1 && rd e 3 1 ≤ 1 &&
  (List.range 4).all (fun n => if n < need then srcDefined b (s n) else s n = 0xFFFF || srcDefined b (s n)) &&
  (rst = 0xFFFF || (srcDefined b rst && srcOnSafetyNode d b rst)) &&
  (ul = 0xFFFF || ul = 0xFFFE || (srcDefined b ul && srcOnSafetyNode d b ul)) &&
  10 ≤ rd e 16 2 && rd e 16 2 ≤ 2000 && rd e 18 2 ≤ 30000 && rd e 20 2 ≤ 1000 && rd e 22 2 ≤ 60000 &&
  !(k = 1 && rd e 2 1 = 0) && !(rd e 2 1 = 1 && rst = 0xFFFF) &&
  !((k = 3 || k = 4) && (rst != 0xFFFF || rd e 2 1 = 1)) &&
  !(k = 4 && rd e 16 2 * 1000 ≤ rd e 20 2)

/-- Whether a consumer code is one of R355. -/
def codeOk (c : Nat) : Bool :=
  c < 4 || (0x10 ≤ c && c < 0x14) || (0x1000 ≤ c && c < 0x1200 && 1 ≤ c % 0x40 && c % 0x40 ≤ 48) || (0x2000 ≤ c && c < 0x4000)

/-- The check of a safety parameter block at its write (R366-R368). -/
def blockOk (d : Dev) (b : Bytes) : Bool :=
  let codes := (List.range (blkCons b)).map (fun c => rd (blkCon b c) 0 2)
  96 ≤ b.length && b.length = 96 + 4 * blkIns b + 24 * blkFns b + 12 * blkCons b &&
  rd b 0 1 = 1 && blkFns b ≤ 64 && blkCons b ≤ 1024 && blkIns b ≤ 64 && blkDomain b != 0 &&
  250 ≤ rd b 8 2 && rd b 8 2 ≤ 10000 && 20 ≤ rd b 10 2 && rd b 10 2 ≤ 1000 && 1 ≤ rd b 12 2 && rd b 12 2 ≤ 100 &&
  100 ≤ rd b 14 2 && rd b 14 2 ≤ 800 && rd b 16 1 < 16 && (slice b 18 14).all (· = 0) &&
  (List.range 16).all (fun p => 100 ≤ rd (blkPin b p) 0 2 && rd (blkPin b p) 0 2 ≤ 3000 && rd (blkPin b p) 2 1 ≤ 2 &&
    (rd (blkPin b p) 3 1 = 1 || rd (blkPin b p) 3 1 = 3)) &&
  (List.range (blkIns b)).all (fun n => rd (blkIn b n) 0 1 < 4 && rd (blkIn b n) 1 2 < 1024 && rd (blkIn b n) 3 1 = 0) &&
  (List.range (blkFns b)).all (fun f => fnOk d b (blkFn b f)) &&
  codes.all codeOk && decide codes.Nodup &&
  (List.range 4).all (fun n => !(codes.contains n && codes.contains (0x10 + n))) &&
  (List.range (blkCons b)).all (fun c => rd (blkCon b c) 2 2 = 0 &&
    (if 0x10 ≤ rd (blkCon b c) 0 2 && rd (blkCon b c) 0 2 < 0x14 then
       let fs := (List.range 64).filter (fun f => bit (rd (blkCon b c) 4 8) f)
       (match fs with | [f] => f < blkFns b && rd (blkFn b f) 0 1 = 2 | _ => false)
     else true))

/-- Status of a write of the RWC objects: the island ready and Commissioning (R28, R346). -/
def commissionStatus (s : State) : Status :=
  if !ready s.dev 5 then .notReady else if s.isl.state != 3 then .state else .ok

/-- The write of 0x3A10 once its bytes are complete (R35, R366-R368). -/
def blockWrite (s : State) (data : Bytes) : State × Status :=
  match commissionStatus s with
  | .ok =>
    if 16384 < data.length then (s, .length)
    else if !blockOk s.dev data then (s, .range)
    else ({ s with isl := { s.isl with block := data, check := crc32c data } }, .ok)
  | st => (s, st)

/-- SAFETY_BLOCK_WRITE (R366-R369). -/
def execSafetyBlockWrite (data : Bytes) (s : State) : Host.Outcome State Fault Refusal :=
  .next (let (t, st) := blockWrite s data; { t with dev := answer t.dev st })

/-- The write of 0x3A01: accepted only when it equals the computed check value (R369). -/
def confirmWrite (s : State) (v : Nat) : State × Status :=
  match commissionStatus s with
  | .ok => if v = s.isl.check then ({ s with isl := { s.isl with conf := v } }, .ok) else (s, .range)
  | st => (s, st)

/-- CONFIRMATION_WRITE (R369). -/
def execConfirmationWrite (v : BitVec 32) (s : State) : Host.Outcome State Fault Refusal :=
  .next (let (t, st) := confirmWrite s v.toNat; { t with dev := answer t.dev st })

/-- The command "stor" (R369, R370, R415): the record is copied for the key. -/
def safetyStore (s : State) : State × Status :=
  match commissionStatus s with
  | .ok =>
    if s.isl.conf != s.isl.check || bit (og s.dev 0x2000 1) 0 then (s, .state)
    else if s.isl.storing.isSome then (s, .busy)
    else
      let r : SafetyRec := ⟨true, (newestSafety s.dev.key).seq + 1, s.isl.check, s.isl.conf, s.isl.block⟩
      ({ s with isl := { s.isl with storing := some r, storeStatus := 1 } }, .ok)
  | st => (s, st)

/-- SAFETY_STORE (R369, R370). -/
def execSafetyStore (s : State) : Host.Outcome State Fault Refusal :=
  .next (let (t, st) := safetyStore s; { t with dev := answer t.dev st })

/-- SAFETY_STORE_COMPLETE (R369, R441): the older copy now holds the record, or the store failed. -/
def execSafetyStoreComplete (ok : Bool) (s : State) : Host.Outcome State Fault Refusal :=
  .next (
    match s.isl.storing with
    | none => s
    | some r =>
      if ok && s.dev.key.present && s.dev.key.readable && !bit (og s.dev 0x2000 1) 0 then
        let k := s.dev.key
        let older1 := k.safety0.valid && (!k.safety1.valid || k.safety1.seq ≤ k.safety0.seq)
        let k := if older1 then { k with safety1 := r } else { k with safety0 := r }
        { s with dev := { s.dev with key := k }, isl := { s.isl with storing := none, storeStatus := 2, storedConf := r.conf } }
      else { s with isl := { s.isl with storing := none, storeStatus := 3 } })

/-- VSO_RANGE_CHANGE (R357): outside 19.2-30 V every SO pin is off; inside they resume. -/
def execVsoRangeChange (ok : Bool) (s : State) : Host.Outcome State Fault Refusal :=
  .next (
    let d := osb { s.dev with power := { s.dev.power with vsoOk := ok } } 0x2000 1 4 ok
    islandSettle { s with dev := d, isl := { s.isl with vso := ok } })

/-- A from-node PDU reaches the island's verification (R349, R360). -/
def islandNodePdu (i : IslandSt) (l k : Nat) (p : Bytes) : IslandSt :=
  match (List.range (blkIns i.block)).find? (fun n => rd (blkIn i.block n) 0 1 = l && rd (blkIn i.block n) 1 2 = k) with
  | none => i
  | some n =>
    let x := tget (fun _ => SafeIn.reset) i.nodeIn n
    if pduGood (blkDomain i.block) p && rd p 0 2 = 0x4000 + 1024 * l + k && x.seq != some (rd p 2 2) then
      { i with nodeIn := tput (fun _ => SafeIn.reset) i.nodeIn n ⟨some (rd p 2 2), some 0, rd p 4 8⟩ }
    else if pduGood (blkDomain i.block) p && rd p 0 2 = 0x4000 + 1024 * l + k then
      { i with nodeIn := tput (fun _ => SafeIn.reset) i.nodeIn n { x with bits := x.bits &&& rd p 4 8 } }
    else i

/-- A PDU of the partner island in the safety buffer, verified under R360 (R363). -/
def islandPartnerPdu (i : IslandSt) (p : Bytes) : IslandSt :=
  let conn := rd p 0 2
  let x := tget (fun _ => SafeIn.reset) i.partner conn
  if pduGood (blkDomain i.block) p && x.seq != some (rd p 2 2) then
    { i with partner := tput (fun _ => SafeIn.reset) i.partner conn ⟨some (rd p 2 2), some 0, rd p 4 8⟩ }
  else if pduGood (blkDomain i.block) p then
    { i with partner := tput (fun _ => SafeIn.reset) i.partner conn { x with bits := x.bits &&& rd p 4 8 } }
  else i

/-- PAIR_SAFETY_MESSAGE (R363). -/
def execPairSafetyMessage (crcOk : Bool) (pdus : List Bytes) (s : State) : Host.Outcome State Fault Refusal :=
  .next (
    if !crcOk then upd s badMessage
    else if ready s.dev 31 && s.isl.state != 0 then
      islandSettle { s with isl := pdus.foldl islandPartnerPdu s.isl, dev := { s.dev with pair := { s.dev.pair with safety := pdus } } }
    else s)

end Sys2Proof.Machine
end

