-- ==== Sys2Proof/Machine/Faults.lean ====
section
/-! DEFINITION. The fault collector's commands (R374-R394) and self-tests (R10, R45, R442). -/
namespace Sys2Proof.Machine

/-- A byte read from the scratchpad of cluster c fails its parity (R403): counted; it stays so until it is written again. -/
def padError (d : Dev) (c a : Nat) : Dev :=
  let p := pad d c
  let d := bump d 0x3E40 (c + 1)
  if a < 2 ^ 18 && !p.bad.contains a then setPad d c { p with bad := p.bad ++ [a] } else d

/-- SOURCE_ASSERTION (R374-R387, R527). Reserved sources are never asserted, nor is that of a
domain that is off (R420). A source in a wire fault whose rails return to
the asserted code stays live without a new assertion (R375). -/
def execSourceAssertion (src : Src) (cause : BitVec 16) (datum : BitVec 32) (s : State) : Host.Outcome State Fault Refusal :=
  .next (
    if reservedSource src.val || (8 ≤ src.val && src.val ≤ 15 && !bit (og s.dev 0x2010 1) (src.val - 8)) then s
    else upd s (fun d =>
      if bit d.fc.wire src.val then
        { d with fc := { d.fc with wire := setBit d.fc.wire src.val false
                                   cond := if levelSource src.val then setBit d.fc.cond src.val true else d.fc.cond } }
      else report (if 32 ≤ src.val && src.val ≤ 39 then padError d (src.val - 32) datum.toNat else d) src.val cause.toNat datum.toNat))

/-- SOURCE_DEASSERTED (R375, R527): the rails show the deasserted code again. -/
def execSourceDeasserted (src : Src) (s : State) : Host.Outcome State Fault Refusal :=
  .next (upd s (fun d => deassert { d with fc := { d.fc with wire := setBit d.fc.wire src.val false } } src.val))

/-- WIRE_FAULT (R375): an invalid rail code for more than 2 fabric clocks counts as an assertion and marks the wire-fault
map; a shorter one is ignored. Both invalid codes act alike. -/
def execWireFault (src : Src) (_both : Bool) (clocks : BitVec 16) (s : State) : Host.Outcome State Fault Refusal :=
  .next (
    if clocks.toNat ≤ 2 then s
    else upd s (fun d =>
      let d := (assertReport d ⟨src.val, 0, 0, true, false, 0⟩).1
      let d := osb d 0x3802 (src.val / 64 + 1) (src.val % 64) true
      { d with fc := { d.fc with wire := setBit d.fc.wire src.val true } }))

/-- A function becomes usable (R7): the collector numbers what waited for it (R376), the pulse inputs restart (R157), and the Ethernet
link layer looks for its DHCP server (R466) and reports a port without link (R527). -/
def gainedBit (d : Dev) (b : Nat) : Dev :=
  if b = 2 then { d with fc := { d.fc with todo := d.fc.held ++ d.fc.todo, held := [] } }
  else if b = 16 then
    (List.range 16).foldl (fun d i => setPls d i { pls d i with restart := true, invalid := true, tp := none, v := 0 }) d
  else if b = 30 then
    let d := (List.range 2).foldl (fun d p => if og d (0x2F08 + p) 1 != 0 && og d (0x2F08 + p) 5 = 1 then dhcpDiscover d p else d) d
    if og d 0x2F08 1 = 0 then later d 188 0 0 else if og d 0x2F09 1 = 0 then later d 188 0 1 else d
  else d

/-- Sets a readiness bit after a passed self-test when every dependency of R10 holds. -/
def setReady (d : Dev) (b : Nat) : Dev :=
  let m := setBit (og d 0x1010 0) b true
  if bit (closeReady d m) b then gainedBit (os d 0x1010 0 m) b else d

/-- Whether a self-test of function b may complete now: not done before, its domain within its window, the parameter load
over (R10, R45, R442). -/
def testDue (d : Dev) (b : Nat) : Bool :=
  b != 5 && b != 1 && !bit (og d 0x1010 0) b && !bit (og d 0x1011 0) b &&
  (blockDomain b = 1 || bit (og d 0x2010 2) (blockDomain b)) &&
  (b = 0 || b = 2 || b = 3 || b = 4 || bit (og d 0x1010 0) 1 || bit (og d 0x1011 0) 1)

/-- BLOCK_SELF_TEST_DONE (R45, R384, R442). -/
def execBlockSelfTestDone (b : Fin 32) (pass : Bool) (s : State) : Host.Outcome State Fault Refusal :=
  .next (
    if s.dev.power.booted && testDue s.dev b.val then
      upd s (fun d => if pass then setReady d b.val else report (osb d 0x1011 0 b.val true) 186 0 b.val)
    else s)

/-- The write of "clar" (R382, R386): an item of its own; the latch, the overflow bit and the wire-fault map clear, and the
external pins release when no source with the E reaction is live. -/
def latchClear (d : Dev) : Dev :=
  let d := (number d).1
  let d := (List.range 8).foldl (fun d i => os d 0x3800 (i + 1) (objDefault (okey 0x3800 (i + 1)))) d
  let d := (List.range 3).foldl (fun d i => os d 0x3802 (i + 1) 0) d
  if (List.range 192).any (fun s => live d s && bit (og d (0x3900 + s) 1) 4) then d
  else { d with fc := { d.fc with errPins := false } }

/-- LATCH_CLEAR (R386). -/
def execLatchClear (s : State) : Host.Outcome State Fault Refusal :=
  .next (upd s (fun d => if ready d 2 then answer (latchClear d) .ok else answer d .notReady))

/-- A write of a force bit (R391). -/
def forceWrite (d : Dev) (src : Nat) (v : Bool) : Dev × Status :=
  if !ready d 2 then (d, .notReady)
  else if reservedSource src then (d, .range)
  else if v && og d 0x3830 1 = 0 then (d, .state)
  else if v then
    (if forced d src then (d, .ok)
     else (os (assertReport d ⟨src, 0, 0, false, true, 0⟩).1 (0x3900 + src) 3 1, .ok))
  else (os d (0x3900 + src) 3 0, .ok)

/-- FORCE_WRITE (R391). -/
def execForceWrite (src : Src) (v : Bool) (s : State) : Host.Outcome State Fault Refusal :=
  .next (upd s (fun d => let (d, st) := forceWrite d src.val v; answer d st))

/-- A write of the force enable; clearing it clears every force bit (R391). -/
def forceEnableWrite (d : Dev) (v : Bool) : Dev × Status :=
  if !ready d 2 then (d, .notReady)
  else if v then (os d 0x3830 1 1, .ok)
  else ((List.range 192).foldl (fun d s => os d (0x3900 + s) 3 0) (os d 0x3830 1 0), .ok)

/-- FORCE_ENABLE_WRITE (R391). -/
def execForceEnableWrite (v : Bool) (s : State) : Host.Outcome State Fault Refusal :=
  .next (upd s (fun d => let (d, st) := forceEnableWrite d v; answer d st))

/-- A write of a statistics counter (R388): 0 clears it, any other value is out of range. -/
def counterWrite (s : State) (idx sub v : Nat) : State × Status :=
  if !indexKnown idx then (s, .noObject)
  else if (findRow idx sub).isNone then (s, .noSub)
  else if !isCounter idx sub then (s, .range)
  else if !ready s.dev (ownerBit s.dev idx) then (s, .notReady)
  else if v != 0 then (s, .range)
  else if idx = 0x3A30 then ({ s with isl := { s.isl with counters := tput (fun _ => 0) s.isl.counters sub 0 } }, .ok)
  else ({ s with dev := os s.dev idx sub 0 }, .ok)

/-- COUNTER_CLEAR (R388); an object that is no statistics counter is not cleared by it. -/
def execCounterClear (idx : BitVec 16) (sub : BitVec 8) (v : BitVec 32) (s : State) : Host.Outcome State Fault Refusal :=
  .next (let (t, st) := counterWrite s idx.toNat sub.toNat v.toNat; { t with dev := answer t.dev st })

end Sys2Proof.Machine
end

