-- ==== Sys2Proof/Machine/Memory.lean ====
section
/-! DEFINITION. The shared memory, its ports and its tests (R395-R409). -/
namespace Sys2Proof.Machine

/-- What a byte of shared memory that nothing has written reads as (log 4). -/
def memDefault (_ : Nat) : Byte := 0

/-- The canonical form of the memory: addresses strictly rising, nothing listed that reads as an unlisted byte does. -/
def Memory.wf (cells : List Host.Cell) : Bool := twf memDefault cells

/-- One byte of shared memory. -/
def memByte (m : MemSt) (a : Nat) : Byte := tget memDefault m.cells a
/-- Writes one byte. -/
def memPut (m : MemSt) (a : Nat) (b : Byte) : MemSt := { m with cells := tput memDefault m.cells a b }
/-- n bytes from address a. -/
def memRead (m : MemSt) (a n : Nat) : Bytes := (List.range n).map (fun i => memByte m (a + i))
/-- Writes bytes from address a. -/
def memWrite (m : MemSt) (a : Nat) : Bytes → MemSt
  | [] => m
  | b :: bs => memWrite (memPut m a b) (a + 1) bs

/-- One access within one 64-bit word (R397): `word` is the address divided by 8. -/
structure WordOp where
  port  : Nat
  write : Bool
  word  : Nat
  off   : Nat
  data  : Bytes
  upset : Nat
  aged  : Bool
  deriving DecidableEq, Repr

/-- Bank of a word (R395). -/
def bankOf (word : Nat) : Nat := word % 16

/-- A single-bit error found by a read (R400): corrected, counted and queued for a scrub. -/
def corrected (s : State) (w : Nat) : State :=
  let d := bump s.dev (0x3E10 + bankOf w) 1
  let q := if d.memt.scrubs.contains w then d.memt.scrubs else d.memt.scrubs ++ [w]
  { s with dev := { d with memt := { d.memt with corr := d.memt.corr + 1, scrubs := q } } }

/-- A double-bit error found by a read (R401). -/
def uncorrected (s : State) (w : Nat) : State :=
  { s with dev := later (bump s.dev (0x3E10 + bankOf w) 3) (16 + bankOf w) 0 (w * 8) }

/-- A word is written with fresh check bits (R398, R400): its errors are gone and its scrub is cancelled. -/
def freshWord (s : State) (w : Nat) : State :=
  { s with mem := { s.mem with single := s.mem.single.filter (· != w), bad := s.mem.bad.filter (· != w) }
           dev := { s.dev with memt := { s.dev.memt with scrubs := s.dev.memt.scrubs.filter (· != w) } } }

/-- The word gains the error that the request says it holds by now. -/
def upsetWord (s : State) (op : WordOp) : State :=
  if op.upset = 1 then
    (if s.mem.single.contains op.word || s.mem.bad.contains op.word then s
     else { s with mem := { s.mem with single := s.mem.single ++ [op.word] } })
  else if op.upset = 2 then
    (if s.mem.bad.contains op.word then s
     else { s with mem := { s.mem with bad := s.mem.bad ++ [op.word], single := s.mem.single.filter (· != op.word) } })
  else s

/-- The bank's response to a port. -/
def respond (s : State) (port resp data : Nat) : State := { s with dev := emit s.dev (.memory port resp data) }

/-- Serves one access (R397, R398, R400, R401). -/
def serve (s : State) (op : WordOp) : State :=
  let s := upsetWord s op
  let w := op.word
  if op.write then
    if op.data.length = 8 then
      respond { (freshWord s w) with mem := memWrite (freshWord s w).mem (w * 8) op.data } op.port 0 0
    else if s.mem.bad.contains w then respond (uncorrected s w) op.port 1 0
    else
      let s := if s.mem.single.contains w then corrected s w else s
      let s := freshWord s w
      respond { s with mem := memWrite s.mem (w * 8 + op.off) op.data } op.port 0 0
  else
    let v := ofLe (memRead s.mem (w * 8 + op.off) op.data.length)
    if s.mem.bad.contains w then respond (uncorrected s w) op.port 1 v
    else if s.mem.single.contains w then respond (corrected s w) op.port 0 v
    else respond s op.port 0 v

/-- Whether an access goes before another in its bank (R396): aged requests first, then ascending port number. -/
def opBefore (a b : WordOp) : Bool := if a.aged = b.aged then a.port ≤ b.port else a.aged

/-- Inserts an access in service order. -/
def opInsert (a : WordOp) : List WordOp → List WordOp
  | [] => [a]
  | b :: t => if opBefore a b then a :: b :: t else b :: opInsert a t

/-- Whether a write loses the clock to another port's write of the same word (R399). -/
def loses (ops : List WordOp) (op : WordOp) : Bool :=
  op.write && ops.any (fun o => o.write && o.word = op.word && o.port < op.port)

/-- A collision response (R399). -/
def collide (s : State) (op : WordOp) : State :=
  respond { s with dev := bump s.dev (0x3E30 + op.port) 1 } op.port 2 0

/-- The clocks that follow a collision (R399): each loser repeats its write; a hardware master whose retry collides again
loses the write, and P13 repeats until its write is done. -/
def retries : Nat → State → List WordOp → State
  | 0, s, _ => s
  | n + 1, s, ops =>
    let again := ops.filter (loses ops)
    let s := (ops.filter (fun o => !loses ops o)).foldl serve s
    let s := again.foldl collide s
    let s := (again.filter (fun o => o.port != 13)).foldl (fun s o =>
      respond { s with dev := later (bump s.dev (0x3E30 + o.port) 2) 42 0 o.port } o.port 4 0) s
    let rest := again.filter (fun o => o.port = 13)
    if rest.isEmpty then s else retries n s rest

/-- One fabric clock's accesses and the retries they cause. -/
def serveClock (s : State) (ops : List WordOp) : State :=
  let ops := ops.foldl (fun t o => opInsert o t) []
  let losers := ops.filter (loses ops)
  let s := (ops.filter (fun o => !loses ops o)).foldl serve s
  let s := losers.foldl collide s
  if losers.isEmpty then s else retries 16 s losers

/-- A request's access to the lower or only word, and to the higher word when it crosses (R397). -/
def halves (r : MemReq) : WordOp × Option WordOp :=
  let a := r.addr.toNat
  let n := 2 ^ r.size.val
  let b := leBytes n r.data.toNat
  let room := 8 - a % 8
  let first : WordOp := ⟨r.port.val, r.write, a / 8, a % 8, b.take room, r.upset.val, r.aged⟩
  (first, if room < n then some ⟨r.port.val, r.write, (a / 8 + 1) % 2 ^ 20, 0, b.drop room, 0, r.aged⟩ else none)

/-- A request that fails its parity: discarded, counted, source 41 (R402). -/
def parityFail (s : State) (r : MemReq) : State :=
  { s with dev := later (bump s.dev (0x3E30 + r.port.val) 4) 41 0 r.port.val }

/-- MEMORY_ACCESS: the requests of one fabric clock (R395-R402). -/
def execMemoryAccess (reqs : List MemReq) (s : State) : Host.Outcome State Fault Refusal :=
  .next (
    if !ready s.dev 3 then reqs.foldl (fun s r => respond s r.port.val 3 0) s
    else
      let s := (reqs.filter (·.parity)).foldl parityFail s
      let good := reqs.filter (fun r => !r.parity)
      let hs := good.map halves
      let s := hs.foldl (fun s h => match h.2 with
        | some o => { s with dev := bump s.dev (0x3E30 + o.port) 3 }
        | none => s) s
      let s := serveClock s (hs.map (·.1))
      let s := serveClock s (hs.filterMap (·.2))
      upd s id)

/-- SCRUB: the oldest corrected word is written back (R400). -/
def execScrub (s : State) : Host.Outcome State Fault Refusal :=
  .next (
    match s.dev.memt.scrubs with
    | [] => s
    | w :: rest =>
      let d := bump { s.dev with memt := { s.dev.memt with scrubs := rest } } (0x3E10 + bankOf w) 2
      upd { s with dev := d, mem := { s.mem with single := s.mem.single.filter (· != w) } } id)

/-- CORRECTION_RATE_CHECK at the end of a second of local time (R400). -/
def execCorrectionRateCheck (s : State) : Host.Outcome State Fault Refusal :=
  .next (upd s (fun d =>
    let n := d.memt.corr
    let d := { d with memt := { d.memt with corr := 0 } }
    if 16 < n then report d 44 0 0 else d))

/-- The words of region r of bank b (R404). -/
def regionWords (b r : Nat) : List Nat := (List.range 32).map (fun i => (32 * r + i) * 16 + b)

/-- The banks the background test still tests: those without a retired region (R406). -/
def testedBanks (d : Dev) : List Nat := (List.range 16).filter (fun b => !bit (og d 0x3E00 4) b)

/-- Retires region r of bank b in favour of the spare (R406). -/
def retire (d : Dev) (b r : Nat) : Dev :=
  osb (os (later d 43 0 (b * 65536 + r)) (0x3E10 + b) 4 r) 0x3E00 4 b true

/-- Region r of the banks still tested is copied word by word through SECDED: single-bit errors are corrected in the copy and counted,
double-bit errors stay (R405). -/
def copyRegion (s : State) (r : Nat) : State :=
  let ws := (testedBanks s.dev).flatMap (fun b => (regionWords b r).filter (fun w => s.mem.single.contains w))
  { s with dev := ws.foldl (fun d w =>
             bump { d with memt := { d.memt with corr := d.memt.corr + 1, scrubs := d.memt.scrubs.filter (· != w) } } (0x3E10 + bankOf w) 1) s.dev
           mem := { s.mem with single := s.mem.single.filter (fun w => !ws.contains w) } }

/-- BACKGROUND_TEST_REGION: save and March C− of the region of this millisecond (R404-R406). The banks of `fails` fail a check and keep
the spare. Accesses of the March phase reach the spare, which stands for the region (R405): the model has one copy of the words. -/
def execBackgroundTestRegion (fails : BitVec 16) (s : State) : Host.Outcome State Fault Refusal :=
  .next (
    if !ready s.dev 3 || og s.dev 0x3E00 1 = 0 || s.dev.memt.testing then s
    else
      let r := s.dev.memt.ms % 2048
      let s := copyRegion s r
      let bad := (testedBanks s.dev).filter (fun b => bit fails.toNat b)
      let d := bad.foldl (fun d b => retire d b r) (os s.dev 0x3E00 2 r)
      upd { s with dev := { d with memt := { d.memt with testing := true } } } id)

/-- REGION_RESTORE: the region's words are copied back into place, and the pass goes on (R404, R405, R407). -/
def execRegionRestore (s : State) : Host.Outcome State Fault Refusal :=
  .next (
    if !s.dev.memt.testing then s
    else
      let t := s.dev.memt
      let s := copyRegion s (t.ms % 2048)
      let d := { s.dev with memt := { s.dev.memt with testing := false, ms := t.ms + 1 } }
      upd { s with dev := if (t.ms + 1) % 2048 = 0 then bump d 0x3E00 3 else d } id)

/-- Status of a write of a "key" object once its session is admitted (R36). -/
def keyStatus (d : Dev) (bitOwner : Nat) : Status :=
  if !ready d bitOwner || !ready d 1 then .notReady else .ok

/-- BACKGROUND_TEST_ENABLE (R407). -/
def execBackgroundTestEnable (on : Bool) (s : State) : Host.Outcome State Fault Refusal :=
  .next (upd s (fun d =>
    match keyStatus d 0 with
    | .ok => answer (os d 0x3E00 1 (b2n on)) .ok
    | st => answer d st))

/-- The command "test" (R408): accepted only in Service. -/
def fullTest (d : Dev) : Dev × Status :=
  if !ready d 3 then (d, .notReady)
  else if mode d != 5 then (d, .state)
  else if og d 0x3E50 2 = 1 then (d, .busy)
  else (os (os (os d 0x3E50 2 1) 0x3E50 3 0) 0x3E50 4 0, .ok)

/-- FULL_MEMORY_TEST (R408). -/
def execFullMemoryTest (s : State) : Host.Outcome State Fault Refusal :=
  .next (upd s (fun d => let (d, st) := fullTest d; answer d st))

/-- FULL_MEMORY_TEST_END (R408): the shared memory is cleared, what the scratchpads and the acquisition store held is lost, retired regions
are released, and a failure is reported with the failing memory (0 for none) and its first failing byte address. The spec gives a
failing spare no region: its number is a free value (log 101). -/
def execFullMemoryTestEnd (mem : Fin 12) (addr : BitVec 32) (s : State) : Host.Outcome State Fault Refusal :=
  .next (
    if og s.dev 0x3E50 2 != 1 then s
    else
      let d := (List.range 16).foldl (fun d b => os d (0x3E10 + b) 4 0xFFFF) (os s.dev 0x3E00 4 0)
      let d := storeLost { d with memt := { d.memt with scrubs := [] }, pads := [] }
      let d := os (os (os d 0x3E50 2 (if mem.val = 0 then 2 else 3)) 0x3E50 3 addr.toNat) 0x3E50 4 mem.val
      let w := addr.toNat / 8
      let d :=
        if mem.val = 0 then d
        else if mem.val = 1 then retire d (bankOf w) (w / 16 / 32)
        else if mem.val = 2 then (let (r, d) := freeVal d 11; retire d (w / 32 % 16) r)
        else
          let b := if mem.val = 11 then 17 else 6 + (mem.val - 3)
          later (osb (clearReady d [b]) 0x1011 0 b true) 43 0 ((0xFF00 + mem.val) * 65536)
      upd { s with dev := d, mem := .reset } id)

end Sys2Proof.Machine
end

