-- ==== Sys2Proof/Machine/Params.lean ====
section
/-! DEFINITION. Persistence in the pattern key: parameter sets (R38-R42, R438-R440), the journal (R455) and what a changed
parameter brings with it. -/
namespace Sys2Proof.Machine

/-- Whether an object is marked "key" (R29). -/
def isKey (k : Nat) : Bool :=
  match findRow (k / 256) (k % 256) with
  | some r => r.key
  | none => false

/-- Whether a key write can work: a key read at this bring-up is present (R434). -/
def keyUsable (d : Dev) : Bool := d.key.present && d.key.readable
/-- Whether a supply warning is in force (0x2000.01 bit 0). -/
def warning (d : Dev) : Bool := bit (og d 0x2000 1) 0

/-- Whether an object is a mould (R223). -/
def isMould (k : Nat) : Bool := 0x330000 ≤ k && k < 0x330C00

/-- Size of the entries of a set (R439): 5 bytes and the value for each "key" object that differs from its default; moulds
have their own area. -/
def entryBytes (nums : List (Nat × Nat)) (strs : List (Nat × Bytes)) : Nat :=
  (nums.map (fun p => 5 + (match findRow (p.1 / 256) (p.1 % 256) with | some r => r.ty.size | none => 0))).sum +
  ((strs.filter (fun p => !isMould p.1)).map (fun p => 5 + p.2.length)).sum

/-- Whether a set is valid (R438). -/
def setValid (p : ParamSet) : Bool := p.format = 1 && p.sums
/-- Set state code of 0x2E00.06. -/
def setState (p : ParamSet) : Nat := if setValid p then 1 else if p.format = 0 then 0 else 2

/-- Whether set B is the newest valid one; none when no set is valid (R440). -/
def newestSet (k : KeySt) : Option Bool :=
  if setValid k.setA && setValid k.setB then
    let diff := (k.setA.seq + 2 ^ 32 - k.setB.seq) % 2 ^ 32
    some (!(1 ≤ diff && diff < 2 ^ 31))
  else if setValid k.setA then some false
  else if setValid k.setB then some true
  else none

/-- The newest valid set. -/
def newestParams (k : KeySt) : Option ParamSet := (newestSet k).map (fun b => if b then k.setB else k.setA)

/-- The set objects of 0x2E00 and 0x2E10.03 follow the key (R40, R451). -/
def syncSets (d : Dev) : Dev :=
  let k := d.key
  let d := os (os d 0x2E00 5 k.setA.seq) 0x2E00 6 (setState k.setA)
  let d := os (os d 0x2E00 7 k.setB.seq) 0x2E00 8 (setState k.setB)
  match newestParams k with
  | some p => os (os d 0x2E10 3 p.seq) 0x2E00 0x0A p.bytes
  | none => os (os d 0x2E10 3 0) 0x2E00 0x0A 0

/-- The domains whose enable bit fell lose their blocks at once and are switched off; those whose bit is set come into their windows later,
and their blocks repeat the self-test whether or not it passed before (R420). -/
def applyMask (d : Dev) (old new : Nat) : Dev :=
  (List.range 8).foldl (fun d n =>
    if bit old n && !bit new n then deassert (clearReady (osb d 0x2010 2 n false) (domainBlocks n)) (8 + n)
    else if !bit old n && bit new n then os d 0x1011 0 (clearBits (og d 0x1011 0) (domainBlocks n)) else d) d

/-- The configuration of PTP domain n. -/
def domConfig (d : Dev) (n : Nat) : List Nat := (List.range 10).map (fun i => og d (0x3420 + n) (i + 1))

/-- Working values of every "key" object from lists of values; the objects in `keep` stay. Segments whose mould changed take
it up at their next boundary (R245), a changed PTP domain passes through Disabled (R287). -/
def loadKeys (d : Dev) (keep : Nat → Bool) (nums : List (Nat × Nat)) (strs : List (Nat × Bytes)) : Dev :=
  let old := og d 0x2010 1
  let olds := (List.range 12).map (mould d)
  let doms := (List.range 2).map (domConfig d)
  let o := d.objs.filter (fun p => !isKey p.1 || keep p.1)
  let b := d.blobs.filter (fun p => !isKey p.1 || keep p.1)
  let o := nums.foldl (fun t p => if keep p.1 then t else tput objDefault t p.1 p.2) o
  let b := strs.foldl (fun t p => if keep p.1 then t else tput blobDefault t p.1 p.2) b
  let d := syncMoulds { d with objs := o, blobs := b }
  let d := (List.range 12).foldl (fun d g =>
    let old := olds.getD g []
    if old != ob d (0x3300 + g) 0 && segState d g = 4 then setSeg d g { seg d g with swap := some old } else d) d
  let d := os d 0x2F10 2 (b2n ((ob d 0x2F10 1).length != 0))
  let d := (List.range 2).foldl (fun d n =>
    if doms.getD n [] = domConfig d n then d else domEnable (domDisable d n) n) d
  if bit (og d 0x1010 0) 0 then applyMask d old (og d 0x2010 1) else d

/-- The "key" objects' working values as a set holds them (R41, R439). -/
def keyValues (d : Dev) : List (Nat × Nat) × List (Nat × Bytes) :=
  (d.objs.filter (fun p => isKey p.1), d.blobs.filter (fun p => isKey p.1))

/-- A store or restore command meets management that is not ready, a supply warning or another of its kind (R7, R41, R415). -/
def storeBusy (d : Dev) : Option Status :=
  if !ready d 0 then some .notReady
  else if warning d then some .state
  else if d.mgmt.storing || d.mgmt.reloading then some .busy
  else none

/-- A store that ends failed (R41): its set is not valid, status 0x03, and the event is logged. -/
def storeFail (d : Dev) : Dev :=
  let b := d.mgmt.storeB
  log (os (syncSets { d with mgmt := { d.mgmt with storing := false } }) 0x2E10 2 3) 1 3 (b2n b)

/-- The command "save" (R40, R41, R439): the values are copied at acceptance; a set too large, or no key, ends it at once. -/
def storeParams (d : Dev) : Dev × Status :=
  match storeBusy d with
  | some st => (d, st)
  | none =>
    if mode d = 5 || mode d = 0 then (d, .state)
    else
      let (nums, strs) := keyValues d
      let n := entryBytes nums strs
      let d := os d 0x2E10 4 d.time.k
      if 262096 < n then (log (os d 0x2E10 2 3) 1 4 n, .ok)
      else
        let b := match newestSet d.key with
          | some b => !b
          | none => false
        let sq := match newestParams d.key with
          | some p => (p.seq + 1) % 2 ^ 32
          | none => 1
        let p : ParamSet := { format := 1, seq := sq, cycle := d.time.k, bytes := n, fw := og d 0x1002 2,
                              serial := Config.serial.toNat, sums := true, nums := nums, strs := strs }
        let d := { d with mgmt := { d.mgmt with storing := true, storeB := b, storeSet := p } }
        if !keyUsable d then (storeFail d, .ok)
        else
          let half : ParamSet := { ParamSet.blank with format := 2 }
          let k := if b then { d.key with setB := half } else { d.key with setA := half }
          (syncSets (os { d with key := k } 0x2E10 2 1), .ok)

/-- The end of a store's writing (R41, R440). -/
def storeEnd (d : Dev) (ok : Bool) : Dev :=
  if !d.mgmt.storing then d
  else if ok && keyUsable d && !warning d then
    let p := d.mgmt.storeSet
    let k := if d.mgmt.storeB then { d.key with setB := p } else { d.key with setA := p }
    let d := { d with key := { k with writer := Config.serial.toNat }, mgmt := { d.mgmt with storing := false } }
    os (os (syncSets d) 0x2E10 2 2) 0x2E00 0x0B Config.serial.toNat
  else
    let d := if keyUsable d && !warning d then later (bump d 0x2E00 0x0C) 180 0 0 else d
    storeFail d

/-- Host addressing and the session key, which Restore defaults leaves (R40). -/
def hostKept (k : Nat) : Bool := (0x2F0000 ≤ k && k < 0x2F0200) || k = okey 0x2F10 1

/-- The command Restore defaults (R40, R42). -/
def restoreDefaults (d : Dev) : Dev × Status :=
  match storeBusy d with
  | some st => (d, st)
  | none => if mode d != 2 then (d, .state) else (os (loadKeys d hostKept [] []) 0x2E11 3 2, .ok)

/-- The command Reload stored (R42). -/
def reloadStored (d : Dev) : Dev × Status :=
  match storeBusy d with
  | some st => (d, st)
  | none => if mode d != 2 then (d, .state) else (os { d with mgmt := { d.mgmt with reloading := true } } 0x2E11 3 1, .ok)

/-- The end of Reload stored: the newest valid set's values, or status 0x03 with every value left (R42). -/
def reloadEnd (d : Dev) : Dev :=
  if !d.mgmt.reloading then d
  else
    let d := { d with mgmt := { d.mgmt with reloading := false } }
    match (if keyUsable d then newestParams d.key else none) with
    | some p => os (loadKeys d (fun _ => false) p.nums p.strs) 0x2E11 3 2
    | none => os d 0x2E11 3 3

/-- Appends entries to the journal, which holds the newest 8,192 (R433, R455); the state record's journal count follows
without any other change of the record. -/
def journalAppend (d : Dev) (es : List LogEntry) : Dev :=
  let j := d.key.journal ++ es
  let j := j.drop (j.length - 8192)
  let n := d.key.count + es.length
  let k := { d.key with journal := j, count := n }
  let k := if k.state0.valid && (!k.state1.valid || k.state1.seq ≤ k.state0.seq) then { k with state1 := { k.state0 with count := n, seq := k.state0.seq + 1 } }
           else if k.state1.valid then { k with state0 := { k.state1 with count := n, seq := k.state1.seq + 1 } } else k
  { d with key := k }

/-- The entries that wait for the journal, oldest first (R455). -/
def waitingEntries (d : Dev) : List LogEntry := d.fc.log.drop (d.fc.log.length - d.fc.waiting)

/-- A journal write of every waiting entry (R455): a failure is counted and raises source 182 until a write succeeds. -/
def journalWrite (d : Dev) (ok : Bool) : Dev :=
  if d.fc.waiting = 0 then d
  else if ok && keyUsable d then
    let d := journalAppend d (waitingEntries d)
    deassert { d with fc := { d.fc with waiting := 0 } } 182
  else report (bump d 0x2100 7) 182 0 0

/-- A block write meets a supply warning, or continues after it (R415, R459). -/
def imageHold (d : Dev) (hold : Bool) : Dev :=
  if hold && og d 0x2E40 6 = 2 then os d 0x2E40 6 6
  else if !hold && og d 0x2E40 6 = 6 then os d 0x2E40 6 2 else d

/-- STORE_PARAMETERS (R40, R41). -/
def execStoreParameters (s : State) : Host.Outcome State Fault Refusal :=
  .next (upd s (fun d => let (d, st) := storeParams d; answer d st))
/-- STORE_COMPLETE (R41). -/
def execStoreComplete (ok : Bool) (s : State) : Host.Outcome State Fault Refusal := .next (upd s (fun d => storeEnd d ok))
/-- RESTORE_DEFAULTS (R40, R42). -/
def execRestoreDefaults (s : State) : Host.Outcome State Fault Refusal :=
  .next (upd s (fun d => let (d, st) := restoreDefaults d; answer d st))
/-- RELOAD_STORED (R42). -/
def execReloadStored (s : State) : Host.Outcome State Fault Refusal :=
  .next (upd s (fun d => let (d, st) := reloadStored d; answer d st))
/-- RELOAD_COMPLETE (R42). -/
def execReloadComplete (s : State) : Host.Outcome State Fault Refusal := .next (upd s reloadEnd)

/-- JOURNAL_WRITE (R455); while a supply warning is in force the last commit governs journalling. -/
def execJournalWrite (ok : Bool) (s : State) : Host.Outcome State Fault Refusal :=
  .next (if warning s.dev then s else upd s (fun d => journalWrite d ok))
/-- JOURNAL_RETRY of a failed write (R455). -/
def execJournalRetry (ok : Bool) (s : State) : Host.Outcome State Fault Refusal :=
  .next (if warning s.dev || !bit s.dev.fc.cond 182 then s else upd s (fun d => journalWrite d ok))

end Sys2Proof.Machine
end

