-- ==== Sys2Proof/Machine/Power.lean ====
section
/-! DEFINITION. Supply monitor, last commit, Backup and bring-up, power domains and the key's presence (R410-R450, R499). -/
namespace Sys2Proof.Machine

/-- Sets bit b of the supply status 0x2000.01. -/
def supplyBit (d : Dev) (b : Nat) (v : Bool) : Dev := osb d 0x2000 1 b v

/-- Position and offset of axis n in a snapshot (R448): p_ext, p_now, p_s or p_ref by kind, and axis object 0x24.04. -/
def snapshotAxis (d : Dev) (n : Nat) : Nat × Int × Int × Bool :=
  let k := og d (ax n 1) 1
  let p : Int :=
    if k = 1 || k = 2 then (srv d n).pExt
    else if 3 ≤ k && k ≤ 5 then ogi 64 d (ax n 0x36) 7
    else ogi 64 d (ax n 0x24) 1
  (n, p, ogi 64 d (ax n 0x24) 4, bit (og d (ax n 9) 4) 0)

/-- Writes the snapshot of a last commit into the copy the newest record does not name (R446, R448). -/
def writeSnapshot (d : Dev) (seq : Nat) : Dev :=
  if keyUsable d then
    let sn : Snapshot := { good := true, seq := seq, cycle := d.time.kc, seg := time112 (d.time.kc * unitCycle + 28000 * unitNs), time := time112 d.time.local_,
                           axes := (boundAxes d.objs).map (snapshotAxis d) }
    let k := d.key
    { d with key := if (newestState k).copy = 0 then { k with snap1 := sn } else { k with snap0 := sn } }
  else d

/-- Steps 1 to 3 of the last commit (R446): a store in progress ends failed, the log is flushed, the snapshot is written. -/
def commitStart (d : Dev) (seq : Nat) : Dev :=
  let d := supplyBit { d with power := { d.power with commitRan := true }, fc := { d.fc with commitLog := 0 } } 1 true
  let d := if d.mgmt.storing then storeFail d else d
  let d := if keyUsable d then
      (let d := journalAppend d (waitingEntries d)
       { d with fc := { d.fc with waiting := 0 } })
    else d
  writeSnapshot d seq

/-- SUPPLY_WARNING (R414, R417): source 0 is numbered first, then the last commit starts, which ends a store in progress (R446); the dip
reaction enters Safe-hold, at the end of Bring-up where it meets that. Before bit 0 of 0x1010 no commit runs. -/
def execSupplyWarning (s : State) : Host.Outcome State Fault Refusal :=
  .next (
    if !s.dev.power.powered || warning s.dev then s
    else upd s (fun d =>
      let early := !ready d 0
      let d := bump (supplyBit (supplyBit { d with power := { d.power with belowClear := true } } 0 true) 3 true) 0x2000 3
      if !ready d 2 then
        { d with fc := { d.fc with held := ⟨0, 0, 0, false, false, 0⟩ :: d.fc.held } }
      else
        let (d, q) := raise d 0 0 0
        let d := os d 0x2000 5 (q.getD 0)
        let d := if early then d else imageHold (commitStart d (q.getD 0)) true
        if og d 0x2000 2 = 1 then safeHoldNow d 5 (q.getD 0) else d) |> fun t =>
    if bit (og t.dev 0x2000 1) 1 && t.isl.storing.isSome then { t with isl := { t.isl with storing := none, storeStatus := 3 } } else t)

/-- LAST_COMMIT_COMPLETE, step 4 of R446: the entries of step 3 and the seal record. -/
def execLastCommitComplete (us : BitVec 32) (s : State) : Host.Outcome State Fault Refusal :=
  .next (
    if !bit (og s.dev 0x2000 1) 1 then s
    else upd s (fun d =>
      let d := if keyUsable d then
          (let d := journalAppend d (waitingEntries d)
           { d with fc := { d.fc with waiting := 0 } })
        else d
      let copy := 1 - (newestState d.key).copy
      let d := writeState d 2 (d.fc.nextSeq - 1) (some copy)
      let d := { d with fc := { d.fc with sSeal := d.fc.nextSeq - 1 } }
      let d := supplyBit (supplyBit d 1 false) 2 true
      bump (os d 0x2000 6 us.toNat) 0x2E30 8))

/-- COMMIT_ENTRY_JOURNAL (R447): an entry taken after the seal is journalled 1 ms after it was numbered. -/
def execCommitEntryJournal (s : State) : Host.Outcome State Fault Refusal :=
  .next (
    if !sealed s.dev || s.dev.fc.waiting = 0 || !keyUsable s.dev then s
    else upd s (fun d =>
      let e := (waitingEntries d).take 1
      { journalAppend d e with fc := { d.fc with waiting := d.fc.waiting - 1 } }))

/-- WARNING_END (R416): VIN is above the clear threshold and the commit, if one ran, has completed. -/
def execWarningEnd (s : State) : Host.Outcome State Fault Refusal :=
  .next (
    if !warning s.dev || bit (og s.dev 0x2000 1) 1 then s
    else upd s (fun d =>
      let d := { d with power := { d.power with belowClear := false, commitRan := false } }
      let d := supplyBit (supplyBit (supplyBit d 0 false) 2 false) 3 false
      let d := imageHold (bump (deassert d 0) 0x2000 4) false
      writeState d 1 d.fc.nextSeq none))

/-- The contents of D0 are lost (R428). -/
def loseBackup (d : Dev) : Dev :=
  { d with objs := d.objs.filter (fun p => !(0x204000 ≤ p.1 && p.1 < 0x204200)), power := { d.power with d0Valid := false } }

/-- RESET_LEVEL_FALL (R418): every domain except D0 goes off; with VBAK low D0 is lost as well. -/
def execResetLevelFall (s : State) : Host.Outcome State Fault Refusal :=
  .next (
    if !s.dev.power.powered then s
    else
      let vbak := s.dev.power.vbakOk
      let d := restart s.dev 1
      let d := { d with power := { d.power with powered := false, testEn := false, cleared := false }, fc := { d.fc with errPins := false } }
      let d := os (os (os d 0x1020 1 0) 0x1010 0 0) 0x1011 0 0
      let d := if vbak then d else loseBackup d
      { s with dev := d, mem := .reset, isl := { IslandSt.reset with counters := [] } })

/-- VBAK_LOSS while the device is in Backup (R428): unpowered, D0 lost. -/
def execVbakLoss (s : State) : Host.Outcome State Fault Refusal :=
  .next (
    if s.dev.power.powered then s
    else { s with dev := let d := loseBackup s.dev; { d with power := { d.power with vbakOk := false } } })

/-- Rollback counter of the part: the fuses at delivery or what confirmations raised it to (R437). -/
def rollbackCounter (d : Dev) : Nat := max Config.rollback.toNat d.power.otp

/-- The image that stands in a slot (R432): the header and the payload it names. -/
def imageIn (img : Bytes) : Bytes := img.take (256 + rd img 8 4)

/-- Whether the image in a slot may run (R432, R436): header, rollback index and signature. -/
def imageOk (d : Dev) (img : Bytes) : Bool :=
  256 ≤ img.length && rd img 0 4 = 1 && rd img 4 4 = 0x8512 && rd img 8 4 ≤ 16776960 && 256 + rd img 8 4 ≤ img.length &&
  rollbackCounter d ≤ rd img 16 1 && rd img 16 1 ≤ 64 && Config.signatureOk (imageIn img)

/-- The newest valid boot control record (R437). -/
def newestBoot (k : KeySt) : BootRec :=
  if k.boot0.valid && (!k.boot1.valid || k.boot1.seq ≤ k.boot0.seq) then k.boot0
  else if k.boot1.valid then k.boot1 else { BootRec.blank with trial := 0xFF }

/-- Writes a boot control record into the older copy. -/
def writeBoot (d : Dev) (r : BootRec) : Dev :=
  if d.key.present && d.key.readable then
    let r := { r with valid := true, seq := (newestBoot d.key).seq + 1 }
    let k := d.key
    { d with key := if k.boot0.valid && (!k.boot1.valid || k.boot1.seq ≤ k.boot0.seq) then { k with boot1 := r } else { k with boot0 := r } }
  else d

/-- The image in slot A (false) or B (true). -/
def slot (k : KeySt) (b : Bool) : Bytes := if b then k.slotB else k.slotA

/-- The version of the image in a slot, 0 when the slot is empty or invalid (R43). -/
def slotVersion (d : Dev) (b : Bool) : Nat := if imageOk d (slot d.key b) then rd (slot d.key b) 12 4 else 0

/-- The boot ROM's choice of an image (R436, R437): the slot it starts, if any, and whether it is a trial. -/
def bootSelect (d : Dev) : Dev × Option Bool × Bool :=
  if !(d.key.present && d.key.readable) then (d, none, false)
  else
    let r := newestBoot d.key
    let trialDue := r.trial != 0xFF && r.tries < 2
    let cand := if trialDue then r.trial = 1 else r.selected = 1
    if imageOk d (slot d.key cand) then
      (if trialDue then (writeBoot d { r with tries := r.tries + 1 }, some cand, true) else (d, some cand, false))
    else if imageOk d (slot d.key (!cand)) then
      (let other := !cand
       if r.trial != 0xFF && decide (r.trial = b2n other) && trialDue then (writeBoot d { r with tries := r.tries + 1 }, some other, true)
       else (d, some other, false))
    else (d, none, false)

/-- The event of an abandoned trial (R437): the selected slot runs again. While a warning is in force the record is not written (R445). -/
def trialAbandoned (d : Dev) : Dev :=
  let r := newestBoot d.key
  if r.trial != 0xFF && 2 ≤ r.tries then
    log (if warning d then d else writeBoot d { r with trial := 0xFF, tries := 0 }) 1 5 (rd (slot d.key (r.trial = 1)) 12 4)
  else d

/-- Step 5 of R435: the parameters are loaded, or the defaults stand (R38, R440). -/
def loadParameters (d : Dev) (keyOk : Bool) : Dev :=
  let d := os d 0x2E00 1 (b2n d.key.present)
  if !d.key.present then osb (os d 0x2E00 2 0) 0x1011 0 1 true
  else if !keyOk then osb (os (report (bump d 0x2E00 0x0C) 180 0 0) 0x2E00 2 4) 0x1011 0 1 true
  else
    let k := d.key
    let d := os (os d 0x2E00 3 k.flashMiB) 0x2E00 4 k.memKiB
    let d := syncSets (os d 0x2E00 0x0B k.writer)
    let d := if setState k.setA = 2 then report d 181 0 0 else d
    let d := if setState k.setB = 2 then report d 181 0 1 else d
    let d := match newestSet k with
      | some b => os (os (loadKeys d (fun _ => false) (if b then k.setB else k.setA).nums (if b then k.setB else k.setA).strs) 0x2E00 9 (b2n b)) 0x2E00 2 2
      | none => os d 0x2E00 2 3
    osb d 0x1010 0 1 (ready d 3 && ready d 4)

/-- Restores one axis of a snapshot by its method (R449). -/
def restoreAxis (d : Dev) (a : Nat × Int × Int × Bool) : Dev :=
  let (n, p, o, refd) := a
  let method := ((ob d 0x2E20 0).getD n 0).toNat
  let k := og d (ax n 1) 1
  if method = 2 then d
  else
    let d := osi 64 d (ax n 0x24) 4 o
    let d := if refd then osb (osb d (ax n 9) 4 1 true) (ax n 9) 4 0 false else d
    if method = 1 then
      if k = 6 then osi 64 d (ax n 0x24) 1 p
      else if k = 5 then
        let c := og d (ax n 1) 5
        osi 64 (setChan d c { chan d c with s := (p - o.emod 65536).fdiv 65536 }) (ax n 0x36) 7 p
      else
        let d := setMot d n { mot d n with restore := some p }
        let d := setSrv d n { srv d n with pExt := p }
        osi 64 d (ax n 0x36) 7 p
    else d

/-- Positions are restored from a sealed snapshot (R449, R451). -/
def restorePositions (d : Dev) (r : StateRec) : Dev :=
  let d := os d 0x2E30 4 (if r.valid then r.kind else 0)
  if !r.valid then d
  else if r.kind = 1 then os d 0x2E30 1 2
  else if r.kind = 3 then os d 0x2E30 1 3
  else
    let sn := if r.copy = 0 then d.key.snap0 else d.key.snap1
    if !sn.good then os d 0x2E30 1 4
    else
      let axes := sn.axes.filter (fun a => og d (ax a.1 1) 1 != 0)
      let d := axes.foldl restoreAxis d
      let m := axes.filter (fun a => ((ob d 0x2E20 0).getD a.1 0).toNat != 2)
      os (os (os (os d 0x2E30 1 1) 0x2E30 2 sn.cycle) 0x2E30 3 sn.seg) 0x2E30 6 m.length

/-- One period of the 32.768 kHz backup oscillator (R12), in the units of the time bases: 30517.578125 ns. -/
def backupPeriod : Nat := 10 ^ 10 * 2 ^ 25

/-- Local monotonic time at bring-up (R443): the backup time base, the state record plus 61 s, or 0. Time spent in Backup is
the oscillator's count of whole periods (R12), which the model leaves free. -/
def continueTime (d : Dev) (fromBackup : Bool) (r : StateRec) : Dev :=
  if d.power.d0Valid then
    let (x, d) := if fromBackup then freeVal d 48 else (0, d)
    os { d with time := { d.time with local_ := d.time.local_ + x * backupPeriod } } 0x2E30 9 0
  else if r.valid then
    os { d with time := { d.time with local_ := timeUnits r.time * (10 * 2 ^ 24) + 61 * 10 ^ 10 * 2 ^ 40 } } 0x2E30 9 1
  else os { d with time := { d.time with local_ := 0 } } 0x2E30 9 2

/-- The first sequence number of this bring-up (R378, R445), and S_seal as 0x2E30.05 reports it. -/
def presetNumber (r : StateRec) : Nat × Nat :=
  if !r.valid then (0, 0)
  else if r.kind = 1 then (r.s + 2 ^ 40 + 65536, r.s + 2 ^ 40)
  else (r.s + 65536, r.s)

/-- The ports take up their configuration (R466, R486): enable, speed and address mode, and a static address at once. -/
def portsUp (d : Dev) : Dev :=
  let d := { d with host := { d.host with ports := (List.range 2).map (fun p => (og d (0x2F00 + p) 1, og d (0x2F00 + p) 2, og d (0x2F00 + p) 3)) } }
  (List.range 2).foldl (fun d p =>
    let c := 0x2F00 + p
    let o := 0x2F08 + p
    if og d c 1 = 0 then d
    else if og d c 3 = 1 then os d o 5 1
    else os (os (os d o 2 (og d c 4)) o 3 (og d c 5)) o 4 (og d c 6)) d

/-- Bring-up in its order (R435): `hw` says whether the self-tests of bits 2, 3 and 4 passed and whether a key present can be
read; `testEn`, `below` and `vbak` are TEST_EN, VIN below the warning clear threshold and VBAK at or above 2.0 V. -/
def bringUp (d : Dev) (hw : Nat) (testEn below vbak : Bool) : Dev :=
  let fromBackup := !d.power.powered
  let keyOk := bit hw 3
  let d := { d with key := { d.key with readable := d.key.present && keyOk } }
  let r := if d.key.present && keyOk then newestState d.key else .blank
  let d := if fromBackup then os (os d 0x1020 1 1) 0x1020 2 0 else d
  let cause := if fromBackup then (if d.power.d0Valid then 1 else if r.valid then 2 else 0) else d.power.restart
  let d := os (os d 0x2000 7 cause) 0x2041 1 (b2n d.power.d0Valid)
  let d := os d 0x2010 2 0x47
  let d := continueTime d fromBackup r
  let tr := newestBoot d.key
  let abandoned := keyUsable d && tr.trial != 0xFF && 2 ≤ tr.tries
  let (d, img, trial) := bootSelect d
  let (first, sealNo) := presetNumber r
  let d := os { d with fc := { d.fc with nextSeq := first, sSeal := sealNo } } 0x2E30 5 sealNo
  let d := writeState d 1 first none
  let d := { d with power := { d.power with powered := true, booted := true, d0Valid := true, testEn := testEn, vbakOk := vbak,
                                            belowClear := below, recovery := img.isNone },
                    mgmt := { d.mgmt with imgTrial := trial } }
  let d := match img with
    | some b => os (os (os (os d 0x1002 1 (b2n b)) 0x1002 2 (rd (slot d.key b) 12 4)) 0x1002 3 (slotVersion d (!b))) 0x1002 4 (rollbackCounter d)
    | none => os (os d 0x2E00 0x0D 1) 0x1002 4 (rollbackCounter d)
  let d := osb (supplyBit d 4 d.power.vsoOk) 0x1010 0 0 true
  let d := if below then
      (let d := bump (supplyBit (supplyBit d 0 true) 3 true) 0x2000 3
       { d with fc := { d.fc with held := ⟨0, 0, 0, false, false, 0⟩ :: d.fc.held } })
    else d
  let d := [3, 4, 2].foldl (fun d b =>
    if bit hw (b - 2) && b = 2 && !(ready d 3 && ready d 4) then d
    else if bit hw (b - 2) then
      (let d := osb d 0x1010 0 b true
       let d := if b = 2 && below then
           (let (d, q) := raise { d with fc := { d.fc with held := d.fc.held.drop 1 } } 0 0 0
            os d 0x2000 5 (q.getD 0))
         else d
       gainedBit d b)
    else report (osb d 0x1011 0 b true) 186 0 b) d
  let d := if abandoned then trialAbandoned d else d
  let d := if img.isNone then report d 177 0 0 else d
  let d := if testEn then report (supplyBit d 6 true) 187 0 0 else d
  let d := if vbak then d else report d 1 0 0
  let d := if d.key.present then d else report d 179 0 0
  let d := log d 1 8 cause
  let d := startSegTime (portsUp (loadParameters d keyOk))
  restorePositions d r

/-- BRING_UP (R435-R450): VIN rising through the restart threshold, or the start that follows a chip reset or commanded
restart; the safety island starts on its own. -/
def execBringUp (hw : BitVec 4) (testEn below vbak : Bool) (s : State) : Host.Outcome State Fault Refusal :=
  .next (
    if s.dev.power.booted then s
    else
      let s := if s.isl.state = 0 then islandStart s false else s
      islandSettle (upd s (fun d => bringUp d hw.toNat testEn below vbak)))

/-- DOMAIN_ENABLE_WRITE (R420). -/
def domainEnable (d : Dev) (mask : Nat) : Dev × Status :=
  if !ready d 1 then (d, .notReady)
  else if mode d != 2 then (d, .state)
  else if !(bit mask 0 && bit mask 1 && bit mask 2 && bit mask 6) then (d, .range)
  else (applyMask (os d 0x2010 1 mask) (og d 0x2010 1) mask, .ok)

/-- DOMAIN_ENABLE_WRITE (R420). -/
def execDomainEnableWrite (mask : BitVec 8) (s : State) : Host.Outcome State Fault Refusal :=
  .next (upd s (fun d => let (d, st) := domainEnable d mask.toNat; answer d st))

/-- DOMAIN_IN_WINDOW (R419, R420): an enabled domain has reached its window. -/
def execDomainInWindow (n : Fin 8) (s : State) : Host.Outcome State Fault Refusal :=
  .next (
    if s.dev.power.powered && s.dev.power.booted && bit (og s.dev 0x2010 1) n.val then upd s (fun d => osb d 0x2010 2 n.val true)
    else s)

/-- STATE_RECORD_REFRESH every 60 s while VIN is in range and no warning is in force (R443). -/
def execStateRecordRefresh (s : State) : Host.Outcome State Fault Refusal :=
  .next (
    if s.dev.power.booted && !warning s.dev && !sealed s.dev then upd s (fun d => writeState d 1 d.fc.nextSeq none) else s)

/-- KEY_REMOVED (R434, R499). -/
def execKeyRemoved (s : State) : Host.Outcome State Fault Refusal :=
  .next (
    if !s.dev.key.present then s
    else upd s (fun d =>
      let d := os (os { d with key := { d.key with present := false, readable := false } } 0x2E00 1 0) 0x2E00 2 0
      let d := if d.mgmt.storing then storeFail d else d
      report d 179 0 0))

/-- KEY_INSERTED (R434, R499): source 179 ends; the key is not read until the next bring-up. -/
def execKeyInserted (s : State) : Host.Outcome State Fault Refusal :=
  .next (
    if s.dev.key.present then s
    else upd s (fun d => deassert (os { d with key := { d.key with present := true } } 0x2E00 1 1) 179))

end Sys2Proof.Machine
end

