-- ==== Sys2Proof/Machine/Modes.lean ====
section
/-! DEFINITION. The device modes (R46, R47, R424-R427). -/
namespace Sys2Proof.Machine

/-- The device enters a mode (R46): the transition is logged, and its number is the entry's where the cause has none of its
own. -/
def enterMode (d : Dev) (m cause : Nat) (seq : Option Nat) : Dev :=
  let prev := mode d
  let (d, q) := event d 1 1 (m + cause * 256)
  let d := os (os (os d 0x1020 2 prev) 0x1020 1 m) 0x1020 3 d.time.k
  os (os d 0x1020 4 cause) 0x1020 5 (match seq with | some n => n | none => q.getD 0)

/-- A confirmed trial image (R437): the boot record names it selected, then the rollback counter is raised. A key that takes no write, with a
warning in force (R415) or removed, leaves it unconfirmed (log 102). -/
def confirmTrial (d : Dev) : Dev :=
  if d.mgmt.imgTrial && ready d 1 && keyUsable d && !warning d then
    let r := newestBoot d.key
    let img := slot d.key (r.trial = 1)
    let d := writeBoot d { r with selected := r.trial, trial := 0xFF, tries := 0 }
    let d := if rollbackCounter d < rd img 16 1 then { d with power := { d.power with otp := rd img 16 1 } } else d
    let d := os { d with mgmt := { d.mgmt with imgTrial := false } } 0x1002 4 (rollbackCounter d)
    log d 1 7 (rd img 12 4)
  else d

/-- BRING_UP_COMPLETE (R425): to Safe-hold when an entry into it was numbered during Bring-up, else to Stopped. -/
def execBringUpComplete (s : State) : Host.Outcome State Fault Refusal :=
  .next (
    let m := og s.dev 0x1010 0
    if mode s.dev != 1 || !(bit m 0 && bit m 2 && bit m 3 && bit m 4 && (bit m 1 || bit (og s.dev 0x1011 0) 1)) then s
    else upd s (fun d =>
      let d := match d.power.safeHold with
        | some e => enterMode { d with power := { d.power with safeHold := none } } 4 e.cause (some e.seq)
        | none => enterMode d 2 4 none
      confirmTrial d))

/-- A mode request (R47): accepted, numbered and left for the next boundary. -/
def modeRequest (d : Dev) (m : Nat) : Dev × Status :=
  if !ready d 0 then (d, .notReady)
  else if m < 2 || 5 < m then (d, .range)
  else if og d 0x1021 2 = 1 then (d, .busy)
  else
    let (d, q) := event d 1 2 m
    (os (os (os (os d 0x1021 1 m) 0x1021 2 1) 0x1021 3 0) 0x1021 4 (q.getD 0), .ok)

/-- MODE_REQUEST (R47); in a pair the write is forwarded (R330). -/
def execModeRequest (m : BitVec 8) (s : State) : Host.Outcome State Fault Refusal :=
  .next (upd s (fun d =>
    if paired d && ready d 0 && 2 ≤ m.toNat && m.toNat ≤ 5 && og d 0x1021 2 != 1 then answer (forwardItem d (.mode m)) .ok
    else let (d, st) := modeRequest d m.toNat; answer d st))

/-- Whether a transition stands in the table of R424 for a host request. -/
def transitionAllowed (cur m : Nat) : Bool :=
  (cur = 2 && (m = 3 || m = 4 || m = 5)) || (cur = 3 && (m = 2 || m = 4)) || (cur = 4 && m = 2) || (cur = 5 && m = 2)

/-- The entry conditions of R426 (with R390, R415 and R436). -/
def entryCondition (d : Dev) (isl : IslandSt) (m : Nat) : Bool :=
  let cur := mode d
  if m = 3 then
    !warning d && !bit (og d 0x2000 1) 6 && ready d 5 && isl.state = 4 && !isl.stopReq && !d.power.recovery
  else if m = 5 then
    !warning d && !(og d 0x3C01 2 = 1 && og d 0x3C00 4 != 0 && og d 0x3C01 6 = 7)
  else if m = 2 && (cur = 3 || cur = 4) then
    (boundAxes d.objs).all (fun n => axState d n != 2 && axState d n != 3 && axState d n != 5)
  else true

/-- What entering Stopped or Service forces (R104, R231): axes Disabled; rings now, lines at their next field cycle. -/
def forceSegments (d : Dev) (target : Nat) (quiet : Bool) : Dev :=
  let d := (boundAxes d.objs).foldl (fun d n => disableAxis d n 7 0) d
  let d := (List.range 8).foldl (fun d g =>
    if target = 0 then segLeave d g 0 (!quiet)
    else if segState d g = 3 then segLeave d g 4 (!quiet) else d) d
  (List.range 4).foldl (fun d l =>
    let g := lseg l
    if segState d g = 3 || (target = 0 && segState d g != 0) then setSeg d g { seg d g with forced := true, quietExit := quiet } else d) d

/-- Carries out the pending host request (R47, R424, R426). -/
def carryOut (d : Dev) (isl : IslandSt) : Dev :=
  let m := og d 0x1021 1
  let cur := mode d
  let refuse := fun (c : Nat) => os (os d 0x1021 2 3) 0x1021 3 c
  let done := fun (d : Dev) => os d 0x1021 2 2
  let sq := og d 0x1021 4
  if m = cur then done d
  else if !transitionAllowed cur m then refuse 1
  else if !entryCondition d isl m then refuse 2
  else if m = 4 then done (safeStops (enterMode d 4 1 (some sq)) cur sq)
  else if m = 2 then
    let d := enterMode d 2 (if cur = 5 then 6 else 1) (some sq)
    done (if cur = 5 then d else forceSegments d 2 (cur = 3))
  else if m = 5 then done (forceSegments (enterMode d 5 1 (some sq)) 0 false)
  else done (enterMode d 3 1 (some sq))
where
  /-- Entering Safe-hold from Running on a request: the enabled axes get their Safe-hold stop (R103, R104). -/
  safeStops (d : Dev) (cur sq : Nat) : Dev :=
    if cur = 3 then (boundAxes d.objs).foldl (fun d n => pushDemand d n (stopCat (og d (ax n 0x0A) 2)) 5 sq) d else d

/-- The boundary's mode work (R47, R424): an entry into Safe-hold ordered before a pending request comes first and the
request meets the mode it left; one ordered after it makes the request superseded, unless it asks for Safe-hold. -/
def modeBoundary (d : Dev) (isl : IslandSt) : Dev :=
  let pend := og d 0x1021 2 = 1
  match d.power.safeHold with
  | none => if pend then carryOut d isl else d
  | some e =>
    let d := { d with power := { d.power with safeHold := none } }
    if mode d != 2 && mode d != 3 then (if pend then carryOut d isl else d)
    else
      let d := enterMode d 4 e.cause (some e.seq)
      if !pend then d
      else if e.later && og d 0x1021 1 != 4 then os (os d 0x1021 2 3) 0x1021 3 3
      else carryOut d isl

/-- MODE_TRANSITION at a base cycle boundary (R424). During Bring-up an entry into Safe-hold waits for its completion, and a
request is refused (R425). -/
def execModeTransition (s : State) : Host.Outcome State Fault Refusal :=
  .next (upd s (fun d =>
    if mode d = 1 then (if og d 0x1021 2 = 1 then os (os d 0x1021 2 3) 0x1021 3 1 else d)
    else modeBoundary d s.isl))

end Sys2Proof.Machine
end

