-- ==== Sys2Proof/Machine/Management.lean ====
section
/-! DEFINITION. Management: watchdog, sensors, log reading, image loading and the node firmware relay (R452-R463). -/
namespace Sys2Proof.Machine

/-- MANAGEMENT_WATCHDOG (R452). -/
def execManagementWatchdog (s : State) : Host.Outcome State Fault Refusal :=
  .next (if s.dev.power.booted then upd s (fun d => report d 176 0 0) else s)

/-- The largest of binary32 values. -/
def f32Max (xs : List F32) : F32 := xs.foldl (fun a b => if f32Lt a b then b else a) (xs.headD 0)

/-- SENSOR_SAMPLE (R423, R453): one set of readings; the temperature sources follow the thresholds with their hysteresis. The
supply readings are VIN, VSO, VBAK and the VIN current. -/
def execSensorSample (temps supply volts amps : List (BitVec 32)) (s : State) : Host.Outcome State Fault Refusal :=
  .next (
    if !ready s.dev 0 then s
    else upd s (fun d =>
      let put := fun (d : Dev) (idx sub0 : Nat) (vs : List (BitVec 32)) =>
        (vs.zipIdx).foldl (fun d p => osf d idx (sub0 + p.2) p.1) d
      let d := put d 0x2050 1 (temps.take 6)
      let mx := f32Max (temps.take 6)
      let d := osf d 0x2050 7 mx
      let d := put d 0x2050 8 (supply.take 4)
      let d := osf d 0x2050 0x0C (f32Mul (supply.getD 0 0) (supply.getD 3 0))
      let off := fun (vs : List (BitVec 32)) => (vs.take 8).zipIdx.map (fun p => if bit (og d 0x2010 2) p.2 then p.1 else 0)
      let d := put (put d 0x2051 1 (off volts)) 0x2052 1 (off amps)
      let thr := fun (d : Dev) (src : Nat) (t : F32) =>
        if f32Le t mx then report d src 0 0
        else if f32Le mx (f32Sub t (ogf d 0x2030 3)) then deassert d src else d
      thr (thr d 4 (ogf d 0x2030 1)) 5 (ogf d 0x2030 2)))

/-- The log as 0x2101 reads it: journal and buffer in sequence order (R457). -/
def wholeLog (d : Dev) : List LogEntry :=
  let newest := d.fc.log
  (if keyUsable d then d.key.journal.filter (fun e => !newest.any (fun n => n.seq = e.seq)) else []) ++ newest

/-- Up to 32 entries from a sequence number on, and the number at which a further read continues (R457). -/
def logPage (d : Dev) : Bytes × Nat :=
  let es := (wholeLog d).filter (fun e => og d 0x2101 1 ≤ e.seq)
  let page := es.take 32
  (page.flatMap LogEntry.encode, match page.getLast? with | some e => e.seq + 1 | none => og d 0x2101 1)

/-- LOG_SELECT: a write of 0x2101.01 (R457). -/
def execLogSelect (seq : BitVec 64) (s : State) : Host.Outcome State Fault Refusal :=
  .next (upd s (fun d => if ready d 0 then answer (os d 0x2101 1 seq.toNat) .ok else answer d .notReady))

/-- LOG_READ: a read of 0x2101.02 sets where a further read continues (R457). -/
def logRead (d : Dev) : Dev × Bytes :=
  let (b, n) := logPage d
  (os (obs d 0x2101 2 b) 0x2101 3 n, b)

/-- LOG_READ (R457). -/
def execLogRead (s : State) : Host.Outcome State Fault Refusal :=
  .next (upd s (fun d => if ready d 0 then (logRead d).1 else answer d .notReady))

/-- Ends an image load with a failure cause (R460). -/
def imageFail (d : Dev) (cause : Nat) : Dev := report (os (os d 0x2E40 6 7) 0x2E40 7 cause) 178 0 0

/-- The slot a device image is loaded into: the one that does not run (R458). -/
def inactiveB (d : Dev) : Bool := og d 0x1002 1 = 0

/-- The bytes stored so far of the load's target. -/
def targetBytes (d : Dev) : Bytes :=
  let t := og d 0x2E40 1
  if t = 0 then slot d.key (inactiveB d) else tget (fun _ => []) d.key.nodeImg t

/-- Replaces the bytes stored of the load's target. -/
def setTarget (d : Dev) (b : Bytes) : Dev :=
  let t := og d 0x2E40 1
  let k := d.key
  { d with key := if t = 0 then (if inactiveB d then { k with slotB := b } else { k with slotA := b })
                  else { k with nodeImg := tput (fun _ => []) k.nodeImg t b } }

/-- A sector of 64 KiB erased and programmed with a block (R459): what stands in the others stays. -/
def putBlock (img : Bytes) (next : Nat) (b : Bytes) : Bytes :=
  let rest := img.drop ((next + 1) * 65536)
  img.take (next * 65536) ++ b ++ (if rest.isEmpty then [] else List.replicate (65536 - b.length) 0xFF ++ rest)

/-- A command of the image load while the key is absent, or takes no write because of a supply warning (R415), returns "state" (R460,
log 103). -/
def imageGuard (d : Dev) (ok : Bool) : Option Status :=
  if !ready d 0 then some .notReady else if !keyUsable d || warning d || !ok then some .state else none

/-- "begn" (R459): a device image needs Service; the boot control record takes the length, or the load resumes. -/
def imageBegin (d : Dev) : Dev × Status :=
  let st := og d 0x2E40 6
  match imageGuard d (st != 1 && st != 2 && st != 3 && st != 6) with
  | some e => (d, e)
  | none =>
    let t := og d 0x2E40 1
    let len := og d 0x2E40 2
    if t = 0 && mode d != 5 then (os (os d 0x2E40 6 7) 0x2E40 7 7, .state)
    else if len = 0 || (t != 0 && 524288 < len) then (d, .range)
    else
      let d := { d with mgmt := { d.mgmt with imgBuf := [] } }
      let d := os (os (os d 0x2E40 6 1) 0x2E40 7 0) 0x2E40 8 0
      if t = 0 then
        let r := newestBoot d.key
        if r.length = len && 0 < r.progress then (os d 0x2E40 3 r.progress, .ok)
        else (os (writeBoot d { r with length := len, progress := 0, version := 0 }) 0x2E40 3 0, .ok)
      else (os d 0x2E40 3 0, .ok)

/-- A block of an image (R459): only block 0x2E40.03, whole but for the last, and none while one is being written. -/
def imageBlock (d : Dev) (num : Nat) (data : Bytes) : Dev × Status :=
  let st := og d 0x2E40 6
  if !ready d 0 then (d, .notReady)
  else if !keyUsable d then (d, .state)
  else if st = 2 || st = 6 then (d, .busy)
  else if st != 1 then (d, .state)
  else if data.length = 0 || 65536 < data.length then (d, .length)
  else
    let next := og d 0x2E40 3
    let left := og d 0x2E40 2 - next * 65536
    if num != next || left = 0 || data.length != min left 65536 then (d, .range)
    else (os { d with mgmt := { d.mgmt with imgBuf := data } } 0x2E40 6 (if warning d then 6 else 2), .ok)

/-- The check of a header after block 0 (R459). -/
def headerCause (d : Dev) (b : Bytes) : Nat :=
  if og d 0x2E40 1 = 0 then
    if rd b 0 4 != 1 then 1
    else if rd b 4 4 != 0x8512 then 2
    else if 16776960 < rd b 8 4 || rd b 8 4 + 256 != og d 0x2E40 2 then 3
    else if rd b 16 1 < rollbackCounter d then 4 else 0
  else if rd b 12 4 + 32 != og d 0x2E40 2 then 3 else 0

/-- The end of a block's programming (R459). -/
def imageWritten (d : Dev) (ok : Bool) : Dev :=
  if og d 0x2E40 6 != 2 then d
  else if !ok || !keyUsable d then imageFail { d with mgmt := { d.mgmt with imgBuf := [] } } 6
  else
    let next := og d 0x2E40 3
    let d := setTarget d (putBlock (targetBytes d) next d.mgmt.imgBuf)
    let d := os { d with mgmt := { d.mgmt with imgBuf := [] } } 0x2E40 3 (next + 1)
    let d := if og d 0x2E40 1 = 0 then os (writeBoot d { newestBoot d.key with progress := next + 1 }) 0x1002 3 0 else d
    if next = 0 then
      let b := targetBytes d
      let d := os d 0x2E40 8 (if og d 0x2E40 1 = 0 then rd b 12 4 else rd b 8 4)
      let c := headerCause d b
      if c = 0 then os d 0x2E40 6 1 else imageFail d c
    else os d 0x2E40 6 1

/-- "vrfy" (R459): the checks of R436, or length and CRC of a node image. -/
def imageVerify (d : Dev) : Dev × Status :=
  let st := og d 0x2E40 6
  let len := og d 0x2E40 2
  match imageGuard d (st = 1 && decide (og d 0x2E40 3 * 65536 ≥ len)) with
  | some e => (d, e)
  | none =>
    let b := (targetBytes d).take len
    if og d 0x2E40 1 = 0 then
      if imageOk d b then
        (os (os (writeBoot d { newestBoot d.key with version := rd b 12 4 }) 0x1002 3 (rd b 12 4)) 0x2E40 6 4, .ok)
      else
        let c := headerCause d b
        (report (imageFail d (if c = 0 then 5 else c)) 177 0 0, .ok)
    else if b.length != rd b 12 4 + 32 then (imageFail d 3, .ok)
    else if crc32c (b.drop 32) != rd b 16 4 then (imageFail d 5, .ok)
    else
      let k := d.key
      (os { d with key := { k with nodeDir := tput (fun _ => []) k.nodeDir (og d 0x2E40 1) (b.take 32) } } 0x2E40 6 4, .ok)

/-- "abrt" (R459): the slot or entry is empty. -/
def imageAbort (d : Dev) : Dev × Status :=
  match imageGuard d true with
  | some e => (d, e)
  | none =>
    let d := setTarget { d with mgmt := { d.mgmt with imgBuf := [] } } []
    let d := if og d 0x2E40 1 = 0 then
        os (writeBoot d { newestBoot d.key with length := 0, progress := 0, version := 0 }) 0x1002 3 0
      else { d with key := { d.key with nodeDir := tput (fun _ => []) d.key.nodeDir (og d 0x2E40 1) [] } }
    (os (os d 0x2E40 6 0) 0x2E40 3 0, .ok)

/-- "actv" (R460): the inactive slot becomes the trial slot. -/
def imageActivate (d : Dev) : Dev × Status :=
  match imageGuard d (og d 0x2E40 6 = 4 && og d 0x2E40 1 = 0) with
  | some e => (d, e)
  | none =>
    let d := writeBoot d { newestBoot d.key with trial := b2n (inactiveB d), tries := 0 }
    (log (os d 0x2E40 6 5) 1 6 (og d 0x1002 3), .ok)

/-- "boot" (R424, R460): the commanded restart, only in Service. -/
def imageBoot (d : Dev) : Dev × Status :=
  if !ready d 0 then (d, .notReady)
  else if mode d != 5 || !d.key.present then (d, .state)
  else (restart (answer (writeState d 3 (d.fc.nextSeq - 1) none) .ok) 4, .ok)

/-- IMAGE_LOAD_BEGIN (R459). -/
def execImageLoadBegin (s : State) : Host.Outcome State Fault Refusal :=
  .next (upd s (fun d => let (d, st) := imageBegin d; answer d st))
/-- IMAGE_BLOCK (R459). -/
def execImageBlock (num : BitVec 16) (data : Bytes) (s : State) : Host.Outcome State Fault Refusal :=
  .next (upd s (fun d => let (d, st) := imageBlock d num.toNat data; answer d st))
/-- IMAGE_BLOCK_WRITTEN (R459). -/
def execImageBlockWritten (ok : Bool) (s : State) : Host.Outcome State Fault Refusal := .next (upd s (fun d => imageWritten d ok))
/-- IMAGE_VERIFY (R459). -/
def execImageVerify (s : State) : Host.Outcome State Fault Refusal :=
  .next (upd s (fun d => let (d, st) := imageVerify d; answer d st))
/-- IMAGE_ABORT (R459). -/
def execImageAbort (s : State) : Host.Outcome State Fault Refusal :=
  .next (upd s (fun d => let (d, st) := imageAbort d; answer d st))
/-- IMAGE_ACTIVATE (R460). -/
def execImageActivate (s : State) : Host.Outcome State Fault Refusal :=
  .next (upd s (fun d => let (d, st) := imageActivate d; answer d st))
/-- IMAGE_BOOT (R460). -/
def execImageBoot (s : State) : Host.Outcome State Fault Refusal :=
  .next (upd s (fun d => let (e, st) := imageBoot d; if st = .ok then e else answer e st))

/-- Whether this unit originates mailboxes and roll calls on a segment: on a paired one only the leader does, on a line the one that led
at its field cycle start (R242, R319). -/
def originates (d : Dev) (g : Nat) : Bool := !pairedSeg d g || (if g < 8 then decide (og d 0x3C01 2 = 1) else (seg d g).lead)

/-- The directory header of a node image entry. -/
def nodeHeader (d : Dev) (e : Nat) : Bytes := tget (fun _ => []) d.key.nodeDir e

/-- Relay status objects (R463). -/
def relayCounts (d : Dev) (done failed pending : Nat) : Dev := os (os (os d 0x2E60 6 done) 0x2E60 7 failed) 0x2E60 8 pending

/-- "strt" of the relay (R462): the addressed node, or every Integrated node of the entry's type. A node that an interrupted relay of the
same entry left with a partial image goes on from its offset; a relay that finds no node is done (log 104). -/
def relayStart (d : Dev) : Dev × Status :=
  let g := og d 0x2E60 1
  let e := og d 0x2E60 3
  let h := nodeHeader d e
  let st := segState d g
  if !ready d 0 then (d, .notReady)
  else if !originates d g || !keyUsable d || !(2 ≤ st && st ≤ 4) then (d, .state)
  else if og d 0x2E60 5 = 1 then (d, .busy)
  else if h.length = 0 then (d, .range)
  else
    let want := og d 0x2E60 2
    let ns := (mouldNodes g (mould d g)).filter (fun j => (hd d g j).state = 3)
    let ns := if want = 0xFFFF then ns.filter (fun j => (hd d g j).ntype = rd h 0 2) else ns.filter (· = want)
    let kept := if d.mgmt.relaySeg = g && d.mgmt.relayEntry = e then d.mgmt.relayOld else []
    let l := ns.map (fun j => (kept.find? (fun p => p.1 = j)).getD (j, 0, 0))
    let d := { d with mgmt := { d.mgmt with relaySeg := g, relayEntry := e, relayDone := [], relayList := l, relayOld := [] } }
    (relayCounts (os d 0x2E60 5 (if ns.isEmpty then 2 else 1)) 0 0 ns.length, .ok)

/-- One node of the relay ends, done or failed; the event is logged with a result byte the manual does not encode (R462, R456). -/
def relayNodeEnd (d : Dev) (j : Nat) (ok : Bool) : Dev :=
  let m := d.mgmt
  let d := { d with mgmt := { m with relayList := m.relayList.filter (fun p => p.1 != j),
                                     relayDone := if ok then m.relayDone ++ [j] else m.relayDone } }
  let r := freeVal d 8
  let d := log r.2 1 9 (j % 1024 + m.relaySeg * 65536 + r.1 * 2 ^ 24)
  let failed := og d 0x2E60 7 + b2n (!ok)
  let d := relayCounts d d.mgmt.relayDone.length failed d.mgmt.relayList.length
  if d.mgmt.relayList.isEmpty then os d 0x2E60 5 (if failed = 0 then 2 else 3) else d

/-- Whether node j of segment g is still to be served by the relay. -/
def relaying (d : Dev) (g j : Nat) : Bool :=
  og d 0x2E60 5 = 1 && d.mgmt.relaySeg = g && d.mgmt.relayList.any (fun p => p.1 = j)

/-- The request of service 0x07 the relay owes node j at its offset (R461): Begin, Data or End. -/
def relayRequest (d : Dev) (j : Nat) : Option Bytes :=
  match d.mgmt.relayList.find? (fun p => p.1 = j) with
  | none => none
  | some (_, started, off) =>
    let e := d.mgmt.relayEntry
    let h := nodeHeader d e
    let img := slice (tget (fun _ => []) d.key.nodeImg e) 32 (rd h 12 4)
    let p := mouldP d.mgmt.relaySeg (mould d d.mgmt.relaySeg)
    if started = 0 then some ([7, 1] ++ slice h 0 2 ++ slice h 8 4 ++ slice h 12 4 ++ slice h 16 4)
    else if off < img.length then some ([7, 2] ++ leBytes 4 off ++ slice img off (p - 6))
    else some [7, 3]

/-- A reply of service 0x07 advances the relay of its node (R461, R462). -/
def relayReply (d : Dev) (j op status next : Nat) : Dev :=
  if og d 0x2E60 5 != 1 || !(d.mgmt.relayList.any (fun p => p.1 = j)) then d
  else if status = 3 || status = 1 then relayNodeEnd d j false
  else if op = 3 && status = 0 then relayNodeEnd d j true
  else
    { d with mgmt := { d.mgmt with relayList := d.mgmt.relayList.map (fun p => if p.1 = j then (j, 1, next) else p) } }

/-- "actv" of the relay (R463): operation 0x04 to every node done, only while the segment is Stopped. -/
def relayActivate (d : Dev) : Dev × Status :=
  let g := d.mgmt.relaySeg
  if !ready d 0 then (d, .notReady)
  else if segState d g != 4 || og d 0x2E60 5 = 1 || !originates d g then (d, .state)
  else
    let x := seg d g
    let ex := d.mgmt.relayDone.map (fun j => ({ node := j, cls := 3, seq := ((hd d g j).seq + 1) % 256, payload := [7, 4], used := 0, at_ := 0 } : Exchange))
    (setSeg d g { x with exchanges := x.exchanges ++ ex }, .ok)

/-- RELAY_START (R462). -/
def execRelayStart (s : State) : Host.Outcome State Fault Refusal :=
  .next (upd s (fun d => let (d, st) := relayStart d; answer d st))
/-- RELAY_ABORT (R462). -/
def execRelayAbort (s : State) : Host.Outcome State Fault Refusal :=
  .next (upd s (fun d => if ready d 0 then answer (relayInterrupt d) .ok else answer d .notReady))
/-- RELAY_ACTIVATE (R463). -/
def execRelayActivate (s : State) : Host.Outcome State Fault Refusal :=
  .next (upd s (fun d => let (d, st) := relayActivate d; answer d st))

end Sys2Proof.Machine
end

