-- ==== Sys2Proof/Machine/Access.lean ====
section
/-! DEFINITION. The checks of a dictionary write (R26-R31, R36, R37, R51) and the Range columns that depend on other objects. -/
namespace Sys2Proof.Machine

/-- Whether a bit pattern is a valid encoding of its type (R26). -/
def typeOk (ty : Ty) (v : Nat) : Bool :=
  match ty with
  | .bool => v ≤ 1
  | .f32 => fmtFinite fmt32 v
  | .f64 => fmtFinite fmt64 v
  | .time => timeValid v
  | _ => true

/-- The exact value of a number of a type. -/
def valueOf (ty : Ty) (v : Nat) : Rat :=
  match ty with
  | .i8 => sgn 8 v | .i16 => sgn 16 v | .i32 => sgn 32 v | .i64 => sgn 64 v
  | .f32 => fmtToRat fmt32 v | .f64 => fmtToRat fmt64 v
  | _ => v

/-- Whether the upper 24 bits name an existing value of a field node's status object (R72, R120). -/
def statusIndex (v : Nat) : Bool :=
  decide (0x4000 ≤ v / 65536) && decide (v / 65536 < 0x8000) && v / 65536 % 4 = 2 && (findRow (v / 65536) (v / 256 % 256)).isSome

/-- Whether a trap step is listed (R383). -/
def trapStepOk (v : Nat) : Bool :=
  let a := v / 256
  let g := v % 256
  if a = 0 || a = 1 || a = 5 then g = 0 else if a = 2 || a = 3 then g < 8 || g = 0xFF else if a = 4 then g < 12 else a ≤ 5

/-- The object a channel source or image entry names, when it may be tapped (R49, R294): a PM object of number type. -/
def pmRow (idx sub : Nat) : Option Row :=
  match findRow idx sub with
  | some r => if r.pm && !r.ty.isBlob then some r else none
  | none => none

/-- The object behind a channel source (R294): index and sub-index, for the kinds that are object values. -/
def sourceObject (src : Nat) : Option (Nat × Nat) :=
  let k := src / 2 ^ 24
  let a := src % 2 ^ 24
  if k = 2 then some (fnx (a / 1024 % 4) (a % 1024) 2, a / 4096 % 32)
  else if k = 3 then some (0x3D10 + a % 16, if a / 256 % 4 = 0 then 1 else if a / 256 % 4 = 1 then 3 else 4)
  else if k = 4 then some (0x3D48 + a % 8, 1)
  else if k = 6 then some (a / 256, a % 256)
  else none

/-- The objects that hold a Q48.16 position: every I64 with the PM attribute except the emulation count (log 40). -/
def isPosition (idx : Nat) (ty : Ty) : Bool := ty = .i64 && !(0x3D48 ≤ idx && idx < 0x3D50)

/-- Format code and width at k = 0 of an object's values as a channel (R295). -/
def typeFormat (idx : Nat) (ty : Ty) : Nat × Nat :=
  match ty with
  | .f32 => (3, 32)
  | .f64 => (4, 64)
  | .i8 => (1, 8) | .i16 => (1, 16) | .i32 => (1, 32)
  | .i64 => (if isPosition idx .i64 then 5 else 1, 64)
  | t => (2, 8 * t.size)

/-- Format code and width at k = 0 of a channel source (R294, R295, R79, R149). -/
def sourceFormat (src : Nat) : Nat × Nat :=
  let k := src / 2 ^ 24
  let a := src % 2 ^ 24
  if k = 1 then (if a / 4096 < 3 then (5, 64) else if a / 4096 = 15 then (2, 16) else (3, 32))
  else if k = 5 then (2, 8)
  else match sourceObject src with
    | some o => (match findRow o.1 o.2 with
      | some r => typeFormat o.1 r.ty
      | none => (2, 8))
    | none => (2, 8)

/-- Whether a loss step may stand with a format and width (R307). -/
def lossOk (q code w : Nat) : Bool := q = 0 || (code != 2 && 16 ≤ w)

/-- Whether a source word may be a channel's source (R294). -/
def channelSource (d : Dev) (src : Nat) : Status :=
  let k := src / 2 ^ 24
  let a := src % 2 ^ 24
  if src = 0 then .ok
  else if k = 1 then
    (if a % 4096 / 512 != 0 || 65535 < a then .reserved
     else if bit (og d (ax (a % 512) 0x38) 1) (a / 4096) then .ok else .range)
  else if k = 2 then (if 2 ^ 17 ≤ a then .reserved else if 1 ≤ a / 4096 && a / 4096 ≤ 0x11 then .ok else .range)
  else if k = 3 then (if 1023 < a || a / 16 % 16 != 0 then .reserved else if a / 256 = 3 then .reserved else .ok)
  else if k = 4 then (if 7 < a then .reserved else .ok)
  else if k = 5 then (if 255 < a then .reserved else if a < 192 then .ok else .range)
  else if k = 6 then
    (match pmRow (a / 256) (a % 256) with
     | some r => if r.ty = .time then .range else .ok
     | none => .range)
  else .reserved

/-- A capture source (R288). -/
def captureSourceOk (v : Nat) : Status :=
  let k := v / 2 ^ 24
  let a := v % 2 ^ 24
  if 4 < k then .reserved
  else
    let m := if k = 1 then 15 else if k = 2 then 0x107 else if k = 3 then 4095 else 0
    if a &&& m = a then .ok else .reserved

/-- Whether a trigger's period may stand with its outputs (R282). -/
def trigPeriodOk (period outs : Nat) : Bool := period = 0 || !bit outs 0 || 1000000 * 65536 ≤ timeUnits period

/-- Whether a cycle point's settings may stand (R249). -/
def pointOk (d : Dev) (kind g n outs : Nat) : Bool :=
  !bit outs 0 ||
  (if kind = 1 || kind = 2 then 32 ≤ n
   else if kind = 4 then 64 ≤ n
   else if kind = 3 then 32 ≤ n * mouldNb (mould d g)
   else true)

/-- A write of binding sub-index `sub` (R55, R56, R82, R129, R210). -/
def bindingStatus (d : Dev) (n sub v : Nat) : Status :=
  let b (m s : Nat) : Nat := if m = n && s = sub then v else og d (ax m 1) s
  let seg (k r : Nat) : Option Nat := if onRing k then some r else none
  let quiet (o : Option Nat) : Bool := match o with
    | some g => segState d g = 4 || segState d g = 0
    | none => false
  let was := seg (og d (ax n 1) 1) (og d (ax n 1) 2)
  let new := seg (b n 1) (b n 2)
  if axState d n != 0 || mode d = 5 || !(mode d = 2 || (quiet was && quiet new)) then .state
  else
    let k := b n 1
    let others := (boundAxes d.objs).filter (· != n)
    let same := onRing k && others.any (fun m => onRing (b m 1) && b m 2 = b n 2 && b m 3 = b n 3 && b m 4 = b n 4)
    let chan := k = 5 && others.any (fun m => b m 1 = 5 && b m 5 = b n 5)
    let full := onRing k && decide (128 ≤ (others.filter (fun m => onRing (b m 1) && b m 2 = b n 2)).length)
    let phase := (k = 2 || k = 4) && decide (64 ≤ (others.filter (fun m => b m 1 = 2 || b m 1 = 4)).length)
    let fb := k != 1 && b n 6 != 0
    if sub = 6 && v != 0 && !(0x10 ≤ v && v < 0x20) then .range
    else if same || chan || full || phase || fb then .range else .ok

/-- Lane-clocks of axis n in the base and the tight control phase, as a notch enable would make them (R76). -/
def laneCost (d : Dev) (n : Nat) (note : Option (Nat × Nat × Nat)) : Nat × Nat :=
  let k := og d (ax n 1) 1
  let g := og d (ax n 1) 2
  let tight := (mould d g).length != 0 && mouldTight (mould d g)
  let en (o : Nat) : Nat := match note with
    | some (m, x, v) => if m = n && x = o then v else og d (ax n o) 1
    | none => og d (ax n o) 1
  let notch := 6 * (en 0x14 + en 0x15)
  if k = 1 then (58 + notch, 0)
  else if k = 2 then (58 + notch + 112, 112)
  else if k = 3 then (16, 0)
  else if k = 4 then (64, if tight then 48 else 0)
  else if k = 5 then (12, 0) else (0, 0)

/-- The axis slots of cluster c in ascending number; the k-th is on lane k mod 4 (R75). Slots that are not bound
count too (DESIGN CHOICE, log 106). -/
def clusterSlots (d : Dev) (c : Nat) : List Nat := (List.range 512).filter (fun n => cluster d n = c)

/-- The first lane of cluster c beyond 1,750 lane-clocks: phase (0 base, 1 tight) and lane (R76). -/
def laneOver (d : Dev) (c : Nat) (note : Option (Nat × Nat × Nat)) : Option (Nat × Nat) :=
  let costs := (clusterSlots d c).map (fun n => laneCost d n note)
  let sum (ph lane : Nat) : Nat := ((costs.zipIdx).map (fun p => if p.2 % 4 = lane then (if ph = 0 then p.1.1 else p.1.2) else 0)).sum
  ([(0, 0), (0, 1), (0, 2), (0, 3), (1, 0), (1, 1), (1, 2), (1, 3)].find? (fun q => 1750 < sum q.1 q.2))

/-- Whether f_bw of a wire-current axis is above 1/(8 T_d) (R91). -/
def bandwidthOver (d : Dev) (n : Nat) (f : Rat) : Bool :=
  let b := mould d (og d (ax n 1) 2)
  let t := loopDelay b (og d (ax n 1) 3) (og d (ax n 0x1F) 8)
  decide ((65536 * 1000000000 : Nat) < f * 8 * t)

/-- Whether a source may have the reactions v (R380, R525): none for a reserved source, I and E for an island report, and B only
where the source's block lies outside D0, D1 and the island. -/
def reactionsOk (src v : Nat) : Bool :=
  if reservedSource src then v = 0
  else if 144 ≤ src && src ≤ 159 then v &&& 0x11 = v
  else !bit v 2 || (sourceBlocks src).length != 0

/-- A value against a special Range entry or a relation between objects of its record. "The other value in force" of R68 and R71 is the one
last written (DESIGN CHOICE, log 108). -/
def relation (d : Dev) (idx sub v : Nat) : Status :=
  let f (x : Nat) : Rat := fmtToRat fmt32 x
  let chk (b : Bool) : Status := if b then .ok else .range
  if 0x1600 ≤ idx && idx < 0x1C00 then
    (if og d idx 0 != 0 then .state else if v != 0 && !([8, 16, 32, 64, 112].contains (v % 256)) then .reserved else .ok)
  else if idx = 0x2E60 && sub = 2 then chk (v < 1024 || v = 0xFFFF)
  else if 0x2F00 ≤ idx && idx < 0x2F02 && sub = 4 then chk (1 ≤ v / 2 ^ 24 && v / 2 ^ 24 ≤ 223 && v / 2 ^ 24 != 127)
  else if 0x3000 ≤ idx && idx < 0x3200 && idx % 64 = 0x0A && sub = 1 then chk (1 ≤ v && v ≤ 48)
  else if 0x3200 ≤ idx && idx < 0x3300 && idx % 64 = 0x0A && sub = 1 then chk (v < 1024)
  else if 0x3440 ≤ idx && idx < 0x3448 && sub = 2 then captureSourceOk v
  else if 0x3450 ≤ idx && idx < 0x3454 && sub = 4 then
    chk ((v = 0 || 1000 * 65536 ≤ timeUnits v) && trigPeriodOk v (og d idx 5))
  else if 0x3450 ≤ idx && idx < 0x3454 && sub = 5 then chk (trigPeriodOk (og d idx 4) v)
  else if 0x3500 ≤ idx && idx < 0x3508 && 2 ≤ sub && sub ≤ 5 then
    chk (pointOk d (if sub = 2 then v else og d idx 2) (if sub = 3 then v else og d idx 3) (if sub = 4 then v else og d idx 4)
      (if sub = 5 then v else og d idx 5))
  else if 0x3610 ≤ idx && idx < 0x3650 && idx % 16 ≤ 2 then
    let b := idx - idx % 16
    if og d (b + 3) 1 != 0 then .state
    else if idx % 16 = 0 then
      (if sub = 2 then chk (v < 12)
       else if sub = 4 then chk (v ≤ 10 && 2 ^ v ≤ og d idx 3)
       else if sub = 0x0E then
         chk (1 ≤ v && ((List.range 4).map (fun s => if 0x3610 + 16 * s = idx then v else og d (0x3610 + 16 * s) 0x0E)).sum ≤ 256)
       else .ok)
    else if sub = 2 then chk (v < og d b 0x0F)
    else if sub = 4 then chk (decide (0 ≤ fmtToRat fmt64 v))
    else if sub = 5 then (if v < 256 && v / 64 != 0 then .ok else .reserved)
    else if sub = 6 then chk (if og d idx 1 = 6 then v < 4 else v < 192)
    else .ok
  else if 0x3700 ≤ idx && idx < 0x3708 then
    let b := 0x3610 + 16 * ((idx - 0x3700) / 2)
    if og d (b + 3) 1 != 0 then .state
    else if 2 ^ 36 ≤ v then .reserved
    else if 8 < v / 2 ^ 32 then .range
    else
      match channelSource d (v % 2 ^ 32) with
      | .ok => (let f := sourceFormat (v % 2 ^ 32); chk (lossOk (v / 2 ^ 32) f.1 (f.2 + og d b 4)))
      | st => st
  else if 0x3900 ≤ idx && idx < 0x39C0 && sub = 1 then chk (reactionsOk (idx - 0x3900) v)
  else if 0x3820 ≤ idx && idx < 0x3824 then (if trapStepOk v then .ok else .reserved)
  else if 0x3D00 ≤ idx && idx < 0x3D10 && sub = 0x0A then chk (decide (f32ToRat (f32c (mkRat 12 10)) ≤ f v) && decide (f v < (og d idx 9 : Rat) + 1))
  else if 0x3D40 ≤ idx && idx < 0x3D48 then
    (if sub = 3 then chk (if og d idx 2 = 3 then v < 16 else v < 512)
     else if sub = 4 then chk (v != 0)
     else if sub = 6 then chk (v = 0 || (4 ≤ v && v ≤ 2 ^ 31))
     else if sub = 7 then chk (v = 0 || v < og d idx 6)
     else .ok)
  else if 0x8000 ≤ idx then
    let o := (idx - 0x8000) % 64
    let n := (idx - 0x8000) / 64
    let a (o s : Nat) : Rat := f (og d (ax n o) s)
    if o = 1 then bindingStatus d n sub v
    else if o = 0x1D && sub = 1 then chk (cluster d n = v || (clusterSlots d v).length < 96)
    else if (o = 0x14 || o = 0x15) && sub = 1 then
      chk (v = 0 || !(mode d = 3 || mode d = 4) || (laneOver d (cluster d n) (some (n, o, v))).isNone)
    else if o = 0x1F && sub = 1 then
      chk (!(og d (ax n 1) 1 = 2 && (mode d = 3 || mode d = 4) && segState d (og d (ax n 1) 2) != 4 &&
             segState d (og d (ax n 1) 2) != 0 && bandwidthOver d n (f v)))
    else if o = 0x34 && sub = 1 then chk (decide (f v ≤ a o 2))
    else if o = 0x34 && sub = 2 then chk (decide (a o 1 ≤ f v))
    else if (o = 0x14 || o = 0x15) && sub = 3 then chk (decide (1 ≤ f v) && decide (f v ≤ 2 * a o 2))
    else if (o = 0x14 || o = 0x15) && sub = 2 then chk (decide (a o 3 ≤ 2 * f v))
    else if o = 0x17 && sub = 4 then chk (v = 0 || (statusIndex v && v % 256 = 0x10))
    else if o = 0x18 then
      chk ((sub = 1 || decide (a o (sub - 1) < f v)) && (sub = 8 || decide (f v < a o (sub + 1))))
    else if o = 0x19 then
      let g := (sub - 1) % 6
      (match findRow (ax n (0x10 + g / 2)) (1 + g % 2) with
       | some r => (match r.rng with | .f32 lo hi => chk (decide (f lo ≤ f v) && decide (f v ≤ f hi)) | _ => .ok)
       | none => .ok)
    else if o = 0x1C && sub = 9 then chk (decide (0 ≤ f v) && decide (f v ≤ (og d idx 8 : Rat)))
    else if o = 0x1F && sub = 2 then chk (decide (ratAbs (f v) ≤ a 0x1C 7))
    else if o = 0x20 && sub = 4 then chk (decide (ratAbs (f v) ≤ a 0x23 1))
    else if o = 0x20 && (sub = 5 || sub = 6) then chk (decide (0 < f v) && decide (f v ≤ a 0x23 2))
    else if o = 0x20 && sub = 7 then chk (decide (0 < f v) && decide (f v ≤ a 0x23 3))
    else if o = 0x20 && sub = 0x0A then chk (decide (0 ≤ sgn 64 v))
    else if o = 0x21 && sub = 2 then chk (if og d idx 1 = 3 then v < 16 else v < 512)
    else if o = 0x21 && sub = 3 then chk (v != 0)
    else if o = 0x23 && sub = 5 then chk (decide (sgn 64 v < ogi 64 d idx 6))
    else if o = 0x23 && sub = 6 then chk (decide (ogi 64 d idx 5 < sgn 64 v))
    else if o = 0x28 && (sub = 3 || sub = 4) then chk (decide (0 < f v) && decide (f v ≤ a 0x23 1))
    else if o = 0x28 && sub = 5 then chk (decide (0 < f v) && decide (f v ≤ a 0x23 2))
    else if o = 0x28 && sub = 6 then chk (decide (0 < f v) && decide (f v ≤ a 0x23 3))
    else if o = 0x2C && sub ≤ 3 then
      (if v = 0 || (statusIndex v && v % 256 < 32) || (v / 65536 = 1 && v % 65536 < 16) then .ok
       else if v / 65536 = 1 && v % 65536 < 32 then .range else .reserved)
    else .ok
  else .ok

/-- Whether a number lies in a Range column (R37). -/
def rangeOk (r : Rng) (ty : Ty) (v : Nat) : Bool :=
  match r with
  | .nat lo hi => lo ≤ v && v ≤ hi
  | .int lo hi => decide ((lo : Rat) ≤ valueOf ty v) && decide (valueOf ty v ≤ (hi : Rat))
  | .f32 lo hi => decide (fmtToRat fmt32 lo ≤ valueOf ty v) && decide (valueOf ty v ≤ fmtToRat fmt32 hi)
  | .set vs => vs.contains v
  | _ => true

/-- Bounds of the length of a byte string (R26). -/
def lengthOk (r : Rng) (n : Nat) : Bool :=
  match r with
  | .nat lo hi => lo ≤ n && n ≤ hi
  | .len lo hi => lo ≤ n && n ≤ hi
  | _ => true

/-- The owning segment of an object (R30). -/
def owningSegment (d : Dev) (idx : Nat) : Option Nat :=
  if idx < 0x3000 then none
  else if idx < 0x3200 then some ((idx - 0x3000) / 0x40)
  else if idx < 0x3300 then some (8 + (idx - 0x3200) / 0x40)
  else if idx < 0x330C then some (idx - 0x3300)
  else if idx < 0x4000 then none
  else if idx < 0x8000 then some (8 + (idx - 0x4000) / 0x1000)
  else axisSeg d ((idx - 0x8000) / 0x40)

/-- Whether an RWS object is writable now (R28, R30, R230): the device Stopped, or the owning segment Stopped or Off; never in
Service. -/
def rwsOk (d : Dev) (idx : Nat) : Bool :=
  mode d != 5 &&
  (mode d = 2 || (match owningSegment d idx with
    | some g => segState d g = 4 || segState d g = 0
    | none => false))

/-- Read-only objects that hold no status, counter or measured quantity (R36): default reactions, pair configuration, f_max, check values
and axis numbers. -/
def isConstant (idx sub : Nat) : Bool :=
  (0x3900 ≤ idx && idx < 0x39C0 && sub = 4) || idx = 0x3C00 || (0x3D80 ≤ idx && idx < 0x3D90 && sub = 5) || idx = 0x3D94 ||
  (0x8000 ≤ idx && idx % 64 = 0)

/-- Whether an object is a live value or a command of its block (R36): its accesses need the block's readiness bit. The objects of R284 and
R531 need it whatever they are. -/
def isLive (r : Row) (idx sub : Nat) : Bool :=
  if 0x3A00 ≤ idx && idx < 0x3C00 then idx != 0x3A03
  else if isConstant idx sub then false
  else
  (0x3400 ≤ idx && idx < 0x3500) || (0x4000 ≤ idx && idx < 0x8000 && idx % 4 = 0) ||
  (sub != 0 && r.acc = .ro) || (sub = 0 && r.acc = .ro && r.pm) || r.acc = .wo || isCounter idx sub ||
  (r.acc = .ro && r.ty.isBlob)

/-- Whether an object is an axis's binding, which has conditions of its own (R56). -/
def isBinding (idx : Nat) : Bool := 0x8000 ≤ idx && idx % 64 = 1

/-- The checks of a write before its value (R24, R28, R36): existence, class, readiness, RWS and RWC conditions. -/
def admission (d : Dev) (comm : Bool) (idx sub : Nat) : Status × Row :=
  match findRow idx sub with
  | none => (if indexKnown idx then .noSub else .noObject, ⟨0, 0, 0, 0, 0, .u8, .ro, false, false, .all, .num 0⟩)
  | some r =>
    (if r.acc = .ro then .readOnly
     else if isLive r idx sub && !ready d (ownerBit d idx) then .notReady
     else if r.key && !ready d 1 then .notReady
     else if r.acc = .rws && !isMould (okey idx sub) && !isBinding idx && !rwsOk d idx then .state
     else if r.acc = .rwc && !comm then .state
     else .ok, r)

/-- The checks of a number written to an object (R26, R37). -/
def numStatus (d : Dev) (r : Row) (idx sub v : Nat) : Status :=
  if !typeOk r.ty v then .reserved
  else if !rangeOk r.rng r.ty v then .range
  else if isCounter idx sub && v != 0 then .range
  else relation d idx sub v

/-- All the checks of a write of a number by a command of its own. -/
def writeStatus (d : Dev) (idx sub v : Nat) : Status :=
  match admission d false idx sub with
  | (.ok, r) => numStatus d r idx sub v
  | (st, _) => st

/-- A write of a number by a command of its own: the status and the object's new value. -/
def writeNum (d : Dev) (idx sub v : Nat) : Dev × Status :=
  match writeStatus d idx sub v with
  | .ok => (os d idx sub v, .ok)
  | st => (d, st)

end Sys2Proof.Machine
end

