-- ==== Sys2Proof/Machine/Profile.lean ====
section
/-! DEFINITION. The profile planner and its evaluation (R98, R108-R110, R117). Plans are formed exactly in rationals and each
phase duration is rounded once to binary64; the manual fixes the shape of a profile, not the order of its binary64
operations (log 5). -/
namespace Sys2Proof.Machine

/-- A base cycle in seconds (R54). -/
def cycleT : Rat := mkRat 32 1000000
/-- A phase of exact duration and jerk, before rounding. -/
abbrev RPhase := Rat × Rat

/-- A square root rounded to binary64, as the planner's durations are. -/
def planSqrt (q : Rat) : Rat := f64ToRat (f64OfRat (ratSqrt q))

/-- State (displacement, velocity, acceleration) after one phase. -/
def phaseEnd (s : Rat × Rat × Rat) (d j : Rat) : Rat × Rat × Rat :=
  (s.1 + s.2.1 * d + s.2.2 * d * d / 2 + j * d * d * d / 6, s.2.1 + s.2.2 * d + j * d * d / 2, s.2.2 + j * d)

/-- State after a list of phases. -/
def phasesEnd (s : Rat × Rat × Rat) (ps : List RPhase) : Rat × Rat × Rat := ps.foldl (fun s p => phaseEnd s p.1 p.2) s

/-- Three phases that take velocity v0 with acceleration a0 to velocity v1 with acceleration 0, jerk within ±j and
acceleration within `up` while it is positive and `dn` while it is negative. The first phase brings the acceleration toward
its planned value with jerk j (R108). -/
def rampPhases (v0 a0 v1 up dn j : Rat) : List RPhase :=
  let vz := v0 + a0 * ratAbs a0 / (2 * j)
  let s : Rat := if vz < v1 then 1 else if v1 < vz then -1 else 0
  if s = 0 then [(ratAbs a0 / j, if a0 < 0 then j else -j), (0, 0), (0, 0)]
  else
    let lim := if s = 1 then up else dn
    let al := s * a0
    let dv := s * (v1 - v0)
    if lim < al then
      [((al - lim) / j, -(s * j)), ((dv - al * al / (2 * j)) / lim, 0), (lim / j, -(s * j))]
    else
      let p2 := j * dv + al * al / 2
      if lim * lim < p2 then
        [((lim - al) / j, s * j), ((dv - lim * lim / j + al * al / (2 * j)) / lim, 0), (lim / j, -(s * j))]
      else
        let p := planSqrt p2
        [((p - al) / j, s * j), (0, 0), (p / j, -(s * j))]

/-- Displacement of phases from a velocity and an acceleration. -/
def rampDist (v0 a0 : Rat) (ps : List RPhase) : Rat := (phasesEnd (0, v0, a0) ps).1

/-- Largest x between lo (good) and hi (not good) up to n halvings, each midpoint rounded to binary64. -/
def bisect (good : Rat → Bool) : Nat → Rat → Rat → Rat
  | 0, lo, _ => lo
  | n + 1, lo, hi =>
    let m := f64ToRat (f64OfRat ((lo + hi) / 2))
    if good m then bisect good n m hi else bisect good n lo m

/-- Rest to rest over a distance dist ≥ 0, in seven phases. -/
def restPlan (dist v acc dec j : Rat) : List RPhase :=
  if dist = 0 then []
  else
    let full (vp : Rat) := rampDist 0 0 (rampPhases 0 0 vp acc dec j) + rampDist vp 0 (rampPhases vp 0 0 acc dec j)
    let vp := if full v ≤ dist then v else bisect (fun x => decide (full x ≤ dist)) 64 0 v
    if vp = 0 then []
    else rampPhases 0 0 vp acc dec j ++ [((dist - full vp) / vp, 0)] ++ rampPhases vp 0 0 acc dec j

/-- A position move over a distance dist ≥ 0 from velocity v0 and acceleration a0 to rest (R108): within the limits where the
distance allows it, otherwise to rest beyond the target and back. -/
def movePlan (dist v0 a0 v acc dec j : Rat) : List RPhase :=
  let stop := if v0 < 0 then rampPhases v0 a0 0 dec acc j else rampPhases v0 a0 0 acc dec j
  let ds := rampDist v0 a0 stop
  if v0 < 0 || dist < ds then
    let back := dist - ds
    let rest := restPlan (ratAbs back) v acc dec j
    stop ++ (if back < 0 then rest.map (fun p => (p.1, -p.2)) else rest)
  else if v0 = 0 && a0 = 0 then restPlan dist v acc dec j
  else
    let full (vp : Rat) := rampDist v0 a0 (rampPhases v0 a0 vp acc dec j) + rampDist vp 0 (rampPhases vp 0 0 acc dec j)
    let vz0 := v0 + a0 * ratAbs a0 / (2 * j)
    let vz := if vz0 < 0 then 0 else vz0
    let join (vp : Rat) :=
      if vp = 0 then stop
      else rampPhases v0 a0 vp acc dec j ++ [((dist - full vp) / vp, 0)] ++ rampPhases vp 0 0 acc dec j
    if full v ≤ dist then join v
    else if full vz ≤ dist then join (bisect (fun x => decide (full x ≤ dist)) 64 vz v)
    else
      let soft (x : Rat) := rampPhases v0 a0 0 acc x j
      soft (bisect (fun x => decide (rampDist v0 a0 (soft x) ≤ dist)) 64 dec 0)

/-- A change of velocity (R109): where the sense of motion changes, through rest, braking with `dec`, then with `acc`. -/
def velPlan (v0 a0 v1 acc dec j : Rat) : List RPhase :=
  let s : Rat := if v1 < 0 || (v1 = 0 && v0 < 0) then -1 else 1
  let w0 := s * v0
  let b0 := s * a0
  let w1 := s * v1
  let ps := if w0 < 0 then rampPhases w0 b0 0 dec acc j ++ rampPhases 0 0 w1 acc dec j
            else rampPhases w0 b0 w1 acc dec j
  ps.map (fun p => (p.1, s * p.2))

/-- A profile with its durations rounded once to binary64 (R108). -/
def mkProf (k : Nat) (p0 : Int) (v0 a0 : Rat) (ps : List RPhase) (target : Option Int) : Prof :=
  ⟨k, p0, f64OfRat v0, f64OfRat a0, ps.map (fun p => ⟨f64OfRat (if p.1 < 0 then 0 else p.1), f64OfRat p.2⟩), target⟩

/-- Duration of a profile in seconds. -/
def Prof.total (p : Prof) : Rat := p.phases.foldl (fun t x => t + f64ToRat x.dur) 0

/-- State at time t since the start, walking the phases. -/
def profWalk (s : Rat × Rat × Rat) (t : Rat) : List Phase → Rat × Rat × Rat
  | [] => (s.1 + s.2.1 * t, s.2.1, 0)
  | p :: ps =>
    let d := f64ToRat p.dur
    if t < d then phaseEnd s t (f64ToRat p.jerk) else profWalk (phaseEnd s d (f64ToRat p.jerk)) (t - d) ps

/-- q of R53 on a binary64 displacement in counts: Q48.16, ties to even (R98). -/
def qDisp (x : Rat) : Int := ratRoundEven (f64ToRat (f64OfRat x) * 65536)

/-- A time in base cycles, to 2^-20 of a cycle: binary64 durations that make up a whole number of cycles, as those of the
example of R112, are that number of cycles whatever the order of their rounded sums (log 5). -/
def inCycles (t : Rat) : Rat := mkRat (ratRoundEven (t / cycleT * 1048576)) 1048576

/-- Whether the profile has ended at control instant k. -/
def Prof.ended (p : Prof) (k : Nat) : Bool := decide (inCycles p.total ≤ ((k : Int) - p.k0 : Int))

/-- Position, velocity and acceleration of a profile at control instant k (R108): at its end the target exactly, or, without a
target, the position it reached; `vEnd` is the velocity it holds then. -/
def Prof.at (p : Prof) (vEnd : Rat) (k : Nat) : Int × Rat × Rat :=
  let t : Rat := ((k : Int) - p.k0 : Int) * cycleT
  let tt := p.total
  let s0 : Rat × Rat × Rat := (0, f64ToRat p.v0, f64ToRat p.a0)
  if p.ended k then
    match p.target with
    | some x => (x, 0, 0)
    | none => (wrap 64 (p.p0 + qDisp ((profWalk s0 tt p.phases).1 + vEnd * (t - tt))), vEnd, 0)
  else
    let s := profWalk s0 t p.phases
    (wrap 64 (p.p0 + qDisp s.1), s.2.1, s.2.2)

/-- Duration of the first and of the last three phases of a position profile: its initial acceleration and its final
deceleration (R112). -/
def Prof.edge (p : Prof) (last : Bool) : Rat :=
  let ps := if last then p.phases.drop (p.phases.length - 3) else p.phases.take 3
  ps.foldl (fun t x => t + f64ToRat x.dur) 0

/-- The profile of a move to an absolute target (R108). -/
def moveProf (k : Nat) (p0 : Int) (v0 a0 : Rat) (target : Int) (v acc dec j : Rat) : Prof :=
  let dd : Rat := mkRat (wrap 64 (target - p0)) 65536
  let s : Rat := if dd < 0 || (dd = 0 && (v0 < 0 || (v0 = 0 && a0 < 0))) then -1 else 1
  let ps := movePlan (s * dd) (s * v0) (s * a0) v acc dec j
  mkProf k p0 v0 a0 (ps.map (fun p => (p.1, s * p.2))) (some target)

/-- The profile that brings the reference to rest with a deceleration and a jerk (R117). -/
def stopProf (k : Nat) (p0 : Int) (v0 a0 dec j : Rat) : Prof :=
  let s : Rat := if v0 < 0 || (v0 = 0 && a0 < 0) then -1 else 1
  let ps := rampPhases (s * v0) (s * a0) 0 dec dec j
  mkProf k p0 v0 a0 (ps.map (fun p => (p.1, s * p.2))) none

end Sys2Proof.Machine
end

