-- ==== Sys2Proof/Machine/Motion.lean ====
section
/-! DEFINITION. The profile unit (R98-R128): references, the move queue, gearing, stops, limits and homing, and the axis commands
with the events that act on one axis's motion. -/
namespace Sys2Proof.Machine

/-- p_ref of an axis. -/
def pRef (d : Dev) (n : Nat) : Int := ogi 64 d (ax n 0x24) 1
/-- v_ref of an axis. -/
def vRef (d : Dev) (n : Nat) : Rat := f32ToRat (ogf d (ax n 0x24) 2)
/-- a_ref of an axis. -/
def aRef (d : Dev) (n : Nat) : Rat := f32ToRat (ogf d (ax n 0x24) 3)
/-- Sets the references; v_ref and a_ref are rounded once each (R98). -/
def setRefs (d : Dev) (n : Nat) (r : Int × Rat × Rat) : Dev :=
  osf (osf (osi 64 d (ax n 0x24) 1 r.1) (ax n 0x24) 2 (f32OfRat r.2.1)) (ax n 0x24) 3 (f32OfRat r.2.2)

/-- A binary32 object as a rational. -/
def ogq (d : Dev) (idx sub : Nat) : Rat := f32ToRat (ogf d idx sub)
/-- A binary32 object in force as a rational. -/
def cgq (d : Dev) (idx sub : Nat) : Rat := f32ToRat (cgf d idx sub)

/-- The position a channel's count and accumulator stand for (R133). -/
def ChanSt.pos (p : ChanSt) : Int := p.s * 65536 + (if p.neg then -1 else 1) * (p.acc / 2 ^ 32 : Nat)

/-- The fraction of a count in the position offset of axis n; a local step axis's whole counts of it stand in S (DESIGN CHOICE, log 35). -/
def offsetFraction (d : Dev) (n : Nat) : Int := (ogi 64 d (ax n 0x24) 4).emod 65536

/-- Step position p_now of a local step axis `ticks` step ticks after the cycle start (R133, R134). -/
def stepNow (d : Dev) (n ticks : Nat) : Int := ((chan d (cg d (ax n 1) 5)).run ticks).2.pos + offsetFraction d n

/-- p_ext of an axis (R59, R61, R98, R130); a local step axis's is its step position at the control instant. -/
def axisPos (d : Dev) (n : Nat) : Int :=
  let k := kind d n
  if k = 1 || k = 2 then (srv d n).pExt
  else if k = 3 || k = 4 then (stp d n).ps
  else if k = 5 then stepNow d n 7000
  else pRef d n

/-- v_est of an axis: the loop's for a servo axis, v_ref for a stepper axis (R58, R130) and a virtual axis. -/
def axisVel (d : Dev) (n : Nat) : F32 :=
  let k := kind d n
  if k = 1 || k = 2 then ogf d (ax n 0x1B) 3 else ogf d (ax n 0x24) 2

/-- Replaces the head of the queue. -/
def setHead (d : Dev) (n : Nat) (f : QEntry → QEntry) : Dev :=
  match (mot d n).queue with
  | e :: q => setMot d n { mot d n with queue := f e :: q }
  | [] => d

/-- Chain depth of an axis running a gear entry (R113); none beyond the fuel or for a circular chain. -/
def chainDepth (d : Dev) : Nat → Nat → Option Nat
  | 0, _ => none
  | f + 1, n =>
    match activeEntry d n with
    | some e =>
      if e.mkind = 3 then some 1
      else if gearing d e.mnum then (chainDepth d f e.mnum).map (· + 1) else some 1
    | none => some 1

/-- Master position (Q48.16), velocity and acceleration of a gear entry (R113): the master's reference of this control instant,
or its position of the previous control instant advanced by one cycle. -/
def masterOf (d : Dev) (e : QEntry) : Int × Rat × Rat :=
  if e.mkind = 1 then (pRef d e.mnum, vRef d e.mnum, aRef d e.mnum)
  else
    let p := if e.mkind = 2 then (mot d e.mnum).pPrev else (pls d e.mnum).pPrev
    let v := f32ToRat (if e.mkind = 2 then (mot d e.mnum).vPrev else (pls d e.mnum).vPrev)
    (wrap 64 (p + qDisp (f32ToRat (f32OfRat (v * f32ToRat (f32c cycleT))))), v, 0)

/-- The gear law (R114): position, velocity and acceleration. -/
def gearLaw (e : QEntry) (g : GearRun) (m : Int × Rat × Rat) : Int × Rat × Rat :=
  let r : Rat := mkRat e.num e.den
  (wrap 64 (g.p0 + (e.num * wrap 64 (m.1 - g.m0)).fdiv e.den + e.phi), r * m.2.1, r * m.2.2)

/-- Re-anchoring when |Δ| reaches 2^56 units (R114). -/
def reanchor (e : QEntry) (g : GearRun) (m : Int) : GearRun :=
  let dl := wrap 64 (m - g.m0)
  if (2 ^ 56 : Nat) ≤ dl.natAbs then
    let k := dl.fdiv e.den
    { g with m0 := wrap 64 (g.m0 + k * e.den), p0 := wrap 64 (g.p0 + k * e.num) }
  else g

/-- The engage blend's h, h' and h'' (R115). -/
def blendAt (g : GearRun) (ne k : Nat) : Rat × Rat × Rat :=
  let te : Rat := ne * cycleT
  let t : Rat := mkRat ((k : Int) - g.ka) ne
  let e0 := f64ToRat g.e0
  let ev := f64ToRat g.ev
  let ea := f64ToRat g.ea
  let t2 := t * t
  let t3 := t2 * t
  let t4 := t3 * t
  let t5 := t4 * t
  (e0 * (1 - 10 * t3 + 15 * t4 - 6 * t5) + ev * te * (t - 6 * t3 + 8 * t4 - 3 * t5) +
     ea * te * te * ((t2 - 3 * t3 + 3 * t4 - t5) / 2),
   e0 * (-30 * t2 + 60 * t3 - 30 * t4) / te + ev * (1 - 18 * t2 + 32 * t3 - 15 * t4) +
     ea * te * ((2 * t - 9 * t2 + 12 * t3 - 5 * t4) / 2),
   e0 * (-60 * t + 180 * t2 - 120 * t3) / (te * te) + ev * (-36 * t + 96 * t2 - 60 * t3) / te +
     ea * ((2 - 18 * t + 36 * t2 - 20 * t3) / 2))

/-- Starts an engage at control instant k from the present references against the gear law (R115, R116). -/
def engage (d : Dev) (n k : Nat) (e : QEntry) (g : GearRun) (m : Int × Rat × Rat) : GearRun :=
  let l := gearLaw e g m
  { g with ka := k, e0 := f64OfRat (mkRat (wrap 64 (pRef d n - l.1)) 65536), ev := f64OfRat (vRef d n - l.2.1),
           ea := f64OfRat (aRef d n - l.2.2) }

/-- The references of an axis running a gear entry at control instant k (R114, R115). -/
def gearRefs (d : Dev) (n k : Nat) (e : QEntry) (g : GearRun) : Dev :=
  let m := masterOf d e
  let g := reanchor e g m.1
  let g := { g with travel := g.travel + (wrap 64 (m.1 - g.lastM)).natAbs, lastM := m.1 }
  let l := gearLaw e g m
  let r := if k < g.ka + e.engage then
      let h := blendAt g e.engage k
      (wrap 64 (l.1 + qDisp h.1), l.2.1 + h.2.1, l.2.2 + h.2.2)
    else l
  setRefs (setMot d n { mot d n with gear := some g }) n r

/-- The references of an axis that runs no gear law, at control instant k (R98, R108, R112). -/
def profRefs (d : Dev) (n k : Nat) : Dev :=
  let m := mot d n
  match m.prof with
  | none => setRefs d n (pRef d n, 0, 0)
  | some p =>
    let vEnd : Rat := match activeEntry d n with
      | some e => if axState d n = 2 && e.typ = 3 && !e.ending then f32ToRat e.vel else 0
      | none => (match m.homing with
        | some h => if h.braking || h.phase = 6 then 0
                    else (if h.neg then -1 else 1) * (if h.phase = 3 || h.phase = 4 then -f32ToRat h.creep else f32ToRat h.search)
        | none => 0)
    let r := p.at vEnd k
    match m.blend with
    | none => setRefs d n r
    | some q =>
      let r1 := q.at 0 k
      setRefs d n (wrap 64 (r1.1 + (r.1 - q.target.getD 0)), r1.2.1 + r.2.1, r1.2.2 + r.2.2)

/-- Step 1 of the references: every enabled axis that runs no gear entry, in ascending number (R98, R99). -/
def latchPlain (d : Dev) (k : Nat) : Dev :=
  (boundAxes d.objs).foldl (fun d n => if axEnabled d n && !gearing d n then profRefs d n k else d) d

/-- Step 2: the axes running a gear entry, in ascending chain depth and within one depth in ascending number (R99). -/
def latchGear (d : Dev) (k : Nat) : Dev :=
  let gs := (boundAxes d.objs).filter (gearing d)
  ((List.range 5).flatMap (fun i => gs.filter (fun n => (chainDepth d 6 n).getD 4 = i))).foldl (fun d n =>
    match activeEntry d n, (mot d n).gear with
    | some e, some g => gearRefs d n k e g
    | _, _ => d) d

/-! Stops. -/

/-- Deceleration and jerk of a stop (R117). -/
def stopRates (d : Dev) (n : Nat) (cat : StopCat) : Rat × Rat :=
  if cat = .hold then
    match (mot d n).homing, (mot d n).queue with
    | some h, _ => (f32ToRat h.acc, f32ToRat h.jerk)
    | none, e :: _ => (f32ToRat e.dec, f32ToRat e.jerk)
    | none, [] => (ogq d (ax n 0x0A) 4, ogq d (ax n 0x0A) 5)
  else (ogq d (ax n 0x0A) 4, ogq d (ax n 0x0A) 5)

/-- Starts the stop profile of a category from the present reference state, taken at control instant k (R117, R118). -/
def startStop (d : Dev) (n k : Nat) (cat : StopCat) : Dev :=
  let r := stopRates d n cat
  let d := retireBlend d n
  let p := stopProf k (pRef d n) (vRef d n) (aRef d n) r.1 r.2
  let m := mot d n
  let d := setMot d n { m with prof := some p, queue := m.queue.map QEntry.interrupt, stop := some cat }
  showAxis (os d (ax n 9) 1 3) n

/-- Whether category b is stricter than category a (R103). -/
def stricter (a b : StopCat) : Bool :=
  match a, b with
  | .hold, .quick => true
  | .hold, .torqueOff => true
  | .quick, .torqueOff => true
  | _, _ => false

/-- A stop of a category with its cause, in the axis's state (R103, R104). -/
def applyStop (d : Dev) (n k : Nat) (cat : StopCat) (cause seq : Nat) : Dev :=
  let st := axState d n
  if cat = .torqueOff then
    (if axEnabled d n then (if st = 3 then axisOff d n 6 else setCause (axisOff d n 6) n cause seq) else d)
  else if st = 2 || st = 5 then
    let c := stopRates d n cat
    let d := homeAbort d n 2
    let p := stopProf k (pRef d n) (vRef d n) (aRef d n) c.1 c.2
    let d := startStop d n k cat
    setCause (setMot d n { mot d n with prof := some p }) n cause seq
  else if st = 3 && stricter ((mot d n).stop.getD .hold) cat then startStop d n k cat
  else d

/-- The strictest category of a list of demands. -/
def strictest (ds : List Demand) : StopCat :=
  ds.foldl (fun c x => if stricter c x.cat then x.cat else c) .hold

/-- Item 1 of R103 for one axis: its stop demands that arose before the control instant or, with `late`, after it. The
strictest category applies and the first demand's cause stands. -/
def takeDemands (d : Dev) (n k : Nat) (late : Bool) : Dev :=
  let ds := (mot d n).demands
  match ds.filter (fun x => x.late = late) with
  | [] => d
  | x :: xs =>
    applyStop (setMot d n { mot d n with demands := ds.filter (fun x => x.late != late) }) n k (strictest (x :: xs)) x.cause x.seq

/-! Queue entries. -/

/-- Absolute targets of the relative entries that follow an entry whose target is known (R106). -/
def resolveAfter (t : Option Int) : List QEntry → List QEntry
  | [] => []
  | e :: q =>
    if e.typ = 1 then { e with resolved := some e.target } :: resolveAfter (some e.target) q
    else if e.typ = 2 then
      let r := match e.resolved with
        | some x => some x
        | none => t.map (fun x => wrap 64 (x + e.target))
      { e with resolved := r } :: resolveAfter r q
    else if e.typ = 5 then e :: resolveAfter t q
    else e :: resolveAfter none q

/-- Gear entries from axis m on in the chain of masters (R113); none where the chain comes back to axis n or exceeds the fuel. -/
def chainFrom (d : Dev) (n : Nat) : Nat → Nat → Option Nat
  | 0, _ => none
  | f + 1, m =>
    if m = n then none
    else if !gearing d m then some 0
    else match activeEntry d m with
      | some e => if e.mkind = 3 then some 1 else (chainFrom d n f e.mnum).map (· + 1)
      | none => some 0

/-- Chain check of a gear entry about to become Active (R113): whether the chain is circular or deeper than 4. -/
def chainBad (d : Dev) (n : Nat) (e : QEntry) : Bool :=
  e.mkind != 3 && (match chainFrom d n 6 e.mnum with
    | some x => decide (4 < x + 1)
    | none => true)

/-- The head of the queue becomes Active at control instant k (R107-R115). `pred` is the entry before it. -/
def activate (d : Dev) (n k : Nat) (pred : Option QEntry) : Dev :=
  match (mot d n).queue with
  | [] => d
  | e :: q =>
    let fresh := e.st = .queued
    let d := os d (ax n 9) 1 2
    let p0 := pRef d n
    let v0 := vRef d n
    let a0 := aRef d n
    let m := mot d n
    if e.typ = 1 || e.typ = 2 then
      let t := if e.typ = 1 then e.target else e.resolved.getD (wrap 64 (p0 + e.target))
      let e := { e with st := .active, resolved := some t }
      let pr := moveProf k p0 v0 a0 t (ratAbs (f32ToRat e.vel)) (f32ToRat e.acc) (f32ToRat e.dec) (f32ToRat e.jerk)
      setMot d n { m with queue := e :: resolveAfter (some t) q, prof := some pr, gear := none }
    else if e.typ = 3 then
      let pr := mkProf k p0 v0 a0 (velPlan v0 a0 (f32ToRat e.vel) (f32ToRat e.acc) (f32ToRat e.dec) (f32ToRat e.jerk)) none
      setMot d n { m with queue := { e with st := .active, reached := pr.ended k, since := k } :: q, prof := some pr, gear := none }
    else if e.typ = 4 then
      if chainBad d n e then
        let d := setMot d n { m with queue := { e with st := .active } :: q }
        setCause (startStop d n k .quick) n 8 0
      else
        let ms := masterOf d e
        let g : GearRun := match m.gear with
          | some g => if fresh then ⟨if e.anchor = 0 then ms.1 else 0, if e.anchor = 0 then p0 else 0, ms.1, 0, k, 0, 0, 0⟩
                      else { g with lastM := ms.1 }
          | none => ⟨if e.anchor = 0 then ms.1 else 0, if e.anchor = 0 then p0 else 0, ms.1, 0, k, 0, 0, 0⟩
        let e := { e with st := .active }
        setMot d n { m with queue := e :: q, prof := none, gear := some (engage d n k e (reanchor e g ms.1) ms) }
    else
      let e := match pred with
        | some x => { e with dec := x.dec, jerk := x.jerk }
        | none => e
      if v0 = 0 && a0 = 0 then
        setMot d n { m with queue := { e with st := .active, started := true, since := k } :: q, prof := none, gear := none }
      else
        let pr := stopProf k p0 v0 a0 (f32ToRat e.dec) (f32ToRat e.jerk)
        setMot d n { m with queue := { e with st := .active, started := false } :: q, prof := some pr, gear := none }

/-- The Active entry is Done: it is counted, and its successor becomes Active or the axis comes to Standstill (R104, R107,
R111). -/
def entryDone (d : Dev) (n k : Nat) : Dev :=
  match (mot d n).queue with
  | [] => d
  | e :: q =>
    let d := bump (setMot d n { mot d n with queue := q, prof := none, gear := none }) (ax n 0x22) 5
    match q with
    | [] => showAxis (setRefs (os d (ax n 9) 1 1) n (pRef d n, 0, 0)) n
    | _ :: _ => showAxis (activate d n k (some e)) n

/-- The clamped fillet of the next entry, in whole cycles, and whether it was clamped (R112). -/
def filletOf (p : Prof) (next : Prof) (f : Nat) : Nat × Bool :=
  let a := p.edge true
  let c := next.edge false
  let lim := (inCycles (if a < c then a else c)).floor.toNat
  if lim < f then (lim, true) else (f, false)

/-- A joint that is reached without its fillet (R111, R112): where the next entry's fillet is clamped to 0, the clamp is counted and shown. -/
def jointPlain (d : Dev) (n k : Nat) : Dev :=
  let m := mot d n
  match m.queue, m.prof with
  | e :: x :: _, some p =>
    let both := (e.typ = 1 || e.typ = 2) && (x.typ = 1 || x.typ = 2) && x.fillet != 0
    let t1 := p.target.getD 0
    let t2 := if x.typ = 1 then x.target else x.resolved.getD (wrap 64 (t1 + x.target))
    let pr := moveProf k t1 0 0 t2 (ratAbs (f32ToRat x.vel)) (f32ToRat x.acc) (f32ToRat x.dec) (f32ToRat x.jerk)
    let zero := both && (filletOf p pr x.fillet).1 = 0
    let d := osb d (ax n 9) 4 5 zero
    if zero then bump d (ax n 0x2D) 2 else d
  | _ :: _ :: _, none => osb d (ax n 9) 4 5 false
  | _, _ => d

/-- A velocity, gear or dwell entry whose end is due: with a successor it is Done, otherwise it ramps to rest with its
deceleration and jerk (R109, R111). -/
def entryEnds (d : Dev) (n k : Nat) : Dev :=
  match (mot d n).queue with
  | e :: [] =>
    if e.typ = 5 then entryDone d n k
    else
      let pr := stopProf k (pRef d n) (vRef d n) (aRef d n) (f32ToRat e.dec) (f32ToRat e.jerk)
      setMot d n { mot d n with queue := [{ e with ending := true }], prof := some pr }
  | _ :: _ :: _ => entryDone (jointPlain d n k) n k
  | [] => d

/-- Start of a fillet at control instant k, if it is due (R112): the later entry, planned from rest over its distance, becomes
Active and the earlier one is Blending out. -/
def filletStart (d : Dev) (n k : Nat) : Dev :=
  let m := mot d n
  match m.queue, m.prof with
  | e :: x :: q, some p =>
    if e.st = .active && (e.typ = 1 || e.typ = 2) && (x.typ = 1 || x.typ = 2) && x.fillet != 0 && m.blend.isNone then
      let t1 := p.target.getD 0
      let left : Rat := inCycles p.total - ((k : Int) - p.k0 : Int)
      if inCycles (p.edge true) < left then d
      else
        let t2 := if x.typ = 1 then x.target else x.resolved.getD (wrap 64 (t1 + x.target))
        let pr := moveProf k t1 0 0 t2 (ratAbs (f32ToRat x.vel)) (f32ToRat x.acc) (f32ToRat x.dec) (f32ToRat x.jerk)
        let f := filletOf p pr x.fillet
        if f.1 = 0 then d
        else if left ≤ f.1 then
          let q1 := { x with st := .active, resolved := some t2 } :: resolveAfter (some t2) q
          let d := setMot d n { m with blend := some p, prof := some pr, queue := q1 }
          let d := osb d (ax n 9) 4 5 f.2
          if f.2 then bump d (ax n 0x2D) 2 else d
        else d
    else d
  | _, _ => d

/-- One base cycle of an entry's duration, counted from the instant after the one it starts at (R109, R110). -/
def countDown (d : Dev) (n k : Nat) : Dev :=
  setHead d n (fun e => if e.since = k then e else { e with durLeft := e.durLeft - 1 })

/-- Progress of a Moving axis's entries at control instant k (R107-R112). -/
def moveProgress (d : Dev) (n k : Nat) : Dev :=
  let d := match (mot d n).blend with
    | some q => if q.ended k then retireBlend d n else d
    | none => d
  match (mot d n).queue with
  | [] => d
  | e :: q =>
    let endedNow := ((mot d n).prof.map (fun p => p.ended k)).getD true
    let done (d : Dev) : Dev := entryDone (jointPlain d n k) n k
    if e.ending then (if endedNow then done d else d)
    else if e.typ = 1 || e.typ = 2 then
      (if endedNow && (mot d n).blend.isNone then done d else filletStart d n k)
    else if e.typ = 3 then
      if e.dur = 0 then (if q.isEmpty then (if endedNow then setHead d n (fun e => { e with reached := true }) else d) else done d)
      else if e.reached then countDown d n k
      else if endedNow then setHead d n (fun e => { e with reached := true, since := k })
      else d
    else if e.typ = 4 then
      let d := match (mot d n).gear with
        | some g => osb d (ax n 9) 4 2 (decide (g.ka + e.engage ≤ k))
        | none => d
      if e.span = 0 && !q.isEmpty then done d else d
    else if e.started then countDown d n k
    else if endedNow then setHead d n (fun e => { e with started := true, since := k })
    else d

/-! Limit and reference inputs. -/

/-- The sampled state of an input source of R120. -/
def inputLevel (d : Dev) (n src : Nat) : Bool :=
  if src = 0 then false
  else if src / 65536 = 1 then bit (mot d n).digital (src % 32)
  else bit (og d (src / 65536) (src / 256 % 256)) (src % 32)

/-- An input after its sample at control instant k: its state, the inactive instants in a row (R121) and the instants of its
changes within the chatter window (R123). -/
def sampleInput (i : InputSt) (active : Bool) (k window : Nat) : InputSt :=
  let ch := i.changes.filter (fun c => decide (k < c + window))
  let ch := if active = i.active then ch else ch ++ [k]
  { i with active := active, quiet := if active then 0 else i.quiet + 1, changes := ch }

/-- Microseconds as whole control instants, rounded up (R121, R123). -/
def instants (us : Nat) : Nat := (us + 31) / 32

/-- An input of an axis by number: 0 positive limit, 1 negative limit, 2 reference switch. -/
def getInput (m : MotionSt) (i : Nat) : InputSt := if i = 0 then m.inPos else if i = 1 then m.inNeg else m.inRef
/-- Replaces an input of an axis. -/
def setInput (m : MotionSt) (i : Nat) (x : InputSt) : MotionSt :=
  if i = 0 then { m with inPos := x } else if i = 1 then { m with inNeg := x } else { m with inRef := x }

/-- Samples the three inputs at control instant k; the answer says which limits showed an active edge (R121). -/
def sampleInputs (d : Dev) (n k : Nat) : Dev × Bool × Bool :=
  let m := mot d n
  let w := instants (cg d (ax n 0x2C) 7)
  let lvl (i : Nat) : Bool :=
    let src := cg d (ax n 0x2C) (i + 1)
    src != 0 && (inputLevel d n src != bit (cg d (ax n 0x2C) 4) i)
  let p := sampleInput m.inPos (lvl 0) k w
  let g := sampleInput m.inNeg (lvl 1) k w
  let r := sampleInput m.inRef (lvl 2) k w
  let ep := p.active && p.released
  let eg := g.active && g.released
  let p := if p.active then { p with released := false } else p
  let g := if g.active then { g with released := false } else g
  (setMot d n { m with inPos := p, inNeg := g, inRef := r }, ep, eg)

/-- Whether motion in a direction runs toward a limit that is not released (R106, R119, R122, R123). -/
def intoLimit (d : Dev) (n : Nat) (dir : Int) : Bool :=
  let m := mot d n
  (decide (0 < dir) && (!m.inPos.released || m.inPos.latched)) || (decide (dir < 0) && (!m.inNeg.released || m.inNeg.latched))

/-- A limit's active edge on a Moving axis (R122): the stop, its counter and its event. -/
def limitStop (d : Dev) (n k : Nat) (neg : Bool) : Dev :=
  if axState d n = 2 then
    let d := bump d (ax n 0x2D) 3
    match event d (0x20 + cluster d n) 1 (n + (if neg then 2 ^ 31 else 0)) with
    | (d, q) => applyStop d n k (stopCat (og d (ax n 0x0A) 3)) 2 (q.getD 0)
  else d

/-- Whether the quick-stop distance from the present reference state reaches a software limit (R124). -/
def softHit (d : Dev) (n k : Nat) : Bool :=
  cg d (ax n 0x23) 4 = 1 && axState d n = 2 &&
  (match activeEntry d n with
   | some e => (e.typ = 3 || e.typ = 4) &&
     (let v := vRef d n
      let p := stopProf k (pRef d n) v (aRef d n) (ogq d (ax n 0x0A) 4) (ogq d (ax n 0x0A) 5)
      let x := (p.phases.foldl (fun s f => phaseEnd s (f64ToRat f.dur) (f64ToRat f.jerk)) (0, v, aRef d n)).1
      let e := pRef d n + qDisp x
      (decide (0 < v) && decide (cgi 64 d (ax n 0x23) 6 ≤ e)) || (decide (v < 0) && decide (e ≤ cgi 64 d (ax n 0x23) 5)))
   | none => false)

/-- The software-limit stop (R124). -/
def softLimit (d : Dev) (n k : Nat) : Dev :=
  if softHit d n k then osb (applyStop d n k .quick 3 0) (ax n 9) 4 9 true else d

/-! Homing. -/

/-- A homing failure (R126): the result, its counter, the fault stop category and "axis homing failed". -/
def homeFail (d : Dev) (n k result : Nat) : Dev :=
  let cat := stopCat (og d (ax n 0x0A) 1)
  let r := stopRates d n cat
  let d := homeAbort d n result
  match raise d (49 + 4 * cluster d n) 3 n with
  | (d, q) =>
    if axState d n != 5 then d
    else if cat = .torqueOff then setCause (axisOff d n 6) n 6 (q.getD 0)
    else
      let p := stopProf k (pRef d n) (vRef d n) (aRef d n) r.1 r.2
      let m := mot d n
      showAxis (setCause (os (setMot d n { m with prof := some p, stop := some cat }) (ax n 9) 1 3) n 6 (q.getD 0)) n

/-- The latch of R127 at position plat: offset, references, position and stored sample shift by H - plat, the axis is
referenced, and emulation outputs fed by the axis take note of the shift (R169). -/
def homeLatch (d : Dev) (n : Nat) (home plat : Int) : Dev :=
  let dl := wrap 64 (home - plat)
  let o := ogi 64 d (ax n 0x24) 4
  let d := osi 64 d (ax n 0x24) 4 (o + dl)
  let d := osi 64 d (ax n 0x24) 1 (pRef d n + dl)
  let v := srv d n
  let d := setSrv d n { v with ps := wrap 64 (v.ps + dl), pExt := wrap 64 (v.pExt + dl) }
  let p := stp d n
  let d := if kind d n = 5 then
      let c := cg d (ax n 1) 5
      setChan d c { chan d c with s := (chan d c).s + (o + dl).fdiv 65536 - o.fdiv 65536 }
    else setStp d n { p with ps := wrap 64 (p.ps + dl) }
  let d := setMot d n { mot d n with restore := none }
  let d := (List.range 8).foldl (fun d m =>
    if (emul d m).on && cg d (0x3D40 + m) 2 != 3 && cg d (0x3D40 + m) 3 = n then setEmu d m { emul d m with shift := (emul d m).shift + dl } else d) d
  let d := osi 64 d (ax n 0x29) 3 plat
  osb (osb d (ax n 9) 4 0 true) (ax n 9) 4 1 false

/-- The reference event of a homing method at this control instant, if there is one: the position latched, in the coordinates
in force. A reference marked suspect is ignored (R125). -/
def homeEvent (d : Dev) (n method : Nat) : Option Int :=
  if method = 6 then
    match fbInput d n with
    | some i =>
      let p := pls d i
      if p.refNow && !p.suspect then some (wrap 64 (p.pRef + ogi 64 d (ax n 0x24) 4)) else none
    | none => none
  else if (mot d n).refFlag then some (mot d n).refLatch else none

/-- Sense of the homing motion as +1 or -1. -/
def HomeRun.sense (h : HomeRun) : Rat := if h.neg then -1 else 1

/-- Starts the motion of a homing phase from the present references at control instant k (R126). -/
def homeGo (d : Dev) (n k : Nat) (h : HomeRun) : Dev :=
  let acc := f32ToRat h.acc
  let jerk := f32ToRat h.jerk
  if h.phase ≤ 4 then
    let v := if h.phase ≤ 2 then h.sense * f32ToRat h.search else -(h.sense * f32ToRat h.creep)
    let pr := mkProf k (pRef d n) (vRef d n) (aRef d n) (velPlan (vRef d n) (aRef d n) v acc acc jerk) none
    setMot d n { mot d n with homing := some { h with braking := false }, prof := some pr }
  else
    match h.phase, h.park with
    | 5, some t =>
      let pr := moveProf k (pRef d n) (vRef d n) (aRef d n) t (f32ToRat h.search) acc acc jerk
      setMot d n { mot d n with homing := some { h with phase := 6, braking := true }, prof := some pr }
    | _, _ =>
      let d := os (setMot d n { mot d n with homing := none, prof := none }) (ax n 0x29) 2 1
      setRefs (os d (ax n 9) 1 1) n (pRef d n, 0, 0)

/-- "Stop to rest" of R126; the phase to come is entered at rest. -/
def homeStop (d : Dev) (n k : Nat) (h : HomeRun) (phase : Nat) : Dev :=
  let pr := stopProf k (pRef d n) (vRef d n) (aRef d n) (f32ToRat h.acc) (f32ToRat h.jerk)
  setMot d n { mot d n with homing := some { h with phase := phase, braking := true, fresh := false }, prof := some pr }

/-- Reverses the search direction once (R126). -/
def homeReverse (d : Dev) (n k : Nat) (h : HomeRun) : Dev :=
  homeStop (os d (ax n 0x29) 4 1) n k { h with neg := !h.neg } 2

/-- A limit's active edge on an axis in Homing (R126). -/
def homeEdge (d : Dev) (n k : Nat) (neg : Bool) : Dev :=
  match (mot d n).homing with
  | none => d
  | some h =>
    if h.phase = 1 && !h.braking && neg = h.neg then
      (if h.method = 3 then homeStop d n k h 3 else homeReverse d n k h)
    else homeFail d n k 3

/-- Progress of a homing run at control instant k (R126); `edge` says a limit edge was handled in this instant. -/
def homeProgress (d : Dev) (n k : Nat) (edge : Bool) : Dev :=
  match (mot d n).homing with
  | none => d
  | some h0 =>
    let h := { h0 with path := h0.path + (wrap 64 (pRef d n - h0.last)).natAbs, last := pRef d n }
    let d := setMot d n { mot d n with homing := some h }
    let m := mot d n
    let lim := if h.neg then m.inNeg else m.inPos
    if f32ToRat h.travel < mkRat h.path 65536 then homeFail d n k 4
    else if edge then d
    else if h.braking then
      (if (m.prof.map (fun p => p.ended k)).getD true then homeGo d n k { h with braking := false } else d)
    else if h.phase ≤ 2 then
      if h.fresh && lim.active then (if h.method = 3 then homeStop d n k h 3 else homeReverse d n k h)
      else if (h.method = 1 || h.method = 2) && m.inRef.active then homeStop d n k h 3
      else if h.method = 4 || h.method = 6 then
        match homeEvent d n h.method with
        | some p =>
          let d := homeLatch d n h.home p
          homeStop d n k { h with last := pRef d n } 5
        | none => if h.fresh then homeGo d n k { h with fresh := false } else d
      else if h.fresh then homeGo d n k { h with fresh := false }
      else d
    else if h.phase = 3 then
      if h.method = 1 then
        (if m.inRef.active then d else setMot d n { m with homing := some { h with phase := 4 }, refFlag := false })
      else if (h.method = 2 && !m.inRef.active) || (h.method = 3 && !lim.active) then
        let d := homeLatch d n h.home (axisPos d n)
        homeStop d n k { h with last := pRef d n } 5
      else d
    else if h.phase = 4 then
      match homeEvent d n h.method with
      | some p =>
        let d := homeLatch d n h.home p
        homeStop d n k { h with last := pRef d n } 5
      | none => d
    else d

/-- Whether the latch of the axis's servo window is armed (R200): a homing run waits for the encoder index. -/
def latchArmed (d : Dev) (n : Nat) : Bool :=
  match (mot d n).homing with
  | some h => !h.braking && ((h.method = 1 && h.phase = 4) || (h.method = 4 && h.phase ≤ 2))
  | none => false

/-! Host commands. -/

/-- Whether the profile unit and the axis's cluster are ready, and for a local step axis the step unit (R100, R131). -/
def axisReady (d : Dev) (n : Nat) : Bool :=
  ready d 14 && ready d (6 + cluster d n) && (og d (ax n 1) 1 != 5 || ready d 15)

/-- Conditions of Enable (R104, R233): device Running, the axis bound, its segment Synchronous and its node Integrated. -/
def enableOk (d : Dev) (n : Nat) : Bool :=
  let k := og d (ax n 1) 1
  mode d = 3 && k != 0 &&
  (!onRing k || (segState d (og d (ax n 1) 2) = 3 && (hd d (og d (ax n 1) 2) (og d (ax n 1) 3)).state = 3))

/-- Enable (R74, R104, R148): p_ref := p_ext and the cascade starts with zero integrals. -/
def enableAxis (d : Dev) (n : Nat) : Dev × Nat :=
  if axState d n != 0 then (d, 2)
  else if (fbInput d n).isSome && !ready d 16 then (d, 1)
  else if !enableOk d n then (d, 2)
  else
    let d := setRefs d n (axisPos d n, 0, 0)
    let m := mot d n
    let d := setMot d n { m with demands := [], stop := none }
    let d := setCause d n 0 0
    let d := osb (osb d (ax n 0x1B) 7 4 false) (ax n 0x1F) 0x13 1 false
    let d := osb d (ax n 0x36) 5 7 false
    let c := cur d n
    let d := setCur d n { c with jd := 0, jq := 0, clear := true }
    let p := stp d n
    let d := setStp d n { p with stall := 0, energise := true, clear := true }
    let d := if kind d n = 3 || kind d n = 4 then osf d (ax n 0x36) 1 (ogf d (ax n 0x34) 1) else d
    (showAxis (os d (ax n 9) 1 (if m.queue.isEmpty then 1 else 4)) n, 0)

/-- Disable (R102, R104). -/
def disableCmd (d : Dev) (n : Nat) : Dev × Nat := if axEnabled d n then (axisOff d n 0, 0) else (d, 2)

/-- The staged entry (R105). -/
def staged (d : Dev) (n : Nat) : QEntry :=
  { typ := og d (ax n 0x20) 1, tag := og d (ax n 0x20) 2, target := ogi 64 d (ax n 0x20) 3, vel := ogf d (ax n 0x20) 4,
    acc := ogf d (ax n 0x20) 5, dec := ogf d (ax n 0x20) 6, jerk := ogf d (ax n 0x20) 7, fillet := og d (ax n 0x20) 8,
    dur := og d (ax n 0x20) 9, span := ogi 64 d (ax n 0x20) 0x0A, mkind := og d (ax n 0x21) 1, mnum := og d (ax n 0x21) 2,
    num := ogi 32 d (ax n 0x21) 3, den := og d (ax n 0x21) 4, anchor := og d (ax n 0x21) 5, phi := ogi 64 d (ax n 0x21) 6,
    engage := og d (ax n 0x21) 7, st := .queued, resolved := none, durLeft := og d (ax n 0x20) 9, reached := false,
    ending := false, started := false, since := 0 }

/-- Whether the fields an entry uses lie within their ranges and the axis limits (R106, R128). -/
def fieldsOk (d : Dev) (n : Nat) (e : QEntry) : Bool :=
  let vl := ogq d (ax n 0x23) 1
  let al := ogq d (ax n 0x23) 2
  let jl := ogq d (ax n 0x23) 3
  let pos (x l : Rat) : Bool := decide (0 < x) && decide (x ≤ l)
  let dj := pos (f32ToRat e.dec) al && pos (f32ToRat e.jerk) jl
  let va := decide (ratAbs (f32ToRat e.vel) ≤ vl) && pos (f32ToRat e.acc) al
  if e.typ = 1 || e.typ = 2 then dj && va && decide (f32ToRat e.vel ≠ 0)
  else if e.typ = 3 then dj && va
  else if e.typ = 4 then dj && decide (0 ≤ e.span) && (if e.mkind = 3 then decide (e.mnum < 16) else decide (e.mnum < 512))
  else true

/-- The target and end position of the last position entry, if no velocity or gear entry stands after it (R106). -/
def lastTarget : List QEntry → Option (Option Int)
  | [] => none
  | e :: q =>
    match lastTarget q with
    | some t => some t
    | none => if q.any (fun x => x.typ = 3 || x.typ = 4) then none
              else if e.typ = 1 then some (some e.target) else if e.typ = 2 then some e.resolved else none

/-- Sense of a gear entry's motion from its master's present velocity. -/
def gearDir (d : Dev) (e : QEntry) : Int :=
  let v := (masterOf d e).2.1
  if v = 0 then 0 else if decide (0 < v) = decide (0 < e.num) then 1 else -1

/-- Sense of an entry's motion from a position. -/
def entryDir (d : Dev) (e : QEntry) (start : Int) (t : Int) : Int :=
  if e.typ = 1 || e.typ = 2 then wrap 64 (t - start)
  else if e.typ = 3 then (if f32ToRat e.vel < 0 then -1 else if 0 < f32ToRat e.vel then 1 else 0)
  else if e.typ = 4 then gearDir d e else 0

/-- The result of a command that makes an entry Active (R102, R113): 0x06 where its chain interrupts it at once. -/
def chainResult (d : Dev) (n : Nat) (e : QEntry) : Nat := if e.typ = 4 && chainBad d n e then 6 else 0

/-- Append (R104, R106). -/
def appendEntry (d : Dev) (n k : Nat) : Dev × Nat :=
  let m := mot d n
  let e := staged d n
  let st := axState d n
  let no (r : Nat) : Dev × Nat := (bump d (ax n 0x2D) 1, r)
  let base := lastTarget m.queue
  let start : Int := match base with
    | some (some t) => t
    | _ => pRef d n
  let t := if e.typ = 1 then e.target else wrap 64 (start + e.target)
  if st = 5 || st = 6 || mode d = 4 then no 2
  else if 16 ≤ m.queue.length then no 3
  else if !fieldsOk d n e then no 4
  else if og d (ax n 0x23) 4 = 1 && (e.typ = 1 || e.typ = 2) &&
      (decide (t < ogi 64 d (ax n 0x23) 5) || decide (ogi 64 d (ax n 0x23) 6 < t)) then no 4
  else if intoLimit d n (entryDir d e start t) then no 5
  else
    let e := if e.typ = 1 then { e with resolved := some e.target }
      else if e.typ = 2 then (match base with
        | some (some x) => { e with resolved := some (wrap 64 (x + e.target)) }
        | _ => e)
      else e
    let d := setMot d n { m with queue := m.queue ++ [e] }
    if st = 1 then (showAxis (activate (osb d (ax n 9) 4 9 false) n k none) n, chainResult d n e) else (showAxis d n, 0)

/-- Stop, hold or quick, from the host (R104, R117), with the command's number; while Stopping only a stricter one has an effect (R103). -/
def hostStop (d : Dev) (n k : Nat) (cat : StopCat) (seq : Nat) : Dev × Nat :=
  let st := axState d n
  if mode d = 4 then (d, 2)
  else if st = 2 || st = 5 || (st = 3 && stricter ((mot d n).stop.getD .hold) cat) then (applyStop d n k cat 1 seq, 0)
  else (d, if st = 3 then 2 else 0)

/-- Resume (R119). -/
def resumeAxis (d : Dev) (n k : Nat) : Dev × Nat :=
  if mode d = 4 || axState d n != 4 then (d, 2)
  else if bit (og d (ax n 0x1B) 7) 3 || bit (og d (ax n 0x1B) 7) 4 then (d, 7)
  else
    match (mot d n).queue with
    | [] => (d, 2)
    | e :: _ =>
      let t := e.resolved.getD (if e.typ = 1 then e.target else wrap 64 (pRef d n + e.target))
      if intoLimit d n (entryDir d e (pRef d n) t) then (d, 5)
      else
        let d := osb d (ax n 9) 4 9 false
        if e.st = .interrupted && (e.typ = 1 || e.typ = 2) && e.resolved = some (pRef d n) then
          (entryDone (os d (ax n 9) 1 2) n k, 0)
        else (showAxis (activate d n k none) n, chainResult d n e)

/-- Flush (R104, R107). -/
def flushQueue (d : Dev) (n : Nat) : Dev × Nat :=
  if mode d = 4 || axState d n != 4 then (d, 2)
  else (showAxis (os (setMot d n { mot d n with queue := [], gear := none }) (ax n 9) 1 1) n, 0)

/-- Home (R125). -/
def homeAxis (d : Dev) (n : Nat) : Dev × Nat :=
  let m := mot d n
  let ismaster := (boundAxes d.objs).any (fun x =>
    match activeEntry d x with
    | some e => e.typ = 4 && e.mkind != 3 && e.mnum = n
    | none => false)
  if mode d = 4 || axState d n != 1 || !m.queue.isEmpty || ismaster then (d, 2)
  else if decide (ogq d (ax n 0x23) 1 < ogq d (ax n 0x28) 3) || decide (ogq d (ax n 0x23) 1 < ogq d (ax n 0x28) 4) then (d, 4)
  else
    let home := ogi 64 d (ax n 0x28) 7
    let d := osb (os (os d (ax n 0x29) 2 0) (ax n 0x29) 4 0) (ax n 9) 4 9 false
    if og d (ax n 0x28) 1 = 5 then (os (homeLatch d n home (axisPos d n)) (ax n 0x29) 2 1, 0)
    else
      let h : HomeRun :=
        { method := og d (ax n 0x28) 1, neg := og d (ax n 0x28) 2 = 1, search := ogf d (ax n 0x28) 3, creep := ogf d (ax n 0x28) 4,
          acc := ogf d (ax n 0x28) 5, jerk := ogf d (ax n 0x28) 6, home := home,
          park := if og d (ax n 0x28) 8 = 1 then some (ogi 64 d (ax n 0x28) 9) else none, travel := ogf d (ax n 0x28) 0x0A,
          last := pRef d n, path := 0, phase := 1, braking := false, fresh := true, outcome := 2 }
      (showAxis (os (setMot d n { m with homing := some h, prof := none, refFlag := false }) (ax n 9) 1 5) n, 0)

/-- Whether a cause of a torque-off fault is present (R102 result 0x07): feedback still stale, the pulse input lost, or the
windows still missing. -/
def causePresent (d : Dev) (n : Nat) : Bool :=
  let k := og d (ax n 1) 1
  if k = 1 || k = 2 then
    match fbInput d n with
    | some i => bit (og d (0x3D10 + i) 4) 8 || bit (og d (0x3D10 + i) 4) 9
    | none => decide (og d (ax n 0x16) 2 ≤ (srv d n).stale) || (k = 2 && decide (og d (ax n 0x1F) 7 ≤ (cur d n).missing))
  else if k = 3 || k = 4 then decide (og d (ax n 0x16) 2 ≤ (stp d n).missing)
  else false

/-- Acknowledge (R102, R104, R123): clears a chatter latch; Faulted goes Disabled when no cause is present. -/
def acknowledgeAxis (d : Dev) (n : Nat) : Dev × Nat :=
  let m := mot d n
  let was := m.inPos.latched || m.inNeg.latched || m.inRef.latched
  let clr (i : InputSt) : InputSt := { i with latched := false, changes := if i.latched then [] else i.changes }
  let d1 := osb (setMot d n { m with inPos := clr m.inPos, inNeg := clr m.inNeg, inRef := clr m.inRef }) (ax n 9) 4 8 false
  if axState d n = 6 then (if causePresent d n then (d1, 7) else (os d1 (ax n 9) 1 0, 0))
  else if was then (d1, 0) else (d, 2)

/-- What a command code does: the result code of R102. `seq` is the command's number (R376). -/
def doCommand (d : Dev) (n k code seq : Nat) : Dev × Nat :=
  if mode d = 4 && code != 2 && code != 9 && code != 3 then (d, 2)
  else if code = 0 then (d, 0)
  else if code = 1 then enableAxis d n
  else if code = 2 then disableCmd d n
  else if code = 3 then appendEntry d n k
  else if code = 4 then hostStop d n k .hold seq
  else if code = 5 then hostStop d n k .quick seq
  else if code = 6 then resumeAxis d n k
  else if code = 7 then flushQueue d n
  else if code = 8 then homeAxis d n
  else if code = 9 then acknowledgeAxis d n
  else (d, 2)

/-- Takes the command of axis object 0x08.01 if its sequence byte differs from the one taken last (R100, R101). A command that reaches the
profile unit is an item of the arbiter (R376). -/
def takeCommand (d : Dev) (n k : Nat) : Dev :=
  let c := og d (ax n 8) 1
  let sq := c / 256
  if sq = og d (ax n 9) 3 / 256 then d
  else if !axisReady d n then os d (ax n 9) 3 (sq * 256 + 1)
  else
    match number d with
    | (d, q) =>
      match doCommand d n k (c % 256) (q.getD 0) with
      | (d, r) => os d (ax n 9) 3 (sq * 256 + r)

/-- A new live phase offset taken at control instant k (R116). -/
def livePhase (d : Dev) (n k : Nat) (phi : Int) : Dev :=
  match activeEntry d n, (mot d n).gear with
  | some e, some g =>
    if gearing d n then
      let e := { e with phi := phi }
      let d := setHead d n (fun _ => e)
      let d := setMot d n { mot d n with gear := some (engage d n k e g (masterOf d e)) }
      osb d (ax n 9) 4 2 false
    else d
  | _, _ => d

/-- A write of the live phase offset that waits for this control instant (R116). -/
def takeLivePhase (d : Dev) (n k : Nat) : Dev :=
  match (mot d n).livePhi with
  | some phi => livePhase (setMot d n { mot d n with livePhi := none }) n k phi
  | none => d

/-- Item 4 of R103 for one axis. -/
def progress (d : Dev) (n k : Nat) (edge : Bool) : Dev :=
  let st := axState d n
  if st = 2 then moveProgress d n k
  else if st = 3 then
    (if ((mot d n).prof.map (fun p => p.ended k)).getD true then
       let q := (mot d n).queue
       let d := setMot d n { mot d n with prof := none, stop := none }
       setRefs (os d (ax n 9) 1 (if q.isEmpty then 1 else 4)) n (pRef d n, 0, 0)
     else d)
  else if st = 5 then homeProgress d n k edge
  else d

/-- The items of R103 for one axis at control instant k. -/
def profileItems (d : Dev) (n k : Nat) : Dev :=
  match sampleInputs (takeDemands d n k false) n k with
  | (d, ep, eg) =>
    let edge (d : Dev) (on neg : Bool) : Dev :=
      if !on then d else if axState d n = 5 then homeEdge d n k neg else limitStop d n k neg
    let homing := axState d n = 5
    let d := edge (edge d ep false) eg true
    let d := softLimit d n k
    let d := takeLivePhase (takeCommand d n k) n k
    showAxis (progress d n k (homing && (ep || eg))) n

/-- The references of control instant k (R98, R99), after the stop demands that arose from the control phase of cycle k - 1 on:
they act on these references (R103). -/
def latchRefs (d : Dev) (k : Nat) : Dev :=
  if ready d 14 then
    let d := (boundAxes d.objs).foldl (fun d n => takeDemands d n (k - 1) true) d
    latchGear (latchPlain d k) k
  else d

/-- Unbound slots whose command object or echo is set. -/
def idleSlots (d : Dev) : List Nat :=
  ((d.objs.filter (fun p => 0x800000 ≤ p.1 && (p.1 % 0x4000 = 0x0801 || p.1 % 0x4000 = 0x0903))).map
    (fun p => (p.1 - 0x800000) / 0x4000)).filter (fun n => og d (ax n 1) 1 = 0)

/-- The items of R103 for every axis; without the profile unit, and for unbound slots, only the host command (R100, R101). -/
def profilePhase (d : Dev) (k : Nat) : Dev :=
  let d := (boundAxes d.objs).foldl (fun d n =>
    if ready d 14 && ready d (6 + cluster d n) then profileItems d n k else takeCommand d n k) d
  (idleSlots d).foldl (fun d n => takeCommand d n k) d

/-- An axis command as a step of its own: axis object 0x08.01 takes the code and sequence byte, and the command is taken
(R101). In a pair it is a forwarded item (R330). -/
def axisCommand (d : Dev) (n : Ax) (seq : BitVec 8) (code : Nat) : Dev :=
  let v := seq.toNat * 256 + code
  if paired d then forwardItem d (.command n (BitVec.ofNat 16 v))
  else takeCommand (os d (ax n.val 8) 1 v) n.val d.time.kc

/-- AXIS_COMMAND_NONE (R102). -/
def execAxisCommandNone (n : Ax) (seq : BitVec 8) (s : State) : Host.Outcome State Fault Refusal :=
  .next (upd s (fun d => axisCommand d n seq 0))
/-- ENABLE (R104). -/
def execEnable (n : Ax) (seq : BitVec 8) (s : State) : Host.Outcome State Fault Refusal :=
  .next (upd s (fun d => axisCommand d n seq 1))
/-- DISABLE (R104). -/
def execDisable (n : Ax) (seq : BitVec 8) (s : State) : Host.Outcome State Fault Refusal :=
  .next (upd s (fun d => axisCommand d n seq 2))
/-- APPEND (R106). -/
def execAppend (n : Ax) (seq : BitVec 8) (s : State) : Host.Outcome State Fault Refusal :=
  .next (upd s (fun d => axisCommand d n seq 3))
/-- STOP_HOLD (R117). -/
def execStopHold (n : Ax) (seq : BitVec 8) (s : State) : Host.Outcome State Fault Refusal :=
  .next (upd s (fun d => axisCommand d n seq 4))
/-- STOP_QUICK (R117). -/
def execStopQuick (n : Ax) (seq : BitVec 8) (s : State) : Host.Outcome State Fault Refusal :=
  .next (upd s (fun d => axisCommand d n seq 5))
/-- RESUME (R119). -/
def execResume (n : Ax) (seq : BitVec 8) (s : State) : Host.Outcome State Fault Refusal :=
  .next (upd s (fun d => axisCommand d n seq 6))
/-- FLUSH (R107). -/
def execFlush (n : Ax) (seq : BitVec 8) (s : State) : Host.Outcome State Fault Refusal :=
  .next (upd s (fun d => axisCommand d n seq 7))
/-- HOME (R125). -/
def execHome (n : Ax) (seq : BitVec 8) (s : State) : Host.Outcome State Fault Refusal :=
  .next (upd s (fun d => axisCommand d n seq 8))
/-- ACKNOWLEDGE (R104). -/
def execAcknowledge (n : Ax) (seq : BitVec 8) (s : State) : Host.Outcome State Fault Refusal :=
  .next (upd s (fun d => axisCommand d n seq 9))

/-- LIMIT_RELEASED (R121): the limit has been inactive for its debounce count. -/
def execLimitReleased (n : Ax) (input : Fin 2) (s : State) : Host.Outcome State Fault Refusal :=
  .next (upd s (fun d =>
    let x := getInput (mot d n.val) input.val
    if !x.active && !x.released && !x.latched && decide (instants (cg d (ax n.val 0x2C) 5) ≤ x.quiet) then
      showAxis (setMot d n.val (setInput (mot d n.val) input.val { x with released := true })) n.val
    else d))

/-- LIMIT_CHATTER (R123): the changes in the window exceed N. -/
def execLimitChatter (n : Ax) (input : Fin 3) (s : State) : Host.Outcome State Fault Refusal :=
  .next (upd s (fun d =>
    let x := getInput (mot d n.val) input.val
    if !x.latched && decide (cg d (ax n.val 0x2C) 6 < x.changes.length) then
      let d := setMot d n.val (setInput (mot d n.val) input.val { x with latched := true, released := false })
      let d := bump (osb d (ax n.val 9) 4 8 true) (ax n.val 0x2D) 4
      let d := match (mot d n.val).homing with
        | some h => setMot d n.val { mot d n.val with homing := some { h with outcome := 5 } }
        | none => d
      showAxis (laterStop d (49 + 4 * cluster d n.val) 2 n.val 1) n.val
    else d))

/-- VELOCITY_DURATION_END (R109). -/
def execVelocityDurationEnd (n : Ax) (s : State) : Host.Outcome State Fault Refusal :=
  .next (upd s (fun d =>
    match activeEntry d n.val with
    | some e => if axState d n.val = 2 && e.typ = 3 && !e.ending && e.reached && e.dur != 0 && e.durLeft = 0 then
                  showAxis (entryEnds d n.val d.time.kc) n.val else d
    | none => d))

/-- DWELL_END (R110). -/
def execDwellEnd (n : Ax) (s : State) : Host.Outcome State Fault Refusal :=
  .next (upd s (fun d =>
    match activeEntry d n.val with
    | some e => if axState d n.val = 2 && e.typ = 5 && e.started && e.durLeft = 0 then
                  showAxis (entryEnds d n.val d.time.kc) n.val else d
    | none => d))

/-- GEAR_SPAN_REACHED (R111). -/
def execGearSpanReached (n : Ax) (s : State) : Host.Outcome State Fault Refusal :=
  .next (upd s (fun d =>
    match activeEntry d n.val, (mot d n.val).gear with
    | some e, some g => if gearing d n.val && e.span != 0 && decide (e.span ≤ g.travel) then
                          showAxis (entryEnds d n.val d.time.kc) n.val else d
    | _, _ => d))

/-- GEAR_ENGAGE_END (R115): from k_a + n_e onward the references equal the gear law and status bit 2 is set. -/
def execGearEngageEnd (n : Ax) (s : State) : Host.Outcome State Fault Refusal :=
  .next (upd s (fun d =>
    match activeEntry d n.val, (mot d n.val).gear with
    | some e, some g => if gearing d n.val && decide (g.ka + e.engage ≤ d.time.kc) then osb d (ax n.val 9) 4 2 true else d
    | _, _ => d))

/-- LIVE_PHASE_OFFSET_WRITE (R116): stored, and with an Active gear entry a new engage. -/
def execLivePhaseOffsetWrite (n : Ax) (phi : BitVec 64) (s : State) : Host.Outcome State Fault Refusal :=
  .next (upd s (fun d =>
    if !ready d (6 + cluster d n.val) then answer d .notReady
    else if paired d then forwardItem d (.write [⟨BitVec.ofNat 16 (ax n.val 0x21), 8, 0, leBytes 8 phi.toNat⟩])
    else answer (livePhase (os d (ax n.val 0x21) 8 phi.toNat) n.val d.time.kc (sgn 64 phi.toNat)) .ok))

end Sys2Proof.Machine
end

