-- ==== Sys2Proof/Machine/Servo.lean ====
section
/-! DEFINITION. Servo axes (R52-R80): acceptance of samples, extrapolation, gain scheduling and the cascade with its notches. -/
namespace Sys2Proof.Machine

/-- c_t: units of 2^-16 ns to seconds (R54). -/
def ctF : F32 := f32c (mkRat 1 65536000000000)
/-- T: the loop period in binary32 (R54). -/
def loopT : F32 := f32c cycleT
/-- 2^-16 in binary32. -/
def scale16 : F32 := f32c (mkRat 1 65536)
/-- q of R53: binary32 counts to Q48.16, ties to even, saturating. -/
def qF (x : F32) : Int := satInt 64 (ratRoundEven (f32ToRat x * 65536))
/-- A time difference in units of 2^-16 ns as binary32 seconds (R54). -/
def secF (dt : Int) : F32 := f32Mul (f32OfInt dt) ctF
/-- A position difference in binary32 counts (R53). -/
def countsF (a b : Int) : F32 := f32Mul (f32OfInt (wrap 64 (a - b))) scale16

/-- The position and timestamp a window reports: a servo window's low 48 bits extended to the value nearest the last raw
sample, a wire-current window's 64 bits (R83, R199, R200). `raw` is the last raw position, none before the first. -/
def winSample (k : Nat) (w : Bytes) (raw : Option Int) (cs : Int) : Int × Int :=
  if k = 2 then (sgn 64 (rd w 10 8), cs + sgn 32 (rd w 18 4))
  else
    let lo := rd w 0 6
    let p := match raw with
      | none => sgn 48 lo
      | some r => r + wrap 48 ((lo : Int) - r)
    (wrap 64 p, cs + sgn 32 (rd w 6 4))

/-- Takes a ring sample of axis n at instant tc from the window of the cycle that starts at cs (R57, R58, R127, R200, R449);
the answer says whether it was accepted. -/
def acceptSample (d : Dev) (n : Nat) (tc cs : Int) : Dev × Bool :=
  match axisWin d n with
  | none => (d, false)
  | some w =>
    let k := kind d n
    let v := srv d n
    let o := ogi 64 d (ax n 0x24) 4
    let (raw, ts) := winSample k w (if v.count = 0 then none else some (wrap 64 (v.ps - o))) cs
    if (v.count != 0 && decide (ts ≤ v.ts)) || decide (tc < ts) then (bump d (ax n 0x39) 3, false)
    else
      let d := match (mot d n).restore with
        | some p => setMot (osi 64 d (ax n 0x24) 4 (p - raw)) n { mot d n with restore := none }
        | none => d
      let ps := wrap 64 (raw + ogi 64 d (ax n 0x24) 4)
      let d := if v.count = 0 then d
        else
          let vm := f32Div (countsF ps v.ps) (secF (ts - v.ts))
          let e := ogf d (ax n 0x1B) 3
          osf d (ax n 0x1B) 3 (f32Fma (cgf d (ax n 0x16) 1) (f32Sub vm e) e)
      let c := if v.count < 2 then v.count + 1 else 2
      let d := setSrv d n { v with count := c, ps := ps, ts := ts, fresh := true }
      (osb d (ax n 0x1B) 7 5 (decide (c < 2)), true)

/-- Digital inputs and index latch of an accepted servo window (R120, R199, R200). -/
def servoInputs (d : Dev) (n : Nat) : Dev :=
  let m := mot d n
  let m := { m with refFlag := false }
  match axisWin d n with
  | none => setMot d n m
  | some w =>
    if kind d n = 1 then
      let m := { m with digital := rd w 10 2 }
      let o := ogi 64 d (ax n 0x24) 4
      let raw := wrap 64 ((srv d n).ps - o)
      if latchArmed d n && bit (rd w 12 1) 3 then
        setMot d n { m with refFlag := true, refLatch := wrap 64 ((raw.fdiv 65536 + sgn 24 (rd w 13 3)) * 65536 + o) }
      else setMot d n m
    else setMot d n m

/-- The staleness limit of 64 µs in binary32 (R59). -/
def staleLimit : F32 := f32c (mkRat 64 1000000)

/-- Extrapolation of a ring-fed axis to the control instant (R59, R60). Where no sample has been accepted yet the instant counts as stale
and predicts from where the axis is (DESIGN CHOICE: the manual speaks of the newest accepted sample only; log 79). -/
def trackRing (d : Dev) (n : Nat) (tc : Int) : Dev :=
  let v := srv d n
  let e := ogf d (ax n 0x1B) 3
  let h := secF (tc - v.ts)
  let stale := v.count = 0 || f32Lt staleLimit h
  let p := if stale then wrap 64 (v.pExt + qF (f32Mul e loopT)) else wrap 64 (v.ps + qF (f32Mul e h))
  let p := match (mot d n).restore with
    | some r => r
    | none => p
  let d := if v.fresh then d else bump d (ax n 0x39) 2
  let d := if stale then bump d (ax n 0x39) 1 else d
  let d := osb d (ax n 0x1B) 7 2 stale
  setSrv d n { v with pExt := p, hor := h, stale := if stale then v.stale + 1 else 0, fresh := false, lost := v.lost && stale }

/-- A time of a pulse input, in units of 0.8 ns, as units of 2^-16 ns (R153, R27). -/
def gridToU (t : Int) : Int := ratRoundEven (mkRat (t * 262144) 5)

/-- Extrapolation of an axis fed by a pulse input (R61). -/
def trackPulse (d : Dev) (n i : Nat) (tc : Int) : Dev :=
  let p := pls d i
  let pe := ogi 64 d (0x3D10 + i) 1
  let d := match (mot d n).restore with
    | some r => if ready d 16 then setMot (osi 64 d (ax n 0x24) 4 (r - pe)) n { mot d n with restore := none } else d
    | none => d
  let ps := wrap 64 (pe + ogi 64 d (ax n 0x24) 4)
  let bad := bit (og d (0x3D10 + i) 4) 2
  let e : F32 := if bad then 0 else ogf d (0x3D10 + i) 3
  let ts := gridToU p.te
  let h := secF (tc - ts)
  let pitch := f32OfInt (cg d (0x3D00 + i) 6)
  let m := f32Clamp (f32Neg pitch) pitch (f32Mul e h)
  let d := osb (osb (osf d (ax n 0x1B) 3 e) (ax n 0x1B) 7 2 false) (ax n 0x1B) 7 5 bad
  let v := srv d n
  setSrv d n { v with ps := ps, ts := ts, pExt := wrap 64 (ps + qF m), hor := h, stale := 0, fresh := false, lost := false }

/-- Feedback tracking of a servo axis at the control instant tc; its ring's running cycle starts at cs. -/
def trackServo (d : Dev) (n : Nat) (tc cs : Int) : Dev :=
  match fbInput d n with
  | some i => trackPulse (servoInputs d n) n i tc
  | none => trackRing (servoInputs (acceptSample d n tc cs).1 n) n tc

/-- pi as a binary64 value. -/
def pi64 : Rat := f64ToRat (f64OfRat (mkRat 314159265358979323846264338327950288 100000000000000000000000000000000000))

/-- Notch coefficients b0, b1, b2, a1, a2 from f0, B and D (R69): binary64 operation by operation from left to right, tan and the power
of ten each the nearest binary64 value of its exact result, every coefficient then rounded once to binary32 (log 78). -/
def notchCoef (f0 B D : Rat) : F32 × F32 × F32 × F32 × F32 :=
  let k := r64 (ratTan (r64 (r64 (pi64 * f0) / 31250)))
  let zp := r64 (B / r64 (2 * f0))
  let zz := r64 (zp * r64 (ratPow10 (r64 (D / 20))))
  let kk := r64 (k * k)
  let p := r64 (2 * zp * k)
  let z := r64 (2 * zz * k)
  let a0 := r64 (r64 (1 + p) + kk)
  let b1 := f32OfRat (r64 (r64 (2 * r64 (kk - 1)) / a0))
  (f32OfRat (r64 (r64 (r64 (1 + z) + kk) / a0)), b1, f32OfRat (r64 (r64 (r64 (1 - z) + kk) / a0)), b1,
   f32OfRat (r64 (r64 (r64 (1 - p) + kk) / a0)))

/-- The coefficients in force of notch `o` (0x14 or 0x15) of axis n. -/
def notchInForce (d : Dev) (n o : Nat) : F32 × F32 × F32 × F32 × F32 :=
  notchCoef (cgq d (ax n o) 2) (cgq d (ax n o) 3) (cgq d (ax n o) 4)

/-- One notch on an input x: output, states and enabled flag (R70). -/
def notchRun (on was : Bool) (c : F32 × F32 × F32 × F32 × F32) (s1 s2 x : F32) : F32 × F32 × F32 × Bool :=
  if !on then (x, 0, 0, false)
  else
    let (b0, b1, b2, a1, a2) := c
    let s0 := f32Mul (f32Sub b2 a2) x
    let s1 := if was then s1 else s0
    let s2 := if was then s2 else s0
    let y := f32Fma b0 x s1
    (y, f32Fma b1 x (f32Fma (f32Neg a1) y s2), f32Fma b2 x (f32Mul (f32Neg a2) y), true)

/-- Gain g of facet f (R71): 0 Kp, 1 Ki_p, 2 Kv, 3 Ki_v, 4 kvf, 5 kaf. -/
def facetGain (d : Dev) (n f g : Nat) : F32 := cgf d (ax n 0x19) (1 + 6 * (f - 1) + g)
/-- The unscheduled gain g. -/
def plainGain (d : Dev) (n g : Nat) : F32 :=
  if g = 0 then cgf d (ax n 0x10) 1 else if g = 1 then cgf d (ax n 0x10) 2 else if g = 2 then cgf d (ax n 0x11) 1
  else if g = 3 then cgf d (ax n 0x11) 2 else if g = 4 then cgf d (ax n 0x12) 1 else cgf d (ax n 0x12) 2

/-- The scheduling variable x (R73). -/
def schedVar (d : Dev) (n : Nat) : F32 :=
  let c := cg d (ax n 0x17) 1
  if c = 1 then f32Abs (ogf d (ax n 0x24) 2)
  else if c = 2 then
    let l := qF (cgf d (ax n 0x17) 3)
    f32Mul (f32OfInt ((wrap 64 ((srv d n).pExt - qF (cgf d (ax n 0x17) 2))).emod l)) scale16
  else if c = 3 then f32Abs (ogf d (ax n 0x1B) 6)
  else if c = 4 then
    let f := cg d (ax n 0x17) 4
    f32OfInt (sgn 16 (og d (f / 65536) (f / 256 % 256)))
  else 0

/-- Largest facet f ≤ count with b_f ≤ x, or 1 (R72). -/
def facetOf (d : Dev) (n : Nat) (x : F32) : Nat :=
  (List.range (cg d (ax n 0x17) 5)).foldl (fun a i => if f32Le (cgf d (ax n 0x18) (i + 1)) x then i + 1 else a) 1

/-- Gain scheduling (R72): the six gains in force, the variable and the facet are written to axis object 0x1A. -/
def schedule (d : Dev) (n : Nat) : Dev :=
  let on := cg d (ax n 0x17) 1 != 0
  let x := schedVar d n
  let f := facetOf d n x
  let cnt := cg d (ax n 0x17) 5
  let b1 := cgf d (ax n 0x18) f
  let b2 := cgf d (ax n 0x18) (f + 1)
  let gain (g : Nat) : F32 :=
    if !on then plainGain d n g
    else if f32Le x (cgf d (ax n 0x18) 1) then facetGain d n 1 g
    else if cnt ≤ f then facetGain d n cnt g
    else
      let w := f32Div (f32Sub x b1) (f32Sub b2 b1)
      f32Fma w (f32Sub (facetGain d n (f + 1) g) (facetGain d n f g)) (facetGain d n f g)
  let vals := (List.range 6).map gain
  let d := (List.range 6).foldl (fun d g => osf d (ax n 0x1A) (g + 1) (vals.getD g 0)) d
  osb (os (osf d (ax n 0x1A) 7 (if on then x else 0)) (ax n 0x1A) 8 (if on then f else 1)) (ax n 0x1B) 7 6 on

/-- The cascade of an enabled servo axis (R62-R67, R70). -/
def cascade (d : Dev) (n : Nat) : Dev :=
  let lm := cg d (ax n 0x1E) 1
  let d := schedule d n
  let v := srv d n
  let g (i : Nat) : F32 := ogf d (ax n 0x1A) (i + 1)
  let kp := g 0
  let kv := g 2
  let kvf := g 4
  let kaf := g 5
  let ip := ogf d (ax n 0x1B) 5
  let iv := ogf d (ax n 0x1B) 6
  let vref := ogf d (ax n 0x24) 2
  let aref := ogf d (ax n 0x24) 3
  let vest := ogf d (ax n 0x1B) 3
  let stale := bit (og d (ax n 0x1B) 7) 2
  let ep := countsF (pRef d n) v.pExt
  let femax := cgf d (ax n 0x10) 5
  let fe := lm = 1 && f32Lt femax (f32Abs ep)
  let vmax := cgf d (ax n 0x10) 4
  let vc := if lm = 1 then f32Fma kvf vref (f32Fma kp ep ip) else vref
  let vlim := f32Lt vmax vc || f32Lt vc (f32Neg vmax)
  let vc := f32Clamp (f32Neg vmax) vmax vc
  let ev := f32Sub vc vest
  let t := f32Fma kaf aref (f32Fma kv ev iv)
  let r1 := notchRun (cg d (ax n 0x14) 1 = 1) v.n1on (notchInForce d n 0x14) v.n1s1 v.n1s2 t
  let r2 := notchRun (cg d (ax n 0x15) 1 = 1) v.n2on (notchInForce d n 0x15) v.n2s1 v.n2s2 r1.1
  let tp := cgf d (ax n 0x13) 1
  let tn := f32Neg (cgf d (ax n 0x13) 2)
  let t2 := r2.1
  let sat := f32Lt tp t2 || f32Lt t2 tn
  let tau := f32Clamp tn tp t2
  let ivm := cgf d (ax n 0x11) 3
  let ipm := cgf d (ax n 0x10) 3
  let iv' := if sat || stale then iv else f32Clamp (f32Neg ivm) ivm (f32Fma (f32Mul (g 3) loopT) ev iv)
  let ip' := if sat || vlim || stale || lm != 1 then ip else f32Clamp (f32Neg ipm) ipm (f32Fma (f32Mul (g 1) loopT) ep ip)
  let was := bit (og d (ax n 0x1B) 7) 3
  let d := osf (osf (osf d (ax n 0x1B) 2 vc) (ax n 0x1B) 4 tau) (ax n 0x1B) 6 iv'
  let d := if lm = 1 then osf (osf d (ax n 0x1B) 1 ep) (ax n 0x1B) 5 ip' else d
  let d := osb (osb d (ax n 0x1B) 7 0 sat) (ax n 0x1B) 7 1 vlim
  let d := if lm = 1 then osb d (ax n 0x1B) 7 3 fe else d
  let d := if sat then bump d (ax n 0x39) 4 else d
  let d := if vlim then bump d (ax n 0x39) 5 else d
  let d := setSrv d n { v with ev := ev, tIn := t, tOut := t2, n1s1 := r1.2.1, n1s2 := r1.2.2.1, n1on := r1.2.2.2,
                               n2s1 := r2.2.1, n2s2 := r2.2.2.1, n2on := r2.2.2.2 }
  if fe && !was then laterStop d (49 + 4 * cluster d n) 1 n 1 else d

/-- A disabled servo axis in the control phase: τ = 0, integrals and notch states 0 (R74). -/
def idleServo (d : Dev) (n : Nat) : Dev :=
  let d := schedule d n
  let d := osf (osf (osf d (ax n 0x1B) 4 0) (ax n 0x1B) 5 0) (ax n 0x1B) 6 0
  let d := osb (osb d (ax n 0x1B) 7 0 false) (ax n 0x1B) 7 1 false
  let v := srv d n
  setSrv d n { v with n1s1 := 0, n1s2 := 0, n2s1 := 0, n2s2 := 0, tIn := 0, tOut := 0,
                      n1on := cg d (ax n 0x14) 1 = 1, n2on := cg d (ax n 0x15) 1 = 1 }

/-- The control phase of a servo axis after its profile items: cascade when enabled and not in loop mode "off" (R62, R74). The manual
gives an enabled axis in mode "off" no effect of its own: it counts as a disabled cascade (DESIGN CHOICE, log 80). -/
def servoPhase (d : Dev) (n : Nat) : Dev :=
  if axEnabled d n && cg d (ax n 0x1E) 1 != 0 then cascade d n else idleServo d n

/-- "Axis feedback loss" (R60, R163): status bit 4, the source, and torque off whatever the stop category. -/
def feedbackLoss (d : Dev) (n : Nat) : Dev :=
  laterStop (osb (setSrv d n { srv d n with lost := true }) (ax n 0x1B) 7 4 true) (50 + 4 * cluster d n) 1 n 2

/-- AXIS_FEEDBACK_LOSS (R60): the consecutive-stale count has reached the loss threshold, and this run of stale instants has not been
reported, or an Enable has cleared the status bit since. -/
def execAxisFeedbackLoss (n : Ax) (s : State) : Host.Outcome State Fault Refusal :=
  .next (upd s (fun d =>
    let k := kind d n.val
    if (k = 1 || k = 2) && (fbInput d n.val).isNone && decide (cg d (ax n.val 0x16) 2 ≤ (srv d n.val).stale) &&
        (!bit (og d (ax n.val 0x1B) 7) 4 || !(srv d n.val).lost) then feedbackLoss d n.val else d))

end Sys2Proof.Machine
end

