-- ==== Sys2Proof/Machine/Current.lean ====
section
/-! DEFINITION. The current loop of wire-current axes and the load-angle estimate of phase-reporting stepper axes (R81-R97). -/
namespace Sys2Proof.Machine

/-- pi to 35 digits. -/
def piR : Rat := mkRat 314159265358979323846264338327950288 100000000000000000000000000000000000
/-- k_3, the binary32 value nearest 1/3 (R87). -/
def k3F : F32 := f32c (mkRat 1 3)
/-- k_r3, nearest 1/sqrt 3. -/
def kr3F : F32 := f32c (ratSqrt (mkRat 1 3))
/-- k_h3, nearest sqrt 3 / 2. -/
def kh3F : F32 := f32c (ratSqrt (mkRat 3 4))
/-- 0.5. -/
def halfF : F32 := f32c (mkRat 1 2)
/-- A signed 16-bit field scaled by a binary32 factor. -/
def rawF (raw : Nat) (c : F32) : F32 := f32Mul (f32OfInt (sgn 16 raw)) c
/-- c_i = I_fs / 32768 (R87). -/
def ciF (d : Dev) (n : Nat) : F32 := f32Mul (cgf d (ax n 0x1F) 4) (f32c (mkRat 1 32768))
/-- The larger of two binary32 values. -/
def fmax (a b : F32) : F32 := if f32Lt a b then b else a
/-- The smaller of two binary32 values. -/
def fmin (a b : F32) : F32 := if f32Lt b a then b else a

/-- The gains kp_d, kp_q and ki_t from the motor model and the bandwidth (R89): binary64 operation by operation from left to right, each
rounded once to binary32 (log 78). -/
def currentGains (d : Dev) (n : Nat) : F32 × F32 × F32 :=
  let w := r64 (2 * pi64 * cgq d (ax n 0x1F) 1)
  (f32OfRat (r64 (w * cgq d (ax n 0x1C) 3)), f32OfRat (r64 (w * cgq d (ax n 0x1C) 4)),
   f32OfRat (r64 (r64 (w * cgq d (ax n 0x1C) 2) * f32ToRat (f32c (mkRat 16 1000000)))))

/-- The angle unit's sine of a U32 fraction of a turn: within 1 ulp, a fixed function of its input (R88). -/
def sinF (t : BitVec 32) : F32 := f32Within (ratSin t) (Config.sinUlp t)
/-- The angle unit's cosine (R88). -/
def cosF (t : BitVec 32) : F32 := f32Within (ratCos t) (Config.cosUlp t)
/-- The angle unit's atan2 in degrees (R88, R96); the origin has no exact result. -/
def atan2F (y x : F32) : F32 :=
  if f32ToRat y = 0 && f32ToRat x = 0 then Config.atan2Origin y x
  else f32Within (ratAtan2 (f32ToRat y) (f32ToRat x)) (Config.atan2Ulp y x)

/-- The electrical angle at a sample position, a U32 fraction of a turn (R88). -/
def angle32 (d : Dev) (n : Nat) (ps : Int) : Nat :=
  let cpr := cg d (ax n 0x1C) 8
  let m := (wrap 64 (ps - qF (cgf d (ax n 0x1C) 9))).emod (cpr * 65536 : Nat)
  (m.toNat * cg d (ax n 0x1C) 1 * 2 ^ 32 / (cpr * 65536)) % 2 ^ 32

/-- One duty as U16 (R87). -/
def dutyOf (u off ud : F32) : Nat :=
  let x := f32Clamp 0 (f32c 1) (f32Add halfF (f32Div (f32Add u off) ud))
  (ratRoundEven (f32ToRat (f32Mul x (f32c 65535)))).toNat

/-- A trip of the stage (R93): gates off, integrals 0, the source, torque off. -/
def stageTrip (d : Dev) (n cause : Nat) : Dev :=
  let c := cur d n
  laterStop (setCur d n { c with gates := false, jd := 0, jq := 0 }) (51 + 4 * cluster d n) cause n 2

/-- The conditions of R93 on a window's sample; the answer says whether one trips the stage. The gates are on while the control word
commands them (DESIGN CHOICE, log 82). A stage fault that an Enable has asked the node to clear counts again from the first window that
can show the answer. A disabled axis has no torque to turn off: it raises an overcurrent or a stage fault once, when it appears (log 83). -/
def stageCheck (d : Dev) (n : Nat) (w : Bytes) : Dev × Bool :=
  let c := cur d n
  let en := axEnabled d n
  let ci := ciF d n
  let trip := cgf d (ax n 0x1F) 5
  let seen := bit (og d (ax n 0x1F) 0x13) 1
  let above := [2, 4, 6].any (fun o => f32Lt trip (f32Abs (rawF (rd w o 2) ci)))
  let ovr := above && (en || !seen)
  let ud := f32Mul (f32OfInt (rd w 8 2)) (f32c (mkRat 1 64))
  let under := f32Lt ud (cgf d (ax n 0x1F) 6) && c.gates
  let told := bit (rd w 0 2) 2
  let fault := told && !c.clear && !c.asked && (en || !c.fault)
  let d := setCur (osb d (ax n 0x1F) 0x13 2 under) n { c with fault := told }
  let d := if ovr then stageTrip (osb d (ax n 0x1F) 0x13 1 true) n 1 else d
  let d := if under then stageTrip d n 2 else d
  let d := if fault then stageTrip d n (3 + 256 * rd w 23 1) else d
  (d, ovr || under || fault)

/-- The current loop proper on a usable sample (R87, R88, R90, R94); `mid` is t_mid - t_s in units of 2^-16 ns, the loop delay of R91 with
the scheduled t_s (DESIGN CHOICE, log 81). -/
def currentRun (d : Dev) (n : Nat) (w : Bytes) (mid : Int) : Dev :=
  let c := cur d n
  let ci := ciF d n
  let ia := rawF (rd w 2 2) ci
  let ib := rawF (rd w 4 2) ci
  let ic := rawF (rd w 6 2) ci
  let ud := f32Mul (f32OfInt (rd w 8 2)) (f32c (mkRat 1 64))
  let (kpd, kpq, kit) := currentGains d n
  let ial := f32Mul (f32Sub (f32Fma (f32c 2) ia (f32Neg ib)) ic) k3F
  let ibe := f32Mul (f32Sub ib ic) kr3F
  let th := angle32 d n (srv d n).ps
  let cs := cosF (BitVec.ofNat 32 th)
  let sn := sinF (BitVec.ofNat 32 th)
  let id := f32Fma cs ial (f32Mul sn ibe)
  let iq := f32Fma cs ibe (f32Neg (f32Mul sn ial))
  let kw := f32c (2 * piR * mkRat (cg d (ax n 0x1C) 1) (cg d (ax n 0x1C) 8))
  let we := f32Mul (ogf d (ax n 0x1B) 3) kw
  let imax := cgf d (ax n 0x1C) 7
  let idr := cgf d (ax n 0x1F) 2
  let iql := f32Sqrt (f32Sub (f32Mul imax imax) (f32Mul idr idr))
  let want := f32Mul (ogf d (ax n 0x1B) 4) (cgf d (ax n 0x1C) 6)
  let iqr := f32Clamp (f32Neg iql) iql want
  let off := !bit (rd w 0 2) 0
  let jd0 : F32 := if off then 0 else c.jd
  let jq0 : F32 := if off then 0 else c.jq
  let ed := f32Sub idr id
  let eq := f32Sub iqr iq
  let vd := f32Sub (f32Fma kpd ed jd0) (f32Mul we (f32Mul (cgf d (ax n 0x1C) 4) iq))
  let vq := f32Add (f32Fma kpq eq jq0) (f32Mul we (f32Fma (cgf d (ax n 0x1C) 3) id (cgf d (ax n 0x1C) 5)))
  let um := f32Mul (f32Mul (cgf d (ax n 0x1F) 3) ud) kr3F
  let vdl := f32Clamp (f32Neg um) um vd
  let vqm := f32Sqrt (f32Fma um um (f32Neg (f32Mul vdl vdl)))
  let vql := f32Clamp (f32Neg vqm) vqm vq
  let jd := if off then 0 else if f32ToRat vdl = f32ToRat vd then f32Fma kit ed jd0 else jd0
  let jq := if off then 0 else if f32ToRat vql = f32ToRat vq then f32Fma kit eq jq0 else jq0
  let adv := ratRoundEven (f32ToRat we * mkRat mid 65536000000000 * mkRat (2 ^ 32) 1 / (2 * piR))
  let th2 := BitVec.ofInt 32 ((th : Int) + adv)
  let c2 := cosF th2
  let s2 := sinF th2
  let ual := f32Fma c2 vdl (f32Neg (f32Mul s2 vql))
  let ube := f32Fma s2 vdl (f32Mul c2 vql)
  let mh := f32Mul (f32Neg halfF) ual
  let ub := f32Fma kh3F ube mh
  let uc := f32Fma (f32Neg kh3F) ube mh
  let of_ := f32Mul (f32Neg halfF) (f32Add (fmax (fmax ual ub) uc) (fmin (fmin ual ub) uc))
  let lim := f32ToRat vdl ≠ f32ToRat vd || f32ToRat vql ≠ f32ToRat vq
  let ilim := f32ToRat iqr ≠ f32ToRat want
  let (da, d) := if f32ToRat ud = 0 then freeVal d 16 else (dutyOf ual of_ ud, d)
  let (db, d) := if f32ToRat ud = 0 then freeVal d 16 else (dutyOf ub of_ ud, d)
  let (dc, d) := if f32ToRat ud = 0 then freeVal d 16 else (dutyOf uc of_ ud, d)
  let d := setCur d n { c with jd := jd, jq := jq, dutyA := da, dutyB := db, dutyC := dc, gates := true }
  let o := ax n 0x1F
  let d := osf (osf (osf (osf (osf d o 0x0E id) o 0x0F iq) o 0x10 vdl) o 0x11 vql) o 0x12 ud
  let d := osb (osb d o 0x13 3 lim) o 0x13 4 ilim
  let d := if lim then bump d (ax n 0x3A) 3 else d
  if ilim then bump d (ax n 0x3A) 4 else d

/-- "Axis current feedback loss" (R92): gates off at once, the source, and torque off whatever the stop category. -/
def currentLoss (d : Dev) (n : Nat) : Dev :=
  laterStop (osb (setCur d n { cur d n with gates := false }) (ax n 0x1F) 0x13 5 false) (50 + 4 * cluster d n) 2 n 2

/-- A tight control phase without a usable sample (R92): counted, and at the threshold the loss in this phase. -/
def missedPhase (d : Dev) (n : Nat) (sumBad : Bool) : Dev :=
  let m := (cur d n).missing + 1
  let thr := cg d (ax n 0x1F) 7
  let d := bump (osb (setCur d n { cur d n with missing := m }) (ax n 0x1F) 0x13 0 true) (ax n 0x3A) 1
  let d := if sumBad then bump d (ax n 0x3A) 2 else d
  if decide (thr ≤ m) && (axEnabled d n || m = thr) then currentLoss d n else d

/-- The current status bits that stand for one phase only (R97). -/
def clearPhaseBits (d : Dev) (n : Nat) : Dev :=
  let o := ax n 0x1F
  osb (osb (osb (osb d o 0x13 0 false) o 0x13 2 false) o 0x13 3 false) o 0x13 4 false

/-- A tight control phase of wire-current axis n (R87, R92-R94). `w` is its window of this tight cycle, `ok` whether the
sample was accepted by R57; the conditions of R93 come before that test (DESIGN CHOICE, log 84). -/
def currentPhase (d : Dev) (n : Nat) (w : Option Bytes) (ok : Bool) : Dev :=
  let b := mould d (cg d (ax n 1) 2)
  let j := cg d (ax n 1) 3
  let app := applyPwm b j (cg d (ax n 0x1F) 8)
  let mid := loopDelay b j (cg d (ax n 0x1F) 8)
  let d := clearPhaseBits (osf d (ax n 0x1F) 0x0D (secF mid)) n
  let d := setCur d n { cur d n with apply := pat 32 app }
  let r := match w with
    | some x =>
      let d := if bit (rd x 0 2) 3 then bump d (ax n 0x3A) 5 else d
      stageCheck (osb d (ax n 0x1F) 0x13 6 (!bit (rd x 0 2) 0)) n x
    | none => (d, false)
  let d := setCur r.1 n { cur r.1 n with asked := false }
  let ci := ciF d n
  let sumBad := match w with
    | some x =>
      let sum := f32Add (f32Add (rawF (rd x 2 2) ci) (rawF (rd x 4 2) ci)) (rawF (rd x 6 2) ci)
      f32Lt (f32Mul (f32c (mkRat 1 10)) (cgf d (ax n 0x1F) 4)) (f32Abs sum)
    | none => false
  let d := match w with
    | some x =>
      if sumBad || !ok then missedPhase d n sumBad
      else
        let d := setCur d n { cur d n with missing := 0 }
        if axEnabled d n && !r.2 then currentRun d n x mid else d
    | none => missedPhase d n false
  let c := cur d n
  let d := if axEnabled d n then d
    else setCur d n { c with jd := 0, jq := 0, dutyA := 32767, dutyB := 32767, dutyC := 32767, gates := false }
  osb d (ax n 0x1F) 0x13 5 (cur d n).gates

/-- Degrees wrapped into (-180, 180] (R96). -/
def wrapDeg (x : F32) : F32 :=
  if f32Lt (f32c 180) x then f32Sub x (f32c 360) else if f32Le x (f32c (-180)) then f32Add x (f32c 360) else x

/-- The load-angle update of a phase-reporting stepper axis in a control phase of its ring (R96): the estimate is invalid while the
commanded frequency lies below its minimum, and a new sample updates it. -/
def loadAngle (d : Dev) (n : Nat) (tc cs : Int) : Dev :=
  let vr := ogf d (ax n 0x24) 2
  let fast := f32Le (cgf d (ax n 0x1F) 0x16) (f32Mul (f32Abs vr) (f32c (mkRat 1 1024)))
  let d := if fast then d else osb (setCur d n { cur d n with valid := false }) (ax n 0x1F) 0x13 7 false
  match axisWin d n with
  | none => d
  | some w =>
    let c := cur d n
    let ts := cs + sgn 32 (rd w 18 4)
    if (c.held && decide (ts ≤ c.at_)) || decide (tc < ts) then d
    else
      let ci := ciF d n
      let ia := rawF (rd w 2 2) ci
      let ib := rawF (rd w 4 2) ci
      let vs := f32c (mkRat 1 64)
      let ua := rawF (rd w 6 2) vs
      let ub := rawF (rd w 8 2) vs
      let ok := c.held && fast
      let d1 := setCur d n { c with ia := ia, ib := ib, at_ := ts, held := true, valid := ok }
      let d1 := osb d1 (ax n 0x1F) 0x13 7 ok
      if !ok then d1
      else
        let dt := secF (ts - c.at_)
        let rs := cgf d (ax n 0x1C) 2
        let ld := cgf d (ax n 0x1C) 3
        let ima := f32Mul (f32Add ia c.ia) halfF
        let imb := f32Mul (f32Add ib c.ib) halfF
        let ea := f32Sub ua (f32Fma rs ima (f32Mul ld (f32Div (f32Sub ia c.ia) dt)))
        let eb := f32Sub ub (f32Fma rs imb (f32Mul ld (f32Div (f32Sub ib c.ib) dt)))
        let neg := f32Lt vr 0
        let thi := atan2F imb ima
        let thr := atan2F (if neg then ea else f32Neg ea) (if neg then f32Neg eb else eb)
        let dd := wrapDeg (f32Sub thi thr)
        let de := ogf d (ax n 0x1F) 0x14
        let nw := if c.valid then wrapDeg (f32Add de (f32Mul (cgf d (ax n 0x1F) 0x15) (wrapDeg (f32Sub dd de)))) else dd
        osf d1 (ax n 0x1F) 0x14 nw

/-- AXIS_CURRENT_FEEDBACK_LOSS (R92): the consecutive count of phases without a usable sample of an enabled axis stands at its threshold.
The phase in which the count reaches it does the same at once; the event finds more to do only after an Enable or a lowered threshold. -/
def execAxisCurrentFeedbackLoss (n : Ax) (s : State) : Host.Outcome State Fault Refusal :=
  .next (upd s (fun d =>
    if kind d n.val = 2 && axEnabled d n.val && decide (cg d (ax n.val 0x1F) 7 ≤ (cur d n.val).missing) then currentLoss d n.val else d))

end Sys2Proof.Machine
end

