-- ==== Sys2Proof/Machine/Stepper.lean ====
section
/-! DEFINITION. Stepper axes and step channels (R129-R151). -/
namespace Sys2Proof.Machine

/-- The reference extrapolated over a time in seconds: p_ref + q((0.5 a t + v) t) (R132, R140, R165). -/
def extrapolate (p : Int) (v a t : F32) : Int :=
  wrap 64 (p + qF (f32Mul (f32Fma (f32Mul halfF a) t v) t))

/-- 36 µs in binary32 (R132). -/
def d36 : F32 := f32c (mkRat 36 1000000)

/-! Local step axes. -/

/-- A step width in ns, rounded up to 4 ns (R134). -/
def width4 (w : Nat) : Nat := (w + 3) / 4 * 4
/-- f_max in Hz for a step width (R134). -/
def fmaxOf (w : Nat) : Rat :=
  let f : Rat := mkRat 1000000000 (2 * width4 w)
  if 5000000 < f then 5000000 else f
/-- V_max for a step width (R134). -/
def vmaxOf (w : Nat) : Nat := (fmaxOf w * (2 ^ 48 : Nat) / 250000000).floor.toNat
/-- f_max of channel c as its settings stand (R150). -/
def stepFmax (d : Dev) (c : Nat) : Rat := fmaxOf (og d (0x3D80 + c) 1)

/-- The settings of channel c take effect at the cycle start (R150). -/
def chanSettings (d : Dev) (c : Nat) : Dev :=
  setChan d c { chan d c with width := width4 (og d (0x3D80 + c) 1), setup := og d (0x3D80 + c) 2, pol := og d (0x3D80 + c) 3,
                              on := og d (0x3D80 + c) 4 = 1 }

/-- Channel c at a cycle start: the cycle that ends runs to its end, and its settings for the new one are taken (R134, R150). -/
def chanCycle (d : Dev) (c : Nat) : Dev :=
  let d := chanRun d c 8000
  chanSettings (setChan d c { chan d c with idle := (chan d c).idle - 8000 }) c

/-- STEP_CHANNEL_UPDATE (R133, R135, R136): the evaluation of the channel of local step axis n at a cycle start. The direction changes
at tick `idle` of the cycle and the setup time follows; suppression beyond the cycle goes on in the next. -/
def stepUpdate (d : Dev) (n : Nat) : Dev :=
  let c := cg d (ax n 1) 5
  let p := chan d c
  if !axEnabled d n || !ready d 15 || !ready d (6 + cluster d n) then
    osb (osb (chanStop d c) (ax n 0x36) 5 5 false) (ax n 0x36) 5 0 false
  else
    let tgt := ogi 64 d (ax n 0x36) 6 - offsetFraction d n
    let dd := wrap 64 (tgt - p.pos)
    let rev := dd != 0 && decide (dd < 0) != p.neg
    let dd := if rev then wrap 64 (tgt - p.s * 65536) else dd
    let sup := if rev then p.idle + (p.setup + 3) / 4 else p.supLeft
    let av := 8000 - sup
    let v : Nat := if av = 0 then 0 else (ratRoundEven (mkRat (dd.natAbs * 2 ^ 32) av)).toNat
    let vm := vmaxOf p.width
    let rl := decide (vm < v)
    let p := if rev then { p with acc := 0, neg := !p.neg } else p
    let d := setChan d c { p with v := if rl then vm else v, nSup := if sup < 8000 then sup else 8000, supLeft := sup - 8000 }
    let d := if rev then bump d (ax n 0x3B) 5 else d
    let d := if rl then bump d (ax n 0x3B) 3 else d
    osb (osb d (ax n 0x36) 5 5 rl) (ax n 0x36) 5 0 rev

/-- The local step axes whose channel the step unit evaluates (R133). -/
def stepAxes (d : Dev) : List Nat := (boundAxes d.inForce).filter (fun n => kind d n = 5)

/-- The step unit at a cycle start: every channel ends its cycle, and the bound ones are evaluated (R133). A channel no axis is bound to
makes no step. -/
def stepUnit (d : Dev) : Dev :=
  let ns := stepAxes d
  let d := (List.range 16).foldl (fun d c =>
    let d := chanCycle d c
    if ns.any (fun n => cg d (ax n 1) 5 = c) then d else chanStop d c) d
  ns.foldl stepUpdate d

/-- The control phase of a local step axis (R132). -/
def localPhase (d : Dev) (n : Nat) : Dev :=
  let now := stepNow d n 7000
  let t := if axEnabled d n then extrapolate (pRef d n) (ogf d (ax n 0x24) 2) (ogf d (ax n 0x24) 3) d36 else now
  osi 64 (osi 64 d (ax n 0x36) 6 t) (ax n 0x36) 7 now

/-! Network stepper axes. -/

/-- Takes an accepted window of a network stepper axis (R130, R139, R142); `cs` is the start of the ring cycle of the window. -/
def stepperAccept (d : Dev) (n : Nat) (cs : Int) : Dev :=
  match axisWin d n with
  | none => d
  | some w =>
    let la := kind d n = 4
    let raw := rd w (if la then 14 else 6) 4
    let p := stp d n
    let o := ogi 64 d (ax n 0x24) 4
    let m := mot d n
    let base := wrap 64 (p.ps - o)
    let cnt := base.fdiv 65536
    let ext := wrap 64 ((cnt + wrap 32 ((raw : Int) - cnt)) * 65536)
    let o' := match m.restore with
      | some x => wrap 64 (x - ext)
      | none => o
    let d := setMot (osi 64 d (ax n 0x24) 4 o') n { m with restore := none }
    let ps := wrap 64 (ext + o')
    let ud := f32Mul (f32OfInt (rd w (if la then 10 else 4) 2)) (f32c (mkRat 1 64))
    let duty := f32Mul (f32OfInt (rd w (if la then 12 else 2) 2)) (f32c (mkRat 1 65535))
    let held := bit (rd w 0 2) 3
    let d := setStp d n { p with ps := ps, ud := ud, duty := duty, accepted := true, ts := cs + sgn 32 (rd w (if la then 18 else 10) 4) }
    let d := osi 64 d (ax n 0x36) 7 ps
    let d := osb d (ax n 0x36) 5 3 held
    if held then bump d (ax n 0x3B) 4 else d

/-- Adaptive coil current and the stall count of an enabled network stepper axis (R146, R147); `accepted` says that a window came. -/
def adaptCurrent (d : Dev) (n : Nat) (accepted : Bool) : Dev :=
  let p := stp d n
  let I := ogf d (ax n 0x36) 1
  let imax := cgf d (ax n 0x34) 2
  let ihold := cgf d (ax n 0x34) 1
  let df := ogf d (ax n 0x36) 3
  let df := if accepted then f32Fma (cgf d (ax n 0x35) 1) (f32Sub p.duty df) df else df
  let d := osf d (ax n 0x36) 3 df
  let fe := f32Mul (f32Abs (ogf d (ax n 0x24) 2)) (f32c (mkRat 1 1024))
  let one := f32c 1
  let k2pi := f32c (2 * piR)
  let low := f32Lt p.ud one
  let de := f32Div (f32Fma I (cgf d (ax n 0x1C) 2) (f32Mul (f32Mul k2pi fe) (f32Fma (cgf d (ax n 0x1C) 3) I (cgf d (ax n 0x1C) 5)))) p.ud
  let lam0 : F32 := if low then 0
    else if f32Le (f32c (mkRat 98 100)) de then one
    else f32Clamp 0 one (f32Div (f32Sub df de) (f32Sub one de))
  let la := kind d n = 4 && bit (og d (ax n 0x1F) 0x13) 7
  let delta := ogf d (ax n 0x1F) 0x14
  let lam := if la then f32Clamp 0 one (f32Div delta (cgf d (ax n 0x35) 5)) else lam0
  let it := f32Fma (f32Sub imax ihold) (fmin (f32Div lam (cgf d (ax n 0x35) 2)) one) ihold
  let I' := if f32Lt I it then fmin (f32Add I (cgf d (ax n 0x34) 3)) it else fmax (f32Sub I (cgf d (ax n 0x34) 4)) it
  let atMax := f32ToRat I' = f32ToRat imax
  let ovr := if la then f32Le (cgf d (ax n 0x35) 5) delta else f32Le (cgf d (ax n 0x35) 3) lam
  let stall := if !accepted then p.stall else if atMax && ovr then p.stall + 1 else 0
  let d := setStp d n { p with stall := stall }
  let d := osf (osf d (ax n 0x36) 1 I') (ax n 0x36) 2 lam
  let d := if low then d else osf d (ax n 0x36) 4 de
  osb (osb d (ax n 0x36) 5 6 la) (ax n 0x36) 5 4 atMax

/-- The target, velocity and apply instant of the next frame (R140, R148). -/
def stepperTarget (d : Dev) (n : Nat) : Dev :=
  let b := mould d (cg d (ax n 1) 2)
  let app := applyWhole b
  let p := stp d n
  if axEnabled d n then
    let dh := secF (4000 * nsU + app)
    let v := ogf d (ax n 0x24) 2
    let a := ogf d (ax n 0x24) 3
    let t := extrapolate (pRef d n) v a dh
    let vel := ratRoundEven (f32ToRat (f32Mul (f32Fma a dh v) (f32c 16)))
    let (vel, d) := if -(2 ^ 31 : Int) ≤ vel && vel < 2 ^ 31 then (vel, d)
                    else (let x := freeVal d 32; (sgn 32 x.1, x.2))
    let d := setStp d n { p with tgt := pat 32 (ratRoundEven (mkRat t 65536)), vel := vel, apply := pat 32 app, energise := true }
    osb (osi 64 d (ax n 0x36) 6 t) (ax n 0x36) 5 2 true
  else
    let d := setStp d n { p with tgt := pat 32 (p.ps.fdiv 65536), vel := 0, apply := pat 32 app, energise := false, stall := 0 }
    osb (osi 64 (osf d (ax n 0x36) 1 0) (ax n 0x36) 6 p.ps) (ax n 0x36) 5 2 false

/-- Window acceptance of a network stepper axis at the control instant, before its profile items (R130, R143). -/
def stepperTrack (d : Dev) (n : Nat) (cs : Int) : Dev :=
  let d := stepperAccept d n cs
  let p := stp d n
  let d := osb d (ax n 0x36) 5 1 (!p.accepted)
  if p.accepted then setStp d n { p with missing := 0, lost := false }
  else bump (setStp d n { p with missing := p.missing + 1 }) (ax n 0x3B) 2

/-- "Axis stall" (R147): the source, status bit 7, its counter, no longer referenced, and the fault stop category, where torque off clears
control word bit 0 at once. -/
def stallNow (d : Dev) (n : Nat) : Dev :=
  let d := bump (osb d (ax n 0x36) 5 7 true) (ax n 0x3B) 1
  let d := if stopCat (og d (ax n 0x0A) 1) = .torqueOff then osb (setStp d n { stp d n with energise := false }) (ax n 0x36) 5 2 false else d
  laterStop (osb d (ax n 9) 4 0 false) (49 + 4 * cluster d n) 4 n 1

/-- The control phase of a network stepper axis after its profile items (R140, R146-R148): the axis stalls in the phase in which its stall
count reaches N_stall. -/
def stepperPhase (d : Dev) (n : Nat) : Dev :=
  let acc := (stp d n).accepted
  let was := (stp d n).stall
  let d := setStp d n { stp d n with accepted := false }
  let d := stepperTarget (if axEnabled d n then adaptCurrent d n acc else d) n
  let now := (stp d n).stall
  let lim := cg d (ax n 0x35) 4
  if axEnabled d n && decide (lim ≤ now) && (decide (was < lim) || !bit (og d (ax n 0x36) 5) 7) then stallNow d n else d

/-- AXIS_STALL (R147): the stall count has reached N_stall and the stall has not been taken yet. -/
def execAxisStall (n : Ax) (s : State) : Host.Outcome State Fault Refusal :=
  .next (upd s (fun d =>
    if (kind d n.val = 3 || kind d n.val = 4) && axEnabled d n.val && decide (cg d (ax n.val 0x35) 4 ≤ (stp d n.val).stall) &&
        !bit (og d (ax n.val 0x36) 5) 7 then stallNow d n.val else d))

/-- STEPPER_FEEDBACK_LOSS (R143): the missing-window count has reached the loss threshold, and this run of missing windows has not been
reported, or the axis has been enabled in it. -/
def execStepperFeedbackLoss (n : Ax) (s : State) : Host.Outcome State Fault Refusal :=
  .next (upd s (fun d =>
    let p := stp d n.val
    if (kind d n.val = 3 || kind d n.val = 4) && decide (cg d (ax n.val 0x16) 2 ≤ p.missing) && (axEnabled d n.val || !p.lost) then
      laterStop (osb (setStp d n.val { p with energise := false, lost := true }) (ax n.val 0x36) 5 2 false) (50 + 4 * cluster d n.val) 1 n.val 2
    else d))

/-- Entry of a microstep table for index m of an electrical period: windings A and B, rotated by quadrant (R144). -/
def microEntry (t : Bytes) (m : Nat) : Int × Int :=
  let i := m % 256
  let a := sgn 16 (rd t (4 * i) 2)
  let b := sgn 16 (rd t (4 * i + 2) 2)
  match m / 256 % 4 with
  | 0 => (a, b)
  | 1 => (-b, a)
  | 2 => (-a, -b)
  | _ => (b, -a)

end Sys2Proof.Machine
end

