-- ==== Sys2Proof/Machine/Emulation.lean ====
section
/-! DEFINITION. Encoder emulation outputs (R165-R169, R172). -/
namespace Sys2Proof.Machine

/-- The source of output m at this control instant: position, velocity and acceleration (R165); none while the cluster of its
source axis is not ready. -/
def emuSource (d : Dev) (m : Nat) : Option (Int × F32 × F32) :=
  let k := cg d (0x3D40 + m) 2
  let n := cg d (0x3D40 + m) 3
  if k = 3 then some ((pls d n).pExt, ogf d (0x3D10 + n) 3, 0)
  else if !ready d (6 + cluster d n) then none
  else if k = 1 then some (axisPos d n, axisVel d n, 0)
  else some (pRef d n, ogf d (ax n 0x24) 2, ogf d (ax n 0x24) 3)

/-- V_max of an emulation output (R167). -/
def emuVmax (d : Dev) (m : Nat) : Nat := (cgq d (0x3D40 + m) 8 * (2 ^ 48 : Nat) / 312500000).floor.toNat

/-- ENCODER_EMULATION_UPDATE (R166, R169): the new target in counts and the backlog. -/
def emuUpdate (d : Dev) (m : Nat) : Dev :=
  let e := emul d m
  let o := 0x3D48 + m
  if cg d (0x3D40 + m) 1 != 1 then osb (osb (osb (emuStop d m 8750) o 3 0 false) o 3 2 false) o 3 3 false
  else if !ready d 16 then d
  else
    match emuSource d m with
    | none => osb (setEmu d m { e.run 8750 with v := 0 }) o 3 3 true
    | some (p, v, a) =>
      let t := extrapolate p v a d36
      let D : Int := cg d (0x3D40 + m) 5
      let N := cgi 32 d (0x3D40 + m) 4
      let e := if e.on then e else { e with r := 0, prev := t, shift := 0 }
      let num := N * wrap 64 (t - e.prev - e.shift) + e.r
      let dc := num.fdiv (D * 65536)
      let ct := wrap 64 (e.tgt + dc)
      let ovr := decide (65536 < (wrap 64 (ct - (e.run 8750).c)).natAbs)
      let d := setEmu d m { e with on := true, r := (num - dc * (D * 65536)).toNat, prev := t, tgt := ct, shift := 0, ovr := ovr }
      let d := osb (osb (osb (osi 64 d o 2 ct) o 3 2 (e.shift != 0)) o 3 3 false) o 3 1 ovr
      if ovr && !e.ovr then later (bump d o 5) 132 0 m else d

/-- A cycle start (R167, R169): the cycle that ends is complete, and the edge rate of the new one; none while the source is held. -/
def emuCycle (d : Dev) (m : Nat) : Dev :=
  let e := (emul d m).run 10000
  if e.on && ready d 16 && !bit (og d (0x3D48 + m) 3) 3 then
    let err := wrap 64 (e.tgt - e.c)
    let neg := decide (err < 0)
    let vw := (ratRoundEven (mkRat (err.natAbs * 2 ^ 48) 10000)).toNat
    let vm := emuVmax d m
    let rl := decide (vm < vw)
    let d := setEmu d m { e with acc := if neg = e.neg then e.acc else 0, v := if rl then vm else vw, neg := neg }
    let d := osb d (0x3D48 + m) 3 0 rl
    if rl then bump d (0x3D48 + m) 4 else d
  else setEmu d m { e with v := 0 }

/-- Count c of output m at this instant (R167). -/
def emuCount (d : Dev) (m : Nat) : Int := ((emul d m).run (fabricTicks d)).c

/-- Z of output m at this instant (R168). -/
def emuZ (d : Dev) (m : Nat) : Bool :=
  let zp := cg d (0x3D40 + m) 6
  zp != 0 && decide ((emuCount d m - (cg d (0x3D40 + m) 7 : Nat)).emod zp = 0)

/-- Levels of the A, B and Z pairs of output m at this instant (R167, R168). -/
def emuPins (d : Dev) (m : Nat) : Bool × Bool × Bool :=
  let q := (emuCount d m).emod 4
  let bq := q = 2 || q = 3
  (q = 1 || q = 2, bq != (og d (0x3D40 + m) 9 = 1), emuZ d m)

end Sys2Proof.Machine
end

