-- ==== Sys2Proof/Machine/Derived.lean ====
section
/-! DEFINITION. The objects whose values follow from other state when they are read. -/
namespace Sys2Proof.Machine

/-- Bits base to base + 63 of a property of the fault sources. -/
def sourceMap (p : Nat → Bool) (base : Nat) : Nat := ((List.range 64).map (fun i => if p (base + i) then 2 ^ i else 0)).sum

/-- Number objects that follow from the device's other state: log status (R457), the time snapshot (R285), the source maps
and next number (R392), default reactions (R393), f_max (R150), table CRCs (R145), mould flags (R531), notch coefficients in force (R80), the step channel's
state (R151), the emulation count and Z (R167, R168) and current gains (R89, R97). -/
def derivedDev (d : Dev) (idx sub : Nat) : Option Nat :=
  if idx = 0x2100 then
    (if sub = 1 then some d.fc.log.length
     else if sub = 2 then some d.fc.waiting
     else if sub = 3 then some (if keyUsable d then d.key.count else 0)
     else if sub = 4 then some (((wholeLog d).head?.map LogEntry.seq).getD 0)
     else if sub = 5 then some (((wholeLog d).getLast?.map LogEntry.seq).getD 0)
     else none)
  else if idx = 0x3400 then
    (if 1 ≤ sub && sub ≤ 4 then some (baseTime d (sub - 1)) else if sub = 5 then some d.time.k else none)
  else if idx = 0x3800 then (if sub = 9 then some d.fc.nextSeq else none)
  else if idx = 0x3801 then (if 1 ≤ sub && sub ≤ 3 then some (sourceMap (live d) (64 * (sub - 1))) else none)
  else if idx = 0x3803 then (if 1 ≤ sub && sub ≤ 3 then some (sourceMap (forced d) (64 * (sub - 1))) else none)
  else if 0x3900 ≤ idx && idx < 0x39C0 then (if sub = 4 then some (defaultReactions (idx - 0x3900)) else none)
  else if 0x3D80 ≤ idx && idx < 0x3D90 then (if sub = 5 then some (fmtOfRat fmt32 false (stepFmax d (idx - 0x3D80))) else none)
  else if idx = 0x3D94 then (if 1 ≤ sub && sub ≤ 4 then some (crc32c (ob d (0x3D90 + (sub - 1)) 0)) else none)
  else if 0x3D48 ≤ idx && idx < 0x3D50 && sub = 1 then some (pat 64 (emuCount d (idx - 0x3D48)))
  else if 0x3D48 ≤ idx && idx < 0x3D50 && sub = 3 then some (setBit (og d idx 3) 4 (emuZ d (idx - 0x3D48)))
  else if 0x4000 ≤ idx && idx < 0x8000 && idx % 4 = 0 && sub = 2 then
    (let b := mould d (8 + (idx - 0x4000) / 0x1000)
     let k := (idx - 0x4000) % 0x1000 / 4
     some (if k < mouldN 8 b then rd (lineEntry b k) 0 1 else 0))
  else if 0x8000 ≤ idx && (idx % 64 = 0x14 || idx % 64 = 0x15) && 5 ≤ sub && sub ≤ 9 then
    (let c := notchInForce d ((idx - 0x8000) / 64) (idx % 64)
     let w : F32 := if sub = 5 then c.1 else if sub = 6 then c.2.1 else if sub = 7 then c.2.2.1 else if sub = 8 then c.2.2.2.1 else c.2.2.2.2
     some w.toNat)
  else if 0x8000 ≤ idx && idx % 64 = 0x37 && 1 ≤ sub && sub ≤ 3 then
    (let n := (idx - 0x8000) / 64
     let p := if kind d n = 5 then chan d (cg d (ax n 1) 5) else ChanSt.reset
     some (if sub = 1 then p.v else if sub = 2 then p.acc else pat 8 (if p.neg then -1 else 1)))
  else if 0x8000 ≤ idx && idx % 64 = 0x1F && 0x0A ≤ sub && sub ≤ 0x0C then
    (let c := currentGains d ((idx - 0x8000) / 64)
     some (if sub = 0x0A then c.1 else if sub = 0x0B then c.2.1 else c.2.2).toNat)
  else none

/-- The value of a number object: derived, or stored. -/
def ogd (d : Dev) (idx sub : Nat) : Nat := (derivedDev d idx sub).getD (og d idx sub)

end Sys2Proof.Machine
end

