-- ==== Sys2Proof/Machine/Mould.lean ====
section
/-! DEFINITION. The mould of a segment: the checks of a write (R223-R225, R528), what a write does (R245), and the checks of a
segment that is to leave Stopped for Synchronous (R226). -/
namespace Sys2Proof.Machine

/-- Whether a byte string is a ring mould of ring g (R223, R224). -/
def ringMouldOk (g : Nat) (b : Bytes) : Bool :=
  let n := rd b 3 1
  let p := rd b 6 2
  rd b 0 1 = 1 && rd b 1 1 = g && rd b 2 1 < 4 && 1 ≤ n && n ≤ 48 && b.length = 20 + 16 * n && rd b 4 1 ≤ n && rd b 5 1 = 0 &&
  (p = 0 || (16 ≤ p && p ≤ 256)) && rd b 8 2 ≤ 250 && 16 ≤ rd b 10 2 && rd b 12 2 ≤ 250 && rd b 14 2 = 0 &&
  (List.range n).all (fun i =>
    let e := ringEntry b (i + 1)
    rd e 0 1 ≤ 8 && rd e 1 1 = 0 && rd e 2 2 ≤ 300 && rd e 4 2 ≤ 250 && rd e 12 2 < 2 ^ (2 * rd e 0 1))

/-- Whether a byte string is a line mould of segment g (R223, R225). -/
def lineMouldOk (g : Nat) (b : Bytes) : Bool :=
  let n := rd b 4 2
  let p := rd b 12 2
  rd b 0 1 = 2 && rd b 1 1 = g && rd b 2 1 / 4 = 0 && rd b 2 1 % 2 = 0 && 1 ≤ n && n ≤ 1024 && b.length = 44 + 20 * n &&
  rd b 3 1 = (n + 15) / 16 && 16 ≤ mouldNb b && mouldNb b ≤ 256 && 24 ≤ lineBc b && lineBc b ≤ 4096 && lineNs b ≤ 64 &&
  rd b 11 1 ≤ 16 && (p = 0 || (16 ≤ p && p ≤ 256)) && rd b 14 2 ≤ (if mouldPaired b then 1000 else 0) && 16 ≤ rd b 36 2 &&
  rd b 38 2 = 0 &&
  (List.range n).all (fun k =>
    let e := lineEntry b k
    rd e 0 1 < 4 && rd e 1 1 = 0 && rd e 2 2 ≤ 1000 && rd e 4 2 ≤ 1000)

/-- Whether a byte string passes the checks of a mould write (R223). -/
def mouldOk (g : Nat) (b : Bytes) : Bool :=
  b.length = 0 ||
  (20 ≤ b.length && rd b (b.length - 4) 4 = crc32c (b.take (b.length - 4)) && (if g < 8 then ringMouldOk g b else lineMouldOk g b))

/-- A mould takes the place of the old one (R245): at once on an Off segment, at the next boundary on a Stopped one. -/
def setMould (d : Dev) (g : Nat) (b : Bytes) : Dev :=
  if segState d g = 4 then obs (setSeg d g { seg d g with swap := some (mould d g) }) (0x3300 + g) 0 b
  else syncMoulds (obs d (0x3300 + g) 0 b)

/-- A write of the mould of segment g (R223, R245, R30). -/
def mouldWrite (d : Dev) (g : Nat) (b : Bytes) : Dev × Status :=
  if !ready d 1 then (d, .notReady)
  else if mode d = 5 || !(segState d g = 4 || segState d g = 0) then (d, .state)
  else if !mouldOk g b then (d, .range)
  else (setMould d g b, .ok)

/-- MOULD_WRITE (R223). -/
def execMouldWrite (g : Seg) (data : Bytes) (s : State) : Host.Outcome State Fault Refusal :=
  .next (upd s (fun d => let r := agreed d (0x3300 + g.val) 0 data (mouldWrite d g.val data); answer r.1 r.2))

/-- The first element of a list that a test marks. -/
def firstFail (xs : List Nat) (bad : Nat → Bool) (item : Nat → Nat) : Option Nat := (xs.find? bad).map item

/-- Cause 0x0003: the tight-ring limits (R81). -/
def tightFail (d : Dev) (g : Nat) (b : Bytes) : Option Nat :=
  if !mouldTight b then (segAxes d g).find? (fun n => og d (ax n 1) 1 = 2)
  else if 8 < mouldN 0 b then some 0x8001
  else if 16 < ringWindows b then some 0x8002
  else if 1000 < ringHops b then some 0x8003
  else none

/-- Cause 0x0005: whether ring node j's sample instant breaks R211. -/
def sampleFail (b : Bytes) (j : Nat) : Bool :=
  let t := sampleOffset b j
  let conv : Int := rd (ringEntry b j) 10 2 * nsU
  let first : Int := ((min (delayA b j) (delayB b j) + 16 * blockOffset b j : Nat) : Int) * 32768
  decide (t ≤ -ringCycle b) || decide (first < t + conv)

/-- Cause 0x0007: whether axis n's binding names no window of its kind (R56). -/
def bindFail (d : Dev) (b : Bytes) (n : Nat) : Bool :=
  let k := og d (ax n 1) 1
  let j := og d (ax n 1) 3
  let i := og d (ax n 1) 4
  !(1 ≤ j && j ≤ mouldN 0 b && i < winCount b j && winKind b j i = k - 1)

/-- Cause 0x0008: the first lane over its budget in a cluster that holds an axis of segment g (R76). -/
def laneFail (d : Dev) (g : Nat) : Option Nat :=
  ((List.range 8).filter (fun c => (segAxes d g).any (fun n => cluster d n = c))).findSome? (fun c =>
    (laneOver d c none).map (fun p => c * 256 + p.1 * 16 + p.2))

/-- Insertion by start into a sorted train. -/
def trainInsert (t : TrainItem) : List TrainItem → List TrainItem
  | [] => [t]
  | x :: xs => if t.start < x.start then t :: x :: xs else x :: trainInsert t xs

/-- A train in order of start. -/
def trainSort (ts : List TrainItem) : List TrainItem := ts.foldl (fun acc t => trainInsert t acc) []

/-- The first item of a sorted train that starts less than the 200 ns guard after the one before it ends (R218). -/
def guardFail : List TrainItem → Option Nat
  | [] => none
  | [_] => none
  | x :: y :: xs => if y.start < x.start + x.dur + 400 then some y.item else guardFail (y :: xs)

/-- Cause 0x000A of a train (R218). -/
def outsideFail (b : Bytes) (ts : List TrainItem) : Option Nat :=
  (ts.find? (fun t => 2 * fieldNs b - 400 < t.start + t.dur)).map TrainItem.item

/-- Cause 0x000B of a train, across the cycle boundary too (R218). -/
def closeFail (b : Bytes) (ts : List TrainItem) : Option Nat :=
  let s := trainSort ts
  match guardFail s with
  | some i => some i
  | none => (match s.head?, s.getLast? with
    | some x, some y => if x.start + 2 * fieldNs b < y.start + y.dur + 400 then some x.item else none
    | _, _ => none)

/-- Cause 0x000C: whether line node k's sample instant breaks R218. -/
def lineSampleFail (b : Bytes) (k : Nat) : Bool :=
  let e := lineEntry b k
  let s : Int := sgn 32 (rd e 6 4) * 16
  let conv : Int := rd e 10 2 * 2000
  !(decide (56000 - 2 * (fieldNs b : Int) ≤ s) && decide (s ≤ 0) &&
    decide (s + conv ≤ (rd e 12 4 * 16 : Nat) - (lineFar b k : Int)) && decide (s + conv ≤ (rd e 16 4 * 16 : Nat) - (lineNear b k : Int)))

/-- Cause 0x000D: whether the apply offset breaks R218. -/
def applyFail (b : Bytes) : Bool :=
  let a := rd b 16 4 * 16
  !(lineProp b + summationBytes b * 160 ≤ a && a + 2000 ≤ 2 * fieldNs b)

/-- The checks of a ring in their order after 0x000E (R226). -/
def ringCheck (d : Dev) (g : Nat) (b : Bytes) : Nat × Nat :=
  let n := mouldN g b
  let nodes := (List.range n).map (· + 1)
  let upTo (j : Nat) : Nat := ((List.range j).map (fun i => winCount b (i + 1))).sum
  match firstFail nodes (fun j => 128 < upTo j) id with
  | some j => (2, j)
  | none =>
  match tightFail d g b with
  | some i => (3, i)
  | none =>
  if ringCycle b < ringTurn b + 4000 * nsU then (4, 0) else
  match firstFail nodes (sampleFail b) id with
  | some j => (5, j)
  | none =>
  if mouldP g b != 0 && decide (ringCycle b < (8 * ringFrameBytes b + 32 + 8 * (19 + 2 * mouldP g b) : Nat) * nsU) then (6, 0) else
  match firstFail (segAxes d g) (bindFail d b) id with
  | some i => (7, i)
  | none =>
  match laneFail d g with
  | some i => (8, i)
  | none =>
  match firstFail (segAxes d g) (fun i => og d (ax i 1) 1 = 2 && bandwidthOver d i (f32ToRat (ogf d (ax i 0x1F) 1))) id with
  | some i => (9, i)
  | none => (0, 0)

/-- The checks of a line in their order (R226). -/
def lineCheck (b : Bytes) : Nat × Nat :=
  let t1 := train b 1
  let t2 := train b 2
  match (outsideFail b t1).orElse (fun _ => outsideFail b t2) with
  | some i => (0x0A, i)
  | none =>
  match (closeFail b t1).orElse (fun _ => closeFail b t2) with
  | some i => (0x0B, i)
  | none =>
  match firstFail (mouldNodes 8 b) (lineSampleFail b) id with
  | some k => (0x0C, k)
  | none => if applyFail b then (0x0D, 0) else (0, 0)

/-- The cause and failing item of the checks of segment g (R226). -/
def mouldCheck (d : Dev) (g : Nat) : Nat × Nat :=
  let b := mould d g
  match (List.range 8).find? (fun c => !ready d (6 + c) && (segAxes d g).any (fun n => cluster d n = c)) with
  | some c => (0x0E, c * 256)
  | none => if b.length = 0 then (1, 0) else if g < 8 then ringCheck d g b else lineCheck b

/-- Runs the checks and records their result (R226). -/
def runCheck (d : Dev) (g : Nat) : Dev × Bool :=
  let r := mouldCheck d g
  (os (os d (sgb g + 8) 1 r.1) (sgb g + 8) 2 r.2, r.1 = 0)

end Sys2Proof.Machine
end

