-- ==== Sys2Proof/Machine/Segments.lean ====
section
/-! DEFINITION. Segments: their states and requests (R229-R233, R245), cold start (R234-R237), roll calls and node integration
(R235, R239, R240), mailboxes (R241-R244) and the chill (R246-R248). -/
namespace Sys2Proof.Machine

/-- Node j of segment g. -/
def nodeId (g j : Nat) : NodeId :=
  if g < 8 then .ring ⟨g % 8, Nat.mod_lt _ (by decide)⟩ ⟨(j - 1) % 48, Nat.mod_lt _ (by decide)⟩
  else .line ⟨(g - 8) % 4, Nat.mod_lt _ (by decide)⟩ ⟨j % 1024, Nat.mod_lt _ (by decide)⟩

/-- Base cycles of a cold-start slot (R236). -/
def slotCycles (g : Nat) : Nat := if g < 8 then 4 else 128
/-- The cycle count of a segment: base cycles on a ring, field cycles on a line (one is added to the count kept, so that 0 stands for
none begun). -/
def segCycle (d : Dev) (g : Nat) : Nat := if g < 8 then d.time.k else (seg d g).fieldCycle - 1
/-- Whether the segment's unit sends cyclic or summation traffic in its state (R229). -/
def sending (d : Dev) (g : Nat) : Bool := 2 ≤ segState d g && segState d g ≤ 4 && ready d (18 + g)
/-- The claim that this unit's cyclic frames carry on a segment: the effective claim on a paired one, else the base claim (R317). -/
def frameClaim (d : Dev) (g : Nat) : Nat := if pairedSeg d g then og d 0x3C01 3 else og d 0x3C00 2
/-- The head's records of segment g's nodes. -/
def headsOf (d : Dev) (g : Nat) : List (Nat × HeadNode) :=
  (d.heads.filter (fun p => p.1 / 1024 = g)).map (fun p => (p.1 % 1024, p.2))

/-- One report of source 81 + 4g per cycle (R527). -/
def segFault (d : Dev) (g j : Nat) : Dev :=
  let x := seg d g
  if x.missNow then d else later (setSeg d g { x with missNow := true }) (81 + 4 * g) 0 j

/-! Node states. -/

/-- The head's state of node j becomes `st` (R239, R240, R251, R462, R531). -/
def nodeStateNow (d : Dev) (g j st : Nat) : Dev :=
  let h := hd d g j
  if h.state = st then d
  else
    let lateOne := st = 3 && segState d g = 3
    let h := { h with state := st }
    let h := if st = 3 then { h with step := 0, addressed := false, missing := 0, dev := 0, needAbs := true, synced := false,
                                      approx := false, resync := none, asked := none, flags := 0 } else h
    let d := setHd d g j h
    let d := os d (sgb g) 7 ((headsOf d g).filter (fun p => p.2.state = 3)).length
    let d := if g < 8 then d else os d (fnx (g - 8) j 0) 1 st
    let d := if lateOne then bump d (sgb g) 0x0A else d
    if st != 3 && relaying d g j then relayNodeEnd d j false else d

/-- A change of node state: on a paired segment it is a forwarded item (R330). -/
def nodeStateSet (d : Dev) (g j st : Nat) : Dev :=
  if paired d && pairedSeg d g then forwardItem d (.nodeState (nodeId g j) (BitVec.ofNat 8 st)) else nodeStateNow d g j st

/-! Boundary steps. -/

/-- Whether segment g may leave Off (R231, R232, R274). -/
def mayStart (d : Dev) (g : Nat) : Bool :=
  let b := mould d g
  (og d (sgb g) 1 = 1 || og d (sgb g) 1 = 2) && ready d (18 + g) && rd b 0 1 = (if g < 8 then 1 else 2) && rd b 1 1 = g &&
  1 ≤ mode d && mode d ≤ 4 && !d.time.hold

/-- The segment enters Integrating as originator (1) or follower (2). -/
def integrate (d : Dev) (g role : Nat) : Dev :=
  let d := os (setSegState d g 2) (sgb g) 3 role
  setSeg d g { seg d g with cold := .idle, start := segCycle d g }

/-- The same as a line's change of state takes it: at a field cycle boundary, at once when this is one (R232). -/
def integrateAt (d : Dev) (g role : Nat) : Dev :=
  if g < 8 || d.time.k % mouldNb (mould d g) = 0 then integrate d g role else setSeg d g { seg d g with pend := role }

/-- What forced or a new mould take effect as at a boundary; the state's own changes otherwise (R231, R232, R245, R383). -/
def segBoundary (d : Dev) (g : Nat) : Dev :=
  let x := seg d g
  let st := segState d g
  let req := og d (sgb g) 1
  if st = 0 then
    (if mayStart d g then setSeg (setSegState d g 1) g { seg (setSegState d g 1) g with cold := .listening, start := d.time.k } else d)
  else if st = 1 && req != 0 && x.pend != 0 then integrate d g x.pend
  else if x.forced then
    let d := setSeg d g { x with forced := false, quietExit := false }
    segLeave d g (if mode d = 5 || mode d = 0 then 0 else 4) (!x.quietExit)
  else if st != 3 && req = 0 then setSegState d g 0
  else if st = 3 && req ≤ 1 then segLeave d g 4 false
  else if st = 4 && x.swap.isSome then
    if (ob d (0x3300 + g) 0).length = 0 then setSegState d g 0
    else
      let d := setSegState d g 2
      setSeg d g { seg d g with start := segCycle d g }
  else if st = 4 && req = 2 && mode d = 3 && !x.hold then
    match runCheck d g with
    | (d, ok) =>
      if ok then
        let d := setSegState d g 3
        if g < 8 then d else (headsOf d g).foldl (fun d p => setHd d g p.1 { p.2 with needAbs := true }) d
      else d
  else if st = 2 && og d (sgb g) 3 = 2 && og d 0x3C01 1 = 7 then setSegState d g 4
  else d

/-! Requests. -/

/-- A write of the segment request (R230, R232, R233). -/
def segmentRequest (d : Dev) (g v : Nat) : Dev × Status :=
  if !ready d 1 then (d, .notReady)
  else if 2 < v then (d, .range)
  else if segState d g = 3 && v ≤ 1 &&
      (mode d = 4 || (segAxes d g).any (fun n => axState d n = 2 || axState d n = 3 || axState d n = 5)) then (d, .state)
  else (setSeg (os d (sgb g) 1 v) g { seg d g with hold := false }, .ok)

/-- SEGMENT_REQUEST (R230). -/
def execSegmentRequest (g : Seg) (v : BitVec 8) (s : State) : Host.Outcome State Fault Refusal :=
  .next (upd s (fun d => let r := agreed d (sgb g.val) 1 [v] (segmentRequest d g.val v.toNat); answer r.1 r.2))

/-! Cold start. -/

/-- A cold-start or roll-call frame (R234). -/
def startFrame (d : Dev) (g round : Nat) : Bytes :=
  let b := mould d g
  let h := leBytes 1 (if g < 8 then 0x12 else 0x22) ++ leBytes 1 (og d 0x3C00 2) ++ leBytes 1 g ++ leBytes 2 (mouldTag b) ++
    leBytes 1 (b2n (round = 0) + 2 * b2n (mouldPaired b)) ++ leBytes 1 round ++ leBytes 2 (mouldN g b)
  [0xFB] ++ h ++ leBytes 4 (crc32c h) ++ [0, 0] ++ leBytes 2 (crc16Node 0 [0, 0]) ++ [0xFD]

/-- The unit sends a cold-start frame of its round at the start of a slot (R236). -/
def sendCold (d : Dev) (g : Nat) : Dev :=
  let x := seg d g
  emit (setSeg d g { x with cold := .sending, start := d.time.k }) (.segment g none (startFrame d g (og d (sgb g) 8)))

/-- COLD_START_LISTEN_END (R236): four slots without hearing the segment; a unit that heard it listens on. -/
def execColdStartListenEnd (g : Seg) (s : State) : Host.Outcome State Fault Refusal :=
  .next (upd s (fun d =>
    let x := seg d g.val
    if segState d g.val = 1 && x.cold = .listening && x.start + 4 * slotCycles g.val ≤ d.time.k then
      (if x.heard then setSeg d g.val { x with heard := false, start := d.time.k }
       else sendCold (setSeg (os d (sgb g.val) 8 1) g.val { x with sent := 0 }) g.val)
    else d))

/-- The unit's own cold start has succeeded (R232, R323). -/
def coldSuccess (d : Dev) (g : Nat) : Dev :=
  let d := integrateAt d g 1
  if pairedSeg d g && og d 0x3C01 1 = 1 then setPairState d 2 else d

/-- COLD_START_SLOT_END (R236, R237): contention when another head's cold-start frame was heard or, on a ring, the unit's own
frame has not returned; otherwise the second slot in a row is success. -/
def execColdStartSlotEnd (g : Seg) (returned contention : Bool) (s : State) : Host.Outcome State Fault Refusal :=
  .next (upd s (fun d =>
    let x := seg d g.val
    if segState d g.val = 1 && x.cold = .sending && x.start + slotCycles g.val ≤ d.time.k then
      if contention || x.heard || (g.val < 8 && !returned) then
        bump (setSeg d g.val { x with cold := .backoff, start := d.time.k, sent := 0, heard := false }) (sgb g.val) 9
      else if 2 ≤ x.sent + 1 then coldSuccess d g.val
      else sendCold (setSeg d g.val { x with sent := x.sent + 1 }) g.val
    else d))

/-- COLD_START_BACKOFF_END (R237): nothing was heard, the next round begins. -/
def execColdStartBackoffEnd (g : Seg) (s : State) : Host.Outcome State Fault Refusal :=
  .next (upd s (fun d =>
    let x := seg d g.val
    if segState d g.val = 1 && x.cold = .backoff && x.start + (255 - og d 0x3C00 2) * slotCycles g.val ≤ d.time.k then
      sendCold (setSeg (os d (sgb g.val) 8 (min 255 (og d (sgb g.val) 8 + 1))) g.val { x with sent := 0 }) g.val
    else d))

/-- A roll call of the other head of a paired line ends at this one: it records the counter, and a count that differs from N is a roster
mismatch (R235). Pair 1 ends at end 1, pair 2 at end 0. On a paired ring the count on channel A is kept for the pairing checks (R324). -/
def rollCallHeard (d : Dev) (g : Nat) (c : Chan) (seen : Nat) : Dev :=
  let b := mould d g
  if g < 8 && c = .a && pairedSeg d g then { d with pair := { d.pair with counted := tput (fun _ => none) d.pair.counted g (some seen) } }
  else if g < 8 || !mouldPaired b || !ready d (18 + g) then d
  else
    let d := os d (sgb g) (if og d (sgb g + 0x30) 1 = 1 then 5 else 6) seen
    if seen = mouldN g b then d
    else later (log d (0x10 + g) 2 (og d (sgb g) 5 + og d (sgb g) 6 * 65536)) (82 + 4 * g) 5 0

/-- Whether this unit sends its ring frames at the cycle start: on a paired ring the preferred unit does, from the head position
(R316, R318). -/
def headPosition (d : Dev) (g : Nat) : Bool := !pairedSeg d g || og d 0x3C01 4 < og d 0x3C00 2

/-- How long a frame of segment g's other head takes to this unit on a channel, in half nanoseconds (R185, R211, R212): on a ring between the
head and the partner position, on a line over its whole length. -/
def headDelay (d : Dev) (g : Nat) (c : Chan) : Nat :=
  let b := mould d g
  if 8 ≤ g then lineProp b
  else
    let p := rd b 4 1
    let a := ((List.range p).map (fun i => ringHop b (i + 1) + ringLat b (i + 1))).sum + rd b 12 2
    if (c = .a) = headPosition d g then ringPropHalf b - a - 520 else a

/-- A unit in Cold-start hears a valid frame of another head of the segment (R232, R236, R237): in backoff it follows any of them, before
that a cyclic or summation frame of its own mould, whose segment time it takes (R277); every other frame is noted. -/
def headHeard (d : Dev) (g : Nat) (c : Chan) (coldFrame : Bool) (tag cycle : Nat) : Dev :=
  let x := seg d g
  let b := mould d g
  let d := { d with pair := { d.pair with heardHead := true } }
  if x.cold = .backoff || (!coldFrame && tag = mouldTag b) then
    let d := if coldFrame then d
      else takeSegTime d cycle (if g < 8 then 1 else mouldNb b) (headDelay d g c * (unitNs / 2))
    integrateAt d g 2
  else setSeg d g { x with heard := true }

/-- OTHER_HEAD_HEARD (R227, R232, R235-R237, R322): a frame of another head on a channel or cable: its kind (0 cyclic or summation, 1
cold-start, 2 roll call), whether it is valid but for its claim, claim, mould tag and returned counter. A summation frame with a bad CRC is
counted; a segment that sends notes a partner's summation frame. -/
def execOtherHeadHeard (g : Seg) (c : Chan) (crcOk : Bool) (kind : Fin 3) (claim : BitVec 8) (tag counter : BitVec 16)
    (cycle : BitVec 32) (s : State) :
    Host.Outcome State Fault Refusal :=
  .next (upd s (fun d =>
    if !crcOk then (if 8 ≤ g.val && kind = 0 && ready d (18 + g.val) then bump d (sgb g.val + 9) (if c = .a then 1 else 2) else d)
    else if !(1 ≤ claim.toNat && claim.toNat ≤ 254) then d
    else if kind = 2 then
      let d := rollCallHeard d g.val c counter.toNat
      if segState d g.val = 1 then setSeg d g.val { seg d g.val with heard := true } else d
    else if segState d g.val = 1 then headHeard d g.val c (kind = 1) tag.toNat cycle.toNat
    else if kind = 0 && 8 ≤ g.val && pairedSeg d g.val then
      let higher := og d 0x3C01 1 != 0 && decide (frameClaim d g.val < claim.toNat)
      { d with pair := { d.pair with heardLines := d.pair.heardLines.filter (· != g.val) ++ [g.val],
                                     driving := d.pair.driving && !higher } }
    else d))

/-! Integration. -/

/-- Whether the unit may leave Integrating (R232): a roll call was made and no addressed node is still on its way, or the time has
run. -/
def integrated (d : Dev) (g : Nat) : Bool :=
  ((seg d g).rolled && (headsOf d g).all (fun p => p.2.state != 1 && p.2.state != 2)) ||
  decide ((seg d g).start + (if g < 8 then 4096 else 64) ≤ segCycle d g)

/-- INTEGRATION_END (R232): to Stopped at a boundary of the segment; a follower leaves Integrating when it is in step. -/
def execIntegrationEnd (g : Seg) (s : State) : Host.Outcome State Fault Refusal :=
  .next (upd s (fun d =>
    if segState d g.val = 2 && og d (sgb g.val) 3 = 1 && integrated d g.val &&
        (g.val < 8 || d.time.k % mouldNb (mould d g.val) = 0) then setSegState d g.val 4 else d))

/-- Whether some node of the mould is not Integrated. -/
def someOut (d : Dev) (g : Nat) : Bool := (mouldNodes g (mould d g)).any (fun j => (hd d g j).state != 3)

/-- Whether a roll call is due in this cycle (R240). -/
def rollDue (d : Dev) (g : Nat) : Bool :=
  let c := segCycle d g
  if segState d g = 2 then (g ≥ 8 || (c - (seg d g).start) % 16 = 0)
  else c % (if g < 8 then 256 else 16) = 0 && someOut d g

/-- The roll call reaches node j: its integration begins, is retried, or its table reload is repeated (R239-R241, R145). -/
def rollNode (d : Dev) (g j : Nat) : Dev :=
  let h := hd d g j
  if h.state = 3 || h.state = 5 || h.addressed || (seg d g).exchanges.any (fun e => e.node = j) then d
  else if h.state = 6 && (h.step = 3 || h.step = 5) then
    nodeStateSet (setHd d g j { h with addressed := true, chunk := 0 }) g j 2
  else
    let d := setHd d g j { h with addressed := true, step := 1 }
    if h.state = 4 then d else nodeStateSet d g j 1

/-- ROLL_CALL (R235, R240): the frame, on a ring the counters that returned, and the nodes it addresses. On a line nothing returns to the
sender. -/
def execRollCall (g : Seg) (seenA seenB : BitVec 16) (s : State) : Host.Outcome State Fault Refusal :=
  .next (upd s (fun d =>
    let b := mould d g.val
    if sending d g.val && originates d g.val && frameClaim d g.val != 0 && rollDue d g.val &&
        !(g.val < 8 && (seg d g.val).mailed) then
      let a := seenA.toNat
      let c := seenB.toNat
      let n := mouldN g.val b
      let d := emit d (.segment g.val none (startFrame d g.val 0))
      let d := if 8 ≤ g.val then d
        else
          let d := os (os d (sgb g.val) 5 a) (sgb g.val) 6 c
          if a != n || c != n then later (log d (0x10 + g.val) 2 (a + c * 65536)) (82 + 4 * g.val) 5 0 else d
      let d := setSeg d g.val { seg d g.val with rolled := true }
      (mouldNodes g.val b).foldl (fun d j => rollNode d g.val j) d
    else d))

/-- Whether node j of ring g is a stepper node: it has a stepper window (R145, R239). -/
def stepperNode (b : Bytes) (j : Nat) : Bool := (List.range (winCount b j)).any (fun i => 2 ≤ winKind b j i)

/-- The schedule request of node j (R243). -/
def scheduleRequest (d : Dev) (g j : Nat) : Bytes :=
  let b := mould d g
  let hi := leBytes 4 (d.time.k / 2 ^ 32)
  if g < 8 then
    [2, BitVec.ofNat 8 (b2n (mouldTight b))] ++ leBytes 2 j ++ leBytes 2 (mouldTag b) ++ leBytes 4 (delayA b j * 32768) ++
    leBytes 4 (delayB b j * 32768) ++ slice (ringEntry b j) 6 4 ++ leBytes 2 (blockOffset b j) ++ leBytes 2 (6 + nodeWinBytes b j) ++ hi
  else
    let e := lineEntry b j
    let q (x : Int) : Bytes := leBytes 4 (pat 32 x)
    [2, BitVec.ofNat 8 (b2n (lineSafety b j) + 2 * b2n (mouldPaired b))] ++ leBytes 2 j ++ leBytes 2 (mouldTag b) ++
    q (2 * lineNear b j) ++ q (2 * lineFar b j) ++ q (rd e 12 4 * 32 - 2 * lineFar b j) ++ q (rd e 16 4 * 32 - 2 * lineNear b j) ++
    slice e 6 4 ++ slice b 16 4 ++ hi ++ slice b 6 2 ++ slice b 3 1

/-- A table request: a chunk of 32 bytes, or the CRC that commits the table (R243). -/
def tableRequest (d : Dev) (t c : Nat) : Bytes :=
  let tb := ob d (0x3D90 + t) 0
  if c < 32 then [3, BitVec.ofNat 8 t, BitVec.ofNat 8 c] ++ slice tb (32 * c) 32
  else [3, BitVec.ofNat 8 t, 0xFF] ++ leBytes 4 (crc32c tb)

/-- The request that node j's integration or table reload owes it (R239, R145). -/
def integrationRequest (d : Dev) (g j : Nat) : Option Bytes :=
  let h := hd d g j
  if h.step = 1 then some [1]
  else if h.step = 2 then some (scheduleRequest d g j)
  else if h.step = 3 || h.step = 5 then h.tables.head?.map (fun t => tableRequest d t h.chunk)
  else none

/-! Mailbox opportunities. -/

/-- The exchanges that wait to be sent for the first time, by the classes of R242. -/
def wanted (d : Dev) (g : Nat) : List Exchange :=
  let x := seg d g
  let free (j : Nat) : Bool := !x.exchanges.any (fun e => e.node = j)
  let hs := (headsOf d g).filter (fun p => free p.1)
  let mk (j cls : Nat) (b : Bytes) : Exchange := ⟨j, cls, 0, b, 0, 0⟩
  let p := mouldP g (mould d g)
  let c1 := (hs.filter (fun q => q.2.addressed)).filterMap (fun q => (integrationRequest d g q.1).map (mk q.1 1))
  let c2 := if og d 0x3510 2 = 2 then
      hs.filterMap (fun q => if q.2.chillSt = 3 then some (mk q.1 2 [4, 0]) else if q.2.chillSt = 4 then
        some (mk q.1 2 [4, BitVec.ofNat 8 q.2.chillCnt.length]) else none) else []
  let c3 := if og d 0x2E60 5 = 1 && d.mgmt.relaySeg = g then
      (d.mgmt.relayList.filter (fun q => free q.1)).filterMap (fun q => (relayRequest d q.1).map (mk q.1 3)) else []
  let c4 := match x.hostReq with
    | some r => if free r.1 then [mk r.1 4 r.2] else []
    | none => []
  let c5 := if g < 8 then [] else (hs.filter (fun q => q.2.alarm && q.2.state = 3)).map (fun q => mk q.1 5 [0])
  let low := if g ≥ 8 && p < 64 then [] else c1 ++ c2
  if p = 0 then low else low ++ c3 ++ c4 ++ c5

/-- Whether an exchange already sent may be repeated (R241): on a ring once its reply waits, on a line once its reply position
has passed. -/
def repeats (d : Dev) (g : Nat) (e : Exchange) : Bool :=
  e.used = 0 || (if g < 8 then (hd d g e.node).replyReady else decide (e.at_ + 2 ≤ segCycle d g))

/-- The order of R242: class, then ascending address after the node served last. -/
def goesFirst (served : Nat) (a b : Exchange) : Bool :=
  if a.cls != b.cls then a.cls < b.cls
  else if (a.node ≤ served) != (b.node ≤ served) then served < a.node
  else a.node < b.node

/-- The first exchange of a list. -/
def firstExchange (served : Nat) : List Exchange → Option Exchange
  | [] => none
  | e :: es => match firstExchange served es with
    | none => some e
    | some f => if goesFirst served f e then some f else some e

/-- Gives one mailbox opportunity of segment g away (R242): the exchange it goes to, sent or repeated. -/
def opportunity (d : Dev) (g : Nat) : Dev × Option Exchange :=
  let x := seg d g
  let x := if g < 8 then { x with exchanges := x.exchanges.map (fun e => if e.used = 0 then e else { e with used := e.used + 1 }) } else x
  let d := setSeg d g x
  match firstExchange x.served (x.exchanges.filter (repeats d g) ++ wanted d g) with
  | none => (d, none)
  | some e =>
    let h := hd d g e.node
    let fresh := e.used = 0
    let q := if fresh then (h.seq + 1) % 256 else e.seq
    let e' := { e with seq := q, used := if fresh || g ≥ 8 then e.used + 1 else e.used, at_ := segCycle d g }
    let d := setHd d g e.node { h with seq := q, replyReady := false }
    (setSeg d g { x with exchanges := x.exchanges.filter (fun f => f.node != e.node) ++ [e'], served := e.node,
                         hostReq := if e.cls = 4 then none else x.hostReq }, some e')

/-- Capacity of a ring mailbox frame (R241). -/
def ringCapacity (b : Bytes) (e : Exchange) : Nat := if e.cls ≤ 2 && mouldP 0 b < 64 then 64 else mouldP 0 b

/-- A ring mailbox frame as the head sends it (R208): no reply in it yet. -/
def ringMailbox (d : Dev) (g : Nat) (e : Exchange) : Bytes :=
  let p := ringCapacity (mould d g) e
  let h := [0x11, BitVec.ofNat 8 (frameClaim d g), BitVec.ofNat 8 g] ++ leBytes 2 e.node ++ leBytes 1 e.seq ++ leBytes 2 e.payload.length ++
    e.payload ++ List.replicate (p - e.payload.length) 0
  let r := List.replicate (3 + p) 0
  [0xFB] ++ h ++ leBytes 4 (crc32c h) ++ r ++ leBytes 2 (crc16Node e.node r) ++ [0xFD]

/-- A line mailbox request (R215). -/
def lineMailbox (d : Dev) (g : Nat) (e : Exchange) : Bytes :=
  let p := mouldP g (mould d g)
  let h := [0x21, BitVec.ofNat 8 (frameClaim d g), BitVec.ofNat 8 g] ++ leBytes 2 e.node ++ leBytes 1 e.seq ++ leBytes 2 e.payload.length ++
    e.payload ++ List.replicate (p - e.payload.length) 0
  [0xFB] ++ h ++ leBytes 4 (crc32c h) ++ [0xFD]

/-- The mailbox positions of a field cycle (R217, R240, R242): a roll call takes position 0. -/
def lineMailboxes (d : Dev) (g : Nat) : Nat → Dev
  | 0 => d
  | n + 1 =>
    match opportunity d g with
    | (d, none) => d
    | (d, some e) => lineMailboxes (emit d (.segment g none (lineMailbox d g e))) g n

/-! Replies. -/

/-- The identity reply of a line node fills its configuration object (R531). -/
def noteIdentity (d : Dev) (g j : Nat) (p : Bytes) : Dev :=
  let d := setHd d g j { hd d g j with ntype := rd p 6 2, latency := rd p 8 2 }
  if g < 8 then d
  else
    let o := fnx (g - 8) j 0
    os (os (os (os (os (os d o 3 (rd p 2 4)) o 4 (rd p 6 2)) o 5 (rd p 8 2)) o 6 (rd p 10 2)) o 7 (rd p 12 4)) o 8 (rd p 16 8)

/-- Whether an identity reply agrees with the mould entry (R239); a line entry names no type. -/
def identityOk (b : Bytes) (g j : Nat) (p : Bytes) : Bool :=
  if g < 8 then
    (rd (ringEntry b j) 14 2 = 0 || rd (ringEntry b j) 14 2 = rd p 6 2) && rd (ringEntry b j) 2 2 = rd p 8 2
  else rd (lineEntry b j) 2 2 = rd p 8 2

/-- A reply advances node j's integration (R239) or its table reload (R145). -/
def integrationReply (d : Dev) (g j : Nat) (p : Bytes) : Dev :=
  let b := mould d g
  let h := hd d g j
  let svc := rd p 0 1
  let good := rd p 1 1 = 0 && 2 ≤ p.length
  let d := if svc = 1 && good then noteIdentity d g j p else d
  let h : HeadNode := { hd d g j with step := if 16 ≤ h.step then h.step - 16 else h.step }
  if !h.addressed then d
  else if h.step = 1 && svc = 1 && good then
    (if identityOk b g j p then nodeStateSet (setHd d g j { h with step := 2 }) g j 2
     else later (nodeStateSet (setHd d g j { h with step := 0, addressed := false }) g j 4) (82 + 4 * g) 2 j)
  else if h.step = 2 && svc = 2 && good && rd p 2 2 = j && rd p 4 2 = mouldTag b then
    let h := { h with dev := 0 }
    let x := seg d g
    let d := setSeg d g { x with corrections := x.corrections.filter (fun c => c.1 != j || c.2.1 = 2) }
    let d := if g < 8 && stepperNode b j then setHd d g j { h with step := 3, tables := [0, 1, 2, 3], chunk := 0 }
             else setHd d g j { h with step := 4, addressed := false }
    nodeStateSet d g j 2
  else if (h.step = 3 || h.step = 5) && svc = 3 && good then
    let h : HeadNode := if h.chunk < 32 then { h with chunk := h.chunk + 1 } else { h with chunk := 0, tables := h.tables.drop 1 }
    if !h.tables.isEmpty then setHd d g j h
    else if h.step = 3 then setHd d g j { h with step := 4, addressed := false }
    else nodeStateSet (setHd d g j { h with step := 0, addressed := false }) g j 3
  else
    let d := setHd d g j { h with addressed := false }
    if h.step = 5 then nodeStateSet d g j 6 else d

/-- A chill record, or a part of it, has been collected (R248). -/
def chillReply (d : Dev) (g j : Nat) (p : Bytes) : Dev :=
  let h := hd d g j
  let first := if h.chillSt = 4 then h.chillCnt else []
  if !(3 ≤ h.chillSt && h.chillSt ≤ 4 || h.chillSt = 6) then d
  else if rd p 1 1 != 0 || p.length < 11 then setHd d g j { h with chillSt := 5 }
  else
    let held := rd p 10 1
    let new := (List.range ((p.length - 11) / 4)).map (fun i => rd p (11 + 4 * i) 4)
    let cnt := (first ++ new).take held
    let cyc := rd p 2 8
    let st := if cyc != og d 0x3510 1 then 2 else if cnt.length < held && !new.isEmpty then 4 else 1
    setHd d g j { h with chillSt := st, chillCyc := cyc, chillCnt := cnt, chillHeld := held }

/-- The reply of a host pass-through exchange (R244). -/
def hostReply (d : Dev) (g : Nat) (p : Bytes) : Dev := os (obs d (sgb g + 0x0A) 3 p) (sgb g + 0x0A) 4 2

/-- What a completed exchange of a class does. -/
def replyEffect (d : Dev) (g j cls : Nat) (p : Bytes) : Dev :=
  if cls = 1 then integrationReply d g j p
  else if cls = 2 then chillReply d g j p
  else if cls = 4 then hostReply d g p
  else d

/-- The class that a forwarded mailbox result belongs to (R330): by its service and by what node j waits for. -/
def replyClass (d : Dev) (g j : Nat) (p : Bytes) : Nat :=
  let v := rd p 0 1
  if v = 4 then 2
  else if v = 2 || v = 3 || (v = 1 && (hd d g j).step % 16 = 1) then 1 else 4

/-- MAILBOX_REPLY (R241): a reply whose sequence matches completes its exchange; on a paired segment its result is a forwarded
item (R330). -/
def execMailboxReply (n : NodeId) (seq : BitVec 8) (payload : Bytes) (s : State) : Host.Outcome State Fault Refusal :=
  .next (upd s (fun d =>
    let g := nodeSeg n
    let j := nodeNum n
    let x := seg d g
    match x.exchanges.find? (fun e => e.node = j && 0 < e.used && e.seq = seq.toNat) with
    | none => d
    | some e =>
      let d := setSeg d g { x with exchanges := x.exchanges.filter (fun f => f.node != j) }
      let h := hd d g j
      if e.cls = 3 then
        (if rd e.payload 1 1 = 4 then d else relayReply d j (rd e.payload 1 1) (rd payload 1 1) (rd payload 2 4))
      else if e.cls = 5 then setHd d g j { h with alarm := false }
      else if paired d && pairedSeg d g then
        let h := if e.cls = 1 then { h with step := h.step + 16 } else if e.cls = 2 && h.chillSt = 3 then { h with chillSt := 6 } else h
        forwardItem (setHd d g j h) (.mailbox n seq payload)
      else replyEffect d g j e.cls payload))

/-- An exchange fails by time (R241, R248, R462, R244). -/
def exchangeFailed (d : Dev) (g : Nat) (e : Exchange) : Dev :=
  let j := e.node
  let h := hd d g j
  let d := later (bump d (sgb g + 0x0A) 5) (82 + 4 * g) 3 j
  if e.cls = 1 then nodeStateSet (setHd d g j { h with addressed := false }) g j 6
  else if e.cls = 2 then setHd d g j { h with chillSt := 5 }
  else if e.cls = 3 then (if relaying d g j then relayNodeEnd d j false else d)
  else if e.cls = 4 then os d (sgb g + 0x0A) 4 3
  else d

/-- NODE_MAILBOX_TIMEOUT (R241): 16 opportunities have passed without a matching reply. -/
def execNodeMailboxTimeout (n : NodeId) (s : State) : Host.Outcome State Fault Refusal :=
  .next (upd s (fun d =>
    let g := nodeSeg n
    let x := seg d g
    match x.exchanges.find? (fun e => e.node = nodeNum n && 16 ≤ e.used) with
    | none => d
    | some e => exchangeFailed (setSeg d g { x with exchanges := x.exchanges.filter (fun f => f.node != e.node) }) g e))

/-- NODE_ABSENT (R530): an Integrated node whose windows are missing in 32 base cycles, or whose slots in 8 field cycles. -/
def execNodeAbsent (n : NodeId) (s : State) : Host.Outcome State Fault Refusal :=
  .next (upd s (fun d =>
    let g := nodeSeg n
    let h := hd d g (nodeNum n)
    if h.state = 3 && (if g < 8 then 32 else 8) ≤ h.missing && originates d g then
      nodeStateSet (setHd d g (nodeNum n) { h with step := 0, addressed := false }) g (nodeNum n) 0
    else d))

/-- NODE_EXCLUDED (R221, R240): eight field cycles of deviation; the exclude entry goes with the next summation frame. -/
def execNodeExcluded (l : Line) (k : FNode) (s : State) : Host.Outcome State Fault Refusal :=
  .next (upd s (fun d =>
    let g := lseg l.val
    let h := hd d g k.val
    let x := seg d g
    if h.state = 3 && 8 ≤ h.dev then
      let d := setSeg d g { x with corrections := x.corrections ++ [(k.val, 2, 0)] }
      let d := setHd d g k.val { h with dev := 0, exclAt := segCycle d g, step := 0, addressed := false }
      later (bump (nodeStateSet d g k.val 5) (fnx l.val k.val 3) 5) (82 + 4 * g) 4 k.val
    else d))

/-- A host request to a node's mailbox (R244): it goes to the node number written by then. An empty request has the wrong length (R26); one
longer than P is out of range, as R244 says, where R26 would answer "wrong length" (DESIGN CHOICE, log 86). -/
def hostMailbox (d : Dev) (g : Nat) (p : Bytes) : Dev × Status :=
  let svc := rd p 0 1
  if !ready d (18 + g) then (d, .notReady)
  else if p.length = 0 then (d, .length)
  else if mouldP g (mould d g) < p.length then (d, .range)
  else if !(svc = 0 || svc = 1 || svc = 5 || svc = 6 || 0x80 ≤ svc) then (d, .reserved)
  else if og d (sgb g + 0x0A) 4 = 1 then (d, .busy)
  else (setSeg (os (obs d (sgb g + 0x0A) 2 p) (sgb g + 0x0A) 4 1) g { seg d g with hostReq := some (og d (sgb g + 0x0A) 1, p) }, .ok)

/-- HOST_MAILBOX_REQUEST (R244). -/
def execHostMailboxRequest (g : Seg) (payload : Bytes) (s : State) : Host.Outcome State Fault Refusal :=
  .next (upd s (fun d => let r := agreed d (sgb g.val + 0x0A) 2 payload (hostMailbox d g.val payload); answer r.1 r.2))

/-! The chill. -/

/-- The segments that are not Off. -/
def runningSegs (d : Dev) : List Nat := (List.range 12).filter (fun g => segState d g != 0)
/-- The largest chill lead among them (R246). -/
def chillLead (d : Dev) : Nat := (runningSegs d).foldl (fun m g => max m (mouldLead g (mould d g))) 0
/-- The least number that every running line's N_b divides. -/
def chillGrid (d : Dev) : Nat := ((runningSegs d).filter (fun g => 8 ≤ g)).foldl (fun m g => Nat.lcm m (mouldNb (mould d g))) 1

/-- A chill of cycle C is pending. -/
def chillPend (d : Dev) (c : Nat) : Dev :=
  os (os { d with time := { d.time with chillAt := some c } } 0x3510 1 c) 0x3510 2 1

/-- A write of the chill cycle (R246), taken by the next control instant. -/
def chillWrite (d : Dev) (c : Nat) : Dev × Status :=
  let earliest := d.time.kc + 1 + chillLead d
  let m := chillGrid d
  let st := og d 0x3510 2
  if !ready d 4 then (d, .notReady)
  else if st = 1 || st = 2 then (d, .busy)
  else
    let c' := if c = 0 then (earliest + m - 1) / m * m else c
    if c' < earliest || c' % m != 0 then (d, .range)
    else if paired d then (forwardItem (os d 0x3510 2 1) (.chill (BitVec.ofNat 64 c')), .ok)
    else (chillPend d c', .ok)

/-- CHILL_REQUEST (R246). -/
def execChillRequest (cyc : BitVec 64) (s : State) : Host.Outcome State Fault Refusal :=
  .next (upd s (fun d => let r := chillWrite d cyc.toNat; answer r.1 r.2))

/-- CHILL_LATCH (R247): every statistics counter of every ready block is latched, as a numbered event. -/
def execChillLatch (s : State) : Host.Outcome State Fault Refusal :=
  .next (upd s (fun d =>
    if og d 0x3510 2 = 1 && d.time.chillAt = some d.time.k then
      match number d with
      | (d, q) =>
        let sh := d.objs.filter (fun p => isCounter (p.1 / 256) (p.1 % 256) && ready d (ownerBit d (p.1 / 256)))
        let sh := if ready d 5 then s.isl.counters.foldl (fun t p => tput (fun _ => 0) t (okey 0x3A30 p.1) p.2) sh else sh
        let d := os (os { d with shadow := sh } 0x3510 2 2) 0x3510 4 (q.getD 0)
        let d := d.heads.foldl (fun d p =>
          setHd d (p.1 / 1024) (p.1 % 1024)
            { p.2 with chillSt := if p.2.state = 3 then 3 else 0, chillCnt := [], chillHeld := 0, chillCyc := 0 }) d
        occur d 6 0
    else d))

/-- CHILL_COLLECTION_END (R248): no record is still to come. -/
def execChillCollectionEnd (s : State) : Host.Outcome State Fault Refusal :=
  .next (upd s (fun d =>
    if og d 0x3510 2 = 2 && d.heads.all (fun p => !(3 ≤ p.2.chillSt && p.2.chillSt ≤ 4 || p.2.chillSt = 6)) then
      let miss := (d.heads.filter (fun p => p.2.chillSt = 2 || p.2.chillSt = 5)).length
      occur (os (os { d with time := { d.time with chillAt := none } } 0x3510 3 miss) 0x3510 2 (if miss = 0 then 3 else 4)) 7 0
    else d))

/-! Microstep tables. -/

/-- The changed table goes to every Integrated stepper node again (R145). -/
def reloadTable (d : Dev) (t : Nat) : Dev :=
  (List.range 8).foldl (fun d g =>
    (headsOf d g).foldl (fun d p =>
      let h := p.2
      if stepperNode (mould d g) p.1 && (h.state = 3 || h.step = 5) then
        let d := setHd d g p.1 { h with step := 5, addressed := true, chunk := 0, tables := h.tables.filter (fun x => x != t) ++ [t] }
        nodeStateSet d g p.1 2
      else d) d) d

/-- A write of microstep table t (R145). -/
def tableWrite (d : Dev) (t : Nat) (b : Bytes) : Dev × Status :=
  if !ready d 1 then (d, .notReady)
  else if mode d != 2 then (d, .state)
  else if b.length != 1024 then (d, .length)
  else if (List.range 512).any (fun i => rd b (2 * i) 2 = 0x8000) then (d, .range)
  else (reloadTable (obs d (0x3D90 + t) 0 b) t, .ok)

/-- MICROSTEP_TABLE_WRITE (R145). -/
def execMicrostepTableWrite (t : Fin 4) (data : Bytes) (s : State) : Host.Outcome State Fault Refusal :=
  .next (upd s (fun d => let r := agreed d (0x3D90 + t.val) 0 data (tableWrite d t.val data); answer r.1 r.2))

end Sys2Proof.Machine
end

