-- ==== Sys2Proof/Machine/Rings.lean ====
section
/-! DEFINITION. Ring traffic at the head: the cyclic frame (R196-R202, R138, R142, R83), its mailbox (R208, R209), returning windows
(R17, R205, R328) and the receivers (R177, R191, R192). -/
namespace Sys2Proof.Machine

/-! The frame. -/

/-- The downstream window of axis n as its control phase writes it (R199, R83, R138). -/
def downWindow (d : Dev) (n : Nat) : Bytes :=
  let k := kind d n
  let b := mould d (cg d (ax n 1) 2)
  if k = 1 then
    leBytes 2 (b2n (axEnabled d n) + 2 * b2n (cur d n).clear + 4 * b2n (latchArmed d n)) ++ leBytes 4 (og d (ax n 0x1B) 4) ++
    leBytes 4 (pat 32 (applyWhole b)) ++ leBytes 2 0 ++ leBytes 4 0
  else if k = 2 then
    let c := cur d n
    leBytes 2 (b2n c.gates + 2 * b2n c.clear) ++ leBytes 2 c.dutyA ++ leBytes 2 c.dutyB ++ leBytes 2 c.dutyC ++ leBytes 4 c.apply ++
    List.replicate 12 0
  else
    let p := stp d n
    leBytes 2 (b2n p.energise + 2 * b2n p.clear + 4 * cg d (ax n 0x34) 5) ++
    leBytes 2 (clampInt 0 65535 (ratRoundEven (f32ToRat (ogf d (ax n 0x36) 1) * 1000))).toNat ++ leBytes 4 p.tgt ++
    leBytes 4 (pat 32 p.vel) ++ leBytes 4 p.apply ++ (if k = 4 then List.replicate 8 0 else [])

/-- The window of axis n is written into the frame buffer and stands until the next control phase (R16). A clear bit acts once (R83, R138,
R199): the window that carries it is the last of the run. -/
def freezeWindow (d : Dev) (n : Nat) : Dev :=
  let d := { d with frames := tput (fun _ => []) d.frames n (downWindow d n) }
  setStp (setCur d n { cur d n with asked := (cur d n).asked || (cur d n).clear, clear := false }) n { stp d n with clear := false }

/-- A frozen window as a frame carries it: the repeat mark of a tight ring's second frame (R142), and no control word and no torque while
the axis's cluster is not ready (R385). -/
def sentWindow (d : Dev) (n : Nat) (second : Bool) : Bytes :=
  let w := tget (fun _ => []) d.frames n
  let k := kind d n
  let w := if second && (k = 3 || k = 4) then leBytes 2 (rd w 0 2 + 16) ++ w.drop 2 else w
  if ready d (6 + cluster d n) then w
  else if k = 1 then List.replicate 6 0 ++ w.drop 6 else List.replicate 2 0 ++ w.drop 2

/-- The axis bound to window i of node j of ring g. -/
def boundAt (d : Dev) (axes : List Nat) (j i : Nat) : Option Nat :=
  axes.find? (fun n => og d (ax n 1) 3 = j && og d (ax n 1) 4 = i)

/-- The node control word (R198): outputs are enabled for an Integrated node of a Synchronous segment. -/
def controlWord (d : Dev) (g j : Nat) (follows : Option Nat) : Nat :=
  b2n (segState d g = 3 && (hd d g j).state = 3) + 4 * b2n (follows = some j)

/-- What the head writes of node j's block before its tag: control word, and the windows (R197). -/
def downBlock (d : Dev) (g j : Nat) (second : Bool) (follows : Option Nat) : Bytes × Bytes :=
  let b := mould d g
  let axes := segAxes d g
  (leBytes 2 (controlWord d g j follows),
   (List.range (winCount b j)).flatMap (fun i =>
     match boundAt d axes j i with
     | some n => let w := sentWindow d n second
                 if w.length = winSize (winKind b j i) then w else List.replicate (winSize (winKind b j i)) 0
     | none => List.replicate (winSize (winKind b j i)) 0))

/-- The ring STO map's PDU for the header: the newest handed over, zeros before the first (R196, R358). -/
def ringPdu (d : Dev) (g : Nat) : Bytes :=
  let p := tget (fun _ => []) d.pdus (0x1000 + g)
  if p.length = 16 then p else List.replicate 16 0

/-- Whether the frames of base cycle k carry the chill bit (R247). -/
def chillNow (d : Dev) : Bool := (og d 0x3510 2 = 1 || og d 0x3510 2 = 2) && d.time.chillAt = some d.time.k

/-- The cyclic frame of ring g (R196). -/
def ringFrame (d : Dev) (g : Nat) (second : Bool) (follows : Option Nat) : Bytes :=
  let b := mould d g
  let k := d.time.k
  let claim := frameClaim d g
  let h := [0x10, BitVec.ofNat 8 claim, BitVec.ofNat 8 g] ++ leBytes 4 k ++
    leBytes 1 (b2n second + 2 * b2n (chillNow d) + 4 * b2n (segState d g != 3)) ++ leBytes 2 (mouldTag b) ++ ringPdu d g
  let blocks := (List.range (mouldN g b)).flatMap (fun i =>
    let w := downBlock d g (i + 1) second follows
    let body := w.1 ++ leBytes 1 k ++ leBytes 1 claim ++ w.2
    body ++ leBytes 2 (crc16Node (i + 1) body))
  [0xFB] ++ h ++ leBytes 4 (crc32c h) ++ blocks ++ [0xFD]

/-- The unit sends its cyclic frame of ring g on a channel, or on both, and in its originating role the mailbox frame after it
(R196, R209, R242). A roll call due takes the mailbox's place (R240). `again` says that this ring cycle's frame has left on the other
channel: the same mailbox frame follows it here. -/
def sendRing (d : Dev) (g : Nat) (second : Bool) (ch : Option Chan) (again : Bool) : Dev :=
  let r := if again then (d, if (seg d g).mailed then (seg d g).exchanges.find? (fun e => e.node = (seg d g).served) else none)
    else if originates d g && (second || !rollDue d g) then opportunity d g else (d, none)
  let d := r.1
  let d := emit d (.segment g ch (ringFrame d g second (r.2.map Exchange.node)))
  let d := match r.2 with
    | some e => emit d (.segment g ch (ringMailbox d g e))
    | none => d
  setSeg d g { seg d g with lastClaim := frameClaim d g, mailed := r.2.isSome }

/-- Whether ring g's frame leaves this unit at a cycle start (R15, R229, R317, R318). -/
def ringSends (d : Dev) (g : Nat) : Bool := sending d g && frameClaim d g != 0 && headPosition d g

/-- The windows of ring g are forgotten: a new ring cycle begins (R17). -/
def clearWindows (d : Dev) (g : Nat) (half : Bool) : Dev :=
  (headsOf d g).foldl (fun d p => setHd d g p.1 { p.2 with rx := none, rx1 := if half then p.2.rx else none }) d

/-- The base cycle start of ring g: boundary changes, then its frame (R15, R232). -/
def ringStart (d : Dev) (g : Nat) : Dev :=
  let d := segBoundary d g
  let d := clearWindows (setSeg d g { seg d g with missNow := false, mailed := false }) g false
  if ringSends d g then sendRing d g false none false else d

/-! Returning windows. -/

/-- Whether this unit has sent its own frame of the running ring cycle in place of the partner's (R318). -/
def sentInPlace (d : Dev) (g : Nat) : Bool := d.pair.decided.any (fun p => p.1 / 2 = g && p.2)

/-- Whether a returning window of ring g carries the claim of a frame of this cycle: the own frame's, or on a follower the leader's (R205,
R328, R334). -/
def claimRight (d : Dev) (g claim : Nat) : Bool :=
  if pairedSeg d g && og d 0x3C01 2 = 2 then claim = og d 0x3C01 5 || (sentInPlace d g && claim = (seg d g).lastClaim)
  else claim = (seg d g).lastClaim

/-- The key of a ring block in the tables of the pair. -/
def blockKey (g j : Nat) : Nat := g * 256 + j

/-- A follower's block against the leader's fingerprint (R328): a differing or missing one is requested. -/
def blockCheck (d : Dev) (g j : Nat) : Dev :=
  match tget (fun _ => none) (d.pair.prints.map (fun p => (p.1, some p.2))) (blockKey g j) with
  | none => d
  | some fp =>
    if (hd d g j).rx.map crc32c = some fp || d.pair.requested.contains (blockKey g j) then d
    else
      let d := bump { d with pair := { d.pair with requested := d.pair.requested ++ [blockKey g j] } } 0x3C02 6
      sendPair d 3 (leBytes 1 g ++ leBytes 1 j)

/-- Sends a block of ring g to the partner, on request or as part of a full set (R326 type 0x04, R327). -/
def sendBlock (d : Dev) (g j : Nat) (full : Bool) (data : Bytes) : Dev :=
  servePair (queueLink d 4 full (4 + data.length) (leBytes 1 g ++ leBytes 1 j ++ leBytes 2 data.length ++ data))

/-- A first acceptable block of node j (R17, R198, R205, R239). -/
def takeBlock (d : Dev) (g j : Nat) (data : Bytes) : Dev :=
  let h := hd d g j
  let w := rd data 0 2
  let h' := { h with rx := some data, replyReady := bit w 4, flags := w }
  let d := setHd d g j h'
  let d := if w / 256 != 0 && w / 256 != h.flags / 256 && h.state = 3 then later d (82 + 4 * g) 1 j else d
  let d := if h.step = 4 && bit w 0 && originates d g then nodeStateSet (setHd d g j { h' with step := 20 }) g j 3 else d
  if pairedSeg d g && og d 0x3C01 9 != 0 then
    (if og d 0x3C01 2 = 1 then
       let d := sendPair d 2 (leBytes 1 g ++ leBytes 1 j ++ leBytes 4 (crc32c data))
       if d.pair.fullServe.contains g then sendBlock d g j true data else d
     else if og d 0x3C01 2 = 2 then blockCheck d g j else d)
  else d

/-- Invalid and ERR characters met by the receiver of a channel are counted (R174, R178, R191, R192). -/
def countChars (d : Dev) (g : Nat) (c : Chan) (bad err : Nat) : Dev :=
  let o := phyStatus g + 1
  let i := if c = .b then 1 else 0
  bumpBy (bumpBy d o (1 + i) bad) o (3 + i) err

/-- Whether a copy that says to be of the second tight cycle or not does so on its own side of the tight control instant (R17, R77, R196). -/
def halfRight (d : Dev) (g : Nat) (second : Bool) : Bool := !mouldTight (mould d g) || second = decide (d.time.kt = d.time.k)

/-- WINDOW_COPY_RECEIVED (R17, R178, R195, R205): a node block as it returns on a channel: the type and flags bytes of its frame, whether its
header and block CRCs are good, the invalid and ERR characters met, its tag, and its node word and windows. A frame of another type
counts as a bad header (DESIGN CHOICE, log 87). -/
def execWindowCopyReceived (r : Ring) (j : RNode) (c : Chan) (typ flags : BitVec 8) (hdrOk crcOk : Bool) (inv err : BitVec 8)
    (claim cyc : BitVec 8) (data : Bytes) (s : State) : Host.Outcome State Fault Refusal :=
  .next (upd s (fun d =>
    let g := r.val
    let second := bit flags.toNat 0
    let d := if ready d (18 + g) then countChars d g c inv.toNat err.toNat else d
    let n := j.val + 1
    let b := mould d g
    let h := hd d g n
    let ch := if c = .b then 1 else 0
    let bad (d : Dev) : Dev := if h.state = 3 then segFault d g n else d
    if !sending d g || mouldN g b < n then d
    else if !hdrOk || typ != 0x10 then bad (bump d (sgb g + 9) (1 + ch))
    else if !crcOk || inv != 0 || err != 0 || data.length != 2 + nodeWinBytes b n then bad (bump d (sgb g + 9) (3 + ch))
    else if !claimRight d g claim.toNat || cyc.toNat != d.time.k % 256 then bump d (sgb g + 9) 8
    else if d.time.kc = d.time.k || !halfRight d g second then bad (bump d (sgb g + 9) 6)
    else match h.rx with
      | none => takeBlock d g n data
      | some w => if w = data then d else bump d (sgb g + 9) 7))

/-- At a control instant the inputs of ring g's cycle close (R16, R17, R530): windows of Integrated nodes that have not come are
missing. `half` is the first cycle of a tight ring. -/
def closeRing (d : Dev) (g : Nat) (half : Bool) : Dev :=
  if !sending d g then d
  else
    (mouldNodes g (mould d g)).foldl (fun d j =>
      let h := hd d g j
      if h.state != 3 then d
      else if h.rx.isSome then (if half then d else setHd d g j { h with missing := 0 })
      else
        let d := segFault (bumpBy d (sgb g + 9) 5 (winCount (mould d g) j)) g j
        if half then d else setHd d g j { h with missing := if h.rx1.isSome then 0 else h.missing + 1 }) d

/-! Receivers. -/

/-- RECEIVER_SYNCHRONISED (R177): the equaliser's setting and margin are read for information. -/
def execReceiverSynchronised (g : Seg) (c : Chan) (eq eye : BitVec 8) (s : State) : Host.Outcome State Fault Refusal :=
  .next (upd s (fun d =>
    let o := phyStatus g.val
    let i := if c = .b then 1 else 0
    if ready d (18 + g.val) && eq.toNat ≤ 63 && eye.toNat ≤ 100 then
      os (os (os d o (1 + i) 1) o (3 + i) eq.toNat) o (5 + i) eye.toNat
    else d))

/-- RECEIVER_SYNC_LOSS (R177): on the invalid characters met, or on loss of signal with none; counted, and reported as segment link with
the channel as datum. -/
def execReceiverSyncLoss (g : Seg) (c : Chan) (inv : BitVec 8) (s : State) : Host.Outcome State Fault Refusal :=
  .next (upd s (fun d =>
    let d := if ready d (18 + g.val) then countChars d g.val c inv.toNat 0 else d
    let o := phyStatus g.val
    let i := if c = .b then 1 else 0
    if ready d (18 + g.val) && og d o (1 + i) = 1 then
      later (bump (os d o (1 + i) 0) (o + 1) (5 + i)) (80 + 4 * g.val) 0 i
    else d))

end Sys2Proof.Machine
end

