-- ==== Sys2Proof/Machine/Lines.lean ====
section
/-! DEFINITION. Line traffic at the head: node frames (R215-R221, R228), upstream decoding (R253-R259, R266-R268), setpoint coding
(R260-R263) and the summation frame (R213, R214, R359). -/
namespace Sys2Proof.Machine

/-! Node frames. -/

/-- The pair that this unit receives on line l: pair 2 at end 0, pair 1 at end 1 (R192, R221). -/
def receivingPair (d : Dev) (l : Nat) : Nat := if og d (0x3200 + 0x40 * l + 0x30) 1 = 0 then 2 else 1

/-- The classes of R220: on time, edge, out of window. -/
inductive FrameClass where
  | onTime | edge | out
  deriving DecidableEq, Repr

/-- The class of a deviation in units of 0.25 ns (R220). -/
def frameClass (dev : Int) : FrameClass := if dev.natAbs ≤ 320 then .onTime else if dev.natAbs ≤ 800 then .edge else .out

/-- Queues the correction of node k's send instant on pair p (R214, R220, R221); a value beyond its field is not stated. -/
def queueCorrection (d : Dev) (g k p : Nat) (dev : Int) : Dev :=
  let (v, d) : Int × Dev := if -32768 < dev && dev ≤ 32768 then (-dev, d) else (let x := freeVal d 16; (sgn 16 x.1, x.2))
  let x := seg d g
  setSeg d g { x with corrections := x.corrections ++ [(k, if p = 2 then 0 else 1, v)] }

/-- The deviation of a frame of node k on pair p is noted for its field cycle: on time, or to be corrected and counted unless it waited
(R220). -/
def noteDeviation (d : Dev) (g k p : Nat) (dev : Int) (waited : Bool) : Dev :=
  let h := hd d g k
  if frameClass dev = .onTime then setHd d g k { h with onTime := true }
  else if waited then d
  else setHd d g k (if p = 1 then { h with dev1 := some (h.dev1.getD dev) } else { h with dev2 := some (h.dev2.getD dev) })

/-- The deviations of node k in the field cycle that ends (R220, R221): one correction for each pair, and one count toward exclusion, which
a cycle on time resets. -/
def settleDeviation (d : Dev) (g k : Nat) : Dev :=
  let h := hd d g k
  let n := if h.dev1.isSome || h.dev2.isSome then h.dev + 1 else if h.onTime then 0 else h.dev
  let fix (d : Dev) (p : Nat) : Option Int → Dev
    | some v => queueCorrection d g k p v
    | none => d
  fix (fix (setHd d g k { h with dev := n, onTime := false, dev1 := none, dev2 := none }) 2 h.dev2) 1 h.dev1

/-- The counters of a slot frame of node k (R220, R228). -/
def countSlot (d : Dev) (l k : Nat) (dev : Int) (waited : Bool) : Dev :=
  let g := lseg l
  let o := fnx l k 3
  let d := if waited then bump d o 4 else d
  match frameClass dev with
  | .onTime => d
  | .edge => bump (bump d o 2) (sgb g + 9) 7
  | .out =>
    let d := bump (bump d o 3) (sgb g + 9) 6
    if (hd d g k).state = 3 then segFault d g k else d

/-- The deviation field of a forwarded frame (R326): I16 in units of 0.25 ns; a value beyond it is not stated. -/
def devField (d : Dev) (dev : Int) : Nat × Dev := if -32768 ≤ dev && dev < 32768 then (pat 16 dev, d) else freeVal d 16

/-- An accepted node frame goes to the partner (R326 type 0x07, R329). -/
def shareFrame (d : Dev) (l k hdr : Nat) (dev : Int) (body : Bytes) : Dev :=
  if pairedSeg d (lseg l) && og d 0x3C01 9 != 0 then
    let r := devField d dev
    sendPair r.2 7 (leBytes 1 l ++ leBytes 2 k ++ leBytes 1 hdr ++ leBytes 2 r.1 ++ body)
  else d

/-- The header byte of a field node frame (R216). -/
def frameHeader (kind : Nat) (alarm waited : Bool) (cyc : Nat) : Nat := 0x80 + 32 * kind + 16 * b2n alarm + 8 * b2n waited + cyc

/-- A slot's content: its body, and the alarm bit (R254, R216, R260). -/
def takeSlot (d : Dev) (g k : Nat) (alarm : Bool) (body : Bytes) : Dev :=
  let h := hd d g k
  setHd d g k { h with slot := some body, alarm := alarm, needAbs := h.needAbs || alarm }

/-- Whether an own frame stands although the partner's has come: the leader's copy is the agreed one (R329). -/
def ownCounts (d : Dev) : Bool := og d 0x3C01 2 != 2

/-- FIELD_FRAME_RECEIVED (R178, R215, R220): a frame of node k on a cable: kind 0 slot, 1 riser, 2 safety, 3 mailbox reply (whose content
MAILBOX_REPLY brings), the invalid and ERR characters met in it, and its deviation in units of 0.25 ns. The first valid copy of a field cycle
counts. -/
def execFieldFrameReceived (l : Line) (k : FNode) (kind : Fin 4) (cable : Chan) (crcOk : Bool) (inv err : BitVec 8) (dev : BitVec 32)
    (alarm waited : Bool) (cyc : BitVec 3) (body : Bytes) (s : State) : Host.Outcome State Fault Refusal :=
  .next (
    let g := lseg l.val
    let s := upd s (fun d => if ready d (18 + g) then countChars d g cable inv.toNat err.toNat else d)
    let d := s.dev
    let h := hd d g k.val
    let v := dev.toInt
    let out := frameClass v = .out
    let note (d : Dev) : Dev := noteDeviation d g k.val (receivingPair d l.val) v waited
    let share (d : Dev) : Dev := shareFrame d l.val k.val (frameHeader kind.val alarm waited cyc.toNat) v body
    let keep := ownCounts d
    if !sending d g || !linePresent (mould d g) k.val then s
    else if !crcOk || inv != 0 || err != 0 then
      upd s (fun d =>
        let d := bump (bump d (sgb g + 9) (if cable = .a then 3 else 4)) (fnx l.val k.val 3) 6
        if h.state = 3 then segFault d g k.val else d)
    else if cyc.toNat != segCycle d g % 8 then s
    else if kind = 0 then
      (if body.length != 4 || bit h.own 0 then s
       else upd s (fun d =>
         let d := countSlot (note (setHd d g k.val { h with own := setBit h.own 0 true })) l.val k.val v waited
         if out then setHd d g k.val { hd d g k.val with slotMiss := true }
         else share (if keep || h.slot.isNone then takeSlot d g k.val alarm body else d)))
    else if kind = 1 then
      (if body.length != 32 || bit h.own 1 then s
       else upd s (fun d =>
         let d := note (setHd d g k.val { h with own := setBit h.own 1 true })
         if out then d
         else share (if keep || h.riser.isNone then setHd d g k.val { hd d g k.val with riser := some body } else d)))
    else if kind = 2 then
      let s := upd s note
      if out then s else islandSettle { s with isl := islandNodePdu s.isl l.val k.val body }
    else upd s note)

/-! Upstream decoding. -/

/-- x limited to 16 bits signed (R255). -/
def clamp16 (x : Int) : Int := clampInt (-32768) 32767 x
/-- Word i of the decoded record. -/
def wordAt (h : HeadNode) (i : Nat) : Nat := (h.words ++ List.replicate 16 0).getD i 0
/-- The record with words W0 and W1 replaced. -/
def withWords (h : HeadNode) (w0 : Nat) (w1 : Int) : List Nat :=
  w0 :: pat 16 w1 :: (((h.words ++ List.replicate 16 0).take 16).drop 2)

/-- Decodes an accepted slot (R254, R256). -/
def decodeSlot (h : HeadNode) (body : Bytes) : HeadNode :=
  let c := rd body 0 4
  let w0 := c / 65536
  if bit c 15 then
    let v := 2 * sgn 15 (c % 2 ^ 15)
    { h with words := withWords h w0 v, h1 := v, h2 := v, approx := true, synced := true }
  else if h.synced then
    let sc := bits c 12 3
    let v := clamp16 (clamp16 (2 * h.h1 - h.h2) + sgn 12 (c % 4096) * 2 ^ sc)
    { h with words := withWords h w0 v, h2 := h.h1, h1 := v, approx := 0 < sc }
  else { h with words := withWords h w0 (sgn 16 (wordAt h 1)) }

/-- The riser part of a node's decoding in its riser cycle (R256). -/
def decodeRiser (h : HeadNode) (c : Nat) : HeadNode :=
  match h.riser with
  | some r =>
    let v := sgn 16 (rd r 2 2)
    { h with words := (List.range 16).map (fun i => rd r (2 * i) 2), h1 := v, h2 := v, approx := false, synced := true, recCyc := c }
  | none => if h.synced && !h.approx then { h with h2 := h.h1 } else { h with synced := false }

/-- The resync request of a node after its decoding of field cycle c (R259). -/
def resyncAfter (h : HeadNode) (c : Nat) : HeadNode :=
  if h.synced then { h with resync := none, asked := none }
  else match h.resync, h.asked with
    | some _, _ => h
    | none, some a => if a + 1 ≤ c then { h with resync := some c, asked := none } else h
    | none, none => { h with resync := some c }

/-- Whether field cycle c is node k's riser cycle (R217). -/
def riserCycle (b : Bytes) (k c : Nat) : Bool := c % (max 1 ((mouldN 8 b + 15) / 16)) = k / 16

/-- The head decodes an Integrated node's frames of field cycle c (R256, R266, R267). -/
def decodeNode (d : Dev) (l k c : Nat) : Dev :=
  let g := lseg l
  let h := hd d g k
  let o := fnx l k 3
  let lost := bit h.flags 2
  let gone := h.slot.isNone && !h.slotMiss
  let d := if gone then segFault (bump (bump d o 1) (sgb g + 9) 5) g k else d
  let coded := match h.slot with
    | some s => decodeSlot h s
    | none => { h with synced := false }
  let approxSlot := match h.slot with
    | some s => bit (rd s 0 4) 15 || bits (rd s 0 4) 12 3 != 0
    | none => false
  let d := if approxSlot then bump d o 7 else d
  let isR := riserCycle (mould d g) k c
  let h2 := resyncAfter (if isR then decodeRiser coded c else coded) c
  let got := isR && h.riser.isSome
  let fl := b2n h.slot.isNone + 2 * b2n h2.approx + 4 * b2n (!h2.synced) + 8 * b2n got + 16 * b2n (got || bit h.flags 4)
  let d := if !h2.synced && !lost then bump d o 8 else d
  setHd d g k { h2 with flags := fl, missing := if gone then h.missing + 1 else 0 }

/-- A node that is not Integrated: a slot answers step 4 of R239; its history is lost, and asked for again while it is excluded (R259). No
slot of this field cycle is missing, and no riser of it is taken (R530; DEDUCED, log 92). -/
def decodeOther (d : Dev) (l k c : Nat) : Dev :=
  let g := lseg l
  let h := hd d g k
  let d := if h.synced then bump d (fnx l k 3) 8 else d
  let f := setBit (setBit (setBit h.flags 0 false) 3 false) 2 (h.synced || bit h.flags 2)
  let h : HeadNode := { h with synced := false, flags := f }
  setHd d g k (if h.state = 5 then resyncAfter h c else { h with resync := none, asked := none })

/-- The agreed node frames of line l's field cycle join the input digest of the cycle that publishes them (R329, R331). -/
def noteFrames (d : Dev) (l : Nat) : Dev :=
  if pairedSeg d (lseg l) && og d 0x3C01 1 != 0 then
    { d with pair := { d.pair with fieldIn := tput (fun _ => []) d.pair.fieldIn l <|
      ((headsOf d (lseg l)).flatMap (fun p => p.2.slot.getD [] ++ p.2.riser.getD [])) } }
  else d

/-- The upstream decoding of line l's field cycle c (R256); a node whose first slot has come is Integrated with it. -/
def decodeLine (d : Dev) (l c : Nat) : Dev :=
  let g := lseg l
  let d := noteFrames d l
  (headsOf d g).foldl (fun d p =>
    let k := p.1
    let d := if (hd d g k).step = 4 && (hd d g k).slot.isSome && originates d g then
        nodeStateSet (setHd d g k { hd d g k with step := 20 }) g k 3 else d
    let d := settleDeviation (if (hd d g k).state = 3 then decodeNode d l k c else decodeOther d l k c) g k
    setHd d g k { hd d g k with slot := none, riser := none, slotMiss := false, own := 0 }) d

/-- Field values become visible (R19, R266). -/
def publishLine (d : Dev) (l : Nat) : Dev :=
  (headsOf d (lseg l)).foldl (fun d p =>
    let h := p.2
    let o := fnx l p.1 2
    let d := (List.range 16).foldl (fun d i => os d o (i + 1) (wordAt h i)) d
    os (os d o 0x11 h.flags) o 0x12 h.recCyc) d

/-! Setpoint coding. -/

/-- Insertion by a rank into an ascending list. -/
def rankInsert (a : Nat × Nat) : List (Nat × Nat) → List (Nat × Nat)
  | [] => [a]
  | b :: t => if a.1 < b.1 || (a.1 = b.1 && a.2 < b.2) then a :: b :: t else b :: rankInsert a t
/-- Pairs in ascending order of rank, then number. -/
def rankSort (xs : List (Nat × Nat)) : List (Nat × Nat) := xs.foldl (fun acc a => rankInsert a acc) []

/-- The setpoint of node k that this field cycle takes (R19, R260). -/
def setpointOf (d : Dev) (l k : Nat) : Nat := cg d (fnx l k 1) 1
/-- The node's sent value (R260). -/
def sentOf (d : Dev) (l k : Nat) : Nat := og d (fnx l k 1) 2
/-- Whether a node is pending (R260). -/
def isPending (d : Dev) (l k : Nat) : Bool :=
  ((hd d (lseg l) k).needAbs && (hd d (lseg l) k).state = 3) || setpointOf d l k != sentOf d l k

/-- Ages of the nodes at field cycle c (R260). -/
def ageLine (d : Dev) (l c : Nat) : Dev :=
  (mouldNodes (lseg l) (mould d (lseg l))).foldl (fun d k =>
    let h := hd d (lseg l) k
    let on := isPending d l k
    os (setHd d (lseg l) k { h with age := if on then some (h.age.getD c) else none }) (fnx l k 1) 3
      (if on then (c - h.age.getD c) % 65536 else 0)) d

/-- The entry that codes node k (R262, R263). -/
def codeEntry (d : Dev) (l k : Nat) : Bytes :=
  let new := setpointOf d l k
  let dv := wrap 16 ((new : Int) - sentOf d l k)
  if (hd d (lseg l) k).needAbs then leBytes 4 (3 + 4 * k + 65536 * new)
  else if -8 ≤ dv && dv ≤ 7 then leBytes 2 (1 + 4 * k + 4096 * pat 4 dv)
  else if -2048 ≤ dv && dv ≤ 2047 then leBytes 3 (2 + 4 * k + 4096 * pat 12 dv)
  else leBytes 4 (3 + 4 * k + 65536 * new)

/-- Node k has been coded in field cycle c: its sent value, and the largest delay (R263, R268). -/
def markCoded (d : Dev) (l k c : Nat) : Dev :=
  let g := lseg l
  let h := hd d g k
  let delay := c - h.age.getD c
  let d := os (os d (fnx l k 1) 2 (setpointOf d l k)) (fnx l k 1) 3 0
  let d := if og d (sgb g + 0x0C) 6 < delay then os d (sgb g + 0x0C) 6 delay else d
  setHd d g k { h with needAbs := false, age := none }

/-- Codes the nodes in order while `left` bytes remain, skipping entries that do not fit (R263). -/
def codeNodes (d : Dev) (l c : Nat) (left : Nat) (acc : Bytes) (n : Nat) : List Nat → Dev × Bytes × Nat
  | [] => (d, acc, n)
  | k :: ks =>
    let e := codeEntry d l k
    if e.length ≤ left then codeNodes (markCoded d l k c) l c (left - e.length) (acc ++ e) (n + 1) ks
    else codeNodes d l c left acc n ks

/-- The resync list of field cycle c (R259): the oldest 8 requests whose loss lies two field cycles back. -/
def resyncList (d : Dev) (l c : Nat) : List Nat :=
  ((rankSort ((headsOf d (lseg l)).filterMap (fun p => match p.2.resync with
    | some a => if a + 2 ≤ c then some (a, p.1) else none
    | none => none))).take 8).map (·.2)

/-- Forms the coded setpoint area of field cycle c (R261, R263, R268). -/
def codeArea (d : Dev) (l c : Nat) : Dev × Bytes :=
  let g := lseg l
  let o := sgb g + 0x0C
  let bc := lineBc (mould d g)
  let ys := resyncList d l c
  let d := ys.foldl (fun d k => setHd d g k { hd d g k with resync := none, asked := some c }) d
  let head := leBytes 1 ys.length ++ ys.flatMap (fun k => leBytes 2 k)
  let d := ageLine d l c
  let pend (d : Dev) : List (Nat × Nat) := rankSort ((headsOf d g).filterMap (fun p => p.2.age.map (fun a => (a, p.1))))
  let r := if segState d g = 3 then codeNodes d l c (bc - head.length) [] 0 ((pend d).map (·.2)) else (d, [], 0)
  let d := r.1
  let area := head ++ r.2.1
  let left := pend d
  let d := os (os (os d o 1 area.length) o 2 r.2.2) o 3 left.length
  let d := os d o 4 ((left.head?.map (fun p => c - p.1)).getD 0 % 65536)
  let d := os d o 7 ((headsOf d g).filter (fun p => p.2.resync.isSome)).length
  (bumpBy d o 8 ys.length, area ++ List.replicate (bc - area.length) 0)

/-! The summation frame. -/

/-- The safety PDUs of line l that the island had handed over at least one base cycle ago, in ascending connection ID (R358). -/
def linePdus (d : Dev) (l : Nat) : List Bytes :=
  (d.pdus2.filter (fun p => (0x2000 + 16 * l ≤ p.1 && p.1 < 0x2010 + 16 * l) || (0x3000 + 1024 * l ≤ p.1 && p.1 < 0x3400 + 1024 * l))).map (·.2)

/-- The correction entries of the next summation frame (R214, R221): the oldest 8. -/
def correctionBytes (cs : List (Nat × Nat × Int)) : Bytes :=
  let e := (cs.take 8).flatMap (fun c => leBytes 2 (c.1 + c.2.1 * 2 ^ 14) ++ leBytes 2 (pat 16 c.2.2))
  e ++ List.replicate (32 - e.length) 0

/-- The unit sends the summation frame of field cycle c (R213, R247, R359). -/
def sendSummation (d : Dev) (l c : Nat) : Dev :=
  let g := lseg l
  let b := mould d g
  let x := seg d g
  let sent := x.corrections.take 8
  let cor := correctionBytes x.corrections
  let d := setSeg d g { x with corrections := x.corrections.drop 8, waits := x.waits + (x.corrections.length - 8) }
  let d := bumpBy d (sgb g + 9) 8 (sent.filter (fun e => e.2.1 = 2)).length
  let ps := linePdus d l
  let ns := lineNs b
  let d := if ns < ps.length then later d (82 + 4 * g) 6 (ps.length - ns) else d
  let pd := (ps.take ns).flatten
  let r := codeArea d l c
  let h := [0x20, BitVec.ofNat 8 (frameClaim d g), BitVec.ofNat 8 g] ++ leBytes 4 c ++
    leBytes 1 (2 * b2n (chillNow d) + 4 * b2n (segState d g != 3)) ++ leBytes 2 (mouldTag b) ++ leBytes 1 sent.length ++ cor ++
    leBytes 1 ns ++ pd ++ List.replicate (16 * ns - pd.length) 0 ++ r.2
  let d := setSeg r.1 g { seg r.1 g with lastClaim := frameClaim d g, area := cor ++ r.2 }
  if frameClaim d g = 0 then d else emit d (.segment g none ([0xFB] ++ h ++ leBytes 4 (crc32c h) ++ [0xFD]))

/-- Excluded nodes whose 16 field cycles have passed repeat steps 2 and 4 (R240). -/
def reintegrate (d : Dev) (g : Nat) : Dev :=
  (headsOf d g).foldl (fun d p =>
    if p.2.state = 5 && !p.2.addressed && p.2.step = 0 && p.2.exclAt + 16 ≤ segCycle d g then
      setHd d g p.1 { p.2 with addressed := true, step := 2 } else d) d

/-- The start of field cycle c of line l (R19, R232): the cycle that ended is decoded, boundary changes take effect, and the
summation frame and mailbox requests leave. -/
def lineStart (d : Dev) (l c : Nat) : Dev :=
  let g := lseg l
  let x := seg d g
  let d := if sending d g && x.fieldCycle != 0 then decodeLine d l (x.fieldCycle - 1) else d
  let d := setSeg d g { seg d g with fieldCycle := c + 1, missNow := false, lead := decide (og d 0x3C01 2 = 1) }
  let d := { d with pair := { d.pair with heardLines := d.pair.heardLines.filter (· != g) } }
  let d := segBoundary d g
  if !sending d g then d
  else
    let d := reintegrate d g
    let d := sendSummation d l c
    if frameClaim d g != 0 && originates d g then
      lineMailboxes d g (rd (mould d g) 11 1 - b2n (rollDue d g))
    else d

/-- FIELD_CYCLE_START (R15, R19): at a base cycle whose count N_b divides. -/
def execFieldCycleStart (l : Line) (s : State) : Host.Outcome State Fault Refusal :=
  .next (upd s (fun d =>
    let g := lseg l.val
    let nb := mouldNb (mould d g)
    let c := d.time.k / nb
    if ready d (18 + g) && d.time.k % nb = 0 && d.time.kc != d.time.k && (seg d g).fieldCycle != c + 1 then
      occur (lineStart d l.val c) 3 g
    else d))

end Sys2Proof.Machine
end

