-- ==== Sys2Proof/Machine/Pulse.lean ====
section
/-! DEFINITION. Pulse inputs (R152-R164). Times are segment time in units of 0.8 ns. -/
namespace Sys2Proof.Machine

/-- Segment time as units of 0.8 ns (R153). -/
def pulseTime (u : Nat) : Int := ratRoundEven (mkRat u (8 * 2 ^ 40))
/-- Control instant of base cycle k in units of 0.8 ns. -/
def pulseInstantAt (k : Nat) : Int := k * 40000 + 35000
/-- A pulse time as TIME112 (R27, R153). -/
def pulseTime112 (t : Int) : Nat := timeOfUnits (gridToU t).toNat
/-- One tooth pitch of input i as Q48.16 counts. -/
def pitch (d : Dev) (i : Nat) : Int := (cg d (0x3D00 + i) 6 : Int) * 65536
/-- Position of input i, Q48.16. -/
def pulsePos (d : Dev) (i : Nat) : Int := ogi 64 d (0x3D10 + i) 1
/-- Moves the position of input i. -/
def setPos (d : Dev) (i : Nat) (p : Int) : Dev := osi 64 d (0x3D10 + i) 1 p
/-- Sets or clears a status bit of input i. -/
def pulseBit (d : Dev) (i b : Nat) (v : Bool) : Dev := osb d (0x3D10 + i) 4 b v

/-- The tooth index of R160; 0xFFFF before the first reference. -/
def showIndex (d : Dev) (i : Nat) : Dev :=
  os d (0x3D10 + i) 5 (match (pls d i).basis with
    | none => 0xFFFF
    | some b => (((pulsePos d i - b).fdiv (pitch d i)).emod (cg d (0x3D00 + i) 7 : Int)).toNat)

/-- A recognised mark (R159, R160, R161): `back` is k of R159. The basis, the check of a later reference, its correction or
suspicion, and the tooth fault. -/
def reference (d : Dev) (i : Nat) (neg : Bool) (back : Nat) : Dev :=
  let P := pitch d i
  let x := pls d i
  let pr := wrap 64 (pulsePos d i + if neg then back * P else 0)
  let o := 0x3D10 + i
  let show_ (d : Dev) (pr dd : Int) (x : PulseSt) : Dev :=
    osi 16 (os (osi 64 (setPls d i { x with pRef := pr, refEvent := true }) o 6 pr) o 7 (pulseTime112 x.te)) o 8 dd
  match x.basis with
  | none => pulseBit (show_ d pr 0 { x with basis := some pr, suspect := false, mism := false }) i 4 true
  | some b =>
    let Z : Int := cg d (0x3D00 + i) 7
    let d0 := ((pr - b).fdiv P).emod Z
    let dd := if Z / 2 < d0 then d0 - Z else d0
    if dd = 0 then
      pulseBit (pulseBit (show_ d pr 0 { x with basis := some pr, suspect := false, mism := false }) i 5 false) i 6 false
    else if dd.natAbs ≤ og d (0x3D00 + i) 0x0C then
      let pr' := wrap 64 (pr - dd * P)
      let d := bump (setPos d i (wrap 64 (pulsePos d i - dd * P))) (0x3D20 + i) 3
      pulseBit (show_ d pr' dd { x with basis := some pr', suspect := false, mism := false }) i 5 false
    else
      let d := log (bump d (0x3D20 + i) 4) 6 1 (i + pat 16 dd * 65536)
      let d := pulseBit d i 5 true
      if x.mism && x.dLast = dd then
        let d := pulseBit (bump d (0x3D20 + i) 5) i 6 true
        laterStop (show_ d pr dd { x with suspect := true, basis := some pr, mism := false }) 129 0 i 3
      else show_ d pr dd { x with suspect := true, mism := true, dLast := dd }

/-- A tooth event ends the loss of input i (R163); source 131 ends with the last input's loss (R527). -/
def lossOver (d : Dev) (i : Nat) : Dev :=
  if bit (og d (0x3D10 + i) 4) 9 then
    let d := pulseBit d i 9 false
    if (List.range 16).any (fun j => bit (og d (0x3D10 + j) 4) 9) then d else deassert d 131
  else d

/-- The processing of an active edge at time t with direction s (R154, R157). -/
def toothAt (d : Dev) (i : Nat) (t : Int) (neg : Bool) : Dev :=
  let c := 0x3D00 + i
  let o := 0x3D10 + i
  let x := pls d i
  let tmin : Int := (cg d c 5 * 5 + 3) / 4
  let fast := match x.lastEdge with
    | some l => decide (t - l < tmin)
    | none => false
  if fast then later (bump d (0x3D20 + i) 2) 128 0 i
  else
    let P := pitch d i
    let s : Int := if neg then -1 else 1
    let rev := neg != x.sNeg
    let x := { x with lastEdge := some t, watch := 0 }
    let d := lossOver d i
    if x.restart || rev then
      let d := setPos d i (wrap 64 (pulsePos d i + s * P))
      let d := bump (if rev then bump d (0x3D20 + i) 6 else d) (0x3D20 + i) 7
      let d := setPls d i { x with te := t, ta := t, tp := none, v := 0, invalid := true, restart := false, sNeg := neg, toothNow := true }
      let d := os (os d o 2 (pulseTime112 t)) o 9 0
      showIndex (pulseBit (pulseBit (bump d (0x3D20 + i) 1) i 1 neg) i 3 false) i
    else
      let dt := t - x.ta
      let mark := cg d c 8
      let tp := (x.tp.map f64ToRat).getD 0
      if mark = 2 && x.tp.isSome && decide ((dt : Rat) < cgq d c 0x0B * tp) then setPls d i { x with refPending := true, toothNow := true }
      else
        let gap := mark = 1 && x.tp.isSome && decide (cgq d c 0x0A * tp < (dt : Rat))
        let n := if gap then cg d c 9 + 1 else 1
        let T := f64OfRat (mkRat dt n)
        let v := f32OfRat (f64ToRat (f64OfRat (s * n * (cg d c 6 : Int) * 1250000000 / (dt : Rat))))
        let d := setPos d i (wrap 64 (pulsePos d i + s * n * P))
        let pend := x.refPending
        let d := setPls d i { x with te := t, ta := t, tp := some T, v := v, invalid := false, toothNow := true,
                                     refPending := if gap then pend else false }
        let d := osf (os d o 2 (pulseTime112 t)) o 9 (f32OfRat (f64ToRat T * 8 / 10000000000))
        let d := bump d (0x3D20 + i) 1
        let d := if gap then reference d i neg n else if pend then reference d i neg 1 else d
        showIndex (pulseBit d i 3 false) i

/-- Processes the edges of input i whose processing completes before `tc`, oldest first (R155). -/
def processEdges (d : Dev) (i : Nat) (tc : Int) : Dev :=
  let due := (pls d i).waiting.filter (fun e => decide (e.2.1 < tc))
  let d := setPls d i { pls d i with waiting := (pls d i).waiting.filter (fun e => !decide (e.2.1 < tc)) }
  due.foldl (fun d e =>
    let neg := if cg d (0x3D00 + i) 0x0D = 1 then decide (cg d (0x3D00 + i) 0x0F ≤ e.2.2.1) else e.2.2.2
    toothAt d i e.1 neg) d

/-- Whether input i counts: enabled, the feedback unit ready (R164, R170). -/
def pulseOn (d : Dev) (i : Nat) : Bool := cg d (0x3D00 + i) 1 = 1 && ready d 16

/-- T_ss in units of 0.8 ns (R162). -/
def standstillTime (d : Dev) (i : Nat) : Rat :=
  let cap : Rat := ((og d (0x3D00 + i) 0x11 * 1250 : Nat) : Rat)
  match (pls d i).tp with
  | some T => let a := (og d (0x3D00 + i) 0x10 : Rat) * f64ToRat T; if a < cap then a else cap
  | none => cap

/-- Standstill of input i (R162). -/
def standstill (d : Dev) (i : Nat) : Dev :=
  let d := setPls d i { pls d i with restart := true }
  osf (pulseBit (pulseBit d i 3 true) i 2 true) (0x3D10 + i) 3 0

/-- The reported speed at time t (R162). -/
def pulseSpeed (d : Dev) (i : Nat) (t : Int) : Dev :=
  let x := pls d i
  let dt : Rat := ((t - x.te : Int) : Rat)
  if bit (og d (0x3D10 + i) 4) 3 || standstillTime d i ≤ dt then standstill d i
  else if x.invalid then osf (pulseBit d i 2 true) (0x3D10 + i) 3 0
  else
    let lim : Rat := if dt ≤ 0 then f32ToRat (f32Abs x.v) else f64ToRat (f64OfRat ((cg d (0x3D00 + i) 6 * 1250000000 : Nat) / dt))
    let a := f32ToRat (f32Abs x.v)
    let m := f32OfRat (if lim < a then lim else a)
    osf (pulseBit d i 2 false) (0x3D10 + i) 3 (if x.sNeg && f32ToRat m != 0 then f32Neg m else m)

/-- Input i at the control instant of base cycle k (R155, R156, R162, R163), after the references of the instant: the state
the clusters see, the watch, and the direction latched for the edges to come. -/
def pulseInstant (d : Dev) (i k : Nat) : Dev :=
  if !pulseOn d i then d
  else
    let t := pulseInstantAt k
    let d := processEdges d i t
    let d := pulseSpeed d i t
    let x := pls d i
    let d := pulseBit (pulseBit d i 0 x.toothNow) i 7 x.refEvent
    let v := f32ToRat (ogf d (ax (cg d (0x3D00 + i) 0x0E) 0x24) 2)
    let w := f32ToRat (ogf d (0x3D00 + i) 0x12)
    let h := secF (gridToU t - gridToU x.te)
    let e := ogf d (0x3D10 + i) 3
    let pt := f32OfInt (cg d (0x3D00 + i) 6)
    let pe := wrap 64 (pulsePos d i + qF (f32Clamp (f32Neg pt) pt (f32Mul e h)))
    setPls d i { x with refNow := x.refEvent, refEvent := false, toothNow := false, pExt := pe,
                        watch := if w != 0 && !x.toothNow && w ≤ ratAbs v then x.watch + 1 else 0,
                        cmdNeg := if v = 0 then x.cmdNeg else decide (v < 0) }

/-- TOOTH_EVENT (R153-R161): an active edge `dg` points of the 0.8 ns grid after the last event, with its width in ns. It is
processed with the control instant it belongs to. -/
def execToothEvent (i : PIn) (dg width : BitVec 32) (s : State) : Host.Outcome State Fault Refusal :=
  .next (upd s (fun d =>
    let d := advance d dg.toNat
    if pulseOn d i.val then
      let t := pulseTime d.time.seg
      let F : Int := cg d (0x3D00 + i.val) 4
      let coded := cg d (0x3D00 + i.val) 0x0D = 1
      let wide : Int := if coded then ((width.toNat * 5 + 3) / 4 : Nat) else 0
      let x := pls d i.val
      let d := setPls d i.val { x with waiting := x.waiting ++ [(t, t + wide + F + 20, width.toNat, x.cmdNeg)] }
      processEdges d i.val (pulseInstantAt (d.time.kc + 1))
    else d))

/-- STANDSTILL_TIMEOUT (R162): no tooth within T_ss. -/
def execStandstillTimeout (i : PIn) (s : State) : Host.Outcome State Fault Refusal :=
  .next (upd s (fun d =>
    if pulseOn d i.val && decide (standstillTime d i.val ≤ ((pulseTime d.time.seg - (pls d i.val).te : Int) : Rat)) then
      standstill d i.val
    else d))

/-- Every axis fed by the input takes the action of R60 (R163). -/
def fedLoss (d : Dev) (i : Nat) : Dev :=
  (fedAxes d i).foldl (fun d n => if bit (og d (ax n 0x1B) 7) 4 then d else feedbackLoss d n) d

/-- PULSE_INPUT_SIGNAL_FAULT (R163): a differential level below the fail-safe threshold for 1 µs. -/
def execPulseInputSignalFault (i : PIn) (s : State) : Host.Outcome State Fault Refusal :=
  .next (upd s (fun d =>
    if pulseOn d i.val && cg d (0x3D00 + i.val) 2 = 0 && !bit (og d (0x3D10 + i.val) 4) 8 then
      fedLoss (later (pulseBit (bump d (0x3D20 + i.val) 8) i.val 8 true) 130 0 i.val) i.val
    else d))

/-- PULSE_INPUT_SIGNAL_RESTORED (R163, R527): the level is back; source 130 ends with the last input's fault. -/
def execPulseInputSignalRestored (i : PIn) (s : State) : Host.Outcome State Fault Refusal :=
  .next (upd s (fun d =>
    let d := pulseBit d i.val 8 false
    if (List.range 16).any (fun j => bit (og d (0x3D10 + j) 4) 8) then d else deassert d 130))

/-- PULSE_INPUT_LOSS (R163): the watch time has run without a tooth event at the watch speed or above. -/
def execPulseInputLoss (i : PIn) (s : State) : Host.Outcome State Fault Refusal :=
  .next (upd s (fun d =>
    if pulseOn d i.val && f32ToRat (ogf d (0x3D00 + i.val) 0x12) != 0 && !bit (og d (0x3D10 + i.val) 4) 9 &&
        decide (instants (og d (0x3D00 + i.val) 0x13) ≤ (pls d i.val).watch) then
      fedLoss (later (pulseBit d i.val 9 true) 131 0 i.val) i.val
    else d))

end Sys2Proof.Machine
end

