-- ==== Sys2Proof/Machine/Sha256.lean ====
section
/-! DEFINITION. SHA-256 (FIPS 180-4) and HMAC-SHA-256 (FIPS 198-1), which tag a session's datagrams (R471). Words are numbers below
2^32. -/
namespace Sys2Proof.Machine

/-- The round constants: the first 32 bits of the fractions of the cube roots of the first 64 primes. -/
def shaK : List Nat :=
  [0x428A2F98, 0x71374491, 0xB5C0FBCF, 0xE9B5DBA5, 0x3956C25B, 0x59F111F1, 0x923F82A4, 0xAB1C5ED5] ++
  [0xD807AA98, 0x12835B01, 0x243185BE, 0x550C7DC3, 0x72BE5D74, 0x80DEB1FE, 0x9BDC06A7, 0xC19BF174] ++
  [0xE49B69C1, 0xEFBE4786, 0x0FC19DC6, 0x240CA1CC, 0x2DE92C6F, 0x4A7484AA, 0x5CB0A9DC, 0x76F988DA] ++
  [0x983E5152, 0xA831C66D, 0xB00327C8, 0xBF597FC7, 0xC6E00BF3, 0xD5A79147, 0x06CA6351, 0x14292967] ++
  [0x27B70A85, 0x2E1B2138, 0x4D2C6DFC, 0x53380D13, 0x650A7354, 0x766A0ABB, 0x81C2C92E, 0x92722C85] ++
  [0xA2BFE8A1, 0xA81A664B, 0xC24B8B70, 0xC76C51A3, 0xD192E819, 0xD6990624, 0xF40E3585, 0x106AA070] ++
  [0x19A4C116, 0x1E376C08, 0x2748774C, 0x34B0BCB5, 0x391C0CB3, 0x4ED8AA4A, 0x5B9CCA4F, 0x682E6FF3] ++
  [0x748F82EE, 0x78A5636F, 0x84C87814, 0x8CC70208, 0x90BEFFFA, 0xA4506CEB, 0xBEF9A3F7, 0xC67178F2]

/-- The initial hash value. -/
def shaH : List Nat :=
  [0x6A09E667, 0xBB67AE85, 0x3C6EF372, 0xA54FF53A, 0x510E527F, 0x9B05688C, 0x1F83D9AB, 0x5BE0CD19]

/-- Rotation right of a 32-bit word. -/
def rotr (n x : Nat) : Nat := x / 2 ^ n + x % 2 ^ n * 2 ^ (32 - n)
/-- Sigma0 of the compression, on a. -/
def shaS0 (x : Nat) : Nat := rotr 2 x ^^^ rotr 13 x ^^^ rotr 22 x
/-- Sigma1 of the compression, on e. -/
def shaS1 (x : Nat) : Nat := rotr 6 x ^^^ rotr 11 x ^^^ rotr 25 x
/-- sigma0 of the message schedule. -/
def shaG0 (x : Nat) : Nat := rotr 7 x ^^^ rotr 18 x ^^^ x / 8
/-- sigma1 of the message schedule. -/
def shaG1 (x : Nat) : Nat := rotr 17 x ^^^ rotr 19 x ^^^ x / 1024

/-- The number that bytes spell, most significant first. -/
def ofBe (bs : Bytes) : Nat := bs.foldl (fun v b => v * 256 + b.toNat) 0
/-- The n bytes of a number, most significant first. -/
def beBytes (n v : Nat) : Bytes := (leBytes n v).reverse

/-- Extends the schedule, held newest first, by `n` words. -/
def shaExtend : Nat → List Nat → List Nat
  | 0, w => w
  | n + 1, w => shaExtend n ((shaG1 (w.getD 1 0) + w.getD 6 0 + shaG0 (w.getD 14 0) + w.getD 15 0) % 2 ^ 32 :: w)

/-- One round on the eight working variables. -/
def shaRound (v : List Nat) (kw : Nat × Nat) : List Nat :=
  match v with
  | [a, b, c, d, e, f, g, h] =>
    let t1 := h + shaS1 e + ((e &&& f) ^^^ ((0xFFFFFFFF ^^^ e) &&& g)) + kw.1 + kw.2
    let t2 := shaS0 a + ((a &&& b) ^^^ (a &&& c) ^^^ (b &&& c))
    [(t1 + t2) % 2 ^ 32, a, b, c, (d + t1) % 2 ^ 32, e, f, g]
  | _ => v

/-- The compression of one block of 64 bytes into a hash value. -/
def shaBlock (h : List Nat) (blk : Bytes) : List Nat :=
  let w0 := (List.range 16).map (fun i => ofBe ((blk.drop (4 * i)).take 4))
  let w := (shaExtend 48 w0.reverse).reverse
  let r := (shaK.zip w).foldl shaRound h
  (h.zip r).map (fun p => (p.1 + p.2) % 2 ^ 32)

/-- The message padded to whole blocks. -/
def shaPad (m : Bytes) : Bytes :=
  m ++ [0x80] ++ List.replicate ((119 - m.length % 64) % 64) 0 ++ beBytes 8 (8 * m.length)

/-- SHA-256 of a message. -/
def sha256 (m : Bytes) : Bytes :=
  let p := shaPad m
  ((List.range (p.length / 64)).foldl (fun h i => shaBlock h ((p.drop (64 * i)).take 64)) shaH).flatMap (beBytes 4)

/-- HMAC-SHA-256 under a key of at most 64 bytes. -/
def hmac (key m : Bytes) : Bytes :=
  let k := key ++ List.replicate (64 - key.length) 0
  sha256 (k.map (· ^^^ 0x5C) ++ sha256 (k.map (· ^^^ 0x36) ++ m))

end Sys2Proof.Machine
end

