-- ==== Sys2Proof/Machine/Session.lean ====
section
/-! DEFINITION. KDA sessions: the framing and tags of datagrams (R467, R471), acceptance and replay (R472), opening and closing
(R470, R473). -/
namespace Sys2Proof.Machine

/-- The 24-byte header of a KDA datagram (R467). -/
def kdaHeader (typ flags status session counter req len : Nat) : Bytes :=
  leBytes 1 1 ++ leBytes 1 typ ++ leBytes 1 flags ++ leBytes 1 status ++ leBytes 4 session ++ leBytes 8 counter ++
  leBytes 4 req ++ leBytes 2 len ++ leBytes 2 0

/-- The tag of a datagram (R471). -/
def kdaTag (key header body : Bytes) : Bytes := (hmac key (header ++ body)).take 16

/-- The session key K_s (R471). -/
def sessionKey (psk : Bytes) (id : Nat) (client device : Bytes) : Bytes :=
  hmac psk (ascii "KDA-SESSION" ++ leBytes 4 id ++ client ++ device)

/-- The pre-shared key that a new session takes: 32 zero bytes while unset (R474). -/
def pskOf (d : Dev) : Bytes := if og d 0x2F10 2 = 1 then ob d 0x2F10 1 else List.replicate 32 0

/-- The session with an identifier. -/
def findSession (d : Dev) (id : Nat) : Option Session := d.host.sessions.find? (fun s => s.id = id)
/-- Changes the session with an identifier. -/
def onSession (d : Dev) (id : Nat) (f : Session → Session) : Dev :=
  { d with host := { d.host with sessions := d.host.sessions.map (fun s => if s.id = id then f s else s) } }

/-- Whether a port is enabled by the configuration taken at bring-up (R466, R486). -/
def portEnabled (d : Dev) (p : Nat) : Bool := (d.host.ports.getD p (1, 0, 0)).1 = 1
/-- Whether the host link runs on a port: management and the Ethernet link layer are ready (R9, R485) and the port is not silent. -/
def linkUp (d : Dev) (p : Port) : Bool := ready d 0 && ready d 30 && portEnabled d p.val

/-- Sends an untagged message (R467, R472). -/
def sendBare (d : Dev) (p : Port) (typ status req : Nat) (body : Bytes) : Dev :=
  emit d (.datagram p 0 typ (kdaHeader typ 1 status 0 0 req body.length ++ body))

/-- Sends a message in a session with the next counter and the tag (R467, R471, R472). -/
def sendIn (d : Dev) (p : Port) (id typ flags status req : Nat) (body : Bytes) : Dev :=
  match findSession d id with
  | none => d
  | some s =>
    let h := kdaHeader typ flags status id (s.tx + 1) req body.length
    emit (onSession d id (fun s => { s with tx := s.tx + 1 })) (.datagram p id typ (h ++ body ++ kdaTag s.key h body))

/-- The objects that show the sessions (R487). -/
def showSessions (d : Dev) : Dev :=
  os (os d 0x2F10 4 (d.host.sessions.filter Session.isOpen).length) 0x2F10 5
    (b2n (d.host.sessions.any (fun s => s.isOpen && s.comm)))

/-- A response: type, message status and body. -/
abbrev Answer := Nat × Nat × Bytes

/-- Sends the response of a session's request and keeps it for the last 16 request IDs (R472). -/
def reply (d : Dev) (p : Port) (id req : Nat) (a : Answer) : Dev :=
  let d := onSession d id (fun s => { s with stored := (s.stored ++ [(req, a.1, a.2.1, a.2.2)]).reverse.take 16 |>.reverse })
  sendIn d p id a.1 1 a.2.1 req a.2.2

/-- The UDP port of a message type (R469). -/
def kdaPort (typ : Nat) : Nat := if typ < 0x30 then 36920 else if typ < 0x38 then 36921 else if typ < 0x40 then 36922 else 36923

/-- Whether the header is one the manual gives a request (R467, R477): version, flags, status, length and reserved field. -/
def kdaFormed (h : Kda) (body : Bytes) : Bool :=
  h.version = 1 && h.flags = 0 && h.status = 0 && h.reserved = 0 && h.length.toNat = body.length && decide (body.length ≤ 1432)

/-- What a port does with a message before it looks at its session (R465, R467, R477): nothing while the link is down, a frame the port does
not accept is dropped and counted, a malformed message and a wrong UDP port are answered; else the message is looked at. -/
def screen (d : Dev) (p : Port) (h : Kda) (typ : Nat) (body : Bytes) : Option Dev :=
  if !linkUp d p then some d
  else if !h.plain then some (bump d 0x2F20 8)
  else if !kdaFormed h body then some (bump (sendBare d p typ 0x20 h.reqId.toNat []) 0x2F20 3)
  else if h.udp.toNat != kdaPort typ then some (sendBare d p typ 0x21 h.reqId.toNat [])
  else none

/-- The verdict on a session's datagram (R468, R472): not for this model to answer, answered already, or to be executed. -/
inductive Verdict where
  | done (d : Dev)
  | go (d : Dev) (s : Session)

/-- Receives a datagram of a session on port p: session known, tag and counter good, and no replay of a stored request (R472).
`answered` says whether the message type is answered. -/
def receive (d : Dev) (p : Port) (h : Kda) (typ : Nat) (body : Bytes) (answered : Bool) : Verdict :=
  let id := h.session.toNat
  match screen d p h typ body with
  | some d => .done d
  | none =>
    match findSession d id with
    | none => .done (sendBare d p typ 0x22 h.reqId.toNat [])
    | some s =>
      let hdr := kdaHeader typ 0 0 id h.counter.toNat h.reqId.toNat body.length
      if h.tag != kdaTag s.key hdr body then .done (later (bump d 0x2F20 1) 184 0 p.val)
      else if h.counter.toNat ≤ s.rx then .done (bump d 0x2F20 2)
      else
        let d := onSession d id (fun s => { s with rx := h.counter.toNat })
        let s := { s with rx := h.counter.toNat }
        if !s.isOpen && typ != 0x12 then .done (sendBare d p typ 0x22 h.reqId.toNat [])
        else
          match if answered then s.stored.find? (fun r => r.1 = h.reqId.toNat) else none with
          | some r => .done (sendIn (bump d 0x2F20 9) p id r.2.1 1 r.2.2.1 h.reqId.toNat r.2.2.2)
          | none => .go d s

/-- Removes a session: its lease, subscriptions and transfers go with it (R473). -/
def dropSession (d : Dev) (id : Nat) : Dev :=
  let h := d.host
  let d := { d with host := { h with sessions := h.sessions.filter (fun s => s.id != id), lease := if h.lease = id then 0 else h.lease } }
  showSessions d

/-- Closes a session; a commissioning session's close reaches the island (R370, R473). -/
def closeSession (s : State) (id : Nat) : State :=
  match findSession s.dev id with
  | none => s
  | some x =>
    let s := { s with dev := dropSession s.dev id }
    if x.isOpen && x.comm then closeCommission s else s

/-- The first identifier from `c` on that is not zero and not in use (R470); at most 8 sessions exist. -/
def freshId (d : Dev) (c : Nat) : Nat :=
  (((List.range 10).map (fun i => (c + i) % 2 ^ 32)).find? (fun i => i != 0 && (findSession d i).isNone)).getD 1

/-- SESSION_OPEN (R470): a challenge, or a refusal. The session takes the n-th identifier and nonce of the part. -/
def execSessionOpen (p : Port) (req : BitVec 32) (nonce : BitVec 128) (comm : Bool) (idle : BitVec 16) (s : State) :
    Host.Outcome State Fault Refusal :=
  .next (upd s (fun d =>
    if !linkUp d p then d
    else if 8 ≤ d.host.sessions.length then sendBare d p 0x11 0x24 req.toNat []
    else if comm && (mode d != 2 || d.host.sessions.any (fun x => x.isOpen && x.comm) || og d 0x2F10 2 = 0) then
      sendBare d p 0x11 0x07 req.toNat []
    else
      let n := d.free
      let id := freshId d (Config.sessionId n).toNat
      let dn := leBytes 16 (Config.nonce n).toNat
      let d := { d with free := n + 1 }
      let x : Session :=
        { id := id, isOpen := false, key := sessionKey (pskOf d) id (leBytes 16 nonce.toNat) dn, keySet := og d 0x2F10 2 = 1,
          comm := comm, idle := if idle = 0 then og d 0x2F10 3 else idle.toNat, rx := 0, tx := 0, stored := [], events := 0,
          evCount := 0, evQueue := [], logQueue := [], period := 0, images := 0, sending := none, waitImg := none, segw := none, snaps := [] }
      let d := { d with host := { d.host with sessions := d.host.sessions ++ [x] } }
      let body := leBytes 4 id ++ dn
      let h := kdaHeader 0x11 1 0 id 0 req.toNat body.length
      emit d (.datagram p id 0x11 (h ++ body ++ kdaTag x.key h body))))

/-- SESSION_CONFIRM (R470): the session is open and the device answers accept; a commissioning session reaches the island. -/
def execSessionConfirm (p : Port) (h : Kda) (s : State) : Host.Outcome State Fault Refusal :=
  .next (
    match receive s.dev p h 0x12 [] true with
    | .done d => upd s (fun _ => d)
    | .go d x =>
      if x.isOpen then upd s (fun _ => reply d p x.id h.reqId.toNat (0x13, 0x07, []))
      else
        let s := upd s (fun _ => reply (showSessions (onSession d x.id (fun x => { x with isOpen := true }))) p x.id h.reqId.toNat (0x13, 0, []))
        if x.comm then openCommission s else s)

/-- CHALLENGE_LAPSE (R470): an unconfirmed challenge lapses. -/
def execChallengeLapse (id : BitVec 32) (s : State) : Host.Outcome State Fault Refusal :=
  .next (upd s (fun d =>
    match findSession d id.toNat with
    | some x => if x.isOpen then d else dropSession d id.toNat
    | none => d))

/-- SESSION_CLOSE (R469, R473): answered with a response of the same type. -/
def execSessionClose (p : Port) (h : Kda) (s : State) : Host.Outcome State Fault Refusal :=
  .next (
    match receive s.dev p h 0x14 [] true with
    | .done d => upd s (fun _ => d)
    | .go d x => closeSession (upd s (fun _ => reply d p x.id h.reqId.toNat (0x14, 0, []))) x.id)

/-- SESSION_IDLE_TIMEOUT (R473). -/
def execSessionIdleTimeout (id : BitVec 32) (s : State) : Host.Outcome State Fault Refusal :=
  .next (
    match findSession s.dev id.toNat with
    | some x => if x.isOpen then closeSession s id.toNat else s
    | none => s)

end Sys2Proof.Machine
end

