-- ==== Sys2Proof/Machine/Acquisition.lean ====
section
/-! DEFINITION. The trigger and acquisition engine (R289-R315): taps, averaging, alignment, triggers, records and their coding, the
store and the upload. Source timestamps are segment time in units of 2^-16 ns. -/
namespace Sys2Proof.Machine

/-- Objects of set a at offset o (R313). -/
def acqObj (a o : Nat) : Nat := 0x3610 + 16 * a + o
/-- A configuration value of set a. -/
def acqCfg (d : Dev) (a sub : Nat) : Nat := og d (acqObj a 0) sub
/-- State of set a: 0 Idle, 1 Filling, 2 Ready, 3 Post, 4 Re-arm (R300). -/
def acqState (d : Dev) (a : Nat) : Nat := og d (acqObj a 3) 1
/-- Entry of channel c of set a (R314): loss step and source. -/
def acqChannel (d : Dev) (a c : Nat) : Nat := og d (0x3700 + 2 * a + c / 128) (c % 128 + 1)
/-- Source word of channel c. -/
def acqSource (d : Dev) (a c : Nat) : Nat := acqChannel d a c % 2 ^ 32
/-- Loss step q of channel c. -/
def acqLoss (d : Dev) (a c : Nat) : Nat := bits (acqChannel d a c) 32 4
/-- Format code and width of a stored value after averaging 2^k (R295). -/
def storedFormat (k : Nat) (f : Nat × Nat) : Nat × Nat :=
  if k = 0 then f else if f.1 = 3 || f.1 = 4 then (4, 64) else (f.1, f.2 + k)
/-- The stored format of channel c of set a. -/
def acqFormat (d : Dev) (a c : Nat) : Nat × Nat := storedFormat (acqCfg d a 4) (sourceFormat (acqSource d a c))

/-- Npre (R300). -/
def acqPre (d : Dev) (a : Nat) : Nat := acqCfg d a 7 * acqCfg d a 8 / 100
/-- Base cycles per field cycle of the line a field set names. -/
def acqNb (d : Dev) (a : Nat) : Nat := mouldNb (mould d (acqCfg d a 2))
/-- The set cycle in units of 2^-16 ns (R291). -/
def acqCycle (d : Dev) (a : Nat) : Nat :=
  65536 * (if acqCfg d a 1 = 2 then 16000 else if acqCfg d a 1 = 3 then 32000 * acqNb d a else 32000)
/-- Ts (R291). -/
def acqTs (d : Dev) (a : Nat) : Nat := acqCfg d a 3 * acqCycle d a
/-- The load of set a (R293). -/
def acqLoad (d : Dev) (a : Nat) : Rat :=
  let r : Rat := if acqCfg d a 1 = 2 then 2 else if acqCfg d a 1 = 3 then mkRat 1 (acqNb d a) else 1
  let c : Rat := (acqCfg d a 0x0F : Rat) * r
  if acqCfg d a 4 = 0 then c / acqCfg d a 3 else c
/-- The load of the armed sets. -/
def armedLoad (d : Dev) : Rat := (((List.range 4).filter (fun a => acqState d a != 0)).map (acqLoad d)).sum
/-- Object 0x3600.02; the rounding of a load that is no integer is not stated. -/
def showLoad (d : Dev) : Dev :=
  let q := armedLoad d
  if q.den = 1 then os d 0x3600 2 q.num.toNat else (let x := freeVal d 16; os x.2 0x3600 2 x.1)

/-! Taps. -/

/-- Probe p of axis n (R79, R97, R149): bit pattern, as a signed number for positions. -/
def probe (d : Dev) (n p : Nat) : Int :=
  let k := kind d n
  let o (x s : Nat) : Int := (og d (ax n x) s : Int)
  if p = 0 then pRef d n
  else if k = 3 || k = 4 || k = 5 then
    (if p = 1 then axisPos d n
     else if p = 2 then ogi 64 d (ax n 0x36) 6
     else if p = 5 then o 0x24 2
     else if p = 7 then ((axisVel d n).toNat : Int)
     else if p = 8 then o 0x36 3
     else if p = 9 then o 0x36 4
     else if p = 10 then (if k = 4 then o 0x1F 0x14 else 0)
     else if p = 13 then o 0x36 1
     else if p = 14 then o 0x36 2
     else if p = 15 then o 0x36 5 else 0)
  else
    let v := srv d n
    if p = 1 then v.ps
    else if p = 2 then v.pExt
    else if k = 2 && cg d (ax n 0x1F) 9 = 1 && 11 ≤ p && p ≤ 14 then o 0x1F (p + 3)
    else if p = 3 then (v.hor.toNat : Int)
    else if p = 4 then o 0x1B 1
    else if p = 5 then o 0x24 2
    else if p = 6 then o 0x1B 2
    else if p = 7 then o 0x1B 3
    else if p = 8 then (v.ev.toNat : Int)
    else if p = 9 then o 0x1B 5
    else if p = 10 then o 0x1B 6
    else if p = 11 then (v.tIn.toNat : Int)
    else if p = 12 then (v.tOut.toNat : Int)
    else if p = 13 then o 0x1B 4
    else if p = 14 then o 0x1A 7
    else o 0x1B 7

/-- The value a source delivers at sample instant t, and its source timestamp (R294). -/
def tap (d : Dev) (src : Nat) (t : Int) : Int × Int :=
  let k := src / 2 ^ 24
  let a := src % 2 ^ 24
  let f := sourceFormat src
  let num (v : Nat) : Int := if f.1 = 1 || f.1 = 5 then sgn f.2 v else v
  if k = 1 then
    let n := a % 512
    let p := a / 4096
    let kd := kind d n
    (probe d n p, if (p = 1 || p = 2) && (kd = 1 || kd = 2) then (srv d n).ts
                  else if (p = 1 || p = 2) && (kd = 3 || kd = 4) then (stp d n).ts else instantAt d.time.kc)
  else if k = 2 then
    let g := 8 + a / 1024 % 4
    let nb := mouldNb (mould d g)
    let c : Int := (d.time.kc / nb : Nat)
    (num (og d (fnx (a / 1024 % 4) (a % 1024) 2) (a / 4096 % 32)),
     (c - 1) * (nb * 32000 * 65536 : Nat) + sgn 32 (rd (lineEntry (mould d g) (a % 1024)) 6 4) * (8 * 65536))
  else if k = 3 && a / 256 = 0 then (pulsePos d (a % 16), gridToU (pls d (a % 16)).te)
  else if k = 5 then ((b2n (live d a) : Nat), t)
  else match sourceObject src with
    | some o => (num (ogd d o.1 o.2), t)
    | none => (0, t)

/-- The readiness bit of the block of a channel's source (R303). -/
def sourceBit (d : Dev) (src : Nat) : Nat :=
  let k := src / 2 ^ 24
  let a := src % 2 ^ 24
  if k = 1 then 6 + cluster d (a % 512)
  else if k = 2 then 26 + a / 1024 % 4
  else if k = 3 || k = 4 then 16
  else if k = 5 then 2
  else ownerBit d (a / 256)

/-- The number a value of a format stands for. -/
def formatRat (f : Nat × Nat) (v : Int) : Rat :=
  if f.1 = 3 then fmtToRat fmt32 v.toNat else if f.1 = 4 then fmtToRat fmt64 v.toNat else v
/-- The value of a format nearest a number. -/
def formatOf (f : Nat × Nat) (q : Rat) : Int :=
  if f.1 = 3 then (fmtOfRat fmt32 false q : Nat) else if f.1 = 4 then (fmtOfRat fmt64 false q : Nat) else ratRoundEven q

/-- Aligned placement (R296): the value at the grid instant from the source samples, oldest first, and whether it is unbracketed. -/
def alignAt (f : Nat × Nat) (h : List (Int × Int)) (tg : Int) : Int × Bool :=
  match h.reverse.find? (fun s => s.1 ≤ tg), h.find? (fun s => tg < s.1) with
  | none, some b => (b.2, false)
  | some x, none => (x.2, true)
  | none, none => (0, true)
  | some x, some y =>
    if f.1 = 2 then (x.2, false)
    else
      let q := formatRat f x.2 + (formatRat f y.2 - formatRat f x.2) * mkRat (tg - x.1) (y.1 - x.1).toNat
      (formatOf f (f64ToRat (f64OfRat q)), false)

/-- The samples that a later grid instant can still need. -/
def trimHist (h : List (Int × Int)) (tg : Int) : List (Int × Int) :=
  match (h.reverse.find? (fun s => s.1 ≤ tg)) with
  | some x => h.filter (fun s => x.1 ≤ s.1)
  | none => h

/-- A source sample of a history: one with a later timestamp joins it, one with the newest timestamp replaces it, and an older one is
no newer sample (R296). -/
def addHist (h : List (Int × Int)) (s : Int × Int) : List (Int × Int) :=
  match h.getLast? with
  | some l => if l.1 < s.1 then h ++ [s] else if s.1 = l.1 then h.dropLast ++ [s] else h
  | none => [s]

/-- Whether a tight control phase forms probe p of an axis of kind kd anew (R77, R96, R97): the substituted current probes and the load
angle. The control instant stamps every other such probe (R79). -/
def tightProbe (d : Dev) (n p : Nat) : Bool :=
  (kind d n = 2 && cg d (ax n 0x1F) 9 = 1 && 11 ≤ p && p ≤ 14) || (kind d n = 4 && p = 10)

/-- A source's value at sample instant t and its source timestamp. At a tight control instant a value formed in that phase carries that
instant, and a source that did not change repeats its last value (R291). -/
def tapAt (d : Dev) (src : Nat) (t : Int) (tight : Bool) (h : List (Int × Int)) : Int × Int :=
  let v := tap d src t
  let n := src % 512
  let p := src % 2 ^ 24 / 4096
  let held := v.2 = instantAt d.time.kc
  if tight && src / 2 ^ 24 = 1 && held then
    (v.1, if tightProbe d n p || ((h.getLast?).map (·.2)) != some v.1 then t else v.2)
  else v

/-! Coding (R307, R308). -/

/-- An IEEE pattern of width w as its ordered value (R295). -/
def ordered (w : Nat) (b : Nat) : Int :=
  let s := sgn w b
  if 0 ≤ s then s else sgn w (b ^^^ (2 ^ (w - 1) - 1))
/-- The stored integer of a value of a format (R295). -/
def storedInt (f : Nat × Nat) (v : Int) : Int := if f.1 = 3 || f.1 = 4 then ordered f.2 v.toNat else v

/-- Steps 1 to 7 of R308 for one value: z and the new history. -/
def codeValue (w q : Nat) (h : Int × Int × Nat) (x : Int) : Nat × (Int × Int × Nat) :=
  let m : Int := 2 ^ w
  let pr := (if h.2.2 = 0 then 0 else if h.2.2 = 1 then h.1 else 2 * h.1 - h.2.1).emod m
  let r := wrap w (x - pr)
  let r' := if q = 0 then r else (r + 2 ^ (q - 1)).fdiv (2 ^ q)
  let r' := wrap (w - q) r'
  let z := if 0 ≤ r' then 2 * r'.toNat else (-2 * r' - 1).toNat
  (z, ((pr + r' * 2 ^ q).emod m, h.1, h.2.2 + 1))
/-- The values of one channel of a group. -/
def codeValues (w q : Nat) : (Int × Int × Nat) → List Int → List Nat × (Int × Int × Nat)
  | h, [] => ([], h)
  | h, x :: xs =>
    let a := codeValue w q h x
    let b := codeValues w q a.2 xs
    (a.1 :: b.1, b.2)
/-- Bits of the coded values under parameter p. -/
def riceLength (zs : List Nat) (p : Nat) : Nat := (zs.map (fun z => z / 2 ^ p + 1 + p)).sum
/-- The smallest best parameter below `n` (R308). -/
def bestRice (zs : List Nat) (n : Nat) : Nat :=
  (List.range n).foldl (fun b p => if riceLength zs p < riceLength zs b then p else b) 0
/-- The n low bits of a number, most significant first. -/
def msbBits : Nat → Nat → List Bool
  | 0, _ => []
  | n + 1, v => bit v n :: msbBits n v
/-- A block (R307): header and coded values. -/
def riceBlock (w q : Nat) (zs : List Nat) : List Bool :=
  let p := bestRice zs (w - q)
  msbBits 16 (p * 512) ++ zs.flatMap (fun z => List.replicate (z / 2 ^ p) true ++ [false] ++ msbBits p z)
/-- The number that bits spell, first bit most significant. -/
def ofBits (bs : List Bool) : Nat := bs.foldl (fun v b => 2 * v + b2n b) 0
/-- Bits packed into `n` bytes, bit 7 first, padded with 0. -/
def packBits : Nat → List Bool → Bytes
  | 0, _ => []
  | n + 1, bs => BitVec.ofNat 8 (ofBits ((bs ++ List.replicate 8 false).take 8)) :: packBits n (bs.drop 8)

/-- The channels' blocks of a group, with their histories. -/
def codeChannels (cs : List ((Nat × Nat × (Int × Int × Nat)) × List Int)) : List Bool × List (Int × Int × Nat) :=
  cs.foldl (fun acc c =>
    let r := codeValues c.1.1 c.1.2.1 c.1.2.2 c.2
    (acc.1 ++ riceBlock c.1.1 c.1.2.1 r.1, acc.2 ++ [r.2])) ([], [])

/-- A unit (R305). -/
def unitBytes (typ a : Nat) (body : Bytes) : Bytes := leBytes 1 typ ++ leBytes 1 a ++ leBytes 2 0 ++ leBytes 4 (body.length + 8) ++ body

/-- The histories of set a's channels after a restart. -/
def freshCoder (d : Dev) (a : Nat) : List (Int × Int × Nat) := List.replicate (acqCfg d a 0x0F) (0, 0, 0)

/-- A group or gap as a unit (R306), with the histories after it. -/
def codeItem (d : Dev) (a : Nat) (coder : List (Int × Int × Nat)) (g : Group) : Bytes × List (Int × Int × Nat) :=
  if g.reason != 0 then
    (unitBytes 3 a (leBytes 8 (pat 64 g.first) ++ leBytes 4 g.len ++ leBytes 1 g.reason ++ leBytes 3 0), freshCoder d a)
  else
    let cs := (List.range (acqCfg d a 0x0F)).map (fun c =>
      (((acqFormat d a c).2, acqLoss d a c, coder.getD c (0, 0, 0)), g.vals.map (fun v => v.getD c 0)))
    let r := codeChannels cs
    (unitBytes 2 a (leBytes 8 (pat 64 g.first) ++ leBytes 1 g.vals.length ++ leBytes 3 0 ++ packBits ((r.1.length + 7) / 8) r.1), r.2)

/-- Several items one after another. -/
def codeItems (d : Dev) (a : Nat) (coder : List (Int × Int × Nat)) : List Group → List Bytes × List (Int × Int × Nat)
  | [] => ([], coder)
  | g :: gs =>
    let r := codeItem d a coder g
    let t := codeItems d a r.2 gs
    (r.1 :: t.1, t.2)

/-! The store. -/

/-- The records of the store. -/
def recOf (d : Dev) (num : Nat) : Option Record := d.acq.recs.find? (fun r => r.num = num)
/-- Changes a record. -/
def onRec (d : Dev) (num : Nat) (f : Record → Record) : Dev :=
  { d with acq := { d.acq with recs := d.acq.recs.map (fun r => if r.num = num then f r else r) } }
/-- Whether a record is locked (R304): being uploaded, or a stream record not yet sent. -/
def locked (d : Dev) (num : Nat) : Bool :=
  (match d.acq.upload with | some u => u.num = num | none => false) || d.acq.streams.any (fun e => e.2.1 = num)
/-- The number of set a's current record. -/
def curRec (d : Dev) (a : Nat) : Nat := og d (acqObj a 3) 2
/-- Bytes that set a holds in the store: its records and the pre-trigger groups not yet coded. -/
def storeUsed (d : Dev) (a : Nat) : Nat :=
  ((d.acq.recs.filter (fun r => r.set = a)).map (fun r => r.bytes.length)).sum +
  ((codeItems d a (freshCoder d a) (aset d a).pre).1.map List.length).sum

/-- Makes room for n bytes in set a's share by overwriting its oldest complete unlocked records (R304); `fuel` bounds the records. -/
def makeRoom (d : Dev) (a n : Nat) : Nat → Dev × Bool
  | 0 => (d, storeUsed d a + n ≤ acqCfg d a 0x0E * 65536)
  | fuel + 1 =>
    if storeUsed d a + n ≤ acqCfg d a 0x0E * 65536 then (d, true)
    else
      match d.acq.recs.find? (fun r => r.set = a && r.complete && !locked d r.num) with
      | none => (d, false)
      | some r => makeRoom { d with acq := { d.acq with recs := d.acq.recs.filter (fun x => x.num != r.num) } } a n fuel

/-- Bytes waiting in set a's stream queue. -/
def streamBytes (d : Dev) (a : Nat) : Nat := ((d.acq.streams.filter (fun e => e.1 = a)).map (fun e => e.2.2.2.1.length)).sum

/-- Appends a unit to set a's record, and to its stream queue in stream mode (R311). -/
def writeUnit (d : Dev) (a : Nat) (u : Bytes) (last : Bool) : Dev :=
  let num := curRec d a
  let off := ((recOf d num).map (fun r => r.bytes.length)).getD 0
  let d := onRec d num (fun r => { r with bytes := r.bytes ++ u, complete := last })
  if acqCfg d a 0x0D = 1 then { d with acq := { d.acq with streams := d.acq.streams ++ [(a, num, off, u, last)] } } else d

/-- Whether a trigger has already fired in the current record, so that groups are coded at once. -/
def inPost (d : Dev) (a : Nat) : Bool := acqState d a = 3

/-- Places a finished gap: a unit in the record, or an item before the trigger. -/
def placeGap (d : Dev) (a : Nat) (g : GapRun) : Dev :=
  let x := aset d a
  let it : Group := ⟨g.first, [], g.len, g.reason⟩
  if inPost d a then
    let r := codeItem d a x.coder it
    let d := writeUnit (setAset d a { x with coder := r.2, gap := none }) a r.1 false
    onRec d (curRec d a) (fun r => { r with gaps := r.gaps + g.len })
  else setAset d a { x with gap := none, pre := x.pre ++ [it] }

/-- Ends an open gap run. -/
def flushGap (d : Dev) (a : Nat) : Dev :=
  match (aset d a).gap with
  | some g => placeGap d a g
  | none => d

/-- Samples are dropped (R303): the run of their reason goes on or begins; the first gap of a record is logged. -/
def dropSamples (d : Dev) (a : Nat) (first : Int) (len reason : Nat) : Dev :=
  let d := bumpBy d (acqObj a 4) 4 len
  let d := if (aset d a).gapSeen then d else log (setAset d a { aset d a with gapSeen := true }) 3 1 (a + 256 * reason)
  match (aset d a).gap with
  | some g =>
    if g.reason = reason && g.first + g.len = first then setAset d a { aset d a with gap := some { g with len := g.len + len } }
    else
      let d := placeGap d a g
      setAset d a { aset d a with gap := some ⟨first, len, reason⟩ }
  | none => setAset d a { aset d a with gap := some ⟨first, len, reason⟩ }

/-- Closes the open group of set a (R303, R304, R306): it is stored, or dropped for want of space or queue. -/
def closeGroup (d : Dev) (a : Nat) : Dev :=
  let x := aset d a
  match x.cur with
  | none => d
  | some g =>
    let d := setAset d a { x with cur := none }
    let n := g.vals.length
    if n = 0 then d
    else if inPost d a then
      let coder := if x.gap.isSome then freshCoder d a else x.coder
      let r := codeItem d a coder g
      let room := makeRoom d a r.1.length 4096
      let d := room.1
      if !room.2 then dropSamples d a g.first n 2
      else if acqCfg d a 0x0D = 1 && 262144 < streamBytes d a + r.1.length then
        dropSamples (bump d (acqObj a 4) 6) a g.first n 3
      else
        let d := flushGap d a
        let d := writeUnit (setAset d a { aset d a with coder := r.2 }) a r.1 false
        onRec d (curRec d a) (fun r => { r with stored := r.stored + n })
    else
      let room := makeRoom d a (codeItem d a (freshCoder d a) g).1.length 4096
      let d := room.1
      if !room.2 then dropSamples d a g.first n 2
      else
        let d := flushGap d a
        setAset d a { aset d a with pre := (aset d a).pre ++ [g] }

/-! The life of a record. -/

/-- The record start unit (R306), with t(0). -/
def startUnit (d : Dev) (a : Nat) (t : Int) : Bytes :=
  let x := aset d a
  let C := acqCfg d a 0x0F
  unitBytes 1 a (leBytes 4 (curRec d a) ++ leBytes 1 (acqCfg d a 1) ++ leBytes 1 (if acqCfg d a 1 = 1 then 0 else acqCfg d a 2) ++
    leBytes 2 (acqCfg d a 3) ++ leBytes 1 (acqCfg d a 4) ++ leBytes 1 (acqCfg d a 5) ++ leBytes 2 C ++ leBytes 4 (acqCfg d a 7) ++
    leBytes 4 (acqPre d a) ++ leBytes 14 (timeOfUnits t.toNat) ++ leBytes 8 (acqTs d a) ++ leBytes 4 (acqCfg d a 6) ++
    leBytes 2 (min x.rearms 0xFFFF) ++ leBytes 14 x.rearmT ++ leBytes 2 0 ++
    (List.range C).flatMap (fun c => leBytes 4 (acqSource d a c) ++ leBytes 1 (acqFormat d a c).1 ++ leBytes 1 (acqFormat d a c).2 ++
      leBytes 1 (acqLoss d a c) ++ leBytes 1 0))

/-- Starts a record of set a (R300, R305): Filling, or Ready when no pre-trigger part is asked for. -/
def startRecord (d : Dev) (a : Nat) : Dev :=
  let num := og d 0x3600 3
  let x := aset d a
  let d := setAset d a { SetSt.reset with
    owner := x.owner, rearms := x.rearms, rearmT := x.rearmT, coder := freshCoder d a, armAt := d.time.local_,
    hist := List.replicate (acqCfg d a 0x0F) [] }
  let d := os (os (os d 0x3600 3 ((num + 1) % 2 ^ 32)) (acqObj a 3) 2 num) (acqObj a 3) 3 0
  let d := { d with acq := { d.acq with recs := d.acq.recs ++ [⟨num, a, [], false, 0, 0, 0⟩] } }
  showLoad (os d (acqObj a 3) 1 (if acqPre d a = 0 then 2 else 1))

/-- Writes the start unit at sample 0 (R300). -/
def ensureStart (d : Dev) (a : Nat) (t : Int) : Dev :=
  if (aset d a).started then d
  else
    let u := startUnit d a t
    let d := bumpBy (writeUnit d a u false) (acqObj a 4) 3 (aset d a).rearms
    setAset d a { aset d a with started := true, rearms := 0, rearmT := 0 }

/-- Codes what stands before the trigger into the record (R301). -/
def codePre (d : Dev) (a : Nat) : Dev :=
  let x := aset d a
  let r := codeItems d a (freshCoder d a) x.pre
  let d := setAset d a { x with pre := [], coder := r.2 }
  let d := r.1.foldl (fun d u => writeUnit d a u false) d
  onRec d (curRec d a) (fun r => { r with stored := r.stored + (x.pre.map (fun g => g.vals.length)).sum,
                                          gaps := r.gaps + (x.pre.map Group.len).sum })

/-- Ends the record of set a (R300, R306) with a cause. -/
def endRecord (d : Dev) (a cause : Nat) : Dev :=
  let d := ensureStart d a (instantAt d.time.kc)
  let d := closeGroup d a
  let d := flushGap d a
  let d := if inPost d a then d else codePre d a
  let num := curRec d a
  match recOf d num with
  | none => d
  | some r =>
    let b := leBytes 4 r.stored ++ leBytes 4 r.gaps ++ leBytes 1 cause ++ leBytes 3 0
    let h := leBytes 1 5 ++ leBytes 1 a ++ leBytes 2 0 ++ leBytes 4 24 ++ b
    let u := h ++ leBytes 4 (crc32c (r.bytes ++ h))
    let d := writeUnit d a u true
    os d (acqObj a 3) 4 ((og d (acqObj a 3) 4 + 1) % 2 ^ 32)

/-- Set a goes Idle. -/
def acqIdle (d : Dev) (a : Nat) : Dev := showLoad (os (setAset d a { SetSt.reset with owner := (aset d a).owner }) (acqObj a 3) 1 0)

/-- Status of an Arm (R289, R293, R300, R314). -/
def armStatus (d : Dev) (a : Nat) : Status :=
  let C := acqCfg d a 0x0F
  let g := acqCfg d a 2
  if !ready d 17 then .notReady
  else if acqState d a != 0 then .state
  else if (List.range C).any (fun c => acqSource d a c = 0 || !lossOk (acqLoss d a c) (acqFormat d a c).1 (acqFormat d a c).2) then .range
  else if (acqCfg d a 1 = 2 && 8 ≤ g) || (acqCfg d a 1 = 3 && (g < 8 || 12 ≤ g)) then .range
  else if 2048 < armedLoad d + acqLoad d a then .range
  else .ok

/-- Arm (R300): a record starts; its sample 0 is that of the control instant to come. A command that the engine takes is an item of the
arbiter (R376). -/
def armSet (d : Dev) (a id : Nat) : Dev × Status :=
  match armStatus d a with
  | .ok =>
    let d := (number d).1
    (startRecord (os (setAset d a { SetSt.reset with owner := id }) (acqObj a 3) 4 0) a, .ok)
  | st => (d, st)

/-- ACQUISITION_ARM (R300). -/
def execAcquisitionArm (a : ASet) (id : BitVec 32) (s : State) : Host.Outcome State Fault Refusal :=
  .next (upd s (fun d => let r := armSet d a.val id.toNat; answer r.1 r.2))

/-- Stop (R300): the record ends, or Re-arm ends with no new record. -/
def stopSet (d : Dev) (a : Nat) : Dev × Status :=
  if !ready d 17 then (d, .notReady)
  else
    let d := (number d).1
    let st := acqState d a
    (if st = 0 then d else if st = 4 then acqIdle d a else acqIdle (endRecord d a 1) a, .ok)

/-- ACQUISITION_STOP (R300). -/
def execAcquisitionStop (a : ASet) (s : State) : Host.Outcome State Fault Refusal :=
  .next (upd s (fun d => let r := stopSet d a.val; answer r.1 r.2))

/-- Manual trigger (R297): an event of the next occurrence of the set cycle. -/
def manualSet (d : Dev) (a : Nat) : Dev × Status :=
  if !ready d 17 then (d, .notReady)
  else
    let d := (number d).1
    (if acqState d a = 0 then d else setAset d a { aset d a with manual := 1 }, .ok)

/-- MANUAL_TRIGGER (R297). -/
def execManualTrigger (a : ASet) (s : State) : Host.Outcome State Fault Refusal :=
  .next (upd s (fun d => let r := manualSet d a.val; answer r.1 r.2))

/-- Delete (R313): the set's complete unlocked records. -/
def deleteSet (d : Dev) (a : Nat) : Dev × Status :=
  if !ready d 17 then (d, .notReady)
  else
    let d := (number d).1
    ({ d with acq := { d.acq with recs := d.acq.recs.filter (fun r => !(r.set = a && r.complete && !locked d r.num)) } }, .ok)

/-- DELETE_RECORDS (R313). -/
def execDeleteRecords (a : ASet) (s : State) : Host.Outcome State Fault Refusal :=
  .next (upd s (fun d => let r := deleteSet d a.val; answer r.1 r.2))

/-- The command object of a set (R313). -/
def setCommand (d : Dev) (a v id : Nat) : Dev × Status :=
  if v = 1 then armSet d a id else if v = 2 then stopSet d a else if v = 3 then manualSet d a else deleteSet d a

/-- AUTO_TRIGGER (R299): the set fires itself at its next sample. -/
def execAutoTrigger (a : ASet) (s : State) : Host.Outcome State Fault Refusal :=
  .next (upd s (fun d =>
    let st := acqState d a.val
    let t := acqCfg d a.val 0x0B
    if (st = 1 || st = 2) && t != 0 && (aset d a.val).armAt + t * 1000000 * unitNs ≤ d.time.local_ then
      setAset d a.val { aset d a.val with auto := true }
    else d))

/-- REARM_END (R300): the next record starts at the control instant of base cycle k + 2. The conditions go on from the samples of Re-arm
(R297, R302), and the auto timeout counts from this start (log 94). -/
def execRearmEnd (a : ASet) (s : State) : Host.Outcome State Fault Refusal :=
  .next (upd s (fun d =>
    let x := aset d a.val
    if acqState d a.val = 4 && x.rearmAt ≤ d.time.kc + 1 then
      let d := startRecord d a.val
      setAset d a.val { aset d a.val with armed := x.armed, faults := x.faults, fires := x.fires, manual := x.manual, hist := x.hist,
                                          prev := x.prev }
    else d))

/-! Triggers (R297, R298). -/

/-- The instant a sample taken at t stands for: the grid instant in aligned placement (R296, R298). -/
def gridOf (d : Dev) (a : Nat) (t : Int) : Int := if acqCfg d a 5 = 1 then t - (acqCfg d a 6 : Int) * 65536 else t

/-- A stored value as the number the level conditions compare (R297). -/
def triggerValue (f : Nat × Nat) (k : Nat) (v : Int) : Rat :=
  let q : Rat :=
    if f.1 = 3 then fmtToRat fmt32 (let b := pat 32 v; if 0 ≤ v then b else b ^^^ (2 ^ 31 - 1))
    else if f.1 = 4 then fmtToRat fmt64 (let b := pat 64 v; if 0 ≤ v then b else b ^^^ (2 ^ 63 - 1))
    else if f.1 = 5 then mkRat v (2 ^ (16 + k)) else mkRat v (2 ^ k)
  f64ToRat (f64OfRat q)

/-- Whether a stored value is no number, which compares with no level (R297). -/
def triggerNan (f : Nat × Nat) (v : Int) : Bool :=
  if f.1 = 3 then !fmtFinite fmt32 (pat 32 v ^^^ (if v < 0 then 2 ^ 31 - 1 else 0)) && (pat 32 v ^^^ (if v < 0 then 2 ^ 31 - 1 else 0)) % 2 ^ 23 != 0
  else if f.1 = 4 then !fmtFinite fmt64 (pat 64 v ^^^ (if v < 0 then 2 ^ 63 - 1 else 0)) && (pat 64 v ^^^ (if v < 0 then 2 ^ 63 - 1 else 0)) % 2 ^ 52 != 0
  else false

/-- What a condition answers in a sample: event, whether it holds, the fraction's numerator source (level crossing or fire time), and
the armed bits. -/
structure Cond where
  event : Bool
  holds : Bool
  frac  : Option Rat
  armed : Nat
  fseq  : Nat
  deriving DecidableEq, Repr

/-- Condition c (0 for T1, 1 for T2) of set a on this sample's values (none when it is dropped) and the previous ones; `t` is the
sample instant (R297). -/
def condition (d : Dev) (a c : Nat) (vals prev : Option (List Int)) (t : Int) : Cond :=
  let o := acqObj a (1 + c)
  let x := aset d a
  let kd := og d o 1
  let ch := og d o 2
  let f := acqFormat d a ch
  let k := acqCfg d a 4
  let L := fmtToRat fmt64 (og d o 3)
  let H := fmtToRat fmt64 (og d o 4)
  let up := bit x.armed (2 * c)
  let dn := bit x.armed (2 * c + 1)
  let ev (e : Bool) (q : Option Rat) (s : Nat) : Cond := ⟨e, e, q, x.armed, s⟩
  if kd = 1 || kd = 2 || kd = 3 then
    match vals with
    | none => ev false none 0
    | some v =>
      if triggerNan f (v.getD ch 0) then ev false none 0
      else
      let y := triggerValue f k (v.getD ch 0)
      let rise := kd != 2 && up && decide (L ≤ y)
      let fall := kd != 1 && dn && decide (y ≤ L)
      let lo := decide (y ≤ f64ToRat (f64OfRat (L - H)))
      let hi := decide (f64ToRat (f64OfRat (L + H)) ≤ y)
      let m := setBit (setBit x.armed (2 * c) ((up && !rise) || (lo && !rise))) (2 * c + 1) ((dn && !fall) || (hi && !fall))
      let holds := (kd != 2 && decide (L ≤ y)) || (kd != 1 && decide (y ≤ L))
      let q := match prev with
        | some p =>
          let y0 := triggerValue f k (p.getD ch 0)
          if y = y0 then none else some (f64ToRat (f64OfRat (256 * f64ToRat (f64OfRat (L - y0)) / f64ToRat (f64OfRat (y - y0)))))
        | none => none
      ⟨rise || fall, holds, if rise || fall then q else none, m, 0⟩
  else if kd = 4 then
    match vals, prev with
    | some v, some p =>
      let e := og d o 5
      let now := bit (pat f.2 (v.getD ch 0)) (e % 64)
      let was := bit (pat f.2 (p.getD ch 0)) (e % 64)
      ev ((bit e 6 && now && !was) || (bit e 7 && !now && was)) none 0
    | _, _ => ev false none 0
  else if kd = 5 then
    match x.faults.find? (fun p => p.1 = og d o 6) with
    | some p => ev true none p.2
    | none => ev false none 0
  else if kd = 6 then
    match x.fires.find? (fun p => p.1 = og d o 6) with
    | some p =>
      let fire : Int := p.2 / (10 * 2 ^ 24)
      let ts : Int := acqTs d a
      ev true (some (f64ToRat (f64OfRat (mkRat (256 * (fire - (gridOf d a t - ts))) ts.toNat)))) 0
    | none => ev false none 0
  else if kd = 7 then ev (x.manual = 1) none 0
  else ev false none 0

/-- What a sample's conditions decide (R297-R299): fired, cause bits, fraction f and the fault's number. -/
structure Firing where
  fired : Bool
  own   : Bool
  cause : Nat
  f     : Nat
  fseq  : Nat
  deriving DecidableEq, Repr

/-- Combines the conditions of set a. -/
def firing (d : Dev) (a : Nat) (c1 c2 : Cond) (prev : Bool) : Firing :=
  let m := acqCfg d a 0x0C
  let own := if m = 0 then c1.event else if m = 1 then (c1.event && c2.holds) || (c2.event && c1.holds) else c1.event || c2.event
  let auto := (aset d a).auto
  let cause := b2n c1.event + 2 * b2n c2.event + 4 * b2n auto
  let q := if own then (if c1.event then c1.frac else c2.frac) else none
  let f := if !prev then 256 else match q with
    | some r => (clampInt 1 256 (ratRoundEven r)).toNat
    | none => 256
  ⟨own || auto, own, cause, f, if c1.event && c1.fseq != 0 then c1.fseq else c2.fseq⟩

/-- The trigger instant (R298): t(-1) + f Ts/256, on the grid instants in aligned placement. -/
def trigInstant (d : Dev) (a : Nat) (t : Int) (f : Nat) : Int :=
  let ts : Int := acqTs d a
  gridOf d a t - ts + (ts * f) / 256

/-- A firing in Filling or Ready (R298, R301): the coded pre-trigger part, the trigger unit, the gap of reason 0x01, and Post. -/
def fireSet (d : Dev) (a : Nat) (t : Int) (fr : Firing) : Dev :=
  let q := number d
  let d := q.1
  let d := if fr.own then bump d (acqObj a 4) 1 else d
  let d := if bit fr.cause 2 then bump d (acqObj a 4) 2 else d
  let d := flushGap d a
  let x := aset d a
  let trig := x.count
  let first : Int := match x.pre, x.cur with
    | g :: _, _ => g.first
    | [], some g => g.first
    | [], none => trig
  let nact := (trig - first).toNat
  let pre := acqPre d a
  let tt := timeOfUnits (trigInstant d a t fr.f).toNat
  let d := codePre d a
  let d := os (setAset d a { aset d a with trigAt := some trig, auto := false }) (acqObj a 3) 1 3
  let d := onRec d (curRec d a) (fun r => { r with trig := tt })
  let d := writeUnit d a (unitBytes 4 a (leBytes 8 trig ++ leBytes 2 fr.f ++ leBytes 1 fr.cause ++ leBytes 1 0 ++ leBytes 14 tt ++ leBytes 2 0 ++
    leBytes 8 (q.2.getD 0) ++ leBytes 8 fr.fseq ++ leBytes 4 nact)) false
  if nact < pre then
    let d := dropSamples d a ((trig : Int) - pre) (pre - nact) 1
    flushGap d a
  else d

/-- Frees the pre-trigger items no longer needed (R301, R304). -/
def trimPre (d : Dev) (a : Nat) : Dev :=
  let x := aset d a
  let need : Int := (x.count : Int) - acqPre d a
  let ends (g : Group) : Int := if g.reason = 0 then g.first + g.vals.length else g.first + g.len
  setAset d a { x with pre := x.pre.dropWhile (fun g => ends g ≤ need) }

/-- A sample of set a at instant t with its stored values; none when it is dropped because a source is not ready (R300-R303). -/
def takeSample (d : Dev) (a : Nat) (t : Int) (vals : Option (List Int)) : Dev :=
  let d := ensureStart d a t
  let x := aset d a
  let i := x.count
  let c1 := condition d a 0 vals x.prev t
  let c2 := condition { d with acq := { d.acq with sets := tput (fun _ => SetSt.reset) d.acq.sets a { x with armed := c1.armed } } } a 1 vals x.prev t
  let inGap := match x.gap with
    | some g => g.first + g.len = (i : Int)
    | none => false
  let fr := firing d a c1 c2 (x.prev.isSome && i != 0 && !inGap)
  let st := acqState d a
  let d := setAset d a { x with armed := c2.armed, faults := [], fires := [] }
  let d := if (st = 1 || st = 2) && fr.fired then fireSet d a t fr else d
  let P := acqCfg d a 7 - acqPre d a
  let ovr (d : Dev) : Bool := match (aset d a).trigAt with
    | some j => j + P ≤ (aset d a).count
    | none => false
  let d :=
    if ovr d then d
    else match vals with
      | none =>
        let d := dropSamples (closeGroup d a) a i 1 4
        setAset d a { aset d a with count := i + 1, prev := none }
      | some v =>
        let x := aset d a
        let g : Group := match x.cur with
          | some g => { g with vals := g.vals ++ [v] }
          | none => ⟨i, [v], 0, 0⟩
        let d := setAset d a { x with cur := some g, count := i + 1, prev := some v }
        if (i + 1) % 64 = 0 then closeGroup d a else d
  let d := osi 64 d (acqObj a 3) 3 i
  if ovr d then
    let d := endRecord d a 0
    let again := acqCfg d a 9 = 1 && (acqCfg d a 0x0A = 0 || og d (acqObj a 3) 4 < acqCfg d a 0x0A)
    if again then
      os (setAset d a { aset d a with rearmAt := d.time.kc + 2, rearms := 0, rearmT := 0 }) (acqObj a 3) 1 4
    else acqIdle d a
  else if acqState d a = 1 && acqPre d a ≤ (aset d a).count then trimPre (os d (acqObj a 3) 1 2) a
  else if acqState d a = 2 then trimPre d a else d

/-- Re-arm (R302): a condition that would fire is counted, and the first one's instant kept. -/
def rearmSample (d : Dev) (a : Nat) (t : Int) (vals : Option (List Int)) : Dev :=
  let x := aset d a
  let c1 := condition d a 0 vals x.prev t
  let c2 := condition { d with acq := { d.acq with sets := tput (fun _ => SetSt.reset) d.acq.sets a { x with armed := c1.armed } } } a 1 vals x.prev t
  let fr := firing d a c1 c2 x.prev.isSome
  let d := setAset d a { x with armed := c2.armed, faults := [], fires := [], prev := vals }
  if fr.own then
    setAset d a { aset d a with rearms := x.rearms + 1, rearmT := if x.rearms = 0 then timeOfUnits (trigInstant d a t 256).toNat else x.rearmT }
  else d

/-! The set cycle. -/

/-- A value widened to binary64, with its sign and what is not finite (R292). -/
def widen64 (f : Nat × Nat) (b : Nat) : Nat :=
  if f.1 = 4 then b
  else if fmtFinite fmt32 b then fmtOfRat fmt64 (fmtSign fmt32 b) (fmtToRat fmt32 b)
  else b2n (fmtSign fmt32 b) * 2 ^ 63 + 2047 * 2 ^ 52 + b % 2 ^ 23 * 2 ^ 29

/-- The binary64 sum of two patterns, rounded once (R54, R292): a NaN stays one, infinities add as IEEE 754 has it, and the sum of two
zeros of one sign keeps it. -/
def add64 (x y : Nat) : Nat :=
  let nan (v : Nat) : Bool := !fmtFinite fmt64 v && v % 2 ^ 52 != 0
  if nan x then setBit x 51 true
  else if nan y then setBit y 51 true
  else if !fmtFinite fmt64 x then (if !fmtFinite fmt64 y && fmtSign fmt64 x != fmtSign fmt64 y then 0x7FF8000000000000 else x)
  else if !fmtFinite fmt64 y then y
  else fmtOfRat fmt64 (fmtSign fmt64 x && fmtSign fmt64 y) (fmtToRat fmt64 x + fmtToRat fmt64 y)

/-- A set cycle value joins a running sum; the first value starts it (R292). -/
def addSum (f : Nat × Nat) (k : Nat) (s : Option Int) (v : Int) : Int :=
  if f.1 = 3 || f.1 = 4 then
    (if k = 0 then v else
      let w := widen64 f v.toNat
      ((match s with | some x => add64 x.toNat w | none => w : Nat) : Int))
  else s.getD 0 + v
/-- The stored value of a complete sum (R292, R295). -/
def endSum (f : Nat × Nat) (k : Nat) (s : Int) : Int :=
  if (f.1 = 3 || f.1 = 4) && k != 0 then
    let b := s.toNat
    ordered 64 (if fmtFinite fmt64 b then fmtOfRat fmt64 (fmtSign fmt64 b) (fmtToRat fmt64 b / (2 ^ k : Nat)) else b)
  else storedInt f s

/-- The values of one occurrence of set a's cycle at instant t: the tapped or aligned value of every channel, and whether it is
unbracketed; the histories are kept. Interpolated placement stores what the taps deliver (R291, R296). -/
def tapSet (d : Dev) (a : Nat) (t : Int) (tight : Bool) : Dev × List (Int × Bool) :=
  let x := aset d a
  let al := acqCfg d a 5 = 1
  let tg := gridOf d a t
  let r := (List.range (acqCfg d a 0x0F)).map (fun c =>
    let src := acqSource d a c
    let h := x.hist.getD c []
    let v := tapAt d src t tight h
    if al then (let h := addHist h (v.2, v.1); let w := alignAt (sourceFormat src) h tg; (trimHist h tg, w.1, w.2))
    else ([(v.2, v.1)], v.1, false))
  (setAset d a { x with hist := r.map (·.1) }, r.map (·.2))

/-- One occurrence of set a's cycle at instant t (R291, R292). In aligned placement with averaging every set cycle is tapped, since
the grid instants need the source samples between (R293, R296). -/
def setOccurs (d : Dev) (a : Nat) (t : Int) (tight : Bool) : Dev :=
  let n := acqCfg d a 3
  let k := acqCfg d a 4
  let x := aset d a
  let j := x.occ % n
  let d := if tight then setAset d a { x with manual := 0 } else d
  let sumIt := decide ((n - j) % n < 2 ^ k)
  let d :=
    if sumIt || (k != 0 && acqCfg d a 5 = 1) then
      let (d, vs) := tapSet d a t tight
      if !sumIt then d
      else
        let d := bumpBy d (acqObj a 4) 5 (vs.filter (fun v => v.2)).length
        let fs := (List.range vs.length).map (fun c => sourceFormat (acqSource d a c))
        let times := if x.occ = 0 then 2 ^ k else 1
        let old := if x.summed = 0 then vs.map (fun _ => (none : Option Int)) else x.sums.map some
        let sums := (List.range times).foldl (fun s _ => ((s.zip vs).zip fs).map (fun p => some (addSum p.2 k p.1.1 p.1.2.1))) old
        let sums := sums.map (fun s => s.getD 0)
        let d := setAset d a { aset d a with sums := sums, summed := x.summed + times }
        if j = 0 then
          let ok := (List.range vs.length).all (fun c => ready d (sourceBit d (acqSource d a c)))
          let vals := if ok then some ((sums.zip fs).map (fun p => endSum p.2 k p.1)) else none
          let d := setAset d a { aset d a with sums := [], summed := 0 }
          if acqState d a = 4 then rearmSample d a t vals else takeSample d a t vals
        else d
    else d
  if acqState d a = 0 then d else setAset d a { aset d a with occ := x.occ + 1, manual := if tight then x.manual else 0 }

/-- The acquisition part of a control phase (R16, R291): every set whose cycle occurs at this instant. `half` is the tight
control instant of the rings, where no record begins and no manual trigger is taken (R34, R297, R300). -/
def acqInstant (d : Dev) (half : Bool) : Dev :=
  if !ready d 17 then d
  else (List.range 4).foldl (fun d a =>
    let kd := acqCfg d a 1
    let g := acqCfg d a 2
    let k := if half then d.time.k else d.time.kc
    if acqState d a = 0 then d
    else if half then
      (if kd = 2 && (mould d g).length != 0 && mouldTight (mould d g) && (aset d a).occ != 0 then setOccurs d a (cycleStart k + 12000 * nsU) true else d)
    else if kd = 1 || (kd = 2 && (mould d g).length != 0 && mouldTight (mould d g)) || (kd = 3 && k % acqNb d a = 0) then
      setOccurs d a (instantAt k) false
    else if kd = 3 then setAset d a { aset d a with manual := 0 } else d) d

/-! Upload (R311, R312, R315). -/

/-- UPLOAD_START (R311): 0x3681.04 starts the upload that 0x3681.01-03 name. -/
def uploadBegin (d : Dev) (id : Nat) : Dev × Status :=
  let num := og d 0x3681 1
  let off := og d 0x3681 2
  let len := og d 0x3681 3
  if !ready d 17 then (d, .notReady)
  else if d.acq.upload.isSome then (d, .busy)
  else match recOf d num with
    | none => (os d 0x3681 5 3, .range)
    | some r =>
      let stop := if len = 0 then r.bytes.length else off + len
      if r.bytes.length < stop || stop ≤ off then (os d 0x3681 5 3, .range)
      else (os { d with acq := { d.acq with upload := some ⟨num, off, stop, id⟩ } } 0x3681 5 1, .ok)

/-- UPLOAD_START (R311). -/
def execUploadStart (id : BitVec 32) (s : State) : Host.Outcome State Fault Refusal :=
  .next (upd s (fun d => let r := uploadBegin d id.toNat; answer r.1 r.2))

/-- The next datagram sequence of set a and kind k (R311). -/
def uploadSeq (d : Dev) (a k : Nat) : Nat × Dev :=
  let v := tget (fun _ => 0) d.acq.seqs (4 * k + a)
  (v, { d with acq := { d.acq with seqs := tput (fun _ => 0) d.acq.seqs (4 * k + a) ((v + 1) % 2 ^ 32) } })

/-- Sends one acquisition datagram (R311). -/
def acqDatagram (d : Dev) (p : Port) (a k num off dest : Nat) (data : Bytes) (last : Bool) : Dev :=
  let (seq, d) := uploadSeq d a k
  let body := leBytes 1 a ++ leBytes 1 k ++ leBytes 2 (b2n last) ++ leBytes 4 num ++ leBytes 4 seq ++ leBytes 8 off ++
    leBytes 2 data.length ++ leBytes 2 0 ++ data
  bump (sendIn d p dest 0x38 0 0 0 body) 0x3600 6

/-- The unit of a record that covers byte `off`: its start and the unit; `fuel` bounds the units. -/
def unitAt (b : Bytes) (off : Nat) : Nat → Nat → Option (Nat × Bytes)
  | 0, _ => none
  | fuel + 1, pos =>
    if b.length ≤ pos then none
    else
      let n := rd b (pos + 4) 4
      if off < pos + n then some (pos, slice b pos n) else if n = 0 then none else unitAt b off fuel (pos + n)

/-- A group read back with a double-bit error (R303): a gap of reason 0x05 takes its place in the record. -/
def storeError (d : Dev) (a num off : Nat) : Dev :=
  let d := later (bump d 0x3600 5) 40 0 a
  match recOf d num with
  | none => d
  | some r =>
    match unitAt r.bytes off (r.bytes.length + 1) 0 with
    | none => d
    | some (pos, u) =>
      if rd u 0 1 != 2 then d
      else
        let n := rd u 16 1
        let gap := unitBytes 3 r.set (slice u 8 8 ++ leBytes 4 n ++ leBytes 1 5 ++ leBytes 3 0)
        let d := bumpBy d (acqObj r.set 4) 4 n
        let d := onRec d num (fun r => { r with bytes := r.bytes.take pos ++ gap ++ r.bytes.drop (pos + u.length) })
        match d.acq.upload with
        | some up =>
          if up.num = num then
            { d with acq := { d.acq with upload := some { up with off := if pos ≤ up.off then pos else up.off, stop := up.stop + gap.length - u.length } } }
          else d
        | none => d

/-- ACQUISITION_DATAGRAM_SEND (R311): the next datagram of set a's stream queue, or of the upload; `upset` says what the store's
check code found in the bytes read: 1 a corrected single-bit error, 2 a double-bit error. -/
def execAcquisitionDatagramSend (a : ASet) (upload : Bool) (p : Port) (upset : Fin 3) (s : State) : Host.Outcome State Fault Refusal :=
  .next (upd s (fun d =>
    if !ready d 17 then d
    else if upload then
      match d.acq.upload with
      | none => d
      | some u =>
        if ((recOf d u.num).map Record.set) != some a.val then d
        else
          let d := if upset = 1 then bump d 0x3600 4 else if upset = 2 then storeError d a.val u.num u.off else d
          let u := d.acq.upload.getD u
          let b := ((recOf d u.num).map Record.bytes).getD []
          let data := slice b u.off (min 1400 (u.stop - u.off))
          let last := decide (u.stop ≤ u.off + data.length)
          let d := acqDatagram d p a.val 2 u.num u.off u.dest data last
          if last then os { d with acq := { d.acq with upload := none } } 0x3681 5 2
          else { d with acq := { d.acq with upload := some { u with off := u.off + data.length } } }
    else
      match d.acq.streams.find? (fun e => e.1 = a.val) with
      | none => d
      | some e =>
        let d := if upset = 1 then bump d 0x3600 4 else if upset = 2 then later (bump d 0x3600 5) 40 0 a.val else d
        let data := e.2.2.2.1.take 1400
        let rest := e.2.2.2.1.drop 1400
        let last := e.2.2.2.2 && rest.length = 0
        let d := acqDatagram d p a.val 1 e.2.1 e.2.2.1 (aset d a.val).owner data last
        let e' := (a.val, e.2.1, e.2.2.1 + data.length, rest, e.2.2.2.2)
        let others := d.acq.streams.filter (fun x => x.1 != a.val)
        let mine := (d.acq.streams.filter (fun x => x.1 = a.val)).drop 1
        { d with acq := { d.acq with streams := (if rest.length = 0 then mine else e' :: mine) ++ others } }))

/-- The record directory (R315). -/
def recordDirectory (d : Dev) : Bytes :=
  d.acq.recs.flatMap (fun r =>
    leBytes 4 r.num ++ leBytes 1 r.set ++ leBytes 1 (if locked d r.num then 3 else if r.complete then 2 else 1) ++ leBytes 2 0 ++
    leBytes 4 r.bytes.length ++ leBytes 14 r.trig ++ leBytes 6 0)

end Sys2Proof.Machine
end

