-- ==== Sys2Proof/Machine/Nodes.lean ====
section
/-! DEFINITION. Nodes by the node builder's obligations: addresses and frame lock (R235, R238), copies (R203, R204, R222), apply
instants (R86, R142, R202), field slots (R219, R253-R255, R264), mailboxes (R241, R243, R461), safety PDUs (R360), wraps (R321). -/
namespace Sys2Proof.Machine

/-- Applies a change of a node. -/
def updNode (s : State) (n : NodeId) (f : NodeSt → NodeSt) : State := setNd s n (f (nd s n))
/-- Whether a node lies on a ring. -/
def ringNode : NodeId → Bool
  | .ring _ _ => true
  | .line _ _ => false
/-- The mould a node was built into. -/
def nodeMould (s : State) (n : NodeId) : Bytes := mould s.dev (nodeSeg n)

/-- The address a node holds: it takes none when two directions disagree (R235). -/
def nodeAddress (n : NodeSt) : Option Nat :=
  match n.addrA, n.addrB with
  | some a, some b => if a = b then some a else none
  | some a, none => some a
  | none, b => b

/-- Whether node n holds its own place in the mould. -/
def inPlace (s : State) (n : NodeId) : Bool := (nd s n).lock && nodeAddress (nd s n) = some (nodeNum n)

/-! Locks and addresses. -/

/-- An input of the node is synchronised, or not (R177, R190): a node's inputs show it by what they hear (DEDUCED, log 88). -/
def inputSync (x : NodeSt) (c : Chan) (v : Bool) : NodeSt := if c = .a then { x with syncA := v } else { x with syncB := v }

/-- Window i of a node. -/
def nwin (x : NodeSt) (i : Nat) : WinSt := tget (fun _ => WinSt.reset) x.wins i
/-- Replaces window i of a node. -/
def setNwin (x : NodeSt) (i : Nat) (w : WinSt) : NodeSt := { x with wins := tput (fun _ => WinSt.reset) x.wins i w }
/-- A change of every window of a node (R224: at most 8). -/
def eachWin (x : NodeSt) (f : Nat → WinSt → WinSt) : NodeSt := (List.range 8).foldl (fun x i => setNwin x i (f i (nwin x i))) x

/-- A node whose outputs and stages are off. -/
def nodeOff (x : NodeSt) : NodeSt := eachWin { x with outputs := false } (fun _ w => { w with gates := false, coilA := 0, coilB := 0 })

/-- What a node drops with its frame lock (R238): address, schedule and Integrated status; its outputs go off. -/
def unlockNode (x : NodeSt) : NodeSt :=
  nodeOff { x with lock := false, addrA := none, addrB := none, sched := none, integrated := false, spSync := false, best := none,
                   prev := none, bestClaim := 0, up := none, foreign := 0 }

/-- NODE_ROLL_CALL_FRAME (R235): the node takes its address from the counter and counts it up. -/
def execNodeRollCallFrame (n : NodeId) (c : Chan) (count counter : BitVec 16) (s : State) : Host.Outcome State Fault Refusal :=
  .next (
    let N := count.toNat
    let m := counter.toNat
    let open_ := !ringNode n && c = .b && !mouldPaired (nodeMould s n)
    let a : Option Nat :=
      if ringNode n then (if c = .a then some (m + 1) else if m < N then some (N - m) else none)
      else if c = .a then some m else if !open_ && m < N then some (N - 1 - m) else none
    if open_ then s
    else
      let ctr := leBytes 2 (m + 1)
      let s := { s with dev := emit s.dev (.node n (ctr ++ leBytes 2 (crc16Node 0 ctr))) }
      updNode s n (fun x => inputSync (if c = .a then { x with addrA := a } else { x with addrB := a }) c true))

/-- Headers in a row that take or lose frame lock (R238). -/
def lockRun (n : NodeId) : Nat := if ringNode n then 8 else 4
/-- Cycles without a header that lose it. -/
def lockMiss (n : NodeId) : Nat := if ringNode n then 32 else 8

/-- NODE_FRAME_LOCK_TAKEN (R238): the node adopts the tag; a field node's next slot is an anchor (R255). -/
def execNodeFrameLockTaken (n : NodeId) (tag : BitVec 16) (s : State) : Host.Outcome State Fault Refusal :=
  .next (
    let x := nd s n
    if !x.lock && lockRun n ≤ x.run && x.runTag = tag.toNat then
      setNd s n { x with lock := true, tag := tag.toNat, timeCyc := x.lastCyc, half := x.lastHalf, anchor := true }
    else s)

/-- NODE_FRAME_LOCK_LOST (R238): too many cycles without a valid header, or too many headers in a row with another tag. -/
def execNodeFrameLockLost (n : NodeId) (s : State) : Host.Outcome State Fault Refusal :=
  .next (
    let x := nd s n
    if x.lock && (lockMiss n ≤ x.miss || lockRun n ≤ x.foreign) then setNd s n (unlockNode x) else s)

/-- A ring cycle or field cycle begins at a node: the copy selected in the last one is kept for apply instants still to come, and each
window has one more to come (R84, R202, R203). -/
def beginCycle (wins : Nat) (x : NodeSt) (half : Bool) : NodeSt :=
  (List.range wins).foldl (fun x i => setNwin x i { nwin x i with owed := min 2 ((nwin x i).owed + 1) })
    { x with half := half, prev := x.best, best := none, bestClaim := 0, noCopy := x.best.isNone, up := none }

/-- Apply instants of node n in a cycle: one a window, or one. -/
def applyCount (b : Bytes) (n : NodeId) : Nat :=
  match n with
  | .ring _ j => max 1 (winCount b (j.val + 1))
  | .line _ _ => 1

/-- The second cycle of a tight ring's base cycle begins at a node. -/
def beginHalf (b : Bytes) (n : NodeId) (x : NodeSt) : NodeSt :=
  if ringNode n && mouldTight b && !x.half then beginCycle (applyCount b n) x true else x

/-- The safety watchdogs of a node run on by a time in microseconds; a claim whose watchdog expires counts no more while another's runs
(R360). The last to expire is the event SAFETY_WATCHDOG_EXPIRY. -/
def ageWatch (step wd : Nat) (x : NodeSt) : NodeSt :=
  let w := x.watch.map (fun p => (p.1, p.2 + step))
  let run := w.filter (fun p => p.2 < wd)
  { x with watch := if run = [] then w else run }

/-- NODE_CYCLE_START (R247, R221, R360): the counters are copied, the node's cycle count goes on, corrections received take effect, and what
was kept of cycles gone by is dropped. -/
def execNodeCycleStart (n : NodeId) (s : State) : Host.Outcome State Fault Refusal :=
  .next (updNode s n (fun x =>
    let b := nodeMould s n
    let add (p : Nat) : Int := ((x.corr.filter (fun c => c.1 = p)).map (·.2)).foldl (· + ·) 0
    let x := beginCycle (applyCount b n) (beginHalf b n x) false
    let x := ageWatch (if ringNode n then 32 else 32 * mouldNb b) (if ringNode n then blkWdRing s.isl.block else blkWdLine s.isl.block) x
    { x with copied := x.counters, timeCyc := x.timeCyc + 1, miss := x.miss + 1, s1 := x.s1 + add 1, s2 := x.s2 + add 0, corr := [],
             due := x.due.filter (fun q => x.timeCyc < q),
             recs := x.recs.drop (x.recs.length - 4), slots := x.slots.drop (x.slots.length - 4) }))

/-- A valid header reaches a node: its run of headers, one for each cycle, headers of another tag, its time while it is locked, and the
chill record (R238, R239, R247). -/
def takeHeader (n : NodeId) (x : NodeSt) (cycle tag : Nat) (second chill : Bool) : NodeSt :=
  let on := x.run != 0 && x.runTag = tag
  let same := on && cycle = x.lastCyc && second = x.lastHalf
  let after := on && ((cycle = x.lastCyc && second && !x.lastHalf) || (cycle = (x.lastCyc + 1) % 2 ^ 32 && !second))
  let run := if same then x.run else if after then x.run + 1 else 1
  let foreign := if x.lock && tag != x.tag then x.foreign + 1 else 0
  let x := { x with run := run, runTag := tag, lastCyc := cycle, lastHalf := second, foreign := foreign, miss := 0 }
  let x := if x.lock then { x with timeCyc := x.timeCyc / 2 ^ 32 * 2 ^ 32 + cycle } else x
  if chill && x.lock then { x with chill := x.copied, chillCyc := x.timeCyc * (if ringNode n then 1 else rd (x.sched.getD []) 34 2) } else x

/-- Whether the type byte is in the table of R195. -/
def frameType (t : BitVec 8) : Bool :=
  (0x10 ≤ t.toNat && t.toNat ≤ 0x12) || (0x20 ≤ t.toNat && t.toNat ≤ 0x22) || 0x80 ≤ t.toNat

/-- One more on counter i of a node: frames of no type, frames dropped on pair 1, on pair 2 (R195, R219). -/
def countNode (x : NodeSt) (i : Nat) : NodeSt := { x with counters := x.counters.set i (min 0xFFFFFFFF (x.counters.getD i 0 + 1)) }

/-! Ring nodes. -/

/-- Offset of the sample timestamp in an upstream window (R83, R95, R139, R199). -/
def stampOffset (kind : Nat) : Nat := if kind = 0 then 6 else if kind = 2 then 10 else 18

/-- Bytes with some of them replaced. -/
def patch (b : Bytes) (o : Nat) (v : Bytes) : Bytes := b.take o ++ v ++ b.drop (o + v.length)

/-- The start of the node's ring cycle, in units of 2^-16 ns. -/
def ringInstant (x : NodeSt) : Int := (2 * x.timeCyc + b2n x.half : Nat) * (16000 * nsU)

/-- The microstep position of a stepper window at node time t, in counts rounded down (R141, R142): it runs on from its target at its
velocity, and stands still from 64 µs on when no target has come by then. -/
def stepperPos (w : WinSt) (t : Int) : Int :=
  let e := if w.age = 2 then min (t - w.at_) (64000 * nsU) else t - w.at_
  ((rd w.word 4 4 : Int) + (sgn 32 (rd w.word 8 4) * e).fdiv (16 * 1000000000 * nsU)) % 2 ^ 32

/-- The winding currents that a stepper window drives at node time t: the entry of its position in the table its control word selects,
times the amplitude (R141, R144). -/
def windCoils (x : NodeSt) (w : WinSt) (t : Int) : WinSt :=
  let e := microEntry (tget (fun _ => List.replicate 1024 0) x.tabs (bits (rd w.word 0 2) 2 2)) (stepperPos w t % 1024).toNat
  let i : Int := if w.gates then rd w.word 2 2 else 0
  { w with coilA := i * e.1, coilB := i * e.2 }

/-- The position of a servo sample in whole counts (R199). -/
def servoCounts (w : Bytes) : Int := sgn 48 (rd w 0 6) / 65536

/-- A sampled window, its reserved bits and bytes 0 (R83, R95, R139, R199). -/
def cleanSample (kind : Nat) (w : Bytes) : Bytes :=
  let w := (w ++ List.replicate (winSize kind - w.length) 0).take (winSize kind)
  if kind = 0 then patch w 12 (leBytes 1 (rd w 12 1 % 64))
  else
    let w := patch w 0 (leBytes 2 (rd w 0 2 % 32))
    if kind = 3 then patch w 22 [0, 0] else w

/-- An upstream window as the node writes it: its sample, and the node's own status bits (R84, R86, R141, R142, R199, R202). A stage
conducts only with its gates on and no STO. -/
def upWindow (x : NodeSt) (kind : Nat) (st : WinSt) (w : Bytes) : Bytes :=
  let o := if kind = 0 then 12 else 0
  let held := if kind < 2 then st.held else st.age != 0
  let v := rd w o 1
  let v := setBit (setBit v 0 (bit v 0 && st.gates && !x.sto)) 1 x.sto
  if kind = 0 then
    let w := patch w o (leBytes 1 (setBit (setBit v 3 st.latch.isSome) 5 held))
    match st.latch with
    | some a => patch w 13 (leBytes 3 (pat 24 (wrap 32 (a - servoCounts w))))
    | none => w
  else patch w o (leBytes 1 (setBit v 3 held))

/-- The upstream windows of ring node j. -/
def upWindows (b : Bytes) (j : Nat) (x : NodeSt) : Bytes :=
  (List.range (winCount b j)).flatMap (fun i =>
    let kd := winKind b j i
    upWindow x kd (nwin x i) (cleanSample kd (slice x.sample (winOffset b j i) (winSize kd))))

/-- The node status word (R198). -/
def statusWord (x : NodeSt) : Nat :=
  b2n x.integrated + 2 * b2n x.appChan + 4 * b2n x.noCopy + 8 * b2n x.sto + 16 * b2n x.ready + 256 * x.err

/-- Whether a copy that says to be of the second tight cycle or not is of the node's running ring cycle (R196, R203). -/
def rightHalf (b : Bytes) (x : NodeSt) (second : Bool) : Bool := !mouldTight b || second = x.half

/-- NODE_COPY_RECEIVED (R195, R203, R204): a passing frame of the given type; into a cyclic one the node writes its block, and it selects
the copy to apply. -/
def execNodeCopyReceived (r : Ring) (j : RNode) (c : Chan) (typ : BitVec 8) (hdrOk blockOk late : Bool) (seg claim : BitVec 8)
    (cycle : BitVec 32) (flags : BitVec 8) (tag : BitVec 16) (pdu data : Bytes) (s : State) : Host.Outcome State Fault Refusal :=
  .next (
    let n := NodeId.ring r j
    let b := nodeMould s n
    let x0 := nd s n
    let fl := flags.toNat
    if typ != 0x10 then (if frameType typ then s else setNd s n (countNode x0 0))
    else
      let valid := hdrOk && seg.toNat = r.val && 1 ≤ claim.toNat && claim.toNat ≤ 254 && pdu.length = 16
      let now := cycle.toNat = x0.timeCyc % 2 ^ 32
      let x0 := if valid && now && x0.lock && bit fl 0 then beginHalf b n x0 else x0
      let x := if valid then inputSync (takeHeader n x0 cycle.toNat tag.toNat (bit fl 0) (bit fl 1)) c true else { x0 with run := 0 }
      let take := valid && blockOk && !late && x0.integrated && tag.toNat = x0.tag && now && rightHalf b x0 (bit fl 0) &&
        x0.bestClaim < claim.toNat
      let x := if take then { x with bestClaim := claim.toNat, best := some (c = .b, if bit fl 2 then [] else data) } else x
      if x.integrated && inPlace s n then
        let u := x.up.getD (leBytes 2 (statusWord x) ++ upWindows b (j.val + 1) x)
        let body := u.take 2 ++ leBytes 1 cycle.toNat ++ [claim] ++ u.drop 2
        let w := body ++ leBytes 2 (crc16Node (j.val + 1) body)
        setNd { s with dev := emit s.dev (.node n w) } n { x with up := some u, written := w }
      else setNd s n x)

/-- A window of a copy in force at a stage's window: gates by control bit 0, latch until its bit 2 clears (R83, R86, R200). -/
def applyStage (kind : Nat) (on : Bool) (w : WinSt) (word : Bytes) : WinSt :=
  let c := rd word 0 2
  { w with word := word, gates := on && bit c 0, miss := 0, held := false, latch := if kind = 0 && bit c 2 then w.latch else none }

/-- A window of a copy in force at a stepper's window (R141, R142): of a repeat only energise, current and table. `start` is the start of
the copy's ring cycle. -/
def applyStepper (x : NodeSt) (on : Bool) (start : Int) (w : WinSt) (word : Bytes) : WinSt :=
  let c := rd word 0 2
  let g := on && bit c 0 && x.tabOk = 15
  if bit c 4 then { w with word := word.take 4 ++ (w.word ++ List.replicate 16 0).drop 4, gates := g }
  else { w with word := word, gates := g, age := 0, at_ := start + (rd word 12 4 : Int) }

/-- Window i of ring node j comes to its apply instant with a copy, with a time-only one (no bytes), or with none (R86, R142, R196, R202):
without one a stage holds its duties the first time, and goes off the second, its status bit 3 standing on (DESIGN CHOICE, log 109). -/
def applyWindow (b : Bytes) (j i : Nat) (start : Int) (copy : Option (Bool × Bytes)) (x : NodeSt) : NodeSt :=
  let k := winKind b j i
  let w := nwin x i
  match copy with
  | some (ch, []) => setNwin { x with appChan := ch, outputs := false } i { w with gates := false, miss := 0, held := false, coilA := 0, coilB := 0 }
  | some (ch, data) =>
    let ctl := rd data 0 2
    let clr := bit ctl 1
    let x := { x with appChan := ch, outputs := bit ctl 0 && !x.sto, err := if clr && !x.clear then 0 else x.err, clear := clr }
    let word := slice data (2 + winOffset b j i) (winSize k)
    if winCount b j ≤ i then x
    else if k < 2 then setNwin x i (applyStage k x.outputs w word)
    else
      let w := applyStepper x x.outputs start w word
      setNwin x i (windCoils x w w.at_)
  | none => if k < 2 then setNwin x i { w with gates := w.gates && w.miss = 0, miss := w.miss + 1, held := true } else x

/-- A ring node's apply instant of window i: of the ring cycle before while that one's is still to come, else of the running one. -/
def applyRing (b : Bytes) (n : NodeId) (j i : Nat) (x : NodeSt) : NodeSt :=
  let x := if (nwin x i).owed = 0 then beginHalf b n x else x
  let o := (nwin x i).owed
  if o = 0 then x
  else
    let y := applyWindow b j i (if o = 2 then ringInstant x - ringCycle b else ringInstant x) (if o = 2 then x.prev else x.best) x
    setNwin y i { nwin y i with owed := o - 1 }

/-! Field nodes. -/

/-- The coded area as node me reads it (R264): setpoint, its state, and whether the resync list names the node. -/
def readEntries (me : Nat) (area : Bytes) : Nat → Nat → Nat × Bool → Nat × Bool
  | 0, _, st => st
  | fuel + 1, p, st =>
    let f := rd area p 1 % 4
    if area.length ≤ p || f = 0 || area.length < p + f + 1 then st
    else
      let e := rd area p (f + 1)
      let st := if (e / 4) % 1024 = me then
          (if f = 3 then (e / 65536, true)
           else if st.2 && f = 1 then (pat 16 (st.1 + sgn 4 (e / 4096)), true)
           else if st.2 then (pat 16 (st.1 + sgn 12 (e / 4096)), true)
           else st)
        else st
      readEntries me area fuel (p + f + 1) st

/-- A field node's apply instant (R196, R222, R264): the setpoint of the selected frame and its resync list, or none: the alarm bit in its
next slot. The copy is the frame's flags byte and coded area. -/
def applyLine (me : Nat) (x : NodeSt) : NodeSt :=
  match x.best with
  | some (ch, fa) =>
    let area := fa.drop 1
    let only := bit (rd fa 0 1) 2
    let r := if only then (x.setpoint, x.spSync) else readEntries me area area.length (1 + 2 * rd area 0 1) (x.setpoint, x.spSync)
    let named := (List.range (rd area 0 1)).any (fun i => rd area (1 + 2 * i) 2 % 1024 = me)
    { x with appChan := ch, setpoint := r.1, spSync := r.2, alarm := !r.2, outputs := !only && !x.sto,
             anchorAt := if named && x.anchorAt.isNone then some (x.timeCyc + 1) else x.anchorAt }
  | none => { x with spSync := false, alarm := true }

/-- NODE_APPLY_INSTANT (R84, R86, R202, R222): of a window of a ring node, or of a field node. -/
def execNodeApplyInstant (n : NodeId) (w : Win) (s : State) : Host.Outcome State Fault Refusal :=
  .next (
    let x := nd s n
    if !x.integrated then s
    else
      match n with
      | .ring _ j =>
        let y := applyRing (nodeMould s n) n (j.val + 1) w.val x
        setNd { s with dev := emit s.dev (.node n (nwin y w.val).word) } n y
      | .line _ k =>
        let y := applyLine k.val x
        setNd { s with dev := emit s.dev (.node n (leBytes 2 y.setpoint)) } n y)

/-- NODE_TARGET_MISSING (R142): no new target within 32 µs, then within 64 µs, of the last. -/
def execNodeTargetMissing (r : Ring) (j : RNode) (w : Win) (s : State) : Host.Outcome State Fault Refusal :=
  .next (
    let n := NodeId.ring r j
    let b := nodeMould s n
    if w.val < winCount b (j.val + 1) && 2 ≤ winKind b (j.val + 1) w.val then
      updNode s n (fun x => setNwin x w.val { nwin x w.val with age := min 2 ((nwin x w.val).age + 1) })
    else s)

/-- NODE_SUMMATION_RECEIVED (R195, R222, R221): a field node checks a summation frame, takes its corrections once a cycle and selects
the area to apply. -/
def execNodeSummationReceived (l : Line) (k : FNode) (c : Chan) (typ : BitVec 8) (ok late : Bool) (claim : BitVec 8) (cycle : BitVec 32)
    (flags : BitVec 8) (tag : BitVec 16) (corrections : List (BitVec 16 × BitVec 16)) (_pdus : List Bytes) (coded : Bytes)
    (s : State) : Host.Outcome State Fault Refusal :=
  .next (
    let n := NodeId.line l k
    let x0 := nd s n
    if typ != 0x20 then (if frameType typ then s else setNd s n (countNode x0 0))
    else if !(ok && 1 ≤ claim.toNat && claim.toNat ≤ 254) then setNd s n { x0 with run := 0 }
    else
      let x := inputSync (takeHeader n x0 cycle.toNat tag.toNat false (bit flags.toNat 1)) c true
      let mine := x0.integrated && tag.toNat = x0.tag && cycle.toNat = x0.timeCyc % 2 ^ 32 && !late
      let cs := (corrections.filter (fun e => e.1.toNat % 1024 = k.val)).map (fun e => (e.1.toNat / 2 ^ 14, e.2.toInt))
      let x := if mine && x0.bestClaim = 0 then
          { x with corr := x.corr ++ (cs.filter (fun e => e.1 < 2)), excluded := x.excluded || cs.any (fun e => e.1 = 2) }
        else x
      setNd s n (if mine && x0.bestClaim < claim.toNat then { x with bestClaim := claim.toNat, best := some (c = .b, flags :: coded) } else x))

/-- The smallest scale exponent that codes a residual (R255). -/
def scaleOf (r : Int) : Nat := ((List.range 8).find? (fun s => -2048 * 2 ^ s ≤ r && r ≤ 2048 * 2 ^ s - 1)).getD 7

/-- A node codes a record (R254, R255): the slot body, and its history after the cycle's frames. `anchor` asks for the anchor form. -/
def codeSlot (x : NodeSt) (rec : Bytes) (anchor riser : Bool) : Bytes × NodeSt :=
  let w0 := rd rec 0 2
  let w1 := sgn 16 (rd rec 2 2)
  let a := w1.fdiv 2
  let p := clamp16 (2 * x.h1 - x.h2)
  let sc := scaleOf (w1 - p)
  let q := (w1 - p).fdiv (2 ^ sc)
  let v := if anchor then 2 * a else clamp16 (p + q * 2 ^ sc)
  let c := if anchor then 2 ^ 15 + pat 15 a else sc * 4096 + pat 12 q
  let y := if anchor then { x with h1 := v, h2 := v, anchor := false, anchorAt := none } else { x with h1 := v, h2 := x.h1 }
  (leBytes 4 (c + 65536 * w0), if riser then { y with h1 := w1, h2 := w1 } else y)

/-- The record of field cycle q: the one sampled for it, else the newest, else none yet: zeros (R253). -/
def recordOf (x : NodeSt) (q : Nat) : Bytes :=
  match x.recs.find? (fun p => p.1 = q) with
  | some p => p.2
  | none => (x.recs.getLast?.map (·.2)).getD (List.replicate 32 0)

/-- The slot of field cycle q of a node: coded once, the same on both pairs (R255). -/
def slotOf (b : Bytes) (k q : Nat) (x : NodeSt) : Bytes × NodeSt :=
  match x.slots.find? (fun p => p.1 = q) with
  | some p => (p.2, x)
  | none =>
    let r := codeSlot x (recordOf x q) (x.anchor || x.anchorAt.any (· ≤ q)) (riserCycle b k q)
    (r.1, { r.2 with slots := r.2.slots ++ [(q, r.1)], written := r.1 })

/-- A field node frame: header byte, body and CRC-16 (R215). -/
def fieldFrame (k hdr : Nat) (body : Bytes) : Bytes :=
  let f := leBytes 1 hdr ++ body
  [0xFB] ++ f ++ leBytes 2 (crc16Node k f) ++ [0xFD]

/-- The send instant of node k on a pair, in units of 0.25 ns, with the corrections taken (R219, R221). -/
def sendAt (x : NodeSt) (c : Chan) : Int := if c = .a then x.s1 else x.s2

/-- The field cycle of a frame that leaves now on a pair: a negative send instant lies in the cycle before its own (R219). -/
def sendCycle (b : Bytes) (x : NodeSt) (c : Chan) : Nat :=
  ((x.timeCyc : Int) - (sendAt x c).fdiv (128000 * mouldNb b)).toNat

/-- The body of the frame of a kind in field cycle q, if the node has one: 0 slot, 1 riser, 2 safety PDU with a new sequence in each field
cycle and the node's own payload, 3 the mailbox reply in the exchange after its request (R215, R217, R360). -/
def fieldBody (dom : Nat) (b : Bytes) (l k : Nat) (kind : Fin 4) (q : Nat) (d : Dev) (x : NodeSt) : Option (Bytes × NodeSt) × Dev :=
  match kind with
  | 0 => (some (slotOf b k q x), d)
  | 1 => (if riserCycle b k q then some (recordOf x q, x) else none, d)
  | 2 =>
    if !lineSafety b k then (none, d)
    else match x.pdu.filter (fun p => p.1 = q) with
      | some p => (some (p.2, x), d)
      | none =>
        let f := freeVal d 64
        let sq := (x.pduOut + 1) % 65536
        let p := pduBytes dom (0x3000 + 1024 * (l + 4) + k) sq f.1
        (some (p, { x with pduOut := sq, pdu := some (q, p) }), f.2)
  | _ =>
    (x.due.map (fun _ => (leBytes 1 x.reqSeq ++ leBytes 2 x.reply.length ++ x.reply ++ List.replicate (mouldP (lseg l) b - x.reply.length) 0,
      { x with ready := false })), d)

/-- NODE_SEND_INSTANT (R219, R215, R221): a frame of the given kind leaves on a pair at once, after a passing frame of at most 200 ns with the waited
bit, or not at all, which is counted. An excluded node sends mailbox replies only (DEDUCED, log 89). -/
def execNodeSendInstant (l : Line) (k : FNode) (kind : Fin 4) (c : Chan) (passing : BitVec 16) (s : State) : Host.Outcome State Fault Refusal :=
  .next (
    let n := NodeId.line l k
    let b := nodeMould s n
    let x := nd s n
    if !inPlace s n || !linePresent b k.val || (kind != 3 && (!x.integrated || x.excluded)) then s
    else
      let q := if kind = 3 then x.due.getD 0 else sendCycle b x c
      let r := fieldBody (blkDomain s.isl.block) b l.val k.val kind q s.dev x
      match r.1 with
      | none => s
      | some (body, y) =>
        if 200 < passing.toNat then setNd { s with dev := r.2 } n (countNode y (if c = .a then 1 else 2))
        else
          let f := fieldFrame k.val (frameHeader kind.val (y.alarm || !y.spSync) (passing != 0) (q % 8)) body
          setNd { s with dev := emit r.2 (.node n f) } n y)

/-- A sample of a ring node (R84, R141, R199): its windows, then its error code. The position of a stepper window and its winding currents
are the node's own; the first index while a latch is armed is kept. -/
def ringSample (b : Bytes) (j : Nat) (stamp t : Int) (data : Bytes) (x : NodeSt) : NodeSt :=
  let w (i : Nat) : Bytes :=
    let kd := winKind b j i
    let w := patch (cleanSample kd (slice data (winOffset b j i) (winSize kd))) (stampOffset kd) (leBytes 4 (pat 32 stamp))
    if kd < 2 then w else patch w (if kd = 2 then 6 else 14) (leBytes 4 (stepperPos (nwin x i) t).toNat)
  let e := rd data (nodeWinBytes b j) 1
  let y := { x with sample := (List.range (winCount b j)).flatMap w, err := if e = 0 then x.err else e }
  (List.range (winCount b j)).foldl (fun y i =>
    let st := nwin y i
    if 2 ≤ winKind b j i then setNwin y i (windCoils y st t)
    else if winKind b j i = 0 && st.latch.isNone && bit (rd st.word 0 2) 2 && bit (rd (w i) 12 1) 3 then
      setNwin y i { st with latch := some (servoCounts (w i) + sgn 24 (rd (w i) 13 3)) }
    else y) y

/-- NODE_SAMPLE_INSTANT (R84, R141, R253): the node latches its windows' values with the actual instant, an offset from the start of the
ring cycle it samples for in units of 2^-16 ns, or its record of the field cycle that its sample offset belongs to. A ring sample before its
cycle's start is for the next cycle (R211), a line's before its field cycle's start for that one (R218). -/
def execNodeSampleInstant (n : NodeId) (offset : BitVec 32) (data : Bytes) (s : State) : Host.Outcome State Fault Refusal :=
  .next (updNode s n (fun x =>
    let b := nodeMould s n
    let o := offset.toInt
    match n with
    | .ring _ j =>
      let of (x : NodeSt) : Nat := 2 * x.timeCyc + b2n x.half + (if o < 0 then (if mouldTight b then 1 else 2) else 0)
      let x := if x.sampT = of x + 1 then beginHalf b n x else x
      ringSample b (j.val + 1) o ((of x : Nat) * (16000 * nsU) + o) data { x with sampT := of x + 1 }
    | .line _ _ =>
      let q := if o < 0 then x.timeCyc + 1 else x.timeCyc
      let r := (data ++ List.replicate 32 0).take 32
      { x with sample := r, recs := x.recs.filter (fun p => p.1 != q) ++ [(q, r)] }))

/-! Wrapping. -/

/-- NODE_WRAP_START (R321): a channel's input fails; on a paired ring the node wraps onto it while the other input is synchronised. -/
def execNodeWrapStart (r : Ring) (j : RNode) (c : Chan) (s : State) : Host.Outcome State Fault Refusal :=
  .next (
    let n := NodeId.ring r j
    updNode s n (fun x =>
      let on := mouldPaired (nodeMould s n) && (if c = .a then x.syncB else x.syncA)
      let x := inputSync x c false
      if !on then x else if c = .a then { x with wrapA := true } else { x with wrapB := true }))

/-- NODE_WRAP_END (R321): the failed input is synchronised again. -/
def execNodeWrapEnd (r : Ring) (j : RNode) (c : Chan) (s : State) : Host.Outcome State Fault Refusal :=
  .next (updNode s (.ring r j) (fun x => inputSync (if c = .a then { x with wrapA := false } else { x with wrapB := false }) c true))

/-! Mailboxes. -/

/-- A schedule request is taken (R239, R255, R264): the node is integrated with it, its corrections are cleared. -/
def takeSchedule (s : State) (n : NodeId) (p : Bytes) : State :=
  updNode s n (fun x =>
    let x := { x with sched := some p, integrated := x.lock, excluded := false, corr := [], spSync := false, anchor := true }
    if ringNode n then { x with timeCyc := rd p 22 4 * 2 ^ 32 + x.timeCyc % 2 ^ 32 }
    else { x with s1 := sgn 32 (rd p 14 4), s2 := sgn 32 (rd p 18 4), timeCyc := rd p 30 4 / max 1 (rd p 34 2) * 2 ^ 32 + x.timeCyc % 2 ^ 32 })

/-- A table request (R141, R145, R243): chunks are stored, chunk 0xFF commits the table if its CRC agrees. -/
def takeTable (s : State) (n : NodeId) (p : Bytes) : State × Bytes :=
  let x := nd s n
  let t := rd p 1 1 % 4
  let c := rd p 2 1
  let old := tget (fun _ => List.replicate 1024 0) x.tabs t
  if c < 32 then
    (setNd s n { x with tabs := tput (fun _ => List.replicate 1024 0) x.tabs t (patch old (32 * c) (slice p 3 32)), tabOk := setBit x.tabOk t false },
     [3, 0])
  else if crc32c old = rd p 3 4 then (setNd s n { x with tabOk := setBit x.tabOk t true }, [3, 0])
  else (s, [3, 3])

/-- The reply to a chill record request (R243): the frozen counters from the first asked for, as many as fit. -/
def chillRecord (x : NodeSt) (first cap : Nat) : Bytes :=
  [4, 0] ++ leBytes 8 x.chillCyc ++ leBytes 1 (x.chill.take 16).length ++
    (((x.chill.take 16).drop first).take ((cap - 11) / 4)).flatMap (fun v => leBytes 4 v)

/-- Service 0x07 (R461, R463): what is node-defined, whether the service exists and whether the node's checks pass, comes with
`answer`. -/
def takeFirmware (s : State) (n : NodeId) (p answer : Bytes) : State × Bytes :=
  let x := nd s n
  let op := rd p 1 1
  let st := rd answer 0 1
  let rep (s : State) (st nxt : Nat) : State × Bytes := (s, [7, BitVec.ofNat 8 st] ++ leBytes 4 nxt)
  if st = 1 then rep s 1 0
  else if op = 1 then rep (setNd s n { x with fwNext := 0 }) 0 0
  else if op = 2 then
    (if rd p 2 4 = x.fwNext then rep (setNd s n { x with fwNext := x.fwNext + (p.length - 6) }) 0 (x.fwNext + (p.length - 6))
     else rep s 2 x.fwNext)
  else if op = 3 then rep s (if st = 3 then 3 else 0) x.fwNext
  else rep (setNd s n { unlockNode x with run := 0, fwNext := 0 }) 0 0

/-- The reply a node gives to a newly accepted request (R243). `answer` holds what the manual leaves to the node. -/
def nodeAnswer (s : State) (n : NodeId) (cap : Nat) (p answer : Bytes) : State × Bytes :=
  let v := rd p 0 1
  let x := nd s n
  if v = 2 then (takeSchedule s n p, [2, 0] ++ leBytes 2 (nodeNum n) ++ leBytes 2 x.tag)
  else if v = 3 then takeTable s n p
  else if v = 4 then (s, chillRecord x (rd p 1 1) cap)
  else if v = 7 then takeFirmware s n p answer
  else if v = 0 || v = 1 || v = 5 || v = 6 || 0x80 ≤ v then (s, [BitVec.ofNat 8 v, 0] ++ answer)
  else (s, [BitVec.ofNat 8 v, 1])

/-- The reply part of a ring mailbox frame of capacity P as the node writes it (R208). -/
def ringReply (j cap : Nat) (x : NodeSt) : Bytes :=
  let r := (x.reply.take cap)
  let b := leBytes 1 x.reqSeq ++ leBytes 2 r.length ++ r ++ List.replicate (cap - r.length) 0
  b ++ leBytes 2 (crc16Node j b)

/-- NODE_MAILBOX_REQUEST (R208, R217, R241): a mailbox frame of capacity `cap` addressed to the node. A ring node writes into it the reply it
has ready; a field node's leaves in the exchange of the next field cycle. A new sequence is accepted. -/
def execNodeMailboxRequest (n : NodeId) (seq : BitVec 8) (cap : BitVec 16) (payload answer : Bytes) (s : State) :
    Host.Outcome State Fault Refusal :=
  .next (
    if !inPlace s n then s
    else
      let x := nd s n
      let s := match n with
        | .ring _ j => { s with dev := emit s.dev (.node n (ringReply (j.val + 1) cap.toNat x)) }
        | .line _ _ => updNode s n (fun x => { x with due := some (x.timeCyc + 1) })
      if seq.toNat = x.reqSeq then updNode s n (fun x => { x with ready := x.ready && !ringNode n })
      else
        let r := nodeAnswer s n cap.toNat payload answer
        updNode r.1 n (fun x => { x with reqSeq := seq.toNat, reply := r.2, ready := true }))

/-! Safety. -/

/-- The permit that a PDU's payload gives node n, if the PDU is of one of its connections (R207, R360). -/
def nodePermit (n : NodeId) (p : Bytes) : Option Bool :=
  let c := rd p 0 2
  match n with
  | .ring r j => if c = 0x1000 + r.val then some (bit (rd p 4 8) j.val) else none
  | .line l k =>
    if c = 0x2000 + 16 * l.val + k.val / 64 then some (bit (rd p 4 8) (k.val % 64))
    else if c = 0x3000 + 1024 * l.val + k.val then some (bit (rd p 4 8) 0) else none

/-- NODE_SAFETY_PDU (R360): a valid PDU is fresh when its sequence differs from the last of its claim; a 0 acts at once, a fresh 1
lets torque on when every running claim permits it. -/
def execNodeSafetyPdu (n : NodeId) (claim : BitVec 8) (pdu : Bytes) (s : State) : Host.Outcome State Fault Refusal :=
  .next (
    match nodePermit n pdu with
    | none => s
    | some on =>
      if !pduGood (blkDomain s.isl.block) pdu then s
      else
        let x := nd s n
        let key := claim.toNat * 65536 + rd pdu 0 2
        let last := (x.pduSeq.find? (fun p => p.1 = key)).map (·.2)
        let fresh := last.map (· / 2) != some (rd pdu 2 2)
        let others := x.pduSeq.filter (fun p => p.1 != key)
        let x := if fresh then { x with pduSeq := others ++ [(key, rd pdu 2 2 * 2 + b2n on)],
                                        watch := x.watch.filter (·.1 != key) ++ [(key, 0)] }
          else if !on then { x with pduSeq := others ++ [(key, rd pdu 2 2 * 2)] } else x
        let all := x.watch.all (fun c => (x.pduSeq.find? (fun p => p.1 = c.1)).any (fun p => p.2 % 2 = 1))
        let sto := if !on then true else if fresh then !all else x.sto
        setNd s n (if sto then nodeOff { x with sto := true } else { x with sto := false }))

/-- SAFETY_WATCHDOG_EXPIRY (R360): every watchdog has expired. -/
def execSafetyWatchdogExpiry (n : NodeId) (s : State) : Host.Outcome State Fault Refusal :=
  .next (updNode s n (fun x => nodeOff { x with watch := [], sto := true }))

end Sys2Proof.Machine
end

