-- ==== Sys2Proof/Machine/Pair.lean ====
section
/-! DEFINITION. The redundant pair (R316-R342): claims and roles, pairing, agreement on inputs, digests and divergence, the state
transfer, failover and reclaim. -/
namespace Sys2Proof.Machine

/-- Pair state (R323): 0 Unpaired, 1 Linking, 2 Sole, 3 Joining, 4 Transferring, 5 Verifying, 6 Announced, 7 In step. -/
def pairState (d : Dev) : Nat := og d 0x3C01 1
/-- Role: 0 none, 1 leader, 2 follower (R317). -/
def pairRole (d : Dev) : Nat := og d 0x3C01 2
/-- Base claim. -/
def baseClaim (d : Dev) : Nat := og d 0x3C00 2
/-- Whether the pair link is up (R323, R325). -/
def pairUp (d : Dev) : Bool := og d 0x3C01 9 != 0
/-- The paired segments. -/
def pairedSegs (d : Dev) : List Nat := (List.range 12).filter (pairedSeg d)
/-- Takes a message from the pair link; one with a bad CRC is discarded, counted and reported (R325, R379 source 167). -/
def pairIn (crcOk : Bool) (s : State) (f : Dev → Dev) : Host.Outcome State Fault Refusal :=
  .next (upd s (fun d => if crcOk then f d else badMessage d))

/-- A healthy unit (R317). -/
def healthy (d : Dev) : Bool :=
  let gs := pairedSegs d
  gs.all (fun g => ready d (18 + g)) &&
  (boundAxes d.objs).all (fun n => match axisSeg d n with
    | some g => !gs.contains g || (ready d 14 && ready d (6 + cluster d n))
    | none => true) &&
  2 ≤ mode d && mode d ≤ 4 && !bit (og d 0x2000 1) 0

/-! Roles, claims and local outputs. -/

/-- The unit takes the ST and EE drivers (R322): local step axes in motion are no longer referenced. -/
def takeOutputs (d : Dev) : Dev :=
  if d.pair.driving then d
  else
    let d := { d with pair := { d.pair with driving := true } }
    ((boundAxes d.objs).filter (fun n => kind d n = 5 && (chan d (cg d (ax n 1) 5)).v != 0)).foldl (fun d n =>
      log (osb d (ax n 9) 4 0 false) (0x20 + cluster d n) 2 n) d
/-- The unit releases the drivers. -/
def dropOutputs (d : Dev) : Dev := { d with pair := { d.pair with driving := false } }

/-- The role that the effective claims give (R317). -/
def roleOf (d : Dev) : Nat :=
  let own := og d 0x3C01 3
  let p := og d 0x3C01 5
  if pairState d = 0 then 0 else if p < own then 1 else if own < p then 2 else 0

/-- Effective claim and role at a boundary (R317, R319, R322). -/
def settleClaims (d : Dev) : Dev :=
  let st := pairState d
  let eff := if (st = 2 || st = 7) && healthy d && !d.pair.dropped then baseClaim d else 0
  let d := os d 0x3C01 3 eff
  let r := roleOf d
  let d := if r != pairRole d then relayInterrupt (os d 0x3C01 2 r) else d
  if st = 0 || r = 1 then takeOutputs d else if d.pair.driving && (r = 0 || d.pair.missed = 0) then dropOutputs d else d

/-- Forgets what is known of the partner. -/
def forgetPartner (d : Dev) : Dev :=
  let d := os (os d 0x3C01 5 0) 0x3C01 6 0
  { d with pair := { d.pair with last := none, beaconIn := false, prints := [], requested := [], excl := none, mine := [], theirs := [],
                                 fullSets := [], fullServe := [], differ := [], found := [], checked := 0, digestAt := 4621, debt := 0,
                                 delayT := none, partner := none } }

/-- Withdraws or clears an announcement (R323, R335). -/
def noAnnounce (d : Dev) : Dev := os { d with pair := { d.pair with announced := none } } 0x3C01 8 0

/-- Announces a cycle with a claim: the own claim for a takeover, 0 for a release (R326 type 0x0D). -/
def announceCycle (d : Dev) (k claim : Nat) : Dev :=
  sendPair (os { d with pair := { d.pair with announced := some (k, claim) } } 0x3C01 8 k) 0x0D (leBytes 8 k ++ leBytes 1 claim)

/-- Withdraws the own announcement and says so. -/
def withdraw (d : Dev) : Dev :=
  if d.pair.announced.isSome then sendPair (noAnnounce d) 0x0D (leBytes 8 0 ++ leBytes 1 (baseClaim d)) else d

/-- The number of state units (R333): device, segments, axes, field nodes. -/
def unitCount : Nat := 4621

/-- Enters Transferring (R323): every unit is to be transferred. -/
def startTransfer (d : Dev) : Dev :=
  let d := setPairState (withdraw d) 4
  os (os { d with pair := { d.pair with startedAt := d.time.k, differ := List.range unitCount, found := [], checked := 0, digestAt := 0 } } 0x3C01 7 0)
    0x3C01 0x0D unitCount

/-! Pairing. -/

/-- The paired map and tags of the own pairing message (R326 type 0x0E). -/
def lineEnds (d : Dev) : Nat := ((List.range 4).map (fun l => og d (0x3200 + 0x40 * l + 0x30) 1 % 2 * 2 ^ l)).sum

/-- The configuration digest (R324): the manual fixes the values it covers and not the order of their bytes. -/
def configDigest (d : Dev) : Nat :=
  let skip (idx : Nat) : Bool := idx = 0x3C00 || idx = 0x1009 || (0x2F00 ≤ idx && idx ≤ 0x2F10)
  let key (k : Nat) : Bool := (match findRow (k / 256) (k % 256) with | some r => r.key | none => false) &&
    !(skip (k / 256) && k != okey 0x3C00 1)
  (Config.configDigest (d.objs.filter (fun p => key p.1)) (d.blobs.filter (fun p => key p.1))).toNat

/-- The pairing message of this unit. -/
def pairingBytes (d : Dev) : Bytes :=
  leBytes 8 Config.serial.toNat ++ leBytes 1 (baseClaim d) ++ leBytes 2 (og d 0x3C00 3) ++ leBytes 2 (og d 0x3C00 4) ++
  (List.range 12).flatMap (fun g => leBytes 2 (mouldTag (mould d g))) ++ leBytes 1 (lineEnds d) ++ leBytes 4 (configDigest d)

/-- Whether a paired ring fits its cycle (R320). -/
def pairedRingFits (b : Bytes) : Bool :=
  decide ((ringFrameBytes b : Int) * 8 * nsU + 2 * (ringPropHalf b * 32768) + 4000 * nsU ≤ ringCycle b)

/-- The checks of R324 against the partner's message: the cause of the first that fails, 0 when they pass. The nodes that a roll call of the
other head has counted on channel A before this unit show which position it sits at (log 64). -/
def pairingCheck (d : Dev) (m : PairingMsg) : Nat :=
  let own := og d 0x3C00 4
  let both := (List.range 12).filter (fun g => bit own g && bit m.paired.toNat g)
  if m.claim.toNat = baseClaim d then 1
  else if m.version.toNat != og d 0x3C00 3 then 2
  else if (List.range 12).any (fun g => segState d g != 0 && !(bit own g && bit m.paired.toNat g)) then 3
  else if both.any (fun g => (m.tags.getD g 0).toNat != mouldTag (mould d g)) then 4
  else if both.any (fun g => 8 ≤ g && bit (lineEnds d) (g - 8) = bit m.ends.toNat (g - 8)) then 5
  else if both.any (fun g => g < 8 && (match tget (fun _ => none) d.pair.counted g with
      | some n => n != (if m.claim.toNat < baseClaim d then mouldN g (mould d g) - rd (mould d g) 4 1 else rd (mould d g) 4 1)
      | none => false)) then 6
  else if both.any (fun g => g < 8 && !pairedRingFits (mould d g)) then 7
  else if m.digest.toNat != configDigest d then 8 else 0

/-- Linking ends when the link is up, the checks pass and the partner's state is known (R323). -/
def decideLinking (d : Dev) : Dev :=
  match d.pair.partner, d.pair.last with
  | some m, some b =>
    if pairState d = 1 && pairUp d && og d 0x3C01 0x0B = 0 then
      (if b.st != 2 && b.st != 7 && m.claim.toNat < baseClaim d then setPairState d 2 else setPairState d 3)
    else d
  | _, _ => d

/-- The checks with the partner's last message; a failed one is reported (R323, R324). -/
def checkPairing (d : Dev) : Dev :=
  match d.pair.partner with
  | none => d
  | some m =>
    let c := pairingCheck d m
    let d := os d 0x3C01 0x0B c
    if c = 0 then decideLinking d else if pairState d = 1 then later d 161 0 c else d

/-- Linking with the link up exchanges pairing messages (R324). -/
def enterLinking (d : Dev) (st : Nat) : Dev := if st = 1 then sendPair d 0x0E (pairingBytes d) else d

/-- The partner is lost (R323, R334). -/
def partnerLost (d : Dev) : Dev :=
  let st := pairState d
  let down (d : Dev) : Dev := if pairUp d then d else { d with pair := { d.pair with queue := [] } }
  if st = 0 || st = 1 then enterLinking (down (forgetPartner d)) st
  else
    let d := if d.pair.last.isSome then later (down d) 165 0 0 else down d
    if st = 2 || st = 7 then
      let d := if st = 7 && pairRole d = 2 then later (bump d 0x3C02 2) 166 0 0 else d
      setPairState (noAnnounce (forgetPartner d)) 2
    else
      let d := enterLinking (setPairState (noAnnounce (forgetPartner d)) 1) 1
      let d := { d with pair := { d.pair with linkAt := d.time.local_, heardHead := false } }
      ((pairedSegs d).filter (fun g => segState d g != 0)).foldl (fun d g => segLeave d g 0 true) d

/-- A write of pair enable (R323). -/
def pairEnable (d : Dev) (v : Nat) : Dev × Status :=
  match writeNum d 0x3C00 1 v with
  | (d, .ok) =>
    (if v = 1 then
       (if pairState d = 0 then
          dropOutputs (setPairState { d with pair := { d.pair with linkAt := d.time.local_, heardHead := false, dropped := false } } 1)
        else d)
     else if pairState d = 0 then d
     else
       let d := deassert (deassert (setPairState (noAnnounce (forgetPartner d)) 0) 163) 164
       takeOutputs (os (os (os (os d 0x3C01 9 0) 0x3C01 2 0) 0x3C01 3 0) 0x3C01 4 0), .ok)
  | r => r

/-- PAIR_ENABLE_WRITE (R323, R339). -/
def execPairEnableWrite (v : Bool) (s : State) : Host.Outcome State Fault Refusal :=
  .next (upd s (fun d => let r := pairEnable d (b2n v); answer r.1 r.2))

/-- PAIR_LINK_UP (R323, R325): the lanes trained; in Linking the pairing messages are exchanged. -/
def execPairLinkUp (lanes : BitVec 4) (s : State) : Host.Outcome State Fault Refusal :=
  .next (upd s (fun d =>
    let n := lanes.toNat
    if pairState d = 0 || !ready d 31 || !(n = 15 || n = 3 || n = 12) then d
    else
      let d := deassert (os d 0x3C01 9 n) 164
      let d := if n = 15 then deassert d 163 else later d 163 0 n
      if pairState d = 1 then checkPairing (enterLinking d 1) else d))

/-- PAIR_LANE_LOSS (R325): 2 lanes remain, or the link is down. -/
def execPairLaneLoss (lane : Fin 4) (s : State) : Host.Outcome State Fault Refusal :=
  .next (upd s (fun d =>
    let n := og d 0x3C01 9
    if !bit n lane.val then d
    else if n = 15 then later (os d 0x3C01 9 (if lane.val < 2 then 12 else 3)) 163 0 lane.val
    else partnerLost (later (deassert (os d 0x3C01 9 0) 163) 164 0 lane.val)))

/-- LINKING_TIMEOUT (R323): the link has not come up for 1 s and no other head was heard. -/
def execLinkingTimeout (s : State) : Host.Outcome State Fault Refusal :=
  .next (upd s (fun d =>
    if pairState d = 1 && !pairUp d && !d.pair.heardHead && d.pair.linkAt + 1000000000 * unitNs ≤ d.time.local_ then setPairState d 2 else d))

/-- PAIRING_MESSAGE (R324): out of Linking the unit answers with its own, so that the messages are exchanged (log 65). -/
def execPairingMessage (crcOk : Bool) (m : PairingMsg) (s : State) : Host.Outcome State Fault Refusal :=
  pairIn crcOk s (fun d =>
    if pairState d = 0 || !pairUp d then d
    else
      let d := os (os { d with pair := { d.pair with partner := some m } } 0x3C00 5 m.serial.toNat) 0x3C01 4 m.claim.toNat
      if pairState d = 1 then checkPairing d else sendPair (os d 0x3C01 0x0B (pairingCheck d m)) 0x0E (pairingBytes d))

/-- The status of a pair command (R342). -/
def pairCommand (d : Dev) (v : Nat) : Dev × Status :=
  let st := pairState d
  if !ready d 31 then (d, .notReady)
  else if v = 1 then
    (if st = 7 || (st = 2 && og d 0x3C01 6 = 7) then (announceCycle d (d.time.k + 16) 0, .ok) else (d, .state))
  else if v = 2 then (if st = 1 then (checkPairing (sendPair d 0x0E (pairingBytes d)), .ok) else (d, .state))
  else if v = 3 then (d, if st = 1 && mode d = 2 then .ok else .state)
  else (d, .range)

/-- RELEASE (R342, R323). -/
def execRelease (s : State) : Host.Outcome State Fault Refusal := .next (upd s (fun d => let r := pairCommand d 1; answer r.1 r.2))
/-- REPEAT_PAIRING_CHECKS (R342). -/
def execRepeatPairingChecks (s : State) : Host.Outcome State Fault Refusal :=
  .next (upd s (fun d => let r := pairCommand d 2; answer r.1 r.2))

/-- Whether command 0x03 copies an object from the partner (R324, R342). -/
def adopts (idx sub : Nat) : Bool :=
  (match findRow idx sub with | some r => r.key | none => false) &&
  !((idx = 0x3C00 && sub != 1) || idx = 0x1009 || (0x2F00 ≤ idx && idx ≤ 0x2F10) || (0x3A00 ≤ idx && idx < 0x3C00))

/-- One adopted value. -/
def adoptValue (d : Dev) (w : WrItem) : Dev :=
  let i := w.idx.toNat
  let b := w.sub.toNat
  if !adopts i b then d
  else if isMould (okey i b) then (if mouldOk (i - 0x3300) w.val then setMould d (i - 0x3300) w.val else d)
  else match findRow i b with
    | some r => if r.ty.isBlob then obs d i b w.val else os d i b (ofLe w.val)
    | none => d

/-- ADOPT_CONFIGURATION (R324, R342): in Linking with the device Stopped, the partner's values become working values. -/
def execAdoptConfiguration (vals : List WrItem) (s : State) : Host.Outcome State Fault Refusal :=
  .next (upd s (fun d =>
    if !ready d 31 then answer d .notReady
    else if pairState d = 1 && mode d = 2 then answer (vals.foldl adoptValue d) .ok
    else answer d .state))

/-! Beacons and time. -/

/-- The beacon at a base cycle start (R326 type 0x01). -/
def sendBeacon (d : Dev) : Dev :=
  if pairState d = 0 then d
  else queueLink d 1 false 26 (leBytes 8 d.time.k ++ leBytes 14 (time112 d.time.seg) ++ leBytes 1 (og d 0x3C01 3) ++ leBytes 1 (pairState d) ++
    leBytes 1 (mode d) ++ leBytes 1 0)

/-- A follower steers its segment time to the leader's (R336): the law is not stated, only its bound of 50 ppm. -/
def steerFollower (d : Dev) : Dev :=
  let r := freeVal d 32
  let y := f32Clamp (f32c (-50)) (f32c 50) (BitVec.ofNat 32 (if fmtFinite fmt32 r.1 then r.1 else 0))
  osf r.2 0x3410 0x0B y

/-- BEACON (R326, R317, R336). -/
def execBeacon (crcOk : Bool) (k : BitVec 64) (t0 : BitVec 112) (claim st mode : BitVec 8) (s : State) : Host.Outcome State Fault Refusal :=
  pairIn crcOk s (fun d =>
    if pairState d = 0 || !pairUp d then d
    else
      let was := og d 0x3C01 6
      let d := os (os d 0x3C01 5 claim.toNat) 0x3C01 6 st.toNat
      let d := { d with pair := { d.pair with last := some ⟨k.toNat, t0.toNat, claim.toNat, st.toNat, mode.toNat⟩, beaconIn := true, missed := 0 } }
      let d := if st.toNat = 4 && was != 4 then { d with pair := { d.pair with differ := List.range unitCount, found := [], checked := 0, digestAt := 0, debt := 0 } } else d
      let d := if st.toNat != was then { d with pair := { d.pair with fullServe := [] } } else d
      let d := decideLinking d
      if pairRole d = 2 && (pairedSegs d).length != 0 then steerFollower d else d)

/-- BEACON_MISSING (R322, R323): no beacon has come at t0 + 1 us. -/
def execBeaconMissing (s : State) : Host.Outcome State Fault Refusal :=
  .next (upd s (fun d =>
    if pairState d = 0 || d.pair.last.isNone || d.pair.beaconIn then d
    else
      let m := d.pair.missed + 1
      let d := bump { d with pair := { d.pair with missed := m } } 0x3C02 9
      let d := if 2 ≤ m && d.pair.heardLines.length = 0 && og d 0x3C01 3 != 0 then takeOutputs d else d
      if 4 ≤ m then partnerLost d else d))

/-- PAIR_DELAY (R336): a request is answered; half the round trip of a response is the link delay. -/
def execPairDelay (crcOk : Bool) (response : Bool) (t arrival : BitVec 112) (s : State) : Host.Outcome State Fault Refusal :=
  pairIn crcOk s (fun d =>
    if pairState d = 0 || !pairUp d then d
    else if !response then sendPair d 0x0F (leBytes 1 1 ++ leBytes 14 t.toNat)
    else match d.pair.delayT with
      | none => d
      | some sent =>
        let rt := timeUnits arrival.toNat - sent
        os { d with pair := { d.pair with delayT := none } } 0x3C01 0x0A (min 1000 (rt / 2 / 65536)))

/-- The delay exchange of every 1,024 base cycles (R326 type 0x0F). -/
def sendDelay (d : Dev) : Dev :=
  if pairState d != 0 && pairUp d && d.time.k % 1024 = 0 then
    let t := time112 d.time.seg
    queueLink { d with pair := { d.pair with delayT := some (timeUnits t) } } 0x0F false 15 (leBytes 1 0 ++ leBytes 14 t)
  else d

/-! Agreement on inputs. -/

/-- FINGERPRINT (R328): the leader's fingerprints; a block that is missing or differs is requested. -/
def execFingerprint (crcOk : Bool) (es : List (BitVec 8 × BitVec 8 × BitVec 32)) (s : State) : Host.Outcome State Fault Refusal :=
  pairIn crcOk s (fun d =>
    if pairRole d != 2 then d
    else es.foldl (fun d e =>
      let g := e.1.toNat
      let j := e.2.1.toNat
      if 8 ≤ g || !pairedSeg d g then d
      else blockCheck { d with pair := { d.pair with prints := tput (fun _ => 2 ^ 32) d.pair.prints (blockKey g j) e.2.2.toNat } } g j) d)

/-- BLOCK_REQUEST (R328): the leader sends the blocks it holds; node 0 asks for the full set of a ring, of which 2 are carried at
once. -/
def execBlockRequest (crcOk : Bool) (es : List (BitVec 8 × BitVec 8)) (s : State) : Host.Outcome State Fault Refusal :=
  pairIn crcOk s (fun d =>
    if pairRole d != 1 then d
    else es.foldl (fun d e =>
      let g := e.1.toNat
      let j := e.2.toNat
      if j = 0 then
        (if og d 0x3C01 9 = 15 && d.pair.fullServe.length < 2 && !d.pair.fullServe.contains g && g < 8 then
           { d with pair := { d.pair with fullServe := d.pair.fullServe ++ [g] } } else d)
      else match (hd d g j).rx with
        | some b => sendBlock d g j false b
        | none => d) d)

/-- BLOCK (R328): a block of the running cycle enters the follower's inputs. -/
def execBlock (crcOk : Bool) (g : Seg) (node : BitVec 8) (cycle : BitVec 32) (data : Bytes) (s : State) : Host.Outcome State Fault Refusal :=
  pairIn crcOk s (fun d =>
    let j := node.toNat
    if pairRole d != 2 || 8 ≤ g.val || !pairedSeg d g.val || cycle.toNat != d.time.k % 2 ^ 32 || d.time.kc = d.time.k ||
        data.length != 2 + nodeWinBytes (mould d g.val) j then d
    else
      let h := hd d g.val j
      let w := rd data 0 2
      let d := { d with pair := { d.pair with prints := tput (fun _ => 2 ^ 32) d.pair.prints (blockKey g.val j) (crc32c data) } }
      setHd d g.val j { h with rx := some data, replyReady := bit w 4, flags := w })

/-- EXCLUSIONS (R331): taken when they come by control instant + 0.40 us. -/
def execExclusions (crcOk : Bool) (inTime : Bool) (es : List (BitVec 8 × BitVec 8)) (s : State) : Host.Outcome State Fault Refusal :=
  pairIn crcOk s (fun d =>
    if pairRole d = 1 && inTime then
      { d with pair := { d.pair with excl := some (es.map (fun e => (e.1.toNat, e.2.toNat))) } }
    else d)

/-- Drops the block of a node from this cycle's inputs (R328). -/
def excludeBlock (d : Dev) (g j : Nat) : Dev := setHd (bump d 0x3C02 7) g j { hd d g j with rx := none }

/-- The agreed set of ring blocks at a control instant (R328, R331): the follower drops what it could not resolve and says so, the
leader drops what the follower excluded. A unit that heard nothing of its partner computes on its own set. `rings` are those whose cycle
closes. -/
def agreeBlocks (d : Dev) (rings : List Nat) : Dev :=
  let rings := rings.filter (fun g => pairedSeg d g && sending d g)
  if pairRole d = 2 && d.pair.prints.length != 0 then
    let bad := rings.flatMap (fun g => ((mouldNodes g (mould d g)).filter (fun j =>
      let fp := tget (fun _ => 2 ^ 32) d.pair.prints (blockKey g j)
      let own := (hd d g j).rx.map crc32c
      (own.isSome || fp != 2 ^ 32) && own != some fp)).map (fun j => (g, j)))
    let d := bad.foldl (fun d p => if (hd d p.1 p.2).rx.isSome then excludeBlock d p.1 p.2 else bump d 0x3C02 7) d
    let ex := bad.filter (fun p => tget (fun _ => 2 ^ 32) d.pair.prints (blockKey p.1 p.2) != 2 ^ 32)
    sendPair d 5 (leBytes 2 ex.length ++ ex.flatMap (fun p => leBytes 1 p.1 ++ leBytes 1 p.2))
  else if pairRole d = 1 then
    (match d.pair.excl with
     | some es => es.foldl (fun d p => if rings.contains p.1 && (hd d p.1 p.2).rx.isSome then excludeBlock d p.1 p.2 else d) d
     | none => d)
  else d

/-- A ring cycle of these rings begins: what the pair said of the last one's blocks, and its send decisions, are done with. -/
def forgetBlocks (d : Dev) (rings : List Nat) : Dev :=
  let old (k : Nat) : Bool := rings.contains (k / 256)
  { d with pair := { d.pair with prints := d.pair.prints.filter (fun p => !old p.1), requested := d.pair.requested.filter (fun k => !old k),
                                 excl := d.pair.excl.map (fun es => es.filter (fun p => !rings.contains p.1)),
                                 decided := d.pair.decided.filter (fun p => !rings.contains (p.1 / 2)) } }

/-- FIELD_FRAME_MESSAGE (R329): the partner's copy of a node frame, which stands when it is the leader's or when there is no own copy;
its deviation is that of the pair the partner receives. -/
def execFieldFrameMessage (crcOk : Bool) (l : Line) (k : FNode) (hdr : BitVec 8) (dev : BitVec 16) (body : Bytes) (s : State) :
    Host.Outcome State Fault Refusal :=
  pairIn crcOk s (fun d =>
    let g := lseg l.val
    let h := hd d g k.val
    let kind := bits hdr.toNat 5 2
    let waited := bit hdr.toNat 3
    let v := dev.toInt
    if pairState d = 0 || !pairedSeg d g || !sending d g || !linePresent (mould d g) k.val || hdr.toNat % 8 != segCycle d g % 8 then d
    else
      let d := noteDeviation d g k.val (3 - receivingPair d l.val) v waited
      if frameClass v = .out then d
      else if kind = 0 then
        (if body.length = 4 && (h.slot.isNone || pairRole d = 2) then takeSlot d g k.val (bit hdr.toNat 4) body else d)
      else if kind = 1 && body.length = 32 && (h.riser.isNone || pairRole d = 2) then
        setHd d g k.val { hd d g k.val with riser := some body }
      else d)

/-- LOCAL_INPUTS (R330): the follower takes the leader's pulse-input states. -/
def execLocalInputs (crcOk : Bool) (es : List PulseImage) (s : State) : Host.Outcome State Fault Refusal :=
  pairIn crcOk s (fun d =>
    if pairRole d != 2 then d
    else es.foldl (fun d e =>
      let o := 0x3D10 + e.num.val
      os (os (os (os (os (setPls d e.num.val e.st) o 1 e.pe.toNat) o 2 e.te.toNat) o 3 e.vrep.toNat) o 4 e.status.toNat) o 5 e.tooth.toNat) d)

/-- The leader's pulse-input states at the control instant (R326 type 0x08). -/
def sendLocal (d : Dev) : Dev :=
  if pairRole d != 1 then d
  else
    let on := (List.range 16).filter (fun i => og d (0x3D00 + i) 1 = 1)
    if on.length = 0 then d
    else sendPair d 8 (on.flatMap (fun i =>
      leBytes 1 i ++ leBytes 8 (og d (0x3D10 + i) 1) ++ leBytes 14 (og d (0x3D10 + i) 2) ++ leBytes 4 (og d (0x3D10 + i) 3) ++
      leBytes 2 (og d (0x3D10 + i) 4) ++ leBytes 2 (og d (0x3D10 + i) 5)))

/-- FORWARD (R330): the partner's item. The leader assigns its cycle and sends it on; the follower keeps the leader's. -/
def execForward (crcOk : Bool) (item : FwdItem) (len : BitVec 32) (ke : Option (BitVec 64)) (s : State) : Host.Outcome State Fault Refusal :=
  pairIn crcOk s (fun d =>
    if pairState d = 0 || !pairUp d then d
    else match ke with
      | some k => { d with pair := { d.pair with items := d.pair.items ++ [(k.toNat, item)] } }
      | none =>
        if pairRole d = 1 then
          let k := forwardCycle d len.toNat
          sendPair { d with pair := { d.pair with items := d.pair.items ++ [(k, item)] } } 9 (leBytes 8 k ++ item.encode)
        else d)

/-! Digests (R331, R332). -/

/-- The input digest of the running cycle (R331): agreed blocks, the node frames behind what the lines publish in it, and the items applied. -/
def inputDigest (d : Dev) : Nat :=
  let blocks := (pairedSegs d).flatMap (fun g => if g < 8 then (headsOf d g).flatMap (fun p => p.2.rx.getD []) else [])
  crc64 (blocks ++ d.pair.fieldIn.flatMap (·.2) ++ d.pair.applied)

/-- The output digest of the running cycle. -/
def outputDigest (d : Dev) : Nat :=
  let segs := (pairedSegs d).flatMap (fun g =>
    if g < 8 then (List.range (mouldN g (mould d g))).flatMap (fun i => let w := downBlock d g (i + 1) false none; w.1 ++ w.2)
    else (seg d g).area)
  let fed (n m : Nat) : Bool := og d (0x3D40 + m) 1 = 1 && (og d (0x3D40 + m) 2 = 1 || og d (0x3D40 + m) 2 = 2) && og d (0x3D40 + m) 3 = n
  let axes := (boundAxes d.objs).flatMap (fun n => leBytes 8 (og d (ax n 0x36) 6) ++
    ((List.range 8).filter (fed n)).flatMap (fun m => leBytes 8 (og d (0x3D48 + m) 2)) ++ leBytes 1 (axState d n))
  crc64 (segs ++ axes ++ leBytes 1 (mode d))

/-- The states that compare digests (R332). -/
def compares (st : Nat) : Bool := st = 2 || st = 5 || st = 6 || st = 7

/-- A divergence in cycle k (R323, R332). -/
def diverge (d : Dev) (k : Nat) : Dev :=
  let d := later (os (bump d 0x3C02 1) 0x3C01 0x0C k) 160 0 (k % 2 ^ 32)
  let st := pairState d
  if st = 5 || st = 6 then startTransfer d
  else if st = 7 && og d 0x3C01 3 < og d 0x3C01 5 then { d with pair := { d.pair with dropAt := some (k + 2), dropTo := 4 } }
  else d

/-- Compares the digests of cycle k once both are there; equal ones count toward In step (R323, R332). -/
def compareDigests (d : Dev) (k : Nat) : Dev :=
  match d.pair.mine.find? (fun p => p.1 = k), d.pair.theirs.find? (fun p => p.1 = k) with
  | some a, some b =>
    let d := { d with pair := { d.pair with mine := d.pair.mine.filter (fun p => k < p.1), theirs := d.pair.theirs.filter (fun p => k < p.1) } }
    if !compares (pairState d) then d
    else if a.2 = b.2 then (if pairState d = 5 then os d 0x3C01 7 (min 1024 (og d 0x3C01 7 + 1)) else d)
    else diverge d k
  | _, _ => d

/-- The unit's own digests at the end of a control phase (R326 type 0x06, R332). -/
def formDigests (d : Dev) : Dev :=
  let k := d.time.k
  let i := inputDigest d
  let o := outputDigest d
  let d := { d with pair := { d.pair with mine := (d.pair.mine ++ [(k, i, o)]).drop (d.pair.mine.length - 3), applied := [], fieldIn := [] } }
  compareDigests (sendPair d 6 (leBytes 8 i ++ leBytes 8 o)) k

/-- DIGESTS (R332). -/
def execDigests (crcOk : Bool) (cycle : BitVec 32) (inp outp : BitVec 64) (s : State) : Host.Outcome State Fault Refusal :=
  pairIn crcOk s (fun d =>
    if pairState d = 0 then d
    else
      let k := d.time.k / 2 ^ 32 * 2 ^ 32 + cycle.toNat
      let d := { d with pair := { d.pair with theirs := (d.pair.theirs ++ [(k, inp.toNat, outp.toNat)]).drop (d.pair.theirs.length - 3) } }
      compareDigests d k)

/-- IN_STEP_COUNT_REACHED (R323): 1,024 equal digests; the takeover is announced for cycle k + 16. -/
def execInStepCountReached (s : State) : Host.Outcome State Fault Refusal :=
  .next (upd s (fun d =>
    if pairState d = 5 && 1024 ≤ og d 0x3C01 7 then announceCycle (setPairState d 6) (d.time.k + 16) (baseClaim d) else d))

/-! State transfer (R333). -/

/-- The object values of a range of indexes that belong to the state a unit carries: no counters. -/
def unitObjs (d : Dev) (lo hi : Nat) : List (Nat × Nat) :=
  d.objs.filter (fun p => lo ≤ p.1 / 256 && p.1 / 256 < hi && !isCounter (p.1 / 256) (p.1 % 256))
/-- Replaces them. -/
def putUnitObjs (d : Dev) (lo hi : Nat) (os' : List (Nat × Nat)) : Dev :=
  let d := { d with objs := d.objs.filter (fun p => !(lo ≤ p.1 / 256 && p.1 / 256 < hi) || isCounter (p.1 / 256) (p.1 % 256)) }
  { d with objs := os'.foldl (fun t p => tput objDefault t p.1 p.2) d.objs }

/-- Unit u of the state: 0 device, 1-12 segments, 13-524 axes, then field nodes. -/
def stateUnit (d : Dev) (u : Nat) : StateUnit :=
  if u = 0 then .device (BitVec.ofNat 8 (mode d)) d.host.pending d.pair.items d.time.chillAt (unitObjs d 0x3510 0x3511)
  else if u < 13 then
    let g := u - 1
    .segment (Fin.ofNat 12 g) (seg d g) (if g < 8 then headsOf d g else []) (unitObjs d (sgb g) (sgb g + 0x30))
  else if u < 525 then
    let n := u - 13
    .axis (Fin.ofNat 512 n) ⟨unitObjs d (ax n 0) (ax n 0x40), mot d n, srv d n, cur d n, stp d n, chan d (og d (ax n 1) 5)⟩
  else
    let l := (u - 525) / 1024
    let k := (u - 525) % 1024
    .node (Fin.ofNat 4 l) (Fin.ofNat 1024 k) (hd d (lseg l) k) (unitObjs d (fnx l k 0) (fnx l k 3))

/-- Bytes of unit u (R333). -/
def unitSize (u : Nat) : Nat := if u = 0 then 90112 else if u < 13 then 2048 else if u < 525 then 1024 else 48

/-- The number and cycle of a unit's message go before its content, which the manual does not lay out. -/
def unitHeader (d : Dev) (u : Nat) : Bytes :=
  leBytes 1 (if u = 0 then 0 else if u < 13 then 1 else if u < 525 then 2 else 3) ++
  leBytes 2 (if u = 0 then 0 else if u < 13 then u - 1 else if u < 525 then u - 13 else u - 525) ++ leBytes 8 d.time.k

/-- Units whose digests one message carries: 10,240 bytes or less (R333). -/
def digestStep : Nat := 1279

/-- The digests of `n` units from `first` on as they stand (R326 type 0x0C). -/
def unitDigests (d : Dev) (first n : Nat) : Bytes :=
  (List.range n).flatMap (fun i => leBytes 8 (Config.unitDigest (stateUnit d (first + i))).toNat)

/-- The leader sends units at the end of a control phase, 10,240 bytes per cycle (R333). The content's layout is not stated; its length is. -/
def sendUnits : Nat → Dev → Dev
  | 0, d => d
  | fuel + 1, d =>
    match d.pair.differ with
    | [] => d
    | u :: us =>
      if 10240 < d.pair.debt + unitSize u && d.pair.debt != 0 then d
      else
        let d := { d with pair := { d.pair with differ := us, debt := d.pair.debt + unitSize u } }
        sendUnits fuel (servePair (queueLink d 0x0B false (11 + unitSize u) (unitHeader d u)))

/-- A verification round: once no unit is left to transfer, each cycle sends the next digests (R333). -/
def sendDigests (d : Dev) : Dev :=
  let u := d.pair.digestAt
  if d.pair.differ.length = 0 && u < unitCount then
    let n := min digestStep (unitCount - u)
    sendPair { d with pair := { d.pair with digestAt := u + n } } 0x0C (leBytes 2 u ++ unitDigests d u n)
  else d

/-- Whether this unit leads a state transfer: its partner is Transferring (R333). -/
def leadsTransfer (d : Dev) : Bool := pairRole d = 1 && og d 0x3C01 6 = 4

/-- Both units' part of the state transfer at the end of a control phase; 2 lanes carry none (R325, R333). -/
def transferStep (d : Dev) : Dev :=
  let d := { d with pair := { d.pair with debt := d.pair.debt - 10240 } }
  if og d 0x3C01 9 != 15 then d
  else if leadsTransfer d then (if d.pair.differ.length = 0 then sendDigests d else sendUnits unitCount d)
  else if pairState d = 4 then sendDigests d
  else d

/-- Installs a unit (R323, R330, R333). A segment's state is taken from Integrating on. -/
def installUnit (d : Dev) (u : StateUnit) : Dev :=
  match u with
  | .device m pend items chill objs =>
    let d := { d with host := { d.host with pending := pend }, pair := { d.pair with items := items }, time := { d.time with chillAt := chill } }
    let d := putUnitObjs d 0x3510 0x3511 objs
    if m.toNat != mode d && 2 ≤ m.toNat && m.toNat ≤ 4 then enterMode d m.toNat 1 none else d
  | .segment g st nodes objs =>
    if segState d g.val < 2 then d
    else
      let role := og d (sgb g.val) 3
      let d := setSeg d g.val { st with lead := (seg d g.val).lead }
      let d := nodes.foldl (fun d p => setHd d g.val p.1 p.2) d
      os (putUnitObjs d (sgb g.val) (sgb g.val + 0x30) objs) (sgb g.val) 3 role
  | .axis n a =>
    let d := setStp (setCur (setSrv (setMot d n.val a.motion) n.val a.servo) n.val a.current) n.val a.stepper
    let d := putUnitObjs d (ax n.val 0) (ax n.val 0x40) a.objs
    if og d (ax n.val 1) 1 = 5 then setChan d (og d (ax n.val 1) 5) a.chan else d
  | .node l k h objs => putUnitObjs (setHd d (lseg l.val) k.val h) (fnx l.val k.val 0) (fnx l.val k.val 3) objs

/-- The number of a unit. -/
def unitNumber : StateUnit → Nat
  | .device _ _ _ _ _ => 0
  | .segment g _ _ _ => 1 + g.val
  | .axis n _ => 13 + n.val
  | .node l k _ _ => 525 + 1024 * l.val + k.val

/-- STATE_UNIT (R333). -/
def execStateUnit (crcOk : Bool) (u : StateUnit) (s : State) : Host.Outcome State Fault Refusal :=
  pairIn crcOk s (fun d =>
    if pairState d != 4 then d
    else
      let d := installUnit d u
      let df := d.pair.differ.filter (· != unitNumber u)
      os { d with pair := { d.pair with differ := df } } 0x3C01 0x0D df.length)

/-- A verification round ends (R323, R333): units that differ are transferred again, none takes a Transferring unit to Verifying. -/
def endRound (d : Dev) : Dev :=
  let df := d.pair.found
  let d := { d with pair := { d.pair with differ := df, found := [], checked := 0, digestAt := if df.length = 0 then unitCount else 0 } }
  if pairState d != 4 then d
  else
    let d := os d 0x3C01 0x0D df.length
    if df.length = 0 then setPairState (os (bump d 0x3C02 4) 0x3C01 7 0) 5 else d

/-- STATE_DIGESTS (R323, R333): both units compare the partner's digests with their own. -/
def execStateDigests (crcOk : Bool) (first : BitVec 16) (ds : List (BitVec 64)) (s : State) : Host.Outcome State Fault Refusal :=
  pairIn crcOk s (fun d =>
    if !(pairState d = 4 || leadsTransfer d) || d.pair.differ.length != 0 then d
    else
      let bad := ((ds.zipIdx).filter (fun p => Config.unitDigest (stateUnit d (first.toNat + p.2)) != p.1)).map (fun p => first.toNat + p.2)
      let n := d.pair.checked + ds.length
      let d := { d with pair := { d.pair with found := d.pair.found ++ bad, checked := n } }
      if unitCount ≤ n then endRound d else d)

/-- STATE_TRANSFER_TIMEOUT (R323): 31,250 base cycles without completion. -/
def execStateTransferTimeout (s : State) : Host.Outcome State Fault Refusal :=
  .next (upd s (fun d =>
    if pairState d = 4 && d.pair.startedAt + 31250 ≤ d.time.k then setPairState (later (bump d 0x3C02 5) 162 0 0) 3 else d))

/-! Takeover. -/

/-- ANNOUNCE (R326, R335): the partner's takeover or release cycle, or 0 to withdraw it. -/
def execAnnounce (crcOk : Bool) (cycle : BitVec 64) (claim : BitVec 8) (s : State) : Host.Outcome State Fault Refusal :=
  pairIn crcOk s (fun d =>
    if pairState d = 0 || !pairUp d then d
    else if cycle = 0 then (if pairState d = 6 then d else noAnnounce d)
    else if pairState d = 2 || pairState d = 7 then
      os { d with pair := { d.pair with announced := some (cycle.toNat, claim.toNat + 256) } } 0x3C01 8 cycle.toNat
    else d)

/-- TAKEOVER_CYCLE (R323, R335, R342): an announced cycle begins. Values above 255 mark the partner's announcement: its takeover takes
this unit In step. -/
def execTakeoverCycle (s : State) : Host.Outcome State Fault Refusal :=
  .next (upd s (fun d =>
    match d.pair.announced with
    | none => d
    | some (k, c) =>
      if d.time.k + 1 < k then d
      else
        let d := noAnnounce d
        let st := pairState d
        if 256 ≤ c then
          (if c = 256 then os d 0x3C01 5 0 else setPairState (os d 0x3C01 5 (c - 256)) (if st = 2 then 7 else st))
        else if c = 0 then (if st = 7 || st = 2 then setPairState d 3 else d)
        else if st = 6 then
          let d := setPairState d 7
          if og d 0x3C01 4 < baseClaim d then bump d 0x3C02 3 else d
        else d))

/-- The arrival offset a_c of channel c of ring g in units of 0.8 ns (R318): the rounded mean of the last 16, and before 16 came the delay
from the head (R211). -/
def arrivalMean (d : Dev) (g : Nat) (c : Chan) : Nat :=
  let l := tget (fun _ => []) d.pair.arrivals (2 * g + (if c = .b then 1 else 0))
  if l.length < 16 then (headDelay d g c * 10 + 8) / 16 else (2 * l.sum + 16) / 32

/-- Notes how a ring channel was decided in this ring cycle. -/
def noteDecision (d : Dev) (key : Nat) (own : Bool) : Dev := { d with pair := { d.pair with decided := d.pair.decided ++ [(key, own)] } }

/-- PARTNER_SEND_DECISION (R185, R318, R322): a unit that does not originate from the head position decides a channel of a ring cycle: it
passes the frame whose header came in time, or sends its own. `hdr` is the claim of a header with a good CRC that has completed by
t0 + a_c + 256 ns, `arrival` the frame's SOF offset in units of 0.8 ns. A unit with claim 0 passes every frame; a frame that comes after the
decision is discarded. -/
def execPartnerSendDecision (r : Ring) (c : Chan) (hdr : Option (BitVec 8)) (arrival : BitVec 32) (s : State) :
    Host.Outcome State Fault Refusal :=
  .next (upd s (fun d =>
    let g := r.val
    let key := 2 * g + (if c = .b then 1 else 0)
    let own := if sending d g then frameClaim d g else 0
    if !pairedSeg d g || !ready d (18 + g) || (headPosition d g && own != 0) || d.pair.decided.any (fun p => p.1 = key) then d
    else
      match hdr with
      | some cl =>
        let l := tget (fun _ => []) d.pair.arrivals key ++ [arrival.toNat]
        let d := { d with pair := { d.pair with arrivals := tput (fun _ => []) d.pair.arrivals key (l.drop (l.length - 16)) } }
        if own = 0 || own < cl.toNat then
          let d := emit (noteDecision d key false) (.passed g c)
          if pairState d != 0 && frameClaim d g < cl.toNat then dropOutputs d else d
        else takeOutputs (noteDecision (sendRing d g (d.time.kt = d.time.k) (some c) (sentInPlace d g)) key true)
      | none =>
        if own = 0 then d
        else takeOutputs (noteDecision (sendRing d g (d.time.kt = d.time.k) (some c) (sentInPlace d g)) key true)))

/-- Whether a follower is not synchronised on a ring (R177, R328): it still integrates, or neither receiver is synchronised. -/
def outOfSync (d : Dev) (g : Nat) : Bool := segState d g = 2 || (og d (sgb g + 0x30) 1 = 0 && og d (sgb g + 0x30) 2 = 0)

/-- What the pair does at a base cycle boundary (R317, R323, R327, R328, R332, R335): a claim dropped, health, the start of a transfer,
claims and role, full sets asked for, the beacon and the delay exchange; what waits for the link leaves in class order. -/
def pairBoundary (d : Dev) : Dev :=
  if !ready d 31 then d
  else
    let d := forgetBlocks { d with pair := { d.pair with beaconIn := false, used := 0, usedFwd := 0 } } (List.range 8)
    let d := { d with pair := { d.pair with excl := none } }
    let d := match d.pair.dropAt with
      | some k =>
        if k ≤ d.time.k then
          let d := { d with pair := { d.pair with dropAt := none } }
          if pairState d = 7 then (if d.pair.dropTo = 4 then startTransfer d else setPairState d 3)
          else if pairState d = 2 then { d with pair := { d.pair with dropped := true } } else d
        else d
      | none => d
    let d := if !healthy d && (pairState d = 6 || pairState d = 7) then setPairState (withdraw d) 3 else d
    let d := if pairState d = 3 && healthy d && og d 0x3C01 9 = 15 && (pairedSegs d).all (fun g => 2 ≤ segState d g && segState d g ≤ 4) then startTransfer d else d
    let d := if pairState d != 2 then { d with pair := { d.pair with dropped := false } } else d
    let d := settleClaims d
    let ask := if pairRole d = 2 then (pairedSegs d).filter (fun g => g < 8 && sending d g && outOfSync d g && !d.pair.fullSets.contains g) else []
    let d := if ask.length = 0 then d
      else if 2 < d.pair.fullSets.length + ask.length then os { d with pair := { d.pair with dropped := true } } 0x3C01 3 0
      else queueLink { d with pair := { d.pair with fullSets := d.pair.fullSets ++ ask } } 3 false (2 * ask.length)
        (ask.flatMap (fun g => leBytes 1 g ++ leBytes 1 0))
    servePair (sendDelay (sendBeacon d))

end Sys2Proof.Machine
end

