-- ==== Sys2Proof/Machine/Time.lean ====
section
/-! DEFINITION. The steps of the time unit (R269-R288): PTP domains, the sources of segment time, captures and triggers. -/
namespace Sys2Proof.Machine

/-- Order of ranks: comparison data sets in their comparison order (R278). -/
def rankLt : List Nat → List Nat → Bool
  | [], [] => false
  | [], _ :: _ => true
  | _ :: _, [] => false
  | a :: as, b :: bs => if a = b then rankLt as bs else a < b

/-- The better of two masters: by data set, on equal data the lower port (R278). -/
def betterMaster (a b : Master) : Bool :=
  if a.rank = b.rank then a.port < b.port else rankLt a.rank b.rank

/-- The best master of a list. -/
def bestMaster : List Master → Option Master
  | [] => none
  | m :: ms =>
    match bestMaster ms with
    | none => some m
    | some b => if betterMaster b m then some b else some m

/-- The status objects that name the master in use (R287). -/
def showMaster (d : Dev) (n : Nat) (m : Master) : Dev :=
  let o := 0x3428 + n
  os (os (osi 16 (os (obs d o 2 (leBytes 8 m.ident).reverse) o 3 (m.port + 1)) o 7 (sgn 16 m.utc)) o 8 m.scale) o 9 m.steps

/-- Whether domain n hears PTP messages on a transport: layer 2, or UDP over IPv4 (R278, R287, R484). -/
def hearsPtp (d : Dev) (n : Nat) (udp : Bool) : Bool :=
  ready d 30 && domState d n != 0 && bit (og d (0x3420 + n) 4) (if udp then 1 else 0)

/-- PTP_ANNOUNCE (R278, R279). The best master heard is selected; a change of grandmaster takes a Locked domain to
Acquiring. -/
def execPtpAnnounce (n : Dom) (p : Port) (udp : Bool) (rank : List (BitVec 16)) (ident : BitVec 64) (utc : BitVec 16) (arb : Bool)
    (steps : BitVec 16) (s : State) : Host.Outcome State Fault Refusal :=
  .next (upd s (fun d =>
    let c := 0x3420 + n.val
    if !hearsPtp d n.val udp || !ready d 4 || !bit (og d c 3) p.val then d
    else
      let m : Master := ⟨rank.map BitVec.toNat, ident.toNat, p.val, utc.toNat, b2n arb, steps.toNat, udp⟩
      let x := dom d n.val
      let heard := x.heard.filter (fun h => !(h.port = m.port && h.ident = m.ident)) ++ [m]
      match bestMaster heard with
      | none => d
      | some b =>
        let d := showMaster (setDom d n.val { x with heard := heard, best := some b }) n.val b
        let changed := match x.best with
          | some o => o.ident != b.ident
          | none => false
        if changed && domState d n.val = 3 then
          setDomState (setDom (bump d (0x3428 + n.val) 0x0B) n.val { dom d n.val with good := 0, bad := 0, offsets := [] }) n.val 2
        else d))

/-- Mean path delay of a domain in units of 2^-16 ns. -/
def pathDelay (d : Dev) (n : Nat) : Int := ogi 64 d (0x3428 + n) 5

/-- PTP_SYNC (R273, R279, R280): a Sync with the master's corrected origin time `t1` arrives `dg` grid points after the last
event; the arrival is stamped at its 8 ns tick. -/
def execPtpSync (n : Dom) (udp : Bool) (t1 : BitVec 112) (dg : BitVec 32) (s : State) : Host.Outcome State Fault Refusal :=
  .next (upd s (fun d =>
    let d := advance d dg.toNat
    let n := n.val
    let c := 0x3420 + n
    let o := 0x3428 + n
    let st := domState d n
    let x := dom d n
    if !hearsPtp d n udp || x.best.isNone || !ready d 4 then d
    else
      let back := d.time.grid % 10 * domStep d n
      let q : Int := 10 * 2 ^ 24
      let t2 : Int := (x.clock : Int) - back
      let corr := pathDelay d n + ogi 32 d c 9 * 65536
      let off := t2 - (unitsOf t1.toNat : Int) - corr * q
      let show_ (d : Dev) : Dev := osi 64 d o 4 (satInt 64 (ratRoundEven (mkRat off (10 * 2 ^ 24))))
      if st = 1 || st = 4 then
        let v := ((unitsOf t1.toNat : Int) + corr * q + back).toNat
        let d := setDom (show_ d) n { x with clock := v, offsets := [], good := 0, bad := 0 }
        baseStepped (setDomState d n 2) (2 + n)
      else
        let d := show_ d
        let a : Int := off.natAbs
        let lock : Int := og d c 7 * unitNs
        if st = 2 && decide ((og d c 8 * unitNs : Nat) < a) then
          let d := bump (setDom d n { x with clock := ((x.clock : Int) - off).toNat, offsets := [], good := 0 }) o 0x0A
          baseStepped d (2 + n)
        else
          let offs := ratRoundEven (mkRat off (10 * 2 ^ 24)) :: x.offsets
          let y := Config.ptpSteer offs (ogf d c 6)
          let d := osf d o 6 y
          if st = 2 then
            let g := if decide (a ≤ lock) then x.good + 1 else 0
            let d := setDom d n { x with offsets := offs, good := g, bad := 0 }
            segServo (if 16 ≤ g then setDomState d n 3 else d) n
          else
            let b := if decide (4 * lock < a) then x.bad + 1 else 0
            let d := setDom d n { x with offsets := offs, bad := b }
            if 4 ≤ b || decide (f32ToRat (ogf d c 0x0A) < ratAbs (f32ToRat y)) then
              setDomState (bump (setDom d n { x with offsets := offs, good := 0, bad := 0 }) o 0x0B) n 2
            else segServo d n))

/-- PTP_DELAY_RESPONSE (R279): the mean path delay, in units of 2^-16 ns. -/
def execPtpDelayResponse (n : Dom) (udp : Bool) (delay : BitVec 64) (s : State) : Host.Outcome State Fault Refusal :=
  .next (upd s (fun d => if !hearsPtp d n.val udp then d else osi 64 d (0x3428 + n.val) 5 delay.toInt))

/-- PTP_TIMEOUT (R276, R279). -/
def execPtpTimeout (n : Dom) (s : State) : Host.Outcome State Fault Refusal :=
  .next (upd s (fun d => domHoldover d n.val))

/-! The messages sent have the layout of IEEE 1588-2019, which the rules name (PRESUMED, log 91): big-endian. -/

/-- The port identity of a port: the clock identity, an EUI-64 of the base MAC address, and the port number. -/
def portIdentity (p : Nat) : Bytes :=
  let m := beBytes 6 Config.mac.toNat
  m.take 3 ++ [0xFF, 0xFE] ++ m.drop 3 ++ beBytes 2 (p + 1)

/-- A time of a domain clock in units of 2^-16 ns. -/
def clockUnits (u : Nat) : Nat := (ratRoundEven (mkRat u (10 * 2 ^ 24))).toNat
/-- A PTP timestamp: whole seconds and nanoseconds. -/
def ptpStamp (u : Nat) : Bytes := beBytes 6 (u / 65536 / 1000000000) ++ beBytes 4 (u / 65536 % 1000000000)

/-- A PTP message: type, flags, correction in units of 2^-16 ns, sequence, control field and body. -/
def ptpMessage (domain p typ flags corr seq ctl : Nat) (body : Bytes) : Bytes :=
  beBytes 1 typ ++ [0x12] ++ beBytes 2 (34 + body.length) ++ beBytes 1 domain ++ [0] ++ beBytes 2 flags ++ beBytes 8 corr ++
    List.replicate 4 0 ++ portIdentity p ++ beBytes 2 seq ++ beBytes 1 ctl ++ [0x7F] ++ body

/-- A PTP message leaves a port on a transport (R484): over UDP after destination address and port, 319 for event messages and 320 for
general ones; on layer 2 after the destination MAC address. -/
def ptpEmit (d : Dev) (p : Nat) (udp peer event : Bool) (m : Bytes) : Dev :=
  let port := Fin.ofNat 2 p
  if udp then emit d (.ether port 17 ((if peer then [224, 0, 0, 107] else [224, 0, 1, 129]) ++ beBytes 2 (if event then 319 else 320) ++ m))
  else emit d (.ether port 0x88F7 (beBytes 6 (if peer then 0x0180C200000E else 0x011B19000000) ++ m))

/-- The next sequence number of domain n for a message type on a port. -/
def ptpSeq (d : Dev) (n p typ : Nat) : Nat × Dev :=
  let x := dom d n
  let k := p * 16 + typ
  let q := tget (fun _ => 0) x.sent k
  (q, setDom d n { x with sent := tput (fun _ => 0) x.sent k ((q + 1) % 65536) })

/-- DELAY_REQ_SEND (R278): with end-to-end delay, on the master's port and transport. -/
def execDelayReqSend (n : Dom) (s : State) : Host.Outcome State Fault Refusal :=
  .next (upd s (fun d =>
    let x := dom d n.val
    match x.best with
    | some m =>
      if og d (0x3420 + n.val) 5 = 0 && domValid d n.val && domState d n.val != 4 && hearsPtp d n.val m.udp then
        let q := ptpSeq d n.val m.port 1
        ptpEmit q.2 m.port m.udp false true
          (ptpMessage (og d (0x3420 + n.val) 2) m.port 1 0 0 q.1 1 (ptpStamp (clockUnits x.clock)))
      else d
    | none => d))

/-- PDELAY_REQ_SEND (R278): with peer-to-peer delay, on each enabled port, over each transport of the domain. -/
def execPdelayReqSend (n : Dom) (p : Port) (s : State) : Host.Outcome State Fault Refusal :=
  .next (upd s (fun d =>
    let c := 0x3420 + n.val
    if og d c 5 = 1 && domState d n.val != 0 && bit (og d c 3) p.val && ready d 30 then
      let q := ptpSeq d n.val p.val 2
      let m := ptpMessage (og d c 2) p.val 2 0 0 q.1 5 (ptpStamp (clockUnits (dom d n.val).clock) ++ List.replicate 10 0)
      let send (d : Dev) (udp : Bool) : Dev := if hearsPtp d n.val udp then ptpEmit d p.val udp true true m else d
      send (send q.2 false) true
    else d))

/-- PDELAY_REQ_RECEIVED (R278, R279, R484): with peer-to-peer delay, a request of the domain (its header from `msg`) that arrives `dg` grid points after
the last event is answered on its transport by Pdelay_Resp and its follow-up. The answer leaves a free time later (log 3). -/
def execPdelayReqReceived (n : Dom) (p : Port) (udp : Bool) (dg : BitVec 32) (msg : Bytes) (s : State) : Host.Outcome State Fault Refusal :=
  .next (upd s (fun d =>
    let d := advance d dg.toNat
    let c := 0x3420 + n.val
    if og d c 5 = 1 && hearsPtp d n.val udp && bit (og d c 3) p.val && rd msg 4 1 = og d c 2 then
      let back := d.time.grid % 10 * domStep d n.val
      let t2 := clockUnits ((dom d n.val).clock - back)
      let r := freeVal d 16
      let t3 := clockUnits ((dom d n.val).clock - back + 10 * r.1 * domStep d n.val)
      let seq := ofLe (slice msg 30 2).reverse
      let asked := ofLe (slice msg 8 8).reverse
      let who := slice msg 20 10
      let f (t : Nat) : Nat := t % 65536
      let a := ptpMessage (og d c 2) p.val 3 0x0200 (2 ^ 64 - f t2) seq 5 (ptpStamp t2 ++ who)
      let b := ptpMessage (og d c 2) p.val 0x0A 0 ((asked + f t3) % 2 ^ 64) seq 5 (ptpStamp t3 ++ who)
      ptpEmit (ptpEmit r.2 p.val udp true true a) p.val udp true false b
    else d))

/-- ALIGNMENT_HOLD_END (R274): segment time steps to the Locked source, or the hold has run out. -/
def execAlignmentHoldEnd (s : State) : Host.Outcome State Fault Refusal :=
  .next (upd s (fun d =>
    if !d.time.hold then d
    else
      let src := og d 0x3410 6
      let d := { d with time := { d.time with hold := false } }
      if (src = 1 || src = 2) && domState d (src - 1) = 3 then stepSegTime d (src - 1) else segStatus d 6 true))

/-- SOURCE_RELOCKED (R276): the configured source has been Locked for 60 s without interruption. -/
def execSourceRelocked (s : State) : Host.Outcome State Fault Refusal :=
  .next (upd s (fun d =>
    let src := og d 0x3410 1
    if (src = 1 || src = 2) && domState d (src - 1) = 3 && og d 0x3410 6 != src && !followsTime d then switchSource d src else d))

/-- The source of segment time in force follows its object at a control instant (R34, R276): after a write, or where the value has changed.
A source already active stays; so does that of a unit that follows another head's time (R277). -/
def followSource (d : Dev) (old : Nat) : Dev :=
  let new := og d 0x3410 1
  let wrote := d.time.srcWrite || new != old
  let d := { d with time := { d.time with srcWrite := false } }
  if wrote && og d 0x3410 6 != new && !followsTime d then switchSource d new else d

/-- An accepted write of the source of segment time. -/
def sourceWritten (d : Dev) (v : Nat) : Dev := os { d with time := { d.time with srcWrite := true } } 0x3410 1 v

/-- TIME_SOURCE_WRITE (R276, R286): the write; it takes effect at the next control instant. -/
def execTimeSourceWrite (v : BitVec 8) (s : State) : Host.Outcome State Fault Refusal :=
  .next (upd s (fun d =>
    match writeNum d 0x3410 1 v.toNat with
    | (d, .ok) => answer (sourceWritten d v.toNat) .ok
    | (d, st) => answer d st))

/-- The realign command (R275). -/
def realign (d : Dev) : Dev × Status :=
  if !ready d 4 then (d, .notReady)
  else
    let src := og d 0x3410 6
    if (List.range 12).all (fun g => segState d g = 0) && (src = 1 || src = 2) && domState d (src - 1) = 3 then
      (stepSegTime (log d 2 3 0) (src - 1), .ok)
    else (d, .state)

/-- REALIGN (R275). -/
def execRealign (s : State) : Host.Outcome State Fault Refusal :=
  .next (upd s (fun d => let (d, st) := realign d; answer d st))

/-- CAPTURE_EVENT (R280, R281): an event of the unit's source `dg` grid points after the last event. -/
def execCaptureEvent (u : Fin 8) (dg : BitVec 32) (s : State) : Host.Outcome State Fault Refusal :=
  .next (upd s (fun d =>
    let d := advance d dg.toNat
    let o := 0x3440 + u.val
    if !ready d 4 || og d o 1 = 0 || og d o 2 / 2 ^ 24 = 0 then d
    else
      let cont := og d o 3 = 1
      let d := if cont && bit d.time.capHeld u.val then bump d o 6 else d
      let d := bump d o 5
      let d := os (os (os (os d o 7 (baseTime d 0)) o 8 (baseTime d 1)) o 9 (baseTime d 2)) o 0x0A (baseTime d 3)
      let d := os d o 4 (b2n (domValid d 0 && domValid d 1) + 2)
      let d := { d with time := { d.time with capHeld := setBit d.time.capHeld u.val true } }
      if cont then d else os d o 1 0))

/-- CAPTURE_ARM (R281): a write of Enable. -/
def execCaptureArm (u : Fin 8) (on : Bool) (s : State) : Host.Outcome State Fault Refusal :=
  .next (upd s (fun d => let (d, st) := writeNum d (0x3440 + u.val) 1 (b2n on); answer d st))

/-- TIME_TRIGGER_FIRE (R282, R283): the trigger's base reaches its next instant before the next base cycle starts. -/
def execTimeTriggerFire (u : Fin 4) (s : State) : Host.Outcome State Fault Refusal :=
  .next (upd s (fun d =>
    let o := 0x3450 + u.val
    let b := og d o 2
    if !ready d 4 || og d o 1 = 0 then d
    else
      match baseVal d b with
      | none => d
      | some v =>
        let step := if b = 0 then 8 * 2 ^ 40 else if b = 1 then segStep d else domStep d (b - 2)
        let g := gridTo v (trigNext d u.val * (10 * 2 ^ 24)) step
        let e := advance d g
        if (d.time.k + 1) * unitCycle < e.time.seg then d
        else trigFire e u.val ((baseVal e b).getD v) false))

/-- A write of a trigger's instant or enable (R282). -/
def triggerWrite (d : Dev) (u sub v : Nat) : Dev × Status :=
  let o := 0x3450 + u
  match writeStatus d o sub v with
  | .ok =>
    if sub = 3 then
      (match baseVal d (og d o 2) with
       | some x => if unitsOf v < x then (d, .range) else (setTrigNext (os d o 3 v) u (timeUnits v), .ok)
       | none => (setTrigNext (os d o 3 v) u (timeUnits v), .ok))
    else if sub = 1 && v = 1 then (setTrigNext (os d o 1 1) u (timeUnits (og d o 3)), .ok)
    else (os d o sub v, .ok)
  | st => (d, st)

/-- TIME_TRIGGER_ENABLE (R282): a write of the instant, if given, and then of Enable. -/
def execTimeTriggerEnable (u : Fin 4) (on : Bool) (instant : Option (BitVec 112)) (s : State) : Host.Outcome State Fault Refusal :=
  .next (upd s (fun d =>
    let (d, st) := match instant with
      | some t => triggerWrite d u.val 3 t.toNat
      | none => (d, .ok)
    match st with
    | .ok => let (d, st) := triggerWrite d u.val 1 (b2n on); answer d st
    | st => answer d st))

/-- A write of a domain's configuration takes effect by passing the domain through Disabled (R287). -/
def domainWrite (d : Dev) (n sub v : Nat) : Dev × Status :=
  match writeNum d (0x3420 + n) sub v with
  | (d, .ok) => (domEnable (domDisable d n) n, .ok)
  | (d, st) => (d, st)

/-- DOMAIN_CONFIG_WRITE (R287). -/
def execDomainConfigWrite (n : Dom) (sub : BitVec 8) (v : BitVec 32) (s : State) : Host.Outcome State Fault Refusal :=
  .next (upd s (fun d => let (d, st) := domainWrite d n.val sub.toNat v.toNat; answer d st))

/-- CYCLE_POINT (R249, R250): the point's n-th occurrence has come; its notification and its pulse. -/
def execCyclePoint (i : Fin 8) (s : State) : Host.Outcome State Fault Refusal :=
  .next (upd s (fun d =>
    match tget (fun _ => none) d.time.ptDue i.val with
    | none => d
    | some (k, sg, l) =>
      let o := 0x3500 + i.val
      let d := { d with time := { d.time with ptDue := tput (fun _ => none) d.time.ptDue i.val none } }
      if !ready d 4 || og d o 1 = 0 then d
      else
        let kd := og d o 2
        let d := bump d o 6
        let d := if bit (og d o 5) 0 then pointNotify d 2 (if 3 ≤ kd && kd ≤ 5 then og d o 3 else 0) k (time112 sg) i.val kd else d
        if bit (og d o 5) 1 then tapPulse d l else d))

end Sys2Proof.Machine
end

