-- ==== Sys2Proof/Machine/Cycle.lean ====
section
/-! DEFINITION. The base cycle (R15, R16, R77, R103): its start, the control phase in its fixed order, and the tight control
instant. -/
namespace Sys2Proof.Machine

/-- The start of the next base cycle (R15, R272): time goes on to it, handed-over safety PDUs move on (R358), the pair's, the step
unit's and the emulator's boundary, then the ring frames. -/
def baseCycle (d : Dev) : Dev :=
  if !ready d 4 then advance d 40000
  else
    let k := d.time.k + 1
    let d := advanceSeg d (k * unitCycle)
    let d := { d with time := { d.time with k := k }, pdus2 := d.pdus1, pdus1 := d.pdus }
    let d := pairBoundary d
    let d := stepUnit d
    let d := (List.range 8).foldl emuCycle d
    let d := (List.range 8).foldl (fun d g => if ready d (18 + g) then ringStart d g else d) d
    occur d 1 0

/-- BASE_CYCLE_START (R15). -/
def execBaseCycleStart (s : State) : Host.Outcome State Fault Refusal := .next (upd s baseCycle)

/-! The control phase. -/

/-- The binding of axis n in a table of objects. -/
def bindingOf (t : Table Nat) (n : Nat) : List Nat := (List.range 6).map (fun i => tget objDefault t (okey (ax n 1) (i + 1)))

/-- A change of binding (R56, R58): velocity estimate and extension of positions start afresh, and the velocity is invalid; integrals and
notch states are 0, and no window is written yet. -/
def rebind (d : Dev) (n : Nat) : Dev :=
  let d := setStp (setCur (setSrv d n .reset) n .reset) n .reset
  let d := osb { d with frames := tdel n d.frames } (ax n 0x1B) 7 5 true
  os (os (os (os d (ax n 0x1B) 3 0) (ax n 0x1B) 4 0) (ax n 0x1B) 5 0) (ax n 0x1B) 6 0

/-- The values written since the last control instant take effect (R34). -/
def enforce (d : Dev) : Dev :=
  let old := d.inForce
  let d := { d with inForce := d.objs }
  let ns := (boundAxes old ++ boundAxes d.objs).eraseDups.filter (fun n => bindingOf old n != bindingOf d.inForce n)
  followSource (ns.foldl rebind d) (tget objDefault old (okey 0x3410 1))

/-- Start of the ring cycle whose windows stand for axis n at the control instant of base cycle k. -/
def ringCycleStart (d : Dev) (n k : Nat) : Int :=
  cycleStart k + (if mouldTight (mould d (cg d (ax n 1) 2)) then 16000 * nsU else 0)

/-- Positions and velocities of the previous control instant, which actual-position and pulse masters go by (R113). -/
def keepLast (d : Dev) : Dev :=
  let d := (boundAxes d.objs).foldl (fun d n =>
    setMot d n { mot d n with pPrev := if kind d n = 5 then ogi 64 d (ax n 0x36) 7 else axisPos d n, vPrev := axisVel d n }) d
  (List.range 16).foldl (fun d i =>
    if pulseOn d i then setPls d i { pls d i with pPrev := (pls d i).pExt, vPrev := ogf d (0x3D10 + i) 3 } else d) d

/-- Digital inputs of a servo axis at the control instant; an index pulse of the first tight cycle stays. -/
def baseInputs (d : Dev) (n : Nat) : Dev :=
  let m := mot d n
  let d := servoInputs d n
  if m.refFlag && mouldTight (mould d (cg d (ax n 1) 2)) && !(mot d n).refFlag then
    setMot d n { mot d n with refFlag := true, refLatch := m.refLatch }
  else d

/-- Feedback of axis n at the control instant of base cycle k (R57-R61, R96, R130, R143), and whether a ring sample was accepted. -/
def trackAxis (d : Dev) (n k : Nat) : Dev × Bool :=
  let kd := kind d n
  let tc := instantAt k
  let cs := ringCycleStart d n k
  if kd = 1 then (match fbInput d n with
    | some i => (trackPulse (baseInputs d n) n i tc, false)
    | none => let r := acceptSample d n tc cs; (trackRing (baseInputs r.1 n) n tc, r.2))
  else if kd = 2 then (let r := acceptSample d n tc cs; (trackRing (baseInputs r.1 n) n tc, r.2))
  else if kd = 3 then (stepperTrack d n cs, false)
  else if kd = 4 then (stepperTrack (loadAngle d n tc cs) n cs, false)
  else (d, false)

/-- The evaluation of axis n after its profile items (R62, R87, R132, R140). -/
def axisPhase (d : Dev) (n : Nat) (ok : Bool) : Dev :=
  let kd := kind d n
  if kd = 1 then servoPhase d n
  else if kd = 2 then currentPhase (servoPhase d n) n (axisWin d n) ok
  else if kd = 3 || kd = 4 then stepperPhase d n
  else if kd = 5 then localPhase d n
  else d

/-- The bound axes of the ready clusters, clusters and axes in ascending order (R75, R78). -/
def phaseAxes (d : Dev) : List Nat :=
  (List.range 8).flatMap (fun c => if ready d (6 + c) then (boundAxes d.objs).filter (fun n => cluster d n = c) else [])

/-- The lines that publish at the control instant of base cycle k (R19). -/
def publishing (d : Dev) (k : Nat) : List Nat :=
  (List.range 4).filter (fun l => (mould d (lseg l)).length != 0 && ready d (26 + l) && k % mouldNb (mould d (lseg l)) = 0)

/-- The direct paths fill the scratchpad of axis n's cluster (R12, R13): its window from the ring engine, the latched position and its time
from the feedback unit. The spec gives a scratchpad no layout: axis n has the 512 bytes from 512 n on (log 101). -/
def padInputs (d : Dev) (n : Nat) : Dev :=
  let d := match axisWin d n with
    | some w => padWrite d (cluster d n) (512 * n) w
    | none => d
  match fbInput d n with
  | some i => padWrite d (cluster d n) (512 * n + 256) (leBytes 8 (pat 64 (pls d i).pExt) ++ leBytes 14 (time112 (pls d i).te.toNat))
  | none => d

/-- The profile unit's references of axis n in its cluster's scratchpad (R12, R16). -/
def padRefs (d : Dev) (n : Nat) : Dev :=
  padWrite d (cluster d n) (512 * n + 384)
    (leBytes 8 (og d (ax n 0x24) 1) ++ leBytes 4 (og d (ax n 0x24) 2) ++ leBytes 4 (og d (ax n 0x24) 3))

/-- The control phase of base cycle k, its image already in force (R16, R103). -/
def controlPhase (d : Dev) : Dev :=
  let k := d.time.k
  let d := { d with time := { d.time with kc := k } }
  let d := if ready d 31 && pairState d != 0 then agreeBlocks d (List.range 8) else d
  let d := (List.range 8).foldl (fun d g => closeRing d g false) d
  let d := (publishing d k).foldl publishLine d
  let d := keepLast (enforce d)
  let d := latchRefs d k
  let d := if pairRole d = 2 && paired d then d else (List.range 16).foldl (fun d i => pulseInstant d i k) d
  let d := if ready d 31 then sendLocal d else d
  let r := (phaseAxes d).foldl (fun (a : Dev × List Nat) n => let t := trackAxis a.1 n k; (t.1, if t.2 then a.2 ++ [n] else a.2)) (d, [])
  let d := (phaseAxes r.1).foldl padInputs r.1
  let d := profilePhase d k
  let d := (phaseAxes d).foldl padRefs d
  let d := (phaseAxes d).foldl (fun d n => axisPhase d n (r.2.contains n)) d
  let d := ((phaseAxes d).filter (fun n => onRing (kind d n))).foldl freezeWindow d
  let d := (List.range 8).foldl emuUpdate d
  let d := acqInstant d false
  let d := if ready d 31 && pairState d != 0 then transferStep (formDigests d) else d
  let d := occur d 2 0
  (List.range 8).foldl (fun d g => if sending d g && mouldTight (mould d g) then occur d 4 g else d) d

/-! The tight control instant. -/

/-- Axis n of a tight ring at the tight control instant of base cycle k (R77): its sample, and the current loop of a wire-current
axis. -/
def tightAxis (d : Dev) (n k : Nat) : Dev :=
  let kd := kind d n
  let tc := cycleStart k + 12000 * nsU
  let cs := cycleStart k
  if kd = 2 then
    let r := acceptSample d n tc cs
    freezeWindow (currentPhase (servoInputs r.1 n) n (axisWin d n) r.2) n
  else if kd = 1 && (fbInput d n).isNone then servoInputs (acceptSample d n tc cs).1 n
  else if kd = 4 then loadAngle d n tc cs
  else d

/-- The tight rings that run. -/
def tightRings (d : Dev) : List Nat := (List.range 8).filter (fun g => sending d g && mouldTight (mould d g))

/-- TIGHT_CONTROL_INSTANT (R77): at t0 + 12 us, then the frame that leaves at t0 + 16 us. -/
def execTightControlInstant (s : State) : Host.Outcome State Fault Refusal :=
  .next (upd s (fun d =>
    let k := d.time.k
    if !ready d 4 || d.time.kt = k || d.time.kc = k then d
    else
      let d := advanceSeg d (k * unitCycle + 12000 * unitNs)
      let d := { d with time := { d.time with kt := k } }
      let gs := tightRings d
      let d := if ready d 31 && pairState d != 0 then forgetBlocks (agreeBlocks d gs) gs else d
      let d := gs.foldl (fun d g => closeRing d g true) d
      let d := ((phaseAxes d).filter (fun n => match axisSeg d n with | some g => gs.contains g | none => false)).foldl (fun d n => tightAxis d n k) d
      let d := acqInstant d true
      let d := gs.foldl (fun d g =>
        let d := clearWindows d g true
        if ringSends d g then sendRing d g true none false else d) d
      gs.foldl (fun d g => occur d 4 g) d))

end Sys2Proof.Machine
end

