-- ==== Sys2Proof/Machine/Dictionary.lean ====
section
/-! DEFINITION. The object dictionary as a KDA session reaches it (R23-R37, R48-R51, R474-R479): writes with their checks and effects,
reads with their derived values, mapping records and segmented transfers. -/
namespace Sys2Proof.Machine

/-! Process image mapping (R48-R51). -/

/-- The first mapping record of the image that record idx belongs to: 0x1600 host to device, 0x1A00 device to host. -/
def mapBase (idx : Nat) : Nat := if idx < 0x1800 then 0x1600 else 0x1A00
/-- The mapping records of an image with entries in force, in ascending index, each with its number of entries (R50). -/
def mapRecords (d : Dev) (base : Nat) : List (Nat × Nat) :=
  d.objs.filterMap (fun p => if okey base 0 ≤ p.1 && p.1 < okey (base + 0x200) 0 && p.1 % 256 = 0 then some (p.1 / 256, p.2) else none)
/-- Entries 1 to n of a mapping record. -/
def recordEntries (d : Dev) (idx n : Nat) : List Nat := (List.range n).map (fun i => og d idx (i + 1))
/-- The entries of an image in order (R50). -/
def imageEntries (d : Dev) (base : Nat) : List Nat := (mapRecords d base).flatMap (fun r => recordEntries d r.1 r.2)
/-- Bytes of a list of entries. -/
def entriesSize (es : List Nat) : Nat := (es.map (fun v => v % 256 / 8)).sum
/-- Size of an image in bytes. -/
def imageSize (d : Dev) (base : Nat) : Nat := entriesSize (imageEntries d base)
/-- Whether an object is mapped into the host-to-device image (R51). -/
def hostMapped (d : Dev) (idx sub : Nat) : Bool := (imageEntries d 0x1600).any (fun v => v / 256 = okey idx sub)

/-- Whether an entry may stand in a record: an existing PM object with the length of its type, writable through a session in the
host-to-device image (R49). -/
def entryOk (host : Bool) (v : Nat) : Bool :=
  match findRow (v / 65536) (v / 256 % 256) with
  | some r => r.pm && !r.ty.isBlob && v % 256 = 8 * r.ty.size && (!host || r.acc = .rw || r.acc = .wo)
  | none => false

/-- The first entry among `es`, numbered from i, that fails its checks beside the entries `before` it and in the other records
(R49, R50). -/
def entryFail (host : Bool) (before : List Nat) : Nat → List Nat → Option Nat
  | _, [] => none
  | i, v :: es =>
    if !entryOk host v || (host && before.any (fun b => b / 256 = v / 256)) ||
        decide ((if host then 16384 else 32768) < entriesSize before + v % 256 / 8) then some i
    else entryFail host (before ++ [v]) (i + 1) es

/-- The first failing entry of record idx with n entries (R49). -/
def mapFail (d : Dev) (idx n : Nat) : Option Nat :=
  let host := decide (idx < 0x1800)
  let others := ((mapRecords d (mapBase idx)).filter (fun r => r.1 != idx)).flatMap (fun r => recordEntries d r.1 r.2)
  entryFail host others 1 (recordEntries d idx n)

/-- A write of n to sub-index 0 of a mapping record (R49). -/
def mapActivate (d : Dev) (idx n : Nat) : Dev × Status :=
  if 64 < n then (d, .range)
  else if (mapFail d idx n).isSome then (d, .range)
  else (os d idx 0 n, .ok)

/-- The entry a refused activation names, 0 otherwise (R49). -/
def failedEntry (d : Dev) (idx sub n : Nat) (st : Status) : Nat :=
  if 0x1600 ≤ idx && idx < 0x1C00 && sub = 0 && n ≤ 64 && st = .range then (mapFail d idx n).getD 0 else 0

/-- MAPPING_ACTIVATE (R48, R49). -/
def execMappingActivate (idx : BitVec 16) (n : BitVec 8) (s : State) : Host.Outcome State Fault Refusal :=
  .next (upd s (fun d =>
    let i := idx.toNat
    if !(0x1600 ≤ i && i < 0x1800 || 0x1A00 ≤ i && i < 0x1C00) then answer d .noObject
    else match (admission d false i 0).1 with
    | .ok =>
      let r := agreed d i 0 [n] (mapActivate d i n.toNat)
      emit r.1 (.status (statusCode r.2) (failedEntry d i 0 n.toNat r.2))
    | st => answer d st))

/-! Writes. -/

/-- Who writes: session, whether it was opened with a set key (R474) and for safety commissioning. -/
structure Caller where
  id     : Nat
  keySet : Bool
  comm   : Bool
  deriving DecidableEq, Repr

/-- The caller of a session. -/
def Session.caller (x : Session) : Caller := ⟨x.id, x.keySet, x.comm⟩

/-- The writes a session opened with the unset key may make (R474). -/
def keyless (idx sub : Nat) : Bool :=
  (idx = 0x2F10 && sub = 1) || idx = 0x2F00 || idx = 0x2F01 || (idx = 0x2E10 && sub = 1)

/-- The outcome of an operation on the device alone. -/
def onDev (s : State) (r : Dev × Status) : State × Status := (upd s (fun _ => r.1), r.2)

/-- The segment and the offset of a segment object, if it is one (R24). -/
def segObject (idx : Nat) : Option (Nat × Nat) :=
  if 0x3000 ≤ idx && idx < 0x3200 then some ((idx - 0x3000) / 64, idx % 64)
  else if 0x3200 ≤ idx && idx < 0x3300 then some (8 + (idx - 0x3200) / 64, idx % 64)
  else none

/-- An image load command (R459, R460). -/
def imageCommand (d : Dev) (v : Nat) : Dev × Status :=
  if v = 0x6E676562 then imageBegin d
  else if v = 0x79667276 then imageVerify d
  else if v = 0x76746361 then imageActivate d
  else if v = 0x74726261 then imageAbort d
  else if v = 0x746F6F62 then imageBoot d
  else (d, .reserved)

/-- A relay command (R462, R463). -/
def relayCommand (d : Dev) (v : Nat) : Dev × Status :=
  if v = 0x74727473 then relayStart d
  else if v = 0x74726261 then (relayInterrupt d, .ok)
  else if v = 0x76746361 then relayActivate d
  else (d, .reserved)

/-- An island command (R369, R370). -/
def islandCommand (s : State) (v : Nat) : State × Status :=
  if v = 0x726F7473 then safetyStore s
  else if v = 0x74736572 then (islandStart s true, .ok)
  else (s, .range)

/-- What a number that passed its checks does beyond being stored: the objects whose write is a command or a configuration that acts
at once. -/
def storeNumber (d : Dev) (c : Caller) (idx sub v : Nat) : Dev × Status :=
  if idx = 0x2010 && sub = 1 then domainEnable d v
  else if idx = 0x3410 && sub = 0x0C then realign d
  else if idx = 0x3410 && sub = 1 then (sourceWritten d v, .ok)
  else if 0x3420 ≤ idx && idx < 0x3422 then domainWrite d (idx - 0x3420) sub v
  else if 0x3450 ≤ idx && idx < 0x3454 then triggerWrite d (idx - 0x3450) sub v
  else if idx = 0x3510 && sub = 1 then chillWrite d v
  else if 0x3610 ≤ idx && idx < 0x3650 && idx % 16 = 5 then setCommand d ((idx - 0x3610) / 16) v c.id
  else if idx = 0x3681 && sub = 4 then uploadBegin d c.id
  else if idx = 0x3811 then (latchClear d, .ok)
  else if idx = 0x3830 && sub = 1 then forceEnableWrite d (v = 1)
  else if 0x3900 ≤ idx && idx < 0x39C0 && sub = 3 then forceWrite d (idx - 0x3900) (v = 1)
  else if idx = 0x3C00 && sub = 1 then pairEnable d v
  else if idx = 0x3C03 then pairCommand d v
  else if idx = 0x3E50 && sub = 1 then fullTest d
  else
    match segObject idx with
    | some (g, o) => if o = 0 && sub = 1 then segmentRequest d g v else (os d idx sub v, .ok)
    | none =>
      if 0x8000 ≤ idx && idx % 64 = 0x21 && sub = 8 then
        let n := (idx - 0x8000) / 64
        if !ready d (6 + cluster d n) then (d, .notReady) else (setMot (os d idx sub v) n { mot d n with livePhi := some (sgn 64 v) }, .ok)
      else (os d idx sub v, .ok)

/-- A write of a number to an admitted object (R26, R37). -/
def putNumber (s : State) (c : Caller) (r : Row) (idx sub v : Nat) : State × Status :=
  let d := s.dev
  if idx = 0x2E10 && sub = 1 then (if v = 0x65766173 then onDev s (storeParams d) else (s, .reserved))
  else if idx = 0x2E11 && (sub = 1 || sub = 2) then
    (if v != 0x64616F6C then (s, .reserved) else onDev s (if sub = 1 then restoreDefaults d else reloadStored d))
  else if idx = 0x2E40 && sub = 5 then onDev s (imageCommand d v)
  else if idx = 0x2E60 && sub = 4 then onDev s (relayCommand d v)
  else if idx = 0x1021 && sub = 1 then onDev s (modeRequest d v)
  else if isCounter idx sub then counterWrite s idx sub v
  else if idx = 0x3A01 then confirmWrite s v
  else if idx = 0x3A02 then islandCommand s v
  else if idx = 0x3A24 then ({ s with isl := { s.isl with unlocks := v } }, .ok)
  else if 0x1600 ≤ idx && idx < 0x1C00 && sub = 0 then onDev s (mapActivate d idx v)
  else
    match numStatus d r idx sub v with
    | .ok => onDev s (storeNumber d c idx sub v)
    | st => (s, st)

/-- Whether every byte is printable ASCII (R26). -/
def printable (b : Bytes) : Bool := b.all (fun c => 0x20 ≤ c.toNat && c.toNat ≤ 0x7E)

/-- Whether a length lies within the bounds of a byte-string object's Range column (R26). -/
def blobLength (d : Dev) (r : Row) (idx n : Nat) : Bool :=
  if idx = 0x3A10 then n ≤ 16384
  else match segObject idx with
    | some (g, _) => 1 ≤ n && n ≤ max 1 (mouldP g (mould d g))
    | none => lengthOk r.rng n

/-- A write of a byte string to an admitted object (R26, R35). -/
def putBlob (s : State) (r : Row) (idx sub : Nat) (b : Bytes) : State × Status :=
  let d := s.dev
  match segObject idx with
  | some (g, _) => onDev s (hostMailbox d g b)
  | none =>
    if idx = 0x3A10 then blockWrite s b
    else if idx = 0x2E40 then onDev s (imageBlock d (og d 0x2E40 3) b)
    else if !lengthOk r.rng b.length then (s, .length)
    else if 0x3300 ≤ idx && idx < 0x330C then onDev s (mouldWrite d (idx - 0x3300) b)
    else if 0x3D90 ≤ idx && idx < 0x3D94 then onDev s (tableWrite d (idx - 0x3D90) b)
    else if r.ty = .str && !printable b then (s, .reserved)
    else if idx = 0x2E20 && b.any (fun m => 2 < m.toNat) then (s, .reserved)
    else if idx = 0x2F10 then ({ s with dev := os (obs d idx sub b) 0x2F10 2 1 }, .ok)
    else ({ s with dev := obs d idx sub b }, .ok)

/-- A write of a value to an admitted object. -/
def putValue (s : State) (c : Caller) (r : Row) (idx sub : Nat) (b : Bytes) : State × Status :=
  if r.ty.isBlob then putBlob s r idx sub b
  else if b.length != r.ty.size then (s, .length)
  else putNumber s c r idx sub (ofLe b)

/-- Whether a caller's write to an object is admitted (R28, R31, R36, R51, R474). -/
def admitWrite (d : Dev) (c : Caller) (idx sub : Nat) : Status × Row :=
  match admission d c.comm idx sub with
  | (.ok, r) => (if !c.keySet && !keyless idx sub then .session else if hostMapped d idx sub then .mapped else .ok, r)
  | x => x

/-- A dictionary write of one object on this unit alone. -/
def writeLocal (s : State) (c : Caller) (idx sub : Nat) (b : Bytes) : State × Status :=
  match admitWrite s.dev c idx sub with
  | (.ok, r) => putValue s c r idx sub b
  | (st, _) => (s, st)

/-- A dictionary write: in a pair a mode request and an accepted write to an object of the cycle are forwarded (R330); the latter
are collected, so that the writes of one request take effect together (R34). -/
def writeObject (s : State) (c : Caller) (w : WrItem) : State × Status × List WrItem :=
  let idx := w.idx.toNat
  let r := writeLocal s c idx w.sub.toNat w.val
  if paired s.dev && r.2 = .ok then
    (if idx = 0x1021 then ({ s with dev := forwardItem s.dev (.mode (BitVec.ofNat 8 (ofLe w.val))) }, .ok, [])
     else if cycleObject s.dev idx && !isCounter idx w.sub.toNat then (s, .ok, [w])
     else (r.1, .ok, []))
  else (r.1, r.2, [])

/-- Sends the collected writes of a request to the pair. -/
def forwardWrites (s : State) (ws : List WrItem) : State :=
  if ws.isEmpty then s else { s with dev := forwardItem s.dev (.write ws) }

/-- The items of a write in order, and their statuses with the failing entries of R49. -/
def writeItems (s : State) (c : Caller) : List WrItem → List WrItem → State × List (Status × Nat)
  | fwd, [] => (forwardWrites s fwd, [])
  | fwd, w :: ws =>
    match writeObject s c w with
    | (s1, st, f) =>
      let e := failedEntry s.dev w.idx.toNat w.sub.toNat (ofLe w.val) st
      match writeItems s1 c (fwd ++ f) ws with
      | (s2, sts) => (s2, (st, e) :: sts)

/-! Reads. -/

/-- The island's numbers (R373). -/
def islandNumber (i : IslandSt) (idx sub : Nat) : Nat :=
  if idx = 0x3A00 then i.check
  else if idx = 0x3A01 then i.conf
  else if idx = 0x3A03 then
    (if sub = 0 then 6 else if sub = 1 then i.state else if sub = 2 then i.cause else if sub = 3 then b2n i.stopReq
     else if sub = 4 then i.storedConf else if sub = 5 then i.block.length else i.storeStatus)
  else if idx = 0x3A20 then i.permits
  else if idx = 0x3A22 then i.si
  else if idx = 0x3A23 then i.so
  else if idx = 0x3A24 then i.unlocks
  else if sub = 0 then 6
  else icount i sub

/-- The value of a number object. -/
def readNumber (s : State) (idx sub : Nat) : Nat :=
  if 0x3A00 ≤ idx && idx < 0x3C00 then islandNumber s.isl idx sub else ogd s.dev idx sub

/-- The node states of a segment (R251). -/
def nodeStates (d : Dev) (g : Nat) : Bytes :=
  (List.range (mouldN g (mould d g))).flatMap (fun i => leBytes 1 (hd d g (if g < 8 then i + 1 else i)).state)

/-- The chill record of one node (R251): held, missed or none. -/
def chillBytes (h : HeadNode) : Bytes :=
  let st := if h.chillSt = 1 then 0 else if h.chillSt = 2 then 1 else 2
  let cs := if st = 2 then [] else h.chillCnt
  leBytes 1 st ++ leBytes 1 (if st = 2 then 0 else h.chillHeld) ++ leBytes 8 (if st = 2 then 0 else h.chillCyc) ++ leBytes 2 0 ++
  (List.range 16).flatMap (fun i => leBytes 4 (cs.getD i 0))

/-- The chill records of a segment (R251). -/
def chillRecords (d : Dev) (g : Nat) : Bytes :=
  (List.range (mouldN g (mould d g))).flatMap (fun i => chillBytes (hd d g (if g < 8 then i + 1 else i)))

/-- Instance states as 0x3A21 reads them (R373). -/
def instanceStates (i : IslandSt) : Bytes :=
  (List.range 64).flatMap (fun f => leBytes 1 (if f < blkFns i.block then (inst i f).state else 0xFF))

/-- The value of a byte-string object. -/
def readBlob (s : State) (idx sub : Nat) : Bytes :=
  if idx = 0x3680 then recordDirectory s.dev
  else if idx = 0x3A10 then s.isl.block
  else if idx = 0x3A21 then instanceStates s.isl
  else match segObject idx with
    | some (g, o) => if o = 0x10 then nodeStates s.dev g else if o = 0x11 then chillRecords s.dev g else ob s.dev idx sub
    | none => ob s.dev idx sub

/-- Reads a value: a read of the log moves 0x2101.03 (R457), and a read of a capture's times takes its record (R281). -/
def readValue (s : State) (r : Row) (idx sub : Nat) : State × Bytes :=
  if idx = 0x2101 && sub = 2 then (let x := logRead s.dev; ({ s with dev := x.1 }, x.2))
  else if r.ty.isBlob then (s, readBlob s idx sub)
  else
    let v := leBytes r.ty.size (readNumber s idx sub)
    if 0x3440 ≤ idx && idx < 0x3448 && 7 ≤ sub then
      ({ s with dev := { s.dev with time := { s.dev.time with capHeld := setBit s.dev.time.capHeld (idx - 0x3440) false } } }, v)
    else (s, v)

/-- Whether a read is admitted (R24, R28, R36); without a session every class but RO answers "session required" (R31, R468). -/
def admitRead (d : Dev) (inSession : Bool) (idx sub : Nat) : Status × Option Row :=
  match findRow idx sub with
  | none => (if indexKnown idx then .noSub else .noObject, none)
  | some r =>
    (if r.acc != .ro && !inSession then .session
     else if r.acc = .wo then .writeOnly
     else if isLive r idx sub && !ready d (ownerBit d idx) then .notReady
     else .ok, some r)

/-- A read of one object, with the chill view of a statistics counter when asked for (R248, R475). -/
def readOne (s : State) (inSession chill : Bool) (idx sub : Nat) : State × Status × Bytes :=
  match admitRead s.dev inSession idx sub with
  | (.ok, some r) =>
    if chill && isCounter idx sub then
      (if og s.dev 0x3510 2 < 2 then (s, .state, []) else (s, .ok, leBytes 4 (tget (fun _ => 0) s.dev.shadow (okey idx sub))))
    else (let x := readValue s r idx sub; (x.1, .ok, x.2))
  | (st, _) => (s, st, [])

/-- Reads of several sub-indexes of one index, up to the first refusal. -/
def readSubs (s : State) (inSession chill : Bool) (idx : Nat) (acc : Bytes) : List Nat → State × Status × Bytes
  | [] => (s, .ok, acc)
  | sub :: rest =>
    match readOne s inSession chill idx sub with
    | (s1, .ok, b) => readSubs s1 inSession chill idx (acc ++ b) rest
    | (_, st, _) => (s, st, [])

/-- A read item: one object, or with flag bit 1 sub-indexes 1 to n of its record (R475). -/
def readItem (s : State) (inSession : Bool) (it : RdItem) : State × Status × Bytes :=
  let idx := it.idx.toNat
  let chill := bit it.flags.toNat 0
  if bit it.flags.toNat 1 then
    (if (findRow idx 1).isNone then (s, if indexKnown idx then .noSub else .noObject, [])
     else readSubs s inSession chill idx [] ((List.range (readNumber s idx 0)).map (· + 1)))
  else readOne s inSession chill idx it.sub.toNat

/-- The items of a read in order. -/
def readItems (s : State) (inSession : Bool) : List RdItem → State × List (RdItem × Status × Bytes)
  | [] => (s, [])
  | it :: its =>
    match readItem s inSession it with
    | (s1, r) => match readItems s1 inSession its with
      | (s2, rs) => (s2, (it, r) :: rs)

/-! KDA requests. -/

/-- The head of one item: index, sub-index, flags or status, and length. -/
def itemHead (idx sub x len : Nat) : Bytes := leBytes 2 idx ++ leBytes 1 sub ++ leBytes 1 x ++ leBytes 2 len
/-- Count and reserved byte before the items. -/
def itemsBody (n : Nat) (b : Bytes) : Bytes := leBytes 1 n ++ leBytes 1 0 ++ b
/-- The body of a read request (R475). -/
def readBody (items : List RdItem) : Bytes :=
  itemsBody items.length (items.flatMap (fun i => itemHead i.idx.toNat i.sub.toNat i.flags.toNat 0))
/-- The body of a write request (R475). -/
def writeBody (items : List WrItem) : Bytes :=
  itemsBody items.length (items.flatMap (fun i => itemHead i.idx.toNat i.sub.toNat i.flags.toNat i.val.length ++ i.val))

/-- Whether the items of a request are well-formed: 1 to 64, with no reserved flag (R475, R6). -/
def itemsOk (n : Nat) (flags : List Nat) : Bool := 1 ≤ n && n ≤ 64 && flags.all (· < 4)

/-- Executes a read request and forms its answer: nothing of a response that does not fit (R475). -/
def answerRead (s : State) (inSession : Bool) (items : List RdItem) : State × Answer :=
  if !itemsOk items.length (items.map (fun i => i.flags.toNat)) then ({ s with dev := bump s.dev 0x2F20 3 }, 0x20, 0x20, [])
  else
    match readItems s inSession items with
    | (t, rs) =>
      let body := itemsBody rs.length (rs.flatMap (fun r =>
        itemHead r.1.idx.toNat r.1.sub.toNat (statusCode r.2.1) r.2.2.length ++ r.2.2))
      if 1432 < body.length then (s, 0x20, 0x23, []) else (t, 0x20, 0, body)

/-- Executes a write request and forms its answer; an item refused for an entry of a mapping record carries that entry as its
sub-index (R49). -/
def answerWrite (s : State) (c : Caller) (items : List WrItem) : State × Answer :=
  if !itemsOk items.length (items.map (fun i => i.flags.toNat)) then ({ s with dev := bump s.dev 0x2F20 3 }, 0x21, 0x20, [])
  else
    match writeItems s c [] items with
    | (t, sts) =>
      (t, 0x21, 0, itemsBody items.length ((items.zip sts).flatMap (fun p =>
        itemHead p.1.idx.toNat (if p.2.2 = 0 then p.1.sub.toNat else p.2.2) (statusCode p.2.1) 0)))

/-- Receives a session's request, runs it and answers it (R472). -/
def serveRequest (s : State) (p : Port) (h : Kda) (typ : Nat) (body : Bytes) (run : State → Session → State × Answer) : State :=
  match receive s.dev p h typ body true with
  | .done d => upd s (fun _ => d)
  | .go d x =>
    match run (upd s (fun _ => d)) x with
    | (t, a) => upd t (fun d => reply d p x.id h.reqId.toNat a)

/-- Serves a request that may come without a session (R468): untagged, and not stored. -/
def serveBare (s : State) (p : Port) (h : Kda) (typ : Nat) (body : Bytes) (run : State → State × Answer) : State :=
  match screen s.dev p h typ body with
  | some d => upd s (fun _ => d)
  | none =>
    match run s with
    | (t, a) => upd t (fun d => sendBare d p a.1 a.2.1 h.reqId.toNat a.2.2)

/-- DICTIONARY_READ (R468, R475). -/
def execDictionaryRead (p : Port) (h : Kda) (items : List RdItem) (s : State) : Host.Outcome State Fault Refusal :=
  .next (
    if h.session = 0 then serveBare s p h 0x20 (readBody items) (fun s => answerRead s false items)
    else serveRequest s p h 0x20 (readBody items) (fun s _ => answerRead s true items))

/-- DICTIONARY_WRITE (R28-R37, R475). -/
def execDictionaryWrite (p : Port) (h : Kda) (items : List WrItem) (s : State) : Host.Outcome State Fault Refusal :=
  .next (serveRequest s p h 0x21 (writeBody items) (fun s x => answerWrite s x.caller items))

/-! Segmented transfers (R35, R478, R479). -/

/-- The body of a segmented write request (R478). -/
def segBody (idx sub op total off : Nat) (data : Bytes) : Bytes :=
  leBytes 2 idx ++ leBytes 1 sub ++ leBytes 1 op ++ leBytes 4 total ++ leBytes 4 off ++ leBytes 2 data.length ++ leBytes 2 0 ++ data

/-- The answer to a segmented write: the echo, with the item status in the header (R478). -/
def segAnswer (st : Status) (idx sub op total off : Nat) : Answer :=
  (0x23, statusCode st, leBytes 2 idx ++ leBytes 1 sub ++ leBytes 1 op ++ leBytes 4 total ++ leBytes 4 off)

/-- Sets the segmented write of a session. -/
def setSegw (s : State) (id : Nat) (w : Option SegWrite) : State :=
  { s with dev := onSession s.dev id (fun x => { x with segw := w }) }

/-- Whether a value of n bytes has a length the object takes (R26). -/
def lengthStatus (d : Dev) (r : Row) (idx n : Nat) : Bool := if r.ty.isBlob then blobLength d r idx n else n = r.ty.size

/-- Begin (R478): access, length, and no transfer open on the object or in the session. -/
def segBegin (s : State) (x : Session) (idx sub total : Nat) : State × Status :=
  match admitWrite s.dev x.caller idx sub with
  | (.ok, r) =>
    if !lengthStatus s.dev r idx total then (s, .length)
    else if x.segw.isSome || s.dev.host.sessions.any (fun y => match y.segw with | some w => w.key = okey idx sub | none => false) then
      (s, .busy)
    else (setSegw s x.id (some ⟨okey idx sub, total, []⟩), .ok)
  | (st, _) => (s, st)

/-- The open transfer of a session on an object. -/
def openSeg (x : Session) (idx sub : Nat) : Option SegWrite := x.segw.filter (fun w => w.key = okey idx sub)

/-- Data (R478): only at the next expected offset, which the answer names. -/
def segData (s : State) (x : Session) (idx sub off : Nat) (data : Bytes) : State × Status × Nat :=
  match openSeg x idx sub with
  | none => (s, .state, off)
  | some w =>
    if off != w.data.length then (s, .range, w.data.length)
    else if w.total < off + data.length then (s, .length, off)
    else (setSegw s x.id (some { w with data := w.data ++ data }), .ok, off)

/-- End (R35, R478): the object's checks, then the value at once; the transfer is over either way. -/
def segEnd (s : State) (x : Session) (idx sub : Nat) : State × Status :=
  match openSeg x idx sub with
  | none => (s, .state)
  | some w =>
    let s := setSegw s x.id none
    if w.data.length != w.total then (s, .length)
    else
      match writeObject s x.caller ⟨BitVec.ofNat 16 idx, BitVec.ofNat 8 sub, 0, w.data⟩ with
      | (t, st, f) => (forwardWrites t f, st)

/-- SEGMENTED_BEGIN (R478). -/
def execSegmentedBegin (p : Port) (h : Kda) (idx : BitVec 16) (sub : BitVec 8) (total : BitVec 32) (s : State) :
    Host.Outcome State Fault Refusal :=
  .next (serveRequest s p h 0x23 (segBody idx.toNat sub.toNat 1 total.toNat 0 []) (fun s x =>
    match segBegin s x idx.toNat sub.toNat total.toNat with
    | (t, st) => (t, segAnswer st idx.toNat sub.toNat 1 total.toNat 0)))

/-- SEGMENTED_DATA (R478). -/
def execSegmentedData (p : Port) (h : Kda) (idx : BitVec 16) (sub : BitVec 8) (total offset : BitVec 32) (data : Bytes) (s : State) :
    Host.Outcome State Fault Refusal :=
  .next (serveRequest s p h 0x23 (segBody idx.toNat sub.toNat 2 total.toNat offset.toNat data) (fun s x =>
    if 1400 < data.length then ({ s with dev := bump s.dev 0x2F20 3 }, 0x23, 0x20, [])
    else match segData s x idx.toNat sub.toNat offset.toNat data with
      | (t, st, o) => (t, segAnswer st idx.toNat sub.toNat 2 total.toNat o)))

/-- SEGMENTED_END (R35, R478). -/
def execSegmentedEnd (p : Port) (h : Kda) (idx : BitVec 16) (sub : BitVec 8) (total : BitVec 32) (s : State) :
    Host.Outcome State Fault Refusal :=
  .next (serveRequest s p h 0x23 (segBody idx.toNat sub.toNat 3 total.toNat 0 []) (fun s x =>
    match segEnd s x idx.toNat sub.toNat with
    | (t, st) => (t, segAnswer st idx.toNat sub.toNat 3 total.toNat 0)))

/-- SEGMENTED_ABORT (R478). -/
def execSegmentedAbort (p : Port) (h : Kda) (idx : BitVec 16) (sub : BitVec 8) (total : BitVec 32) (s : State) :
    Host.Outcome State Fault Refusal :=
  .next (serveRequest s p h 0x23 (segBody idx.toNat sub.toNat 4 total.toNat 0 []) (fun s x =>
    match openSeg x idx.toNat sub.toNat with
    | some _ => (setSegw s x.id none, segAnswer .ok idx.toNat sub.toNat 4 total.toNat 0)
    | none => (s, segAnswer .state idx.toNat sub.toNat 4 total.toNat 0)))

/-- SEGMENTED_TIMEOUT (R478): 5 s without an accepted segment. -/
def execSegmentedTimeout (id : BitVec 32) (s : State) : Host.Outcome State Fault Refusal := .next (setSegw s id.toNat none)

/-- The snapshot a session holds of an object. -/
def heldSnap (x : Session) (k : Nat) : Option Bytes := (x.snaps.find? (fun p => p.1 = k)).map Prod.snd
/-- Releases a session's snapshot of an object. -/
def dropSnap (s : State) (id k : Nat) : State :=
  { s with dev := onSession s.dev id (fun x => { x with snaps := x.snaps.filter (fun p => p.1 != k) }) }
/-- Takes a snapshot. -/
def takeSnap (s : State) (id k : Nat) (b : Bytes) : State :=
  { s with dev := onSession s.dev id (fun x => { x with snaps := x.snaps.filter (fun p => p.1 != k) ++ [(k, b)] }) }

/-- The body of a segmented read's answer (R479). -/
def snapBody (b : Bytes) (off max : Nat) : Bytes :=
  let c := slice b off max
  leBytes 4 b.length ++ leBytes 4 off ++ leBytes 2 c.length ++ leBytes 2 0 ++ c

/-- A segmented read in a session (R479). -/
def segRead (s : State) (x : Session) (idx sub off max : Nat) : State × Answer :=
  let k := okey idx sub
  match admitRead s.dev true idx sub with
  | (.ok, some r) =>
    let got := if off = 0 then (let v := readValue s r idx sub; some (takeSnap v.1 x.id k v.2, v.2)) else (heldSnap x k).map (fun b => (s, b))
    match got with
    | none => (s, 0x22, statusCode .state, [])
    | some (t, b) =>
      if b.length < off then (s, 0x22, statusCode .range, [])
      else (if b.length ≤ off + max then dropSnap t x.id k else t, 0x22, 0, snapBody b off max)
  | (st, _) => (s, 0x22, statusCode st, [])

/-- A segmented read without a session: no snapshot is kept (R468, R479). -/
def segReadBare (s : State) (idx sub off max : Nat) : State × Answer :=
  match admitRead s.dev false idx sub with
  | (.ok, some r) => if off = 0 then (let v := readValue s r idx sub; (v.1, 0x22, 0, snapBody v.2 0 max)) else (s, 0x22, statusCode .state, [])
  | (st, _) => (s, 0x22, statusCode st, [])

/-- SEGMENTED_READ (R479). -/
def execSegmentedRead (p : Port) (h : Kda) (idx : BitVec 16) (sub : BitVec 8) (offset : BitVec 32) (max : BitVec 16) (s : State) :
    Host.Outcome State Fault Refusal :=
  .next (
    let body := leBytes 2 idx.toNat ++ leBytes 1 sub.toNat ++ leBytes 1 0 ++ leBytes 4 offset.toNat ++ leBytes 2 max.toNat
    let bad (s : State) : State × Answer := ({ s with dev := bump s.dev 0x2F20 3 }, 0x22, 0x20, [])
    if h.session = 0 then
      serveBare s p h 0x22 body (fun s => if 1400 < max.toNat then bad s else segReadBare s idx.toNat sub.toNat offset.toNat max.toNat)
    else serveRequest s p h 0x22 body (fun s x =>
      if 1400 < max.toNat then bad s else segRead s x idx.toNat sub.toNat offset.toNat max.toNat))

/-- SNAPSHOT_RELEASE_TIMEOUT (R479): 5 s without a read. -/
def execSnapshotReleaseTimeout (id : BitVec 32) (idx : BitVec 16) (sub : BitVec 8) (s : State) : Host.Outcome State Fault Refusal :=
  .next (dropSnap s id.toNat (okey idx.toNat sub.toNat))

end Sys2Proof.Machine
end

