-- ==== Sys2Proof/Machine/Link.lean ====
section
/-! DEFINITION. The host link beside the dictionary: process images (R20, R21, R480, R481), event notification (R482), the ports (R464-R466,
R485), the control instant as a whole (R16) and the forwarded items of a pair (R330). -/
namespace Sys2Proof.Machine

/-! Host-to-device images. -/

/-- A complete image becomes pending; one that still waited is overwritten and counted (R20). In a pair it is forwarded (R330). -/
def pendImage (d : Dev) (num : Nat) (b : Bytes) : Dev :=
  let d := if d.host.pending.isSome then bump d 0x2F20 4 else d
  { d with host := { d.host with pending := some (num, b) } }

/-- One byte of a fragment. -/
def putImageByte (t : Table Nat) (p : Byte × Nat) : Table Nat := tput (fun _ => 256) t p.2 p.1.toNat

/-- The lease goes to a session opened with a set key while none is held; its images are numbered afresh (R480). -/
def takeLease (d : Dev) (x : Session) : Dev :=
  if d.host.lease = 0 && x.keySet then
    { d with host := { d.host with lease := x.id, imgNum := none, imgLen := 0, image := [], floor := 0 } }
  else d

/-- A fragment of a higher number begins an image: an incomplete lower one is counted, a wrong length too (R480). -/
def beginImage (d : Dev) (num total : Nat) : Dev :=
  let d := if d.host.imgNum.isSome && d.host.imgLen = imageSize d 0x1600 then bump d 0x2F20 5 else d
  let d := { d with host := { d.host with imgNum := some num, imgLen := total, image := [] } }
  if total = imageSize d 0x1600 then d else bump d 0x2F20 6

/-- The bytes of a fragment join their image; the last one completes it (R480). -/
def addFragment (d : Dev) (num total off : Nat) (data : Bytes) : Dev :=
  let t := (data.zipIdx off).foldl putImageByte d.host.image
  if t.length < total then { d with host := { d.host with image := t } }
  else
    let b : Bytes := t.map (fun p => BitVec.ofNat 8 p.2)
    let d := { d with host := { d.host with imgNum := none, imgLen := 0, image := [], floor := num + 1 } }
    if paired d then forwardItem d (.image (leBytes 4 num ++ b)) else pendImage d num b

/-- A fragment of the lease holder (R480). -/
def leaseFragment (d : Dev) (num total off : Nat) (data : Bytes) : Dev :=
  if num < d.host.floor || (match d.host.imgNum with | some m => num < m | none => false) then bump d 0x2F20 6
  else
    let d := if d.host.imgNum = some num then d else beginImage d num total
    if total != d.host.imgLen || total != imageSize d 0x1600 then d else addFragment d num total off data

/-- The fragment header (R480). -/
def fragmentHeader (num cycle applied total off : Nat) : Bytes :=
  leBytes 4 num ++ leBytes 8 cycle ++ leBytes 4 applied ++ leBytes 2 total ++ leBytes 2 off

/-- IMAGE_FRAGMENT (R20, R427, R474, R480). -/
def execImageFragment (p : Port) (h : Kda) (num : BitVec 32) (total offset : BitVec 16) (data : Bytes) (s : State) :
    Host.Outcome State Fault Refusal :=
  .next (upd s (fun d =>
    match receive d p h 0x30 (fragmentHeader num.toNat 0 0 total.toNat offset.toNat ++ data) false with
    | .done d => d
    | .go d x =>
      if 1400 < data.length || total.toNat < offset.toNat + data.length then bump d 0x2F20 3
      else
        let d := takeLease d x
        if d.host.lease != x.id then bump d 0x2F20 6
        else if mode d = 1 || mode d = 5 then d
        else leaseFragment d num.toNat total.toNat offset.toNat data))

/-- One mapped value of an active image (R20, R51): discarded while its block is not ready or when it is no valid value; a value equal to
the one in force is no write. -/
def putMapped (s : State) (v : Nat) (b : Bytes) : State :=
  let idx := v / 65536
  let sub := v / 256 % 256
  match admission s.dev true idx sub with
  | (.ok, r) =>
    if !ready s.dev (ownerBit s.dev idx) || ofLe b = readNumber s idx sub then s
    else (putNumber s ⟨0, true, true⟩ r idx sub (ofLe b)).1
  | _ => s

/-- The mapped values of an image in order. -/
def putImage (s : State) : List Nat → Bytes → State
  | [], _ => s
  | v :: es, b => putImage (putMapped s v (b.take (v % 256 / 8))) es (b.drop (v % 256 / 8))

/-- The pending image becomes the active one (R20); in Bring-up and Service it is discarded (R427), as is one that no longer fits the
mapping. -/
def activateImage (s : State) : State :=
  match s.dev.host.pending with
  | none => s
  | some (num, b) =>
    let d := { s.dev with host := { s.dev.host with pending := none } }
    if mode d = 1 || mode d = 5 || b.length != imageSize d 0x1600 then { s with dev := d }
    else putImage { s with dev := { d with host := { d.host with applied := num } } } (imageEntries d 0x1600) b

/-! Device-to-host images. -/

/-- The device-to-host image: zeros in place of objects whose block is not ready (R50, R51). -/
def deviceBytes (s : State) : Bytes :=
  (imageEntries s.dev 0x1A00).flatMap (fun v =>
    leBytes (v % 256 / 8) (if ready s.dev (ownerBit s.dev (v / 65536)) then readNumber s (v / 65536) (v / 256 % 256) else 0))

/-- A subscriber gets the image of base cycle k when its period divides k: it starts, waits behind the one being sent, or replaces one
that waits, which is a skip (R481). The second part of the answer counts skips. -/
def offerImage (k applied : Nat) (b : Bytes) (x : Session) : Session × Nat :=
  if x.period = 0 || k % x.period != 0 then (x, 0)
  else
    let o : OutImage := ⟨(x.images + 1) % 2 ^ 32, k, applied, b, 0⟩
    let x := { x with images := o.num }
    if x.sending.isNone then ({ x with sending := some o }, 0)
    else ({ x with waitImg := some o }, b2n x.waitImg.isSome)

/-- Takes the device-to-host image at the end of the control phase (R21, R481). -/
def takeDeviceImage (s : State) : State :=
  let b := deviceBytes s
  let d := s.dev
  let r := d.host.sessions.map (offerImage d.time.k d.host.applied b)
  { s with dev := bumpBy { d with host := { d.host with d2h := (d.time.k, b), sessions := r.map Prod.fst } } 0x2F20 7 (r.map Prod.snd).sum }

/-- The subscriptions of the other open sessions. -/
def others (d : Dev) (id : Nat) (p : Session → Bool) : Nat := (d.host.sessions.filter (fun x => x.id != id && x.isOpen && p x)).length

/-- IMAGE_SUBSCRIPTION (R481). -/
def execImageSubscription (p : Port) (h : Kda) (period : BitVec 16) (s : State) : Host.Outcome State Fault Refusal :=
  .next (serveRequest s p h 0x31 (leBytes 2 period.toNat) (fun s x =>
    let set (n : Nat) : State :=
      { s with dev := onSession s.dev x.id (fun x => if n = 0 then { x with period := 0, sending := none, waitImg := none } else { x with period := n }) }
    if period.toNat = 0 then (set 0, 0x31, 0, [])
    else if 2 ≤ others s.dev x.id (fun y => y.period != 0) then (s, 0x31, 0x25, [])
    else (set period.toNat, 0x31, 0, [])))

/-- IMAGE_FRAGMENT_SEND (R480, R481): the next fragment of the image being sent; after its last the waiting one follows. -/
def execImageFragmentSend (p : Port) (id : BitVec 32) (s : State) : Host.Outcome State Fault Refusal :=
  .next (upd s (fun d =>
    match (findSession d id.toNat).bind Session.sending with
    | none => d
    | some o =>
      if !linkUp d p then d
      else
        let c := slice o.data o.off 1400
        let o2 := { o with off := o.off + c.length }
        let d := onSession d id.toNat (fun x =>
          if o2.off < o.data.length then { x with sending := some o2 } else { x with sending := x.waitImg, waitImg := none })
        sendIn d p id.toNat 0x32 0 0 0 (fragmentHeader o.num o.cycle o.applied o.data.length o.off ++ c)))

/-! Event notification. -/

/-- EVENT_SUBSCRIPTION (R482). -/
def execEventSubscription (p : Port) (h : Kda) (mask : BitVec 8) (s : State) : Host.Outcome State Fault Refusal :=
  .next (serveRequest s p h 0x40 (leBytes 1 mask.toNat) (fun s x =>
    let set : State :=
      { s with dev := onSession s.dev x.id (fun x => if mask = 0 then { x with events := 0, evQueue := [], logQueue := [] } else { x with events := mask.toNat }) }
    if 8 ≤ mask.toNat then ({ s with dev := bump s.dev 0x2F20 3 }, 0x40, 0x20, [])
    else if mask != 0 && 4 ≤ others s.dev x.id (fun y => y.events != 0) then (s, 0x40, 0x25, [])
    else (set, 0x40, 0, [])))

/-- An event datagram of some records (R482). -/
def sendEvents (d : Dev) (p : Port) (id count : Nat) (recs : List Bytes) : Dev :=
  sendIn d p id 0x41 0 0 0 (leBytes 4 count ++ leBytes 1 recs.length ++ leBytes 3 0 ++ recs.flatten)

/-- EVENT_DATAGRAM_SEND (R482, R483): a cycle point or trigger goes first and in a datagram of its own, log entries up to 32 together. -/
def execEventDatagramSend (p : Port) (id : BitVec 32) (s : State) : Host.Outcome State Fault Refusal :=
  .next (upd s (fun d =>
    match findSession d id.toNat with
    | none => d
    | some x =>
      if !linkUp d p then d
      else
        let n := (x.evCount + 1) % 2 ^ 32
        match x.evQueue with
        | r :: rest => sendEvents (onSession d x.id (fun x => { x with evCount := n, evQueue := rest })) p x.id n [r]
        | [] =>
          if x.logQueue.isEmpty then d
          else sendEvents (onSession d x.id (fun x => { x with evCount := n, logQueue := x.logQueue.drop 32 })) p x.id n (x.logQueue.take 32)))

/-! Ports. -/

/-- The MAC address of a port (R43). -/
def portMac (p : Port) : Nat := (Config.mac.toNat + p.val) % 2 ^ 48
/-- The address in force of a port; 0 when none. -/
def portAddress (d : Dev) (p : Port) : Nat := og d (0x2F08 + p.val) 2

/-- A frame that a port does not accept is dropped and counted (R465). -/
def unacceptable (d : Dev) (p : Port) : Dev := if linkUp d p then bump d 0x2F20 8 else d

/-- ARP_REQUEST (R465, RFC 826): a request for the port's address is answered. -/
def execArpRequest (p : Port) (plain : Bool) (target sender : BitVec 32) (mac : BitVec 48) (s : State) : Host.Outcome State Fault Refusal :=
  .next (upd s (fun d =>
    if !plain then unacceptable d p
    else if linkUp d p && portAddress d p != 0 && target.toNat = portAddress d p then
      emit d (.ether p 0x0806 (beBytes 2 1 ++ beBytes 2 0x0800 ++ beBytes 1 6 ++ beBytes 1 4 ++ beBytes 2 2 ++
        beBytes 6 (portMac p) ++ beBytes 4 (portAddress d p) ++ beBytes 6 mac.toNat ++ beBytes 4 sender.toNat))
    else d))

/-- 16-bit words of a byte string in network order, padded with a zero byte. -/
def words16 : Bytes → List Nat
  | [] => []
  | [a] => [a.toNat * 256]
  | a :: b :: rest => (a.toNat * 256 + b.toNat) :: words16 rest

/-- The Internet checksum: the complement of the ones'-complement sum. -/
def inetSum (b : Bytes) : Nat :=
  0xFFFF - (words16 b).foldl (fun s w => (s + w) % 65536 + (s + w) / 65536) 0

/-- ICMP_ECHO (R465, RFC 792): an echo request to the port's address is answered to its source. -/
def execIcmpEcho (p : Port) (plain : Bool) (src dst : BitVec 32) (ident seq : BitVec 16) (data : Bytes) (s : State) : Host.Outcome State Fault Refusal :=
  .next (upd s (fun d =>
    if !plain then unacceptable d p
    else if linkUp d p && portAddress d p != 0 && dst.toNat = portAddress d p then
      let rest := beBytes 2 ident.toNat ++ beBytes 2 seq.toNat ++ data
      emit d (.ether p 0x01 (beBytes 4 src.toNat ++ beBytes 2 0 ++ beBytes 2 (inetSum (beBytes 2 0 ++ rest)) ++ rest))
    else d))

/-- DHCP state of a port: 0 not used, 1 discovering, 2 bound, 3 renewing or rebinding (R486). -/
def dhcpState (d : Dev) (p : Port) : Nat := og d (0x2F08 + p.val) 5

/-- The prefix length of a subnet mask. -/
def prefixOf (mask : Nat) : Nat := ((List.range 32).filter (bit mask)).length

/-- An acknowledged lease (R466): address, mask and router are taken. -/
def dhcpBind (d : Dev) (p : Port) (addr mask router lease : Nat) : Dev :=
  let o := 0x2F08 + p.val
  os (os (os (os (os d o 2 addr) o 3 (min 30 (prefixOf mask))) o 4 router) o 5 2) o 6 lease

/-- DHCP_REPLY (R466, RFC 2131): 0 offer, 1 acknowledgement, 2 refusal. -/
def execDhcpReply (p : Port) (kind : Fin 3) (addr mask router lease : BitVec 32) (s : State) : Host.Outcome State Fault Refusal :=
  .next (upd s (fun d =>
    let st := dhcpState d p
    let off := tget (fun _ => 0) d.host.offer p.val
    if !linkUp d p || !(st = 1 || st = 3) then d
    else if kind = 0 then
      (if st = 1 && off = 0 then
         dhcpSend { d with host := { d.host with offer := tput (fun _ => 0) d.host.offer p.val addr.toNat } } p.val 3 addr.toNat
       else d)
    else if kind = 1 then (if addr.toNat != 0 && addr.toNat = off then dhcpBind d p addr.toNat mask.toNat router.toNat lease.toNat else d)
    else dhcpDiscover d p.val))

/-- DHCP_RENEW at T1 (R466). -/
def execDhcpRenew (p : Port) (s : State) : Host.Outcome State Fault Refusal :=
  .next (upd s (fun d =>
    let o := 0x2F08 + p.val
    if linkUp d p && dhcpState d p = 2 then dhcpSend (os (os d o 5 3) o 6 (og d o 6 - og d o 6 / 2)) p.val 3 (portAddress d p) else d))

/-- DHCP_REBIND at T2 (R466). -/
def execDhcpRebind (p : Port) (s : State) : Host.Outcome State Fault Refusal :=
  .next (upd s (fun d =>
    let o := 0x2F08 + p.val
    if linkUp d p && dhcpState d p = 3 then dhcpSend (os d o 6 (og d o 6 / 4)) p.val 3 (portAddress d p) else d))

/-- DHCP_LEASE_EXPIRY (R466): the port drops its address and starts again; sessions survive. -/
def execDhcpLeaseExpiry (p : Port) (s : State) : Host.Outcome State Fault Refusal :=
  .next (upd s (fun d => if linkUp d p && 2 ≤ dhcpState d p then dhcpDiscover d p.val else d))

/-- ETHERNET_LINK_CHANGE (R464, R485): the link's speed code; a port fixed to one speed never links at the other. The source is live
while either port is down (R527). -/
def execEthernetLinkChange (p : Port) (speed : Fin 3) (s : State) : Host.Outcome State Fault Refusal :=
  .next (upd s (fun d =>
    let fixed := (d.host.ports.getD p.val (1, 0, 0)).2.1
    if !portEnabled d p.val || (speed.val != 0 && fixed != 0 && fixed != speed.val) then d
    else
      let was := og d (0x2F08 + p.val) 1
      let d := os d (0x2F08 + p.val) 1 speed.val
      if !ready d 30 then d
      else
        let d := if was = 0 && speed.val != 0 && dhcpState d p = 1 then dhcpDiscover d p.val else d
        level d 188 0 p.val (og d 0x2F08 1 = 0 || og d 0x2F09 1 = 0)))

/-! The control instant and the forwarded items. -/

/-- The island's mappable objects as the acquisition engine taps them at a control instant (R294, R373). -/
def showIsland (d : Dev) (i : IslandSt) : Dev :=
  [(0x3A03, 1), (0x3A03, 3), (0x3A20, 0), (0x3A22, 0), (0x3A23, 0), (0x3A24, 0)].foldl (fun d o => os d o.1 o.2 (islandNumber i o.1 o.2)) d

/-- CONTROL_INSTANT (R16, R20, R21): at 28 us of the base cycle the pending image becomes active, the control phase runs, and the
device-to-host image is taken. -/
def execControlInstant (s : State) : Host.Outcome State Fault Refusal :=
  .next (
    let k := s.dev.time.k
    if !ready s.dev 4 || s.dev.time.kc = k then s
    else
      let s := upd s (fun d => advanceSeg d (k * unitCycle + 28000 * unitNs))
      let s := activateImage s
      let s := upd s (fun d => controlPhase (showIsland d s.isl))
      takeDeviceImage s)

/-- What a forwarded item does in both units (R330). -/
def applyItem (s : State) : FwdItem → State
  | .write is => is.foldl (fun s w => (writeLocal s ⟨0, true, true⟩ w.idx.toNat w.sub.toNat w.val).1) s
  | .image b => upd s (fun d => pendImage d (rd b 0 4) (b.drop 4))
  | .command n v => upd s (fun d => takeCommand (os d (ax n.val 8) 1 v.toNat) n.val d.time.kc)
  | .mode m => upd s (fun d => (modeRequest d m.toNat).1)
  | .mailbox n _ p => upd s (fun d => replyEffect d (nodeSeg n) (nodeNum n) (replyClass d (nodeSeg n) (nodeNum n) p) p)
  | .nodeState n st => upd s (fun d => nodeStateNow d (nodeSeg n) (nodeNum n) st.toNat)
  | .chill c => upd s (fun d => chillPend d c.toNat)
  | .safeHold c => upd s (fun d =>
      let q := d.pair.holdSeq
      safeHoldNow { d with pair := { d.pair with holdSeq := 0 } } c.toNat q)

/-- FORWARDED_ITEM_APPLY (R330): every item whose agreed cycle has come, in the order they were assigned. -/
def execForwardedItemApply (s : State) : Host.Outcome State Fault Refusal :=
  .next (
    let due := s.dev.pair.items.filter (fun i => i.1 ≤ s.dev.time.k)
    let p := s.dev.pair
    let s := { s with dev := { s.dev with pair := { p with items := p.items.filter (fun i => s.dev.time.k < i.1),
                                                           applied := p.applied ++ due.flatMap (fun i => i.2.encode) } } }
    due.foldl (fun s i => applyItem s i.2) s)

end Sys2Proof.Machine
end

