-- ==== Sys2Proof/Machine/Dispatch.lean ====
section
/-! DEFINITION. One arm per command: the direct call of its meaning. -/
namespace Sys2Proof.Machine

def exec (i : Instr) (s : State) : Host.Outcome State Fault Refusal :=
  match i with
  | .baseCycleStart => Sys2Proof.Machine.execBaseCycleStart s
  | .controlInstant => Sys2Proof.Machine.execControlInstant s
  | .tightControlInstant => Sys2Proof.Machine.execTightControlInstant s
  | .fieldCycleStart l => Sys2Proof.Machine.execFieldCycleStart l s
  | .windowCopyReceived r j c typ flags hdrOk crcOk inv err claim cyc data => Sys2Proof.Machine.execWindowCopyReceived r j c typ flags hdrOk crcOk inv err claim cyc data s
  | .axisFeedbackLoss n => Sys2Proof.Machine.execAxisFeedbackLoss n s
  | .axisCurrentFeedbackLoss n => Sys2Proof.Machine.execAxisCurrentFeedbackLoss n s
  | .nodeApplyInstant nd w => Sys2Proof.Machine.execNodeApplyInstant nd w s
  | .axisCommandNone n seq => Sys2Proof.Machine.execAxisCommandNone n seq s
  | .enable n seq => Sys2Proof.Machine.execEnable n seq s
  | .disable n seq => Sys2Proof.Machine.execDisable n seq s
  | .append n seq => Sys2Proof.Machine.execAppend n seq s
  | .stopHold n seq => Sys2Proof.Machine.execStopHold n seq s
  | .stopQuick n seq => Sys2Proof.Machine.execStopQuick n seq s
  | .resume n seq => Sys2Proof.Machine.execResume n seq s
  | .flush n seq => Sys2Proof.Machine.execFlush n seq s
  | .home n seq => Sys2Proof.Machine.execHome n seq s
  | .acknowledge n seq => Sys2Proof.Machine.execAcknowledge n seq s
  | .limitReleased n input => Sys2Proof.Machine.execLimitReleased n input s
  | .limitChatter n input => Sys2Proof.Machine.execLimitChatter n input s
  | .velocityDurationEnd n => Sys2Proof.Machine.execVelocityDurationEnd n s
  | .dwellEnd n => Sys2Proof.Machine.execDwellEnd n s
  | .gearSpanReached n => Sys2Proof.Machine.execGearSpanReached n s
  | .gearEngageEnd n => Sys2Proof.Machine.execGearEngageEnd n s
  | .livePhaseOffsetWrite n phi => Sys2Proof.Machine.execLivePhaseOffsetWrite n phi s
  | .axisStall n => Sys2Proof.Machine.execAxisStall n s
  | .stepperFeedbackLoss n => Sys2Proof.Machine.execStepperFeedbackLoss n s
  | .microstepTableWrite t data => Sys2Proof.Machine.execMicrostepTableWrite t data s
  | .nodeTargetMissing r j w => Sys2Proof.Machine.execNodeTargetMissing r j w s
  | .toothEvent u dg width => Sys2Proof.Machine.execToothEvent u dg width s
  | .standstillTimeout u => Sys2Proof.Machine.execStandstillTimeout u s
  | .pulseInputSignalFault u => Sys2Proof.Machine.execPulseInputSignalFault u s
  | .pulseInputLoss u => Sys2Proof.Machine.execPulseInputLoss u s
  | .receiverSynchronised g c eq eye => Sys2Proof.Machine.execReceiverSynchronised g c eq eye s
  | .receiverSyncLoss g c inv => Sys2Proof.Machine.execReceiverSyncLoss g c inv s
  | .nodeWrapStart r j c => Sys2Proof.Machine.execNodeWrapStart r j c s
  | .nodeWrapEnd r j c => Sys2Proof.Machine.execNodeWrapEnd r j c s
  | .mouldWrite g data => Sys2Proof.Machine.execMouldWrite g data s
  | .fieldFrameReceived l k kind cable crcOk inv err dev alarm waited cyc body => Sys2Proof.Machine.execFieldFrameReceived l k kind cable crcOk inv err dev alarm waited cyc body s
  | .nodeExcluded l k => Sys2Proof.Machine.execNodeExcluded l k s
  | .segmentRequest g v => Sys2Proof.Machine.execSegmentRequest g v s
  | .coldStartListenEnd g => Sys2Proof.Machine.execColdStartListenEnd g s
  | .coldStartSlotEnd g returned contention => Sys2Proof.Machine.execColdStartSlotEnd g returned contention s
  | .coldStartBackoffEnd g => Sys2Proof.Machine.execColdStartBackoffEnd g s
  | .otherHeadHeard g c crcOk kind claim tag counter cycle => Sys2Proof.Machine.execOtherHeadHeard g c crcOk kind claim tag counter cycle s
  | .integrationEnd g => Sys2Proof.Machine.execIntegrationEnd g s
  | .rollCall g seenA seenB => Sys2Proof.Machine.execRollCall g seenA seenB s
  | .nodeRollCallFrame nd c count counter => Sys2Proof.Machine.execNodeRollCallFrame nd c count counter s
  | .nodeFrameLockTaken nd tag => Sys2Proof.Machine.execNodeFrameLockTaken nd tag s
  | .nodeFrameLockLost nd => Sys2Proof.Machine.execNodeFrameLockLost nd s
  | .nodeCopyReceived r j c typ hdrOk blockOk late seg claim cycle flags tag pdu data => Sys2Proof.Machine.execNodeCopyReceived r j c typ hdrOk blockOk late seg claim cycle flags tag pdu data s
  | .nodeSummationReceived l k c typ ok late claim cycle flags tag corrections pdus coded => Sys2Proof.Machine.execNodeSummationReceived l k c typ ok late claim cycle flags tag corrections pdus coded s
  | .nodeSendInstant l k kind c passing => Sys2Proof.Machine.execNodeSendInstant l k kind c passing s
  | .mailboxReply nd seq payload => Sys2Proof.Machine.execMailboxReply nd seq payload s
  | .nodeMailboxTimeout nd => Sys2Proof.Machine.execNodeMailboxTimeout nd s
  | .nodeAbsent nd => Sys2Proof.Machine.execNodeAbsent nd s
  | .hostMailboxRequest g payload => Sys2Proof.Machine.execHostMailboxRequest g payload s
  | .chillRequest cyc => Sys2Proof.Machine.execChillRequest cyc s
  | .chillLatch => Sys2Proof.Machine.execChillLatch s
  | .chillCollectionEnd => Sys2Proof.Machine.execChillCollectionEnd s
  | .cyclePoint u => Sys2Proof.Machine.execCyclePoint u s
  | .ptpAnnounce d p udp rank ident utc arb steps => Sys2Proof.Machine.execPtpAnnounce d p udp rank ident utc arb steps s
  | .ptpSync d udp t1 dg => Sys2Proof.Machine.execPtpSync d udp t1 dg s
  | .ptpDelayResponse d udp delay => Sys2Proof.Machine.execPtpDelayResponse d udp delay s
  | .ptpTimeout d => Sys2Proof.Machine.execPtpTimeout d s
  | .delayReqSend d => Sys2Proof.Machine.execDelayReqSend d s
  | .pdelayReqSend d p => Sys2Proof.Machine.execPdelayReqSend d p s
  | .pdelayReqReceived d p udp dg msg => Sys2Proof.Machine.execPdelayReqReceived d p udp dg msg s
  | .alignmentHoldEnd => Sys2Proof.Machine.execAlignmentHoldEnd s
  | .sourceRelocked => Sys2Proof.Machine.execSourceRelocked s
  | .timeSourceWrite v => Sys2Proof.Machine.execTimeSourceWrite v s
  | .realign => Sys2Proof.Machine.execRealign s
  | .captureEvent u dg => Sys2Proof.Machine.execCaptureEvent u dg s
  | .captureArm u on => Sys2Proof.Machine.execCaptureArm u on s
  | .timeTriggerFire u => Sys2Proof.Machine.execTimeTriggerFire u s
  | .timeTriggerEnable u on instant => Sys2Proof.Machine.execTimeTriggerEnable u on instant s
  | .domainConfigWrite d sub v => Sys2Proof.Machine.execDomainConfigWrite d sub v s
  | .acquisitionArm a id => Sys2Proof.Machine.execAcquisitionArm a id s
  | .acquisitionStop a => Sys2Proof.Machine.execAcquisitionStop a s
  | .manualTrigger a => Sys2Proof.Machine.execManualTrigger a s
  | .deleteRecords a => Sys2Proof.Machine.execDeleteRecords a s
  | .autoTrigger a => Sys2Proof.Machine.execAutoTrigger a s
  | .rearmEnd a => Sys2Proof.Machine.execRearmEnd a s
  | .uploadStart id => Sys2Proof.Machine.execUploadStart id s
  | .acquisitionDatagramSend a upload p upset => Sys2Proof.Machine.execAcquisitionDatagramSend a upload p upset s
  | .pairEnableWrite v => Sys2Proof.Machine.execPairEnableWrite v s
  | .pairLinkUp lanes => Sys2Proof.Machine.execPairLinkUp lanes s
  | .pairLaneLoss lane => Sys2Proof.Machine.execPairLaneLoss lane s
  | .linkingTimeout => Sys2Proof.Machine.execLinkingTimeout s
  | .pairingMessage crcOk m => Sys2Proof.Machine.execPairingMessage crcOk m s
  | .beacon crcOk k t0 claim st mode => Sys2Proof.Machine.execBeacon crcOk k t0 claim st mode s
  | .beaconMissing => Sys2Proof.Machine.execBeaconMissing s
  | .fingerprint crcOk es => Sys2Proof.Machine.execFingerprint crcOk es s
  | .blockRequest crcOk es => Sys2Proof.Machine.execBlockRequest crcOk es s
  | .block crcOk g node cycle data => Sys2Proof.Machine.execBlock crcOk g node cycle data s
  | .exclusions crcOk inTime es => Sys2Proof.Machine.execExclusions crcOk inTime es s
  | .digests crcOk cycle inp outp => Sys2Proof.Machine.execDigests crcOk cycle inp outp s
  | .fieldFrameMessage crcOk l k hdr dev body => Sys2Proof.Machine.execFieldFrameMessage crcOk l k hdr dev body s
  | .localInputs crcOk es => Sys2Proof.Machine.execLocalInputs crcOk es s
  | .forward crcOk item len ke => Sys2Proof.Machine.execForward crcOk item len ke s
  | .forwardedItemApply => Sys2Proof.Machine.execForwardedItemApply s
  | .pairSafetyMessage crcOk pdus => Sys2Proof.Machine.execPairSafetyMessage crcOk pdus s
  | .stateUnit crcOk u => Sys2Proof.Machine.execStateUnit crcOk u s
  | .stateDigests crcOk first ds => Sys2Proof.Machine.execStateDigests crcOk first ds s
  | .stateTransferTimeout => Sys2Proof.Machine.execStateTransferTimeout s
  | .inStepCountReached => Sys2Proof.Machine.execInStepCountReached s
  | .announce crcOk cycle claim => Sys2Proof.Machine.execAnnounce crcOk cycle claim s
  | .takeoverCycle => Sys2Proof.Machine.execTakeoverCycle s
  | .partnerSendDecision r c hdr arrival => Sys2Proof.Machine.execPartnerSendDecision r c hdr arrival s
  | .pairDelay crcOk response t arrival => Sys2Proof.Machine.execPairDelay crcOk response t arrival s
  | .release => Sys2Proof.Machine.execRelease s
  | .repeatPairingChecks => Sys2Proof.Machine.execRepeatPairingChecks s
  | .adoptConfiguration vals => Sys2Proof.Machine.execAdoptConfiguration vals s
  | .islandCycle disagree clock missed supply read ovr => Sys2Proof.Machine.execIslandCycle disagree clock missed supply read ovr s
  | .islandSelfTestDone pass => Sys2Proof.Machine.execIslandSelfTestDone pass s
  | .siChangeAccepted u level => Sys2Proof.Machine.execSiChangeAccepted u level s
  | .testPulse srcB low => Sys2Proof.Machine.execTestPulse srcB low s
  | .soOffPulse o pinB low => Sys2Proof.Machine.execSoOffPulse o pinB low s
  | .discrepancyTimeout f => Sys2Proof.Machine.execDiscrepancyTimeout f s
  | .permitDelayEnd f => Sys2Proof.Machine.execPermitDelayEnd f s
  | .unlockRundownEnd f => Sys2Proof.Machine.execUnlockRundownEnd f s
  | .safetyBlockWrite data => Sys2Proof.Machine.execSafetyBlockWrite data s
  | .confirmationWrite v => Sys2Proof.Machine.execConfirmationWrite v s
  | .safetyStore => Sys2Proof.Machine.execSafetyStore s
  | .safetyStoreComplete ok => Sys2Proof.Machine.execSafetyStoreComplete ok s
  | .islandRestart => Sys2Proof.Machine.execIslandRestart s
  | .vsoRangeChange ok => Sys2Proof.Machine.execVsoRangeChange ok s
  | .nodeSafetyPdu nd claim pdu => Sys2Proof.Machine.execNodeSafetyPdu nd claim pdu s
  | .safetyWatchdogExpiry nd => Sys2Proof.Machine.execSafetyWatchdogExpiry nd s
  | .sourceAssertion src cause datum => Sys2Proof.Machine.execSourceAssertion src cause datum s
  | .wireFault src both clocks => Sys2Proof.Machine.execWireFault src both clocks s
  | .blockSelfTestDone bit pass => Sys2Proof.Machine.execBlockSelfTestDone bit pass s
  | .latchClear => Sys2Proof.Machine.execLatchClear s
  | .forceWrite src v => Sys2Proof.Machine.execForceWrite src v s
  | .forceEnableWrite v => Sys2Proof.Machine.execForceEnableWrite v s
  | .counterClear idx sub v => Sys2Proof.Machine.execCounterClear idx sub v s
  | .memoryAccess reqs => Sys2Proof.Machine.execMemoryAccess reqs s
  | .scrub => Sys2Proof.Machine.execScrub s
  | .correctionRateCheck => Sys2Proof.Machine.execCorrectionRateCheck s
  | .backgroundTestRegion fails => Sys2Proof.Machine.execBackgroundTestRegion fails s
  | .regionRestore => Sys2Proof.Machine.execRegionRestore s
  | .backgroundTestEnable on => Sys2Proof.Machine.execBackgroundTestEnable on s
  | .fullMemoryTest => Sys2Proof.Machine.execFullMemoryTest s
  | .fullMemoryTestEnd mem addr => Sys2Proof.Machine.execFullMemoryTestEnd mem addr s
  | .supplyWarning => Sys2Proof.Machine.execSupplyWarning s
  | .lastCommitComplete us => Sys2Proof.Machine.execLastCommitComplete us s
  | .commitEntryJournal => Sys2Proof.Machine.execCommitEntryJournal s
  | .warningEnd => Sys2Proof.Machine.execWarningEnd s
  | .resetLevelFall => Sys2Proof.Machine.execResetLevelFall s
  | .bringUp hw testEn below vbak => Sys2Proof.Machine.execBringUp hw testEn below vbak s
  | .bringUpComplete => Sys2Proof.Machine.execBringUpComplete s
  | .domainEnableWrite mask => Sys2Proof.Machine.execDomainEnableWrite mask s
  | .domainInWindow d => Sys2Proof.Machine.execDomainInWindow d s
  | .stateRecordRefresh => Sys2Proof.Machine.execStateRecordRefresh s
  | .keyRemoved => Sys2Proof.Machine.execKeyRemoved s
  | .keyInserted => Sys2Proof.Machine.execKeyInserted s
  | .journalWrite ok => Sys2Proof.Machine.execJournalWrite ok s
  | .journalRetry ok => Sys2Proof.Machine.execJournalRetry ok s
  | .modeRequest m => Sys2Proof.Machine.execModeRequest m s
  | .modeTransition => Sys2Proof.Machine.execModeTransition s
  | .storeParameters => Sys2Proof.Machine.execStoreParameters s
  | .storeComplete ok => Sys2Proof.Machine.execStoreComplete ok s
  | .restoreDefaults => Sys2Proof.Machine.execRestoreDefaults s
  | .reloadStored => Sys2Proof.Machine.execReloadStored s
  | .reloadComplete => Sys2Proof.Machine.execReloadComplete s
  | .mappingActivate idx n => Sys2Proof.Machine.execMappingActivate idx n s
  | .managementWatchdog => Sys2Proof.Machine.execManagementWatchdog s
  | .sensorSample temps supply volts amps => Sys2Proof.Machine.execSensorSample temps supply volts amps s
  | .logSelect seq => Sys2Proof.Machine.execLogSelect seq s
  | .logRead => Sys2Proof.Machine.execLogRead s
  | .imageLoadBegin => Sys2Proof.Machine.execImageLoadBegin s
  | .imageBlock num data => Sys2Proof.Machine.execImageBlock num data s
  | .imageBlockWritten ok => Sys2Proof.Machine.execImageBlockWritten ok s
  | .imageVerify => Sys2Proof.Machine.execImageVerify s
  | .imageActivate => Sys2Proof.Machine.execImageActivate s
  | .imageAbort => Sys2Proof.Machine.execImageAbort s
  | .imageBoot => Sys2Proof.Machine.execImageBoot s
  | .relayStart => Sys2Proof.Machine.execRelayStart s
  | .relayAbort => Sys2Proof.Machine.execRelayAbort s
  | .relayActivate => Sys2Proof.Machine.execRelayActivate s
  | .sessionOpen p req nonce comm idle => Sys2Proof.Machine.execSessionOpen p req nonce comm idle s
  | .sessionConfirm p h => Sys2Proof.Machine.execSessionConfirm p h s
  | .challengeLapse id => Sys2Proof.Machine.execChallengeLapse id s
  | .sessionClose p h => Sys2Proof.Machine.execSessionClose p h s
  | .sessionIdleTimeout id => Sys2Proof.Machine.execSessionIdleTimeout id s
  | .dictionaryRead p h items => Sys2Proof.Machine.execDictionaryRead p h items s
  | .dictionaryWrite p h items => Sys2Proof.Machine.execDictionaryWrite p h items s
  | .segmentedBegin p h idx sub total => Sys2Proof.Machine.execSegmentedBegin p h idx sub total s
  | .segmentedData p h idx sub total offset data => Sys2Proof.Machine.execSegmentedData p h idx sub total offset data s
  | .segmentedEnd p h idx sub total => Sys2Proof.Machine.execSegmentedEnd p h idx sub total s
  | .segmentedAbort p h idx sub total => Sys2Proof.Machine.execSegmentedAbort p h idx sub total s
  | .segmentedTimeout id => Sys2Proof.Machine.execSegmentedTimeout id s
  | .segmentedRead p h idx sub offset max => Sys2Proof.Machine.execSegmentedRead p h idx sub offset max s
  | .snapshotReleaseTimeout id idx sub => Sys2Proof.Machine.execSnapshotReleaseTimeout id idx sub s
  | .imageFragment p h num total offset data => Sys2Proof.Machine.execImageFragment p h num total offset data s
  | .imageSubscription p h period => Sys2Proof.Machine.execImageSubscription p h period s
  | .imageFragmentSend p id => Sys2Proof.Machine.execImageFragmentSend p id s
  | .eventSubscription p h mask => Sys2Proof.Machine.execEventSubscription p h mask s
  | .eventDatagramSend p id => Sys2Proof.Machine.execEventDatagramSend p id s
  | .arpRequest p plain target sender mac => Sys2Proof.Machine.execArpRequest p plain target sender mac s
  | .icmpEcho p plain src dst ident seq data => Sys2Proof.Machine.execIcmpEcho p plain src dst ident seq data s
  | .dhcpReply p kind addr mask router lease => Sys2Proof.Machine.execDhcpReply p kind addr mask router lease s
  | .dhcpRenew p => Sys2Proof.Machine.execDhcpRenew p s
  | .dhcpRebind p => Sys2Proof.Machine.execDhcpRebind p s
  | .dhcpLeaseExpiry p => Sys2Proof.Machine.execDhcpLeaseExpiry p s
  | .ethernetLinkChange p speed => Sys2Proof.Machine.execEthernetLinkChange p speed s
  | .sourceDeasserted src => Sys2Proof.Machine.execSourceDeasserted src s
  | .nodeMailboxRequest nd seq cap payload answer => Sys2Proof.Machine.execNodeMailboxRequest nd seq cap payload answer s
  | .nodeSampleInstant nd offset data => Sys2Proof.Machine.execNodeSampleInstant nd offset data s
  | .nodeCycleStart nd => Sys2Proof.Machine.execNodeCycleStart nd s
  | .vbakLoss => Sys2Proof.Machine.execVbakLoss s
  | .pulseInputSignalRestored u => Sys2Proof.Machine.execPulseInputSignalRestored u s

end Sys2Proof.Machine
end

