-- ==== Sys2Proof/Machine/Pins.lean ====
section
/-! DEFINITION. The output pins as functions of the state (R382, R495, R497, R498): what each pin group shows between steps. -/
namespace Sys2Proof.Machine

/-- What an output pin shows: not driven, or driven low or high. -/
inductive PinLevel where
  | float | low | high
  deriving DecidableEq, Repr

/-- A driven level. -/
def pinOf (b : Bool) : PinLevel := if b then .high else .low

/-- Whether the part has read its parameters or runs on defaults: bit 1 of 0x1010 or 0x1011 (R497). -/
def paramsDone (d : Dev) : Bool := bit (og d 0x1010 0) 1 || bit (og d 0x1011 0) 1

/-- Whether ERR_N and ERR_P show an error (R382, R497, R498): until the collector is ready after a power-up, and then, or through a
chip reset or commanded restart (R424), as the collector holds them. -/
def errShown (d : Dev) : Bool := d.fc.errPins || (!ready d 2 && decide (d.power.restart < 3))

/-- ERR_N: an open drain, low while an error is shown; it floats without supply (R497). -/
def pinErrN (d : Dev) : PinLevel := if d.power.powered && errShown d then .low else .float
/-- ERR_P: high while an error is shown, off otherwise (R497). -/
def pinErrP (d : Dev) : PinLevel := if d.power.powered && errShown d then .high else .float

/-- SO pins 2n (SOnA) and 2n + 1 (SOnB): high-side switches, off outside what the island switches on (R345, R356, R357). -/
def pinSo (s : State) (p : Fin 8) : PinLevel := if s.dev.power.powered && s.isl.vso && bit s.isl.so p.val then .high else .float

/-- TP_A and TP_B between their off-pulses: on outside Off, Starting and Fault (R348, R497). -/
def pinTp (s : State) : PinLevel := if 2 ≤ s.isl.state && s.isl.state ≤ 4 then .high else .float

/-- Whether the emulation output drives its pairs (R169, R322, R497). -/
def emuDriven (d : Dev) (m : EOut) : Bool :=
  d.power.powered && ready d 16 && mode d != 5 && d.pair.driving && og d (0x3D40 + m.val) 1 = 1
/-- A, B and Z of an emulation output (R167-R169). -/
def pinEe (d : Dev) (m : EOut) : PinLevel × PinLevel × PinLevel :=
  let l := emuPins d m.val
  if emuDriven d m then (pinOf l.1, pinOf l.2.1, pinOf l.2.2) else (.float, .float, .float)

/-- Step and direction of a channel between step pulses (R131, R135, R150, R322, R497), polarity as taken at the cycle start. The direction
pin is at its active level while sigma is -1 (DESIGN CHOICE, log 85); a channel that is off, or whose unit is not ready, and every channel outside
Running and Safe-hold is at the inactive levels. -/
def pinSt (d : Dev) (c : SOut) : PinLevel × PinLevel :=
  let p := chan d c.val
  if !d.power.powered || !paramsDone d || !d.pair.driving then (.float, .float)
  else (pinOf (bit p.pol 0), pinOf (bit p.pol 1 != (p.on && ready d 15 && (mode d = 3 || mode d = 4) && p.neg)))

/-- CYC_TAP (R250, R497): at its active level while a pulse runs. -/
def pinCycTap (d : Dev) : PinLevel :=
  if !d.power.powered || !ready d 4 then .float
  else pinOf ((og d 0x3508 3 = 1) != d.time.taps.any (fun p => p.1 ≤ d.time.local_ && d.time.local_ < p.2.1))

/-- What a transmitter shows (R497): no signal, the idle set or negotiation alone, or traffic. -/
inductive TxState where
  | silent | idle | active
  deriving DecidableEq, Repr

/-- The outputs of a ring (R229, R497): no signal until the engine is ready, which then sends, or passes frames through. -/
def txRing (d : Dev) (r : Ring) : TxState := if d.power.powered && ready d (18 + r.val) then .active else .silent
/-- The transmit pairs of a line (R229, R497): /I/ while the segment is Off. -/
def txLine (d : Dev) (l : Line) : TxState :=
  if !d.power.powered || !ready d (26 + l.val) then .silent else if segState d (lseg l.val) = 0 then .idle else .active
/-- The pair-link lanes (R323, R497). -/
def txPair (d : Dev) : TxState := if d.power.powered && ready d 31 && og d 0x3C00 1 = 1 then .active else .silent
/-- An Ethernet port (R464, R497): auto-negotiation once D6 is in its window, traffic from bit 30. -/
def txEth (d : Dev) (p : Port) : TxState :=
  if !d.power.powered || !bit (og d 0x2010 2) 6 || (d.host.ports.getD p.val (1, 0, 0)).1 != 1 then .silent
  else if ready d 30 then .active else .idle
/-- Whether KEY_VDD is on and the key signals are driven: once D1 is in its window (R497). -/
def keyDriven (d : Dev) : Bool := d.power.powered && bit (og d 0x2010 2) 1

/-- Ohms of the termination a pulse input switches in: none single-ended or disabled (R495, R497). -/
def fbTermination (d : Dev) (i : PIn) : Option Nat :=
  if !d.power.powered || !paramsDone d || og d (0x3D00 + i.val) 1 != 1 || og d (0x3D00 + i.val) 2 != 0 then none
  else some (if og d 0x3C00 1 = 1 then 240 else 120)

end Sys2Proof.Machine
end

