-- ==== Sys2Proof/Safety.lean ====
section
/-! DEFINITION. The terms in which statements about the part are made: what a command does to the state and leaves alone, which commands
reach the island, the nodes and the shared memory, and what a safe state of the outputs is. -/
namespace Sys2Proof.Machine

/-- Nothing waits at the collector's inputs and no chip reset is under way: how a step leaves the part. -/
def Settled (s : State) : Prop := s.dev.fc.todo = [] ∧ s.dev.power.cleared = false

/-- Command `c` runs, changes the device only, and leaves it as `P` says. -/
def Does (c : Instr) (s : State) (P : Dev → Prop) : Prop := ∃ d, exec c s = .next { s with dev := d } ∧ P d

/-- Command `c` runs; the device is as `P` says when the collector takes the reports that arose, and nothing but what those reports
do follows (R376, R380). -/
def Leaves (c : Instr) (s : State) (P : Dev → Prop) : Prop := ∃ d, exec c s = .next (upd s (fun _ => d)) ∧ P d

/-- Every object value whose key is not listed reads as before. -/
def ObjsKept (a b : Dev) (keys : List Nat) : Prop := ∀ k, k ∉ keys → tget objDefault b.objs k = tget objDefault a.objs k

/-- Command `c` runs and nothing changes. -/
def Idles (c : Instr) (s : State) : Prop := exec c s = .next s

/-- Command `c` runs, answers its status and changes nothing else (R37). -/
def Answers (c : Instr) (s : State) (st : Status) : Prop := exec c s = .next { s with dev := answer s.dev st }

/-- From device `a` to device `b` only the listed object values change, and the messages `ms` are handed to the ports. -/
def Writes (a b : Dev) (keys : List Nat) (ms : List Msg) : Prop :=
  b = { a with objs := b.objs, out := a.out ++ ms } ∧ ObjsKept a b keys

/-- The counters of entries and items the collector could not take (R378, R447, R455). -/
def dropKeys : List Nat := [okey 0x2100 6, okey 0x2E30 7, okey 0x3800 0x0A]

/-- From device `a` to device `b` only the listed object values change and the messages `ms` are handed to the ports, beside numbered
items: the collector with its log, its drop counters, and the log entries that wait for subscribers (R376, R381, R482). -/
def Logs (a b : Dev) (keys : List Nat) (ms : List Msg) : Prop :=
  b = { a with objs := b.objs, fc := b.fc, host := b.host, out := a.out ++ ms } ∧ ObjsKept a b (dropKeys ++ keys)

/-- The status report of a command (R37). -/
def said (st : Status) : Msg := .status (statusCode st) 0

/-- Datagram `h` with this body on port p is a new request of session x (R465-R472): the link runs, frame, header and UDP port are right, the
session is known and open (or its opening is what is confirmed), the tag is good, the counter is higher than the last, and no stored response bears
its request ID. -/
def Accepted (s : State) (p : Port) (h : Kda) (typ : Nat) (body : Bytes) (x : Session) : Prop :=
  screen s.dev p h typ body = none ∧ findSession s.dev h.session.toNat = some x ∧
  h.tag = kdaTag x.key (kdaHeader typ 0 0 x.id h.counter.toNat h.reqId.toNat body.length) body ∧ x.rx < h.counter.toNat ∧
  (x.isOpen = true ∨ typ = 0x12) ∧ (∀ r ∈ x.stored, r.1 ≠ h.reqId.toNat)

/-- The response datagram to a request of session x: type, status and body, with the session's next counter and its tag (R467, R471). -/
def response (p : Port) (x : Session) (typ status req : Nat) (body : Bytes) : Msg :=
  .datagram p x.id typ (kdaHeader typ 1 status x.id (x.tx + 1) req body.length ++ body ++
    kdaTag x.key (kdaHeader typ 1 status x.id (x.tx + 1) req body.length) body)

/-- Command `c`, request `h` of session x, runs and is answered by one response, which the session keeps for repetitions (R472); the device
is then as `P` says, given the session as it is then. -/
def Served (c : Instr) (s : State) (p : Port) (h : Kda) (x : Session) (typ status : Nat) (body : Bytes) (P : Dev → Session → Prop) : Prop :=
  ∃ d y, exec c s = .next { s with dev := d } ∧ d.out = s.dev.out ++ [response p x typ status h.reqId.toNat body] ∧
    findSession d x.id = some y ∧ y.rx = h.counter.toNat ∧ y.tx = x.tx + 1 ∧ y.key = x.key ∧
    y.stored.getLast? = some (h.reqId.toNat, typ, status, body) ∧ P d y

/-- Beside the listed object values, only the host link with its sessions and the messages handed out change from `a` to `b`. -/
def HostOnly (a b : Dev) (keys : List Nat) : Prop :=
  b = { a with objs := b.objs, host := b.host, out := b.out } ∧ ObjsKept a b keys

/-- Command `code` of axis object 0x08.01 as a command of the table (R102). -/
def axisCmd (code : Nat) (n : Ax) (seq : BitVec 8) : Instr :=
  if code = 0 then .axisCommandNone n seq else if code = 1 then .enable n seq else if code = 2 then .disable n seq
  else if code = 3 then .append n seq else if code = 4 then .stopHold n seq else if code = 5 then .stopQuick n seq
  else if code = 6 then .resume n seq else if code = 7 then .flush n seq else if code = 8 then .home n seq else .acknowledge n seq

/-- From device `a` to device `b` only axis n changes: its objects, its motion, loop, current and step state; reports may wait. -/
def AxisOnly (a b : Dev) (n : Nat) : Prop :=
  b = { a with objs := b.objs, motion := b.motion, servo := b.servo, current := b.current, stepper := b.stepper,
               fc := { a.fc with todo := b.fc.todo } } ∧
  (∀ k, k < okey (ax n 0) 0 ∨ okey (ax (n + 1) 0) 0 ≤ k → tget objDefault b.objs k = tget objDefault a.objs k) ∧
  ∀ m, m ≠ n → mot b m = mot a m ∧ srv b m = srv a m ∧ cur b m = cur a m ∧ stp b m = stp a m

/-- Datagram `h` with this body is no authenticated one: its session is not known, not open, or has not given its tag (R468, R472). -/
def Unauthenticated (s : State) (h : Kda) (typ : Nat) (body : Bytes) : Prop :=
  ∀ x, findSession s.dev h.session.toNat = some x → x.isOpen = false ∨
    h.tag ≠ kdaTag x.key (kdaHeader typ 0 0 x.id h.counter.toNat h.reqId.toNat body.length) body

/-- Command `c` runs and carries nothing out: at most a message status is answered, the refusal counted (0x2F20.01-03) and reported. -/
def Rejected (c : Instr) (s : State) (p : Port) (typ : Nat) (h : Kda) : Prop :=
  Leaves c s (fun d =>
    (d.out = s.dev.out ∨ ∃ st, d.out = s.dev.out ++ [.datagram p 0 typ (kdaHeader typ 1 st 0 0 h.reqId.toNat 0)]) ∧
    d = { s.dev with objs := d.objs, fc := { s.dev.fc with todo := d.fc.todo }, host := d.host, out := d.out } ∧
    ObjsKept s.dev d [okey 0x2F20 1, okey 0x2F20 2, okey 0x2F20 3, okey 0x2F20 8])

/-- Session `id` exists no more, the image lease is not its own, and every other session is as it was (R473). -/
def SessionGone (s t : State) (id : Nat) : Prop :=
  findSession t.dev id = none ∧ t.dev.host.lease = (if s.dev.host.lease = id then 0 else s.dev.host.lease) ∧
  ∀ i, i ≠ id → findSession t.dev i = findSession s.dev i

/-- Axis command `code` with a new sequence byte is taken: command object and echo as R101 and R102 say, with this result, and as `P` says. -/
def Taken (code : Nat) (n : Ax) (seq : BitVec 8) (s : State) (result : Nat) (P : Dev → Prop) : Prop :=
  Leaves (axisCmd code n seq) s (fun d =>
    og d (ax n.val 8) 1 = seq.toNat * 256 + code ∧ og d (ax n.val 9) 3 = seq.toNat * 256 + result ∧ P d)

/-- A new command to axis n of an unpaired device whose profile unit, cluster and, for a local step axis, step unit are ready (R100, R101,
R131). -/
def Commandable (n : Ax) (seq : BitVec 8) (s : State) : Prop :=
  paired s.dev = false ∧ seq.toNat ≠ og s.dev (ax n.val 9) 3 / 256 ∧ axisReady s.dev n.val = true

/-- A report of source `src` as a step hands it to the collector. -/
def rep (src cause datum stop : Nat) : Report := ⟨src, cause, datum, false, false, stop⟩

/-- The pair link is idle, and has room for at least 1,000 bytes of any class in this base cycle (R327). -/
def LinkFree (d : Dev) : Prop := og d 0x3C01 9 ≠ 0 ∧ d.pair.queue = [] ∧ d.pair.used ≤ 5000

/-- The collector can take a new report of a source to its end without a reset, a stop or a drop: it is ready and unsealed, the source is
defined and not live, its reaction asks for at most a log entry (I) and the external pins (E), the log has room, and no counter it moves
is about to saturate (R376-R388, R455). -/
def Calm (d : Dev) (src : Nat) : Prop :=
  ready d 2 = true ∧ sealed d = false ∧ reservedSource src = false ∧ live d src = false ∧
  (∀ b ∈ [1, 2, 3], bit (og d (0x3900 + src) 1) b = false) ∧
  commitWindow d = false ∧ d.fc.waiting < 1024 ∧ d.fc.log.length < 1024 ∧
  og d (0x3840 + src) 0 < 0xFFFFFFFE ∧ og d 0x2020 2 < 0xFFFFFFFE ∧ og d 0x2020 3 < 0xFFFFFFFE

/-- The objects an assertion of a source may change at the collector and in the status it shows: its counter, the first-source latch, and
supply, domain and clock status (R386, R388, R419, R422). -/
def reportKeys (src : Nat) : List Nat :=
  [okey (0x3840 + src) 0, okey 0x2000 1, okey 0x2010 2, okey 0x2010 3, okey 0x2020 1, okey 0x2020 2, okey 0x2020 3] ++
  (List.range 8).map (fun i => okey 0x3800 (i + 1))

/-- The commands that reach the safety island: its own, its inputs, its supply, the sessions that may write its objects, and what
applies such writes. Every other command leaves it alone (R14). -/
def reachesIsland (c : Instr) : Bool :=
  match c with
  | .islandCycle .. | .islandSelfTestDone .. | .siChangeAccepted .. | .testPulse .. | .soOffPulse .. | .discrepancyTimeout ..
  | .permitDelayEnd .. | .unlockRundownEnd .. | .safetyBlockWrite .. | .confirmationWrite .. | .safetyStore | .safetyStoreComplete ..
  | .islandRestart | .vsoRangeChange .. | .pairSafetyMessage .. | .fieldFrameReceived .. | .bringUp .. | .resetLevelFall
  | .supplyWarning | .counterClear .. | .sessionConfirm .. | .sessionClose .. | .sessionIdleTimeout .. | .dictionaryWrite .. | .segmentedEnd ..
  | .forwardedItemApply | .controlInstant => true
  | _ => false

/-- The commands of a node (R188-R248). -/
def nodeOf (c : Instr) : Option NodeId :=
  match c with
  | .nodeApplyInstant n _ | .nodeRollCallFrame n .. | .nodeFrameLockTaken n _ | .nodeFrameLockLost n | .nodeMailboxRequest n ..
  | .nodeSampleInstant n .. | .nodeCycleStart n | .nodeSafetyPdu n .. | .safetyWatchdogExpiry n => some n
  | .nodeCopyReceived r j .. | .nodeTargetMissing r j _ | .nodeWrapStart r j _ | .nodeWrapEnd r j _ => some (.ring r j)
  | .nodeSummationReceived l k .. | .nodeSendInstant l k .. => some (.line l k)
  | _ => none

/-- The commands that reach the shared memory's contents (R395-R408). -/
def reachesMemory (c : Instr) : Bool :=
  match c with
  | .memoryAccess _ | .scrub | .backgroundTestRegion _ | .regionRestore | .fullMemoryTestEnd .. => true
  | _ => false

/-- The safety outputs are safe (R345, R357): outside Run no permit stands and no SO pin is on, and a pair that is on has its supply in
range and no output fault. -/
def OutputsSafe (i : IslandSt) : Prop :=
  (i.state ≠ 4 → i.permits = 0 ∧ i.so = 0) ∧
  ∀ n, n < 4 → (bit i.so (2 * n) = true ∨ bit i.so (2 * n + 1) = true) → i.vso = true ∧ bit i.soFault n = false

end Sys2Proof.Machine
end

