-- ==== Sys2Proof/Certificates/Slice0/Obligations.lean ====
section
/-! DEFINITION. The statements for the provers: what the commands do, by the rules of the manual, and what every step keeps. -/

open Sys2Proof Sys2Proof.Machine

/-! ## The whole part -/

/-- A step takes the command at the front of the queue, runs it on the state with the queue's rest, and answers its outcome; on an empty queue
the part idles (log 2: the queue is the model's, the manual has none). -/
def Obligations.StepRunsTheFrontCommand : Prop :=
  (∀ (c : Instr) (rest : List Instr) (s : State), s.pending = c :: rest → step s = exec c { s with pending := rest }) ∧
  (∀ s : State, s.pending = [] → step s = .next s)

/-- Every command of the table, in every state and for all operands, is answered with a next state, and leaves the queue alone: no command is
turned away by the model (log 1). -/
def Obligations.EveryCommandAnswersAndKeepsTheQueue : Prop :=
  ∀ (c : Instr) (s : State), ∃ t, exec c s = .next t ∧ t.pending = s.pending

/-- After reset the device is in Bring-up with no function ready (R9, R46), the island is Off with its stop request raised and every SO pin
off (R345, R373), no segment or axis is in motion, ERR_N and ERR_P show an error until the collector is ready (R497), and no command
waits. The reset state meets the two invariants of the model: the shared memory is in its canonical form, and the safety outputs are safe. -/
def Obligations.ResetState : Prop :=
  (mode State.reset.dev = 1 ∧ og State.reset.dev 0x1010 0 = 0 ∧ og State.reset.dev 0x1011 0 = 0 ∧
    og State.reset.dev 0x1020 4 = 4 ∧ State.reset.isl.state = 0 ∧ State.reset.isl.stopReq = true ∧ State.reset.isl.so = 0 ∧
    (∀ p, pinSo State.reset p = .float) ∧ (∀ g : Seg, segState State.reset.dev g.val = 0) ∧
    (∀ n : Ax, axState State.reset.dev n.val = 0 ∧ kind State.reset.dev n.val = 0) ∧
    pinErrN State.reset.dev = .low ∧ pinErrP State.reset.dev = .high ∧ og State.reset.dev 0x3800 2 = 0xFF ∧
    State.reset.pending = []) ∧
  (Memory.wf State.reset.mem.cells = true ∧ OutputsSafe State.reset.isl)

/-- Every step keeps the canonical form of the shared memory: addresses rise and no listed byte is the one an unlisted address reads as (log
4), so equal contents are equal data. -/
def Obligations.SharedMemoryStaysCanonical : Prop :=
  ∀ s t : State, Memory.wf s.mem.cells = true → step s = .next t → Memory.wf t.mem.cells = true

/-- Only accesses, scrubs and tests of the shared memory change its contents; any other command keeps all of it, unless it resets the chip,
which clears it (R384, log 4). -/
def Obligations.SharedMemoryReachedByItsCommandsOnly : Prop :=
  ∀ (c : Instr) (s t : State), reachesMemory c = false → exec c s = .next t → t.mem = s.mem ∨ t.mem = .reset

/-- No block writes into the safety island: a command other than the island's own, its inputs, its supply and the sessions that write its
objects leaves every part of the island as it was, whatever it does to the device (R14), a chip reset included. -/
def Obligations.NoOtherBlockWritesTheIsland : Prop :=
  ∀ (c : Instr) (s t : State), reachesIsland c = false → exec c s = .next t → t.isl = s.isl

/-- In every state except Run every SO pin is off and every permit is 0, and a pair of pins is on only with its supply in range and no output
fault (R345, R357): every step keeps this, whatever the command. -/
def Obligations.SafetyOutputsStaySafe : Prop :=
  ∀ s t : State, OutputsSafe s.isl → step s = .next t → OutputsSafe t.isl

/-- A command of a node changes that node, what the node sends and nothing else (but for the free values it takes, log 3); every other command
leaves all nodes as they are: no head writes a node's state except through frames. -/
def Obligations.NodeCommandsChangeOneNode : Prop :=
  ∀ (c : Instr) (s t : State), exec c s = .next t →
    match nodeOf c with
    | none => t.nodes = s.nodes
    | some n =>
      t = { s with nodes := t.nodes, dev := { s.dev with out := t.dev.out, free := t.dev.free } } ∧
      ∀ k, k ≠ nkey (nodeSeg n) (nodeNum n) → tget (fun _ => NodeSt.reset) t.nodes k = tget (fun _ => NodeSt.reset) s.nodes k

/-! ## The fault collector -/

/-- An assertion of a source that is not live, whose reaction is at most I and E, receives the arbiter's next number and only that (R376),
counts once in its counter (R387), is the first-source latch's entry when the latch is empty and sets its overflow bit when it is not
(R386), is logged exactly with reaction I (R381) and shows an error at ERR_N and ERR_P exactly with reaction E or before (R382). A level
source is live from then on, an event is not (R527; source 185, log dropped, ends as an entry is buffered). A parity error of a scratchpad
(sources 32 to 39) is counted and its byte stays bad (R403). Nothing else changes but what subscribers and armed acquisition sets note of it.
The source of a power domain that is off is not asserted (the next statement). -/
def Obligations.AssertionIsNumberedLatchedCountedAndLogged : Prop :=
  ∀ (src : Src) (cause : BitVec 16) (datum : BitVec 32) (s : State),
    Settled s → Calm s.dev src.val → bit s.dev.fc.wire src.val = false →
    (8 ≤ src.val → src.val ≤ 15 → bit (og s.dev 0x2010 1) (src.val - 8) = true) →
    Does (.sourceAssertion src cause datum) s (fun d =>
      d.fc.nextSeq = s.dev.fc.nextSeq + 1 ∧
      og d (0x3840 + src.val) 0 = og s.dev (0x3840 + src.val) 0 + 1 ∧
      (og s.dev 0x3800 2 = 0xFF → og d 0x3800 2 = src.val ∧ og d 0x3800 3 = s.dev.fc.nextSeq ∧ og d 0x3800 6 = cause.toNat ∧
        og d 0x3800 7 = datum.toNat ∧ og d 0x3800 8 = 0) ∧
      (og s.dev 0x3800 2 ≠ 0xFF → og d 0x3800 1 = 1 ∧ ∀ i, 2 ≤ i → i ≤ 8 → og d 0x3800 i = og s.dev 0x3800 i) ∧
      d.fc.log = (if bit (og s.dev (0x3900 + src.val) 1) 0 then
          s.dev.fc.log ++ [⟨s.dev.fc.nextSeq, localNs s.dev, segNs s.dev, 1 + epochFlag s.dev, src.val, cause.toNat, datum.toNat⟩]
        else s.dev.fc.log) ∧
      d.fc.errPins = (s.dev.fc.errPins || bit (og s.dev (0x3900 + src.val) 1) 4) ∧
      (∀ b, b ≠ 185 → bit d.fc.cond b = (bit s.dev.fc.cond b || (levelSource src.val && b = src.val))) ∧
      (src.val < 32 ∨ 39 < src.val → d.pads = s.dev.pads ∧ ObjsKept s.dev d (reportKeys src.val)) ∧
      (32 ≤ src.val → src.val ≤ 39 → og s.dev 0x3E40 (src.val - 31) < 0xFFFFFFFE →
        og d 0x3E40 (src.val - 31) = og s.dev 0x3E40 (src.val - 31) + 1 ∧ (datum.toNat < 2 ^ 18 → datum.toNat ∈ (pad d (src.val - 32)).bad)) ∧
      d = { s.dev with objs := d.objs, fc := d.fc, host := d.host, acq := d.acq, pads := d.pads } ∧
      ObjsKept s.dev d (okey 0x3E40 (src.val - 31) :: reportKeys src.val))

/-- A level source is asserted when its condition begins and not again while it stays (R527); a reserved source, and that of a power domain
that is off (R420), is never asserted. When the
rails show the deasserted code again the source's condition ends and with it the status it shows (R375, R419, R429). An invalid rail code
of at most 2 fabric clocks is ignored; a longer one counts as an assertion of its source with the wire-fault flag and marks the source in
the wire-fault map, where it stands until the latch clear (R375, R386). Force bits (R391): without the enable, setting one answers
"state"; with it, setting the bit of a source that is not live asserts the source with the force flag; clearing a bit needs no enable.
Clearing the enable clears all 192 force bits. -/
def Obligations.SourcesAreAssertedAndEnd : Prop :=
  (∀ (src : Src) (cause : BitVec 16) (datum : BitVec 32) (s : State), Settled s →
      (reservedSource src.val = true ∨ 8 ≤ src.val ∧ src.val ≤ 15 ∧ bit (og s.dev 0x2010 1) (src.val - 8) = false →
        Idles (.sourceAssertion src cause datum) s) ∧
      (ready s.dev 2 = true → levelSource src.val = true → bit s.dev.fc.cond src.val = true → bit s.dev.fc.wire src.val = false →
        Idles (.sourceAssertion src cause datum) s) ∧
      (bit s.dev.fc.cond src.val = true → Does (.sourceDeasserted src) s (fun d =>
        bit d.fc.cond src.val = false ∧ bit d.fc.wire src.val = false ∧
        (∀ b, b ≠ src.val → bit d.fc.cond b = bit s.dev.fc.cond b ∧ bit d.fc.wire b = bit s.dev.fc.wire b) ∧
        (8 ≤ src.val → src.val ≤ 15 → bit (og d 0x2010 3) (src.val - 8) = false) ∧
        (src.val = 1 → bit (og d 0x2000 1) 5 = false) ∧
        (src.val = 2 → bit (og d 0x2020 1) 0 = true) ∧ (src.val = 3 → bit (og d 0x2020 1) 1 = true ∧ bit (og d 0x2020 1) 2 = true) ∧
        (∀ m, bit (og d 0x2010 2) m = (bit (og s.dev 0x2010 2) m || decide (m < 8 ∧ m + 8 = src.val) && bit (og s.dev 0x2010 1) m)) ∧
        d = { s.dev with objs := d.objs, fc := { s.dev.fc with cond := d.fc.cond, wire := d.fc.wire } } ∧
        ObjsKept s.dev d [okey 0x2000 1, okey 0x2010 2, okey 0x2010 3, okey 0x2020 1]))) ∧
  (∀ (src : Src) (both : Bool) (clocks : BitVec 16) (s : State), Settled s →
      (clocks.toNat ≤ 2 → Idles (.wireFault src both clocks) s) ∧
      (2 < clocks.toNat → Calm s.dev src.val → Does (.wireFault src both clocks) s (fun d =>
        bit d.fc.wire src.val = true ∧ bit (og d 0x3802 (src.val / 64 + 1)) (src.val % 64) = true ∧
        d.fc.nextSeq = s.dev.fc.nextSeq + 1 ∧ og d (0x3840 + src.val) 0 = og s.dev (0x3840 + src.val) 0 + 1 ∧
        (og s.dev 0x3800 2 = 0xFF → og d 0x3800 2 = src.val ∧ og d 0x3800 3 = s.dev.fc.nextSeq ∧ og d 0x3800 8 = 1) ∧
        d = { s.dev with objs := d.objs, fc := d.fc, host := d.host, acq := d.acq } ∧
        ObjsKept s.dev d (okey 0x3802 (src.val / 64 + 1) :: reportKeys src.val)))) ∧
  (∀ (src : Src) (s : State), Settled s → ready s.dev 2 = true → reservedSource src.val = false →
      (og s.dev 0x3830 1 = 0 → Answers (.forceWrite src true) s .state) ∧
      (og s.dev 0x3830 1 ≠ 0 → Calm s.dev src.val → Does (.forceWrite src true) s (fun d =>
        og d (0x3900 + src.val) 3 = 1 ∧ d.fc.nextSeq = s.dev.fc.nextSeq + 1 ∧
        og d (0x3840 + src.val) 0 = og s.dev (0x3840 + src.val) 0 + 1 ∧
        (og s.dev 0x3800 2 = 0xFF → og d 0x3800 2 = src.val ∧ og d 0x3800 3 = s.dev.fc.nextSeq ∧ og d 0x3800 8 = 2) ∧
        d = { s.dev with objs := d.objs, fc := d.fc, host := d.host, acq := d.acq, out := s.dev.out ++ [said .ok] } ∧
        ObjsKept s.dev d (okey (0x3900 + src.val) 3 :: reportKeys src.val))) ∧
      Does (.forceWrite src false) s (fun d =>
        og d (0x3900 + src.val) 3 = 0 ∧ Writes s.dev d [okey (0x3900 + src.val) 3] [said .ok]) ∧
      Does (.forceEnableWrite true) s (fun d => og d 0x3830 1 = 1 ∧ Writes s.dev d [okey 0x3830 1] [said .ok]) ∧
      Does (.forceEnableWrite false) s (fun d =>
        og d 0x3830 1 = 0 ∧ (∀ n, n < 192 → og d (0x3900 + n) 3 = 0) ∧
        Writes s.dev d (okey 0x3830 1 :: (List.range 192).map (fun n => okey (0x3900 + n) 3)) [said .ok]))

/-- A self-test that completes: one that passes sets its function's readiness bit and no other when every function it depends on is ready
(R10, R45); one that fails sets the failed bit instead, and before the collector is ready its report (source 186) waits there (R376,
R442). A function but those of bits 0, 2, 3 and 4 (5, the island's, is not tested here) does not become ready while one of 0, 3 and 4 is
not. -/
def Obligations.SelfTestMakesAFunctionReadyOrFailed : Prop :=
  ∀ (b : Fin 32) (s : State), s.dev.power.booted = true → testDue s.dev b.val = true →
    (bit (closeReady s.dev (setBit (og s.dev 0x1010 0) b.val true)) b.val = true → Leaves (.blockSelfTestDone b true) s (fun d =>
      ready d b.val = true ∧ (∀ c, c ≠ b.val → ready d c = ready s.dev c) ∧ og d 0x1011 0 = og s.dev 0x1011 0)) ∧
    (Settled s → b.val ≠ 0 → b.val ≠ 2 → b.val ≠ 3 → b.val ≠ 4 →
      (ready s.dev 0 && ready s.dev 3 && ready s.dev 4) = false → Idles (.blockSelfTestDone b true) s) ∧
    (Settled s → ready s.dev 2 = false → Does (.blockSelfTestDone b false) s (fun d =>
      bit (og d 0x1011 0) b.val = true ∧ (∀ c, c ≠ b.val → bit (og d 0x1011 0) c = bit (og s.dev 0x1011 0) c) ∧
      d.fc = { s.dev.fc with held := s.dev.fc.held ++ [rep 186 0 b.val 0] } ∧
      d = { s.dev with objs := d.objs, fc := d.fc } ∧ ObjsKept s.dev d [okey 0x1011 0]))

/-- The write of the latch clear, an item with a number of its own, empties the first-source latch (0x3800.02 reads 0xFF) and clears its
overflow bit and the wire-fault map, and releases ERR_N and ERR_P exactly when no source with reaction E is live (R382, R386). Before the
collector is ready it answers "not ready" and does nothing (R36). A statistics counter is cleared by a write of 0, which writes that
object alone (one of the island's counters in the island, R14); a write of another value is out of range and changes nothing (R388). -/
def Obligations.LatchAndCountersAreCleared : Prop :=
  (∀ s : State, Settled s →
      (ready s.dev 2 = false → Answers .latchClear s .notReady) ∧
      (ready s.dev 2 = true → og s.dev 0x3800 0x0A < 0xFFFFFFFE → Does .latchClear s (fun d =>
        og d 0x3800 1 = 0 ∧ og d 0x3800 2 = 0xFF ∧ (∀ i, 3 ≤ i → i ≤ 8 → og d 0x3800 i = 0) ∧
        (∀ i, 1 ≤ i → i ≤ 3 → og d 0x3802 i = 0) ∧
        (sealed s.dev = false → d.fc.nextSeq = s.dev.fc.nextSeq + 1) ∧
        d.fc.errPins = (s.dev.fc.errPins && (List.range 192).any (fun b => live s.dev b && bit (og s.dev (0x3900 + b) 1) 4)) ∧
        d.fc = { s.dev.fc with nextSeq := d.fc.nextSeq, errPins := d.fc.errPins } ∧
        d = { s.dev with objs := d.objs, fc := d.fc, out := s.dev.out ++ [said .ok] } ∧
        ObjsKept s.dev d (okey 0x3800 0x0A :: (List.range 8).map (fun i => okey 0x3800 (i + 1)) ++
          (List.range 3).map (fun i => okey 0x3802 (i + 1)))))) ∧
  (∀ (idx : BitVec 16) (sub : BitVec 8) (v : BitVec 32) (s : State),
      indexKnown idx.toNat = true → isCounter idx.toNat sub.toNat = true → ready s.dev (ownerBit s.dev idx.toNat) = true →
      (v ≠ 0 → Answers (.counterClear idx sub v) s .range) ∧
      (idx ≠ 0x3A30 → Does (.counterClear idx sub 0) s (fun d =>
        og d idx.toNat sub.toNat = 0 ∧ Writes s.dev d [okey idx.toNat sub.toNat] [said .ok])) ∧
      (idx = 0x3A30 → ∃ i, exec (.counterClear idx sub 0) s = .next { s with isl := i, dev := answer s.dev .ok } ∧
        tget (fun _ => 0) i.counters sub.toNat = 0 ∧ i = { s.isl with counters := i.counters } ∧
        ∀ k, k ≠ sub.toNat → tget (fun _ => 0) i.counters k = tget (fun _ => 0) s.isl.counters k))

/-- An assertion of a source whose reaction includes C (and no T or B, which would come first) resets the chip at its end (R384, R428): the
device is in Bring-up with no function but the island's readiness left as it was, the mode it was in shows as the previous mode, every
motion and the log buffer are gone, the shared memory is empty, and nothing of the island changes. The backup words, local time and the
external pins stay, with E asserting them first (R380). -/
def Obligations.ReactionCResetsTheChip : Prop :=
  ∀ (src : Src) (cause : BitVec 16) (datum : BitVec 32) (s : State),
    Settled s → ready s.dev 2 = true → 1 ≤ mode s.dev → reservedSource src.val = false → live s.dev src.val = false →
    bit (og s.dev (0x3900 + src.val) 1) 1 = false → bit (og s.dev (0x3900 + src.val) 1) 2 = false →
    bit (og s.dev (0x3900 + src.val) 1) 3 = true →
    (8 ≤ src.val → src.val ≤ 15 → bit (og s.dev 0x2010 1) (src.val - 8) = true) →
    ∃ t, exec (.sourceAssertion src cause datum) s = .next t ∧
      mode t.dev = 1 ∧ og t.dev 0x1020 2 = mode s.dev ∧ (∀ b, b < 32 → b ≠ 5 → ready t.dev b = false) ∧
      ready t.dev 5 = ready s.dev 5 ∧ t.dev.motion = [] ∧ t.dev.fc.log = [] ∧ t.dev.power.booted = false ∧
      t.mem = .reset ∧ t.isl = s.isl ∧ t.nodes = s.nodes ∧ t.pending = s.pending ∧
      (∀ k, 0x204000 ≤ k → k < 0x204200 → tget objDefault t.dev.objs k = tget objDefault s.dev.objs k) ∧
      t.dev.time.local_ = s.dev.time.local_ ∧
      t.dev.fc.errPins = (s.dev.fc.errPins || bit (og s.dev (0x3900 + src.val) 1) 4) ∧ Settled t

/-! ## Modes, supply, bring-up and the pattern key -/

/-- A mode request (R47): refused by status before management is ready, outside 2 to 5, and as "busy" while one is pending. Otherwise it is
accepted and pending with the number the arbiter gives it; the mode does not change yet. In a pair it becomes a forwarded item, which the
leader keeps with its agreed cycle (R330). -/
def Obligations.ModeRequestIsAcceptedAndPends : Prop :=
  ∀ (m : BitVec 8) (s : State),
    (Settled s → ready s.dev 0 = false → Answers (.modeRequest m) s .notReady) ∧
    (Settled s → ready s.dev 0 = true → (m.toNat < 2 ∨ 5 < m.toNat) → Answers (.modeRequest m) s .range) ∧
    (Settled s → ready s.dev 0 = true → 2 ≤ m.toNat → m.toNat ≤ 5 → og s.dev 0x1021 2 = 1 → Answers (.modeRequest m) s .busy) ∧
    (ready s.dev 0 = true → 2 ≤ m.toNat → m.toNat ≤ 5 → og s.dev 0x1021 2 ≠ 1 → paired s.dev = false →
      Leaves (.modeRequest m) s (fun d =>
        og d 0x1021 1 = m.toNat ∧ og d 0x1021 2 = 1 ∧ og d 0x1021 3 = 0 ∧
        (ready s.dev 2 = true → sealed s.dev = false → og d 0x1021 4 = s.dev.fc.nextSeq ∧ d.fc.nextSeq = s.dev.fc.nextSeq + 1) ∧
        Logs s.dev d ((List.range 4).map (fun i => okey 0x1021 (i + 1))) [said .ok])) ∧
    (Settled s → ready s.dev 0 = true → 2 ≤ m.toNat → m.toNat ≤ 5 → og s.dev 0x1021 2 ≠ 1 → paired s.dev = true → og s.dev 0x3C01 2 ≠ 2 →
      Does (.modeRequest m) s (fun d =>
        d.pair.items = s.dev.pair.items ++ [(forwardCycle s.dev 2, .mode m)] ∧
        d = { s.dev with pair := { s.dev.pair with items := d.pair.items, queue := d.pair.queue, used := d.pair.used, usedFwd := d.pair.usedFwd },
                         out := d.out }))

/-- The boundary's mode work (R47, R424, R426) with no entry into Safe-hold ahead of it: without a request nothing happens; a request for the
mode in force is done; one outside the table is refused with cause 1, one whose condition fails with cause 2, and neither changes the
mode; any other puts the device into the mode it names, and shows the mode it left, the cycle, the cause and the request's number. In
Bring-up a request is refused with cause 1 (R425). Running is entered from Stopped, and Service too, and only under the conditions of
their rows of R426: no supply warning, for Running also no TEST_EN since bring-up (R390), the island ready and in Run without a stop
request; Stopped is entered from Running or Safe-hold only when no axis is Moving, Stopping or Homing. -/
def Obligations.RequestsAreCarriedOutByTheTable : Prop :=
  (∀ s : State, (s.dev.power.safeHold = none ∨ mode s.dev = 1) →
      (Settled s → og s.dev 0x1021 2 ≠ 1 → Idles .modeTransition s) ∧
      (Settled s → og s.dev 0x1021 2 = 1 → mode s.dev ≠ 1 → og s.dev 0x1021 1 = mode s.dev → Does .modeTransition s (fun d =>
        og d 0x1021 2 = 2 ∧ Writes s.dev d [okey 0x1021 2] [])) ∧
      (Settled s → og s.dev 0x1021 2 = 1 →
        (mode s.dev = 1 ∨ og s.dev 0x1021 1 ≠ mode s.dev ∧ transitionAllowed (mode s.dev) (og s.dev 0x1021 1) = false) →
        Does .modeTransition s (fun d => og d 0x1021 2 = 3 ∧ og d 0x1021 3 = 1 ∧ Writes s.dev d [okey 0x1021 2, okey 0x1021 3] [])) ∧
      (Settled s → og s.dev 0x1021 2 = 1 → transitionAllowed (mode s.dev) (og s.dev 0x1021 1) = true →
        entryCondition s.dev s.isl (og s.dev 0x1021 1) = false → Does .modeTransition s (fun d =>
          og d 0x1021 2 = 3 ∧ og d 0x1021 3 = 2 ∧ Writes s.dev d [okey 0x1021 2, okey 0x1021 3] [])) ∧
      (og s.dev 0x1021 2 = 1 → transitionAllowed (mode s.dev) (og s.dev 0x1021 1) = true →
        entryCondition s.dev s.isl (og s.dev 0x1021 1) = true → Leaves .modeTransition s (fun d =>
          mode d = og s.dev 0x1021 1 ∧ og d 0x1020 2 = mode s.dev ∧ og d 0x1020 3 = s.dev.time.k ∧
          og d 0x1020 4 = (if mode s.dev = 5 then 6 else 1) ∧ og d 0x1020 5 = og s.dev 0x1021 4 ∧ og d 0x1021 2 = 2))) ∧
  (∀ s : State,
      (transitionAllowed (mode s.dev) 3 = true → mode s.dev = 2) ∧
      (transitionAllowed (mode s.dev) 5 = true → mode s.dev = 2) ∧
      (entryCondition s.dev s.isl 3 = true → warning s.dev = false ∧ bit (og s.dev 0x2000 1) 6 = false ∧ ready s.dev 5 = true ∧
        s.isl.state = 4 ∧ s.isl.stopReq = false) ∧
      (entryCondition s.dev s.isl 5 = true → warning s.dev = false) ∧
      (mode s.dev = 3 ∨ mode s.dev = 4 → (entryCondition s.dev s.isl 2 = true ↔
        ∀ n ∈ boundAxes s.dev.objs, axState s.dev n ≠ 2 ∧ axState s.dev n ≠ 3 ∧ axState s.dev n ≠ 5)))

/-- An entry into Safe-hold (R424): at the boundary after its cause was numbered a Stopped or Running device goes to Safe-hold with that cause
and number; a request that waited is superseded (cause 3) unless it asks for Safe-hold or came after (R47); during Bring-up the entry
waits, and Bring-up then ends in Safe-hold with it, or in Stopped with cause 4 without one (R425). -/
def Obligations.EntriesIntoSafeHold : Prop :=
  ∀ (s : State) (e : SafeHoldEntry),
    (s.dev.power.safeHold = some e → (mode s.dev = 2 ∨ mode s.dev = 3) → og s.dev 0x1021 2 ≠ 1 → Leaves .modeTransition s (fun d =>
      mode d = 4 ∧ og d 0x1020 2 = mode s.dev ∧ og d 0x1020 4 = e.cause ∧ og d 0x1020 5 = e.seq ∧ d.power.safeHold = none ∧
      d.motion = s.dev.motion)) ∧
    (s.dev.power.safeHold = some e → (mode s.dev = 2 ∨ mode s.dev = 3) → og s.dev 0x1021 2 = 1 → e.later = true →
      og s.dev 0x1021 1 ≠ 4 → Leaves .modeTransition s (fun d =>
        mode d = 4 ∧ og d 0x1020 5 = e.seq ∧ og d 0x1021 2 = 3 ∧ og d 0x1021 3 = 3)) ∧
    (mode s.dev = 1 → bit (og s.dev 0x1010 0) 0 = true → bit (og s.dev 0x1010 0) 2 = true → bit (og s.dev 0x1010 0) 3 = true →
      bit (og s.dev 0x1010 0) 4 = true → (bit (og s.dev 0x1010 0) 1 = true ∨ bit (og s.dev 0x1011 0) 1 = true) →
      Leaves .bringUpComplete s (fun d =>
        (s.dev.power.safeHold = none → mode d = 2 ∧ og d 0x1020 4 = 4) ∧
        (s.dev.power.safeHold = some e → mode d = 4 ∧ og d 0x1020 4 = e.cause ∧ og d 0x1020 5 = e.seq) ∧
        og d 0x1020 2 = 1 ∧ d.power.safeHold = none)) ∧
    (mode s.dev ≠ 1 ∨ bit (og s.dev 0x1010 0) 2 = false → Idles .bringUpComplete s)

/-- A supply warning (R414, R417, R446): source 0 takes the next number, which the supply record shows, the commit runs once management is
ready with the waiting log entries written to a usable key, a store of the island's block ends failed, and the dip reaction enters Safe-hold from Stopped or Running. Its completion
seals the journal at the last number given and writes the seal record; the entries taken after it are journalled one by one (R447), and
the end of the warning lifts the seal (R416). VIN below the reset threshold takes every domain but D0 off, and D0 too when VBAK is low
(R418): no function is ready, the island is Off with every output off, the shared memory and all motion are gone, and the pins rest; the
backup words stay exactly with VBAK in range, local time goes on. The loss of VBAK while unpowered clears the backup words (R428); a
powered device ignores it. -/
def Obligations.WarningCommitSealAndPowerLoss : Prop :=
  (∀ (us : BitVec 32) (s : State),
      (s.dev.power.powered = true → s.dev.power.commitRan = false → warning s.dev = false → Calm s.dev 0 → ready s.dev 0 = true →
        s.isl.storing ≠ none → ∃ t, exec .supplyWarning s = .next t ∧ warning t.dev = true ∧
          t.isl = { s.isl with storing := none, storeStatus := 3 }) ∧
      (s.dev.power.powered = true → s.dev.power.commitRan = false → warning s.dev = false → Calm s.dev 0 → s.isl.storing = none ∨ ready s.dev 0 = false →
        Leaves .supplyWarning s (fun d =>
        warning d = true ∧ bit (og d 0x2000 1) 3 = true ∧ og d 0x2000 5 = s.dev.fc.nextSeq ∧
        d.fc.nextSeq = s.dev.fc.nextSeq + 1 + b2n (ready s.dev 0 && s.dev.mgmt.storing) ∧
        (ready s.dev 0 = true → bit (og d 0x2000 1) 1 = true ∧ d.power.commitRan = true ∧ (keyUsable s.dev = true → s.dev.mgmt.storing = false →
          d.fc.waiting = 0 ∧ d.key.count = s.dev.key.count + (waitingEntries s.dev).length + b2n (bit (og s.dev 0x3900 1) 0))) ∧
        (og s.dev 0x2000 2 = 1 → (mode s.dev = 2 ∨ mode s.dev = 3) → s.dev.power.safeHold = none →
          d.power.safeHold = some ⟨5, s.dev.fc.nextSeq, og s.dev 0x1021 2 = 1⟩) ∧
        mode d = mode s.dev)) ∧
      ((s.dev.power.powered = false ∨ warning s.dev = true) → Idles .supplyWarning s) ∧
      (bit (og s.dev 0x2000 1) 1 = true → Leaves (.lastCommitComplete us) s (fun d =>
        bit (og d 0x2000 1) 1 = false ∧ sealed d = true ∧ d.fc.sSeal = s.dev.fc.nextSeq - 1 ∧ og d 0x2000 6 = us.toNat ∧
        (keyUsable s.dev = true → d.fc.waiting = 0 ∧ (newestState d.key).kind = 2 ∧ (newestState d.key).s = s.dev.fc.nextSeq - 1))) ∧
      (sealed s.dev = true → keyUsable s.dev = true → s.dev.fc.waiting ≠ 0 → Settled s → Does .commitEntryJournal s (fun d =>
        d.fc = { s.dev.fc with waiting := s.dev.fc.waiting - 1 } ∧ d = { s.dev with fc := d.fc, key := d.key } ∧
        ∀ e, (waitingEntries s.dev).head? = some e → d.key.journal.getLast? = some e)) ∧
      (warning s.dev = true → bit (og s.dev 0x2000 1) 1 = false → Leaves .warningEnd s (fun d =>
        warning d = false ∧ sealed d = false ∧ bit (og d 0x2000 1) 3 = false ∧ bit d.fc.cond 0 = false ∧
        (og s.dev 0x2E40 6 = 6 → og d 0x2E40 6 = 2) ∧
        (keyUsable s.dev = true → (newestState d.key).kind = 1 ∧ (newestState d.key).s = s.dev.fc.nextSeq)))) ∧
  (∀ s : State,
      (s.dev.power.powered = true → ∃ t, exec .resetLevelFall s = .next t ∧
        t.dev.power.powered = false ∧ t.dev.power.booted = false ∧ mode t.dev = 0 ∧ og t.dev 0x1010 0 = 0 ∧ t.dev.motion = [] ∧
        t.isl.state = 0 ∧ OutputsSafe t.isl ∧ t.mem = .reset ∧ t.nodes = s.nodes ∧ t.dev.time.local_ = s.dev.time.local_ ∧
        t.dev.key = s.dev.key ∧
        (∀ k, 0x204000 ≤ k → k < 0x204200 →
          tget objDefault t.dev.objs k = if s.dev.power.vbakOk then tget objDefault s.dev.objs k else objDefault k)) ∧
      (s.dev.power.powered = false → Idles .resetLevelFall s ∧ Does .vbakLoss s (fun d =>
        d.power = { s.dev.power with d0Valid := false, vbakOk := false } ∧ d = { s.dev with objs := d.objs, power := d.power } ∧
        ∀ k, tget objDefault d.objs k = if 0x204000 ≤ k ∧ k < 0x204200 then objDefault k else tget objDefault s.dev.objs k)) ∧
      (s.dev.power.powered = true → Idles .vbakLoss s))

/-- A start with no parameter set to load and no reaction beyond I and E set (R435): powered and started, bit 0 ready, domains D0, D1, D2 and
D6 in their windows, bits 3 and 4 ready or failed by their self-tests, bits 2 and 1 by their self-test and by the key and ready only with
both of those (R10), segment time equal to local time (R274); from Backup in mode Bring-up. An island that was Off is Starting. A part that has started ignores it. -/
def Obligations.BringUpStartsThePart : Prop :=
  ∀ (hw : BitVec 4) (testEn below vbak : Bool) (s : State),
    (s.dev.power.booted = true → Idles (.bringUp hw testEn below vbak) s) ∧
    (s.dev.power.booted = false → newestSet s.dev.key = none →
      (∀ n, n < 192 → ∀ b ∈ [1, 2, 3], bit (og s.dev (0x3900 + n) 1) b = false) →
      ∃ u d, exec (.bringUp hw testEn below vbak) s = .next (islandSettle (upd u (fun _ => d))) ∧
        u.nodes = s.nodes ∧ u.pending = s.pending ∧ u.isl.state = (if s.isl.state = 0 then 1 else s.isl.state) ∧
        d.power.powered = true ∧ d.power.booted = true ∧ ready d 0 = true ∧ og d 0x2010 2 = 0x47 ∧
        (∀ b, b = 2 ∨ b = 3 ∨ b = 4 →
          (bit hw.toNat (b - 2) = true → b ≠ 2 ∨ bit hw.toNat 1 && bit hw.toNat 2 = true → ready d b = true) ∧
          (bit hw.toNat (b - 2) = false → bit (og d 0x1011 0) b = true)) ∧
        (s.dev.key.present && bit hw.toNat 3 = true → bit hw.toNat 1 && bit hw.toNat 2 = true → ready d 1 = true) ∧
        (og s.dev 0x1010 0 = 0 → bit hw.toNat 1 && bit hw.toNat 2 = false → ready d 1 = false ∧ ready d 2 = false) ∧
        (s.dev.key.present && bit hw.toNat 3 = false → bit (og d 0x1011 0) 1 = true) ∧
        d.time.seg = d.time.local_ ∧ (s.dev.power.powered = false → mode d = 1) ∧ warning d = (warning s.dev || below))

/-- The pattern key (R434, R443, R499): its removal makes it unusable and asserts source 179 (a store in progress ends failed); an inserted
key ends source 179 and is read at the next bring-up only; a refresh writes a state record of kind 1 with the next number. Power domains
(R420): the enable is written while Stopped, must keep D0, D1, D2 and D6, and takes effect at once for the domains it switches off: they
leave their windows and their blocks are not ready. A domain that is enabled is in its window when it has reached it. -/
def Obligations.KeyRefreshAndPowerDomains : Prop :=
  (∀ s : State,
      (s.dev.key.present = true → Calm s.dev 179 → Leaves .keyRemoved s (fun d =>
        d.key.present = false ∧ keyUsable d = false ∧ og d 0x2E00 1 = 0 ∧ og d 0x2E00 2 = 0 ∧ bit d.fc.cond 179 = true ∧
        og d (0x3840 + 179) 0 = og s.dev (0x3840 + 179) 0 + 1 ∧
        (s.dev.mgmt.storing = true → d.mgmt.storing = false ∧ og d 0x2E10 2 = 3))) ∧
      (s.dev.key.present = false → Idles .keyRemoved s) ∧
      (s.dev.key.present = false → Settled s → Does .keyInserted s (fun d =>
        d.key = { s.dev.key with present := true } ∧ og d 0x2E00 1 = 1 ∧ bit d.fc.cond 179 = false ∧
        d = { s.dev with objs := d.objs, fc := { s.dev.fc with cond := d.fc.cond, held := d.fc.held }, key := d.key } ∧
        ObjsKept s.dev d [okey 0x2E00 1])) ∧
      (s.dev.key.present = true → Idles .keyInserted s) ∧
      (s.dev.power.booted = true → warning s.dev = false → sealed s.dev = false → keyUsable s.dev = true → Settled s →
        Does .stateRecordRefresh s (fun d =>
          (newestState d.key).valid = true ∧ (newestState d.key).kind = 1 ∧ (newestState d.key).s = s.dev.fc.nextSeq ∧
          d = { s.dev with key := d.key })) ∧
      (warning s.dev = true → Idles .stateRecordRefresh s)) ∧
  (∀ (mask : BitVec 8) (n : Fin 8) (s : State),
      (Settled s → ready s.dev 1 = false → Answers (.domainEnableWrite mask) s .notReady) ∧
      (Settled s → ready s.dev 1 = true → mode s.dev ≠ 2 → Answers (.domainEnableWrite mask) s .state) ∧
      (Settled s → ready s.dev 1 = true → mode s.dev = 2 → mask &&& 0x47 ≠ 0x47 → Answers (.domainEnableWrite mask) s .range) ∧
      (ready s.dev 1 = true → mode s.dev = 2 → mask &&& 0x47 = 0x47 → Leaves (.domainEnableWrite mask) s (fun d =>
        og d 0x2010 1 = mask.toNat ∧
        (bit (og s.dev 0x2010 1) n.val = true → bit mask.toNat n.val = false →
          bit (og d 0x2010 2) n.val = false ∧ ∀ b, b < 32 → b ∈ domainBlocks n.val → ready d b = false))) ∧
      (Settled s → s.dev.power.powered = true → s.dev.power.booted = true → bit (og s.dev 0x2010 1) n.val = true →
        Does (.domainInWindow n) s (fun d => bit (og d 0x2010 2) n.val = true ∧
          (∀ m, m ≠ n.val → bit (og d 0x2010 2) m = bit (og s.dev 0x2010 2) m) ∧ Writes s.dev d [okey 0x2010 2] [])) ∧
      (bit (og s.dev 0x2010 1) n.val = false → Idles (.domainInWindow n) s))

/-! ## Parameters, the log and management -/

/-- The store (R40, R41): not ready before management is, refused while a supply warning is in force, as "busy" while another runs, and in Service; else with a usable key it
takes a copy of every "key" object's value at its acceptance, and the set it will replace is not valid until the end. The end makes that
set hold the copy with status 0x02, and a failed end shows 0x03. Restore defaults (R40, R42), only while Stopped, sets reactions and
moulds (as every "key" object) to their defaults and leaves the host addresses and the session key. Reload stored runs until its end,
which takes the newest valid set's values, or with none shows 0x03 and leaves every value. -/
def Obligations.ParametersAreStoredAndReset : Prop :=
  (∀ s : State,
      (Settled s → ready s.dev 0 = false → Answers .storeParameters s .notReady ∧ Answers .restoreDefaults s .notReady ∧
        Answers .reloadStored s .notReady) ∧
      (Settled s → ready s.dev 0 = true → warning s.dev = true → Answers .storeParameters s .state) ∧
      (Settled s → ready s.dev 0 = true → warning s.dev = false → (s.dev.mgmt.storing || s.dev.mgmt.reloading) = true → Answers .storeParameters s .busy) ∧
      (Settled s → ready s.dev 0 = true → warning s.dev = false → s.dev.mgmt.storing = false → s.dev.mgmt.reloading = false → mode s.dev = 5 →
        Answers .storeParameters s .state) ∧
      (Settled s → ready s.dev 0 = true → warning s.dev = false → s.dev.mgmt.storing = false → s.dev.mgmt.reloading = false → mode s.dev ≠ 5 → mode s.dev ≠ 0 →
        entryBytes (keyValues s.dev).1 (keyValues s.dev).2 ≤ 262096 → keyUsable s.dev = true → Does .storeParameters s (fun d =>
          d.mgmt.storing = true ∧ og d 0x2E10 2 = 1 ∧ og d 0x2E10 4 = s.dev.time.k ∧
          d.mgmt.storeSet.nums = (keyValues s.dev).1 ∧ d.mgmt.storeSet.strs = (keyValues s.dev).2 ∧
          setValid (if d.mgmt.storeB then d.key.setB else d.key.setA) = false ∧
          newestSet s.dev.key ≠ some d.mgmt.storeB ∧
          (if d.mgmt.storeB then d.key.setA = s.dev.key.setA else d.key.setB = s.dev.key.setB) ∧
          d = { s.dev with objs := d.objs, key := d.key, mgmt := d.mgmt, out := s.dev.out ++ [said .ok] })) ∧
      (Settled s → s.dev.mgmt.storing = true → keyUsable s.dev = true → warning s.dev = false → Does (.storeComplete true) s (fun d =>
        d.mgmt = { s.dev.mgmt with storing := false } ∧ og d 0x2E10 2 = 2 ∧
        (if s.dev.mgmt.storeB then d.key.setB = s.dev.mgmt.storeSet ∧ d.key.setA = s.dev.key.setA
         else d.key.setA = s.dev.mgmt.storeSet ∧ d.key.setB = s.dev.key.setB) ∧
        d = { s.dev with objs := d.objs, key := d.key, mgmt := d.mgmt })) ∧
      (s.dev.mgmt.storing = true → Leaves (.storeComplete false) s (fun d =>
        d.mgmt.storing = false ∧ og d 0x2E10 2 = 3 ∧ d.key = s.dev.key)) ∧
      (Settled s → s.dev.mgmt.storing = false → ∀ ok, Idles (.storeComplete ok) s)) ∧
  (∀ s : State, warning s.dev = false → s.dev.mgmt.storing = false →
      (Settled s → ready s.dev 0 = true → s.dev.mgmt.reloading = false → mode s.dev ≠ 2 → Answers .restoreDefaults s .state ∧ Answers .reloadStored s .state) ∧
      (ready s.dev 0 = true → s.dev.mgmt.reloading = false → mode s.dev = 2 → Leaves .restoreDefaults s (fun d =>
        (∀ n, n < 192 → og d (0x3900 + n) 1 = defaultReactions n) ∧ (∀ g, g < 12 → ob d (0x3300 + g) 0 = [] ∧ (segState s.dev g = 0 → (seg s.dev g).swap = none → mould d g = [])) ∧ og d 0x2E11 3 = 2 ∧
        og d 0x2F00 4 = og s.dev 0x2F00 4 ∧ ob d 0x2F10 1 = ob s.dev 0x2F10 1 ∧ d.key = s.dev.key)) ∧
      (Settled s → ready s.dev 0 = true → s.dev.mgmt.reloading = false → mode s.dev = 2 → Does .reloadStored s (fun d =>
        d.mgmt = { s.dev.mgmt with reloading := true } ∧ og d 0x2E11 3 = 1 ∧
        d = { s.dev with objs := d.objs, mgmt := d.mgmt, out := s.dev.out ++ [said .ok] } ∧ ObjsKept s.dev d [okey 0x2E11 3])) ∧
      (Settled s → s.dev.mgmt.reloading = true → keyUsable s.dev = false → Does .reloadComplete s (fun d =>
        d.mgmt = { s.dev.mgmt with reloading := false } ∧ og d 0x2E11 3 = 3 ∧ d = { s.dev with objs := d.objs, mgmt := d.mgmt } ∧
        ObjsKept s.dev d [okey 0x2E11 3])) ∧
      (∀ q, s.dev.mgmt.reloading = true → keyUsable s.dev = true → newestParams s.dev.key = some q → (q.nums.map Prod.fst).Nodup →
        Leaves .reloadComplete s (fun d => d.mgmt.reloading = false ∧ og d 0x2E11 3 = 2 ∧
          ∀ n v, n < 192 → (okey (0x3900 + n) 1, v) ∈ q.nums → og d (0x3900 + n) 1 = v)) ∧
      (Settled s → s.dev.mgmt.reloading = false → Idles .reloadComplete s))

/-- The journal and the log (R455, R457): a successful write empties what waited into the key and ends source 182; a failed one is counted and
asserts source 182, after which a retry does as the write does; a supply warning holds both. A selection is taken while management is
ready, and a read shows up to 32 entries from the selected number on and where a further read goes on. The management watchdog asserts
source 176 and the part goes on (R452). A sensor sample shows its readings, with the highest temperature, the VIN power, and 0 for a
domain outside its window, and sources 4 and 5 follow their thresholds with the hysteresis (R423, R453). -/
def Obligations.LogsWatchdogAndSensors : Prop :=
  (∀ (seq : BitVec 64) (s : State), Settled s →
      (warning s.dev = true → ∀ ok, Idles (.journalWrite ok) s ∧ Idles (.journalRetry ok) s) ∧
      (warning s.dev = false → s.dev.fc.waiting ≠ 0 → keyUsable s.dev = true → s.dev.fc.waiting ≤ s.dev.fc.log.length →
        s.dev.fc.log.length ≤ 1024 → Does (.journalWrite true) s (fun d =>
          d.fc.waiting = 0 ∧ d.fc.log = s.dev.fc.log ∧ bit d.fc.cond 182 = false ∧ d.key.count = s.dev.key.count + s.dev.fc.waiting ∧
          (∃ pre, d.key.journal = pre ++ s.dev.fc.log.drop (s.dev.fc.log.length - s.dev.fc.waiting)) ∧
          d = { s.dev with fc := d.fc, key := d.key })) ∧
      (warning s.dev = false → s.dev.fc.waiting ≠ 0 → og s.dev 0x2100 7 < 0xFFFFFFFE → Calm s.dev 182 → Does (.journalWrite false) s (fun d =>
        og d 0x2100 7 = og s.dev 0x2100 7 + 1 ∧ bit d.fc.cond 182 = true ∧ d.fc.nextSeq = s.dev.fc.nextSeq + 1 ∧ d.key = s.dev.key ∧
        s.dev.fc.waiting ≤ d.fc.waiting)) ∧
      (warning s.dev = false → ∀ ok, (bit s.dev.fc.cond 182 = true → exec (.journalRetry ok) s = exec (.journalWrite ok) s) ∧
        (bit s.dev.fc.cond 182 = false → Idles (.journalRetry ok) s)) ∧
      (ready s.dev 0 = false → Answers (.logSelect seq) s .notReady ∧ Answers .logRead s .notReady) ∧
      (ready s.dev 0 = true → Does (.logSelect seq) s (fun d =>
        og d 0x2101 1 = seq.toNat ∧ Writes s.dev d [okey 0x2101 1] [said .ok])) ∧
      (ready s.dev 0 = true → Does .logRead s (fun d =>
        ob d 0x2101 2 = (((wholeLog s.dev).filter (fun e => og s.dev 0x2101 1 ≤ e.seq)).take 32).flatMap LogEntry.encode ∧
        (∀ e, (((wholeLog s.dev).filter (fun e => og s.dev 0x2101 1 ≤ e.seq)).take 32).getLast? = some e → og d 0x2101 3 = e.seq + 1) ∧
        d = { s.dev with objs := d.objs, blobs := d.blobs } ∧ ObjsKept s.dev d [okey 0x2101 3]))) ∧
  (∀ (temps supply volts amps : List (BitVec 32)) (s : State),
      (Settled s → s.dev.power.booted = true → Calm s.dev 176 → Does .managementWatchdog s (fun d =>
        og d (0x3840 + 176) 0 = og s.dev (0x3840 + 176) 0 + 1 ∧ d.fc.nextSeq = s.dev.fc.nextSeq + 1 ∧
        d = { s.dev with objs := d.objs, fc := d.fc, host := d.host, acq := d.acq } ∧ ObjsKept s.dev d (reportKeys 176))) ∧
      (s.dev.power.booted = false → Idles .managementWatchdog s) ∧
      (ready s.dev 0 = false → Idles (.sensorSample temps supply volts amps) s) ∧
      (ready s.dev 0 = true → ready s.dev 2 = true → s.dev.fc.wire = 0 → temps.length = 6 → supply.length = 4 → volts.length = 8 → amps.length = 8 →
        (∀ n ∈ [4, 5], ∀ b ∈ [1, 2, 3], bit (og s.dev (0x3900 + n) 1) b = false) →
        Leaves (.sensorSample temps supply volts amps) s (fun d =>
          (∀ i, i < 6 → ogf d 0x2050 (1 + i) = temps.getD i 0) ∧ ogf d 0x2050 7 = f32Max temps ∧
          (∀ i, i < 4 → ogf d 0x2050 (8 + i) = supply.getD i 0) ∧
          ogf d 0x2050 0x0C = f32Mul (supply.getD 0 0) (supply.getD 3 0) ∧
          (∀ i, i < 8 → ogf d 0x2051 (1 + i) = (if bit (og s.dev 0x2010 2) i then volts.getD i 0 else 0) ∧
            ogf d 0x2052 (1 + i) = (if bit (og s.dev 0x2010 2) i then amps.getD i 0 else 0)) ∧
          (∀ i, i < 2 →
            (f32Le (ogf s.dev 0x2030 (1 + i)) (f32Max temps) = true → bit d.fc.cond (4 + i) = true) ∧
            (f32Le (ogf s.dev 0x2030 (1 + i)) (f32Max temps) = false →
              f32Le (f32Max temps) (f32Sub (ogf s.dev 0x2030 (1 + i)) (ogf s.dev 0x2030 3)) = true → bit d.fc.cond (4 + i) = false) ∧
            (f32Le (ogf s.dev 0x2030 (1 + i)) (f32Max temps) = false →
              f32Le (f32Max temps) (f32Sub (ogf s.dev 0x2030 (1 + i)) (ogf s.dev 0x2030 3)) = false →
              bit d.fc.cond (4 + i) = bit s.dev.fc.cond (4 + i))))))

/-- Loading a device image (R459, R460): without a usable key every command answers "state", and all but a block do under a supply warning (log
103); a load outside Service fails with cause 0x07; in Service it begins at block 0, or where the boot record's progress of an image of the
same length stands, takes the block it expects and no other, programs its sectors when the write ends, and ends in failure when the
write fails; "vrfy" of a good image makes it verified, "actv" makes its slot the trial slot, "abrt" empties the slot. The commanded
restart (R424, R460): refused outside Service; in Service it is a chip reset that leaves ERR_N and ERR_P as they were, with cause 0x04. -/
def Obligations.ImagesLoadBlockByBlock : Prop :=
  (∀ (num : BitVec 16) (data : Bytes) (s : State), Settled s → ready s.dev 0 = true →
      (keyUsable s.dev = false → Answers (.imageBlock num data) s .state) ∧
      (keyUsable s.dev = false ∨ warning s.dev = true → Answers .imageLoadBegin s .state ∧ Answers .imageVerify s .state ∧
        Answers .imageAbort s .state ∧ Answers .imageActivate s .state) ∧
      (keyUsable s.dev = true → warning s.dev = false → og s.dev 0x2E40 1 = 0 →
        (og s.dev 0x2E40 6 = 0 → mode s.dev ≠ 5 → Does .imageLoadBegin s (fun d =>
          og d 0x2E40 6 = 7 ∧ og d 0x2E40 7 = 7 ∧ Writes s.dev d [okey 0x2E40 6, okey 0x2E40 7] [said .state])) ∧
        (og s.dev 0x2E40 6 = 0 → mode s.dev = 5 → og s.dev 0x2E40 2 ≠ 0 → (newestBoot s.dev.key).length ≠ og s.dev 0x2E40 2 →
          Does .imageLoadBegin s (fun d =>
            og d 0x2E40 6 = 1 ∧ og d 0x2E40 7 = 0 ∧ og d 0x2E40 3 = 0 ∧ (newestBoot d.key).length = og s.dev 0x2E40 2 ∧
            (∀ b, slot d.key b = slot s.dev.key b) ∧
            d = { s.dev with objs := d.objs, key := d.key, mgmt := { s.dev.mgmt with imgBuf := [] }, out := s.dev.out ++ [said .ok] })) ∧
        (og s.dev 0x2E40 6 = 0 → mode s.dev = 5 → og s.dev 0x2E40 2 ≠ 0 → (newestBoot s.dev.key).length = og s.dev 0x2E40 2 →
          0 < (newestBoot s.dev.key).progress → Does .imageLoadBegin s (fun d =>
            og d 0x2E40 6 = 1 ∧ og d 0x2E40 7 = 0 ∧ og d 0x2E40 3 = (newestBoot s.dev.key).progress ∧ d.key = s.dev.key)) ∧
        (og s.dev 0x2E40 6 = 1 → num.toNat = og s.dev 0x2E40 3 → num.toNat * 65536 < og s.dev 0x2E40 2 →
          data.length = min (og s.dev 0x2E40 2 - num.toNat * 65536) 65536 → Does (.imageBlock num data) s (fun d =>
            og d 0x2E40 6 = 2 ∧ d.mgmt = { s.dev.mgmt with imgBuf := data } ∧
            d = { s.dev with objs := d.objs, mgmt := d.mgmt, out := s.dev.out ++ [said .ok] } ∧ ObjsKept s.dev d [okey 0x2E40 6])) ∧
        (og s.dev 0x2E40 6 = 1 → num.toNat ≠ og s.dev 0x2E40 3 → data.length ≠ 0 → data.length ≤ 65536 →
          Answers (.imageBlock num data) s .range) ∧
        (og s.dev 0x2E40 6 = 2 → og s.dev 0x2E40 3 ≠ 0 → Does (.imageBlockWritten true) s (fun d =>
          slot d.key (inactiveB s.dev) = putBlock (slot s.dev.key (inactiveB s.dev)) (og s.dev 0x2E40 3) s.dev.mgmt.imgBuf ∧ og d 0x1002 3 = 0 ∧
          og d 0x2E40 3 = og s.dev 0x2E40 3 + 1 ∧ og d 0x2E40 6 = 1 ∧ (newestBoot d.key).progress = og s.dev 0x2E40 3 + 1)) ∧
        (og s.dev 0x2E40 6 = 2 → Calm s.dev 178 → Does (.imageBlockWritten false) s (fun d =>
          og d 0x2E40 6 = 7 ∧ og d 0x2E40 7 = 6 ∧ og d (0x3840 + 178) 0 = og s.dev (0x3840 + 178) 0 + 1 ∧ d.key = s.dev.key)) ∧
        (∀ b, og s.dev 0x2E40 6 = 1 → og s.dev 0x2E40 2 ≤ og s.dev 0x2E40 3 * 65536 → b = (targetBytes s.dev).take (og s.dev 0x2E40 2) →
          imageOk s.dev b = true → Does .imageVerify s (fun d => og d 0x2E40 6 = 4 ∧ og d 0x1002 3 = rd b 12 4 ∧ (newestBoot d.key).version = rd b 12 4)) ∧
        (og s.dev 0x2E40 6 = 4 → Leaves .imageActivate s (fun d =>
          og d 0x2E40 6 = 5 ∧ (newestBoot d.key).trial = b2n (inactiveB s.dev) ∧ (newestBoot d.key).tries = 0)) ∧
        Does .imageAbort s (fun d => og d 0x2E40 6 = 0 ∧ og d 0x2E40 3 = 0 ∧ slot d.key (inactiveB s.dev) = [] ∧
          slot d.key (!inactiveB s.dev) = slot s.dev.key (!inactiveB s.dev)))) ∧
  (∀ s : State,
      (Settled s → ready s.dev 0 = true → mode s.dev ≠ 5 → Answers .imageBoot s .state) ∧
      (ready s.dev 0 = true → mode s.dev = 5 → s.dev.key.present = true → ∃ t, exec .imageBoot s = .next t ∧
        mode t.dev = 1 ∧ og t.dev 0x1020 2 = 5 ∧ t.dev.power.booted = false ∧ t.dev.power.restart = 4 ∧ t.dev.motion = [] ∧
        t.dev.host.sessions = [] ∧ t.mem = .reset ∧ t.isl = s.isl ∧ t.nodes = s.nodes ∧ t.dev.time.local_ = s.dev.time.local_ ∧
        t.dev.fc.errPins = s.dev.fc.errPins ∧ t.dev.out = s.dev.out ++ [said .ok]))

/-- The node firmware relay (R462, R463): started with a valid entry on a segment in Stopped, Synchronous or Integrating it serves the
addressed node, or every Integrated node of the entry's type, and shows how many are still to come (none: done at once); an abort
interrupts a running relay; its activation, on a Stopped segment, sends operation 0x04 to every node done. -/
def Obligations.RelayServesAndActivatesNodes : Prop :=
  ∀ s : State, Settled s → ready s.dev 0 = true →
    (og s.dev 0x2E60 5 = 1 → originates s.dev (og s.dev 0x2E60 1) = true → keyUsable s.dev = true →
      2 ≤ segState s.dev (og s.dev 0x2E60 1) → segState s.dev (og s.dev 0x2E60 1) ≤ 4 → Answers .relayStart s .busy) ∧
    (og s.dev 0x2E60 5 ≠ 1 → originates s.dev (og s.dev 0x2E60 1) = true → keyUsable s.dev = true →
      2 ≤ segState s.dev (og s.dev 0x2E60 1) → segState s.dev (og s.dev 0x2E60 1) ≤ 4 → nodeHeader s.dev (og s.dev 0x2E60 3) ≠ [] →
      Does .relayStart s (fun d =>
        (∀ j, j ∈ d.mgmt.relayList.map Prod.fst ↔
          j ∈ mouldNodes (og s.dev 0x2E60 1) (mould s.dev (og s.dev 0x2E60 1)) ∧ (hd s.dev (og s.dev 0x2E60 1) j).state = 3 ∧
          (if og s.dev 0x2E60 2 = 0xFFFF then (hd s.dev (og s.dev 0x2E60 1) j).ntype = rd (nodeHeader s.dev (og s.dev 0x2E60 3)) 0 2
           else j = og s.dev 0x2E60 2)) ∧
        og d 0x2E60 8 = d.mgmt.relayList.length ∧ og d 0x2E60 6 = 0 ∧ og d 0x2E60 7 = 0 ∧
        og d 0x2E60 5 = (if d.mgmt.relayList = [] then 2 else 1) ∧ d.mgmt.relaySeg = og s.dev 0x2E60 1 ∧
        d = { s.dev with objs := d.objs, mgmt := d.mgmt, out := s.dev.out ++ [said .ok] })) ∧
    Does .relayAbort s (fun d => og d 0x2E60 5 = (if og s.dev 0x2E60 5 = 1 then 4 else og s.dev 0x2E60 5) ∧
      d = { s.dev with objs := d.objs, mgmt := d.mgmt, out := s.dev.out ++ [said .ok] } ∧ ObjsKept s.dev d [okey 0x2E60 5]) ∧
    (segState s.dev s.dev.mgmt.relaySeg = 4 → og s.dev 0x2E60 5 ≠ 1 → originates s.dev s.dev.mgmt.relaySeg = true →
      Does .relayActivate s (fun d =>
        (seg d s.dev.mgmt.relaySeg).exchanges.map (fun e => (e.node, e.payload)) =
          (seg s.dev s.dev.mgmt.relaySeg).exchanges.map (fun e => (e.node, e.payload)) ++ s.dev.mgmt.relayDone.map (fun j => (j, [7, 4])) ∧
        d = { s.dev with segs := d.segs, out := s.dev.out ++ [said .ok] } ∧ ∀ g, g ≠ s.dev.mgmt.relaySeg → seg d g = seg s.dev g)) ∧
    (segState s.dev s.dev.mgmt.relaySeg ≠ 4 → Answers .relayActivate s .state)

/-! ## The host link -/

/-- Sessions (R470, R473): a session request to a part with 8 sessions, or for a second commissioning session, is refused by message status;
otherwise a new unconfirmed session exists under an identifier no other session has, not 0, and its challenge is sent. A good confirmation
opens it; an unconfirmed one lapses; a close is answered and, like the idle time, removes the session with its lease. -/
def Obligations.SessionsOpenAndClose : Prop :=
  ∀ (p : Port) (req id : BitVec 32) (nonce : BitVec 128) (comm : Bool) (idle : BitVec 16) (h : Kda) (x : Session) (s : State), Settled s →
    (linkUp s.dev p = true → 8 ≤ s.dev.host.sessions.length → Does (.sessionOpen p req nonce comm idle) s (fun d =>
      d = { s.dev with out := s.dev.out ++ [.datagram p 0 0x11 (kdaHeader 0x11 1 0x24 0 0 req.toNat 0)] })) ∧
    (linkUp s.dev p = true → s.dev.host.sessions.length < 8 → s.dev.host.sessions.any (fun y => y.isOpen && y.comm) = true →
      Does (.sessionOpen p req nonce true idle) s (fun d =>
        d = { s.dev with out := s.dev.out ++ [.datagram p 0 0x11 (kdaHeader 0x11 1 7 0 0 req.toNat 0)] })) ∧
    (linkUp s.dev p = true → s.dev.host.sessions.length < 8 → Does (.sessionOpen p req nonce false idle) s (fun d =>
      ∃ y, d.host.sessions = s.dev.host.sessions ++ [y] ∧ y.isOpen = false ∧ y.id ≠ 0 ∧ findSession s.dev y.id = none ∧
        y.idle = (if idle = 0 then og s.dev 0x2F10 3 else idle.toNat) ∧ y.rx = 0 ∧ y.tx = 0 ∧
        d = { s.dev with host := { s.dev.host with sessions := d.host.sessions }, free := d.free, out := d.out } ∧
        d.out.length = s.dev.out.length + 1)) ∧
    (linkUp s.dev p = false → Idles (.sessionOpen p req nonce comm idle) s) ∧
    (Accepted s p h 0x12 [] x → x.isOpen = false → x.comm = false → Served (.sessionConfirm p h) s p h x 0x13 0 [] (fun d y =>
      y.isOpen = true ∧ og d 0x2F10 4 = (d.host.sessions.filter Session.isOpen).length ∧
      HostOnly s.dev d [okey 0x2F10 4, okey 0x2F10 5])) ∧
    (findSession s.dev id.toNat = some x → x.isOpen = false → Does (.challengeLapse id) s (fun d =>
      findSession d id.toNat = none ∧ (∀ i, i ≠ id.toNat → findSession d i = findSession s.dev i) ∧ HostOnly s.dev d [okey 0x2F10 4, okey 0x2F10 5])) ∧
    (Accepted s p h 0x14 [] x → x.comm = false → Does (.sessionClose p h) s (fun d =>
      d.out = s.dev.out ++ [response p x 0x14 0 h.reqId.toNat []] ∧ findSession d x.id = none ∧ (s.dev.host.lease = x.id → d.host.lease = 0) ∧
      HostOnly s.dev d [okey 0x2F10 4, okey 0x2F10 5])) ∧
    (findSession s.dev id.toNat = some x → x.isOpen = true → x.comm = false → Does (.sessionIdleTimeout id) s (fun d =>
      findSession d id.toNat = none ∧ (s.dev.host.lease = id.toNat → d.host.lease = 0) ∧
      HostOnly s.dev d [okey 0x2F10 4, okey 0x2F10 5]))

/-- A datagram of a session with a wrong tag is counted, reported by source 184 and nothing else; one whose counter is not higher is counted
and nothing else; one with a known request ID gets the stored response again, with its request not carried out (R472). A read of the
readiness map answers its value, with a session and without one (R468, R475); an index the part does not have is answered "no such
object". A write of a source's reactions by a session with a key is answered 0 and stored while parameters are ready, and answered "out of
range" for a value R380 does not allow; a write of a mapping entry in Running is answered "state" (R28, R37, R48). Nothing else changes. -/
def Obligations.ForgedAndRepeatedRequestsDoNothing : Prop :=
  (∀ (p : Port) (h : Kda) (items : List WrItem) (x : Session) (s : State), Settled s → linkUp s.dev p = true →
      (writeBody items).length ≤ 1432 → findSession s.dev h.session.toNat = some x → x.isOpen = true →
      (h.tag ≠ kdaTag x.key (kdaHeader 0x21 0 0 x.id h.counter.toNat h.reqId.toNat (writeBody items).length) (writeBody items) →
        og s.dev 0x2F20 1 < 0xFFFFFFFE → Leaves (.dictionaryWrite p h items) s (fun d =>
          og d 0x2F20 1 = og s.dev 0x2F20 1 + 1 ∧ d.fc.todo = [rep 184 0 p.val 0] ∧
          d = { s.dev with objs := d.objs, fc := { s.dev.fc with todo := d.fc.todo } } ∧ ObjsKept s.dev d [okey 0x2F20 1])) ∧
      (h.tag = kdaTag x.key (kdaHeader 0x21 0 0 x.id h.counter.toNat h.reqId.toNat (writeBody items).length) (writeBody items) →
        h.counter.toNat ≤ x.rx → og s.dev 0x2F20 2 < 0xFFFFFFFE → Does (.dictionaryWrite p h items) s (fun d =>
          og d 0x2F20 2 = og s.dev 0x2F20 2 + 1 ∧ Writes s.dev d [okey 0x2F20 2] [])) ∧
      (h.tag = kdaTag x.key (kdaHeader 0x21 0 0 x.id h.counter.toNat h.reqId.toNat (writeBody items).length) (writeBody items) →
        x.rx < h.counter.toNat → og s.dev 0x2F20 9 < 0xFFFFFFFE → ∀ r ∈ x.stored, (∀ q ∈ x.stored, q.1 = h.reqId.toNat → q = r) →
        r.1 = h.reqId.toNat → Does (.dictionaryWrite p h items) s (fun d =>
          d.out = s.dev.out ++ [response p x r.2.1 r.2.2.1 h.reqId.toNat r.2.2.2] ∧ HostOnly s.dev d [okey 0x2F20 9]))) ∧
  (∀ (p : Port) (h : Kda) (n : Src) (v sub fl : BitVec 8) (w : Bytes) (x : Session) (s : State), Settled s →
      (Accepted s p h 0x20 (readBody [⟨0x1010, 0, 0⟩]) x → h.session ≠ 0 → Served (.dictionaryRead p h [⟨0x1010, 0, 0⟩]) s p h x 0x20 0
        (itemsBody 1 (itemHead 0x1010 0 0 4 ++ leBytes 4 (og s.dev 0x1010 0))) (fun d _ => HostOnly s.dev d [])) ∧
      (linkUp s.dev p = true → h.session = 0 → Does (.dictionaryRead p h [⟨0x1010, 0, 0⟩]) s (fun d =>
        d = { s.dev with out := s.dev.out ++ [.datagram p 0 0x20 (kdaHeader 0x20 1 0 0 0 h.reqId.toNat 12 ++
          itemsBody 1 (itemHead 0x1010 0 0 4 ++ leBytes 4 (og s.dev 0x1010 0)))] })) ∧
      (linkUp s.dev p = true → h.session = 0 → Does (.dictionaryRead p h [⟨0x0FFF, sub, 0⟩]) s (fun d =>
        d = { s.dev with out := s.dev.out ++ [.datagram p 0 0x20 (kdaHeader 0x20 1 0 0 0 h.reqId.toNat 8 ++
          itemsBody 1 (itemHead 0x0FFF sub.toNat (statusCode .noObject) 0))] })) ∧
      (Accepted s p h 0x21 (writeBody [⟨BitVec.ofNat 16 (0x3900 + n.val), 1, fl, [v]⟩]) x → fl.toNat < 4 → x.keySet = true →
        hostMapped s.dev (0x3900 + n.val) 1 = false → ready s.dev 1 = true → v.toNat < 32 →
        (reactionsOk n.val v.toNat = true →
          Served (.dictionaryWrite p h [⟨BitVec.ofNat 16 (0x3900 + n.val), 1, fl, [v]⟩]) s p h x 0x21 0
            (itemsBody 1 (itemHead (0x3900 + n.val) 1 0 0)) (fun d _ =>
              og d (0x3900 + n.val) 1 = v.toNat ∧ HostOnly s.dev d [okey (0x3900 + n.val) 1])) ∧
        (reactionsOk n.val v.toNat = false →
          Served (.dictionaryWrite p h [⟨BitVec.ofNat 16 (0x3900 + n.val), 1, fl, [v]⟩]) s p h x 0x21 0
            (itemsBody 1 (itemHead (0x3900 + n.val) 1 (statusCode .range) 0)) (fun d _ => HostOnly s.dev d []))) ∧
      (Accepted s p h 0x21 (writeBody [⟨0x1600, 1, fl, w⟩]) x → fl.toNat < 4 → mode s.dev = 3 → ready s.dev 1 = true →
        Served (.dictionaryWrite p h [⟨0x1600, 1, fl, w⟩]) s p h x 0x21 0
            (itemsBody 1 (itemHead 0x1600 1 (statusCode .state) 0)) (fun d _ => HostOnly s.dev d [])))

/-- Segmented writes (R35, R478): Begin opens a transfer of an admitted write with an allowed length, "busy" while the session has one; Data
adds its bytes at the next offset and is refused at another; End with bytes missing answers "wrong length" and with all of them writes the
value (the restore methods, 0x2E20) as one write would, and in both cases the transfer is over, as after Abort and after the timeout.
Segmented reads (R479) of a byte string (the safety parameter block, 0x3A10, R366): the first read at offset 0 answers the value's first
bytes and, when there are more, holds a copy; further reads answer bytes of the copy; the read that reaches its end, or the timeout,
releases it. A read at another offset with no copy answers "state". -/
def Obligations.SegmentedTransfers : Prop :=
  (∀ (p : Port) (h : Kda) (idx : BitVec 16) (sub : BitVec 8) (total offset id : BitVec 32) (data : Bytes) (w : SegWrite) (x : Session) (s : State),
      Settled s →
      (Accepted s p h 0x23 (segBody idx.toNat sub.toNat 1 total.toNat 0 []) x → ∀ r,
        admitWrite s.dev x.caller idx.toNat sub.toNat = (.ok, r) → lengthStatus s.dev r idx.toNat total.toNat = true →
        (s.dev.host.sessions.all (fun y => y.segw.isNone) = true → Served (.segmentedBegin p h idx sub total) s p h x 0x23 0
          (leBytes 2 idx.toNat ++ leBytes 1 sub.toNat ++ leBytes 1 1 ++ leBytes 4 total.toNat ++ leBytes 4 0)
          (fun d y => y.segw = some ⟨okey idx.toNat sub.toNat, total.toNat, []⟩ ∧ HostOnly s.dev d [])) ∧
        (x.segw.isSome = true → Served (.segmentedBegin p h idx sub total) s p h x 0x23 (statusCode .busy)
          (leBytes 2 idx.toNat ++ leBytes 1 sub.toNat ++ leBytes 1 1 ++ leBytes 4 total.toNat ++ leBytes 4 0)
          (fun d y => y.segw = x.segw ∧ HostOnly s.dev d []))) ∧
      (Accepted s p h 0x23 (segBody idx.toNat sub.toNat 2 total.toNat offset.toNat data) x → x.segw = some w → w.key = okey idx.toNat sub.toNat →
        data.length ≤ 1400 →
        (offset.toNat = w.data.length → offset.toNat + data.length ≤ w.total → Served (.segmentedData p h idx sub total offset data) s p h x 0x23 0
          (leBytes 2 idx.toNat ++ leBytes 1 sub.toNat ++ leBytes 1 2 ++ leBytes 4 total.toNat ++ leBytes 4 offset.toNat)
          (fun d y => y.segw = some { w with data := w.data ++ data } ∧ HostOnly s.dev d [])) ∧
        (offset.toNat ≠ w.data.length → Served (.segmentedData p h idx sub total offset data) s p h x 0x23 (statusCode .range)
          (leBytes 2 idx.toNat ++ leBytes 1 sub.toNat ++ leBytes 1 2 ++ leBytes 4 total.toNat ++ leBytes 4 w.data.length)
          (fun d y => y.segw = some w ∧ HostOnly s.dev d []))) ∧
      (Accepted s p h 0x23 (segBody 0x2E20 0 3 total.toNat 0 []) x → x.segw = some w → w.key = okey 0x2E20 0 →
        (w.data.length ≠ w.total → Served (.segmentedEnd p h 0x2E20 0 total) s p h x 0x23 (statusCode .length)
          (leBytes 2 0x2E20 ++ leBytes 1 0 ++ leBytes 1 3 ++ leBytes 4 total.toNat ++ leBytes 4 0)
          (fun d y => y.segw = none ∧ HostOnly s.dev d [])) ∧
        (w.data.length = w.total → w.total = 512 → x.keySet = true → mode s.dev = 2 → ready s.dev 1 = true → paired s.dev = false →
          hostMapped s.dev 0x2E20 0 = false → Served (.segmentedEnd p h 0x2E20 0 total) s p h x 0x23 0
          (leBytes 2 0x2E20 ++ leBytes 1 0 ++ leBytes 1 3 ++ leBytes 4 total.toNat ++ leBytes 4 0)
          (fun d y => y.segw = none ∧ ob d 0x2E20 0 = w.data ∧ d.objs = s.dev.objs))) ∧
      (Accepted s p h 0x23 (segBody idx.toNat sub.toNat 4 total.toNat 0 []) x → x.segw = some w → w.key = okey idx.toNat sub.toNat →
        Served (.segmentedAbort p h idx sub total) s p h x 0x23 0
          (leBytes 2 idx.toNat ++ leBytes 1 sub.toNat ++ leBytes 1 4 ++ leBytes 4 total.toNat ++ leBytes 4 0)
          (fun d y => y.segw = none ∧ HostOnly s.dev d [])) ∧
      (findSession s.dev id.toNat = some x → Does (.segmentedTimeout id) s (fun d =>
        findSession d id.toNat = some { x with segw := none } ∧ HostOnly s.dev d []))) ∧
  (∀ (p : Port) (h : Kda) (idx : BitVec 16) (sub : BitVec 8) (offset id : BitVec 32) (max : BitVec 16) (b : Bytes) (x : Session) (s : State),
      Settled s → max.toNat ≤ 1400 → h.session ≠ 0 → ready s.dev 5 = true →
      (Accepted s p h 0x22 (leBytes 2 0x3A10 ++ leBytes 1 0 ++ leBytes 1 0 ++ leBytes 4 offset.toNat ++ leBytes 2 max.toNat) x →
        (offset = 0 → max.toNat < s.isl.block.length → Served (.segmentedRead p h 0x3A10 0 0 max) s p h x 0x22 0
          (snapBody s.isl.block 0 max.toNat) (fun d y => heldSnap y (okey 0x3A10 0) = some s.isl.block ∧ HostOnly s.dev d [])) ∧
        (offset ≠ 0 → heldSnap x (okey 0x3A10 0) = none → Served (.segmentedRead p h 0x3A10 0 offset max) s p h x 0x22 (statusCode .state) []
          (fun d y => y.snaps = x.snaps ∧ HostOnly s.dev d [])) ∧
        (offset ≠ 0 → heldSnap x (okey 0x3A10 0) = some b → offset.toNat ≤ b.length →
          Served (.segmentedRead p h 0x3A10 0 offset max) s p h x 0x22 0 (snapBody b offset.toNat max.toNat) (fun d y =>
            heldSnap y (okey 0x3A10 0) = (if b.length ≤ offset.toNat + max.toNat then none else some b) ∧ HostOnly s.dev d []))) ∧
      (findSession s.dev id.toNat = some x → Does (.snapshotReleaseTimeout id idx sub) s (fun d =>
        (∃ y, findSession d id.toNat = some y ∧ heldSnap y (okey idx.toNat sub.toNat) = none ∧
          ∀ k, k ≠ okey idx.toNat sub.toNat → heldSnap y k = heldSnap x k) ∧ HostOnly s.dev d [])))

/-- Process images (R20, R480, R481): a whole image of the mapped size from the lease holder becomes pending, and a lower number is refused
from then on; one that still waited is counted. A subscription is taken with its period unless two other sessions have one, and the image
being sent goes out in order of its bytes, 1,400 at a time, until the one that waits follows. Events (R482): a subscription to event kinds
the manual gives, of at most five sessions, is taken, and 0 ends it with what waits; a datagram carries one cycle point or trigger record,
else up to 32 log entries, and the count of its session goes on by one. -/
def Obligations.ImagesAndEventsAreExchanged : Prop :=
  (∀ (p : Port) (h : Kda) (num id : BitVec 32) (total period : BitVec 16) (data : Bytes) (o : OutImage) (x : Session) (s : State), Settled s →
      (Accepted s p h 0x30 (fragmentHeader num.toNat 0 0 total.toNat 0 ++ data) x → x.keySet = true → s.dev.host.lease = x.id →
        (mode s.dev = 2 ∨ mode s.dev = 3 ∨ mode s.dev = 4) → paired s.dev = false → data.length = total.toNat → total.toNat ≤ 1400 →
        total.toNat = imageSize s.dev 0x1600 → s.dev.host.floor ≤ num.toNat → s.dev.host.imgNum = none → og s.dev 0x2F20 4 < 0xFFFFFFFE →
        Does (.imageFragment p h num total 0 data) s (fun d =>
          d.host.pending = some (num.toNat, data) ∧ d.host.floor = num.toNat + 1 ∧ d.host.lease = x.id ∧
          og d 0x2F20 4 = og s.dev 0x2F20 4 + b2n s.dev.host.pending.isSome ∧ d.out = s.dev.out ∧ HostOnly s.dev d [okey 0x2F20 4])) ∧
      (Accepted s p h 0x30 (fragmentHeader num.toNat 0 0 total.toNat 0 ++ data) x → s.dev.host.lease ≠ x.id → s.dev.host.lease ≠ 0 →
        data.length ≤ total.toNat → data.length ≤ 1400 → og s.dev 0x2F20 6 < 0xFFFFFFFE → Does (.imageFragment p h num total 0 data) s (fun d =>
          og d 0x2F20 6 = og s.dev 0x2F20 6 + 1 ∧ d.host.pending = s.dev.host.pending ∧ d.host.image = s.dev.host.image ∧
          d.out = s.dev.out ∧ HostOnly s.dev d [okey 0x2F20 6])) ∧
      (Accepted s p h 0x31 (leBytes 2 period.toNat) x → others s.dev x.id (fun y => y.period != 0) < 2 →
        Served (.imageSubscription p h period) s p h x 0x31 0 [] (fun d y => y.period = period.toNat ∧ HostOnly s.dev d [])) ∧
      (Accepted s p h 0x31 (leBytes 2 period.toNat) x → period ≠ 0 → 2 ≤ others s.dev x.id (fun y => y.period != 0) →
        Served (.imageSubscription p h period) s p h x 0x31 0x25 [] (fun d y => y.period = x.period ∧ HostOnly s.dev d [])) ∧
      (findSession s.dev id.toNat = some x → x.sending = some o → linkUp s.dev p = true → Does (.imageFragmentSend p id) s (fun d =>
        d.out.length = s.dev.out.length + 1 ∧ HostOnly s.dev d [] ∧ ∃ y, findSession d id.toNat = some y ∧ y.tx = x.tx + 1 ∧
          (o.off + 1400 < o.data.length → y.sending = some { o with off := o.off + 1400 } ∧ y.waitImg = x.waitImg) ∧
          (o.data.length ≤ o.off + 1400 → y.sending = x.waitImg ∧ y.waitImg = none)))) ∧
  (∀ (p : Port) (h : Kda) (id : BitVec 32) (mask : BitVec 8) (r : Bytes) (rest : List Bytes) (x : Session) (s : State), Settled s →
      (Accepted s p h 0x40 (leBytes 1 mask.toNat) x → mask.toNat < 8 → mask ≠ 0 → others s.dev x.id (fun y => y.events != 0) < 4 →
        Served (.eventSubscription p h mask) s p h x 0x40 0 [] (fun d y => y.events = mask.toNat ∧ y.logQueue = x.logQueue ∧ HostOnly s.dev d [])) ∧
      (Accepted s p h 0x40 (leBytes 1 0) x → Served (.eventSubscription p h 0) s p h x 0x40 0 [] (fun d y =>
        y.events = 0 ∧ y.evQueue = [] ∧ y.logQueue = [] ∧ HostOnly s.dev d [])) ∧
      (Accepted s p h 0x40 (leBytes 1 mask.toNat) x → mask.toNat < 8 → mask ≠ 0 → 4 ≤ others s.dev x.id (fun y => y.events != 0) →
        Served (.eventSubscription p h mask) s p h x 0x40 0x25 [] (fun d y => y.events = x.events ∧ HostOnly s.dev d [])) ∧
      (linkUp s.dev p = true → findSession s.dev id.toNat = some x → x.evQueue = r :: rest → Does (.eventDatagramSend p id) s (fun d =>
        (∃ y, findSession d id.toNat = some y ∧ y.evQueue = rest ∧ y.logQueue = x.logQueue ∧ y.evCount = (x.evCount + 1) % 2 ^ 32) ∧
        d.out.length = s.dev.out.length + 1 ∧ HostOnly s.dev d [])) ∧
      (linkUp s.dev p = true → findSession s.dev id.toNat = some x → x.evQueue = [] → x.logQueue ≠ [] → Does (.eventDatagramSend p id) s (fun d =>
        (∃ y, findSession d id.toNat = some y ∧ y.logQueue = x.logQueue.drop 32 ∧ y.evCount = (x.evCount + 1) % 2 ^ 32) ∧
        d.out.length = s.dev.out.length + 1 ∧ HostOnly s.dev d [])))

/-- The ports (R464-R466, R485): a port with an address answers ARP requests and echo requests for it and no others, a frame that is tagged, fragmented or
has options only counts; a DHCP port takes the
address it was offered when it is acknowledged, renews at half, rebinds later and starts again when its lease ends; a link shows its
speed, and source 188 is live exactly while a port is down. -/
def Obligations.PortsAnswerAndTakeAddresses : Prop :=
  ∀ (p : Port) (a b mask router lease : BitVec 32) (mac : BitVec 48) (ident seq : BitVec 16) (data : Bytes) (speed : Fin 3) (s : State),
    Settled s → linkUp s.dev p = true →
    (a.toNat = portAddress s.dev p → a ≠ 0 → Does (.arpRequest p true a b mac) s (fun d =>
        d = { s.dev with out := s.dev.out ++ [.ether p 0x0806 ([0, 1, 8, 0, 6, 4, 0, 2] ++ beBytes 6 (portMac p) ++ beBytes 4 a.toNat ++
          beBytes 6 mac.toNat ++ beBytes 4 b.toNat)] }) ∧
      Does (.icmpEcho p true b a ident seq data) s (fun d => ∃ c, d = { s.dev with out := s.dev.out ++ [.ether p 0x01 (beBytes 4 b.toNat ++ [0, 0] ++
          beBytes 2 c ++ beBytes 2 ident.toNat ++ beBytes 2 seq.toNat ++ data)] })) ∧
    (a.toNat ≠ portAddress s.dev p → Idles (.arpRequest p true a b mac) s ∧ Idles (.icmpEcho p true b a ident seq data) s) ∧
    (∀ c, c = Instr.arpRequest p false a b mac ∨ c = Instr.icmpEcho p false b a ident seq data → og s.dev 0x2F20 8 < 0xFFFFFFFE →
      Does c s (fun d => og d 0x2F20 8 = og s.dev 0x2F20 8 + 1 ∧ Writes s.dev d [okey 0x2F20 8] [])) ∧
    (dhcpState s.dev p = 1 → tget (fun _ => 0) s.dev.host.offer p.val = 0 → a ≠ 0 → Does (.dhcpReply p 0 a mask router lease) s (fun d =>
      tget (fun _ => 0) d.host.offer p.val = a.toNat ∧
      d = { s.dev with host := { s.dev.host with offer := d.host.offer }, out := s.dev.out ++ [.ether p 0x44 (leBytes 1 3 ++ (leBytes 4 a.toNat).reverse)] })) ∧
    ((dhcpState s.dev p = 1 ∨ dhcpState s.dev p = 3) → tget (fun _ => 0) s.dev.host.offer p.val = a.toNat → a ≠ 0 →
      Does (.dhcpReply p 1 a mask router lease) s (fun d => portAddress d p = a.toNat ∧ dhcpState d p = 2 ∧
        og d (0x2F08 + p.val) 4 = router.toNat ∧ og d (0x2F08 + p.val) 6 = lease.toNat ∧
        Writes s.dev d ((List.range 5).map (fun i => okey (0x2F08 + p.val) (i + 2))) [])) ∧
    (dhcpState s.dev p = 2 → Does (.dhcpRenew p) s (fun d => dhcpState d p = 3 ∧ portAddress d p = portAddress s.dev p ∧
      d.out.length = s.dev.out.length + 1 ∧ d = { s.dev with objs := d.objs, out := d.out })) ∧
    (dhcpState s.dev p = 3 → Does (.dhcpRebind p) s (fun d => dhcpState d p = 3 ∧ portAddress d p = portAddress s.dev p ∧
      d.out.length = s.dev.out.length + 1 ∧ d = { s.dev with objs := d.objs, out := d.out })) ∧
    (2 ≤ dhcpState s.dev p → Does (.dhcpLeaseExpiry p) s (fun d => dhcpState d p = 1 ∧ portAddress d p = 0 ∧
      d.host = { s.dev.host with offer := d.host.offer })) ∧
    (ready s.dev 2 = true → bit s.dev.fc.wire 188 = false → (s.dev.host.ports.getD p.val (1, 0, 0)).2.1 = 0 →
      (∀ b ∈ [1, 2, 3], bit (og s.dev (0x3900 + 188) 1) b = false) → Leaves (.ethernetLinkChange p speed) s (fun d =>
      og d (0x2F08 + p.val) 1 = speed.val ∧
      bit d.fc.cond 188 = (og d 0x2F08 1 = 0 || og d 0x2F09 1 = 0)))

/-! ## Axes -/

/-- An axis command is taken once per sequence byte (R101): one whose byte is the byte taken last only sets the command object. While the
profile unit, the axis's cluster or, for a local step axis, the step unit is not ready, a new one is answered "not ready" and does nothing
else (R100, R131). One that is taken has the arbiter's next number (R376). None only takes the byte (R102); every command that R104 does not list for the axis's state is answered "state" and
changes nothing but its echo; in a pair the leader forwards it (R330). -/
def Obligations.AxisCommandsAreTakenOnce : Prop :=
  ∀ (code : Nat) (n : Ax) (seq : BitVec 8) (s : State), Settled s → code < 10 →
    (paired s.dev = false → seq.toNat = og s.dev (ax n.val 9) 3 / 256 → Does (axisCmd code n seq) s (fun d =>
      og d (ax n.val 8) 1 = seq.toNat * 256 + code ∧ Writes s.dev d [okey (ax n.val 8) 1] [])) ∧
    (paired s.dev = false → seq.toNat ≠ og s.dev (ax n.val 9) 3 / 256 → axisReady s.dev n.val = false → Does (axisCmd code n seq) s (fun d =>
      og d (ax n.val 8) 1 = seq.toNat * 256 + code ∧ og d (ax n.val 9) 3 = seq.toNat * 256 + 1 ∧
      Writes s.dev d [okey (ax n.val 8) 1, okey (ax n.val 9) 3] [])) ∧
    (Commandable n seq s → (code = 0 ∨ (code = 4 ∨ code = 5) ∧ mode s.dev ≠ 4 ∧
        (axState s.dev n.val = 0 ∨ axState s.dev n.val = 1 ∨ axState s.dev n.val = 4 ∨ axState s.dev n.val = 6)) →
      Does (axisCmd code n seq) s (fun d => og d (ax n.val 8) 1 = seq.toNat * 256 + code ∧ og d (ax n.val 9) 3 = seq.toNat * 256 ∧
        Writes (number s.dev).1 d [okey (ax n.val 8) 1, okey (ax n.val 9) 3] [])) ∧
    (Commandable n seq s → (code = 1 ∧ axState s.dev n.val ≠ 0 ∨ code = 2 ∧ axEnabled s.dev n.val = false ∨
        (code = 6 ∨ code = 7) ∧ axState s.dev n.val ≠ 4 ∨ code = 8 ∧ axState s.dev n.val ≠ 1 ∨
        4 ≤ code ∧ code ≤ 8 ∧ mode s.dev = 4) →
      Does (axisCmd code n seq) s (fun d => og d (ax n.val 8) 1 = seq.toNat * 256 + code ∧ og d (ax n.val 9) 3 = seq.toNat * 256 + 2 ∧
        Writes (number s.dev).1 d [okey (ax n.val 8) 1, okey (ax n.val 9) 3] [])) ∧
    (paired s.dev = true → og s.dev 0x3C01 2 ≠ 2 → Does (axisCmd code n seq) s (fun d =>
      d.pair.items = s.dev.pair.items ++ [(forwardCycle s.dev 5, .command n (BitVec.ofNat 16 (seq.toNat * 256 + code)))] ∧
      d = { s.dev with pair := { s.dev.pair with items := d.pair.items, queue := d.pair.queue, used := d.pair.used, usedFwd := d.pair.usedFwd },
                       out := d.out }))

/-- Enable of a Disabled axis under the conditions of R104 and R233 sets its reference to its position at rest (R74) and leads to Standstill,
or to Held with entries queued; Disable takes an enabled axis to Disabled at once with zero torque and keeps its queue; Acknowledge takes
a Faulted axis with no cause present to Disabled, and with one answers "cause present". -/
def Obligations.EnableDisableAndAcknowledge : Prop :=
  ∀ (n : Ax) (seq : BitVec 8) (s : State), Commandable n seq s →
    (axState s.dev n.val = 0 → enableOk s.dev n.val = true → ((fbInput s.dev n.val).isSome = true → ready s.dev 16 = true) → Taken 1 n seq s 0 (fun d =>
      axState d n.val = (if (mot s.dev n.val).queue = [] then 1 else 4) ∧ pRef d n.val = wrap 64 (axisPos s.dev n.val) ∧
      ogf d (ax n.val 0x24) 2 = f32OfRat 0 ∧ og d (ax n.val 9) 2 = 0 ∧ (mot d n.val).queue = (mot s.dev n.val).queue ∧
      (mot d n.val).demands = [] ∧ AxisOnly (number s.dev).1 d n.val)) ∧
    (axState s.dev n.val = 0 → enableOk s.dev n.val = false → ((fbInput s.dev n.val).isSome = true → ready s.dev 16 = true) →
      Taken 1 n seq s 2 (fun d => axState d n.val = 0 ∧ Writes (number s.dev).1 d [okey (ax n.val 8) 1, okey (ax n.val 9) 3] [])) ∧
    (axEnabled s.dev n.val = true → Taken 2 n seq s 0 (fun d =>
      axState d n.val = 0 ∧ og d (ax n.val 0x1B) 4 = 0 ∧ og d (ax n.val 0x1B) 5 = 0 ∧ (srv d n.val).tOut = 0 ∧
      (mot d n.val).queue.map QEntry.tag = (mot s.dev n.val).queue.map QEntry.tag ∧
      (mot d n.val).queue.all (fun e => e.st != .active) = true ∧ AxisOnly (number s.dev).1 d n.val)) ∧
    (axState s.dev n.val = 6 → causePresent s.dev n.val = false → Taken 9 n seq s 0 (fun d =>
      axState d n.val = 0 ∧ (mot d n.val).inPos.latched = false ∧ bit (og d (ax n.val 9) 4) 8 = false ∧
      (mot d n.val).queue = (mot s.dev n.val).queue ∧ AxisOnly (number s.dev).1 d n.val)) ∧
    (axState s.dev n.val = 6 → causePresent s.dev n.val = true → Taken 9 n seq s 7 (fun d =>
      axState d n.val = 6 ∧ AxisOnly (number s.dev).1 d n.val))

/-- Append (R106): refused and counted with "state" while Faulted, Homing or in Safe-hold, else with "queue full" at 16 entries; an accepted
entry is the staged one behind the others, Queued when the axis is not at Standstill, and Active with the axis Moving when it is (a
circular or too deep gear chain stops the axis, R113). -/
def Obligations.AppendQueuesTheStagedEntry : Prop :=
  ∀ (n : Ax) (seq : BitVec 8) (s : State), Commandable n seq s →
    (axState s.dev n.val = 5 ∨ axState s.dev n.val = 6 ∨ mode s.dev = 4 → og s.dev (ax n.val 0x2D) 1 < 0xFFFFFFFF → Taken 3 n seq s 2 (fun d =>
      og d (ax n.val 0x2D) 1 = og s.dev (ax n.val 0x2D) 1 + 1 ∧ mot d n.val = mot s.dev n.val ∧ AxisOnly (number s.dev).1 d n.val)) ∧
    (axState s.dev n.val < 5 → mode s.dev ≠ 4 → 16 ≤ (mot s.dev n.val).queue.length → og s.dev (ax n.val 0x2D) 1 < 0xFFFFFFFF →
      Taken 3 n seq s 3 (fun d => og d (ax n.val 0x2D) 1 = og s.dev (ax n.val 0x2D) 1 + 1 ∧ mot d n.val = mot s.dev n.val ∧
        AxisOnly (number s.dev).1 d n.val)) ∧
    (axState s.dev n.val < 5 → mode s.dev ≠ 4 → (mot s.dev n.val).queue.length < 16 → fieldsOk s.dev n.val (staged s.dev n.val) = true →
      og s.dev (ax n.val 0x23) 4 ≠ 1 → (mot s.dev n.val).inPos = .reset → (mot s.dev n.val).inNeg = .reset →
      (axState s.dev n.val ≠ 1 → Taken 3 n seq s 0 (fun d =>
        (∃ e, (mot d n.val).queue = (mot s.dev n.val).queue ++ [e] ∧ e.st = .queued ∧ e = { staged s.dev n.val with resolved := e.resolved }) ∧
        axState d n.val = axState s.dev n.val ∧ pRef d n.val = pRef s.dev n.val ∧
        og d (ax n.val 0x22) 1 = (mot s.dev n.val).queue.length + 1 ∧ AxisOnly (number s.dev).1 d n.val)) ∧
      (axState s.dev n.val = 1 → (mot s.dev n.val).queue = [] → og s.dev (ax n.val 0x20) 1 ≠ 4 → Taken 3 n seq s 0 (fun d =>
        (∃ e, (mot d n.val).queue = [e] ∧ e.st = .active ∧ e.typ = og s.dev (ax n.val 0x20) 1 ∧ e.tag = og s.dev (ax n.val 0x20) 2) ∧
        axState d n.val = 2 ∧ AxisOnly (number s.dev).1 d n.val)))

/-- A stop command in Moving or Homing starts a stop profile (R117): the axis is Stopping with cause 1 and the number the command takes, the
Active entry is interrupted, and the queue is kept. Resume in Held, with no fault bit and no limit in the way, leads to Moving; Flush in
Held removes every entry and leads to Standstill. Home by method 5 at Standstill takes the present position as home at once; by another
method the axis is Homing (R125). -/
def Obligations.StopResumeFlushAndHome : Prop :=
  ∀ (n : Ax) (seq : BitVec 8) (s : State), Commandable n seq s → mode s.dev ≠ 4 →
    (∀ code, code = 4 ∨ code = 5 → axState s.dev n.val = 2 ∨ axState s.dev n.val = 5 → ready s.dev 2 = true → sealed s.dev = false →
      Taken code n seq s 0 (fun d =>
        axState d n.val = 3 ∧ og d (ax n.val 9) 2 = 1 ∧ og d (ax n.val 9) 5 = s.dev.fc.nextSeq ∧ d.fc.nextSeq = s.dev.fc.nextSeq + 1 ∧
        (mot d n.val).homing = none ∧ (mot d n.val).queue.map QEntry.tag = (mot s.dev n.val).queue.map QEntry.tag ∧
        (mot d n.val).queue.all (fun e => e.st != .active) = true ∧ (mot d n.val).stop = some (if code = 4 then .hold else .quick) ∧
        pRef d n.val = pRef s.dev n.val)) ∧
    (∀ e q, axState s.dev n.val = 4 → (mot s.dev n.val).queue = e :: q → (e.typ = 3 ∨ e.typ = 5) → bit (og s.dev (ax n.val 0x1B) 7) 3 = false →
      bit (og s.dev (ax n.val 0x1B) 7) 4 = false → (mot s.dev n.val).inPos = .reset → (mot s.dev n.val).inNeg = .reset →
      Taken 6 n seq s 0 (fun d => axState d n.val = 2 ∧ (∃ f, (mot d n.val).queue = f :: q ∧ f.st = .active ∧ f.tag = e.tag) ∧
        pRef d n.val = pRef s.dev n.val ∧ AxisOnly (number s.dev).1 d n.val)) ∧
    (axState s.dev n.val = 4 → (bit (og s.dev (ax n.val 0x1B) 7) 3 = true ∨ bit (og s.dev (ax n.val 0x1B) 7) 4 = true) →
      Taken 6 n seq s 7 (fun d => Writes (number s.dev).1 d [okey (ax n.val 8) 1, okey (ax n.val 9) 3] [])) ∧
    (axState s.dev n.val = 4 → Taken 7 n seq s 0 (fun d =>
      axState d n.val = 1 ∧ (mot d n.val).queue = [] ∧ og d (ax n.val 0x22) 1 = 0 ∧ pRef d n.val = pRef s.dev n.val ∧ AxisOnly (number s.dev).1 d n.val)) ∧
    (axState s.dev n.val = 1 → (mot s.dev n.val).queue = [] → (∀ m ∈ boundAxes s.dev.objs, gearing s.dev m = false) →
      ogq s.dev (ax n.val 0x28) 3 ≤ ogq s.dev (ax n.val 0x23) 1 → ogq s.dev (ax n.val 0x28) 4 ≤ ogq s.dev (ax n.val 0x23) 1 →
      (og s.dev (ax n.val 0x28) 1 = 5 → Taken 8 n seq s 0 (fun d =>
        axState d n.val = 1 ∧ og d (ax n.val 0x29) 2 = 1 ∧ bit (og d (ax n.val 9) 4) 0 = true ∧
        pRef d n.val = wrap 64 (pRef s.dev n.val + wrap 64 (ogi 64 s.dev (ax n.val 0x28) 7 - axisPos s.dev n.val)))) ∧
      (og s.dev (ax n.val 0x28) 1 ≠ 5 → Taken 8 n seq s 0 (fun d =>
        axState d n.val = 5 ∧ (mot d n.val).homing.isSome = true ∧ og d (ax n.val 0x29) 1 = 1 ∧ pRef d n.val = pRef s.dev n.val ∧
        AxisOnly (number s.dev).1 d n.val)))

/-- What happens to a moving axis when a time or a count runs out (R109-R111, R115, R121, R123): a limit inactive for its debounce count is
released; an input that changes more often than its setting is latched, counted and reported with a stop of the axis; a velocity entry at
its end, a gear entry at its span and a finished dwell end, with the next entry Active or, for the last one, a ramp to rest (a dwell:
Standstill); a finished engage shows in the axis status. A write of the live phase offset is stored, and starts a new engage of an Active
gear entry from the references in force, with the engaged bit clear until it ends (R116); without such an entry it is only stored. -/
def Obligations.MotionEventsOfAnAxis : Prop :=
  (∀ (n : Ax) (i : Fin 3) (e : QEntry) (g : GearRun) (s : State),
      (∀ j : Fin 2, (getInput (mot s.dev n.val) j.val).active = false → (getInput (mot s.dev n.val) j.val).released = false →
        (getInput (mot s.dev n.val) j.val).latched = false →
        instants (cg s.dev (ax n.val 0x2C) 5) ≤ (getInput (mot s.dev n.val) j.val).quiet → Leaves (.limitReleased n j) s (fun d =>
          (getInput (mot d n.val) j.val).released = true ∧ bit (og d (ax n.val 9) 4) (6 + j.val) = false ∧
          (mot d n.val).queue = (mot s.dev n.val).queue ∧ AxisOnly s.dev d n.val)) ∧
      ((getInput (mot s.dev n.val) i.val).latched = false → cg s.dev (ax n.val 0x2C) 6 < (getInput (mot s.dev n.val) i.val).changes.length →
        og s.dev (ax n.val 0x2D) 4 < 0xFFFFFFFE → Leaves (.limitChatter n i) s (fun d =>
          (getInput (mot d n.val) i.val).latched = true ∧ (getInput (mot d n.val) i.val).released = false ∧
          bit (og d (ax n.val 9) 4) 8 = true ∧ og d (ax n.val 0x2D) 4 = og s.dev (ax n.val 0x2D) 4 + 1 ∧
          d.fc.todo = s.dev.fc.todo ++ [rep (49 + 4 * cluster s.dev n.val) 2 n.val 1] ∧ AxisOnly s.dev d n.val)) ∧
      (activeEntry s.dev n.val = some e → (mot s.dev n.val).queue = [e] → axState s.dev n.val = 2 → e.typ = 3 → e.ending = false →
        e.reached = true → e.dur ≠ 0 → e.durLeft = 0 → Leaves (.velocityDurationEnd n) s (fun d =>
          (mot d n.val).queue = [{ e with ending := true }] ∧ (mot d n.val).prof.isSome = true ∧ axState d n.val = 2 ∧
          pRef d n.val = pRef s.dev n.val ∧ AxisOnly s.dev d n.val)) ∧
      (activeEntry s.dev n.val = some e → (mot s.dev n.val).queue = [e] → axState s.dev n.val = 2 → e.typ = 5 → e.started = true →
        e.durLeft = 0 → Leaves (.dwellEnd n) s (fun d =>
          (mot d n.val).queue = [] ∧ axState d n.val = 1 ∧ ogf d (ax n.val 0x24) 2 = f32OfRat 0 ∧ AxisOnly s.dev d n.val)) ∧
      (activeEntry s.dev n.val = some e → (mot s.dev n.val).queue = [e] → gearing s.dev n.val = true → (mot s.dev n.val).gear = some g →
        (e.span ≠ 0 → e.span ≤ g.travel → Leaves (.gearSpanReached n) s (fun d =>
          (mot d n.val).queue = [{ e with ending := true }] ∧ gearing d n.val = false ∧ axState d n.val = 2 ∧ AxisOnly s.dev d n.val)) ∧
        (g.ka + e.engage ≤ s.dev.time.kc → Settled s → Does (.gearEngageEnd n) s (fun d =>
          bit (og d (ax n.val 9) 4) 2 = true ∧ Writes s.dev d [okey (ax n.val 9) 4] []))) ∧
      (Settled s → axState s.dev n.val ≠ 2 →
        Idles (.velocityDurationEnd n) s ∧ Idles (.dwellEnd n) s ∧ Idles (.gearSpanReached n) s ∧ Idles (.gearEngageEnd n) s)) ∧
  (∀ (n : Ax) (phi : BitVec 64) (e : QEntry) (q : List QEntry) (g : GearRun) (s : State), Settled s → paired s.dev = false →
      (gearing s.dev n.val = true → (mot s.dev n.val).queue = e :: q → e.st = .active → (mot s.dev n.val).gear = some g →
        Does (.livePhaseOffsetWrite n phi) s (fun d =>
          og d (ax n.val 0x21) 8 = phi.toNat ∧ (mot d n.val).queue = { e with phi := phi.toInt } :: q ∧
          (∃ g2, (mot d n.val).gear = some g2 ∧ g2.ka = s.dev.time.kc ∧ g2.m0 = g.m0 ∧ g2.p0 = g.p0 ∧ g2.travel = g.travel) ∧
          bit (og d (ax n.val 9) 4) 2 = false ∧ pRef d n.val = pRef s.dev n.val)) ∧
      ((mot s.dev n.val).queue = [] → Does (.livePhaseOffsetWrite n phi) s (fun d =>
        og d (ax n.val 0x21) 8 = phi.toNat ∧ Writes s.dev d [okey (ax n.val 0x21) 8] [said .ok])))

/-- Losses (R60, R92, R143, R147): a servo axis of its own feedback whose stale count is at its threshold shows the loss and reports source 50
+ 4c for torque off; a wire-current axis without current samples, its gates off, and a stepper axis without window contents do so with
their own codes, a disabled stepper axis once in a run of missing windows; a stall not yet shown is counted, takes the reference and reports
source 49 + 4c. Below the thresholds nothing happens. A torque-off
report of an axis, once numbered, takes the axis to Faulted with cause 4 and that number (one already Stopping keeps those of its stop), with
zero torque and its queue kept (R60, R92, R103, R104). -/
def Obligations.AxisLossesAreReported : Prop :=
  (∀ (n : Ax) (s : State),
      ((kind s.dev n.val = 1 ∨ kind s.dev n.val = 2) → fbInput s.dev n.val = none → bit (og s.dev (ax n.val 0x1B) 7) 4 = false →
        cg s.dev (ax n.val 0x16) 2 ≤ (srv s.dev n.val).stale → Leaves (.axisFeedbackLoss n) s (fun d =>
          bit (og d (ax n.val 0x1B) 7) 4 = true ∧ d.fc.todo = s.dev.fc.todo ++ [rep (50 + 4 * cluster s.dev n.val) 1 n.val 2] ∧
          AxisOnly s.dev d n.val)) ∧
      (kind s.dev n.val = 2 → axEnabled s.dev n.val = true → cg s.dev (ax n.val 0x1F) 7 ≤ (cur s.dev n.val).missing →
        Leaves (.axisCurrentFeedbackLoss n) s (fun d =>
          (cur d n.val).gates = false ∧ bit (og d (ax n.val 0x1F) 0x13) 5 = false ∧
          d.fc.todo = s.dev.fc.todo ++ [rep (50 + 4 * cluster s.dev n.val) 2 n.val 2] ∧ AxisOnly s.dev d n.val)) ∧
      ((kind s.dev n.val = 3 ∨ kind s.dev n.val = 4) → axEnabled s.dev n.val = true → cg s.dev (ax n.val 0x35) 4 ≤ (stp s.dev n.val).stall →
        bit (og s.dev (ax n.val 0x36) 5) 7 = false → og s.dev (ax n.val 0x3B) 1 < 0xFFFFFFFE → Leaves (.axisStall n) s (fun d =>
          (stp d n.val).stall = (stp s.dev n.val).stall ∧ bit (og d (ax n.val 0x36) 5) 7 = true ∧ og d (ax n.val 0x3B) 1 = og s.dev (ax n.val 0x3B) 1 + 1 ∧
          bit (og d (ax n.val 9) 4) 0 = false ∧ d.fc.todo = s.dev.fc.todo ++ [rep (49 + 4 * cluster s.dev n.val) 4 n.val 1] ∧
          AxisOnly s.dev d n.val)) ∧
      ((kind s.dev n.val = 3 ∨ kind s.dev n.val = 4) → (axEnabled s.dev n.val = true ∨ (stp s.dev n.val).lost = false) →
        cg s.dev (ax n.val 0x16) 2 ≤ (stp s.dev n.val).missing → Leaves (.stepperFeedbackLoss n) s (fun d =>
          (stp d n.val).energise = false ∧ (stp d n.val).lost = true ∧ bit (og d (ax n.val 0x36) 5) 2 = false ∧
          d.fc.todo = s.dev.fc.todo ++ [rep (50 + 4 * cluster s.dev n.val) 1 n.val 2] ∧ AxisOnly s.dev d n.val)) ∧
      (Settled s → axEnabled s.dev n.val = false →
        Idles (.axisCurrentFeedbackLoss n) s ∧ Idles (.axisStall n) s ∧ ((stp s.dev n.val).lost = true → Idles (.stepperFeedbackLoss n) s)) ∧
      (Settled s → (srv s.dev n.val).stale < cg s.dev (ax n.val 0x16) 2 → Idles (.axisFeedbackLoss n) s)) ∧
  (∀ (n : Ax) (s : State), Settled s → Calm s.dev (50 + 4 * cluster s.dev n.val) → axEnabled s.dev n.val = true → cluster s.dev n.val < 8 →
      (kind s.dev n.val = 1 ∨ kind s.dev n.val = 2) → fbInput s.dev n.val = none → bit (og s.dev (ax n.val 0x1B) 7) 4 = false →
      cg s.dev (ax n.val 0x16) 2 ≤ (srv s.dev n.val).stale → (mot s.dev n.val).homing = none → (mot s.dev n.val).blend = none →
      Does (.axisFeedbackLoss n) s (fun d =>
        axState d n.val = 6 ∧ og d (ax n.val 9) 2 = (if axState s.dev n.val = 3 then og s.dev (ax n.val 9) 2 else 4) ∧
        og d (ax n.val 9) 5 = (if axState s.dev n.val = 3 then og s.dev (ax n.val 9) 5 else s.dev.fc.nextSeq) ∧ og d (ax n.val 0x1B) 4 = 0 ∧
        d.fc.nextSeq = s.dev.fc.nextSeq + 1 ∧ (mot d n.val).queue.map QEntry.tag = (mot s.dev n.val).queue.map QEntry.tag ∧
        ∀ m : Ax, m ≠ n → axState d m.val = axState s.dev m.val))

/-! ## The base cycle -/

/-- BASE_CYCLE_START (R15, R196, R358): before the time unit is ready only time goes on, by one base cycle of the 0.8 ns grid. Afterwards the
count goes up by one at the instant where that cycle begins, the island's PDUs age by one cycle, and every unpaired Synchronous ring with
a claim sends its frame. FIELD_CYCLE_START (R15, R19, R213): once per field cycle, at a base cycle that N_b divides and before its control
instant; a Stopped line that asks for no other state sends its summation frame with the oldest eight corrections. Otherwise nothing
happens. -/
def Obligations.BaseAndFieldCyclesCountAndSend : Prop :=
  (∀ s : State,
      (Settled s → ready s.dev 4 = false → Does .baseCycleStart s (fun d =>
        d = { s.dev with time := d.time } ∧ d.time.grid = s.dev.time.grid + 40000 ∧ d.time.local_ = s.dev.time.local_ + 32000 * unitNs ∧
        d.time.k = s.dev.time.k)) ∧
      (ready s.dev 4 = true → ready s.dev 31 = false → segStep s.dev ≠ 0 → Leaves .baseCycleStart s (fun d =>
        d.time.k = s.dev.time.k + 1 ∧ (s.dev.time.k + 1) * unitCycle ≤ d.time.seg ∧ d.time.kc = s.dev.time.kc ∧
        d.pdus = s.dev.pdus ∧ d.pdus1 = s.dev.pdus ∧ d.pdus2 = s.dev.pdus1 ∧ s.dev.out <+: d.out ∧
        ∀ g : Ring, segState s.dev g.val = 3 → og s.dev (sgb g.val) 1 = 2 → (seg s.dev g.val).forced = false → ready s.dev (18 + g.val) = true →
          pairedSeg s.dev g.val = false → og s.dev 0x3C00 2 ≠ 0 →
          ∃ f, Msg.segment g.val none f ∈ d.out ∧
            f.take 8 = [0xFB, 0x10, BitVec.ofNat 8 (og s.dev 0x3C00 2), BitVec.ofNat 8 g.val] ++ leBytes 4 (s.dev.time.k + 1)))) ∧
  (∀ (l : Line) (s : State), mould s.dev (lseg l.val) ≠ [] →
      (Settled s → (ready s.dev (26 + l.val) = false ∨ s.dev.time.k % mouldNb (mould s.dev (lseg l.val)) ≠ 0 ∨ s.dev.time.kc = s.dev.time.k ∨
        (seg s.dev (lseg l.val)).fieldCycle = s.dev.time.k / mouldNb (mould s.dev (lseg l.val)) + 1) → Idles (.fieldCycleStart l) s) ∧
      (∀ c, ready s.dev (26 + l.val) = true → c * mouldNb (mould s.dev (lseg l.val)) = s.dev.time.k → s.dev.time.kc ≠ s.dev.time.k →
        (seg s.dev (lseg l.val)).fieldCycle ≠ c + 1 → segState s.dev (lseg l.val) = 4 → og s.dev (sgb (lseg l.val)) 1 = 1 →
        (seg s.dev (lseg l.val)).forced = false → (seg s.dev (lseg l.val)).swap = none →
        pairedSeg s.dev (lseg l.val) = false → og s.dev 0x3C00 2 ≠ 0 → Leaves (.fieldCycleStart l) s (fun d =>
          (seg d (lseg l.val)).fieldCycle = c + 1 ∧ (seg d (lseg l.val)).corrections = (seg s.dev (lseg l.val)).corrections.drop 8 ∧
          segState d (lseg l.val) = 4 ∧
          ∃ f, Msg.segment (lseg l.val) none f ∈ d.out ∧
            f.take 8 = [0xFB, 0x20, BitVec.ofNat 8 (og s.dev 0x3C00 2), BitVec.ofNat 8 (lseg l.val)] ++ leBytes 4 c)))

/-- CONTROL_INSTANT and TIGHT_CONTROL_INSTANT (R16, R34, R77): each runs once per base cycle of a ready time unit. The values written before
the control instant are in force from it on; a tight instant moves no reference and touches no axis outside a ring. Where no source resets
the chip and no image is pending, the cycle's control instant completes. -/
def Obligations.ControlInstantsRunOncePerCycle : Prop :=
  ∀ s : State, Settled s →
    (ready s.dev 4 = false ∨ s.dev.time.kc = s.dev.time.k → Idles .controlInstant s ∧ Idles .tightControlInstant s) ∧
    (ready s.dev 4 = true → s.dev.time.kc ≠ s.dev.time.k → s.dev.host.pending = none →
      (∀ src, src < 256 → bit (og s.dev (0x3900 + src) 1) 3 = false) → (∀ n, cluster s.dev n < 8) →
      ∃ t, exec .controlInstant s = .next t ∧ t.dev.time.kc = s.dev.time.k ∧ t.dev.time.k = s.dev.time.k ∧
        ∀ idx sub, 0x8000 ≤ idx → tget objDefault t.dev.inForce (okey idx sub) = og s.dev idx sub) ∧
    (s.dev.time.kt = s.dev.time.k → Idles .tightControlInstant s) ∧
    (ready s.dev 4 = true → s.dev.time.kc ≠ s.dev.time.k → s.dev.time.kt ≠ s.dev.time.k → Leaves .tightControlInstant s (fun d =>
      d.time.kt = s.dev.time.k ∧ d.time.kc = s.dev.time.kc ∧ d.time.k = s.dev.time.k ∧ d.inForce = s.dev.inForce ∧
      (∀ n : Ax, pRef d n.val = pRef s.dev n.val ∧ axState d n.val = axState s.dev n.val) ∧
      ∀ n : Ax, axisSeg s.dev n.val = none → mot d n.val = mot s.dev n.val ∧ srv d n.val = srv s.dev n.val ∧
        cur d n.val = cur s.dev n.val ∧ stp d n.val = stp s.dev n.val))

/-- CYCLE_POINT (R249, R250): a point that is due is counted, notified with a number and pulsed, as its outputs ask, and is due no more; one
that is not due, or disabled meanwhile, does nothing. MAPPING_ACTIVATE (R48-R50): a write of n to sub-index 0 of a mapping record checks
the first n entries; the record then has n entries, or the answer names the first entry that fails and the record is as before. -/
def Obligations.CyclePointsAndMappings : Prop :=
  (∀ (i : Fin 8) (s : State), Settled s →
      (tget (fun _ => none) s.dev.time.ptDue i.val = none → Idles (.cyclePoint i) s) ∧
      (∀ k sg l, tget (fun _ => none) s.dev.time.ptDue i.val = some (k, sg, l) →
        (ready s.dev 4 = false ∨ og s.dev (0x3500 + i.val) 1 = 0 → Does (.cyclePoint i) s (fun d =>
          d = { s.dev with time := { s.dev.time with ptDue := d.time.ptDue } } ∧ tget (fun _ => none) d.time.ptDue i.val = none)) ∧
        (ready s.dev 4 = true → og s.dev (0x3500 + i.val) 1 ≠ 0 → og s.dev (0x3500 + i.val) 6 < 0xFFFFFFFE → ready s.dev 2 = true →
          sealed s.dev = false → (∀ p ∈ s.dev.time.taps, p.2.2 ≤ l) → Does (.cyclePoint i) s (fun d =>
            og d (0x3500 + i.val) 6 = og s.dev (0x3500 + i.val) 6 + 1 ∧ tget (fun _ => none) d.time.ptDue i.val = none ∧
            d.fc.nextSeq = s.dev.fc.nextSeq + b2n (bit (og s.dev (0x3500 + i.val) 5) 0) ∧ d.fc.log = s.dev.fc.log ∧
            d.out = s.dev.out ++ (if bit (og s.dev (0x3500 + i.val) 5) 1 then [.tap] else []) ∧
            ObjsKept s.dev d [okey (0x3500 + i.val) 6])))) ∧
  (∀ (idx : BitVec 16) (n : BitVec 8) (s : State), Settled s → paired s.dev = false →
      (¬ (0x1600 ≤ idx.toNat ∧ idx.toNat < 0x1800 ∨ 0x1A00 ≤ idx.toNat ∧ idx.toNat < 0x1C00) → Answers (.mappingActivate idx n) s .noObject) ∧
      (0x1600 ≤ idx.toNat ∧ idx.toNat < 0x1800 ∨ 0x1A00 ≤ idx.toNat ∧ idx.toNat < 0x1C00 →
        ((admission s.dev false idx.toNat 0).1 ≠ .ok → Answers (.mappingActivate idx n) s (admission s.dev false idx.toNat 0).1) ∧
        ((admission s.dev false idx.toNat 0).1 = .ok →
          (64 < n.toNat → Answers (.mappingActivate idx n) s .range) ∧
          (n.toNat ≤ 64 → mapFail s.dev idx.toNat n.toNat = none → Does (.mappingActivate idx n) s (fun d =>
            og d idx.toNat 0 = n.toNat ∧ Writes s.dev d [okey idx.toNat 0] [said .ok])) ∧
          (∀ e, n.toNat ≤ 64 → mapFail s.dev idx.toNat n.toNat = some e → 1 ≤ e ∧ e ≤ n.toNat ∧
            Does (.mappingActivate idx n) s (fun d => Writes s.dev d [] [.status (statusCode .range) e])))))

/-! ## Pulse inputs -/

/-- A tooth event of a counting input without coded direction that does not come too early is processed at once or by its control instant;
times are segment time in units of 0.8 ns (R153-R157, R163): the first tooth after a restart, or one in the other direction, moves the
position by one pitch with an invalid period, a later one by one pitch with its period and speed; an edge before the minimum time is
counted and reported; an input that does not count takes no notice. Standstill and losses of a pulse input (R60, R162, R163, R527):
without a tooth for the standstill time the speed is 0 and the next tooth restarts the measurement; a differential level below the
threshold is counted and reported once, and ends; a watch time without a tooth is reported. Both take the feedback of the axes the input
feeds. -/
def Obligations.PulseInputsCountAndShowTheirLosses : Prop :=
  (∀ (i : PIn) (dg width : BitVec 32) (s : State),
      (Settled s → pulseOn s.dev i.val = false → Does (.toothEvent i dg width) s (fun d => d = advance s.dev dg.toNat)) ∧
      (∀ t x P, pulseOn s.dev i.val = true → t = pulseTime (advance s.dev dg.toNat).time.seg → x = pls s.dev i.val → P = pitch s.dev i.val →
        x.waiting = [] → cg s.dev (0x3D00 + i.val) 0x0D ≠ 1 → t + cg s.dev (0x3D00 + i.val) 4 + 20 < pulseInstantAt (s.dev.time.kc + 1) →
        (∀ l, x.lastEdge = some l → t - l < (cg s.dev (0x3D00 + i.val) 5 * 5 + 3) / 4 → og s.dev (0x3D20 + i.val) 2 < 0xFFFFFFFE →
          Leaves (.toothEvent i dg width) s (fun d => og d (0x3D20 + i.val) 2 = og s.dev (0x3D20 + i.val) 2 + 1 ∧ pls d i.val = x ∧
            pulsePos d i.val = pulsePos s.dev i.val ∧ d.fc.todo = s.dev.fc.todo ++ [rep 128 0 i.val 0])) ∧
        ((∀ l, x.lastEdge = some l → (cg s.dev (0x3D00 + i.val) 5 * 5 + 3) / 4 ≤ t - l) →
          (x.restart = true ∨ x.sNeg ≠ x.cmdNeg → Leaves (.toothEvent i dg width) s (fun d =>
            pulsePos d i.val = wrap 64 (pulsePos s.dev i.val + if x.cmdNeg then -P else P) ∧ (pls d i.val).te = t ∧
            (pls d i.val).tp = none ∧ (pls d i.val).restart = false ∧ (pls d i.val).sNeg = x.cmdNeg ∧
            bit (og d (0x3D10 + i.val) 4) 3 = false ∧ bit (og d (0x3D10 + i.val) 4) 9 = false ∧
            ∀ j : PIn, j ≠ i → pls d j.val = pls s.dev j.val ∧ pulsePos d j.val = pulsePos s.dev j.val)) ∧
          (x.restart = false → x.sNeg = x.cmdNeg → cg s.dev (0x3D00 + i.val) 8 ≠ 1 → cg s.dev (0x3D00 + i.val) 8 ≠ 2 → x.refPending = false →
            Leaves (.toothEvent i dg width) s (fun d =>
              pulsePos d i.val = wrap 64 (pulsePos s.dev i.val + if x.cmdNeg then -P else P) ∧ (pls d i.val).te = t ∧
              (pls d i.val).tp = some (f64OfRat (t - x.ta : Int)) ∧ (pls d i.val).invalid = false ∧
              og d (0x3D10 + i.val) 2 = pulseTime112 t ∧ bit (og d (0x3D10 + i.val) 4) 3 = false))))) ∧
  (∀ (i : PIn) (s : State),
      (pulseOn s.dev i.val = true →
        (standstillTime s.dev i.val ≤ ((pulseTime s.dev.time.seg - (pls s.dev i.val).te : Int) : Rat) → Settled s →
          Does (.standstillTimeout i) s (fun d => bit (og d (0x3D10 + i.val) 4) 3 = true ∧ bit (og d (0x3D10 + i.val) 4) 2 = true ∧
            og d (0x3D10 + i.val) 3 = 0 ∧ pls d i.val = { pls s.dev i.val with restart := true } ∧
            ObjsKept s.dev d [okey (0x3D10 + i.val) 3, okey (0x3D10 + i.val) 4])) ∧
        (cg s.dev (0x3D00 + i.val) 2 = 0 → bit (og s.dev (0x3D10 + i.val) 4) 8 = false → og s.dev (0x3D20 + i.val) 8 < 0xFFFFFFFE →
          Leaves (.pulseInputSignalFault i) s (fun d => bit (og d (0x3D10 + i.val) 4) 8 = true ∧
            og d (0x3D20 + i.val) 8 = og s.dev (0x3D20 + i.val) 8 + 1 ∧ (∃ r, d.fc.todo = s.dev.fc.todo ++ rep 130 0 i.val 0 :: r) ∧
            ∀ n ∈ fedAxes s.dev i.val, bit (og d (ax n 0x1B) 7) 4 = true)) ∧
        (f32ToRat (ogf s.dev (0x3D00 + i.val) 0x12) ≠ 0 → bit (og s.dev (0x3D10 + i.val) 4) 9 = false →
          instants (og s.dev (0x3D00 + i.val) 0x13) ≤ (pls s.dev i.val).watch → Leaves (.pulseInputLoss i) s (fun d =>
            bit (og d (0x3D10 + i.val) 4) 9 = true ∧ (∃ r, d.fc.todo = s.dev.fc.todo ++ rep 131 0 i.val 0 :: r) ∧
            ∀ n ∈ fedAxes s.dev i.val, bit (og d (ax n 0x1B) 7) 4 = true))) ∧
      (Settled s → Does (.pulseInputSignalRestored i) s (fun d => bit (og d (0x3D10 + i.val) 4) 8 = false ∧
        ((∀ j : PIn, j ≠ i → bit (og s.dev (0x3D10 + j.val) 4) 8 = false) → bit d.fc.cond 130 = false) ∧
        ((∃ j : PIn, j ≠ i ∧ bit (og s.dev (0x3D10 + j.val) 4) 8 = true) → d.fc.cond = s.dev.fc.cond) ∧
        ObjsKept s.dev d [okey (0x3D10 + i.val) 4])) ∧
      (Settled s → pulseOn s.dev i.val = false → Idles (.standstillTimeout i) s ∧ Idles (.pulseInputSignalFault i) s ∧ Idles (.pulseInputLoss i) s))

/-! ## Segments -/

/-- SEGMENT_REQUEST (R229, R230): values above 2 are out of range, before the dictionary's keeper is ready nothing is taken; an accepted one
is stored, ends the hold of a trap plan, and does nothing else at once. MOULD_WRITE and MICROSTEP_TABLE_WRITE (R145, R223, R245): a mould
is taken while the segment is Off or Stopped and the device not in Service, when it passes the checks of R223-R225, and leaves the old one
otherwise; a microstep table of 1,024 bytes without the value 0x8000 is taken in the mode Stopped. -/
def Obligations.SegmentRequestsAndMoulds : Prop :=
  (∀ (g : Seg) (v : BitVec 8) (s : State), Settled s → paired s.dev = false →
      (ready s.dev 1 = false → Answers (.segmentRequest g v) s .notReady) ∧
      (ready s.dev 1 = true → 2 < v.toNat → Answers (.segmentRequest g v) s .range) ∧
      (ready s.dev 1 = true → v.toNat ≤ 2 → segState s.dev g.val ≠ 3 ∨ v.toNat = 2 ∨
          mode s.dev ≠ 4 ∧ (∀ n ∈ segAxes s.dev g.val, axState s.dev n ≠ 2 ∧ axState s.dev n ≠ 3 ∧ axState s.dev n ≠ 5) →
        Does (.segmentRequest g v) s (fun d => og d (sgb g.val) 1 = v.toNat ∧ seg d g.val = { seg s.dev g.val with hold := false } ∧
          d = { s.dev with objs := d.objs, segs := d.segs, out := s.dev.out ++ [said .ok] } ∧ ObjsKept s.dev d [okey (sgb g.val) 1] ∧
          ∀ h : Seg, h ≠ g → seg d h.val = seg s.dev h.val))) ∧
  (∀ (g : Seg) (t : Fin 4) (data : Bytes) (s : State), Settled s → paired s.dev = false →
      (ready s.dev 1 = false → Answers (.mouldWrite g data) s .notReady ∧ Answers (.microstepTableWrite t data) s .notReady) ∧
      (ready s.dev 1 = true →
        (mode s.dev = 5 ∨ segState s.dev g.val ≠ 4 ∧ segState s.dev g.val ≠ 0 → Answers (.mouldWrite g data) s .state) ∧
        (mode s.dev ≠ 5 → (segState s.dev g.val = 4 ∨ segState s.dev g.val = 0) →
          (mouldOk g.val data = false → Answers (.mouldWrite g data) s .range) ∧
          (mouldOk g.val data = true → Does (.mouldWrite g data) s (fun d => ob d (0x3300 + g.val) 0 = data ∧ segState d g.val = segState s.dev g.val ∧
            (segState s.dev g.val = 4 → mould d g.val = mould s.dev g.val ∧ (seg d g.val).swap = some (mould s.dev g.val)) ∧
            (segState s.dev g.val = 0 → (seg s.dev g.val).swap = none → mould d g.val = data ∧ bit (og d 0x3C00 4) g.val = mouldPaired data) ∧
            d.out = s.dev.out ++ [said .ok] ∧ ∀ h : Seg, h ≠ g → ob d (0x3300 + h.val) 0 = ob s.dev (0x3300 + h.val) 0))) ∧
        (mode s.dev ≠ 2 → Answers (.microstepTableWrite t data) s .state) ∧
        (mode s.dev = 2 → data.length ≠ 1024 → Answers (.microstepTableWrite t data) s .length) ∧
        (mode s.dev = 2 → data.length = 1024 → (∃ i, i < 512 ∧ rd data (2 * i) 2 = 0x8000) → Answers (.microstepTableWrite t data) s .range) ∧
        (mode s.dev = 2 → data.length = 1024 → (∀ i, i < 512 → rd data (2 * i) 2 ≠ 0x8000) → Leaves (.microstepTableWrite t data) s (fun d =>
          ob d (0x3D90 + t.val) 0 = data ∧ d.out = s.dev.out ++ [said .ok] ∧
          ∀ u : Fin 4, u ≠ t → ob d (0x3D90 + u.val) 0 = ob s.dev (0x3D90 + u.val) 0))))

/-- Cold start (R234-R237): four slots without hearing the segment end in a cold-start frame of round 1, and in another wait when it was
heard; a slot in which the start is contended goes into backoff and is counted, a second clean one in a row makes this unit the originator
of Integrating; after the backoff the next round is sent. A segment that is not in Cold-start takes no notice. Another head's frame (R232,
R235-R237, R277, R322): in Cold-start a running segment of the same mould, and in backoff any, is followed with its segment time, in backoff
a cold start too; every other frame of a head is noted; a line changes its state at its field cycle boundary only; the far head of a paired
line takes the roll call's counter; a frame whose claim is outside the range is none, one with a bad CRC only counts. The originator leaves Integrating for Stopped once a roll call was made and no
node is on its way. -/
def Obligations.SegmentsStartAndIntegrate : Prop :=
  (∀ (g : Seg) (returned contention : Bool) (s : State), Settled s →
      (segState s.dev g.val ≠ 1 → Idles (.coldStartListenEnd g) s ∧ Idles (.coldStartSlotEnd g returned contention) s ∧ Idles (.coldStartBackoffEnd g) s) ∧
      (segState s.dev g.val = 1 → (seg s.dev g.val).cold = .listening → (seg s.dev g.val).start + 4 * slotCycles g.val ≤ s.dev.time.k →
        ((seg s.dev g.val).heard = true → Does (.coldStartListenEnd g) s (fun d =>
          seg d g.val = { seg s.dev g.val with heard := false, start := s.dev.time.k } ∧ Writes s.dev { d with segs := s.dev.segs } [] [])) ∧
        ((seg s.dev g.val).heard = false → Does (.coldStartListenEnd g) s (fun d =>
          seg d g.val = { seg s.dev g.val with sent := 0, cold := .sending, start := s.dev.time.k } ∧ og d (sgb g.val) 8 = 1 ∧
          Writes s.dev { d with segs := s.dev.segs } [okey (sgb g.val) 8] [.segment g.val none (startFrame s.dev g.val 1)]))) ∧
      (segState s.dev g.val = 1 → (seg s.dev g.val).cold = .sending → (seg s.dev g.val).start + slotCycles g.val ≤ s.dev.time.k →
        ((contention = true ∨ (seg s.dev g.val).heard = true ∨ g.val < 8 ∧ returned = false) → og s.dev (sgb g.val) 9 < 0xFFFFFFFE →
          Does (.coldStartSlotEnd g returned contention) s (fun d =>
            seg d g.val = { seg s.dev g.val with cold := .backoff, start := s.dev.time.k, sent := 0, heard := false } ∧
            og d (sgb g.val) 9 = og s.dev (sgb g.val) 9 + 1 ∧ Writes s.dev { d with segs := s.dev.segs } [okey (sgb g.val) 9] [])) ∧
        (contention = false → (seg s.dev g.val).heard = false → (8 ≤ g.val ∨ returned = true) →
          ((seg s.dev g.val).sent = 0 → Does (.coldStartSlotEnd g returned contention) s (fun d =>
            seg d g.val = { seg s.dev g.val with sent := 1, cold := .sending, start := s.dev.time.k } ∧
            Writes s.dev { d with segs := s.dev.segs } [] [.segment g.val none (startFrame s.dev g.val (og s.dev (sgb g.val) 8))])) ∧
          ((seg s.dev g.val).sent ≠ 0 → Leaves (.coldStartSlotEnd g returned contention) s (fun d =>
            ((g.val < 8 ∨ s.dev.time.k % mouldNb (mould s.dev g.val) = 0) → segState d g.val = 2 ∧ og d (sgb g.val) 3 = 1 ∧ og d (sgb g.val) 7 = 0 ∧
              (seg d g.val).cold = .idle ∧ (seg d g.val).rolled = false) ∧
            (8 ≤ g.val → s.dev.time.k % mouldNb (mould s.dev g.val) ≠ 0 → seg d g.val = { seg s.dev g.val with pend := 1 } ∧ segState d g.val = 1) ∧
            d.out = s.dev.out ∧ ∀ h : Seg, h ≠ g → segState d h.val = segState s.dev h.val)))) ∧
      (segState s.dev g.val = 1 → (seg s.dev g.val).cold = .backoff →
        (seg s.dev g.val).start + (255 - og s.dev 0x3C00 2) * slotCycles g.val ≤ s.dev.time.k → Does (.coldStartBackoffEnd g) s (fun d =>
          seg d g.val = { seg s.dev g.val with sent := 0, cold := .sending, start := s.dev.time.k } ∧
          og d (sgb g.val) 8 = min 255 (og s.dev (sgb g.val) 8 + 1) ∧
          Writes s.dev { d with segs := s.dev.segs } [okey (sgb g.val) 8]
            [.segment g.val none (startFrame s.dev g.val (min 255 (og s.dev (sgb g.val) 8 + 1)))]))) ∧
  (∀ (g : Seg) (c : Chan) (kind : Fin 3) (claim : BitVec 8) (tag counter : BitVec 16) (cycle : BitVec 32) (s : State),
      (Settled s → (g.val < 8 ∨ kind ≠ 0 ∨ ready s.dev (18 + g.val) = false → Idles (.otherHeadHeard g c false kind claim tag counter cycle) s) ∧
        (∀ i, i = (if c = .a then 1 else 2) → 8 ≤ g.val → kind = 0 → ready s.dev (18 + g.val) = true → og s.dev (sgb g.val + 9) i < 0xFFFFFFFE →
          Does (.otherHeadHeard g c false kind claim tag counter cycle) s (fun d => og d (sgb g.val + 9) i = og s.dev (sgb g.val + 9) i + 1 ∧ Writes s.dev d [okey (sgb g.val + 9) i] [])) ∧
        (claim.toNat = 255 ∨ claim.toNat = 0 → Idles (.otherHeadHeard g c true kind claim tag counter cycle) s)) ∧
      (1 ≤ claim.toNat → claim.toNat ≤ 254 →
        (segState s.dev g.val = 1 →
          (kind = 0 → (seg s.dev g.val).cold = .backoff ∨ tag.toNat = mouldTag (mould s.dev g.val) → Leaves (.otherHeadHeard g c true kind claim tag counter cycle) s (fun d =>
            segState d g.val = 2 ∧ og d (sgb g.val) 3 = 2 ∧ (seg d g.val).cold = .idle ∧ d.pair.heardHead = true ∧
            (g.val < 8 → d.time.k % 2 ^ 32 = cycle.toNat) ∧ d.time.k * unitCycle ≤ d.time.seg ∧
            ∀ h : Seg, h ≠ g → segState d h.val = segState s.dev h.val)) ∧
          (kind = 1 → (seg s.dev g.val).cold = .backoff → Leaves (.otherHeadHeard g c true kind claim tag counter cycle) s (fun d =>
            ((g.val < 8 ∨ s.dev.time.k % mouldNb (mould s.dev g.val) = 0) → segState d g.val = 2 ∧ og d (sgb g.val) 3 = 2 ∧ (seg d g.val).cold = .idle) ∧
            (8 ≤ g.val → s.dev.time.k % mouldNb (mould s.dev g.val) ≠ 0 → seg d g.val = { seg s.dev g.val with pend := 2 } ∧ segState d g.val = 1) ∧
            d.pair.heardHead = true ∧ ∀ h : Seg, h ≠ g → segState d h.val = segState s.dev h.val)) ∧
          (Settled s → kind ≠ 2 → (seg s.dev g.val).cold ≠ .backoff → (kind = 1 ∨ tag.toNat ≠ mouldTag (mould s.dev g.val)) → Does (.otherHeadHeard g c true kind claim tag counter cycle) s (fun d =>
            seg d g.val = { seg s.dev g.val with heard := true } ∧ d = { s.dev with segs := d.segs, pair := { s.dev.pair with heardHead := true } })) ∧
          (Settled s → kind = 2 → pairedSeg s.dev g.val = false → mouldPaired (mould s.dev g.val) = false → Does (.otherHeadHeard g c true kind claim tag counter cycle) s (fun d =>
            seg d g.val = { seg s.dev g.val with heard := true } ∧ d = { s.dev with segs := d.segs }))) ∧
        (kind = 2 → 8 ≤ g.val → mouldPaired (mould s.dev g.val) = true → ready s.dev (18 + g.val) = true → Leaves (.otherHeadHeard g c true kind claim tag counter cycle) s (fun d =>
          og d (sgb g.val) (if og s.dev (sgb g.val + 0x30) 1 = 1 then 5 else 6) = counter.toNat ∧
          (counter.toNat ≠ mouldN g.val (mould s.dev g.val) → rep (82 + 4 * g.val) 5 0 0 ∈ d.fc.todo))) ∧
        (Settled s → kind = 2 → g.val < 8 → c = .a → pairedSeg s.dev g.val = true → segState s.dev g.val ≠ 1 → Does (.otherHeadHeard g c true kind claim tag counter cycle) s (fun d =>
          d = { s.dev with pair := { s.dev.pair with counted := d.pair.counted } } ∧ tget (fun _ => none) d.pair.counted g.val = some counter.toNat)) ∧
        (Settled s → segState s.dev g.val ≠ 1 → kind = 0 → 8 ≤ g.val → pairedSeg s.dev g.val = true → Does (.otherHeadHeard g c true kind claim tag counter cycle) s (fun d =>
          g.val ∈ d.pair.heardLines ∧ (s.dev.pair.driving = false → d.pair.driving = false) ∧
          d = { s.dev with pair := { s.dev.pair with heardLines := d.pair.heardLines, driving := d.pair.driving } })) ∧
        (Settled s → segState s.dev g.val ≠ 1 → (kind = 1 ∨ kind = 0 ∧ (g.val < 8 ∨ pairedSeg s.dev g.val = false)) → Idles (.otherHeadHeard g c true kind claim tag counter cycle) s))) ∧
  (∀ (g : Seg) (s : State),
      (segState s.dev g.val = 2 → og s.dev (sgb g.val) 3 = 1 → (seg s.dev g.val).rolled = true →
        (∀ p ∈ headsOf s.dev g.val, p.2.state ≠ 1 ∧ p.2.state ≠ 2) →
        (g.val < 8 ∨ s.dev.time.k % mouldNb (mould s.dev g.val) = 0) → Leaves (.integrationEnd g) s (fun d =>
          segState d g.val = 4 ∧ d.heads = s.dev.heads ∧ d.out = s.dev.out ∧ ∀ h : Seg, h ≠ g → segState d h.val = segState s.dev h.val)) ∧
      (Settled s → segState s.dev g.val ≠ 2 → Idles (.integrationEnd g) s))

/-- ROLL_CALL and what the head concludes of its nodes on a segment that is not paired (R235, R239, R240, R221, R228, R530): a due roll call
leaves, shows the counters that came back and begins the integration of every node not yet known; an identity reply that agrees lets a
node's integration go on, one that does not is a mismatch; an Integrated node missing too long is Absent, one whose slots lie outside
their window eight field cycles in a row is Excluded. -/
def Obligations.NodesAreCalledIntegratedAndLost : Prop :=
  ∀ (nd : NodeId) (g j : Nat) (seenA seenB : BitVec 16) (q : BitVec 8) (p : Bytes) (e : Exchange) (s : State), g = nodeSeg nd → j = nodeNum nd →
    paired s.dev = false → pairedSeg s.dev g = false →
    (∀ sg : Seg, sg.val = g → sending s.dev g = true → og s.dev 0x3C00 2 ≠ 0 → rollDue s.dev g = true → (g < 8 → (seg s.dev g).mailed = false) →
      Leaves (.rollCall sg seenA seenB) s (fun d =>
        d.out = s.dev.out ++ [.segment g none (startFrame s.dev g 0)] ∧ (seg d g).rolled = true ∧
        (g < 8 → og d (sgb g) 5 = seenA.toNat ∧ og d (sgb g) 6 = seenB.toNat) ∧
        (j ∈ mouldNodes g (mould s.dev g) → (hd s.dev g j).state = 0 → (hd s.dev g j).addressed = false →
          (∀ x ∈ (seg s.dev g).exchanges, x.node ≠ j) → (hd d g j).state = 1 ∧ (hd d g j).addressed = true ∧ (hd d g j).step = 1) ∧
        ((hd s.dev g j).state = 3 → hd d g j = hd s.dev g j))) ∧
    (∀ sg : Seg, sg.val = g → Settled s → sending s.dev g = false → Idles (.rollCall sg seenA seenB) s) ∧
    ((seg s.dev g).exchanges = [e] → e.node = j → e.used ≠ 0 → e.seq = q.toNat → e.cls = 1 → (hd s.dev g j).addressed = true →
      (hd s.dev g j).step = 1 → 2 ≤ p.length → rd p 0 1 = 1 → rd p 1 1 = 0 →
      (identityOk (mould s.dev g) g j p = true → Leaves (.mailboxReply nd q p) s (fun d =>
        (seg d g).exchanges = [] ∧ (hd d g j).state = 2 ∧ (hd d g j).step = 2 ∧ (hd d g j).ntype = rd p 6 2 ∧ (hd d g j).latency = rd p 8 2)) ∧
      (identityOk (mould s.dev g) g j p = false → Leaves (.mailboxReply nd q p) s (fun d =>
        (seg d g).exchanges = [] ∧ (hd d g j).state = 4 ∧ (hd d g j).addressed = false ∧ rep (82 + 4 * g) 2 j 0 ∈ d.fc.todo))) ∧
    ((hd s.dev g j).state = 3 → (if g < 8 then 32 else 8) ≤ (hd s.dev g j).missing → Leaves (.nodeAbsent nd) s (fun d =>
      (hd d g j).state = 0 ∧ (hd d g j).step = 0 ∧ d.out = s.dev.out ∧ ∀ i, i ≠ j → hd d g i = hd s.dev g i)) ∧
    (Settled s → ((hd s.dev g j).state ≠ 3 ∨ (hd s.dev g j).missing < 8) → Idles (.nodeAbsent nd) s) ∧
    (∀ (l : Line) (k : FNode), nd = .line l k → (hd s.dev g j).state = 3 → 8 ≤ (hd s.dev g j).dev → og s.dev (fnx l.val j 3) 5 < 0xFFFFFFFE →
      Leaves (.nodeExcluded l k) s (fun d => (hd d g j).state = 5 ∧ (hd d g j).dev = 0 ∧
        (seg d g).corrections = (seg s.dev g).corrections ++ [(j, 2, 0)] ∧ og d (fnx l.val j 3) 5 = og s.dev (fnx l.val j 3) 5 + 1 ∧
        rep (82 + 4 * g) 4 j 0 ∈ d.fc.todo))

/-- Mailbox exchanges (R241, R244): a host request of an open service that fits is kept for the node named then and shown pending, and a second one is
busy; an empty one has the wrong length, one longer than P is out of range (the model's choice, assumption log 86) and another service is
reserved; its reply is shown with its bytes, or its failure after 16 opportunities, counted and reported; a reply no exchange waits for does
nothing. The chill (R246-R248): a request for a cycle far enough ahead on the lines' common grid is pending, for another is out of range,
and the first one possible is taken for 0; a second is busy; at its cycle every counter of a ready block is latched at once, with a
number; the collection ends when no record is to come, in success or with the number of missing records. -/
def Obligations.MailboxesAreExchangedAndChilled : Prop :=
  (∀ (sg : Seg) (nd : NodeId) (q : BitVec 8) (p : Bytes) (e : Exchange) (s : State), Settled s → paired s.dev = false →
      (ready s.dev (18 + sg.val) = true → p ≠ [] → p.length ≤ mouldP sg.val (mould s.dev sg.val) →
        (rd p 0 1 = 0 ∨ rd p 0 1 = 1 ∨ rd p 0 1 = 5 ∨ rd p 0 1 = 6 ∨ 0x80 ≤ rd p 0 1) →
        (og s.dev (sgb sg.val + 0x0A) 4 ≠ 1 → Does (.hostMailboxRequest sg p) s (fun d =>
          ob d (sgb sg.val + 0x0A) 2 = p ∧ og d (sgb sg.val + 0x0A) 4 = 1 ∧ (seg d sg.val).hostReq = some (og s.dev (sgb sg.val + 0x0A) 1, p) ∧ d.out = s.dev.out ++ [said .ok] ∧
          ObjsKept s.dev d [okey (sgb sg.val + 0x0A) 4])) ∧
        (og s.dev (sgb sg.val + 0x0A) 4 = 1 → Answers (.hostMailboxRequest sg p) s .busy)) ∧
      (ready s.dev (18 + sg.val) = true → (p = [] → Answers (.hostMailboxRequest sg p) s .length) ∧
        (p ≠ [] → mouldP sg.val (mould s.dev sg.val) < p.length → Answers (.hostMailboxRequest sg p) s .range) ∧
        (p ≠ [] → p.length ≤ mouldP sg.val (mould s.dev sg.val) → 2 ≤ rd p 0 1 → rd p 0 1 < 0x80 → rd p 0 1 ≠ 5 → rd p 0 1 ≠ 6 →
          Answers (.hostMailboxRequest sg p) s .reserved)) ∧
      (ready s.dev (18 + sg.val) = false → Answers (.hostMailboxRequest sg p) s .notReady) ∧
      ((seg s.dev (nodeSeg nd)).exchanges = [e] → e.node = nodeNum nd → e.cls = 4 →
        (e.used ≠ 0 → e.seq = q.toNat → Does (.mailboxReply nd q p) s (fun d =>
          (seg d (nodeSeg nd)).exchanges = [] ∧ ob d (sgb (nodeSeg nd) + 0x0A) 3 = p ∧ og d (sgb (nodeSeg nd) + 0x0A) 4 = 2 ∧
          ObjsKept s.dev d [okey (sgb (nodeSeg nd) + 0x0A) 4])) ∧
        (e.seq ≠ q.toNat → Idles (.mailboxReply nd q p) s) ∧
        (16 ≤ e.used → og s.dev (sgb (nodeSeg nd) + 0x0A) 5 < 0xFFFFFFFE → Leaves (.nodeMailboxTimeout nd) s (fun d =>
          (seg d (nodeSeg nd)).exchanges = [] ∧ og d (sgb (nodeSeg nd) + 0x0A) 4 = 3 ∧
          og d (sgb (nodeSeg nd) + 0x0A) 5 = og s.dev (sgb (nodeSeg nd) + 0x0A) 5 + 1 ∧
          d.fc.todo = [rep (82 + 4 * nodeSeg nd) 3 (nodeNum nd) 0])) ∧
        (e.used < 16 → Idles (.nodeMailboxTimeout nd) s)) ∧
      ((seg s.dev (nodeSeg nd)).exchanges = [] → Idles (.mailboxReply nd q p) s ∧ Idles (.nodeMailboxTimeout nd) s)) ∧
  (∀ (cyc : BitVec 64) (s : State), Settled s →
      (ready s.dev 4 = false → Answers (.chillRequest cyc) s .notReady) ∧
      (ready s.dev 4 = true → (og s.dev 0x3510 2 = 1 ∨ og s.dev 0x3510 2 = 2) → Answers (.chillRequest cyc) s .busy) ∧
      (ready s.dev 4 = true → og s.dev 0x3510 2 ≠ 1 → og s.dev 0x3510 2 ≠ 2 → cyc ≠ 0 →
        (cyc.toNat < s.dev.time.kc + 1 + chillLead s.dev ∨ cyc.toNat % chillGrid s.dev ≠ 0 → Answers (.chillRequest cyc) s .range) ∧
        (s.dev.time.kc + 1 + chillLead s.dev ≤ cyc.toNat → cyc.toNat % chillGrid s.dev = 0 → paired s.dev = false →
          Does (.chillRequest cyc) s (fun d => og d 0x3510 1 = cyc.toNat ∧ og d 0x3510 2 = 1 ∧ d.time = { s.dev.time with chillAt := some cyc.toNat } ∧
            Writes { s.dev with time := d.time } d [okey 0x3510 1, okey 0x3510 2] [said .ok]))) ∧
      (ready s.dev 4 = true → og s.dev 0x3510 2 ≠ 1 → og s.dev 0x3510 2 ≠ 2 → cyc = 0 → paired s.dev = false → Does (.chillRequest cyc) s (fun d =>
        s.dev.time.kc + 1 + chillLead s.dev ≤ og d 0x3510 1 ∧ og d 0x3510 1 < s.dev.time.kc + 1 + chillLead s.dev + chillGrid s.dev ∧
        og d 0x3510 1 % chillGrid s.dev = 0 ∧ og d 0x3510 2 = 1 ∧ d.time.chillAt = some (og d 0x3510 1))) ∧
      (og s.dev 0x3510 2 = 1 → s.dev.time.chillAt = some s.dev.time.k → ready s.dev 2 = true → sealed s.dev = false → Does .chillLatch s (fun d =>
        og d 0x3510 2 = 2 ∧ og d 0x3510 4 = s.dev.fc.nextSeq ∧ d.fc.nextSeq = s.dev.fc.nextSeq + 1 ∧
        ((∀ p ∈ s.isl.counters, p.1 < 256) → ∀ idx sub, sub < 256 → isCounter idx sub = true → ready s.dev (ownerBit s.dev idx) = true → ¬ (0x3A00 ≤ idx ∧ idx < 0x3B00) →
          tget (fun _ => 0) d.shadow (okey idx sub) = og s.dev idx sub) ∧
        ObjsKept s.dev d [okey 0x3510 2, okey 0x3510 4])) ∧
      (og s.dev 0x3510 2 ≠ 1 → Idles .chillLatch s) ∧
      (og s.dev 0x3510 2 = 2 → (∀ p ∈ s.dev.heads, p.2.chillSt = 0 ∨ p.2.chillSt = 1 ∨ p.2.chillSt = 2 ∨ p.2.chillSt = 5) → Does .chillCollectionEnd s (fun d =>
        (∀ m, m = (s.dev.heads.filter (fun p => p.2.chillSt = 2 || p.2.chillSt = 5)).length →
          og d 0x3510 3 = m ∧ og d 0x3510 2 = if m = 0 then 3 else 4) ∧ d.time.chillAt = none ∧
        ObjsKept s.dev d [okey 0x3510 2, okey 0x3510 3])) ∧
      (og s.dev 0x3510 2 ≠ 2 → Idles .chillCollectionEnd s))

/-- WINDOW_COPY_RECEIVED on an unpaired ring that sends (R17, R195, R205): the first good copy of this cycle enters the cycle's inputs, an
equal second one changes nothing, a differing one, a bad header or another frame type, a bad block, a wrong claim or cycle, and one after the
control instant (on a tight ring after the tight one) are each counted and bring no data; the invalid and ERR characters met are counted per
channel. FIELD_FRAME_RECEIVED on an unpaired line that sends, from an Integrated node (R215, R216, R220): a frame with a bad CRC is counted on
its cable; one of another cycle is ignored; the cycle's first slot is taken on time or near the edge, where it is counted and its deviation
kept, and is counted and missing when it is out of its window; the first riser in its window is taken. Receivers (R177): a synchronised
receiver shows its state with the equaliser's setting and margin; its loss is shown, counted and reported with the channel; before the
segment's block is ready neither does anything. -/
def Obligations.FramesAreReceivedAndClassified : Prop :=
  (∀ (r : Ring) (j : RNode) (c : Chan) (typ flags : BitVec 8) (hdrOk crcOk : Bool) (inv err claim cyc : BitVec 8) (data : Bytes) (s : State)
      (h : HeadNode) (ch n o : Nat), ch = (if c = .b then 1 else 0) → n = j.val + 1 → o = sgb r.val + 0x31 →
      pairedSeg s.dev r.val = false → sending s.dev r.val = true →
      n ≤ mouldN r.val (mould s.dev r.val) → h = hd s.dev r.val n → h.state = 3 → h.step ≠ 4 →
      (∀ i, i < 9 → og s.dev (sgb r.val + 9) i < 0xFFFFFFFE) → (∀ i, 1 ≤ i → i ≤ 4 → og s.dev o i < 0xFFFFFF00) →
      (∀ i ok, ((hdrOk = false ∨ typ ≠ 0x10) ∧ i = 1 + ch ∧ ok = false ∨
          hdrOk = true ∧ typ = 0x10 ∧ (crcOk = false ∨ inv ≠ 0 ∨ err ≠ 0 ∨ data.length ≠ 2 + nodeWinBytes (mould s.dev r.val) n) ∧
            i = 3 + ch ∧ ok = false ∨
          hdrOk = true ∧ typ = 0x10 ∧ crcOk = true ∧ inv = 0 ∧ err = 0 ∧ data.length = 2 + nodeWinBytes (mould s.dev r.val) n ∧
            ((claim.toNat ≠ (seg s.dev r.val).lastClaim ∨ cyc.toNat ≠ s.dev.time.k % 256) ∧ i = 8 ∧ ok = true ∨
              claim.toNat = (seg s.dev r.val).lastClaim ∧ cyc.toNat = s.dev.time.k % 256 ∧
                ((s.dev.time.kc = s.dev.time.k ∨ mouldTight (mould s.dev r.val) = true ∧ bit flags.toNat 0 ≠ decide (s.dev.time.kt = s.dev.time.k)) ∧
                    i = 6 ∧ ok = false ∨
                 s.dev.time.kc ≠ s.dev.time.k ∧ (mouldTight (mould s.dev r.val) = false ∨ bit flags.toNat 0 = decide (s.dev.time.kt = s.dev.time.k)) ∧
                    (∃ w, h.rx = some w ∧ w ≠ data) ∧ i = 7 ∧ ok = true))) →
        Leaves (.windowCopyReceived r j c typ flags hdrOk crcOk inv err claim cyc data) s (fun d =>
          og d (sgb r.val + 9) i = og s.dev (sgb r.val + 9) i + 1 ∧ d.heads = s.dev.heads ∧
          og d o (1 + ch) = og s.dev o (1 + ch) + inv.toNat ∧ og d o (3 + ch) = og s.dev o (3 + ch) + err.toNat ∧
          ObjsKept s.dev d [okey (sgb r.val + 9) i, okey o (1 + ch), okey o (3 + ch)] ∧
          d.fc.todo = s.dev.fc.todo ++ (if ok = true ∨ (seg s.dev r.val).missNow = true then [] else [rep (81 + 4 * r.val) 0 n 0]))) ∧
      (hdrOk = true → typ = 0x10 → crcOk = true → inv = 0 → err = 0 → data.length = 2 + nodeWinBytes (mould s.dev r.val) n →
        claim.toNat = (seg s.dev r.val).lastClaim → cyc.toNat = s.dev.time.k % 256 → s.dev.time.kc ≠ s.dev.time.k →
        (mouldTight (mould s.dev r.val) = false ∨ bit flags.toNat 0 = decide (s.dev.time.kt = s.dev.time.k)) →
        (h.rx = none → Leaves (.windowCopyReceived r j c typ flags hdrOk crcOk inv err claim cyc data) s (fun d =>
          hd d r.val n = { h with rx := some data, replyReady := bit (rd data 0 2) 4, flags := rd data 0 2 } ∧ d.objs = s.dev.objs ∧
          d.fc.todo = s.dev.fc.todo ++ (if rd data 0 2 / 256 ≠ 0 ∧ rd data 0 2 / 256 ≠ h.flags / 256 then [rep (82 + 4 * r.val) 1 n 0] else []) ∧
          ∀ i, i ≠ n → hd d r.val i = hd s.dev r.val i)) ∧
        (Settled s → h.rx = some data → Idles (.windowCopyReceived r j c typ flags hdrOk crcOk inv err claim cyc data) s))) ∧
  (∀ (l : Line) (k : FNode) (kd : Fin 4) (cable : Chan) (crcOk : Bool) (inv err : BitVec 8) (dev : BitVec 32) (alarm : Bool) (cyc : BitVec 3)
      (body : Bytes) (s : State) (g ch o : Nat) (h : HeadNode), Settled s →
      g = lseg l.val → ch = (if cable = .b then 1 else 0) → o = sgb g + 0x32 →
      h = hd s.dev g k.val → pairedSeg s.dev g = false → sending s.dev g = true → linePresent (mould s.dev g) k.val = true →
      h.state = 3 → (seg s.dev g).missNow = false →
      (∀ i, i < 9 → og s.dev (sgb g + 9) i < 0xFFFFFFFE ∧ og s.dev (fnx l.val k.val 3) i < 0xFFFFFFFE) → (∀ i, 1 ≤ i → i ≤ 4 → og s.dev o i < 0xFFFFFF00) →
      (crcOk = false ∨ inv ≠ 0 ∨ err ≠ 0 → Leaves (.fieldFrameReceived l k kd cable crcOk inv err dev alarm false cyc body) s (fun d =>
        (∀ i, i = (if cable = .a then 3 else 4) → og d (sgb g + 9) i = og s.dev (sgb g + 9) i + 1) ∧
        og d (fnx l.val k.val 3) 6 = og s.dev (fnx l.val k.val 3) 6 + 1 ∧ d.heads = s.dev.heads ∧
        og d o (1 + ch) = og s.dev o (1 + ch) + inv.toNat ∧ og d o (3 + ch) = og s.dev o (3 + ch) + err.toNat ∧
        d.fc.todo = [rep (81 + 4 * g) 0 k.val 0])) ∧
      (crcOk = true → inv = 0 → err = 0 →
        (cyc.toNat ≠ segCycle s.dev g % 8 → Idles (.fieldFrameReceived l k kd cable crcOk inv err dev alarm false cyc body) s) ∧
        (cyc.toNat = segCycle s.dev g % 8 → kd = 0 → body.length = 4 → bit h.own 0 = false →
          (dev.toInt.natAbs ≤ 320 → Leaves (.fieldFrameReceived l k kd cable crcOk inv err dev alarm false cyc body) s (fun d =>
            hd d g k.val = { h with own := h.own + 1, onTime := true, slot := some body, alarm := alarm, needAbs := h.needAbs || alarm } ∧
            d.objs = s.dev.objs ∧ d.segs = s.dev.segs)) ∧
          (320 < dev.toInt.natAbs → dev.toInt.natAbs ≤ 800 → h.dev1 = none → h.dev2 = none →
            Leaves (.fieldFrameReceived l k kd cable crcOk inv err dev alarm false cyc body) s (fun d =>
              hd d g k.val = { h with own := h.own + 1, slot := some body, alarm := alarm, needAbs := h.needAbs || alarm,
                                      dev1 := if receivingPair s.dev l.val = 1 then some dev.toInt else none,
                                      dev2 := if receivingPair s.dev l.val = 2 then some dev.toInt else none } ∧
              og d (fnx l.val k.val 3) 2 = og s.dev (fnx l.val k.val 3) 2 + 1 ∧ og d (sgb g + 9) 7 = og s.dev (sgb g + 9) 7 + 1 ∧
              ObjsKept s.dev d [okey (fnx l.val k.val 3) 2, okey (sgb g + 9) 7])) ∧
          (800 < dev.toInt.natAbs → Leaves (.fieldFrameReceived l k kd cable crcOk inv err dev alarm false cyc body) s (fun d =>
            (hd d g k.val).slot = h.slot ∧ (hd d g k.val).slotMiss = true ∧ bit (hd d g k.val).own 0 = true ∧
            og d (fnx l.val k.val 3) 3 = og s.dev (fnx l.val k.val 3) 3 + 1 ∧
            og d (sgb g + 9) 6 = og s.dev (sgb g + 9) 6 + 1 ∧ ObjsKept s.dev d [okey (fnx l.val k.val 3) 3, okey (sgb g + 9) 6] ∧
            d.fc.todo = [rep (81 + 4 * g) 0 k.val 0]))) ∧
        (cyc.toNat = segCycle s.dev g % 8 → kd = 0 → body.length = 4 → bit h.own 0 = true →
          Idles (.fieldFrameReceived l k kd cable crcOk inv err dev alarm false cyc body) s) ∧
        (cyc.toNat = segCycle s.dev g % 8 → kd = 1 → body.length = 32 → bit h.own 1 = false → dev.toInt.natAbs ≤ 800 →
          Leaves (.fieldFrameReceived l k kd cable crcOk inv err dev alarm false cyc body) s (fun d =>
            (hd d g k.val).riser = some body ∧ bit (hd d g k.val).own 1 = true ∧ (hd d g k.val).slot = h.slot ∧ d.objs = s.dev.objs ∧
            d.segs = s.dev.segs)))) ∧
  (∀ (g : Seg) (c : Chan) (eq eye inv : BitVec 8) (i : Nat) (s : State), i = (if c = .b then 1 else 0) →
      (ready s.dev (18 + g.val) = true → eq.toNat ≤ 63 → eye.toNat ≤ 100 → Settled s → Does (.receiverSynchronised g c eq eye) s (fun d =>
        og d (phyStatus g.val) (1 + i) = 1 ∧ og d (phyStatus g.val) (3 + i) = eq.toNat ∧ og d (phyStatus g.val) (5 + i) = eye.toNat ∧
        Writes s.dev d [okey (phyStatus g.val) (1 + i), okey (phyStatus g.val) (3 + i), okey (phyStatus g.val) (5 + i)] [])) ∧
      (ready s.dev (18 + g.val) = true → og s.dev (phyStatus g.val) (1 + i) = 1 → og s.dev (phyStatus g.val + 1) (5 + i) < 0xFFFFFFFE →
        og s.dev (phyStatus g.val + 1) (1 + i) < 0xFFFFFF00 →
        Leaves (.receiverSyncLoss g c inv) s (fun d =>
          og d (phyStatus g.val) (1 + i) = 0 ∧ og d (phyStatus g.val + 1) (5 + i) = og s.dev (phyStatus g.val + 1) (5 + i) + 1 ∧
          og d (phyStatus g.val + 1) (1 + i) = og s.dev (phyStatus g.val + 1) (1 + i) + inv.toNat ∧
          d.fc.todo = s.dev.fc.todo ++ [rep (80 + 4 * g.val) 0 i 0] ∧
          ObjsKept s.dev d [okey (phyStatus g.val) (1 + i), okey (phyStatus g.val + 1) (5 + i), okey (phyStatus g.val + 1) (1 + i)])) ∧
      (Settled s → ready s.dev (18 + g.val) = false → Idles (.receiverSynchronised g c eq eye) s ∧ Idles (.receiverSyncLoss g c inv) s) ∧
      (Settled s → og s.dev (phyStatus g.val) (1 + i) ≠ 1 → inv = 0 → Idles (.receiverSyncLoss g c inv) s))

/-! ## Nodes -/

/-- How a node finds its place and keeps time (R177, R221, R235, R238, R247, R253, R321, R360): a roll-call frame gives it an address by its
direction and the counter goes up; as many headers in a row as the lock takes give the lock, and as many cycles without one, or headers of
another tag, take it with the schedule and the outputs; a cycle start copies the counters, takes the corrections and opens the next copy's
selection; a sample is kept with its instant, or as the record of its field cycle; a failed channel wraps on a paired ring only, and while the
other input is synchronised; a stepper window without a new target ages; with every safety watchdog expired torque is off. -/
def Obligations.NodesTakeTheirPlaceAndTime : Prop :=
  ∀ (n : NodeId) (r : Ring) (j : RNode) (l : Line) (k : FNode) (w : Win) (c : Chan) (count counter tag : BitVec 16) (off : BitVec 32) (data : Bytes)
    (s : State) (x : NodeSt), x = nd s n →
    (ringNode n = false ∧ c = .b ∧ mouldPaired (nodeMould s n) = false → Idles (.nodeRollCallFrame n c count counter) s) ∧
    (∀ a, (ringNode n = true ∧ c = .a ∧ a = some (counter.toNat + 1) ∨
        ringNode n = true ∧ c = .b ∧ a = (if counter.toNat < count.toNat then some (count.toNat - counter.toNat) else none) ∨
        ringNode n = false ∧ c = .a ∧ a = some counter.toNat ∨
        ringNode n = false ∧ c = .b ∧ mouldPaired (nodeMould s n) = true ∧
          a = (if counter.toNat < count.toNat then some (count.toNat - 1 - counter.toNat) else none)) →
      ∃ t, exec (.nodeRollCallFrame n c count counter) s = .next t ∧
        nd t n = (if c = .a then { x with addrA := a, syncA := true } else { x with addrB := a, syncB := true }) ∧
        t.dev = { s.dev with out := s.dev.out ++ [.node n (leBytes 2 (counter.toNat + 1) ++ leBytes 2 (crc16Node 0 (leBytes 2 (counter.toNat + 1))))] }) ∧
    (x.lock = false → (if ringNode n then 8 else 4) ≤ x.run → x.runTag = tag.toNat → ∃ t, exec (.nodeFrameLockTaken n tag) s = .next t ∧
      nd t n = { x with lock := true, tag := tag.toNat, timeCyc := x.lastCyc, half := x.lastHalf, anchor := true } ∧ t.dev = s.dev) ∧
    (x.lock = true ∨ x.run < (if ringNode n then 8 else 4) ∨ x.runTag ≠ tag.toNat → Idles (.nodeFrameLockTaken n tag) s) ∧
    (x.lock = true → (if ringNode n then 32 else 8) ≤ x.miss ∨ (if ringNode n then 8 else 4) ≤ x.foreign →
      ∃ t, exec (.nodeFrameLockLost n) s = .next t ∧ t.dev = s.dev ∧ (nd t n).lock = false ∧ (nd t n).addrA = none ∧ (nd t n).addrB = none ∧
        (nd t n).sched = none ∧ (nd t n).integrated = false ∧ (nd t n).outputs = false ∧ (∀ i, i < 8 → (nwin (nd t n) i).gates = false) ∧
        (nd t n).sto = x.sto) ∧
    (x.lock = false ∨ x.miss < (if ringNode n then 32 else 8) ∧ x.foreign < (if ringNode n then 8 else 4) → Idles (.nodeFrameLockLost n) s) ∧
    (∃ t, exec (.nodeCycleStart n) s = .next t ∧ t.dev = s.dev ∧ (nd t n).copied = x.counters ∧ (nd t n).timeCyc = x.timeCyc + 1 ∧
      (nd t n).miss = x.miss + 1 ∧ (nd t n).best = none ∧ (nd t n).bestClaim = 0 ∧ (nd t n).half = false ∧
      (ringNode n = false ∨ mouldTight (nodeMould s n) = false ∨ x.half = true → (nd t n).prev = x.best ∧ (nd t n).noCopy = x.best.isNone) ∧
      (nd t n).corr = [] ∧ (x.corr = [] → (nd t n).s1 = x.s1 ∧ (nd t n).s2 = x.s2) ∧
      (∀ v, x.corr = [(1, v)] → (nd t n).s1 = x.s1 + v ∧ (nd t n).s2 = x.s2) ∧ (nd t n).outputs = x.outputs ∧
      (∀ i, (nwin (nd t n) i).word = (nwin x i).word ∧ (nwin (nd t n) i).gates = (nwin x i).gates)) ∧
    (n = .line l k → data.length = 32 → ∃ t, exec (.nodeSampleInstant n off data) s = .next t ∧ t.dev = s.dev ∧ ∃ q, q = (if off.toInt < 0 then x.timeCyc + 1 else x.timeCyc) ∧
      nd t n = { x with sample := data, recs := x.recs.filter (fun p => p.1 != q) ++ [(q, data)] }) ∧
    (n = .ring r j → ∃ t, exec (.nodeSampleInstant n off data) s = .next t ∧ t.dev = s.dev ∧ (nd t n).outputs = x.outputs ∧ (nd t n).timeCyc = x.timeCyc ∧
      (nd t n).lock = x.lock ∧ ∀ i, i < winCount (nodeMould s n) (j.val + 1) →
        slice (nd t n).sample (winOffset (nodeMould s n) (j.val + 1) i + stampOffset (winKind (nodeMould s n) (j.val + 1) i)) 4 = leBytes 4 (pat 32 off.toInt)) ∧
    (∃ t, exec (.safetyWatchdogExpiry n) s = .next t ∧ t.dev = s.dev ∧ (nd t n).watch = [] ∧ (nd t n).sto = true ∧ (nd t n).outputs = false ∧
      (∀ i, i < 8 → (nwin (nd t n) i).gates = false) ∧ (nd t n).lock = x.lock ∧ (nd t n).integrated = x.integrated) ∧
    (n = .ring r j →
      (mouldPaired (nodeMould s n) = false ∨ (if c = .a then x.syncB else x.syncA) = false → ∃ t, exec (.nodeWrapStart r j c) s = .next t ∧
        t.dev = s.dev ∧ nd t n = if c = .a then { x with syncA := false } else { x with syncB := false }) ∧
      (mouldPaired (nodeMould s n) = true → (if c = .a then x.syncB else x.syncA) = true → ∃ t, exec (.nodeWrapStart r j c) s = .next t ∧
        t.dev = s.dev ∧ nd t n = if c = .a then { x with syncA := false, wrapA := true } else { x with syncB := false, wrapB := true }) ∧
      (∃ t, exec (.nodeWrapEnd r j c) s = .next t ∧ t.dev = s.dev ∧
        nd t n = if c = .a then { x with wrapA := false, syncA := true } else { x with wrapB := false, syncB := true }) ∧
      (w.val < winCount (nodeMould s n) (j.val + 1) → 2 ≤ winKind (nodeMould s n) (j.val + 1) w.val → ∃ t, exec (.nodeTargetMissing r j w) s = .next t ∧
        t.dev = s.dev ∧ nwin (nd t n) w.val = { nwin x w.val with age := min 2 ((nwin x w.val).age + 1) } ∧ (nd t n).sample = x.sample) ∧
      (winCount (nodeMould s n) (j.val + 1) ≤ w.val → Idles (.nodeTargetMissing r j w) s))

/-- What an Integrated node does with frames (R86, R142, R195, R196, R202-R204, R215, R219, R222, R264): of the copies of its ring cycle it
selects the one of the highest claim that passes its checks, and in its place writes the same block into each; at the apply instant of a window
it applies the selected copy, nothing from one that only brings time, and without one a stage holds its duties once and its gates go off the
second time; a field node applies its setpoint likewise, and sends each of its frames unless a frame of more than 200 ns passes, which is
counted. -/
def Obligations.NodesSelectApplyAndSend : Prop :=
  (∀ (r : Ring) (j : RNode) (c : Chan) (typ : BitVec 8) (hdrOk blockOk late : Bool) (sg claim flags : BitVec 8) (cycle : BitVec 32) (tag : BitVec 16)
      (pdu data : Bytes) (s : State) (x : NodeSt) (n : NodeId), n = .ring r j → x = nd s n →
      (typ ≠ 0x10 → frameType typ = true → Idles (.nodeCopyReceived r j c typ hdrOk blockOk late sg claim cycle flags tag pdu data) s) ∧
      (frameType typ = false → ∃ t, exec (.nodeCopyReceived r j c typ hdrOk blockOk late sg claim cycle flags tag pdu data) s = .next t ∧ t.dev = s.dev ∧
        nd t n = countNode x 0) ∧
      (typ = 0x10 → 1 ≤ claim.toNat → claim.toNat ≤ 254 → pdu.length = 16 → x.integrated = true →
        ∃ t, exec (.nodeCopyReceived r j c typ hdrOk blockOk late sg claim cycle flags tag pdu data) s = .next t ∧
        (mouldTight (nodeMould s n) = false ∨ bit flags.toNat 0 = x.half →
          (hdrOk = true → blockOk = true → late = false → sg.toNat = r.val → tag.toNat = x.tag → cycle.toNat = x.timeCyc % 2 ^ 32 →
            x.bestClaim < claim.toNat → (nd t n).bestClaim = claim.toNat ∧ (nd t n).best = some (decide (c = .b), if bit flags.toNat 2 then [] else data) ∧
              (nd t n).miss = 0) ∧
          (hdrOk = false ∨ blockOk = false ∨ late = true ∨ sg.toNat ≠ r.val ∨ tag.toNat ≠ x.tag ∨ cycle.toNat ≠ x.timeCyc % 2 ^ 32 ∨ claim.toNat ≤ x.bestClaim →
            (nd t n).best = x.best ∧ (nd t n).bestClaim = x.bestClaim) ∧
          (∀ u, x.up = some u → (nd t n).up = some u)) ∧
        (mouldTight (nodeMould s n) = true → bit flags.toNat 0 = true → x.half = false → x.lock = true → hdrOk = true → blockOk = true → late = false →
          sg.toNat = r.val → tag.toNat = x.tag → cycle.toNat = x.timeCyc % 2 ^ 32 →
          (nd t n).half = true ∧ (nd t n).prev = x.best ∧ (nd t n).bestClaim = claim.toNat) ∧
        (nd t n).outputs = x.outputs ∧
        (inPlace s n = true → ∃ u b, (nd t n).up = some u ∧ b = u.take 2 ++ [BitVec.ofNat 8 cycle.toNat, claim] ++ u.drop 2 ∧
          (nd t n).written = b ++ leBytes 2 (crc16Node (j.val + 1) b) ∧ t.dev = { s.dev with out := s.dev.out ++ [.node n (nd t n).written] }) ∧
        (inPlace s n = false → t.dev = s.dev))) ∧
  (∀ (r : Ring) (j : RNode) (w : Win) (s : State) (n : NodeId) (x : NodeSt) (cp : Option (Bool × Bytes)) (kd : Nat) (v : WinSt), n = .ring r j → x = nd s n →
      v = nwin x w.val → kd = winKind (nodeMould s n) (j.val + 1) w.val → cp = (if v.owed = 2 then x.prev else x.best) →
      (x.integrated = true → v.owed = 1 ∨ v.owed = 2 → ∃ t, exec (.nodeApplyInstant n w) s = .next t ∧
        t.dev = { s.dev with out := s.dev.out ++ [.node n (nwin (nd t n) w.val).word] } ∧ (nwin (nd t n) w.val).owed = v.owed - 1 ∧
        (∀ i, i ≠ w.val → nwin (nd t n) i = nwin x i) ∧
        (∀ ch, cp = some (ch, []) → (nd t n).outputs = false ∧ (nwin (nd t n) w.val).gates = false ∧ (nwin (nd t n) w.val).word = v.word) ∧
        (∀ ch b bs, cp = some (ch, b :: bs) → (nd t n).appChan = ch ∧ (nd t n).outputs = (bit b.toNat 0 && !x.sto) ∧
          (w.val < winCount (nodeMould s n) (j.val + 1) → ∀ u, u = slice (b :: bs) (2 + winOffset (nodeMould s n) (j.val + 1) w.val) (winSize kd) →
            (kd < 2 → (nwin (nd t n) w.val).word = u ∧ (nwin (nd t n) w.val).held = false ∧ (nwin (nd t n) w.val).miss = 0 ∧
              (nwin (nd t n) w.val).gates = ((nd t n).outputs && bit (rd u 0 2) 0)) ∧
            (2 ≤ kd → (nwin (nd t n) w.val).gates = ((nd t n).outputs && bit (rd u 0 2) 0 && decide (x.tabOk = 15)) ∧
              (bit (rd u 0 2) 4 = false → (nwin (nd t n) w.val).word = u ∧ (nwin (nd t n) w.val).age = 0) ∧
              (bit (rd u 0 2) 4 = true → (nwin (nd t n) w.val).age = v.age ∧ (nwin (nd t n) w.val).at_ = v.at_)))) ∧
        (cp = none → (nd t n).outputs = x.outputs ∧ (nwin (nd t n) w.val).word = v.word ∧
          (kd < 2 → (nwin (nd t n) w.val).held = true ∧ (nwin (nd t n) w.val).miss = v.miss + 1 ∧
            (nwin (nd t n) w.val).gates = (v.gates && decide (v.miss = 0))))) ∧
      (x.integrated = true → v.owed = 0 → (mouldTight (nodeMould s n) = false ∨ x.half = true) → ∃ t, exec (.nodeApplyInstant n w) s = .next t ∧
        nd t n = x ∧ t.dev = { s.dev with out := s.dev.out ++ [.node n v.word] }) ∧
      (x.integrated = false → Idles (.nodeApplyInstant n w) s)) ∧
  (∀ (l : Line) (k : FNode) (w : Win) (c : Chan) (typ : BitVec 8) (late : Bool) (claim flags : BitVec 8) (cycle : BitVec 32) (tag : BitVec 16) (data : Bytes)
      (cs : List (BitVec 16 × BitVec 16)) (ps : List Bytes) (s : State) (n : NodeId) (y : NodeSt), n = .line l k → y = nd s n →
      (typ = 0x20 → y.integrated = true → 1 ≤ claim.toNat → claim.toNat ≤ 254 → tag.toNat = y.tag → cycle.toNat = y.timeCyc % 2 ^ 32 → late = false →
        ∃ t, exec (.nodeSummationReceived l k c typ true late claim cycle flags tag cs ps data) s = .next t ∧ t.dev = s.dev ∧ (nd t n).miss = 0 ∧
        (y.bestClaim < claim.toNat → (nd t n).best = some (decide (c = .b), flags :: data) ∧ (nd t n).bestClaim = claim.toNat) ∧
        (claim.toNat ≤ y.bestClaim → (nd t n).best = y.best) ∧
        (y.bestClaim = 0 → (∃ e ∈ cs, e.1.toNat % 1024 = k.val ∧ e.1.toNat / 2 ^ 14 = 2) → (nd t n).excluded = true) ∧
        (y.bestClaim = 0 → (∀ e ∈ cs, e.1.toNat % 1024 ≠ k.val) → (nd t n).corr = y.corr ∧ (nd t n).excluded = y.excluded)) ∧
      (typ = 0x20 → ∃ t, exec (.nodeSummationReceived l k c typ false late claim cycle flags tag cs ps data) s = .next t ∧ t.dev = s.dev ∧
        nd t n = { y with run := 0 }) ∧
      (typ ≠ 0x20 → frameType typ = true → Idles (.nodeSummationReceived l k c typ true late claim cycle flags tag cs ps data) s) ∧
      (y.integrated = true → ∃ t, exec (.nodeApplyInstant n w) s = .next t ∧ t.dev = { s.dev with out := s.dev.out ++ [.node n (leBytes 2 (nd t n).setpoint)] } ∧
        (y.best = none → (nd t n).alarm = true ∧ (nd t n).spSync = false ∧ (nd t n).setpoint = y.setpoint ∧ (nd t n).outputs = y.outputs) ∧
        (∀ (v : BitVec 16) (ch : Bool), y.best = some (ch, flags :: ([0] ++ leBytes 4 (3 + 4 * k.val + 65536 * v.toNat))) →
          (bit flags.toNat 2 = false → (nd t n).setpoint = v.toNat ∧ (nd t n).spSync = true ∧ (nd t n).alarm = false ∧ (nd t n).outputs = !y.sto) ∧
          (bit flags.toNat 2 = true → (nd t n).setpoint = y.setpoint ∧ (nd t n).spSync = y.spSync ∧ (nd t n).outputs = false)))) ∧
  (∀ (l : Line) (k : FNode) (kind : Fin 4) (c : Chan) (passing : BitVec 16) (s : State) (n : NodeId) (y : NodeSt) (q : Nat), n = .line l k → y = nd s n →
      q = sendCycle (nodeMould s n) y c →
      (inPlace s n = true → linePresent (nodeMould s n) k.val = true → y.integrated = true → y.excluded = false →
        (kind = 0 → 200 < passing.toNat → ∃ t, exec (.nodeSendInstant l k kind c passing) s = .next t ∧ t.dev = s.dev ∧
          (nd t n).counters = (countNode y (if c = .a then 1 else 2)).counters) ∧
        (kind = 0 → passing.toNat ≤ 200 → ∃ t f m, exec (.nodeSendInstant l k kind c passing) s = .next t ∧ t.dev.out = s.dev.out ++ .node n f :: m ∧
          m = [] ∧ f.length = 9 ∧ (q, slice f 2 4) ∈ (nd t n).slots ∧ bit (rd f 1 1) 3 = decide (passing ≠ 0) ∧ rd f 1 1 % 8 = q % 8 ∧
          rd f 1 1 / 32 = 4 ∧ (∀ p ∈ y.slots, p ∈ (nd t n).slots) ∧ t.dev.objs = s.dev.objs) ∧
        (kind = 1 → riserCycle (nodeMould s n) k.val q = false → Idles (.nodeSendInstant l k kind c passing) s) ∧
        (kind = 1 → riserCycle (nodeMould s n) k.val q = true → passing.toNat ≤ 200 → ∃ t f m, exec (.nodeSendInstant l k kind c passing) s = .next t ∧
          t.dev.out = s.dev.out ++ .node n f :: m ∧ m = [] ∧ slice f 2 (recordOf y q).length = recordOf y q ∧ nd t n = y) ∧
        (kind = 2 → lineSafety (nodeMould s n) k.val = false → Idles (.nodeSendInstant l k kind c passing) s) ∧
        (kind = 2 → lineSafety (nodeMould s n) k.val = true → passing.toNat ≤ 200 → (∀ p, y.pdu = some p → p.1 ≠ q) → ∃ t f m,
          exec (.nodeSendInstant l k kind c passing) s = .next t ∧ t.dev.out = s.dev.out ++ .node n f :: m ∧ m = [] ∧ f.length = 21 ∧
          pduGood (blkDomain s.isl.block) (slice f 2 16) = true ∧ (nd t n).pduOut = (y.pduOut + 1) % 65536 ∧ (nd t n).pdu = some (q, slice f 2 16))) ∧
      (inPlace s n = true → linePresent (nodeMould s n) k.val = true → kind = 3 →
        (y.due = none → Idles (.nodeSendInstant l k kind c passing) s) ∧
        (y.due ≠ none → passing.toNat ≤ 200 → ∃ t f m, exec (.nodeSendInstant l k kind c passing) s = .next t ∧ t.dev.out = s.dev.out ++ .node n f :: m ∧
          m = [] ∧ slice f 2 3 = leBytes 1 y.reqSeq ++ leBytes 2 y.reply.length ∧ slice f 5 y.reply.length = y.reply ∧ nd t n = { y with ready := false })) ∧
      (inPlace s n = false ∨ kind ≠ 3 ∧ (y.integrated = false ∨ y.excluded = true) → Idles (.nodeSendInstant l k kind c passing) s))

/-- Node mailboxes and safety PDUs (R207, R208, R217, R239, R241, R243, R360): a request reaches only a node in its place; a ring node first
writes the reply it has ready, padded to the frame's capacity, a field node's leaves in the exchange of the next field cycle; a request with the
sequence of the last one frees a ring node's reply, a new one is answered: a schedule makes a locked node Integrated, an unknown service has
status 1. A PDU of the node's connection with a good CRC and permit 0 takes torque at once; permit 1 gives it only with a fresh sequence while
no other claim's watchdog runs; every other PDU is ignored. -/
def Obligations.NodesAnswerMailboxesAndSafetyPdus : Prop :=
  ∀ (n : NodeId) (seq claim : BitVec 8) (cap : BitVec 16) (p answer pdu : Bytes) (s : State) (x : NodeSt), x = nd s n →
    (inPlace s n = false → Idles (.nodeMailboxRequest n seq cap p answer) s) ∧
    (inPlace s n = true → ∃ t, exec (.nodeMailboxRequest n seq cap p answer) s = .next t ∧
      (ringNode n = true → t.dev = { s.dev with out := s.dev.out ++ [.node n (ringReply (nodeNum n) cap.toNat x)] } ∧
        (x.reply.length ≤ cap.toNat → (ringReply (nodeNum n) cap.toNat x).length = 5 + cap.toNat ∧
          slice (ringReply (nodeNum n) cap.toNat x) 3 x.reply.length = x.reply)) ∧
      (ringNode n = false → t.dev = s.dev ∧ (nd t n).due = some (x.timeCyc + 1)) ∧
      (seq.toNat = x.reqSeq → (nd t n).reply = x.reply ∧ (nd t n).reqSeq = x.reqSeq ∧ (nd t n).ready = (x.ready && !ringNode n)) ∧
      (seq.toNat ≠ x.reqSeq → (nd t n).reqSeq = seq.toNat ∧ (nd t n).ready = true ∧
        (rd p 0 1 = 2 → (nd t n).sched = some p ∧ (nd t n).integrated = x.lock ∧ (nd t n).excluded = false ∧ (nd t n).corr = [] ∧
          (nd t n).reply = [2, 0] ++ leBytes 2 (nodeNum n) ++ leBytes 2 x.tag) ∧
        (rd p 0 1 = 4 → (nd t n).reply.take 10 = [4, 0] ++ leBytes 8 x.chillCyc ∧ (nd t n).sched = x.sched) ∧
        (8 ≤ rd p 0 1 → rd p 0 1 < 0x80 → (nd t n).reply = [BitVec.ofNat 8 (rd p 0 1), 1] ∧ (nd t n).sched = x.sched))) ∧
    (nodePermit n pdu = none ∨ pduGood (blkDomain s.isl.block) pdu = false → Idles (.nodeSafetyPdu n claim pdu) s) ∧
    (pduGood (blkDomain s.isl.block) pdu = true →
      (nodePermit n pdu = some false → ∃ t, exec (.nodeSafetyPdu n claim pdu) s = .next t ∧ t.dev = s.dev ∧ (nd t n).sto = true ∧
        (nd t n).outputs = false ∧ ∀ i, i < 8 → (nwin (nd t n) i).gates = false) ∧
      (nodePermit n pdu = some true → x.watch = [] ∧ x.pduSeq = [] → ∃ t, exec (.nodeSafetyPdu n claim pdu) s = .next t ∧ t.dev = s.dev ∧
        (nd t n).sto = false ∧ (nd t n).watch = [(claim.toNat * 65536 + rd pdu 0 2, 0)] ∧ (nd t n).outputs = x.outputs) ∧
      (nodePermit n pdu = some true → x.pduSeq = [(claim.toNat * 65536 + rd pdu 0 2, rd pdu 2 2 * 2 + 1)] →
        ∃ t, exec (.nodeSafetyPdu n claim pdu) s = .next t ∧ t.dev = s.dev ∧ (nd t n).watch = x.watch ∧ (nd t n).sto = x.sto))

/-! ## Time -/

/-- PTP (R273, R276, R278, R279, R484): an Announce on an enabled port and transport of a domain that is not Disabled makes its master known,
and the best one is followed; the first Sync from it sets the clock and the domain is Acquiring; a Delay_Resp stores the mean path delay;
without a master left the domain goes into Holdover with its clock running on; delay requests are sent and answered as the mechanism and the
transports say. A domain that is Disabled, and a message on another transport, changes nothing. -/
def Obligations.PtpDomainsFollowTheirMaster : Prop :=
  ∀ (n : Dom) (p : Port) (udp : Bool) (rank : List (BitVec 16)) (ident : BitVec 64) (utc steps : BitVec 16) (arb : Bool) (t1 : BitVec 112) (dg : BitVec 32)
    (delay : BitVec 64) (msg : Bytes) (m : Master) (s : State) (c kind : Nat), Settled s → c = 0x3420 + n.val → kind = (if udp then 17 else 0x88F7) →
    (domState s.dev n.val = 0 ∨ bit (og s.dev c 4) (if udp then 1 else 0) = false →
      Idles (.ptpAnnounce n p udp rank ident utc arb steps) s ∧ Idles (.ptpDelayResponse n udp delay) s ∧
      Does (.ptpSync n udp t1 dg) s (fun d => d = advance s.dev dg.toNat) ∧
      Does (.pdelayReqReceived n p udp dg msg) s (fun d => d = advance s.dev dg.toNat)) ∧
    (domState s.dev n.val = 0 → Idles (.ptpTimeout n) s ∧ Idles (.delayReqSend n) s ∧ Idles (.pdelayReqSend n p) s) ∧
    (domState s.dev n.val ≠ 0 → ready s.dev 30 = true → ready s.dev 4 = true →
      (bit (og s.dev c 4) (if udp then 1 else 0) = true →
        (bit (og s.dev c 3) p.val = true → (dom s.dev n.val).heard = [] → (dom s.dev n.val).best = none →
          m = ⟨rank.map BitVec.toNat, ident.toNat, p.val, utc.toNat, b2n arb, steps.toNat, udp⟩ →
          Does (.ptpAnnounce n p udp rank ident utc arb steps) s (fun d =>
            (dom d n.val).heard = [m] ∧ (dom d n.val).best = some m ∧ (dom d n.val).clock = (dom s.dev n.val).clock ∧
            domState d n.val = domState s.dev n.val ∧ ob d (0x3428 + n.val) 2 = (leBytes 8 m.ident).reverse ∧ og d (0x3428 + n.val) 3 = p.val + 1 ∧
            og d (0x3428 + n.val) 9 = m.steps)) ∧
        (bit (og s.dev c 3) p.val = false → Idles (.ptpAnnounce n p udp rank ident utc arb steps) s) ∧
        ((dom s.dev n.val).best = none → Does (.ptpSync n udp t1 dg) s (fun d => d = advance s.dev dg.toNat)) ∧
        ((dom s.dev n.val).best = some m → domState s.dev n.val = 1 → dg = 0 → s.dev.time.grid % 10 = 0 →
          (∀ u : Fin 4, og s.dev (0x3450 + u.val) 1 = 0) → Does (.ptpSync n udp t1 dg) s (fun d =>
            domState d n.val = 2 ∧ ((dom d n.val).clock : Int) = max 0 ((unitsOf t1.toNat : Int) + (pathDelay s.dev n.val + ogi 32 s.dev c 9 * 65536) * (10 * 2 ^ 24)) ∧
            (dom d n.val).good = 0 ∧ d.time.seg = s.dev.time.seg)) ∧
        (Does (.ptpDelayResponse n udp delay) s (fun d => pathDelay d n.val = delay.toInt ∧ Writes s.dev d [okey (0x3428 + n.val) 5] [])) ∧
        ((dom s.dev n.val).best = some m → m.udp = udp → og s.dev c 5 = 0 → domState s.dev n.val = 2 ∨ domState s.dev n.val = 3 →
          Does (.delayReqSend n) s (fun d => d.objs = s.dev.objs ∧ ∃ b, d.out = s.dev.out ++ [.ether (Fin.ofNat 2 m.port) kind b] ∧ rd b 6 1 = 1 ∧
            rd b 10 1 = og s.dev c 2 % 256 ∧ b.length = 50)) ∧
        (og s.dev c 5 = 1 → bit (og s.dev c 3) p.val = true →
          Does (.pdelayReqSend n p) s (fun d => d.objs = s.dev.objs ∧ ∃ a, a.length = 54 ∧ rd a 0 1 = 2 ∧ rd a 4 1 = og s.dev c 2 % 256 ∧
            d.out = s.dev.out ++ (if bit (og s.dev c 4) 0 then [.ether p 0x88F7 (beBytes 6 0x0180C200000E ++ a)] else []) ++
              (if bit (og s.dev c 4) 1 then [.ether p 17 ([224, 0, 0, 107] ++ beBytes 2 319 ++ a)] else [])) ∧
          (rd msg 4 1 = og s.dev c 2 → 44 ≤ msg.length → Does (.pdelayReqReceived n p udp dg msg) s (fun d => d.objs = s.dev.objs ∧
            d.time = (advance s.dev dg.toNat).time ∧ ∃ a b, d.out = s.dev.out ++ [.ether p kind a, .ether p kind b] ∧ rd a 6 1 = 3 ∧ rd b 6 1 = 0x0A ∧
              slice a 36 2 = slice msg 30 2 ∧ slice b 36 2 = slice msg 30 2 ∧ slice a 50 10 = slice msg 20 10)) ∧
          (rd msg 4 1 ≠ og s.dev c 2 → Does (.pdelayReqReceived n p udp dg msg) s (fun d => d = advance s.dev dg.toNat)))) ∧
      (domState s.dev n.val ≠ 3 → domState s.dev n.val ≤ 4 → Does (.ptpTimeout n) s (fun d => domState d n.val = 4 ∧
        (domState s.dev n.val ≠ 4 → (dom d n.val).best = none ∧ (dom d n.val).heard = []) ∧ (dom d n.val).clock = (dom s.dev n.val).clock)) ∧
      (domState s.dev n.val = 3 → og s.dev 0x3410 6 ≠ n.val + 1 → Does (.ptpTimeout n) s (fun d => domState d n.val = 4 ∧
        og d 0x3410 6 = og s.dev 0x3410 6 ∧ (dom d n.val).clock = (dom s.dev n.val).clock)) ∧
      (og s.dev c 5 = 1 → Idles (.delayReqSend n) s) ∧
      (og s.dev c 5 = 0 → Idles (.pdelayReqSend n p) s))

/-- Segment time (R274-R276, R286, R287): the alignment hold ends with a step to a Locked source, or freely; the configured source is taken
again after its minute of lock; Realign steps segment time to a Locked source only while every segment is Off; a domain's configuration
takes effect through Disabled; a source write is stored for the next control instant. -/
def Obligations.SegmentTimeFollowsItsSource : Prop :=
  ∀ (v sub : BitVec 8) (w : BitVec 32) (n : Dom) (s : State), Settled s →
    (s.dev.time.hold = false → Idles .alignmentHoldEnd s) ∧
    (s.dev.time.hold = true →
      (og s.dev 0x3410 6 = n.val + 1 → domState s.dev n.val = 3 → (∀ u : Fin 4, og s.dev (0x3450 + u.val) 1 = 0) → Does .alignmentHoldEnd s (fun d =>
        d.time.hold = false ∧ d.time.seg = (dom s.dev n.val).clock ∧ d.time.k = (dom s.dev n.val).clock / unitCycle ∧
        bit (og d 0x3410 9) 4 = true ∧ bit (og d 0x3410 9) 5 = true ∧ ObjsKept s.dev d [okey 0x3410 9])) ∧
      ((∀ m : Dom, og s.dev 0x3410 6 = m.val + 1 → domState s.dev m.val ≠ 3) → Does .alignmentHoldEnd s (fun d =>
        d.time = { s.dev.time with hold := false } ∧ bit (og d 0x3410 9) 6 = true ∧ ObjsKept s.dev d [okey 0x3410 9]))) ∧
    (og s.dev 0x3410 1 = n.val + 1 → domState s.dev n.val = 3 → og s.dev 0x3410 6 ≠ n.val + 1 → og s.dev 0x3410 0x0A < 0xFFFFFFFE →
      followsTime s.dev = false → Leaves .sourceRelocked s (fun d => og d 0x3410 6 = n.val + 1 ∧ og d 0x3410 0x0A = og s.dev 0x3410 0x0A + 1 ∧ d.time = s.dev.time ∧
        bit (og d 0x3410 9) 1 = false ∧ bit (og d 0x3410 9) 2 = false)) ∧
    (og s.dev 0x3410 1 = 0 ∨ og s.dev 0x3410 6 = og s.dev 0x3410 1 → Idles .sourceRelocked s) ∧
    (ready s.dev 4 = false → Answers .realign s .notReady) ∧
    (ready s.dev 4 = true → (∃ g : Seg, segState s.dev g.val ≠ 0) ∨ og s.dev 0x3410 6 = 0 ∨ 2 < og s.dev 0x3410 6 → Answers .realign s .state) ∧
    (ready s.dev 4 = true → (∀ g : Seg, segState s.dev g.val = 0) → og s.dev 0x3410 6 = n.val + 1 → domState s.dev n.val = 3 →
      (∀ u : Fin 4, og s.dev (0x3450 + u.val) 1 = 0) → Leaves .realign s (fun d => d.time.seg = (dom s.dev n.val).clock ∧
        d.time.k = (dom s.dev n.val).clock / unitCycle ∧ said .ok ∈ d.out)) ∧
    (writeStatus s.dev 0x3410 1 v.toNat = .ok → Does (.timeSourceWrite v) s (fun d => og d 0x3410 1 = v.toNat ∧ d.time = { s.dev.time with srcWrite := true } ∧
      Writes { s.dev with time := d.time } d [okey 0x3410 1] [said .ok])) ∧
    (writeStatus s.dev 0x3410 1 v.toNat ≠ .ok → Answers (.timeSourceWrite v) s (writeStatus s.dev 0x3410 1 v.toNat)) ∧
    (writeStatus s.dev (0x3420 + n.val) sub.toNat w.toNat ≠ .ok →
      Answers (.domainConfigWrite n sub w) s (writeStatus s.dev (0x3420 + n.val) sub.toNat w.toNat)) ∧
    (writeStatus s.dev (0x3420 + n.val) sub.toNat w.toNat = .ok → og s.dev 0x3410 6 ≠ n.val + 1 → Does (.domainConfigWrite n sub w) s (fun d =>
      og d (0x3420 + n.val) sub.toNat = w.toNat ∧ (dom d n.val).best = none ∧ (dom d n.val).heard = [] ∧
      domState d n.val = (if og d (0x3420 + n.val) 1 = 1 then (if ready s.dev 30 then 1 else 4) else 0) ∧ said .ok ∈ d.out ∧
      d.time.seg = s.dev.time.seg))

/-- Captures and triggers (R280-R283): an event at an enabled unit with a source stamps the four bases and counts; a single capture then
disarms, and a continuous one that held a capture counts an overwrite; enabling a trigger whose instant is not past sets its next instant;
when its base reaches it before the next base cycle the trigger fires, a single one is then disabled and a periodic one goes on to the
next instant of its grid. -/
def Obligations.CapturesStampAndTriggersFire : Prop :=
  ∀ (u : Fin 8) (v : Fin 4) (on : Bool) (dg : BitVec 32) (t : BitVec 112) (s : State), Settled s →
    (ready s.dev 4 = false ∨ og s.dev (0x3440 + u.val) 1 = 0 ∨ og s.dev (0x3440 + u.val) 2 < 2 ^ 24 → Does (.captureEvent u dg) s (fun d => d = advance s.dev dg.toNat)) ∧
    (ready s.dev 4 = true → og s.dev (0x3440 + u.val) 1 ≠ 0 → 2 ^ 24 ≤ og s.dev (0x3440 + u.val) 2 → og s.dev (0x3440 + u.val) 5 < 0xFFFFFFFE →
      og s.dev (0x3440 + u.val) 6 < 0xFFFFFFFE → Does (.captureEvent u dg) s (fun d =>
        (∀ b, b < 4 → og d (0x3440 + u.val) (7 + b) = baseTime (advance s.dev dg.toNat) b) ∧ bit d.time.capHeld u.val = true ∧
        og d (0x3440 + u.val) 5 = og s.dev (0x3440 + u.val) 5 + 1 ∧
        og d (0x3440 + u.val) 1 = (if og s.dev (0x3440 + u.val) 3 = 1 then og s.dev (0x3440 + u.val) 1 else 0) ∧
        og d (0x3440 + u.val) 6 = og s.dev (0x3440 + u.val) 6 + (if og s.dev (0x3440 + u.val) 3 = 1 ∧ bit s.dev.time.capHeld u.val = true then 1 else 0) ∧
        d.out = s.dev.out ∧ ∀ k, k < okey (0x3440 + u.val) 0 ∨ okey (0x3440 + u.val) 0x0B ≤ k → tget objDefault d.objs k = tget objDefault s.dev.objs k)) ∧
    (writeStatus s.dev (0x3440 + u.val) 1 (b2n on) ≠ .ok → Answers (.captureArm u on) s (writeStatus s.dev (0x3440 + u.val) 1 (b2n on))) ∧
    (writeStatus s.dev (0x3440 + u.val) 1 (b2n on) = .ok → Does (.captureArm u on) s (fun d => og d (0x3440 + u.val) 1 = b2n on ∧
      Writes s.dev d [okey (0x3440 + u.val) 1] [said .ok])) ∧
    (writeStatus s.dev (0x3450 + v.val) 1 1 = .ok → writeStatus s.dev (0x3450 + v.val) 3 t.toNat = .ok → og s.dev (0x3450 + v.val) 2 = 0 →
      s.dev.time.local_ ≤ unitsOf t.toNat → Leaves (.timeTriggerEnable v true (some t)) s (fun d =>
        og d (0x3450 + v.val) 1 = 1 ∧ og d (0x3450 + v.val) 3 = t.toNat ∧ trigNext d v.val = timeUnits t.toNat ∧ d.out = s.dev.out ++ [said .ok])) ∧
    (writeStatus s.dev (0x3450 + v.val) 3 t.toNat = .ok → og s.dev (0x3450 + v.val) 2 = 0 → unitsOf t.toNat < s.dev.time.local_ →
      Answers (.timeTriggerEnable v on (some t)) s .range) ∧
    (writeStatus s.dev (0x3450 + v.val) 1 0 = .ok → Does (.timeTriggerEnable v false none) s (fun d =>
      og d (0x3450 + v.val) 1 = 0 ∧ Writes s.dev d [okey (0x3450 + v.val) 1] [said .ok])) ∧
    (ready s.dev 4 = false ∨ og s.dev (0x3450 + v.val) 1 = 0 → Idles (.timeTriggerFire v) s) ∧
    (∀ e, e = advance s.dev (gridTo s.dev.time.local_ (trigNext s.dev v.val * (10 * 2 ^ 24)) (8 * 2 ^ 40)) →
      ready s.dev 4 = true → og s.dev (0x3450 + v.val) 1 ≠ 0 → og s.dev (0x3450 + v.val) 2 = 0 → og s.dev (0x3450 + v.val) 5 = 0 →
      og s.dev (0x3450 + v.val) 6 < 0xFFFFFFFE →
      ((s.dev.time.k + 1) * unitCycle < e.time.seg → Idles (.timeTriggerFire v) s) ∧
      (e.time.seg ≤ (s.dev.time.k + 1) * unitCycle → Does (.timeTriggerFire v) s (fun d =>
        og d (0x3450 + v.val) 6 = og s.dev (0x3450 + v.val) 6 + 1 ∧ d.time.grid = e.time.grid ∧
        trigNext s.dev v.val * (10 * 2 ^ 24) ≤ d.time.local_ ∧
        (timeUnits (og s.dev (0x3450 + v.val) 4) = 0 → og d (0x3450 + v.val) 1 = 0) ∧
        (∀ P, P = timeUnits (og s.dev (0x3450 + v.val) 4) → P ≠ 0 → timeUnits (og s.dev (0x3450 + v.val) 3) ≤ e.time.local_ / (10 * 2 ^ 24) →
          og d (0x3450 + v.val) 1 = og s.dev (0x3450 + v.val) 1 ∧ e.time.local_ / (10 * 2 ^ 24) < trigNext d v.val ∧
          trigNext d v.val ≤ e.time.local_ / (10 * 2 ^ 24) + P ∧ (trigNext d v.val - timeUnits (og s.dev (0x3450 + v.val) 3)) % P = 0))))

/-! ## Acquisition -/

/-- Arm, Stop, manual trigger and Delete of a set, its automatic trigger and re-arm (R297-R301, R313): an Arm that passes its checks starts
the next record, Filling or Ready by its pre-trigger part; Stop completes the record and the set is Idle; a trigger is noted for the next
sample; Delete removes the set's complete unlocked records only; refused ones answer and change nothing. Upload and stream (R311, R312):
an upload of bytes a record has starts, one beyond its end is out of range and shown failed; each datagram carries up to 1,400 bytes to
the session that asked, and the upload ends with the last byte; a stream entry leaves its queue when its bytes are sent. -/
def Obligations.SetsRunAndRecordsAreUploaded : Prop :=
  (∀ (a : ASet) (id : BitVec 32) (s : State), Settled s →
      (armStatus s.dev a.val ≠ .ok → Answers (.acquisitionArm a id) s (armStatus s.dev a.val)) ∧
      (armStatus s.dev a.val = .ok → Does (.acquisitionArm a id) s (fun d =>
        acqState d a.val = (if acqPre s.dev a.val = 0 then 2 else 1) ∧ curRec d a.val = og s.dev 0x3600 3 ∧
        og d 0x3600 3 = (og s.dev 0x3600 3 + 1) % 2 ^ 32 ∧ (aset d a.val).owner = id.toNat ∧ (aset d a.val).pre = [] ∧ (aset d a.val).started = false ∧
        d.acq.recs = s.dev.acq.recs ++ [⟨og s.dev 0x3600 3, a.val, [], false, 0, 0, 0⟩] ∧ d.out = s.dev.out ++ [said .ok] ∧
        ∀ b : ASet, b ≠ a → aset d b.val = aset s.dev b.val ∧ acqState d b.val = acqState s.dev b.val)) ∧
      (ready s.dev 17 = false → Answers (.acquisitionStop a) s .notReady ∧ Answers (.manualTrigger a) s .notReady ∧ Answers (.deleteRecords a) s .notReady) ∧
      (ready s.dev 17 = true →
        (acqState s.dev a.val = 0 → Does (.acquisitionStop a) s (fun d => Writes (number s.dev).1 d [] [said .ok]) ∧
          Does (.manualTrigger a) s (fun d => Writes (number s.dev).1 d [] [said .ok])) ∧
        (acqState s.dev a.val = 4 → Does (.acquisitionStop a) s (fun d => acqState d a.val = 0 ∧ d.acq.recs = s.dev.acq.recs ∧ d.out = s.dev.out ++ [said .ok])) ∧
        (∀ r, 1 ≤ acqState s.dev a.val → acqState s.dev a.val ≤ 3 → recOf s.dev (curRec s.dev a.val) = some r →
          (∀ x ∈ s.dev.acq.recs, x.num = curRec s.dev a.val → x.complete = false) → Leaves (.acquisitionStop a) s (fun d => acqState d a.val = 0 ∧
            og d (acqObj a.val 3) 4 = (og s.dev (acqObj a.val 3) 4 + 1) % 2 ^ 32 ∧ (aset d a.val).owner = (aset s.dev a.val).owner ∧
            ∃ x, recOf d (curRec s.dev a.val) = some x ∧ x.complete = true ∧ r.bytes <+: x.bytes)) ∧
        (acqState s.dev a.val ≠ 0 → Does (.manualTrigger a) s (fun d => aset d a.val = { aset s.dev a.val with manual := 1 } ∧
          acqState d a.val = acqState s.dev a.val ∧ Writes { (number s.dev).1 with acq := d.acq } d [] [said .ok])) ∧
        (Does (.deleteRecords a) s (fun d => Writes { (number s.dev).1 with acq := { s.dev.acq with recs := d.acq.recs } } d [] [said .ok] ∧
          ∀ r ∈ s.dev.acq.recs, (r ∈ d.acq.recs ↔ ¬ (r.set = a.val ∧ r.complete = true ∧ locked s.dev r.num = false))))) ∧
      ((acqState s.dev a.val = 1 ∨ acqState s.dev a.val = 2) → acqCfg s.dev a.val 0x0B ≠ 0 →
        (aset s.dev a.val).armAt + acqCfg s.dev a.val 0x0B * 1000000 * unitNs ≤ s.dev.time.local_ → Does (.autoTrigger a) s (fun d =>
          aset d a.val = { aset s.dev a.val with auto := true } ∧ Writes { s.dev with acq := d.acq } d [] [])) ∧
      (acqCfg s.dev a.val 0x0B = 0 → Idles (.autoTrigger a) s) ∧
      (acqState s.dev a.val = 4 → (aset s.dev a.val).rearmAt ≤ s.dev.time.kc + 1 → Does (.rearmEnd a) s (fun d =>
        acqState d a.val = (if acqPre s.dev a.val = 0 then 2 else 1) ∧ curRec d a.val = og s.dev 0x3600 3 ∧ (aset d a.val).owner = (aset s.dev a.val).owner ∧
        (aset d a.val).rearms = (aset s.dev a.val).rearms ∧ d.acq.recs = s.dev.acq.recs ++ [⟨og s.dev 0x3600 3, a.val, [], false, 0, 0, 0⟩])) ∧
      (acqState s.dev a.val ≠ 4 ∨ s.dev.time.kc + 1 < (aset s.dev a.val).rearmAt → Idles (.rearmEnd a) s)) ∧
  (∀ (a : ASet) (id : BitVec 32) (p : Port) (s : State), Settled s →
      (ready s.dev 17 = false → Answers (.uploadStart id) s .notReady ∧ Idles (.acquisitionDatagramSend a true p 0) s ∧ Idles (.acquisitionDatagramSend a false p 0) s) ∧
      (ready s.dev 17 = true →
        (∀ u, s.dev.acq.upload = some u → Answers (.uploadStart id) s .busy) ∧
        (∀ r stop, s.dev.acq.upload = none → recOf s.dev (og s.dev 0x3681 1) = some r →
          stop = (if og s.dev 0x3681 3 = 0 then r.bytes.length else og s.dev 0x3681 2 + og s.dev 0x3681 3) →
          (stop ≤ r.bytes.length → og s.dev 0x3681 2 < stop → Does (.uploadStart id) s (fun d =>
            d.acq = { s.dev.acq with upload := some ⟨og s.dev 0x3681 1, og s.dev 0x3681 2, stop, id.toNat⟩ } ∧ og d 0x3681 5 = 1 ∧
            Writes { s.dev with acq := d.acq } d [okey 0x3681 5] [said .ok])) ∧
          (r.bytes.length < stop ∨ stop ≤ og s.dev 0x3681 2 → Does (.uploadStart id) s (fun d => og d 0x3681 5 = 3 ∧ Writes s.dev d [okey 0x3681 5] [said .range]))) ∧
        (s.dev.acq.upload = none → recOf s.dev (og s.dev 0x3681 1) = none → Does (.uploadStart id) s (fun d =>
          og d 0x3681 5 = 3 ∧ Writes s.dev d [okey 0x3681 5] [said .range])) ∧
        (s.dev.acq.upload = none → Idles (.acquisitionDatagramSend a true p 0) s) ∧
        (s.dev.acq.streams = [] → Idles (.acquisitionDatagramSend a false p 0) s) ∧
        (∀ u r x, s.dev.acq.upload = some u → recOf s.dev u.num = some r → r.set = a.val → u.stop ≤ r.bytes.length → u.off < u.stop →
          findSession s.dev u.dest = some x → og s.dev 0x3600 6 < 0xFFFFFFFE → Does (.acquisitionDatagramSend a true p 0) s (fun d =>
            (∃ m, d.out = s.dev.out ++ [.datagram p u.dest 0x38 m]) ∧ d.acq.recs = s.dev.acq.recs ∧ og d 0x3600 6 = og s.dev 0x3600 6 + 1 ∧
            (u.stop ≤ u.off + 1400 → d.acq.upload = none ∧ og d 0x3681 5 = 2) ∧
            (u.off + 1400 < u.stop → d.acq.upload = some { u with off := u.off + 1400 } ∧ og d 0x3681 5 = og s.dev 0x3681 5))) ∧
        (∀ num off b last rest x, s.dev.acq.streams = (a.val, num, off, b, last) :: rest → findSession s.dev (aset s.dev a.val).owner = some x →
          (∀ e ∈ rest, e.1 = a.val) → og s.dev 0x3600 6 < 0xFFFFFFFE → Does (.acquisitionDatagramSend a false p 0) s (fun d =>
            (∃ m, d.out = s.dev.out ++ [.datagram p (aset s.dev a.val).owner 0x38 m]) ∧ d.acq.recs = s.dev.acq.recs ∧
            d.acq.streams = (if b.length ≤ 1400 then rest else (a.val, num, off + 1400, b.drop 1400, last) :: rest)))))

/-! ## The pair -/

/-- The link and the pairing (R317, R322-R326, R336, R342): pair enable leads to Linking with the outputs released and back to Unpaired; the
lanes that train are shown, a lost one reported, and with the link the partner is lost: a unit In step or Sole goes on as Sole. The first two
pairing checks answer in their order; without a link or another head for a second the unit is Sole; beacons are taken and missing ones
counted, the fourth in a row loses the partner; the configuration of the partner is adopted only in Linking while Stopped; a message with a bad
CRC is counted and reported. How a pair agrees on its inputs (R326-R332): fingerprints make a follower ask for the blocks it lacks, which the
leader sends; a block of the running cycle enters a follower's inputs, exclusions in time bind the leader; field frames, pulse inputs and
forwarded items of the partner are taken, and items act in both units at their cycle; equal digests count, and different ones make the unit of
the lower claim leave In step. -/
def Obligations.PairsLinkAndAgree : Prop :=
  (∀ (on : Bool) (lanes : BitVec 4) (lane : Fin 4) (m : PairingMsg) (k : BitVec 64) (t0 t1 : BitVec 112) (claim pst pmode : BitVec 8) (vals : List WrItem) (s : State), Settled s →
      (writeStatus s.dev 0x3C00 1 (b2n on) ≠ .ok → Answers (.pairEnableWrite on) s (writeStatus s.dev 0x3C00 1 (b2n on))) ∧
      (writeStatus s.dev 0x3C00 1 1 = .ok → pairState s.dev = 0 → Leaves (.pairEnableWrite true) s (fun d =>
        pairState d = 1 ∧ og d 0x3C00 1 = 1 ∧ d.pair.driving = false ∧ d.pair.linkAt = s.dev.time.local_ ∧ d.out = s.dev.out ++ [said .ok])) ∧
      (writeStatus s.dev 0x3C00 1 0 = .ok → pairState s.dev ≠ 0 → Leaves (.pairEnableWrite false) s (fun d =>
        pairState d = 0 ∧ og d 0x3C00 1 = 0 ∧ pairRole d = 0 ∧ og d 0x3C01 3 = 0 ∧ og d 0x3C01 9 = 0 ∧ d.pair.driving = true ∧ said .ok ∈ d.out)) ∧
      (pairState s.dev = 0 ∨ ready s.dev 31 = false ∨ lanes ≠ 15 ∧ lanes ≠ 3 ∧ lanes ≠ 12 → Idles (.pairLinkUp lanes) s) ∧
      (pairState s.dev ≠ 0 → ready s.dev 31 = true → (lanes = 15 ∨ lanes = 3 ∨ lanes = 12) → Leaves (.pairLinkUp lanes) s (fun d =>
        og d 0x3C01 9 = lanes.toNat ∧ bit d.fc.cond 164 = false ∧ (lanes = 15 → bit d.fc.cond 163 = false) ∧
        (lanes ≠ 15 → rep 163 0 lanes.toNat 0 ∈ d.fc.todo) ∧
        (pairState s.dev = 1 → s.dev.pair.queue = [] → s.dev.pair.used ≤ 5000 → ∃ b, .pair 0x0E (s.dev.time.k % 2 ^ 32) b ∈ d.out) ∧
        (pairState s.dev ≠ 1 → pairState d = pairState s.dev ∧ d.out = s.dev.out))) ∧
      (bit (og s.dev 0x3C01 9) lane.val = false → Idles (.pairLaneLoss lane) s) ∧
      (og s.dev 0x3C01 9 = 15 → Leaves (.pairLaneLoss lane) s (fun d => og d 0x3C01 9 = (if lane.val < 2 then 12 else 3) ∧
        d.fc.todo = [rep 163 0 lane.val 0] ∧ pairState d = pairState s.dev)) ∧
      (bit (og s.dev 0x3C01 9) lane.val = true → og s.dev 0x3C01 9 ≠ 15 → Leaves (.pairLaneLoss lane) s (fun d =>
        og d 0x3C01 9 = 0 ∧ og d 0x3C01 5 = 0 ∧ og d 0x3C01 6 = 0 ∧ d.pair.last = none ∧ d.pair.queue = [] ∧ rep 164 0 lane.val 0 ∈ d.fc.todo ∧
        (2 ≤ pairState s.dev → s.dev.pair.last ≠ none → rep 165 0 0 0 ∈ d.fc.todo) ∧ (pairState s.dev = 2 ∨ pairState s.dev = 7 → pairState d = 2) ∧
        (3 ≤ pairState s.dev → pairState s.dev ≤ 6 → pairState d = 1) ∧ (pairState s.dev ≤ 1 → pairState d = pairState s.dev))) ∧
      (pairState s.dev = 1 → og s.dev 0x3C01 9 = 0 → s.dev.pair.heardHead = false → s.dev.pair.linkAt + 1000000000 * unitNs ≤ s.dev.time.local_ →
        Leaves .linkingTimeout s (fun d => pairState d = 2 ∧ d.pair = s.dev.pair ∧ d.out = s.dev.out)) ∧
      (pairState s.dev ≠ 1 ∨ og s.dev 0x3C01 9 ≠ 0 ∨ s.dev.pair.heardHead = true → Idles .linkingTimeout s) ∧
      (pairState s.dev = 0 ∨ og s.dev 0x3C01 9 = 0 → Idles (.pairingMessage true m) s ∧ Idles (.beacon true k t0 claim pst pmode) s ∧
        Idles (.pairDelay true on t0 t1) s) ∧
      (pairState s.dev ≠ 0 → og s.dev 0x3C01 9 ≠ 0 →
        Leaves (.pairingMessage true m) s (fun d => d.pair.partner = some m ∧ og d 0x3C00 5 = m.serial.toNat ∧ og d 0x3C01 4 = m.claim.toNat ∧
          (m.claim.toNat = og s.dev 0x3C00 2 → og d 0x3C01 0x0B = 1 ∧ pairState d = pairState s.dev ∧ (pairState s.dev = 1 → d.fc.todo = [rep 161 0 1 0])) ∧
          (m.claim.toNat ≠ og s.dev 0x3C00 2 → m.version.toNat ≠ og s.dev 0x3C00 3 → og d 0x3C01 0x0B = 2 ∧ pairState d = pairState s.dev) ∧
          (pairState s.dev ≠ 1 → LinkFree s.dev → ∃ b, .pair 0x0E (s.dev.time.k % 2 ^ 32) b ∈ d.out)) ∧
        Leaves (.beacon true k t0 claim pst pmode) s (fun d => og d 0x3C01 5 = claim.toNat ∧ og d 0x3C01 6 = pst.toNat ∧ d.pair.missed = 0 ∧
          d.pair.beaconIn = true ∧ d.pair.last = some ⟨k.toNat, t0.toNat, claim.toNat, pst.toNat, pmode.toNat⟩ ∧
          (pairState s.dev ≠ 1 → pairState d = pairState s.dev)) ∧
        (LinkFree s.dev → Does (.pairDelay true false t0 t1) s (fun d => d.out = s.dev.out ++ [.pair 15 (s.dev.time.k % 2 ^ 32) (leBytes 1 1 ++ leBytes 14 t0.toNat)] ∧
          d = { s.dev with pair := { s.dev.pair with used := s.dev.pair.used + 29 }, out := d.out })) ∧
        (∀ sent, s.dev.pair.delayT = some sent → Does (.pairDelay true true t0 t1) s (fun d => og d 0x3C01 0x0A = min 1000 ((timeUnits t1.toNat - sent) / 2 / 65536) ∧
          d.pair = { s.dev.pair with delayT := none } ∧ ObjsKept s.dev d [okey 0x3C01 0x0A])) ∧
        (s.dev.pair.delayT = none → Idles (.pairDelay true true t0 t1) s)) ∧
      (pairState s.dev = 0 ∨ s.dev.pair.last = none ∨ s.dev.pair.beaconIn = true → Idles .beaconMissing s) ∧
      (∀ b, pairState s.dev ≠ 0 → s.dev.pair.last = some b → s.dev.pair.beaconIn = false → og s.dev 0x3C02 9 < 0xFFFFFFFE → Leaves .beaconMissing s (fun d =>
        og d 0x3C02 9 = og s.dev 0x3C02 9 + 1 ∧ d.pair.missed = s.dev.pair.missed + 1 ∧
        (s.dev.pair.missed < 3 → pairState d = pairState s.dev ∧ d.pair.last = some b) ∧
        (3 ≤ s.dev.pair.missed → d.pair.last = none ∧ (pairState s.dev = 2 ∨ pairState s.dev = 7 → pairState d = 2 ∧ rep 165 0 0 0 ∈ d.fc.todo)))) ∧
      (ready s.dev 31 = false → Answers (.adoptConfiguration vals) s .notReady ∧ Answers .repeatPairingChecks s .notReady ∧ Answers .release s .notReady) ∧
      (ready s.dev 31 = true → pairState s.dev ≠ 1 → Answers (.adoptConfiguration vals) s .state ∧ Answers .repeatPairingChecks s .state) ∧
      (ready s.dev 31 = true → pairState s.dev = 1 →
        (mode s.dev ≠ 2 → Answers (.adoptConfiguration vals) s .state) ∧
        (∀ v r, mode s.dev = 2 → vals = [v] → findRow v.idx.toNat v.sub.toNat = some r → r.ty.isBlob = false → adopts v.idx.toNat v.sub.toNat = true →
          isMould (okey v.idx.toNat v.sub.toNat) = false → Does (.adoptConfiguration vals) s (fun d => og d v.idx.toNat v.sub.toNat = ofLe v.val ∧
            Writes s.dev d [okey v.idx.toNat v.sub.toNat] [said .ok])) ∧
        (∀ v, mode s.dev = 2 → vals = [v] → adopts v.idx.toNat v.sub.toNat = false → Answers (.adoptConfiguration vals) s .ok) ∧
        (LinkFree s.dev → Leaves .repeatPairingChecks s (fun d => said .ok ∈ d.out ∧ ∃ b, .pair 0x0E (s.dev.time.k % 2 ^ 32) b ∈ d.out)))) ∧
  (∀ (g : Seg) (j : BitVec 8) (fp cyc len : BitVec 32) (data body : Bytes) (inTime : Bool) (es : List (BitVec 8 × BitVec 8)) (ps : List (BitVec 8 × BitVec 8 × BitVec 32))
      (l : Line) (kn : FNode) (hdr : BitVec 8) (dev : BitVec 16) (pi : PulseImage) (pis : List PulseImage) (it : FwdItem) (ke : BitVec 64) (inp outp : BitVec 64) (k : Nat) (s : State), Settled s →
      (pairRole s.dev ≠ 2 → Idles (.fingerprint true ps) s ∧ Idles (.block true g j cyc data) s ∧ Idles (.localInputs true pis) s) ∧
      (pairRole s.dev ≠ 1 → Idles (.blockRequest true es) s ∧ Idles (.exclusions true inTime es) s) ∧
      (∀ c, c = Instr.fingerprint false ps ∨ c = Instr.block false g j cyc data ∨ c = Instr.localInputs false pis ∨ c = Instr.blockRequest false es ∨
          c = Instr.exclusions false inTime es ∨ c = Instr.fieldFrameMessage false l kn hdr dev body ∨ c = Instr.forward false it len (some ke) ∨
          c = Instr.digests false cyc inp outp →
        (og s.dev 0x3C01 9 = 0 → Idles c s) ∧
        (og s.dev 0x3C01 9 ≠ 0 → og s.dev 0x3C02 8 < 0xFFFFFFFE → Leaves c s (fun d => og d 0x3C02 8 = og s.dev 0x3C02 8 + 1 ∧
          d.fc.todo = [rep 167 0 0 0] ∧ d.pair = s.dev.pair ∧ d.heads = s.dev.heads ∧ ObjsKept s.dev d [okey 0x3C02 8]))) ∧
      (pairRole s.dev = 2 → ps = [(BitVec.ofNat 8 g.val, j, fp)] → g.val < 8 → pairedSeg s.dev g.val = true →
        ((hd s.dev g.val j.toNat).rx.map crc32c = some fp.toNat → Does (.fingerprint true ps) s (fun d =>
          tget (fun _ => 2 ^ 32) d.pair.prints (blockKey g.val j.toNat) = fp.toNat ∧ Writes { s.dev with pair := { s.dev.pair with prints := d.pair.prints } } d [] [])) ∧
        ((hd s.dev g.val j.toNat).rx.map crc32c ≠ some fp.toNat → s.dev.pair.requested.contains (blockKey g.val j.toNat) = false → og s.dev 0x3C02 6 < 0xFFFFFFFE →
          LinkFree s.dev → Does (.fingerprint true ps) s (fun d => tget (fun _ => 2 ^ 32) d.pair.prints (blockKey g.val j.toNat) = fp.toNat ∧
            d.pair.requested = s.dev.pair.requested ++ [blockKey g.val j.toNat] ∧ og d 0x3C02 6 = og s.dev 0x3C02 6 + 1 ∧
            d.out = s.dev.out ++ [.pair 3 (s.dev.time.k % 2 ^ 32) (leBytes 1 g.val ++ leBytes 1 j.toNat)]))) ∧
      (pairRole s.dev = 1 →
        (es = [(BitVec.ofNat 8 g.val, j)] → j ≠ 0 →
          ((hd s.dev g.val j.toNat).rx = some data → data.length ≤ 900 → LinkFree s.dev → Does (.blockRequest true es) s (fun d =>
            d.out = s.dev.out ++ [.pair 4 (s.dev.time.k % 2 ^ 32) (leBytes 1 g.val ++ leBytes 1 j.toNat ++ leBytes 2 data.length ++ data)] ∧
            d = { s.dev with pair := { s.dev.pair with used := s.dev.pair.used + (18 + data.length) }, out := d.out })) ∧
          ((hd s.dev g.val j.toNat).rx = none → Idles (.blockRequest true es) s)) ∧
        (es = [(BitVec.ofNat 8 g.val, 0)] → g.val < 8 → og s.dev 0x3C01 9 = 15 → s.dev.pair.fullServe = [] → Does (.blockRequest true es) s (fun d =>
          d = { s.dev with pair := { s.dev.pair with fullServe := [g.val] } })) ∧
        (inTime = true → Does (.exclusions true inTime es) s (fun d =>
          d = { s.dev with pair := { s.dev.pair with excl := some (es.map (fun e => (e.1.toNat, e.2.toNat))) } })) ∧
        (inTime = false → Idles (.exclusions true inTime es) s)) ∧
      (pairRole s.dev = 2 → g.val < 8 → pairedSeg s.dev g.val = true →
        (cyc.toNat = s.dev.time.k % 2 ^ 32 → s.dev.time.kc ≠ s.dev.time.k → data.length = 2 + nodeWinBytes (mould s.dev g.val) j.toNat → Does (.block true g j cyc data) s (fun d =>
          hd d g.val j.toNat = { hd s.dev g.val j.toNat with rx := some data, replyReady := bit (rd data 0 2) 4, flags := rd data 0 2 } ∧
          tget (fun _ => 2 ^ 32) d.pair.prints (blockKey g.val j.toNat) = crc32c data ∧ d.objs = s.dev.objs ∧ d.out = s.dev.out)) ∧
        (cyc.toNat ≠ s.dev.time.k % 2 ^ 32 ∨ s.dev.time.kc = s.dev.time.k → Idles (.block true g j cyc data) s)) ∧
      (pairRole s.dev = 2 → pis = [pi] → Does (.localInputs true pis) s (fun d => pls d pi.num.val = pi.st ∧ og d (0x3D10 + pi.num.val) 1 = pi.pe.toNat ∧
        og d (0x3D10 + pi.num.val) 2 = pi.te.toNat ∧ og d (0x3D10 + pi.num.val) 3 = pi.vrep.toNat ∧ og d (0x3D10 + pi.num.val) 4 = pi.status.toNat ∧
        og d (0x3D10 + pi.num.val) 5 = pi.tooth.toNat ∧ ObjsKept s.dev d ((List.range 5).map (fun i => okey (0x3D10 + pi.num.val) (i + 1))))) ∧
      (pairState s.dev = 0 → Idles (.fieldFrameMessage true l kn hdr dev body) s ∧ Idles (.forward true it len none) s ∧ Idles (.digests true cyc inp outp) s) ∧
      (pairState s.dev ≠ 0 → pairedSeg s.dev (lseg l.val) = true → sending s.dev (lseg l.val) = true → linePresent (mould s.dev (lseg l.val)) kn.val = true →
        hdr.toNat % 8 = segCycle s.dev (lseg l.val) % 8 → bits hdr.toNat 5 2 = 0 → dev.toInt.natAbs ≤ 320 → body.length = 4 →
        ((hd s.dev (lseg l.val) kn.val).slot = none ∨ pairRole s.dev = 2 → Does (.fieldFrameMessage true l kn hdr dev body) s (fun d =>
          (hd d (lseg l.val) kn.val).slot = some body ∧ (hd d (lseg l.val) kn.val).alarm = bit hdr.toNat 4 ∧ (hd d (lseg l.val) kn.val).onTime = true ∧
          d.objs = s.dev.objs ∧ d.segs = s.dev.segs)) ∧
        ((hd s.dev (lseg l.val) kn.val).slot ≠ none → pairRole s.dev ≠ 2 → Does (.fieldFrameMessage true l kn hdr dev body) s (fun d =>
          hd d (lseg l.val) kn.val = { hd s.dev (lseg l.val) kn.val with onTime := true } ∧ d = { s.dev with heads := d.heads }))) ∧
      (pairState s.dev ≠ 0 → og s.dev 0x3C01 9 ≠ 0 →
        Does (.forward true it len (some ke)) s (fun d => d = { s.dev with pair := { s.dev.pair with items := s.dev.pair.items ++ [(ke.toNat, it)] } }) ∧
        (pairRole s.dev = 1 → LinkFree s.dev → it.encode.length ≤ 900 → Does (.forward true it len none) s (fun d =>
          d.pair.items = s.dev.pair.items ++ [(forwardCycle s.dev len.toNat, it)] ∧ d.objs = s.dev.objs ∧
          d.out = s.dev.out ++ [.pair 9 (s.dev.time.k % 2 ^ 32) (leBytes 8 (forwardCycle s.dev len.toNat) ++ it.encode)])) ∧
        (pairRole s.dev ≠ 1 → Idles (.forward true it len none) s)) ∧
      (s.dev.pair.items = [(k, it)] → (s.dev.time.k < k → Idles .forwardedItemApply s) ∧
        (∀ c, k ≤ s.dev.time.k → it = .chill c → Does .forwardedItemApply s (fun d => d.pair.items = [] ∧ og d 0x3510 1 = c.toNat ∧ og d 0x3510 2 = 1 ∧
          d.time.chillAt = some c.toNat ∧ d.pair.applied = s.dev.pair.applied ++ it.encode))) ∧
      (pairState s.dev ≠ 0 → k = s.dev.time.k / 2 ^ 32 * 2 ^ 32 + cyc.toNat → s.dev.pair.theirs = [] →
        (s.dev.pair.mine = [] → Does (.digests true cyc inp outp) s (fun d => d.pair.theirs = [(k, inp.toNat, outp.toNat)] ∧ Writes { s.dev with pair := d.pair } d [] [])) ∧
        (s.dev.pair.mine = [(k, inp.toNat, outp.toNat)] → pairState s.dev = 5 → Does (.digests true cyc inp outp) s (fun d =>
          og d 0x3C01 7 = min 1024 (og s.dev 0x3C01 7 + 1) ∧ d.pair.mine = [] ∧ d.pair.theirs = [] ∧ pairState d = 5)) ∧
        (∀ a b, s.dev.pair.mine = [(k, a, b)] → (a ≠ inp.toNat ∨ b ≠ outp.toNat) → pairState s.dev = 7 → og s.dev 0x3C01 3 < og s.dev 0x3C01 5 →
          og s.dev 0x3C02 1 < 0xFFFFFFFE → Leaves (.digests true cyc inp outp) s (fun d => og d 0x3C02 1 = og s.dev 0x3C02 1 + 1 ∧ og d 0x3C01 0x0C = k ∧
            d.pair.dropAt = some (k + 2) ∧ d.pair.dropTo = 4 ∧ d.fc.todo = [rep 160 0 (k % 2 ^ 32) 0] ∧ pairState d = 7))))

/-- Transfer and takeover (R185, R318, R322, R323, R333, R335, R342): a unit of the state replaces its part and is no longer to come; a round of
digests ends with the units that differ to come again, or in Verifying; a transfer that takes too long is counted, reported and starts again
from Joining; 1,024 equal digests announce the takeover 16 cycles ahead; an announced cycle takes both units In step or releases the role; a
unit that does not originate from the head position passes a higher claim's frame and sends its own in place of a lower or missing one, once a
channel and ring cycle. -/
def Obligations.PairsTransferStateAndTakeOver : Prop :=
  ∀ (n : Ax) (im : AxisImage) (un : StateUnit) (cycle : BitVec 64) (claim : BitVec 8) (r : Ring) (c : Chan) (hdr : Option (BitVec 8)) (arrival : BitVec 32)
    (first : BitVec 16) (ds : List (BitVec 64)) (key : Nat) (s : State), Settled s → key = 2 * r.val + (if c = .b then 1 else 0) →
    (pairState s.dev ≠ 4 → Idles (.stateUnit true un) s ∧ Idles .stateTransferTimeout s ∧
      (leadsTransfer s.dev = false → Idles (.stateDigests true first ds) s)) ∧
    (pairState s.dev = 4 → un = .axis n im → Does (.stateUnit true un) s (fun d => mot d n.val = im.motion ∧ srv d n.val = im.servo ∧
      cur d n.val = im.current ∧ stp d n.val = im.stepper ∧ d.pair.differ = s.dev.pair.differ.filter (· != 13 + n.val) ∧
      og d 0x3C01 0x0D = d.pair.differ.length ∧ (im.objs = [] → pairState d = 4))) ∧
    (s.dev.pair.differ ≠ [] → Idles (.stateDigests true first ds) s) ∧
    (s.dev.pair.differ = [] → (pairState s.dev = 4 ∨ leadsTransfer s.dev = true) →
      (s.dev.pair.checked + ds.length < unitCount → Does (.stateDigests true first ds) s (fun d =>
        d = { s.dev with pair := { s.dev.pair with found := d.pair.found, checked := s.dev.pair.checked + ds.length } } ∧
        ∀ u, u ∈ d.pair.found ↔ u ∈ s.dev.pair.found ∨
          ∃ i, i < ds.length ∧ u = first.toNat + i ∧ Config.unitDigest (stateUnit s.dev u) ≠ ds.getD i 0)) ∧
      (unitCount ≤ s.dev.pair.checked + ds.length → og s.dev 0x3C02 4 < 0xFFFFFFFE → Leaves (.stateDigests true first ds) s (fun d =>
        (∀ u, u ∈ d.pair.differ ↔ u ∈ s.dev.pair.found ∨
          ∃ i, i < ds.length ∧ u = first.toNat + i ∧ Config.unitDigest (stateUnit s.dev u) ≠ ds.getD i 0) ∧
        d.pair.found = [] ∧ d.pair.checked = 0 ∧
        (pairState s.dev = 4 → d.pair.differ ≠ [] → pairState d = 4 ∧ og d 0x3C01 0x0D = d.pair.differ.length) ∧
        (pairState s.dev = 4 → d.pair.differ = [] → pairState d = 5 ∧ og d 0x3C01 7 = 0 ∧ og d 0x3C02 4 = og s.dev 0x3C02 4 + 1)))) ∧
    (pairState s.dev = 4 → s.dev.time.k < s.dev.pair.startedAt + 31250 → Idles .stateTransferTimeout s) ∧
    (pairState s.dev = 4 → s.dev.pair.startedAt + 31250 ≤ s.dev.time.k → og s.dev 0x3C02 5 < 0xFFFFFFFE → Leaves .stateTransferTimeout s (fun d =>
      pairState d = 3 ∧ og d 0x3C02 5 = og s.dev 0x3C02 5 + 1 ∧ rep 162 0 0 0 ∈ d.fc.todo)) ∧
    (pairState s.dev ≠ 5 ∨ og s.dev 0x3C01 7 < 1024 → Idles .inStepCountReached s) ∧
    (pairState s.dev = 5 → 1024 ≤ og s.dev 0x3C01 7 → Leaves .inStepCountReached s (fun d =>
      pairState d = 6 ∧ d.pair.announced = some (s.dev.time.k + 16, og s.dev 0x3C00 2) ∧ og d 0x3C01 8 = s.dev.time.k + 16 ∧
      (LinkFree s.dev → d.out = s.dev.out ++ [.pair 13 (s.dev.time.k % 2 ^ 32) (leBytes 8 (s.dev.time.k + 16) ++ leBytes 1 (og s.dev 0x3C00 2))]))) ∧
    (pairState s.dev = 0 ∨ og s.dev 0x3C01 9 = 0 → Idles (.announce true cycle claim) s) ∧
    (pairState s.dev ≠ 0 → og s.dev 0x3C01 9 ≠ 0 →
      (cycle ≠ 0 → pairState s.dev = 2 ∨ pairState s.dev = 7 → Does (.announce true cycle claim) s (fun d =>
        d.pair = { s.dev.pair with announced := some (cycle.toNat, claim.toNat + 256) } ∧ og d 0x3C01 8 = cycle.toNat ∧ ObjsKept s.dev d [okey 0x3C01 8])) ∧
      (cycle ≠ 0 → pairState s.dev ≠ 2 → pairState s.dev ≠ 7 → Idles (.announce true cycle claim) s) ∧
      (cycle = 0 → pairState s.dev ≠ 6 → Does (.announce true cycle claim) s (fun d => d.pair = { s.dev.pair with announced := none } ∧ og d 0x3C01 8 = 0 ∧
        ObjsKept s.dev d [okey 0x3C01 8]))) ∧
    (∀ cm, cm = Instr.stateUnit false un ∨ cm = Instr.stateDigests false first ds ∨ cm = Instr.announce false cycle claim →
      (og s.dev 0x3C01 9 = 0 → Idles cm s) ∧
      (og s.dev 0x3C01 9 ≠ 0 → og s.dev 0x3C02 8 < 0xFFFFFFFE → Leaves cm s (fun d => og d 0x3C02 8 = og s.dev 0x3C02 8 + 1 ∧
        d.fc.todo = [rep 167 0 0 0] ∧ d.pair = s.dev.pair ∧ ObjsKept s.dev d [okey 0x3C02 8]))) ∧
    (ready s.dev 31 = true →
      (pairState s.dev = 7 ∨ pairState s.dev = 2 ∧ og s.dev 0x3C01 6 = 7 → Does .release s (fun d =>
        d.pair.announced = some (s.dev.time.k + 16, 0) ∧ og d 0x3C01 8 = s.dev.time.k + 16 ∧ said .ok ∈ d.out ∧ ObjsKept s.dev d [okey 0x3C01 8])) ∧
      (pairState s.dev ≠ 7 → pairState s.dev ≠ 2 ∨ og s.dev 0x3C01 6 ≠ 7 → Answers .release s .state)) ∧
    (s.dev.pair.announced = none → Idles .takeoverCycle s) ∧
    (∀ k cl, s.dev.pair.announced = some (k, cl) →
      (s.dev.time.k + 1 < k → Idles .takeoverCycle s) ∧
      (k ≤ s.dev.time.k + 1 → og s.dev 0x3C02 3 < 0xFFFFFFFE → Leaves .takeoverCycle s (fun d => d.pair.announced = none ∧ og d 0x3C01 8 = 0 ∧
        (1 ≤ cl → cl ≤ 255 → pairState s.dev = 6 → pairState d = 7) ∧ (cl = 0 → pairState s.dev = 7 → pairState d = 3) ∧
        (256 < cl → og d 0x3C01 5 = cl - 256 ∧ (pairState s.dev = 2 → pairState d = 7)) ∧ (cl = 256 → og d 0x3C01 5 = 0 ∧ pairState d = pairState s.dev)))) ∧
    (∀ own, own = (if sending s.dev r.val = true then og s.dev 0x3C01 3 else 0) →
      (pairedSeg s.dev r.val = false ∨ ready s.dev (18 + r.val) = false ∨ og s.dev 0x3C01 4 < og s.dev 0x3C00 2 ∧ own ≠ 0 ∨
          (∃ p ∈ s.dev.pair.decided, p.1 = key) → Idles (.partnerSendDecision r c hdr arrival) s) ∧
      (pairedSeg s.dev r.val = true → ready s.dev (18 + r.val) = true → (og s.dev 0x3C00 2 ≤ og s.dev 0x3C01 4 ∨ own = 0) → (∀ p ∈ s.dev.pair.decided, p.1 ≠ key) →
        ((∀ h, hdr = some h → h.toNat ≤ own) → own ≠ 0 → Leaves (.partnerSendDecision r c hdr arrival) s (fun d => d.pair.driving = true ∧
          (key, true) ∈ d.pair.decided ∧ ∃ f, Msg.segment r.val (some c) f ∈ d.out)) ∧
        (∀ h, hdr = some h → own = 0 ∨ own < h.toNat → Does (.partnerSendDecision r c hdr arrival) s (fun d => d.out = s.dev.out ++ [.passed r.val c] ∧
          d.objs = s.dev.objs ∧ (key, false) ∈ d.pair.decided ∧
          (og s.dev 0x3C01 3 < h.toNat → pairState s.dev ≠ 0 → d.pair.driving = false))) ∧
        (hdr = none → own = 0 → Idles (.partnerSendDecision r c hdr arrival) s)))

/-! ## The safety island -/

/-- The island's faults and its start (R343-R345, R357, R370): a cycle that finds supply, clock, a missed cycle or a second disagreement takes
the island into Fault with its cause, all permits 0 and every output off; a self-test that passes takes the block from the key and runs
when its confirmation fits, and one that fails leaves the island in Fault; a restart begins again; an output pin that does not read low in
its pulse holds its pair off. Inputs and functions of a running island (R347, R348, R351-R353, R349, R360, R363): an accepted level is
stamped and logged; a test pulse a pin does not follow is its fault and takes its functions into Fault; a discrepancy that lasts does so
too; the delayed permit falls at its time; the unlock follows its run-down; safety PDUs of nodes and of the partner are verified, and a
repeated one can only take bits away. -/
def Obligations.IslandStartsFailsAndEvaluates : Prop :=
  (∀ (dis clk mis sup pinB low : Bool) (read ovr : BitVec 8) (o : SoPair) (pass ok : Bool) (s : State),
      (s.isl.state = 0 ∨ s.isl.state = 5 → Idles (.islandCycle dis clk mis sup read ovr) s) ∧
      (∀ c, s.isl.state ≠ 0 → s.isl.state ≠ 5 →
        (sup = true ∧ c = 4 ∨ sup = false ∧ clk = true ∧ c = 2 ∨ sup = false ∧ clk = false ∧ mis = true ∧ c = 3 ∨
          sup = false ∧ clk = false ∧ mis = false ∧ dis = true ∧ s.isl.mism = 1 ∧ c = 1) →
        ∃ t, exec (.islandCycle dis clk mis sup read ovr) s = .next t ∧ t.isl.state = 5 ∧ t.isl.cause = c ∧ t.isl.permits = 0 ∧ t.isl.so = 0 ∧
          t.isl.stopReq = true ∧ t.isl.block = s.isl.block) ∧
      (s.isl.state ≠ 0 → s.isl.state ≠ 5 → sup = false → clk = false → mis = false → dis = false →
        ∃ t, exec (.islandCycle dis clk mis sup read ovr) s = .next t ∧ t.isl.state = s.isl.state ∧ t.isl.mism = 0 ∧ t.isl.now = s.isl.now + 125 ∧
          t.isl.block = s.isl.block ∧ t.isl.si = s.isl.si ∧ (s.isl.state ≠ 4 → t.isl.insts = s.isl.insts) ∧ t.nodes = s.nodes) ∧
      (s.isl.state ≠ 1 → Idles (.islandSelfTestDone pass) s) ∧
      (s.isl.state = 1 →
        (∃ t, exec (.islandSelfTestDone false) s = .next t ∧ t.isl.state = 5 ∧ t.isl.cause = 0 ∧ t.isl.so = 0) ∧
        (∀ r, r = newestSafety s.dev.key → ∃ t, exec (.islandSelfTestDone true) s = .next t ∧ t.isl.block = r.block ∧ t.isl.conf = r.conf ∧
          t.isl.insts = [] ∧ (r.block = [] → t.isl.state = 2 ∧ t.isl.check = 0) ∧ (r.block ≠ [] → t.isl.check = crc32c r.block ∧
            t.isl.state = (if crc32c r.block = r.conf then 4 else 2)))) ∧
      (ready s.dev 5 = false → Answers .islandRestart s .notReady) ∧
      (ready s.dev 5 = true → ∃ t, exec .islandRestart s = .next t ∧ t.isl.state = 1 ∧ t.isl.permits = 0 ∧ t.isl.so = 0 ∧ t.isl.block = s.isl.block ∧
        t.isl.storing = s.isl.storing ∧ (∃ m, t.dev.out = m ++ [said .ok])) ∧
      (bit s.isl.so (2 * o.val + b2n pinB) = true → low = false → bit s.isl.soFault o.val = false → ∃ t, exec (.soOffPulse o pinB low) s = .next t ∧
        bit t.isl.soFault o.val = true ∧ bit t.isl.so (2 * o.val) = false ∧ bit t.isl.so (2 * o.val + 1) = false ∧
        (icount s.isl 4 < 0xFFFFFFFF → icount t.isl 4 = icount s.isl 4 + 1)) ∧
      (bit s.isl.so (2 * o.val + b2n pinB) = false ∨ low = true ∨ bit s.isl.soFault o.val = true → Idles (.soOffPulse o pinB low) s) ∧
      (∃ t, exec (.vsoRangeChange ok) s = .next t ∧ t.isl.vso = ok ∧ (ok = false → t.isl.so = 0) ∧ t.isl.state = s.isl.state ∧ t.isl.block = s.isl.block)) ∧
  (∀ (i : SIn) (level srcB : Bool) (low : BitVec 16) (f : Fin 64) (l : Line) (k : FNode) (cable : Chan) (dev : BitVec 32) (alarm waited : Bool) (p : Bytes) (s : State),
      (s.isl.state = 0 ∨ bit s.isl.si i.val = level → Idles (.siChangeAccepted i level) s) ∧
      (Settled s → s.isl.state ≠ 0 → bit s.isl.si i.val ≠ level → ready s.dev 2 = true → sealed s.dev = false → commitWindow s.dev = false →
        s.dev.fc.waiting < 1024 → ∃ t, exec (.siChangeAccepted i level) s = .next t ∧ bit t.isl.si i.val = level ∧ tget (fun _ => 0) t.isl.siT i.val = s.isl.now ∧
          t.isl = { s.isl with si := t.isl.si, siT := t.isl.siT } ∧ (∀ j : SIn, j ≠ i → bit t.isl.si j.val = bit s.isl.si j.val) ∧
          t.dev.fc.nextSeq = s.dev.fc.nextSeq + 1) ∧
      (s.isl.state = 0 ∨ s.isl.state = 5 → Idles (.testPulse srcB low) s) ∧
      (s.isl.state ≠ 0 → s.isl.state ≠ 5 → ∃ t, exec (.testPulse srcB low) s = .next t ∧ t.isl.state = s.isl.state ∧
        (∀ j : SIn, bit t.isl.siFault j.val = if rd (blkPin s.isl.block j.val) 2 1 = (if srcB = true then 2 else 1) then !bit low.toNat j.val
          else bit s.isl.siFault j.val) ∧
        (s.isl.state = 4 → f.val < blkFns s.isl.block → testFault { s.isl with siFault := t.isl.siFault } f.val = true → (inst t.isl f.val).state = 3 ∧
          (inst t.isl f.val).permit = ((inst s.isl f.val).permit && decide ((inst s.isl f.val).state = 3)))) ∧
      (s.isl.state = 4 → f.val < blkFns s.isl.block →
        ((discrepant s.isl f.val).1 = true ∨ (discrepant s.isl f.val).2 = true → (inst s.isl f.val).state ≠ 3 → ∃ t, exec (.discrepancyTimeout f) s = .next t ∧
          (inst t.isl f.val).state = 3 ∧ (inst t.isl f.val).cause = 2 ∧ (inst t.isl f.val).permit = false ∧ bit t.isl.permits f.val = false ∧ t.isl.stopReq = true) ∧
        ((inst s.isl f.val).timer.isSome = true → ∃ t, exec (.permitDelayEnd f) s = .next t ∧ (inst t.isl f.val).permit = false ∧
          (inst t.isl f.val).timer = none ∧ bit t.isl.permits f.val = false ∧ (inst t.isl f.val).state = (inst s.isl f.val).state) ∧
        ((inst s.isl f.val).timer = none → Idles (.permitDelayEnd f) s) ∧
        (rd (blkFn s.isl.block f.val) 0 1 = 2 → unlockReq s.isl f.val = true → (inst s.isl f.val).permit = false → ∃ t, exec (.unlockRundownEnd f) s = .next t ∧
          inst t.isl f.val = { inst s.isl f.val with unlockOn := true } ∧ t.isl.state = 4) ∧
        ((inst s.isl f.val).permit = true → Idles (.unlockRundownEnd f) s)) ∧
      (s.isl.state ≠ 4 → Idles (.discrepancyTimeout f) s ∧ Idles (.permitDelayEnd f) s ∧ Idles (.unlockRundownEnd f) s) ∧
      (∀ n x, n < blkIns s.isl.block → (∀ m, m < blkIns s.isl.block → (rd (blkIn s.isl.block m) 0 1 = l.val ∧ rd (blkIn s.isl.block m) 1 2 = k.val ↔ m = n)) →
        sending s.dev (lseg l.val) = true → linePresent (mould s.dev (lseg l.val)) k.val = true → Settled s → dev.toInt.natAbs ≤ 800 → x = tget (fun _ => SafeIn.reset) s.isl.nodeIn n →
        pduGood (blkDomain s.isl.block) p = true → rd p 0 2 = 0x4000 + 1024 * l.val + k.val →
        ∃ t, exec (.fieldFrameReceived l k 2 cable true 0 0 dev alarm waited (BitVec.ofNat 3 (segCycle s.dev (lseg l.val))) p) s = .next t ∧
          (x.seq ≠ some (rd p 2 2) → tget (fun _ => SafeIn.reset) t.isl.nodeIn n = ⟨some (rd p 2 2), some 0, rd p 4 8⟩) ∧
          (x.seq = some (rd p 2 2) → tget (fun _ => SafeIn.reset) t.isl.nodeIn n = { x with bits := x.bits &&& rd p 4 8 })) ∧
      (ready s.dev 31 = false ∨ s.isl.state = 0 → Idles (.pairSafetyMessage true [p]) s) ∧
      (og s.dev 0x3C01 9 ≠ 0 → og s.dev 0x3C02 8 < 0xFFFFFFFE → Leaves (.pairSafetyMessage false [p]) s (fun d =>
        og d 0x3C02 8 = og s.dev 0x3C02 8 + 1 ∧ ObjsKept s.dev d [okey 0x3C02 8])) ∧
      (∀ x, ready s.dev 31 = true → s.isl.state ≠ 0 → x = tget (fun _ => SafeIn.reset) s.isl.partner (rd p 0 2) →
        ∃ t, exec (.pairSafetyMessage true [p]) s = .next t ∧
          (pduGood (blkDomain s.isl.block) p = false → t.isl.partner = s.isl.partner) ∧
          (pduGood (blkDomain s.isl.block) p = true → x.seq ≠ some (rd p 2 2) →
            tget (fun _ => SafeIn.reset) t.isl.partner (rd p 0 2) = ⟨some (rd p 2 2), some 0, rd p 4 8⟩)))

/-- Commissioning of the island (R28, R366-R370, R441): block, confirmation and store are taken only while Commissioning; a block that fails
its checks leaves the old one, a confirmation must be the computed check value, and a store writes the record into the older copy of the
key. -/
def Obligations.IslandIsCommissionedByItsObjects : Prop :=
  ∀ (data : Bytes) (v : BitVec 32) (ok : Bool) (s : State),
    (commissionStatus s ≠ .ok → Answers (.safetyBlockWrite data) s (commissionStatus s) ∧ Answers (.confirmationWrite v) s (commissionStatus s) ∧
      Answers .safetyStore s (commissionStatus s)) ∧
    (ready s.dev 5 = true → s.isl.state = 3 →
      (16384 < data.length → Answers (.safetyBlockWrite data) s .length) ∧
      (data.length ≤ 16384 → blockOk s.dev data = false → Answers (.safetyBlockWrite data) s .range) ∧
      (data.length ≤ 16384 → blockOk s.dev data = true → exec (.safetyBlockWrite data) s =
        .next { s with isl := { s.isl with block := data, check := crc32c data }, dev := answer s.dev .ok }) ∧
      (v.toNat ≠ s.isl.check → Answers (.confirmationWrite v) s .range) ∧
      (v.toNat = s.isl.check → exec (.confirmationWrite v) s = .next { s with isl := { s.isl with conf := v.toNat }, dev := answer s.dev .ok }) ∧
      (s.isl.conf ≠ s.isl.check ∨ bit (og s.dev 0x2000 1) 0 = true → Answers .safetyStore s .state) ∧
      (s.isl.conf = s.isl.check → bit (og s.dev 0x2000 1) 0 = false → s.isl.storing = none → ∃ r, exec .safetyStore s =
        .next { s with isl := { s.isl with storing := some r, storeStatus := 1 }, dev := answer s.dev .ok } ∧
        r.valid = true ∧ r.seq = (newestSafety s.dev.key).seq + 1 ∧ r.check = s.isl.check ∧ r.conf = s.isl.conf ∧ r.block = s.isl.block) ∧
      (∀ r, s.isl.conf = s.isl.check → bit (og s.dev 0x2000 1) 0 = false → s.isl.storing = some r → Answers .safetyStore s .busy)) ∧
    (s.isl.storing = none → Idles (.safetyStoreComplete ok) s) ∧
    (∀ r, s.isl.storing = some r →
      (ok = false ∨ s.dev.key.present = false ∨ s.dev.key.readable = false ∨ bit (og s.dev 0x2000 1) 0 = true →
        exec (.safetyStoreComplete ok) s = .next { s with isl := { s.isl with storing := none, storeStatus := 3 } }) ∧
      (ok = true → s.dev.key.present = true → s.dev.key.readable = true → bit (og s.dev 0x2000 1) 0 = false → ∃ key,
        exec (.safetyStoreComplete ok) s = .next { s with isl := { s.isl with storing := none, storeStatus := 2, storedConf := r.conf }, dev := { s.dev with key := key } } ∧
        (s.dev.key.safety0.valid = false → s.dev.key.safety1.valid = false → key = { s.dev.key with safety0 := r }) ∧
        (s.dev.key.safety0.valid = true → s.dev.key.safety1.valid = false ∨ s.dev.key.safety1.seq ≤ s.dev.key.safety0.seq → key = { s.dev.key with safety1 := r }) ∧
        (s.dev.key.safety1.valid = true → s.dev.key.safety0.valid = false ∨ s.dev.key.safety0.seq < s.dev.key.safety1.seq → key = { s.dev.key with safety0 := r })))

/-! ## The shared memory -/

/-- Accesses to the shared memory (R395-R402): before the memory is ready every request is answered so; a request that fails its parity is
discarded and reported; an aligned double word written by one port stands at its address and removes the word's errors, a read answers the
bytes there, a single-bit error is corrected, counted and scrubbed, a double-bit one answered as an error and reported; of two ports that
write one word in one clock the lower goes first and the other repeats. Scrub and tests of the shared memory (R400, R403-R408): the oldest
corrected word is written back; more than 16 corrections in a second are reported; the background test covers the region of its
millisecond once, retires the region of a bank that fails, and goes on when the region is restored; the full test runs in Service only,
clears the memory, releases what was retired, and its failure retires a region or takes a block from service. -/
def Obligations.MemoryServesAndIsTested : Prop :=
  (∀ (r q : MemReq) (rs : List MemReq) (s : State), Settled s →
      (ready s.dev 3 = false → ∃ t, exec (.memoryAccess rs) s = .next t ∧ t.mem = s.mem ∧
        t.dev = { s.dev with out := s.dev.out ++ rs.map (fun x => .memory x.port.val 3 0) }) ∧
      (ready s.dev 3 = true → r.parity = true → og s.dev (0x3E30 + r.port.val) 4 < 0xFFFFFFFE → ∃ d, exec (.memoryAccess [r]) s = .next (upd s (fun _ => d)) ∧
        og d (0x3E30 + r.port.val) 4 = og s.dev (0x3E30 + r.port.val) 4 + 1 ∧ d.fc.todo = [rep 41 0 r.port.val 0] ∧ d.out = s.dev.out) ∧
      (ready s.dev 3 = true → r.parity = false → r.upset.val = 0 → r.addr.toNat % 8 + 2 ^ r.size.val ≤ 8 → ∀ w, w = r.addr.toNat / 8 →
        (r.write = true → 2 ^ r.size.val = 8 → ∃ t, exec (.memoryAccess [r]) s = .next t ∧ t.dev.out = s.dev.out ++ [.memory r.port.val 0 0] ∧
          (∀ b : Byte, ∀ i, i < 8 → memByte t.mem (w * 8 + i) = (leBytes 8 r.data.toNat).getD i b) ∧
          (∀ a, a / 8 ≠ w → memByte t.mem a = memByte s.mem a) ∧ t.mem.single = s.mem.single.filter (· != w) ∧ t.mem.bad = s.mem.bad.filter (· != w) ∧
          t.dev.objs = s.dev.objs) ∧
        (r.write = true → 2 ^ r.size.val < 8 → w ∉ s.mem.single → w ∉ s.mem.bad → ∃ t, exec (.memoryAccess [r]) s = .next t ∧
          t.dev.out = s.dev.out ++ [.memory r.port.val 0 0] ∧
          (∀ b : Byte, ∀ i, i < 2 ^ r.size.val → memByte t.mem (r.addr.toNat + i) = (leBytes (2 ^ r.size.val) r.data.toNat).getD i b) ∧
          ∀ a, a < r.addr.toNat ∨ r.addr.toNat + 2 ^ r.size.val ≤ a → memByte t.mem a = memByte s.mem a) ∧
        (r.write = false → w ∉ s.mem.single → w ∉ s.mem.bad → ∃ t, exec (.memoryAccess [r]) s = .next t ∧ t.mem = s.mem ∧
          t.dev = { s.dev with out := s.dev.out ++ [.memory r.port.val 0 (ofLe (memRead s.mem r.addr.toNat (2 ^ r.size.val)))] }) ∧
        (r.write = false → w ∈ s.mem.single → w ∉ s.mem.bad → og s.dev (0x3E10 + w % 16) 1 < 0xFFFFFFFE → ∃ t, exec (.memoryAccess [r]) s = .next t ∧ t.mem = s.mem ∧
          t.dev.out = s.dev.out ++ [.memory r.port.val 0 (ofLe (memRead s.mem r.addr.toNat (2 ^ r.size.val)))] ∧
          og t.dev (0x3E10 + w % 16) 1 = og s.dev (0x3E10 + w % 16) 1 + 1 ∧ w ∈ t.dev.memt.scrubs ∧ t.dev.memt.corr = s.dev.memt.corr + 1) ∧
        (r.write = false → w ∈ s.mem.bad → og s.dev (0x3E10 + w % 16) 3 < 0xFFFFFFFE → ∃ d, exec (.memoryAccess [r]) s = .next (upd s (fun _ => d)) ∧
          (∃ v, d.out = s.dev.out ++ [.memory r.port.val 1 v]) ∧ og d (0x3E10 + w % 16) 3 = og s.dev (0x3E10 + w % 16) 3 + 1 ∧
          d.fc.todo = [rep (16 + w % 16) 0 (w * 8) 0]) ∧
        (r.write = true → 2 ^ r.size.val = 8 → q = { r with port := q.port, data := q.data } → r.port.val < q.port.val → og s.dev (0x3E30 + q.port.val) 1 < 0xFFFFFFFE →
          ∃ t, exec (.memoryAccess [r, q]) s = .next t ∧ t.dev.out = s.dev.out ++ [.memory r.port.val 0 0, .memory q.port.val 2 0, .memory q.port.val 0 0] ∧
            (∀ b : Byte, ∀ i, i < 8 → memByte t.mem (w * 8 + i) = (leBytes 8 q.data.toNat).getD i b) ∧
            og t.dev (0x3E30 + q.port.val) 1 = og s.dev (0x3E30 + q.port.val) 1 + 1))) ∧
  (∀ (w b : Nat) (rest : List Nat) (fails : BitVec 16) (on : Bool) (mem : Fin 12) (addr : BitVec 32) (s : State), Settled s →
      (s.dev.memt.scrubs = [] → Idles .scrub s) ∧
      (s.dev.memt.scrubs = w :: rest → og s.dev (0x3E10 + w % 16) 2 < 0xFFFFFFFE → ∃ t, exec .scrub s = .next t ∧ t.dev.memt.scrubs = rest ∧
        t.mem.cells = s.mem.cells ∧ t.mem.bad = s.mem.bad ∧ t.mem.single = s.mem.single.filter (· != w) ∧
        og t.dev (0x3E10 + w % 16) 2 = og s.dev (0x3E10 + w % 16) 2 + 1 ∧ ObjsKept s.dev t.dev [okey (0x3E10 + w % 16) 2]) ∧
      (s.dev.memt.corr ≤ 16 → Does .correctionRateCheck s (fun d => d = { s.dev with memt := { s.dev.memt with corr := 0 } })) ∧
      (16 < s.dev.memt.corr → Calm s.dev 44 → Does .correctionRateCheck s (fun d => d.memt.corr = 0 ∧ og d (0x3840 + 44) 0 = og s.dev (0x3840 + 44) 0 + 1 ∧
        d.fc.nextSeq = s.dev.fc.nextSeq + 1)) ∧
      (ready s.dev 3 = false ∨ og s.dev 0x3E00 1 = 0 ∨ s.dev.memt.testing = true → Idles (.backgroundTestRegion fails) s) ∧
      (ready s.dev 3 = true → og s.dev 0x3E00 1 ≠ 0 → s.dev.memt.testing = false → (∀ i, i < 16 → og s.dev (0x3E10 + i) 1 < 0xFFFFF000) → ∃ d m,
        exec (.backgroundTestRegion fails) s = .next (upd { s with mem := m } (fun _ => d)) ∧ m.cells = s.mem.cells ∧ m.bad = s.mem.bad ∧
        og d 0x3E00 2 = s.dev.memt.ms % 2048 ∧ d.memt.testing = true ∧
        (b < 16 → bit (og s.dev 0x3E00 4) b = false → bit fails.toNat b = true → bit (og d 0x3E00 4) b = true ∧ og d (0x3E10 + b) 4 = s.dev.memt.ms % 2048 ∧
          rep 43 0 (b * 65536 + s.dev.memt.ms % 2048) 0 ∈ d.fc.todo) ∧
        (b < 16 → bit fails.toNat b = false → bit (og d 0x3E00 4) b = bit (og s.dev 0x3E00 4) b) ∧
        (fails = 0 → s.mem.single = [] → d.fc.todo = [] ∧ m = s.mem)) ∧
      (s.dev.memt.testing = false → Idles .regionRestore s) ∧
      (s.dev.memt.testing = true → og s.dev 0x3E00 3 < 0xFFFFFFFE → ∃ t, exec .regionRestore s = .next t ∧ t.mem = s.mem ∧
        t.dev.memt = { s.dev.memt with testing := false, ms := s.dev.memt.ms + 1 } ∧
        og t.dev 0x3E00 3 = og s.dev 0x3E00 3 + (if (s.dev.memt.ms + 1) % 2048 = 0 then 1 else 0) ∧ ObjsKept s.dev t.dev [okey 0x3E00 3]) ∧
      (ready s.dev 0 = false ∨ ready s.dev 1 = false → Answers (.backgroundTestEnable on) s .notReady) ∧
      (ready s.dev 0 = true → ready s.dev 1 = true → Does (.backgroundTestEnable on) s (fun d => og d 0x3E00 1 = b2n on ∧ Writes s.dev d [okey 0x3E00 1] [said .ok])) ∧
      (ready s.dev 3 = false → Answers .fullMemoryTest s .notReady) ∧
      (ready s.dev 3 = true →
        (mode s.dev ≠ 5 → Answers .fullMemoryTest s .state) ∧
        (mode s.dev = 5 → og s.dev 0x3E50 2 = 1 → Answers .fullMemoryTest s .busy) ∧
        (mode s.dev = 5 → og s.dev 0x3E50 2 ≠ 1 → Does .fullMemoryTest s (fun d => og d 0x3E50 2 = 1 ∧ og d 0x3E50 3 = 0 ∧ og d 0x3E50 4 = 0 ∧
          Writes s.dev d [okey 0x3E50 2, okey 0x3E50 3, okey 0x3E50 4] [said .ok]))) ∧
      (og s.dev 0x3E50 2 ≠ 1 → Idles (.fullMemoryTestEnd mem addr) s) ∧
      (og s.dev 0x3E50 2 = 1 → ∃ d, exec (.fullMemoryTestEnd mem addr) s = .next (upd { s with mem := .reset } (fun _ => d)) ∧
        og d 0x3E50 3 = addr.toNat ∧ og d 0x3E50 4 = mem.val ∧ og d 0x3E50 2 = (if mem.val = 0 then 2 else 3) ∧ d.memt.scrubs = [] ∧
        (mem.val = 0 → d.fc.todo = [] ∧ og d 0x3E00 4 = 0 ∧ ∀ i, i < 16 → og d (0x3E10 + i) 4 = 0xFFFF) ∧
        (mem.val = 1 → bit (og d 0x3E00 4) (addr.toNat / 8 % 16) = true ∧ og d (0x3E10 + addr.toNat / 8 % 16) 4 = addr.toNat / 8 / 16 / 32) ∧
        (3 ≤ mem.val → mem.val ≤ 10 → ready d (6 + (mem.val - 3)) = false ∧ bit (og d 0x1011 0) (6 + (mem.val - 3)) = true ∧
          rep 43 0 ((0xFF00 + mem.val) * 65536) 0 ∈ d.fc.todo)))

/-! ## Completion of the pulse-input and pair events -/

/-- The pulse-input events run to their own effect (R154, R156, R162, R163, R527): a first tooth after a restart of the measurement moves the
position by one pitch; standstill time without a tooth makes the speed 0 and restarts the measurement; a level below the threshold, and a
watch time without a tooth, show their fault and are counted by their sources (of an input that feeds no axis; with axes see the statement of
the losses); a restored level clears the fault. -/
def Obligations.PulseInputEventsTakeTheirEffect : Prop :=
  ∀ (i : PIn) (dg width : BitVec 32) (v : Int) (s : State), Settled s →
    (pulseOn s.dev i.val = true → (pls s.dev i.val).waiting = [] → (pls s.dev i.val).lastEdge = none → (pls s.dev i.val).restart = true →
      cg s.dev (0x3D00 + i.val) 0x0D ≠ 1 → v = pulseTime (advance s.dev dg.toNat).time.seg →
      v + cg s.dev (0x3D00 + i.val) 4 + 20 < pulseInstantAt (s.dev.time.kc + 1) → ∃ t, exec (.toothEvent i dg width) s = .next t ∧
        pulsePos t.dev i.val = wrap 64 (pulsePos s.dev i.val + (if (pls s.dev i.val).cmdNeg then -1 else 1) * pitch s.dev i.val) ∧
        (pls t.dev i.val).te = v ∧ (pls t.dev i.val).restart = false ∧ bit (og t.dev (0x3D10 + i.val) 4) 3 = false) ∧
    (pulseOn s.dev i.val = true → standstillTime s.dev i.val ≤ ((pulseTime s.dev.time.seg - (pls s.dev i.val).te : Int) : Rat) →
      ∃ t, exec (.standstillTimeout i) s = .next t ∧ og t.dev (0x3D10 + i.val) 3 = 0 ∧ (pls t.dev i.val).restart = true ∧
        bit (og t.dev (0x3D10 + i.val) 4) 2 = true ∧ bit (og t.dev (0x3D10 + i.val) 4) 3 = true) ∧
    (pulseOn s.dev i.val = true → cg s.dev (0x3D00 + i.val) 2 = 0 → bit (og s.dev (0x3D10 + i.val) 4) 8 = false → fedAxes s.dev i.val = [] →
      Calm s.dev 130 → ∃ t, exec (.pulseInputSignalFault i) s = .next t ∧ bit (og t.dev (0x3D10 + i.val) 4) 8 = true ∧
        og t.dev (0x3840 + 130) 0 = og s.dev (0x3840 + 130) 0 + 1) ∧
    (pulseOn s.dev i.val = true → f32ToRat (ogf s.dev (0x3D00 + i.val) 0x12) ≠ 0 → bit (og s.dev (0x3D10 + i.val) 4) 9 = false →
      instants (og s.dev (0x3D00 + i.val) 0x13) ≤ (pls s.dev i.val).watch → fedAxes s.dev i.val = [] → Calm s.dev 131 →
      ∃ t, exec (.pulseInputLoss i) s = .next t ∧ bit (og t.dev (0x3D10 + i.val) 4) 9 = true ∧
        og t.dev (0x3840 + 131) 0 = og s.dev (0x3840 + 131) 0 + 1) ∧
    (∃ t, exec (.pulseInputSignalRestored i) s = .next t ∧ bit (og t.dev (0x3D10 + i.val) 4) 8 = false)

/-- The events and messages of the pair run to their own effect (R318, R322-R336, R342): each under the conditions the rule gives it, the reports
that come with a lane loss or a failed transfer being calm ones. -/
def Obligations.PairEventsTakeTheirEffect : Prop :=
  ∀ (s : State), Settled s →
    (writeStatus s.dev 0x3C00 1 1 = .ok → pairState s.dev = 0 → ∃ t, exec (.pairEnableWrite true) s = .next t ∧ pairState t.dev = 1 ∧ og t.dev 0x3C00 1 = 1) ∧
    (pairState s.dev = 2 → ready s.dev 31 = true → ∃ t, exec (.pairLinkUp 15) s = .next t ∧ og t.dev 0x3C01 9 = 15 ∧ pairState t.dev = 2) ∧
    (∀ n : Fin 4, og s.dev 0x3C01 9 = 15 → Calm s.dev 163 → ∃ t, exec (.pairLaneLoss n) s = .next t ∧
      og t.dev 0x3C01 9 = (if n.val < 2 then 12 else 3) ∧ og t.dev (0x3840 + 163) 0 = og s.dev (0x3840 + 163) 0 + 1) ∧
    (pairState s.dev = 1 → og s.dev 0x3C01 9 = 0 → s.dev.pair.heardHead = false → s.dev.pair.linkAt + 1000000000 * unitNs ≤ s.dev.time.local_ →
      ∃ t, exec .linkingTimeout s = .next t ∧ pairState t.dev = 2) ∧
    (2 ≤ pairState s.dev → og s.dev 0x3C01 9 ≠ 0 →
      (∀ m : PairingMsg, ∃ t, exec (.pairingMessage true m) s = .next t ∧ t.dev.pair.partner = some m ∧ og t.dev 0x3C00 5 = m.serial.toNat) ∧
      (∀ (k : BitVec 64) (t0 : BitVec 112) (cl st md : BitVec 8), ∃ t, exec (.beacon true k t0 cl st md) s = .next t ∧
        t.dev.pair.last = some ⟨k.toNat, t0.toNat, cl.toNat, st.toNat, md.toNat⟩ ∧ t.dev.pair.missed = 0) ∧
      (∀ (t0 t1 : BitVec 112) (sent : Nat), s.dev.pair.delayT = some sent → ∃ t, exec (.pairDelay true true t0 t1) s = .next t ∧
        og t.dev 0x3C01 0x0A = min 1000 ((timeUnits t1.toNat - sent) / 2 / 65536)) ∧
      (∀ (it : FwdItem) (len : BitVec 32) (ke : BitVec 64), ∃ t, exec (.forward true it len (some ke)) s = .next t ∧
        t.dev.pair.items = s.dev.pair.items ++ [(ke.toNat, it)]) ∧
      (∀ (cyc : BitVec 32) (inp outp : BitVec 64), s.dev.pair.theirs = [] → s.dev.pair.mine = [] → ∃ t, exec (.digests true cyc inp outp) s = .next t ∧
        t.dev.pair.theirs = [(s.dev.time.k / 2 ^ 32 * 2 ^ 32 + cyc.toNat, inp.toNat, outp.toNat)]) ∧
      (∀ (cyc : BitVec 64) (cl : BitVec 8), cyc ≠ 0 → pairState s.dev = 2 ∨ pairState s.dev = 7 → ∃ t, exec (.announce true cyc cl) s = .next t ∧
        t.dev.pair.announced = some (cyc.toNat, cl.toNat + 256)) ∧
      (∀ b, s.dev.pair.last = some b → s.dev.pair.beaconIn = false → s.dev.pair.missed < 3 → og s.dev 0x3C02 9 < 0xFFFFFFFE →
        ∃ t, exec .beaconMissing s = .next t ∧ t.dev.pair.missed = s.dev.pair.missed + 1 ∧ og t.dev 0x3C02 9 = og s.dev 0x3C02 9 + 1)) ∧
    (∀ (g : Seg) (j : BitVec 8) (fp : BitVec 32) (cyc : BitVec 32) (data : Bytes), g.val < 8 → pairedSeg s.dev g.val = true →
      (pairRole s.dev = 2 → (hd s.dev g.val j.toNat).rx.map crc32c = some fp.toNat → ∃ t, exec (.fingerprint true [(BitVec.ofNat 8 g.val, j, fp)]) s = .next t ∧
        tget (fun _ => 2 ^ 32) t.dev.pair.prints (blockKey g.val j.toNat) = fp.toNat) ∧
      (pairRole s.dev = 2 → cyc.toNat = s.dev.time.k % 2 ^ 32 → s.dev.time.kc ≠ s.dev.time.k → data.length = 2 + nodeWinBytes (mould s.dev g.val) j.toNat →
        ∃ t, exec (.block true g j cyc data) s = .next t ∧ (hd t.dev g.val j.toNat).rx = some data) ∧
      (pairRole s.dev = 1 → j ≠ 0 → (hd s.dev g.val j.toNat).rx = some data → data.length ≤ 900 → LinkFree s.dev →
        ∃ t, exec (.blockRequest true [(BitVec.ofNat 8 g.val, j)]) s = .next t ∧
          t.dev.out = s.dev.out ++ [.pair 4 (s.dev.time.k % 2 ^ 32) (leBytes 1 g.val ++ leBytes 1 j.toNat ++ leBytes 2 data.length ++ data)])) ∧
    (∀ es : List (BitVec 8 × BitVec 8), pairRole s.dev = 1 → ∃ t, exec (.exclusions true true es) s = .next t ∧
      t.dev.pair.excl = some (es.map (fun e => (e.1.toNat, e.2.toNat)))) ∧
    (∀ pi : PulseImage, pairRole s.dev = 2 → ∃ t, exec (.localInputs true [pi]) s = .next t ∧ pls t.dev pi.num.val = pi.st ∧
      og t.dev (0x3D10 + pi.num.val) 1 = pi.pe.toNat) ∧
    (∀ (l : Line) (k : FNode) (hdr : BitVec 8) (dev : BitVec 16) (body : Bytes), pairState s.dev ≠ 0 → pairedSeg s.dev (lseg l.val) = true →
      sending s.dev (lseg l.val) = true → linePresent (mould s.dev (lseg l.val)) k.val = true → hdr.toNat % 8 = segCycle s.dev (lseg l.val) % 8 →
      bits hdr.toNat 5 2 = 0 → dev.toInt.natAbs ≤ 320 → body.length = 4 → (hd s.dev (lseg l.val) k.val).slot = none →
      ∃ t, exec (.fieldFrameMessage true l k hdr dev body) s = .next t ∧ (hd t.dev (lseg l.val) k.val).slot = some body) ∧
    (∀ (k : Nat) (c : BitVec 64), s.dev.pair.items = [(k, .chill c)] → k ≤ s.dev.time.k → ∃ t, exec .forwardedItemApply s = .next t ∧
      t.dev.pair.items = [] ∧ og t.dev 0x3510 1 = c.toNat) ∧
    (pairState s.dev = 4 →
      (∀ (n : Ax) (im : AxisImage), im.objs = [] → ∃ t, exec (.stateUnit true (.axis n im)) s = .next t ∧ mot t.dev n.val = im.motion ∧
        t.dev.pair.differ = s.dev.pair.differ.filter (· != 13 + n.val)) ∧
      (∀ (first : BitVec 16) (ds : List (BitVec 64)), s.dev.pair.differ = [] → s.dev.pair.checked + ds.length < unitCount →
        ∃ t, exec (.stateDigests true first ds) s = .next t ∧ t.dev.pair.checked = s.dev.pair.checked + ds.length) ∧
      (s.dev.pair.startedAt + 31250 ≤ s.dev.time.k → og s.dev 0x3C02 5 < 0xFFFFFFFE → Calm s.dev 162 → ∃ t, exec .stateTransferTimeout s = .next t ∧
        pairState t.dev = 3 ∧ og t.dev 0x3C02 5 = og s.dev 0x3C02 5 + 1)) ∧
    (pairState s.dev = 5 → 1024 ≤ og s.dev 0x3C01 7 → ∃ t, exec .inStepCountReached s = .next t ∧ pairState t.dev = 6 ∧
      t.dev.pair.announced = some (s.dev.time.k + 16, og s.dev 0x3C00 2)) ∧
    (∀ k cl, s.dev.pair.announced = some (k, cl) → k ≤ s.dev.time.k + 1 → 1 ≤ cl → cl ≤ 255 → pairState s.dev = 6 → ∃ t, exec .takeoverCycle s = .next t ∧
      pairState t.dev = 7 ∧ t.dev.pair.announced = none) ∧
    (∀ (r : Ring) (c : Chan) (h : BitVec 8) (arr : BitVec 32), pairedSeg s.dev r.val = true → ready s.dev (18 + r.val) = true →
      og s.dev 0x3C00 2 ≤ og s.dev 0x3C01 4 → (∀ p ∈ s.dev.pair.decided, p.1 ≠ 2 * r.val + (if c = .b then 1 else 0)) →
      (if sending s.dev r.val = true then og s.dev 0x3C01 3 else 0) < h.toNat → ∃ t, exec (.partnerSendDecision r c (some h) arr) s = .next t ∧
        t.dev.out = s.dev.out ++ [.passed r.val c]) ∧
    (ready s.dev 31 = true →
      (pairState s.dev = 7 → ∃ t, exec .release s = .next t ∧ t.dev.pair.announced = some (s.dev.time.k + 16, 0) ∧ said .ok ∈ t.dev.out) ∧
      (pairState s.dev = 1 → LinkFree s.dev → ∃ t, exec .repeatPairingChecks s = .next t ∧ said .ok ∈ t.dev.out) ∧
      (∀ v r, pairState s.dev = 1 → mode s.dev = 2 → findRow v.idx.toNat v.sub.toNat = some r → r.ty.isBlob = false → adopts v.idx.toNat v.sub.toNat = true →
        isMould (okey v.idx.toNat v.sub.toNat) = false → ∃ t, exec (.adoptConfiguration [v]) s = .next t ∧ og t.dev v.idx.toNat v.sub.toNat = ofLe v.val))

/-! ## Statements of single rules -/

/-- R31. A sessionless read of an RO object is answered as in a session, or "not ready" while its owner is not; one of an object of another
class answers "session required" and changes nothing. A read or write whose session is not known, not open or whose tag is not its
session's changes no object but the counters of 0x2F20 and is answered by a message status alone, if at all. -/
def Obligations.ReadsOfRoObjectsNeedNoSession : Prop :=
  ∀ (p : Port) (h : Kda) (idx : BitVec 16) (sub : BitVec 8) (total offset : BitVec 32) (max : BitVec 16) (data : Bytes)
    (rs : List RdItem) (ws : List WrItem) (r : Row) (s : State), Settled s → linkUp s.dev p = true →
    (h.session = 0 → findRow idx.toNat sub.toNat = some r → r.acc = .ro → isLive r idx.toNat sub.toNat = false ∨ ready s.dev (ownerBit s.dev idx.toNat) = true →
      let x := readValue s r idx.toNat sub.toNat
      x.2.length ≤ 1400 → exec (.dictionaryRead p h [⟨idx, sub, 0⟩]) s = .next (upd x.1 (fun d =>
        sendBare d p 0x20 0 h.reqId.toNat (itemsBody 1 (itemHead idx.toNat sub.toNat 0 x.2.length ++ x.2))))) ∧
    (h.session = 0 → findRow idx.toNat sub.toNat = some r → r.acc = .ro → isLive r idx.toNat sub.toNat = true → ready s.dev (ownerBit s.dev idx.toNat) = false →
      Does (.dictionaryRead p h [⟨idx, sub, 0⟩]) s (fun d => d = { s.dev with out := s.dev.out ++ [.datagram p 0 0x20
        (kdaHeader 0x20 1 0 0 0 h.reqId.toNat 8 ++ itemsBody 1 (itemHead idx.toNat sub.toNat (statusCode .notReady) 0))] })) ∧
    (h.session = 0 → findRow idx.toNat sub.toNat = some r → r.acc ≠ .ro →
      Does (.dictionaryRead p h [⟨idx, sub, 0⟩]) s (fun d => d = { s.dev with out := s.dev.out ++ [.datagram p 0 0x20
        (kdaHeader 0x20 1 0 0 0 h.reqId.toNat 8 ++ itemsBody 1 (itemHead idx.toNat sub.toNat (statusCode .session) 0))] })) ∧
    (Unauthenticated s h 0x21 (writeBody ws) → Rejected (.dictionaryWrite p h ws) s p 0x21 h) ∧
    (Unauthenticated s h 0x23 (segBody idx.toNat sub.toNat 1 total.toNat 0 []) → Rejected (.segmentedBegin p h idx sub total) s p 0x23 h) ∧
    (Unauthenticated s h 0x23 (segBody idx.toNat sub.toNat 2 total.toNat offset.toNat data) →
      Rejected (.segmentedData p h idx sub total offset data) s p 0x23 h) ∧
    (Unauthenticated s h 0x23 (segBody idx.toNat sub.toNat 3 total.toNat 0 []) → Rejected (.segmentedEnd p h idx sub total) s p 0x23 h) ∧
    (Unauthenticated s h 0x23 (segBody idx.toNat sub.toNat 4 total.toNat 0 []) → Rejected (.segmentedAbort p h idx sub total) s p 0x23 h) ∧
    (h.session ≠ 0 → Unauthenticated s h 0x20 (readBody rs) → Rejected (.dictionaryRead p h rs) s p 0x20 h) ∧
    (h.session ≠ 0 → Unauthenticated s h 0x22 (leBytes 2 idx.toNat ++ leBytes 1 sub.toNat ++ leBytes 1 0 ++ leBytes 4 offset.toNat ++ leBytes 2 max.toNat) →
      Rejected (.segmentedRead p h idx sub offset max) s p 0x22 h)

/-- R473. A session ends at its close message, after its idle timeout and at a chip reset, and nothing of it is left: no lease, no
subscription, no transfer, and no other session changes. The close of a commissioning session reaches the island as R370 says; any other
close leaves it alone. -/
def Obligations.SessionsEndWithAllTheyHold : Prop :=
  ∀ (p : Port) (h : Kda) (id : BitVec 32) (src : Src) (cause : BitVec 16) (datum : BitVec 32) (x : Session) (s : State), Settled s →
    (Accepted s p h 0x14 [] x → ∃ u, SessionGone s u x.id ∧ u.isl = s.isl ∧ (u.dev.out = s.dev.out ++ [response p x 0x14 0 h.reqId.toNat []]) ∧
      exec (.sessionClose p h) s = .next (if x.comm then closeCommission u else u)) ∧
    (findSession s.dev id.toNat = some x → x.isOpen = true → ∃ u, SessionGone s u id.toNat ∧ u.isl = s.isl ∧
      exec (.sessionIdleTimeout id) s = .next (if x.comm then closeCommission u else u)) ∧
    (ready s.dev 2 = true → 1 ≤ mode s.dev → reservedSource src.val = false → live s.dev src.val = false →
      (8 ≤ src.val → src.val ≤ 15 → bit (og s.dev 0x2010 1) (src.val - 8) = true) →
      bit (og s.dev (0x3900 + src.val) 1) 1 = false → bit (og s.dev (0x3900 + src.val) 1) 2 = false →
      bit (og s.dev (0x3900 + src.val) 1) 3 = true → ∃ t, exec (.sourceAssertion src cause datum) s = .next t ∧
        t.dev.host.sessions = [] ∧ t.dev.host.lease = 0)

/-- R495. In differential mode an enabled pulse input switches in 120 Ω without pair enable and 240 Ω with it, two of which in parallel are
120 Ω; in the other modes and while it is disabled it switches in none. Before the parameters are read the pins are in their Bring-up
state (R497). -/
def Obligations.PulseInputsTerminateDifferentialPairs : Prop :=
  ∀ (i : PIn) (d : Dev), d.power.powered = true → paramsDone d = true →
    (og d (0x3D00 + i.val) 1 = 1 → og d (0x3D00 + i.val) 2 = 0 → og d 0x3C00 1 = 0 → fbTermination d i = some 120) ∧
    (og d (0x3D00 + i.val) 1 = 1 → og d (0x3D00 + i.val) 2 = 0 → og d 0x3C00 1 = 1 → fbTermination d i = some 240 ∧ (240 * 240) / (240 + 240) = 120) ∧
    (og d (0x3D00 + i.val) 2 ≠ 0 → fbTermination d i = none) ∧
    (og d (0x3D00 + i.val) 1 = 0 → fbTermination d i = none)
end

