-- ==== Sys2Proof/Laws/Bits.lean ====
section
/-! SUPPORT. Reading a bit after a bit of the same number was set or cleared. -/
namespace Sys2Proof.Machine

theorem bit_eq_testBit (v n : Nat) : bit v n = v.testBit n := by
  rw [bit, Nat.testBit_eq_decide_div_mod_eq, Nat.shiftRight_eq_div_pow]

/-- A number split at a bit: what lies above, the bit, and what lies below. -/
theorem split_at (v n : Nat) : v = 2 ^ n * (2 * (v / 2 ^ (n + 1)) + v / 2 ^ n % 2) + v % 2 ^ n := by
  have h1 : v / 2 ^ (n + 1) = v / 2 ^ n / 2 := by rw [pow_succ, Nat.div_div_eq_div_mul]
  have h2 := Nat.div_add_mod v (2 ^ n)
  have h3 := Nat.div_add_mod (v / 2 ^ n) 2
  rw [h1, h3, h2]

theorem testBit_split (q r n c : Nat) (b : Nat) (hb : b < 2) (hr : r < 2 ^ n) :
    (2 ^ n * (2 * q + b) + r).testBit c = if c < n then r.testBit c else if c = n then decide (b = 1) else q.testBit (c - n - 1) := by
  rw [Nat.testBit_two_pow_mul_add _ hr]
  by_cases h : c < n
  · simp [h]
  · simp only [h, if_false]
    by_cases e : c = n
    · subst e
      rw [Nat.sub_self, Nat.testBit_zero]
      have : (2 * q + b) % 2 = b := by omega
      simp [this]
    · obtain ⟨k, hk⟩ : ∃ k, c - n = k + 1 := ⟨c - n - 1, by omega⟩
      rw [hk, Nat.testBit_succ, if_neg e]
      have : (2 * q + b) / 2 = q := by omega
      rw [this]; simp

/-- A bit of a number after one bit of it was written. -/
theorem bit_setBit (v n c : Nat) (x : Bool) : bit (setBit v n x) c = if c = n then x else bit v c := by
  simp only [bit_eq_testBit, setBit]
  have hs := split_at v n
  have hr : v % 2 ^ n < 2 ^ n := Nat.mod_lt _ (by positivity)
  generalize v / 2 ^ (n + 1) = q at hs
  generalize v % 2 ^ n = r at hs hr
  have hb : v / 2 ^ n % 2 < 2 := Nat.mod_lt _ (by omega)
  have hbit : v.testBit n = decide (v / 2 ^ n % 2 = 1) := Nat.testBit_eq_decide_div_mod_eq
  generalize v / 2 ^ n % 2 = b at hs hb hbit
  by_cases h : v.testBit n = x
  · simp only [h, if_true]
    by_cases e : c = n
    · simp [e, h]
    · simp [e]
  · rw [if_neg h]
    cases x with
    | true =>
      have hb0 : b = 0 := by
        rcases (by omega : b = 0 ∨ b = 1) with e | e
        · exact e
        · simp [hbit, e] at h
      subst hb0
      have hw : v + 2 ^ n = 2 ^ n * (2 * q + 1) + r := by rw [hs]; ring
      simp only [if_true]
      rw [hw, testBit_split q r n c 1 (by omega) hr]
      conv_rhs => rw [hs, testBit_split q r n c 0 (by omega) hr]
      by_cases l : c < n
      · have : c ≠ n := by omega
        simp [l, this]
      · by_cases e : c = n <;> simp [l, e]
    | false =>
      have hb1 : b = 1 := by
        rcases (by omega : b = 0 ∨ b = 1) with e | e
        · simp [hbit, e] at h
        · exact e
      subst hb1
      have hw : v - 2 ^ n = 2 ^ n * (2 * q + 0) + r := by
        rw [hs]
        have : 2 ^ n * (2 * q + 1) + r = 2 ^ n * (2 * q + 0) + r + 2 ^ n := by ring
        omega
      simp only [Bool.false_eq_true, if_false]
      rw [hw, testBit_split q r n c 0 (by omega) hr]
      conv_rhs => rw [hs, testBit_split q r n c 1 (by omega) hr]
      by_cases l : c < n
      · have : c ≠ n := by omega
        simp [l, this]
      · by_cases e : c = n <;> simp [l, e]

end Sys2Proof.Machine
end

