-- ==== Sys2Proof/Laws/State.lean ====
section
/-! SUPPORT. Reading a field of the device after an update of another: one lemma per field and update, true by definition. -/
namespace Sys2Proof.Machine

/-! Fields after `os`. -/
@[simp] theorem os_blobs (d : Dev) (i b v : Nat) : (os d i b v).blobs = d.blobs := rfl
@[simp] theorem os_inForce (d : Dev) (i b v : Nat) : (os d i b v).inForce = d.inForce := rfl
@[simp] theorem os_fc (d : Dev) (i b v : Nat) : (os d i b v).fc = d.fc := rfl
@[simp] theorem os_power (d : Dev) (i b v : Nat) : (os d i b v).power = d.power := rfl
@[simp] theorem os_key (d : Dev) (i b v : Nat) : (os d i b v).key = d.key := rfl
@[simp] theorem os_mgmt (d : Dev) (i b v : Nat) : (os d i b v).mgmt = d.mgmt := rfl
@[simp] theorem os_host (d : Dev) (i b v : Nat) : (os d i b v).host = d.host := rfl
@[simp] theorem os_time (d : Dev) (i b v : Nat) : (os d i b v).time = d.time := rfl
@[simp] theorem os_motion (d : Dev) (i b v : Nat) : (os d i b v).motion = d.motion := rfl
@[simp] theorem os_servo (d : Dev) (i b v : Nat) : (os d i b v).servo = d.servo := rfl
@[simp] theorem os_current (d : Dev) (i b v : Nat) : (os d i b v).current = d.current := rfl
@[simp] theorem os_stepper (d : Dev) (i b v : Nat) : (os d i b v).stepper = d.stepper := rfl
@[simp] theorem os_chans (d : Dev) (i b v : Nat) : (os d i b v).chans = d.chans := rfl
@[simp] theorem os_frames (d : Dev) (i b v : Nat) : (os d i b v).frames = d.frames := rfl
@[simp] theorem os_pulse (d : Dev) (i b v : Nat) : (os d i b v).pulse = d.pulse := rfl
@[simp] theorem os_emu (d : Dev) (i b v : Nat) : (os d i b v).emu = d.emu := rfl
@[simp] theorem os_segs (d : Dev) (i b v : Nat) : (os d i b v).segs = d.segs := rfl
@[simp] theorem os_heads (d : Dev) (i b v : Nat) : (os d i b v).heads = d.heads := rfl
@[simp] theorem os_pdus (d : Dev) (i b v : Nat) : (os d i b v).pdus = d.pdus := rfl
@[simp] theorem os_pdus1 (d : Dev) (i b v : Nat) : (os d i b v).pdus1 = d.pdus1 := rfl
@[simp] theorem os_pdus2 (d : Dev) (i b v : Nat) : (os d i b v).pdus2 = d.pdus2 := rfl
@[simp] theorem os_shadow (d : Dev) (i b v : Nat) : (os d i b v).shadow = d.shadow := rfl
@[simp] theorem os_pads (d : Dev) (i b v : Nat) : (os d i b v).pads = d.pads := rfl
@[simp] theorem os_memt (d : Dev) (i b v : Nat) : (os d i b v).memt = d.memt := rfl
@[simp] theorem os_acq (d : Dev) (i b v : Nat) : (os d i b v).acq = d.acq := rfl
@[simp] theorem os_pair (d : Dev) (i b v : Nat) : (os d i b v).pair = d.pair := rfl
@[simp] theorem os_free (d : Dev) (i b v : Nat) : (os d i b v).free = d.free := rfl
@[simp] theorem os_out (d : Dev) (i b v : Nat) : (os d i b v).out = d.out := rfl

/-! Fields after `osb`. -/
@[simp] theorem osb_blobs (d : Dev) (i b c : Nat) (v : Bool) : (osb d i b c v).blobs = d.blobs := rfl
@[simp] theorem osb_inForce (d : Dev) (i b c : Nat) (v : Bool) : (osb d i b c v).inForce = d.inForce := rfl
@[simp] theorem osb_fc (d : Dev) (i b c : Nat) (v : Bool) : (osb d i b c v).fc = d.fc := rfl
@[simp] theorem osb_power (d : Dev) (i b c : Nat) (v : Bool) : (osb d i b c v).power = d.power := rfl
@[simp] theorem osb_key (d : Dev) (i b c : Nat) (v : Bool) : (osb d i b c v).key = d.key := rfl
@[simp] theorem osb_mgmt (d : Dev) (i b c : Nat) (v : Bool) : (osb d i b c v).mgmt = d.mgmt := rfl
@[simp] theorem osb_host (d : Dev) (i b c : Nat) (v : Bool) : (osb d i b c v).host = d.host := rfl
@[simp] theorem osb_time (d : Dev) (i b c : Nat) (v : Bool) : (osb d i b c v).time = d.time := rfl
@[simp] theorem osb_motion (d : Dev) (i b c : Nat) (v : Bool) : (osb d i b c v).motion = d.motion := rfl
@[simp] theorem osb_servo (d : Dev) (i b c : Nat) (v : Bool) : (osb d i b c v).servo = d.servo := rfl
@[simp] theorem osb_current (d : Dev) (i b c : Nat) (v : Bool) : (osb d i b c v).current = d.current := rfl
@[simp] theorem osb_stepper (d : Dev) (i b c : Nat) (v : Bool) : (osb d i b c v).stepper = d.stepper := rfl
@[simp] theorem osb_chans (d : Dev) (i b c : Nat) (v : Bool) : (osb d i b c v).chans = d.chans := rfl
@[simp] theorem osb_frames (d : Dev) (i b c : Nat) (v : Bool) : (osb d i b c v).frames = d.frames := rfl
@[simp] theorem osb_pulse (d : Dev) (i b c : Nat) (v : Bool) : (osb d i b c v).pulse = d.pulse := rfl
@[simp] theorem osb_emu (d : Dev) (i b c : Nat) (v : Bool) : (osb d i b c v).emu = d.emu := rfl
@[simp] theorem osb_segs (d : Dev) (i b c : Nat) (v : Bool) : (osb d i b c v).segs = d.segs := rfl
@[simp] theorem osb_heads (d : Dev) (i b c : Nat) (v : Bool) : (osb d i b c v).heads = d.heads := rfl
@[simp] theorem osb_pdus (d : Dev) (i b c : Nat) (v : Bool) : (osb d i b c v).pdus = d.pdus := rfl
@[simp] theorem osb_pdus1 (d : Dev) (i b c : Nat) (v : Bool) : (osb d i b c v).pdus1 = d.pdus1 := rfl
@[simp] theorem osb_pdus2 (d : Dev) (i b c : Nat) (v : Bool) : (osb d i b c v).pdus2 = d.pdus2 := rfl
@[simp] theorem osb_shadow (d : Dev) (i b c : Nat) (v : Bool) : (osb d i b c v).shadow = d.shadow := rfl
@[simp] theorem osb_pads (d : Dev) (i b c : Nat) (v : Bool) : (osb d i b c v).pads = d.pads := rfl
@[simp] theorem osb_memt (d : Dev) (i b c : Nat) (v : Bool) : (osb d i b c v).memt = d.memt := rfl
@[simp] theorem osb_acq (d : Dev) (i b c : Nat) (v : Bool) : (osb d i b c v).acq = d.acq := rfl
@[simp] theorem osb_pair (d : Dev) (i b c : Nat) (v : Bool) : (osb d i b c v).pair = d.pair := rfl
@[simp] theorem osb_free (d : Dev) (i b c : Nat) (v : Bool) : (osb d i b c v).free = d.free := rfl
@[simp] theorem osb_out (d : Dev) (i b c : Nat) (v : Bool) : (osb d i b c v).out = d.out := rfl

/-! Fields after `osf`. -/
@[simp] theorem osf_blobs (d : Dev) (i b : Nat) (v : F32) : (osf d i b v).blobs = d.blobs := rfl
@[simp] theorem osf_inForce (d : Dev) (i b : Nat) (v : F32) : (osf d i b v).inForce = d.inForce := rfl
@[simp] theorem osf_fc (d : Dev) (i b : Nat) (v : F32) : (osf d i b v).fc = d.fc := rfl
@[simp] theorem osf_power (d : Dev) (i b : Nat) (v : F32) : (osf d i b v).power = d.power := rfl
@[simp] theorem osf_key (d : Dev) (i b : Nat) (v : F32) : (osf d i b v).key = d.key := rfl
@[simp] theorem osf_mgmt (d : Dev) (i b : Nat) (v : F32) : (osf d i b v).mgmt = d.mgmt := rfl
@[simp] theorem osf_host (d : Dev) (i b : Nat) (v : F32) : (osf d i b v).host = d.host := rfl
@[simp] theorem osf_time (d : Dev) (i b : Nat) (v : F32) : (osf d i b v).time = d.time := rfl
@[simp] theorem osf_motion (d : Dev) (i b : Nat) (v : F32) : (osf d i b v).motion = d.motion := rfl
@[simp] theorem osf_servo (d : Dev) (i b : Nat) (v : F32) : (osf d i b v).servo = d.servo := rfl
@[simp] theorem osf_current (d : Dev) (i b : Nat) (v : F32) : (osf d i b v).current = d.current := rfl
@[simp] theorem osf_stepper (d : Dev) (i b : Nat) (v : F32) : (osf d i b v).stepper = d.stepper := rfl
@[simp] theorem osf_chans (d : Dev) (i b : Nat) (v : F32) : (osf d i b v).chans = d.chans := rfl
@[simp] theorem osf_frames (d : Dev) (i b : Nat) (v : F32) : (osf d i b v).frames = d.frames := rfl
@[simp] theorem osf_pulse (d : Dev) (i b : Nat) (v : F32) : (osf d i b v).pulse = d.pulse := rfl
@[simp] theorem osf_emu (d : Dev) (i b : Nat) (v : F32) : (osf d i b v).emu = d.emu := rfl
@[simp] theorem osf_segs (d : Dev) (i b : Nat) (v : F32) : (osf d i b v).segs = d.segs := rfl
@[simp] theorem osf_heads (d : Dev) (i b : Nat) (v : F32) : (osf d i b v).heads = d.heads := rfl
@[simp] theorem osf_pdus (d : Dev) (i b : Nat) (v : F32) : (osf d i b v).pdus = d.pdus := rfl
@[simp] theorem osf_pdus1 (d : Dev) (i b : Nat) (v : F32) : (osf d i b v).pdus1 = d.pdus1 := rfl
@[simp] theorem osf_pdus2 (d : Dev) (i b : Nat) (v : F32) : (osf d i b v).pdus2 = d.pdus2 := rfl
@[simp] theorem osf_shadow (d : Dev) (i b : Nat) (v : F32) : (osf d i b v).shadow = d.shadow := rfl
@[simp] theorem osf_pads (d : Dev) (i b : Nat) (v : F32) : (osf d i b v).pads = d.pads := rfl
@[simp] theorem osf_memt (d : Dev) (i b : Nat) (v : F32) : (osf d i b v).memt = d.memt := rfl
@[simp] theorem osf_acq (d : Dev) (i b : Nat) (v : F32) : (osf d i b v).acq = d.acq := rfl
@[simp] theorem osf_pair (d : Dev) (i b : Nat) (v : F32) : (osf d i b v).pair = d.pair := rfl
@[simp] theorem osf_free (d : Dev) (i b : Nat) (v : F32) : (osf d i b v).free = d.free := rfl
@[simp] theorem osf_out (d : Dev) (i b : Nat) (v : F32) : (osf d i b v).out = d.out := rfl

/-! Fields after `obs`. -/
@[simp] theorem obs_objs (d : Dev) (i b : Nat) (v : Bytes) : (obs d i b v).objs = d.objs := rfl
@[simp] theorem obs_inForce (d : Dev) (i b : Nat) (v : Bytes) : (obs d i b v).inForce = d.inForce := rfl
@[simp] theorem obs_fc (d : Dev) (i b : Nat) (v : Bytes) : (obs d i b v).fc = d.fc := rfl
@[simp] theorem obs_power (d : Dev) (i b : Nat) (v : Bytes) : (obs d i b v).power = d.power := rfl
@[simp] theorem obs_key (d : Dev) (i b : Nat) (v : Bytes) : (obs d i b v).key = d.key := rfl
@[simp] theorem obs_mgmt (d : Dev) (i b : Nat) (v : Bytes) : (obs d i b v).mgmt = d.mgmt := rfl
@[simp] theorem obs_host (d : Dev) (i b : Nat) (v : Bytes) : (obs d i b v).host = d.host := rfl
@[simp] theorem obs_time (d : Dev) (i b : Nat) (v : Bytes) : (obs d i b v).time = d.time := rfl
@[simp] theorem obs_motion (d : Dev) (i b : Nat) (v : Bytes) : (obs d i b v).motion = d.motion := rfl
@[simp] theorem obs_servo (d : Dev) (i b : Nat) (v : Bytes) : (obs d i b v).servo = d.servo := rfl
@[simp] theorem obs_current (d : Dev) (i b : Nat) (v : Bytes) : (obs d i b v).current = d.current := rfl
@[simp] theorem obs_stepper (d : Dev) (i b : Nat) (v : Bytes) : (obs d i b v).stepper = d.stepper := rfl
@[simp] theorem obs_chans (d : Dev) (i b : Nat) (v : Bytes) : (obs d i b v).chans = d.chans := rfl
@[simp] theorem obs_frames (d : Dev) (i b : Nat) (v : Bytes) : (obs d i b v).frames = d.frames := rfl
@[simp] theorem obs_pulse (d : Dev) (i b : Nat) (v : Bytes) : (obs d i b v).pulse = d.pulse := rfl
@[simp] theorem obs_emu (d : Dev) (i b : Nat) (v : Bytes) : (obs d i b v).emu = d.emu := rfl
@[simp] theorem obs_segs (d : Dev) (i b : Nat) (v : Bytes) : (obs d i b v).segs = d.segs := rfl
@[simp] theorem obs_heads (d : Dev) (i b : Nat) (v : Bytes) : (obs d i b v).heads = d.heads := rfl
@[simp] theorem obs_pdus (d : Dev) (i b : Nat) (v : Bytes) : (obs d i b v).pdus = d.pdus := rfl
@[simp] theorem obs_pdus1 (d : Dev) (i b : Nat) (v : Bytes) : (obs d i b v).pdus1 = d.pdus1 := rfl
@[simp] theorem obs_pdus2 (d : Dev) (i b : Nat) (v : Bytes) : (obs d i b v).pdus2 = d.pdus2 := rfl
@[simp] theorem obs_shadow (d : Dev) (i b : Nat) (v : Bytes) : (obs d i b v).shadow = d.shadow := rfl
@[simp] theorem obs_pads (d : Dev) (i b : Nat) (v : Bytes) : (obs d i b v).pads = d.pads := rfl
@[simp] theorem obs_memt (d : Dev) (i b : Nat) (v : Bytes) : (obs d i b v).memt = d.memt := rfl
@[simp] theorem obs_acq (d : Dev) (i b : Nat) (v : Bytes) : (obs d i b v).acq = d.acq := rfl
@[simp] theorem obs_pair (d : Dev) (i b : Nat) (v : Bytes) : (obs d i b v).pair = d.pair := rfl
@[simp] theorem obs_free (d : Dev) (i b : Nat) (v : Bytes) : (obs d i b v).free = d.free := rfl
@[simp] theorem obs_out (d : Dev) (i b : Nat) (v : Bytes) : (obs d i b v).out = d.out := rfl

/-! Fields after `setMot`. -/
@[simp] theorem setMot_objs (d : Dev) (n : Nat) (m : MotionSt) : (setMot d n m).objs = d.objs := rfl
@[simp] theorem setMot_blobs (d : Dev) (n : Nat) (m : MotionSt) : (setMot d n m).blobs = d.blobs := rfl
@[simp] theorem setMot_inForce (d : Dev) (n : Nat) (m : MotionSt) : (setMot d n m).inForce = d.inForce := rfl
@[simp] theorem setMot_fc (d : Dev) (n : Nat) (m : MotionSt) : (setMot d n m).fc = d.fc := rfl
@[simp] theorem setMot_power (d : Dev) (n : Nat) (m : MotionSt) : (setMot d n m).power = d.power := rfl
@[simp] theorem setMot_key (d : Dev) (n : Nat) (m : MotionSt) : (setMot d n m).key = d.key := rfl
@[simp] theorem setMot_mgmt (d : Dev) (n : Nat) (m : MotionSt) : (setMot d n m).mgmt = d.mgmt := rfl
@[simp] theorem setMot_host (d : Dev) (n : Nat) (m : MotionSt) : (setMot d n m).host = d.host := rfl
@[simp] theorem setMot_time (d : Dev) (n : Nat) (m : MotionSt) : (setMot d n m).time = d.time := rfl
@[simp] theorem setMot_servo (d : Dev) (n : Nat) (m : MotionSt) : (setMot d n m).servo = d.servo := rfl
@[simp] theorem setMot_current (d : Dev) (n : Nat) (m : MotionSt) : (setMot d n m).current = d.current := rfl
@[simp] theorem setMot_stepper (d : Dev) (n : Nat) (m : MotionSt) : (setMot d n m).stepper = d.stepper := rfl
@[simp] theorem setMot_chans (d : Dev) (n : Nat) (m : MotionSt) : (setMot d n m).chans = d.chans := rfl
@[simp] theorem setMot_frames (d : Dev) (n : Nat) (m : MotionSt) : (setMot d n m).frames = d.frames := rfl
@[simp] theorem setMot_pulse (d : Dev) (n : Nat) (m : MotionSt) : (setMot d n m).pulse = d.pulse := rfl
@[simp] theorem setMot_emu (d : Dev) (n : Nat) (m : MotionSt) : (setMot d n m).emu = d.emu := rfl
@[simp] theorem setMot_segs (d : Dev) (n : Nat) (m : MotionSt) : (setMot d n m).segs = d.segs := rfl
@[simp] theorem setMot_heads (d : Dev) (n : Nat) (m : MotionSt) : (setMot d n m).heads = d.heads := rfl
@[simp] theorem setMot_pdus (d : Dev) (n : Nat) (m : MotionSt) : (setMot d n m).pdus = d.pdus := rfl
@[simp] theorem setMot_pdus1 (d : Dev) (n : Nat) (m : MotionSt) : (setMot d n m).pdus1 = d.pdus1 := rfl
@[simp] theorem setMot_pdus2 (d : Dev) (n : Nat) (m : MotionSt) : (setMot d n m).pdus2 = d.pdus2 := rfl
@[simp] theorem setMot_shadow (d : Dev) (n : Nat) (m : MotionSt) : (setMot d n m).shadow = d.shadow := rfl
@[simp] theorem setMot_pads (d : Dev) (n : Nat) (m : MotionSt) : (setMot d n m).pads = d.pads := rfl
@[simp] theorem setMot_memt (d : Dev) (n : Nat) (m : MotionSt) : (setMot d n m).memt = d.memt := rfl
@[simp] theorem setMot_acq (d : Dev) (n : Nat) (m : MotionSt) : (setMot d n m).acq = d.acq := rfl
@[simp] theorem setMot_pair (d : Dev) (n : Nat) (m : MotionSt) : (setMot d n m).pair = d.pair := rfl
@[simp] theorem setMot_free (d : Dev) (n : Nat) (m : MotionSt) : (setMot d n m).free = d.free := rfl
@[simp] theorem setMot_out (d : Dev) (n : Nat) (m : MotionSt) : (setMot d n m).out = d.out := rfl

/-! Fields after `setSrv`. -/
@[simp] theorem setSrv_objs (d : Dev) (n : Nat) (m : ServoSt) : (setSrv d n m).objs = d.objs := rfl
@[simp] theorem setSrv_blobs (d : Dev) (n : Nat) (m : ServoSt) : (setSrv d n m).blobs = d.blobs := rfl
@[simp] theorem setSrv_inForce (d : Dev) (n : Nat) (m : ServoSt) : (setSrv d n m).inForce = d.inForce := rfl
@[simp] theorem setSrv_fc (d : Dev) (n : Nat) (m : ServoSt) : (setSrv d n m).fc = d.fc := rfl
@[simp] theorem setSrv_power (d : Dev) (n : Nat) (m : ServoSt) : (setSrv d n m).power = d.power := rfl
@[simp] theorem setSrv_key (d : Dev) (n : Nat) (m : ServoSt) : (setSrv d n m).key = d.key := rfl
@[simp] theorem setSrv_mgmt (d : Dev) (n : Nat) (m : ServoSt) : (setSrv d n m).mgmt = d.mgmt := rfl
@[simp] theorem setSrv_host (d : Dev) (n : Nat) (m : ServoSt) : (setSrv d n m).host = d.host := rfl
@[simp] theorem setSrv_time (d : Dev) (n : Nat) (m : ServoSt) : (setSrv d n m).time = d.time := rfl
@[simp] theorem setSrv_motion (d : Dev) (n : Nat) (m : ServoSt) : (setSrv d n m).motion = d.motion := rfl
@[simp] theorem setSrv_current (d : Dev) (n : Nat) (m : ServoSt) : (setSrv d n m).current = d.current := rfl
@[simp] theorem setSrv_stepper (d : Dev) (n : Nat) (m : ServoSt) : (setSrv d n m).stepper = d.stepper := rfl
@[simp] theorem setSrv_chans (d : Dev) (n : Nat) (m : ServoSt) : (setSrv d n m).chans = d.chans := rfl
@[simp] theorem setSrv_frames (d : Dev) (n : Nat) (m : ServoSt) : (setSrv d n m).frames = d.frames := rfl
@[simp] theorem setSrv_pulse (d : Dev) (n : Nat) (m : ServoSt) : (setSrv d n m).pulse = d.pulse := rfl
@[simp] theorem setSrv_emu (d : Dev) (n : Nat) (m : ServoSt) : (setSrv d n m).emu = d.emu := rfl
@[simp] theorem setSrv_segs (d : Dev) (n : Nat) (m : ServoSt) : (setSrv d n m).segs = d.segs := rfl
@[simp] theorem setSrv_heads (d : Dev) (n : Nat) (m : ServoSt) : (setSrv d n m).heads = d.heads := rfl
@[simp] theorem setSrv_pdus (d : Dev) (n : Nat) (m : ServoSt) : (setSrv d n m).pdus = d.pdus := rfl
@[simp] theorem setSrv_pdus1 (d : Dev) (n : Nat) (m : ServoSt) : (setSrv d n m).pdus1 = d.pdus1 := rfl
@[simp] theorem setSrv_pdus2 (d : Dev) (n : Nat) (m : ServoSt) : (setSrv d n m).pdus2 = d.pdus2 := rfl
@[simp] theorem setSrv_shadow (d : Dev) (n : Nat) (m : ServoSt) : (setSrv d n m).shadow = d.shadow := rfl
@[simp] theorem setSrv_pads (d : Dev) (n : Nat) (m : ServoSt) : (setSrv d n m).pads = d.pads := rfl
@[simp] theorem setSrv_memt (d : Dev) (n : Nat) (m : ServoSt) : (setSrv d n m).memt = d.memt := rfl
@[simp] theorem setSrv_acq (d : Dev) (n : Nat) (m : ServoSt) : (setSrv d n m).acq = d.acq := rfl
@[simp] theorem setSrv_pair (d : Dev) (n : Nat) (m : ServoSt) : (setSrv d n m).pair = d.pair := rfl
@[simp] theorem setSrv_free (d : Dev) (n : Nat) (m : ServoSt) : (setSrv d n m).free = d.free := rfl
@[simp] theorem setSrv_out (d : Dev) (n : Nat) (m : ServoSt) : (setSrv d n m).out = d.out := rfl

/-! Fields after `setCur`. -/
@[simp] theorem setCur_objs (d : Dev) (n : Nat) (m : CurrentSt) : (setCur d n m).objs = d.objs := rfl
@[simp] theorem setCur_blobs (d : Dev) (n : Nat) (m : CurrentSt) : (setCur d n m).blobs = d.blobs := rfl
@[simp] theorem setCur_inForce (d : Dev) (n : Nat) (m : CurrentSt) : (setCur d n m).inForce = d.inForce := rfl
@[simp] theorem setCur_fc (d : Dev) (n : Nat) (m : CurrentSt) : (setCur d n m).fc = d.fc := rfl
@[simp] theorem setCur_power (d : Dev) (n : Nat) (m : CurrentSt) : (setCur d n m).power = d.power := rfl
@[simp] theorem setCur_key (d : Dev) (n : Nat) (m : CurrentSt) : (setCur d n m).key = d.key := rfl
@[simp] theorem setCur_mgmt (d : Dev) (n : Nat) (m : CurrentSt) : (setCur d n m).mgmt = d.mgmt := rfl
@[simp] theorem setCur_host (d : Dev) (n : Nat) (m : CurrentSt) : (setCur d n m).host = d.host := rfl
@[simp] theorem setCur_time (d : Dev) (n : Nat) (m : CurrentSt) : (setCur d n m).time = d.time := rfl
@[simp] theorem setCur_motion (d : Dev) (n : Nat) (m : CurrentSt) : (setCur d n m).motion = d.motion := rfl
@[simp] theorem setCur_servo (d : Dev) (n : Nat) (m : CurrentSt) : (setCur d n m).servo = d.servo := rfl
@[simp] theorem setCur_stepper (d : Dev) (n : Nat) (m : CurrentSt) : (setCur d n m).stepper = d.stepper := rfl
@[simp] theorem setCur_chans (d : Dev) (n : Nat) (m : CurrentSt) : (setCur d n m).chans = d.chans := rfl
@[simp] theorem setCur_frames (d : Dev) (n : Nat) (m : CurrentSt) : (setCur d n m).frames = d.frames := rfl
@[simp] theorem setCur_pulse (d : Dev) (n : Nat) (m : CurrentSt) : (setCur d n m).pulse = d.pulse := rfl
@[simp] theorem setCur_emu (d : Dev) (n : Nat) (m : CurrentSt) : (setCur d n m).emu = d.emu := rfl
@[simp] theorem setCur_segs (d : Dev) (n : Nat) (m : CurrentSt) : (setCur d n m).segs = d.segs := rfl
@[simp] theorem setCur_heads (d : Dev) (n : Nat) (m : CurrentSt) : (setCur d n m).heads = d.heads := rfl
@[simp] theorem setCur_pdus (d : Dev) (n : Nat) (m : CurrentSt) : (setCur d n m).pdus = d.pdus := rfl
@[simp] theorem setCur_pdus1 (d : Dev) (n : Nat) (m : CurrentSt) : (setCur d n m).pdus1 = d.pdus1 := rfl
@[simp] theorem setCur_pdus2 (d : Dev) (n : Nat) (m : CurrentSt) : (setCur d n m).pdus2 = d.pdus2 := rfl
@[simp] theorem setCur_shadow (d : Dev) (n : Nat) (m : CurrentSt) : (setCur d n m).shadow = d.shadow := rfl
@[simp] theorem setCur_pads (d : Dev) (n : Nat) (m : CurrentSt) : (setCur d n m).pads = d.pads := rfl
@[simp] theorem setCur_memt (d : Dev) (n : Nat) (m : CurrentSt) : (setCur d n m).memt = d.memt := rfl
@[simp] theorem setCur_acq (d : Dev) (n : Nat) (m : CurrentSt) : (setCur d n m).acq = d.acq := rfl
@[simp] theorem setCur_pair (d : Dev) (n : Nat) (m : CurrentSt) : (setCur d n m).pair = d.pair := rfl
@[simp] theorem setCur_free (d : Dev) (n : Nat) (m : CurrentSt) : (setCur d n m).free = d.free := rfl
@[simp] theorem setCur_out (d : Dev) (n : Nat) (m : CurrentSt) : (setCur d n m).out = d.out := rfl

/-! Fields after `setStp`. -/
@[simp] theorem setStp_objs (d : Dev) (n : Nat) (m : StepperSt) : (setStp d n m).objs = d.objs := rfl
@[simp] theorem setStp_blobs (d : Dev) (n : Nat) (m : StepperSt) : (setStp d n m).blobs = d.blobs := rfl
@[simp] theorem setStp_inForce (d : Dev) (n : Nat) (m : StepperSt) : (setStp d n m).inForce = d.inForce := rfl
@[simp] theorem setStp_fc (d : Dev) (n : Nat) (m : StepperSt) : (setStp d n m).fc = d.fc := rfl
@[simp] theorem setStp_power (d : Dev) (n : Nat) (m : StepperSt) : (setStp d n m).power = d.power := rfl
@[simp] theorem setStp_key (d : Dev) (n : Nat) (m : StepperSt) : (setStp d n m).key = d.key := rfl
@[simp] theorem setStp_mgmt (d : Dev) (n : Nat) (m : StepperSt) : (setStp d n m).mgmt = d.mgmt := rfl
@[simp] theorem setStp_host (d : Dev) (n : Nat) (m : StepperSt) : (setStp d n m).host = d.host := rfl
@[simp] theorem setStp_time (d : Dev) (n : Nat) (m : StepperSt) : (setStp d n m).time = d.time := rfl
@[simp] theorem setStp_motion (d : Dev) (n : Nat) (m : StepperSt) : (setStp d n m).motion = d.motion := rfl
@[simp] theorem setStp_servo (d : Dev) (n : Nat) (m : StepperSt) : (setStp d n m).servo = d.servo := rfl
@[simp] theorem setStp_current (d : Dev) (n : Nat) (m : StepperSt) : (setStp d n m).current = d.current := rfl
@[simp] theorem setStp_chans (d : Dev) (n : Nat) (m : StepperSt) : (setStp d n m).chans = d.chans := rfl
@[simp] theorem setStp_frames (d : Dev) (n : Nat) (m : StepperSt) : (setStp d n m).frames = d.frames := rfl
@[simp] theorem setStp_pulse (d : Dev) (n : Nat) (m : StepperSt) : (setStp d n m).pulse = d.pulse := rfl
@[simp] theorem setStp_emu (d : Dev) (n : Nat) (m : StepperSt) : (setStp d n m).emu = d.emu := rfl
@[simp] theorem setStp_segs (d : Dev) (n : Nat) (m : StepperSt) : (setStp d n m).segs = d.segs := rfl
@[simp] theorem setStp_heads (d : Dev) (n : Nat) (m : StepperSt) : (setStp d n m).heads = d.heads := rfl
@[simp] theorem setStp_pdus (d : Dev) (n : Nat) (m : StepperSt) : (setStp d n m).pdus = d.pdus := rfl
@[simp] theorem setStp_pdus1 (d : Dev) (n : Nat) (m : StepperSt) : (setStp d n m).pdus1 = d.pdus1 := rfl
@[simp] theorem setStp_pdus2 (d : Dev) (n : Nat) (m : StepperSt) : (setStp d n m).pdus2 = d.pdus2 := rfl
@[simp] theorem setStp_shadow (d : Dev) (n : Nat) (m : StepperSt) : (setStp d n m).shadow = d.shadow := rfl
@[simp] theorem setStp_pads (d : Dev) (n : Nat) (m : StepperSt) : (setStp d n m).pads = d.pads := rfl
@[simp] theorem setStp_memt (d : Dev) (n : Nat) (m : StepperSt) : (setStp d n m).memt = d.memt := rfl
@[simp] theorem setStp_acq (d : Dev) (n : Nat) (m : StepperSt) : (setStp d n m).acq = d.acq := rfl
@[simp] theorem setStp_pair (d : Dev) (n : Nat) (m : StepperSt) : (setStp d n m).pair = d.pair := rfl
@[simp] theorem setStp_free (d : Dev) (n : Nat) (m : StepperSt) : (setStp d n m).free = d.free := rfl
@[simp] theorem setStp_out (d : Dev) (n : Nat) (m : StepperSt) : (setStp d n m).out = d.out := rfl

/-! Fields after `setChan`. -/
@[simp] theorem setChan_objs (d : Dev) (n : Nat) (m : ChanSt) : (setChan d n m).objs = d.objs := rfl
@[simp] theorem setChan_blobs (d : Dev) (n : Nat) (m : ChanSt) : (setChan d n m).blobs = d.blobs := rfl
@[simp] theorem setChan_inForce (d : Dev) (n : Nat) (m : ChanSt) : (setChan d n m).inForce = d.inForce := rfl
@[simp] theorem setChan_fc (d : Dev) (n : Nat) (m : ChanSt) : (setChan d n m).fc = d.fc := rfl
@[simp] theorem setChan_power (d : Dev) (n : Nat) (m : ChanSt) : (setChan d n m).power = d.power := rfl
@[simp] theorem setChan_key (d : Dev) (n : Nat) (m : ChanSt) : (setChan d n m).key = d.key := rfl
@[simp] theorem setChan_mgmt (d : Dev) (n : Nat) (m : ChanSt) : (setChan d n m).mgmt = d.mgmt := rfl
@[simp] theorem setChan_host (d : Dev) (n : Nat) (m : ChanSt) : (setChan d n m).host = d.host := rfl
@[simp] theorem setChan_time (d : Dev) (n : Nat) (m : ChanSt) : (setChan d n m).time = d.time := rfl
@[simp] theorem setChan_motion (d : Dev) (n : Nat) (m : ChanSt) : (setChan d n m).motion = d.motion := rfl
@[simp] theorem setChan_servo (d : Dev) (n : Nat) (m : ChanSt) : (setChan d n m).servo = d.servo := rfl
@[simp] theorem setChan_current (d : Dev) (n : Nat) (m : ChanSt) : (setChan d n m).current = d.current := rfl
@[simp] theorem setChan_stepper (d : Dev) (n : Nat) (m : ChanSt) : (setChan d n m).stepper = d.stepper := rfl
@[simp] theorem setChan_frames (d : Dev) (n : Nat) (m : ChanSt) : (setChan d n m).frames = d.frames := rfl
@[simp] theorem setChan_pulse (d : Dev) (n : Nat) (m : ChanSt) : (setChan d n m).pulse = d.pulse := rfl
@[simp] theorem setChan_emu (d : Dev) (n : Nat) (m : ChanSt) : (setChan d n m).emu = d.emu := rfl
@[simp] theorem setChan_segs (d : Dev) (n : Nat) (m : ChanSt) : (setChan d n m).segs = d.segs := rfl
@[simp] theorem setChan_heads (d : Dev) (n : Nat) (m : ChanSt) : (setChan d n m).heads = d.heads := rfl
@[simp] theorem setChan_pdus (d : Dev) (n : Nat) (m : ChanSt) : (setChan d n m).pdus = d.pdus := rfl
@[simp] theorem setChan_pdus1 (d : Dev) (n : Nat) (m : ChanSt) : (setChan d n m).pdus1 = d.pdus1 := rfl
@[simp] theorem setChan_pdus2 (d : Dev) (n : Nat) (m : ChanSt) : (setChan d n m).pdus2 = d.pdus2 := rfl
@[simp] theorem setChan_shadow (d : Dev) (n : Nat) (m : ChanSt) : (setChan d n m).shadow = d.shadow := rfl
@[simp] theorem setChan_pads (d : Dev) (n : Nat) (m : ChanSt) : (setChan d n m).pads = d.pads := rfl
@[simp] theorem setChan_memt (d : Dev) (n : Nat) (m : ChanSt) : (setChan d n m).memt = d.memt := rfl
@[simp] theorem setChan_acq (d : Dev) (n : Nat) (m : ChanSt) : (setChan d n m).acq = d.acq := rfl
@[simp] theorem setChan_pair (d : Dev) (n : Nat) (m : ChanSt) : (setChan d n m).pair = d.pair := rfl
@[simp] theorem setChan_free (d : Dev) (n : Nat) (m : ChanSt) : (setChan d n m).free = d.free := rfl
@[simp] theorem setChan_out (d : Dev) (n : Nat) (m : ChanSt) : (setChan d n m).out = d.out := rfl

/-! Fields after `setPad`. -/
@[simp] theorem setPad_objs (d : Dev) (n : Nat) (m : Pad) : (setPad d n m).objs = d.objs := rfl
@[simp] theorem setPad_blobs (d : Dev) (n : Nat) (m : Pad) : (setPad d n m).blobs = d.blobs := rfl
@[simp] theorem setPad_inForce (d : Dev) (n : Nat) (m : Pad) : (setPad d n m).inForce = d.inForce := rfl
@[simp] theorem setPad_fc (d : Dev) (n : Nat) (m : Pad) : (setPad d n m).fc = d.fc := rfl
@[simp] theorem setPad_power (d : Dev) (n : Nat) (m : Pad) : (setPad d n m).power = d.power := rfl
@[simp] theorem setPad_key (d : Dev) (n : Nat) (m : Pad) : (setPad d n m).key = d.key := rfl
@[simp] theorem setPad_mgmt (d : Dev) (n : Nat) (m : Pad) : (setPad d n m).mgmt = d.mgmt := rfl
@[simp] theorem setPad_host (d : Dev) (n : Nat) (m : Pad) : (setPad d n m).host = d.host := rfl
@[simp] theorem setPad_time (d : Dev) (n : Nat) (m : Pad) : (setPad d n m).time = d.time := rfl
@[simp] theorem setPad_motion (d : Dev) (n : Nat) (m : Pad) : (setPad d n m).motion = d.motion := rfl
@[simp] theorem setPad_servo (d : Dev) (n : Nat) (m : Pad) : (setPad d n m).servo = d.servo := rfl
@[simp] theorem setPad_current (d : Dev) (n : Nat) (m : Pad) : (setPad d n m).current = d.current := rfl
@[simp] theorem setPad_stepper (d : Dev) (n : Nat) (m : Pad) : (setPad d n m).stepper = d.stepper := rfl
@[simp] theorem setPad_chans (d : Dev) (n : Nat) (m : Pad) : (setPad d n m).chans = d.chans := rfl
@[simp] theorem setPad_frames (d : Dev) (n : Nat) (m : Pad) : (setPad d n m).frames = d.frames := rfl
@[simp] theorem setPad_pulse (d : Dev) (n : Nat) (m : Pad) : (setPad d n m).pulse = d.pulse := rfl
@[simp] theorem setPad_emu (d : Dev) (n : Nat) (m : Pad) : (setPad d n m).emu = d.emu := rfl
@[simp] theorem setPad_segs (d : Dev) (n : Nat) (m : Pad) : (setPad d n m).segs = d.segs := rfl
@[simp] theorem setPad_heads (d : Dev) (n : Nat) (m : Pad) : (setPad d n m).heads = d.heads := rfl
@[simp] theorem setPad_pdus (d : Dev) (n : Nat) (m : Pad) : (setPad d n m).pdus = d.pdus := rfl
@[simp] theorem setPad_pdus1 (d : Dev) (n : Nat) (m : Pad) : (setPad d n m).pdus1 = d.pdus1 := rfl
@[simp] theorem setPad_pdus2 (d : Dev) (n : Nat) (m : Pad) : (setPad d n m).pdus2 = d.pdus2 := rfl
@[simp] theorem setPad_shadow (d : Dev) (n : Nat) (m : Pad) : (setPad d n m).shadow = d.shadow := rfl
@[simp] theorem setPad_memt (d : Dev) (n : Nat) (m : Pad) : (setPad d n m).memt = d.memt := rfl
@[simp] theorem setPad_acq (d : Dev) (n : Nat) (m : Pad) : (setPad d n m).acq = d.acq := rfl
@[simp] theorem setPad_pair (d : Dev) (n : Nat) (m : Pad) : (setPad d n m).pair = d.pair := rfl
@[simp] theorem setPad_free (d : Dev) (n : Nat) (m : Pad) : (setPad d n m).free = d.free := rfl
@[simp] theorem setPad_out (d : Dev) (n : Nat) (m : Pad) : (setPad d n m).out = d.out := rfl

/-! Fields after `setPls`. -/
@[simp] theorem setPls_objs (d : Dev) (n : Nat) (m : PulseSt) : (setPls d n m).objs = d.objs := rfl
@[simp] theorem setPls_blobs (d : Dev) (n : Nat) (m : PulseSt) : (setPls d n m).blobs = d.blobs := rfl
@[simp] theorem setPls_inForce (d : Dev) (n : Nat) (m : PulseSt) : (setPls d n m).inForce = d.inForce := rfl
@[simp] theorem setPls_fc (d : Dev) (n : Nat) (m : PulseSt) : (setPls d n m).fc = d.fc := rfl
@[simp] theorem setPls_power (d : Dev) (n : Nat) (m : PulseSt) : (setPls d n m).power = d.power := rfl
@[simp] theorem setPls_key (d : Dev) (n : Nat) (m : PulseSt) : (setPls d n m).key = d.key := rfl
@[simp] theorem setPls_mgmt (d : Dev) (n : Nat) (m : PulseSt) : (setPls d n m).mgmt = d.mgmt := rfl
@[simp] theorem setPls_host (d : Dev) (n : Nat) (m : PulseSt) : (setPls d n m).host = d.host := rfl
@[simp] theorem setPls_time (d : Dev) (n : Nat) (m : PulseSt) : (setPls d n m).time = d.time := rfl
@[simp] theorem setPls_motion (d : Dev) (n : Nat) (m : PulseSt) : (setPls d n m).motion = d.motion := rfl
@[simp] theorem setPls_servo (d : Dev) (n : Nat) (m : PulseSt) : (setPls d n m).servo = d.servo := rfl
@[simp] theorem setPls_current (d : Dev) (n : Nat) (m : PulseSt) : (setPls d n m).current = d.current := rfl
@[simp] theorem setPls_stepper (d : Dev) (n : Nat) (m : PulseSt) : (setPls d n m).stepper = d.stepper := rfl
@[simp] theorem setPls_chans (d : Dev) (n : Nat) (m : PulseSt) : (setPls d n m).chans = d.chans := rfl
@[simp] theorem setPls_frames (d : Dev) (n : Nat) (m : PulseSt) : (setPls d n m).frames = d.frames := rfl
@[simp] theorem setPls_emu (d : Dev) (n : Nat) (m : PulseSt) : (setPls d n m).emu = d.emu := rfl
@[simp] theorem setPls_segs (d : Dev) (n : Nat) (m : PulseSt) : (setPls d n m).segs = d.segs := rfl
@[simp] theorem setPls_heads (d : Dev) (n : Nat) (m : PulseSt) : (setPls d n m).heads = d.heads := rfl
@[simp] theorem setPls_pdus (d : Dev) (n : Nat) (m : PulseSt) : (setPls d n m).pdus = d.pdus := rfl
@[simp] theorem setPls_pdus1 (d : Dev) (n : Nat) (m : PulseSt) : (setPls d n m).pdus1 = d.pdus1 := rfl
@[simp] theorem setPls_pdus2 (d : Dev) (n : Nat) (m : PulseSt) : (setPls d n m).pdus2 = d.pdus2 := rfl
@[simp] theorem setPls_shadow (d : Dev) (n : Nat) (m : PulseSt) : (setPls d n m).shadow = d.shadow := rfl
@[simp] theorem setPls_pads (d : Dev) (n : Nat) (m : PulseSt) : (setPls d n m).pads = d.pads := rfl
@[simp] theorem setPls_memt (d : Dev) (n : Nat) (m : PulseSt) : (setPls d n m).memt = d.memt := rfl
@[simp] theorem setPls_acq (d : Dev) (n : Nat) (m : PulseSt) : (setPls d n m).acq = d.acq := rfl
@[simp] theorem setPls_pair (d : Dev) (n : Nat) (m : PulseSt) : (setPls d n m).pair = d.pair := rfl
@[simp] theorem setPls_free (d : Dev) (n : Nat) (m : PulseSt) : (setPls d n m).free = d.free := rfl
@[simp] theorem setPls_out (d : Dev) (n : Nat) (m : PulseSt) : (setPls d n m).out = d.out := rfl

/-! Fields after `setEmu`. -/
@[simp] theorem setEmu_objs (d : Dev) (n : Nat) (m : EmuSt) : (setEmu d n m).objs = d.objs := rfl
@[simp] theorem setEmu_blobs (d : Dev) (n : Nat) (m : EmuSt) : (setEmu d n m).blobs = d.blobs := rfl
@[simp] theorem setEmu_inForce (d : Dev) (n : Nat) (m : EmuSt) : (setEmu d n m).inForce = d.inForce := rfl
@[simp] theorem setEmu_fc (d : Dev) (n : Nat) (m : EmuSt) : (setEmu d n m).fc = d.fc := rfl
@[simp] theorem setEmu_power (d : Dev) (n : Nat) (m : EmuSt) : (setEmu d n m).power = d.power := rfl
@[simp] theorem setEmu_key (d : Dev) (n : Nat) (m : EmuSt) : (setEmu d n m).key = d.key := rfl
@[simp] theorem setEmu_mgmt (d : Dev) (n : Nat) (m : EmuSt) : (setEmu d n m).mgmt = d.mgmt := rfl
@[simp] theorem setEmu_host (d : Dev) (n : Nat) (m : EmuSt) : (setEmu d n m).host = d.host := rfl
@[simp] theorem setEmu_time (d : Dev) (n : Nat) (m : EmuSt) : (setEmu d n m).time = d.time := rfl
@[simp] theorem setEmu_motion (d : Dev) (n : Nat) (m : EmuSt) : (setEmu d n m).motion = d.motion := rfl
@[simp] theorem setEmu_servo (d : Dev) (n : Nat) (m : EmuSt) : (setEmu d n m).servo = d.servo := rfl
@[simp] theorem setEmu_current (d : Dev) (n : Nat) (m : EmuSt) : (setEmu d n m).current = d.current := rfl
@[simp] theorem setEmu_stepper (d : Dev) (n : Nat) (m : EmuSt) : (setEmu d n m).stepper = d.stepper := rfl
@[simp] theorem setEmu_chans (d : Dev) (n : Nat) (m : EmuSt) : (setEmu d n m).chans = d.chans := rfl
@[simp] theorem setEmu_frames (d : Dev) (n : Nat) (m : EmuSt) : (setEmu d n m).frames = d.frames := rfl
@[simp] theorem setEmu_pulse (d : Dev) (n : Nat) (m : EmuSt) : (setEmu d n m).pulse = d.pulse := rfl
@[simp] theorem setEmu_segs (d : Dev) (n : Nat) (m : EmuSt) : (setEmu d n m).segs = d.segs := rfl
@[simp] theorem setEmu_heads (d : Dev) (n : Nat) (m : EmuSt) : (setEmu d n m).heads = d.heads := rfl
@[simp] theorem setEmu_pdus (d : Dev) (n : Nat) (m : EmuSt) : (setEmu d n m).pdus = d.pdus := rfl
@[simp] theorem setEmu_pdus1 (d : Dev) (n : Nat) (m : EmuSt) : (setEmu d n m).pdus1 = d.pdus1 := rfl
@[simp] theorem setEmu_pdus2 (d : Dev) (n : Nat) (m : EmuSt) : (setEmu d n m).pdus2 = d.pdus2 := rfl
@[simp] theorem setEmu_shadow (d : Dev) (n : Nat) (m : EmuSt) : (setEmu d n m).shadow = d.shadow := rfl
@[simp] theorem setEmu_pads (d : Dev) (n : Nat) (m : EmuSt) : (setEmu d n m).pads = d.pads := rfl
@[simp] theorem setEmu_memt (d : Dev) (n : Nat) (m : EmuSt) : (setEmu d n m).memt = d.memt := rfl
@[simp] theorem setEmu_acq (d : Dev) (n : Nat) (m : EmuSt) : (setEmu d n m).acq = d.acq := rfl
@[simp] theorem setEmu_pair (d : Dev) (n : Nat) (m : EmuSt) : (setEmu d n m).pair = d.pair := rfl
@[simp] theorem setEmu_free (d : Dev) (n : Nat) (m : EmuSt) : (setEmu d n m).free = d.free := rfl
@[simp] theorem setEmu_out (d : Dev) (n : Nat) (m : EmuSt) : (setEmu d n m).out = d.out := rfl

/-! Fields after `setSeg`. -/
@[simp] theorem setSeg_objs (d : Dev) (n : Nat) (m : SegSt) : (setSeg d n m).objs = d.objs := rfl
@[simp] theorem setSeg_blobs (d : Dev) (n : Nat) (m : SegSt) : (setSeg d n m).blobs = d.blobs := rfl
@[simp] theorem setSeg_inForce (d : Dev) (n : Nat) (m : SegSt) : (setSeg d n m).inForce = d.inForce := rfl
@[simp] theorem setSeg_fc (d : Dev) (n : Nat) (m : SegSt) : (setSeg d n m).fc = d.fc := rfl
@[simp] theorem setSeg_power (d : Dev) (n : Nat) (m : SegSt) : (setSeg d n m).power = d.power := rfl
@[simp] theorem setSeg_key (d : Dev) (n : Nat) (m : SegSt) : (setSeg d n m).key = d.key := rfl
@[simp] theorem setSeg_mgmt (d : Dev) (n : Nat) (m : SegSt) : (setSeg d n m).mgmt = d.mgmt := rfl
@[simp] theorem setSeg_host (d : Dev) (n : Nat) (m : SegSt) : (setSeg d n m).host = d.host := rfl
@[simp] theorem setSeg_time (d : Dev) (n : Nat) (m : SegSt) : (setSeg d n m).time = d.time := rfl
@[simp] theorem setSeg_motion (d : Dev) (n : Nat) (m : SegSt) : (setSeg d n m).motion = d.motion := rfl
@[simp] theorem setSeg_servo (d : Dev) (n : Nat) (m : SegSt) : (setSeg d n m).servo = d.servo := rfl
@[simp] theorem setSeg_current (d : Dev) (n : Nat) (m : SegSt) : (setSeg d n m).current = d.current := rfl
@[simp] theorem setSeg_stepper (d : Dev) (n : Nat) (m : SegSt) : (setSeg d n m).stepper = d.stepper := rfl
@[simp] theorem setSeg_chans (d : Dev) (n : Nat) (m : SegSt) : (setSeg d n m).chans = d.chans := rfl
@[simp] theorem setSeg_frames (d : Dev) (n : Nat) (m : SegSt) : (setSeg d n m).frames = d.frames := rfl
@[simp] theorem setSeg_pulse (d : Dev) (n : Nat) (m : SegSt) : (setSeg d n m).pulse = d.pulse := rfl
@[simp] theorem setSeg_emu (d : Dev) (n : Nat) (m : SegSt) : (setSeg d n m).emu = d.emu := rfl
@[simp] theorem setSeg_heads (d : Dev) (n : Nat) (m : SegSt) : (setSeg d n m).heads = d.heads := rfl
@[simp] theorem setSeg_pdus (d : Dev) (n : Nat) (m : SegSt) : (setSeg d n m).pdus = d.pdus := rfl
@[simp] theorem setSeg_pdus1 (d : Dev) (n : Nat) (m : SegSt) : (setSeg d n m).pdus1 = d.pdus1 := rfl
@[simp] theorem setSeg_pdus2 (d : Dev) (n : Nat) (m : SegSt) : (setSeg d n m).pdus2 = d.pdus2 := rfl
@[simp] theorem setSeg_shadow (d : Dev) (n : Nat) (m : SegSt) : (setSeg d n m).shadow = d.shadow := rfl
@[simp] theorem setSeg_pads (d : Dev) (n : Nat) (m : SegSt) : (setSeg d n m).pads = d.pads := rfl
@[simp] theorem setSeg_memt (d : Dev) (n : Nat) (m : SegSt) : (setSeg d n m).memt = d.memt := rfl
@[simp] theorem setSeg_acq (d : Dev) (n : Nat) (m : SegSt) : (setSeg d n m).acq = d.acq := rfl
@[simp] theorem setSeg_pair (d : Dev) (n : Nat) (m : SegSt) : (setSeg d n m).pair = d.pair := rfl
@[simp] theorem setSeg_free (d : Dev) (n : Nat) (m : SegSt) : (setSeg d n m).free = d.free := rfl
@[simp] theorem setSeg_out (d : Dev) (n : Nat) (m : SegSt) : (setSeg d n m).out = d.out := rfl

/-! Fields after `setHd`. -/
@[simp] theorem setHd_objs (d : Dev) (g j : Nat) (m : HeadNode) : (setHd d g j m).objs = d.objs := rfl
@[simp] theorem setHd_blobs (d : Dev) (g j : Nat) (m : HeadNode) : (setHd d g j m).blobs = d.blobs := rfl
@[simp] theorem setHd_inForce (d : Dev) (g j : Nat) (m : HeadNode) : (setHd d g j m).inForce = d.inForce := rfl
@[simp] theorem setHd_fc (d : Dev) (g j : Nat) (m : HeadNode) : (setHd d g j m).fc = d.fc := rfl
@[simp] theorem setHd_power (d : Dev) (g j : Nat) (m : HeadNode) : (setHd d g j m).power = d.power := rfl
@[simp] theorem setHd_key (d : Dev) (g j : Nat) (m : HeadNode) : (setHd d g j m).key = d.key := rfl
@[simp] theorem setHd_mgmt (d : Dev) (g j : Nat) (m : HeadNode) : (setHd d g j m).mgmt = d.mgmt := rfl
@[simp] theorem setHd_host (d : Dev) (g j : Nat) (m : HeadNode) : (setHd d g j m).host = d.host := rfl
@[simp] theorem setHd_time (d : Dev) (g j : Nat) (m : HeadNode) : (setHd d g j m).time = d.time := rfl
@[simp] theorem setHd_motion (d : Dev) (g j : Nat) (m : HeadNode) : (setHd d g j m).motion = d.motion := rfl
@[simp] theorem setHd_servo (d : Dev) (g j : Nat) (m : HeadNode) : (setHd d g j m).servo = d.servo := rfl
@[simp] theorem setHd_current (d : Dev) (g j : Nat) (m : HeadNode) : (setHd d g j m).current = d.current := rfl
@[simp] theorem setHd_stepper (d : Dev) (g j : Nat) (m : HeadNode) : (setHd d g j m).stepper = d.stepper := rfl
@[simp] theorem setHd_chans (d : Dev) (g j : Nat) (m : HeadNode) : (setHd d g j m).chans = d.chans := rfl
@[simp] theorem setHd_frames (d : Dev) (g j : Nat) (m : HeadNode) : (setHd d g j m).frames = d.frames := rfl
@[simp] theorem setHd_pulse (d : Dev) (g j : Nat) (m : HeadNode) : (setHd d g j m).pulse = d.pulse := rfl
@[simp] theorem setHd_emu (d : Dev) (g j : Nat) (m : HeadNode) : (setHd d g j m).emu = d.emu := rfl
@[simp] theorem setHd_segs (d : Dev) (g j : Nat) (m : HeadNode) : (setHd d g j m).segs = d.segs := rfl
@[simp] theorem setHd_pdus (d : Dev) (g j : Nat) (m : HeadNode) : (setHd d g j m).pdus = d.pdus := rfl
@[simp] theorem setHd_pdus1 (d : Dev) (g j : Nat) (m : HeadNode) : (setHd d g j m).pdus1 = d.pdus1 := rfl
@[simp] theorem setHd_pdus2 (d : Dev) (g j : Nat) (m : HeadNode) : (setHd d g j m).pdus2 = d.pdus2 := rfl
@[simp] theorem setHd_shadow (d : Dev) (g j : Nat) (m : HeadNode) : (setHd d g j m).shadow = d.shadow := rfl
@[simp] theorem setHd_pads (d : Dev) (g j : Nat) (m : HeadNode) : (setHd d g j m).pads = d.pads := rfl
@[simp] theorem setHd_memt (d : Dev) (g j : Nat) (m : HeadNode) : (setHd d g j m).memt = d.memt := rfl
@[simp] theorem setHd_acq (d : Dev) (g j : Nat) (m : HeadNode) : (setHd d g j m).acq = d.acq := rfl
@[simp] theorem setHd_pair (d : Dev) (g j : Nat) (m : HeadNode) : (setHd d g j m).pair = d.pair := rfl
@[simp] theorem setHd_free (d : Dev) (g j : Nat) (m : HeadNode) : (setHd d g j m).free = d.free := rfl
@[simp] theorem setHd_out (d : Dev) (g j : Nat) (m : HeadNode) : (setHd d g j m).out = d.out := rfl

/-! Fields after `setAset`. -/
@[simp] theorem setAset_objs (d : Dev) (n : Nat) (m : SetSt) : (setAset d n m).objs = d.objs := rfl
@[simp] theorem setAset_blobs (d : Dev) (n : Nat) (m : SetSt) : (setAset d n m).blobs = d.blobs := rfl
@[simp] theorem setAset_inForce (d : Dev) (n : Nat) (m : SetSt) : (setAset d n m).inForce = d.inForce := rfl
@[simp] theorem setAset_fc (d : Dev) (n : Nat) (m : SetSt) : (setAset d n m).fc = d.fc := rfl
@[simp] theorem setAset_power (d : Dev) (n : Nat) (m : SetSt) : (setAset d n m).power = d.power := rfl
@[simp] theorem setAset_key (d : Dev) (n : Nat) (m : SetSt) : (setAset d n m).key = d.key := rfl
@[simp] theorem setAset_mgmt (d : Dev) (n : Nat) (m : SetSt) : (setAset d n m).mgmt = d.mgmt := rfl
@[simp] theorem setAset_host (d : Dev) (n : Nat) (m : SetSt) : (setAset d n m).host = d.host := rfl
@[simp] theorem setAset_time (d : Dev) (n : Nat) (m : SetSt) : (setAset d n m).time = d.time := rfl
@[simp] theorem setAset_motion (d : Dev) (n : Nat) (m : SetSt) : (setAset d n m).motion = d.motion := rfl
@[simp] theorem setAset_servo (d : Dev) (n : Nat) (m : SetSt) : (setAset d n m).servo = d.servo := rfl
@[simp] theorem setAset_current (d : Dev) (n : Nat) (m : SetSt) : (setAset d n m).current = d.current := rfl
@[simp] theorem setAset_stepper (d : Dev) (n : Nat) (m : SetSt) : (setAset d n m).stepper = d.stepper := rfl
@[simp] theorem setAset_chans (d : Dev) (n : Nat) (m : SetSt) : (setAset d n m).chans = d.chans := rfl
@[simp] theorem setAset_frames (d : Dev) (n : Nat) (m : SetSt) : (setAset d n m).frames = d.frames := rfl
@[simp] theorem setAset_pulse (d : Dev) (n : Nat) (m : SetSt) : (setAset d n m).pulse = d.pulse := rfl
@[simp] theorem setAset_emu (d : Dev) (n : Nat) (m : SetSt) : (setAset d n m).emu = d.emu := rfl
@[simp] theorem setAset_segs (d : Dev) (n : Nat) (m : SetSt) : (setAset d n m).segs = d.segs := rfl
@[simp] theorem setAset_heads (d : Dev) (n : Nat) (m : SetSt) : (setAset d n m).heads = d.heads := rfl
@[simp] theorem setAset_pdus (d : Dev) (n : Nat) (m : SetSt) : (setAset d n m).pdus = d.pdus := rfl
@[simp] theorem setAset_pdus1 (d : Dev) (n : Nat) (m : SetSt) : (setAset d n m).pdus1 = d.pdus1 := rfl
@[simp] theorem setAset_pdus2 (d : Dev) (n : Nat) (m : SetSt) : (setAset d n m).pdus2 = d.pdus2 := rfl
@[simp] theorem setAset_shadow (d : Dev) (n : Nat) (m : SetSt) : (setAset d n m).shadow = d.shadow := rfl
@[simp] theorem setAset_pads (d : Dev) (n : Nat) (m : SetSt) : (setAset d n m).pads = d.pads := rfl
@[simp] theorem setAset_memt (d : Dev) (n : Nat) (m : SetSt) : (setAset d n m).memt = d.memt := rfl
@[simp] theorem setAset_pair (d : Dev) (n : Nat) (m : SetSt) : (setAset d n m).pair = d.pair := rfl
@[simp] theorem setAset_free (d : Dev) (n : Nat) (m : SetSt) : (setAset d n m).free = d.free := rfl
@[simp] theorem setAset_out (d : Dev) (n : Nat) (m : SetSt) : (setAset d n m).out = d.out := rfl

/-! Fields after `emit`. -/
@[simp] theorem emit_objs (d : Dev) (m : Msg) : (emit d m).objs = d.objs := rfl
@[simp] theorem emit_blobs (d : Dev) (m : Msg) : (emit d m).blobs = d.blobs := rfl
@[simp] theorem emit_inForce (d : Dev) (m : Msg) : (emit d m).inForce = d.inForce := rfl
@[simp] theorem emit_fc (d : Dev) (m : Msg) : (emit d m).fc = d.fc := rfl
@[simp] theorem emit_power (d : Dev) (m : Msg) : (emit d m).power = d.power := rfl
@[simp] theorem emit_key (d : Dev) (m : Msg) : (emit d m).key = d.key := rfl
@[simp] theorem emit_mgmt (d : Dev) (m : Msg) : (emit d m).mgmt = d.mgmt := rfl
@[simp] theorem emit_host (d : Dev) (m : Msg) : (emit d m).host = d.host := rfl
@[simp] theorem emit_time (d : Dev) (m : Msg) : (emit d m).time = d.time := rfl
@[simp] theorem emit_motion (d : Dev) (m : Msg) : (emit d m).motion = d.motion := rfl
@[simp] theorem emit_servo (d : Dev) (m : Msg) : (emit d m).servo = d.servo := rfl
@[simp] theorem emit_current (d : Dev) (m : Msg) : (emit d m).current = d.current := rfl
@[simp] theorem emit_stepper (d : Dev) (m : Msg) : (emit d m).stepper = d.stepper := rfl
@[simp] theorem emit_chans (d : Dev) (m : Msg) : (emit d m).chans = d.chans := rfl
@[simp] theorem emit_frames (d : Dev) (m : Msg) : (emit d m).frames = d.frames := rfl
@[simp] theorem emit_pulse (d : Dev) (m : Msg) : (emit d m).pulse = d.pulse := rfl
@[simp] theorem emit_emu (d : Dev) (m : Msg) : (emit d m).emu = d.emu := rfl
@[simp] theorem emit_segs (d : Dev) (m : Msg) : (emit d m).segs = d.segs := rfl
@[simp] theorem emit_heads (d : Dev) (m : Msg) : (emit d m).heads = d.heads := rfl
@[simp] theorem emit_pdus (d : Dev) (m : Msg) : (emit d m).pdus = d.pdus := rfl
@[simp] theorem emit_pdus1 (d : Dev) (m : Msg) : (emit d m).pdus1 = d.pdus1 := rfl
@[simp] theorem emit_pdus2 (d : Dev) (m : Msg) : (emit d m).pdus2 = d.pdus2 := rfl
@[simp] theorem emit_shadow (d : Dev) (m : Msg) : (emit d m).shadow = d.shadow := rfl
@[simp] theorem emit_pads (d : Dev) (m : Msg) : (emit d m).pads = d.pads := rfl
@[simp] theorem emit_memt (d : Dev) (m : Msg) : (emit d m).memt = d.memt := rfl
@[simp] theorem emit_acq (d : Dev) (m : Msg) : (emit d m).acq = d.acq := rfl
@[simp] theorem emit_pair (d : Dev) (m : Msg) : (emit d m).pair = d.pair := rfl
@[simp] theorem emit_free (d : Dev) (m : Msg) : (emit d m).free = d.free := rfl

/-! Fields after `setDom`. -/
@[simp] theorem setDom_objs (d : Dev) (n : Nat) (x : DomainSt) : (setDom d n x).objs = d.objs := rfl
@[simp] theorem setDom_blobs (d : Dev) (n : Nat) (x : DomainSt) : (setDom d n x).blobs = d.blobs := rfl
@[simp] theorem setDom_inForce (d : Dev) (n : Nat) (x : DomainSt) : (setDom d n x).inForce = d.inForce := rfl
@[simp] theorem setDom_fc (d : Dev) (n : Nat) (x : DomainSt) : (setDom d n x).fc = d.fc := rfl
@[simp] theorem setDom_power (d : Dev) (n : Nat) (x : DomainSt) : (setDom d n x).power = d.power := rfl
@[simp] theorem setDom_key (d : Dev) (n : Nat) (x : DomainSt) : (setDom d n x).key = d.key := rfl
@[simp] theorem setDom_mgmt (d : Dev) (n : Nat) (x : DomainSt) : (setDom d n x).mgmt = d.mgmt := rfl
@[simp] theorem setDom_host (d : Dev) (n : Nat) (x : DomainSt) : (setDom d n x).host = d.host := rfl
@[simp] theorem setDom_motion (d : Dev) (n : Nat) (x : DomainSt) : (setDom d n x).motion = d.motion := rfl
@[simp] theorem setDom_servo (d : Dev) (n : Nat) (x : DomainSt) : (setDom d n x).servo = d.servo := rfl
@[simp] theorem setDom_current (d : Dev) (n : Nat) (x : DomainSt) : (setDom d n x).current = d.current := rfl
@[simp] theorem setDom_stepper (d : Dev) (n : Nat) (x : DomainSt) : (setDom d n x).stepper = d.stepper := rfl
@[simp] theorem setDom_chans (d : Dev) (n : Nat) (x : DomainSt) : (setDom d n x).chans = d.chans := rfl
@[simp] theorem setDom_frames (d : Dev) (n : Nat) (x : DomainSt) : (setDom d n x).frames = d.frames := rfl
@[simp] theorem setDom_pulse (d : Dev) (n : Nat) (x : DomainSt) : (setDom d n x).pulse = d.pulse := rfl
@[simp] theorem setDom_emu (d : Dev) (n : Nat) (x : DomainSt) : (setDom d n x).emu = d.emu := rfl
@[simp] theorem setDom_segs (d : Dev) (n : Nat) (x : DomainSt) : (setDom d n x).segs = d.segs := rfl
@[simp] theorem setDom_heads (d : Dev) (n : Nat) (x : DomainSt) : (setDom d n x).heads = d.heads := rfl
@[simp] theorem setDom_pdus (d : Dev) (n : Nat) (x : DomainSt) : (setDom d n x).pdus = d.pdus := rfl
@[simp] theorem setDom_pdus1 (d : Dev) (n : Nat) (x : DomainSt) : (setDom d n x).pdus1 = d.pdus1 := rfl
@[simp] theorem setDom_pdus2 (d : Dev) (n : Nat) (x : DomainSt) : (setDom d n x).pdus2 = d.pdus2 := rfl
@[simp] theorem setDom_shadow (d : Dev) (n : Nat) (x : DomainSt) : (setDom d n x).shadow = d.shadow := rfl
@[simp] theorem setDom_pads (d : Dev) (n : Nat) (x : DomainSt) : (setDom d n x).pads = d.pads := rfl
@[simp] theorem setDom_memt (d : Dev) (n : Nat) (x : DomainSt) : (setDom d n x).memt = d.memt := rfl
@[simp] theorem setDom_acq (d : Dev) (n : Nat) (x : DomainSt) : (setDom d n x).acq = d.acq := rfl
@[simp] theorem setDom_pair (d : Dev) (n : Nat) (x : DomainSt) : (setDom d n x).pair = d.pair := rfl
@[simp] theorem setDom_free (d : Dev) (n : Nat) (x : DomainSt) : (setDom d n x).free = d.free := rfl
@[simp] theorem setDom_out (d : Dev) (n : Nat) (x : DomainSt) : (setDom d n x).out = d.out := rfl

/-! Fields after `answer`. -/
@[simp] theorem answer_objs (d : Dev) (st : Status) : (answer d st).objs = d.objs := rfl
@[simp] theorem answer_blobs (d : Dev) (st : Status) : (answer d st).blobs = d.blobs := rfl
@[simp] theorem answer_inForce (d : Dev) (st : Status) : (answer d st).inForce = d.inForce := rfl
@[simp] theorem answer_fc (d : Dev) (st : Status) : (answer d st).fc = d.fc := rfl
@[simp] theorem answer_power (d : Dev) (st : Status) : (answer d st).power = d.power := rfl
@[simp] theorem answer_key (d : Dev) (st : Status) : (answer d st).key = d.key := rfl
@[simp] theorem answer_mgmt (d : Dev) (st : Status) : (answer d st).mgmt = d.mgmt := rfl
@[simp] theorem answer_host (d : Dev) (st : Status) : (answer d st).host = d.host := rfl
@[simp] theorem answer_time (d : Dev) (st : Status) : (answer d st).time = d.time := rfl
@[simp] theorem answer_motion (d : Dev) (st : Status) : (answer d st).motion = d.motion := rfl
@[simp] theorem answer_servo (d : Dev) (st : Status) : (answer d st).servo = d.servo := rfl
@[simp] theorem answer_current (d : Dev) (st : Status) : (answer d st).current = d.current := rfl
@[simp] theorem answer_stepper (d : Dev) (st : Status) : (answer d st).stepper = d.stepper := rfl
@[simp] theorem answer_chans (d : Dev) (st : Status) : (answer d st).chans = d.chans := rfl
@[simp] theorem answer_frames (d : Dev) (st : Status) : (answer d st).frames = d.frames := rfl
@[simp] theorem answer_pulse (d : Dev) (st : Status) : (answer d st).pulse = d.pulse := rfl
@[simp] theorem answer_emu (d : Dev) (st : Status) : (answer d st).emu = d.emu := rfl
@[simp] theorem answer_segs (d : Dev) (st : Status) : (answer d st).segs = d.segs := rfl
@[simp] theorem answer_heads (d : Dev) (st : Status) : (answer d st).heads = d.heads := rfl
@[simp] theorem answer_pdus (d : Dev) (st : Status) : (answer d st).pdus = d.pdus := rfl
@[simp] theorem answer_pdus1 (d : Dev) (st : Status) : (answer d st).pdus1 = d.pdus1 := rfl
@[simp] theorem answer_pdus2 (d : Dev) (st : Status) : (answer d st).pdus2 = d.pdus2 := rfl
@[simp] theorem answer_shadow (d : Dev) (st : Status) : (answer d st).shadow = d.shadow := rfl
@[simp] theorem answer_pads (d : Dev) (st : Status) : (answer d st).pads = d.pads := rfl
@[simp] theorem answer_memt (d : Dev) (st : Status) : (answer d st).memt = d.memt := rfl
@[simp] theorem answer_acq (d : Dev) (st : Status) : (answer d st).acq = d.acq := rfl
@[simp] theorem answer_pair (d : Dev) (st : Status) : (answer d st).pair = d.pair := rfl
@[simp] theorem answer_free (d : Dev) (st : Status) : (answer d st).free = d.free := rfl

/-! Fields after `later`. -/
@[simp] theorem later_objs (d : Dev) (a b c : Nat) : (later d a b c).objs = d.objs := rfl
@[simp] theorem later_blobs (d : Dev) (a b c : Nat) : (later d a b c).blobs = d.blobs := rfl
@[simp] theorem later_inForce (d : Dev) (a b c : Nat) : (later d a b c).inForce = d.inForce := rfl
@[simp] theorem later_power (d : Dev) (a b c : Nat) : (later d a b c).power = d.power := rfl
@[simp] theorem later_key (d : Dev) (a b c : Nat) : (later d a b c).key = d.key := rfl
@[simp] theorem later_mgmt (d : Dev) (a b c : Nat) : (later d a b c).mgmt = d.mgmt := rfl
@[simp] theorem later_host (d : Dev) (a b c : Nat) : (later d a b c).host = d.host := rfl
@[simp] theorem later_time (d : Dev) (a b c : Nat) : (later d a b c).time = d.time := rfl
@[simp] theorem later_motion (d : Dev) (a b c : Nat) : (later d a b c).motion = d.motion := rfl
@[simp] theorem later_servo (d : Dev) (a b c : Nat) : (later d a b c).servo = d.servo := rfl
@[simp] theorem later_current (d : Dev) (a b c : Nat) : (later d a b c).current = d.current := rfl
@[simp] theorem later_stepper (d : Dev) (a b c : Nat) : (later d a b c).stepper = d.stepper := rfl
@[simp] theorem later_chans (d : Dev) (a b c : Nat) : (later d a b c).chans = d.chans := rfl
@[simp] theorem later_frames (d : Dev) (a b c : Nat) : (later d a b c).frames = d.frames := rfl
@[simp] theorem later_pulse (d : Dev) (a b c : Nat) : (later d a b c).pulse = d.pulse := rfl
@[simp] theorem later_emu (d : Dev) (a b c : Nat) : (later d a b c).emu = d.emu := rfl
@[simp] theorem later_segs (d : Dev) (a b c : Nat) : (later d a b c).segs = d.segs := rfl
@[simp] theorem later_heads (d : Dev) (a b c : Nat) : (later d a b c).heads = d.heads := rfl
@[simp] theorem later_pdus (d : Dev) (a b c : Nat) : (later d a b c).pdus = d.pdus := rfl
@[simp] theorem later_pdus1 (d : Dev) (a b c : Nat) : (later d a b c).pdus1 = d.pdus1 := rfl
@[simp] theorem later_pdus2 (d : Dev) (a b c : Nat) : (later d a b c).pdus2 = d.pdus2 := rfl
@[simp] theorem later_shadow (d : Dev) (a b c : Nat) : (later d a b c).shadow = d.shadow := rfl
@[simp] theorem later_pads (d : Dev) (a b c : Nat) : (later d a b c).pads = d.pads := rfl
@[simp] theorem later_memt (d : Dev) (a b c : Nat) : (later d a b c).memt = d.memt := rfl
@[simp] theorem later_acq (d : Dev) (a b c : Nat) : (later d a b c).acq = d.acq := rfl
@[simp] theorem later_pair (d : Dev) (a b c : Nat) : (later d a b c).pair = d.pair := rfl
@[simp] theorem later_free (d : Dev) (a b c : Nat) : (later d a b c).free = d.free := rfl
@[simp] theorem later_out (d : Dev) (a b c : Nat) : (later d a b c).out = d.out := rfl

/-! Fields after `laterStop`. -/
@[simp] theorem laterStop_objs (d : Dev) (a b c e : Nat) : (laterStop d a b c e).objs = d.objs := rfl
@[simp] theorem laterStop_blobs (d : Dev) (a b c e : Nat) : (laterStop d a b c e).blobs = d.blobs := rfl
@[simp] theorem laterStop_inForce (d : Dev) (a b c e : Nat) : (laterStop d a b c e).inForce = d.inForce := rfl
@[simp] theorem laterStop_power (d : Dev) (a b c e : Nat) : (laterStop d a b c e).power = d.power := rfl
@[simp] theorem laterStop_key (d : Dev) (a b c e : Nat) : (laterStop d a b c e).key = d.key := rfl
@[simp] theorem laterStop_mgmt (d : Dev) (a b c e : Nat) : (laterStop d a b c e).mgmt = d.mgmt := rfl
@[simp] theorem laterStop_host (d : Dev) (a b c e : Nat) : (laterStop d a b c e).host = d.host := rfl
@[simp] theorem laterStop_time (d : Dev) (a b c e : Nat) : (laterStop d a b c e).time = d.time := rfl
@[simp] theorem laterStop_motion (d : Dev) (a b c e : Nat) : (laterStop d a b c e).motion = d.motion := rfl
@[simp] theorem laterStop_servo (d : Dev) (a b c e : Nat) : (laterStop d a b c e).servo = d.servo := rfl
@[simp] theorem laterStop_current (d : Dev) (a b c e : Nat) : (laterStop d a b c e).current = d.current := rfl
@[simp] theorem laterStop_stepper (d : Dev) (a b c e : Nat) : (laterStop d a b c e).stepper = d.stepper := rfl
@[simp] theorem laterStop_chans (d : Dev) (a b c e : Nat) : (laterStop d a b c e).chans = d.chans := rfl
@[simp] theorem laterStop_frames (d : Dev) (a b c e : Nat) : (laterStop d a b c e).frames = d.frames := rfl
@[simp] theorem laterStop_pulse (d : Dev) (a b c e : Nat) : (laterStop d a b c e).pulse = d.pulse := rfl
@[simp] theorem laterStop_emu (d : Dev) (a b c e : Nat) : (laterStop d a b c e).emu = d.emu := rfl
@[simp] theorem laterStop_segs (d : Dev) (a b c e : Nat) : (laterStop d a b c e).segs = d.segs := rfl
@[simp] theorem laterStop_heads (d : Dev) (a b c e : Nat) : (laterStop d a b c e).heads = d.heads := rfl
@[simp] theorem laterStop_pdus (d : Dev) (a b c e : Nat) : (laterStop d a b c e).pdus = d.pdus := rfl
@[simp] theorem laterStop_pdus1 (d : Dev) (a b c e : Nat) : (laterStop d a b c e).pdus1 = d.pdus1 := rfl
@[simp] theorem laterStop_pdus2 (d : Dev) (a b c e : Nat) : (laterStop d a b c e).pdus2 = d.pdus2 := rfl
@[simp] theorem laterStop_shadow (d : Dev) (a b c e : Nat) : (laterStop d a b c e).shadow = d.shadow := rfl
@[simp] theorem laterStop_pads (d : Dev) (a b c e : Nat) : (laterStop d a b c e).pads = d.pads := rfl
@[simp] theorem laterStop_memt (d : Dev) (a b c e : Nat) : (laterStop d a b c e).memt = d.memt := rfl
@[simp] theorem laterStop_acq (d : Dev) (a b c e : Nat) : (laterStop d a b c e).acq = d.acq := rfl
@[simp] theorem laterStop_pair (d : Dev) (a b c e : Nat) : (laterStop d a b c e).pair = d.pair := rfl
@[simp] theorem laterStop_free (d : Dev) (a b c e : Nat) : (laterStop d a b c e).free = d.free := rfl
@[simp] theorem laterStop_out (d : Dev) (a b c e : Nat) : (laterStop d a b c e).out = d.out := rfl

/-! A signed write changes the objects only. -/
@[simp] theorem osi_blobs (w : Nat) (d : Dev) (i b : Nat) (v : Int) : (osi w d i b v).blobs = d.blobs := rfl
@[simp] theorem osi_inForce (w : Nat) (d : Dev) (i b : Nat) (v : Int) : (osi w d i b v).inForce = d.inForce := rfl
@[simp] theorem osi_fc (w : Nat) (d : Dev) (i b : Nat) (v : Int) : (osi w d i b v).fc = d.fc := rfl
@[simp] theorem osi_power (w : Nat) (d : Dev) (i b : Nat) (v : Int) : (osi w d i b v).power = d.power := rfl
@[simp] theorem osi_key (w : Nat) (d : Dev) (i b : Nat) (v : Int) : (osi w d i b v).key = d.key := rfl
@[simp] theorem osi_mgmt (w : Nat) (d : Dev) (i b : Nat) (v : Int) : (osi w d i b v).mgmt = d.mgmt := rfl
@[simp] theorem osi_host (w : Nat) (d : Dev) (i b : Nat) (v : Int) : (osi w d i b v).host = d.host := rfl
@[simp] theorem osi_time (w : Nat) (d : Dev) (i b : Nat) (v : Int) : (osi w d i b v).time = d.time := rfl
@[simp] theorem osi_motion (w : Nat) (d : Dev) (i b : Nat) (v : Int) : (osi w d i b v).motion = d.motion := rfl
@[simp] theorem osi_servo (w : Nat) (d : Dev) (i b : Nat) (v : Int) : (osi w d i b v).servo = d.servo := rfl
@[simp] theorem osi_current (w : Nat) (d : Dev) (i b : Nat) (v : Int) : (osi w d i b v).current = d.current := rfl
@[simp] theorem osi_stepper (w : Nat) (d : Dev) (i b : Nat) (v : Int) : (osi w d i b v).stepper = d.stepper := rfl
@[simp] theorem osi_chans (w : Nat) (d : Dev) (i b : Nat) (v : Int) : (osi w d i b v).chans = d.chans := rfl
@[simp] theorem osi_frames (w : Nat) (d : Dev) (i b : Nat) (v : Int) : (osi w d i b v).frames = d.frames := rfl
@[simp] theorem osi_pulse (w : Nat) (d : Dev) (i b : Nat) (v : Int) : (osi w d i b v).pulse = d.pulse := rfl
@[simp] theorem osi_emu (w : Nat) (d : Dev) (i b : Nat) (v : Int) : (osi w d i b v).emu = d.emu := rfl
@[simp] theorem osi_segs (w : Nat) (d : Dev) (i b : Nat) (v : Int) : (osi w d i b v).segs = d.segs := rfl
@[simp] theorem osi_heads (w : Nat) (d : Dev) (i b : Nat) (v : Int) : (osi w d i b v).heads = d.heads := rfl
@[simp] theorem osi_pdus (w : Nat) (d : Dev) (i b : Nat) (v : Int) : (osi w d i b v).pdus = d.pdus := rfl
@[simp] theorem osi_pdus1 (w : Nat) (d : Dev) (i b : Nat) (v : Int) : (osi w d i b v).pdus1 = d.pdus1 := rfl
@[simp] theorem osi_pdus2 (w : Nat) (d : Dev) (i b : Nat) (v : Int) : (osi w d i b v).pdus2 = d.pdus2 := rfl
@[simp] theorem osi_shadow (w : Nat) (d : Dev) (i b : Nat) (v : Int) : (osi w d i b v).shadow = d.shadow := rfl
@[simp] theorem osi_pads (w : Nat) (d : Dev) (i b : Nat) (v : Int) : (osi w d i b v).pads = d.pads := rfl
@[simp] theorem osi_memt (w : Nat) (d : Dev) (i b : Nat) (v : Int) : (osi w d i b v).memt = d.memt := rfl
@[simp] theorem osi_acq (w : Nat) (d : Dev) (i b : Nat) (v : Int) : (osi w d i b v).acq = d.acq := rfl
@[simp] theorem osi_pair (w : Nat) (d : Dev) (i b : Nat) (v : Int) : (osi w d i b v).pair = d.pair := rfl
@[simp] theorem osi_free (w : Nat) (d : Dev) (i b : Nat) (v : Int) : (osi w d i b v).free = d.free := rfl
@[simp] theorem osi_out (w : Nat) (d : Dev) (i b : Nat) (v : Int) : (osi w d i b v).out = d.out := rfl

/-! Fields of the state after the replacement of a node. -/
@[simp] theorem setNd_dev (s : State) (n : NodeId) (m : NodeSt) : (setNd s n m).dev = s.dev := rfl
@[simp] theorem setNd_isl (s : State) (n : NodeId) (m : NodeSt) : (setNd s n m).isl = s.isl := rfl
@[simp] theorem setNd_mem (s : State) (n : NodeId) (m : NodeSt) : (setNd s n m).mem = s.mem := rfl
@[simp] theorem setNd_pending (s : State) (n : NodeId) (m : NodeSt) : (setNd s n m).pending = s.pending := rfl

end Sys2Proof.Machine
end

