-- ==== Sys2Proof/Laws/Table.lean ====
section
/-! SUPPORT. The laws of sparse tables: a read after a write, and that every operation keeps the canonical form. -/
namespace Sys2Proof.Machine

variable {α : Type}

@[simp] theorem tget_nil (d : Nat → α) (k : Nat) : tget d [] k = d k := rfl

/-- After a deletion the key reads as its default, and every other key as before. -/
theorem tget_tdel (d : Nat → α) (k j : Nat) : ∀ t : Table α, tget d (tdel k t) j = if j = k then d k else tget d t j
  | [] => by by_cases h : j = k <;> simp [tdel, h]
  | p :: t => by
    have ih := tget_tdel d k j t
    by_cases h : p.1 = k
    · by_cases e : j = k
      · subst e; simpa [tdel, h] using ih
      · have : ¬ k = j := fun x => e x.symm
        simp [tdel, h, ih, e, tget, this]
    · by_cases e : j = k
      · subst e; simp [tdel, h, tget, ih]
      · simp [tdel, h, tget, ih, e]

/-- Whether a key is listed. -/
def tlists (k : Nat) (t : Table α) : Prop := ∃ p ∈ t, p.1 = k

theorem not_tlists_tdel (k : Nat) : ∀ t : Table α, ¬ tlists k (tdel k t)
  | [] => by simp [tdel, tlists]
  | p :: t => by
    have ih := not_tlists_tdel k t
    by_cases h : p.1 = k
    · simpa [tdel, h] using ih
    · rintro ⟨q, hq, e⟩
      simp only [tdel, h, if_false, List.mem_cons] at hq
      rcases hq with rfl | hq
      · exact h e
      · exact ih ⟨q, hq, e⟩

/-- An insertion of a key that is not listed: the key reads as the value, every other key as before. -/
theorem tget_tinsert (d : Nat → α) (k j : Nat) (v : α) :
    ∀ t : Table α, ¬ tlists k t → tget d (tinsert k v t) j = if j = k then v else tget d t j
  | [], _ => by
    by_cases h : j = k
    · simp [tinsert, tget, h]
    · have : ¬ k = j := fun x => h x.symm
      simp [tinsert, tget, h, this]
  | p :: t, hn => by
    have hp : p.1 ≠ k := fun e => hn ⟨p, by simp, e⟩
    have ht : ¬ tlists k t := fun ⟨q, hq, e⟩ => hn ⟨q, by simp [hq], e⟩
    have ih := tget_tinsert d k j v t ht
    by_cases h : j = k
    · subst h
      by_cases l : j < p.1
      · simp [tinsert, l, tget]
      · simp [tinsert, l, tget, hp, ih]
    · have : ¬ k = j := fun x => h x.symm
      by_cases l : k < p.1
      · simp [tinsert, l, tget, this, h]
      · by_cases e : p.1 = j
        · subst e; simp [tinsert, l, tget, h]
        · simp [tinsert, l, tget, e, ih, h]

/-- A read after a write of the table. -/
theorem tget_tput [DecidableEq α] (d : Nat → α) (t : Table α) (k j : Nat) (v : α) :
    tget d (tput d t k v) j = if j = k then v else tget d t j := by
  unfold tput
  by_cases hv : v = d k
  · simp only [hv, if_true]
    rw [tget_tdel]
  · simp only [hv, if_false]
    rw [tget_tinsert d k j v _ (not_tlists_tdel k t), tget_tdel]
    by_cases h : j = k <;> simp [h]

@[simp] theorem tget_tput_same [DecidableEq α] (d : Nat → α) (t : Table α) (k : Nat) (v : α) : tget d (tput d t k v) k = v := by
  simp [tget_tput]

theorem tget_tput_other [DecidableEq α] (d : Nat → α) (t : Table α) {k j : Nat} (v : α) (h : j ≠ k) :
    tget d (tput d t k v) j = tget d t j := by simp [tget_tput, h]

/-! The canonical form. -/

/-- Keys rise above a bound. -/
theorem tsorted_some_iff (lo : Nat) (t : Table α) : tsorted (some lo) t = true ↔ (tsorted none t = true ∧ ∀ p ∈ t, lo < p.1) := by
  induction t generalizing lo with
  | nil => simp [tsorted]
  | cons p t ih =>
    simp only [tsorted, Bool.and_eq_true, decide_eq_true_eq, List.mem_cons, forall_eq_or_imp]
    constructor
    · rintro ⟨h1, h2⟩
      refine ⟨h2, h1, fun q hq => ?_⟩
      exact Nat.lt_trans h1 (((ih p.1).1 h2).2 q hq)
    · rintro ⟨h2, h1, _⟩
      exact ⟨h1, h2⟩

theorem tsorted_cons (p : Nat × α) (t : Table α) :
    tsorted none (p :: t) = true ↔ (tsorted none t = true ∧ ∀ q ∈ t, p.1 < q.1) := by
  simp only [tsorted]
  exact tsorted_some_iff p.1 t

theorem mem_tdel {k : Nat} {q : Nat × α} : ∀ {t : Table α}, q ∈ tdel k t → q ∈ t
  | [], h => by simp [tdel] at h
  | p :: t, h => by
    by_cases e : p.1 = k
    · simp only [tdel, e, if_true] at h
      exact List.mem_cons_of_mem _ (mem_tdel h)
    · simp only [tdel, e, if_false, List.mem_cons] at h
      rcases h with rfl | h
      · simp
      · exact List.mem_cons_of_mem _ (mem_tdel h)

theorem tsorted_tdel (k : Nat) : ∀ t : Table α, tsorted none t = true → tsorted none (tdel k t) = true
  | [], _ => rfl
  | p :: t, h => by
    obtain ⟨h1, h2⟩ := (tsorted_cons p t).1 h
    by_cases e : p.1 = k
    · simpa [tdel, e] using tsorted_tdel k t h1
    · simp only [tdel, e, if_false]
      exact (tsorted_cons p _).2 ⟨tsorted_tdel k t h1, fun q hq => h2 q (mem_tdel hq)⟩

theorem mem_tinsert {k : Nat} {v : α} {q : Nat × α} : ∀ {t : Table α}, q ∈ tinsert k v t → q = (k, v) ∨ q ∈ t
  | [], h => by simpa [tinsert] using h
  | p :: t, h => by
    by_cases l : k < p.1
    · simp only [tinsert, l, if_true, List.mem_cons] at h
      rcases h with h | h | h <;> simp [h]
    · simp only [tinsert, l, if_false, List.mem_cons] at h
      rcases h with h | h
      · simp [h]
      · rcases mem_tinsert h with h | h <;> simp [h]

theorem tsorted_tinsert (k : Nat) (v : α) :
    ∀ t : Table α, ¬ tlists k t → tsorted none t = true → tsorted none (tinsert k v t) = true
  | [], _, _ => rfl
  | p :: t, hn, h => by
    have hp : p.1 ≠ k := fun e => hn ⟨p, by simp, e⟩
    have ht : ¬ tlists k t := fun ⟨q, hq, e⟩ => hn ⟨q, by simp [hq], e⟩
    obtain ⟨h1, h2⟩ := (tsorted_cons p t).1 h
    by_cases l : k < p.1
    · simp only [tinsert, l, if_true]
      refine (tsorted_cons _ _).2 ⟨h, ?_⟩
      intro q hq
      rcases List.mem_cons.1 hq with rfl | hq
      · exact l
      · exact Nat.lt_trans l (h2 q hq)
    · simp only [tinsert, l, if_false]
      refine (tsorted_cons _ _).2 ⟨tsorted_tinsert k v t ht h1, ?_⟩
      intro q hq
      rcases mem_tinsert hq with rfl | hq
      · exact Nat.lt_of_le_of_ne (Nat.le_of_not_lt l) hp
      · exact h2 q hq

/-- A write keeps the canonical form. -/
theorem twf_tput [DecidableEq α] (d : Nat → α) (t : Table α) (k : Nat) (v : α) (h : twf d t = true) : twf d (tput d t k v) = true := by
  simp only [twf, Bool.and_eq_true, List.all_eq_true, decide_eq_true_eq] at h ⊢
  obtain ⟨hs, ha⟩ := h
  unfold tput
  by_cases hv : v = d k
  · simp only [hv, if_true]
    exact ⟨tsorted_tdel k t hs, fun p hp => ha p (mem_tdel hp)⟩
  · simp only [hv, if_false]
    refine ⟨tsorted_tinsert k v _ (not_tlists_tdel k t) (tsorted_tdel k t hs), fun p hp => ?_⟩
    rcases mem_tinsert hp with rfl | hp
    · exact hv
    · exact ha p (mem_tdel hp)

end Sys2Proof.Machine
end

