-- ==== Sys2Proof/Laws/Ops.lean ====
section
/-! SUPPORT. What the shared operations do, once each: reads after writes of objects, the units' parts, and the end of a step. -/
namespace Sys2Proof.Machine

/-! Objects. -/

theorem okey_inj {i j a b : Nat} (ha : a < 256) (hb : b < 256) : okey i a = okey j b ↔ i = j ∧ a = b := by
  unfold okey; omega

/-- A read after a write of an object. -/
theorem og_os (d : Dev) (i b v j c : Nat) : og (os d i b v) j c = if okey j c = okey i b then v else og d j c := by
  simp [og, os, tget_tput]

@[simp] theorem og_os_same (d : Dev) (i b v : Nat) : og (os d i b v) i b = v := by simp [og_os]

theorem os_other (d : Dev) (i b v k : Nat) (h : k ≠ okey i b) : tget objDefault (os d i b v).objs k = tget objDefault d.objs k := by
  simp [os, tget_tput, h]

@[simp] theorem cg_os (d : Dev) (i b v j c : Nat) : cg (os d i b v) j c = cg d j c := rfl

/-- Objects only. -/
theorem og_congr {a b : Dev} (h : a.objs = b.objs) (i c : Nat) : og a i c = og b i c := by simp [og, h]

@[simp] theorem og_emit (d : Dev) (m : Msg) (i c : Nat) : og (emit d m) i c = og d i c := rfl
@[simp] theorem og_answer (d : Dev) (st : Status) (i c : Nat) : og (answer d st) i c = og d i c := rfl
@[simp] theorem og_setMot (d : Dev) (n : Nat) (m : MotionSt) (i c : Nat) : og (setMot d n m) i c = og d i c := rfl
@[simp] theorem og_setSrv (d : Dev) (n : Nat) (m : ServoSt) (i c : Nat) : og (setSrv d n m) i c = og d i c := rfl
@[simp] theorem og_setCur (d : Dev) (n : Nat) (m : CurrentSt) (i c : Nat) : og (setCur d n m) i c = og d i c := rfl
@[simp] theorem og_setStp (d : Dev) (n : Nat) (m : StepperSt) (i c : Nat) : og (setStp d n m) i c = og d i c := rfl
@[simp] theorem og_setPls (d : Dev) (n : Nat) (m : PulseSt) (i c : Nat) : og (setPls d n m) i c = og d i c := rfl
@[simp] theorem og_setSeg (d : Dev) (n : Nat) (m : SegSt) (i c : Nat) : og (setSeg d n m) i c = og d i c := rfl
@[simp] theorem og_setHd (d : Dev) (g j : Nat) (m : HeadNode) (i c : Nat) : og (setHd d g j m) i c = og d i c := rfl
@[simp] theorem og_setAset (d : Dev) (n : Nat) (m : SetSt) (i c : Nat) : og (setAset d n m) i c = og d i c := rfl
@[simp] theorem og_setDom (d : Dev) (n : Nat) (x : DomainSt) (i c : Nat) : og (setDom d n x) i c = og d i c := rfl
@[simp] theorem og_later (d : Dev) (a b e i c : Nat) : og (later d a b e) i c = og d i c := rfl
@[simp] theorem og_laterStop (d : Dev) (a b e f i c : Nat) : og (laterStop d a b e f) i c = og d i c := rfl

theorem ObjsKept.refl (a : Dev) (l : List Nat) : ObjsKept a a l := fun _ _ => rfl

theorem ObjsKept.trans {a b c : Dev} {l : List Nat} (h : ObjsKept a b l) (g : ObjsKept b c l) : ObjsKept a c l :=
  fun k hk => (g k hk).trans (h k hk)

theorem ObjsKept.os {a b : Dev} {l : List Nat} (h : ObjsKept a b l) (i s v : Nat) (hk : okey i s ∈ l) :
    ObjsKept a (Machine.os b i s v) l := fun k hn => by
  rw [os_other b i s v k (fun e => hn (e ▸ hk))]; exact h k hn

theorem ObjsKept.congr {a b c : Dev} {l : List Nat} (h : ObjsKept a b l) (e : c.objs = b.objs) : ObjsKept a c l :=
  fun k hn => by rw [e]; exact h k hn

/-- Device `b` differs from `a` in object values only. -/
def ObjsOnly (a b : Dev) : Prop := b = { a with objs := b.objs }

theorem ObjsOnly.refl (a : Dev) : ObjsOnly a a := rfl
theorem ObjsOnly.os {a b : Dev} (h : ObjsOnly a b) (i s v : Nat) : ObjsOnly a (Machine.os b i s v) := by
  have : Machine.os b i s v = { b with objs := (Machine.os b i s v).objs } := rfl
  unfold ObjsOnly at h ⊢
  rw [this, h]
theorem ObjsOnly.trans {a b c : Dev} (h : ObjsOnly a b) (g : ObjsOnly b c) : ObjsOnly a c := by
  unfold ObjsOnly at h g ⊢
  rw [g, h]

/-! Parts of units. -/

theorem mot_setMot (d : Dev) (n m : Nat) (x : MotionSt) : mot (setMot d n x) m = if m = n then x else mot d m := by
  simp [mot, setMot, tget_tput]
theorem seg_setSeg (d : Dev) (n m : Nat) (x : SegSt) : seg (setSeg d n x) m = if m = n then x else seg d m := by
  simp [seg, setSeg, tget_tput]
theorem hd_setHd (d : Dev) (g j h k : Nat) (x : HeadNode) :
    hd (setHd d g j x) h k = if nkey h k = nkey g j then x else hd d h k := by
  simp [hd, setHd, tget_tput]
theorem srv_setSrv (d : Dev) (n m : Nat) (x : ServoSt) : srv (setSrv d n x) m = if m = n then x else srv d m := by
  simp [srv, setSrv, tget_tput]
theorem cur_setCur (d : Dev) (n m : Nat) (x : CurrentSt) : cur (setCur d n x) m = if m = n then x else cur d m := by
  simp [cur, setCur, tget_tput]
theorem stp_setStp (d : Dev) (n m : Nat) (x : StepperSt) : stp (setStp d n x) m = if m = n then x else stp d m := by
  simp [stp, setStp, tget_tput]
theorem pls_setPls (d : Dev) (n m : Nat) (x : PulseSt) : pls (setPls d n x) m = if m = n then x else pls d m := by
  simp [pls, setPls, tget_tput]
theorem aset_setAset (d : Dev) (n m : Nat) (x : SetSt) : aset (setAset d n x) m = if m = n then x else aset d m := by
  simp [aset, setAset, tget_tput]
theorem nd_setNd (s : State) (n m : NodeId) (x : NodeSt) :
    nd (setNd s n x) m = if nkey (nodeSeg m) (nodeNum m) = nkey (nodeSeg n) (nodeNum n) then x else nd s m := by
  simp [nd, setNd, tget_tput]

/-! The end of a step. -/

/-- The oldest report goes first. -/
theorem drain_succ (n : Nat) (d : Dev) : drain (n + 1) d = (match d.fc.todo with
    | [] => d
    | r :: rs =>
      drain n (stopOf (assertReport { d with fc := { d.fc with todo := rs } } r).1 r
        (assertReport { d with fc := { d.fc with todo := rs } } r).2)) := by rfl

theorem drain_settled (n : Nat) (d : Dev) (h : d.fc.todo = []) : drain n d = d := by
  cases n with
  | zero => rfl
  | succ n => rw [drain_succ, h]

/-- Without a report nothing follows a step. -/
theorem finish_settled (d : Dev) (h : d.fc.todo = []) : finish d = d := by
  unfold finish; exact drain_settled 4096 d h

@[simp] theorem upd_isl (s : State) (f : Dev → Dev) : (upd s f).isl = s.isl := by
  simp only [upd]; split <;> rfl
@[simp] theorem upd_nodes (s : State) (f : Dev → Dev) : (upd s f).nodes = s.nodes := by
  simp only [upd]; split <;> rfl
@[simp] theorem upd_pending (s : State) (f : Dev → Dev) : (upd s f).pending = s.pending := by
  simp only [upd]; split <;> rfl

/-- A step of the device keeps the shared memory, or a chip reset in it clears it (R384). -/
theorem upd_mem (s : State) (f : Dev → Dev) : (upd s f).mem = s.mem ∨ (upd s f).mem = .reset := by
  simp only [upd]; split
  · right; rfl
  · left; rfl

/-- A step that reports nothing and resets nothing changes the device as it says. -/
theorem upd_settled (s : State) (f : Dev → Dev) (h1 : (f s.dev).fc.todo = []) (h2 : (f s.dev).power.cleared = false) :
    upd s f = { s with dev := f s.dev } := by
  simp [upd, finish_settled _ h1, h2]

/-- A step depends on the device its change leaves. -/
theorem upd_const (s : State) (f : Dev → Dev) : upd s f = upd s (fun _ => f s.dev) := rfl

end Sys2Proof.Machine
end

