-- ==== Sys2Proof/Laws/Collector.lean ====
section
/-! SUPPORT. What the collector's operations do, once each: counters, numbering, the log, the latch, and a whole report in the calm case. -/
namespace Sys2Proof.Machine

/-- A bit written apart from the one read. -/
theorem bit_setBit_ne {v n c : Nat} {x : Bool} (h : c ≠ n) : bit (setBit v n x) c = bit v c := by rw [bit_setBit, if_neg h]

/-- A statistics counter that does not reach its end counts by one (R388). -/
theorem bump_small {d : Dev} {i s : Nat} (h : og d i s < 0xFFFFFFFE) : bump d i s = os d i s (og d i s + 1) := by
  have h1 : ¬ 0xFFFFFFFF ≤ og d i s := by omega
  have h2 : ¬ og d i s + 1 = 0xFFFFFFFF := by omega
  simp only [bump, h1, if_false, h2]

/-- The arbiter's next number (R376). -/
theorem number_ready {d : Dev} (h1 : ready d 2 = true) (h2 : sealed d = false) :
    number d = ({ d with fc := { d.fc with nextSeq := d.fc.nextSeq + 1 } }, some d.fc.nextSeq) := by
  have h1' : bit (og d 0x1010 0) 2 = true := h1
  simp [number, h1', h2]

/-- An entry goes to the end of a buffer with room (R455). -/
theorem logEntry_room {d : Dev} {e : LogEntry} (h1 : commitWindow d = false) (h2 : d.fc.waiting < 1024) :
    logEntry d e = bufferEntry d e := by
  have : ¬ 1024 ≤ d.fc.waiting := by omega
  simp [logEntry, h1, this]

/-- What a buffered entry leaves alone: everything but the collector and the subscribers. -/
theorem bufferEntry_frame (d : Dev) (e : LogEntry) :
    bufferEntry d e = { d with fc := (bufferEntry d e).fc, host := (bufferEntry d e).host } := rfl

theorem bufferEntry_fc {d : Dev} {e : LogEntry} (h : d.fc.log.length < 1024) :
    (bufferEntry d e).fc = { d.fc with log := d.fc.log ++ [e], waiting := d.fc.waiting + 1, cond := setBit d.fc.cond 185 false } := by
  have : ¬ 1024 < (d.fc.log ++ [e]).length := by simp; omega
  simp only [bufferEntry, notify, this, if_false]

@[simp] theorem og_bufferEntry (d : Dev) (e : LogEntry) (i c : Nat) : og (bufferEntry d e) i c = og d i c := rfl

/-- What a source's status objects may change. -/
theorem sourceStatus_frame (d : Dev) (n m : Nat) (h2 : og d 0x2020 2 < 0xFFFFFFFE) (h3 : og d 0x2020 3 < 0xFFFFFFFE) :
    sourceStatus d n m = { d with objs := (sourceStatus d n m).objs } ∧
    ObjsKept d (sourceStatus d n m) [okey 0x2000 1, okey 0x2010 2, okey 0x2010 3, okey 0x2020 1, okey 0x2020 2, okey 0x2020 3] ∧
    (∀ b, b ≠ 5 → bit (og (sourceStatus d n m) 0x2000 1) b = bit (og d 0x2000 1) b) := by
  unfold sourceStatus
  have k2 : og (osb d 0x2020 1 0 false) 0x2020 2 < 0xFFFFFFFE := by simp only [osb, og_os, okey]; simpa using h2
  have k3 : ∀ c : Nat, og (osb d 0x2020 1 c false) 0x2020 3 < 0xFFFFFFFE := fun c => by
    simp only [osb, og_os, okey]; simpa using h3
  by_cases e1 : n = 1
  · simp only [e1, if_true]
    refine ⟨rfl, (ObjsKept.refl d _).os _ _ _ (by simp), fun b hb => ?_⟩
    simp only [osb, og_os_same]; exact bit_setBit_ne hb
  by_cases e2 : n = 2
  · subst e2
    simp only [show ¬ (2 = 1) by omega, if_false, if_true, bump_small k2]
    refine ⟨rfl, ((ObjsKept.refl d _).os _ _ _ (by simp)).os _ _ _ (by simp), fun b _ => ?_⟩
    simp [osb, og_os, okey]
  by_cases e3 : n = 3
  · subst e3
    simp only [show ¬ (3 = 1) by omega, show ¬ (3 = 2) by omega, if_false, if_true, bump_small (k3 _)]
    refine ⟨rfl, ((ObjsKept.refl d _).os _ _ _ (by simp)).os _ _ _ (by simp), fun b _ => ?_⟩
    simp [osb, og_os, okey]
  simp only [e1, e2, e3, if_false]
  split
  · split
    · refine ⟨rfl, ((ObjsKept.refl d _).os _ _ _ (by simp)).os _ _ _ (by simp), fun b _ => ?_⟩
      simp [osb, og_os, okey]
    · refine ⟨rfl, (ObjsKept.refl d _).os _ _ _ (by simp), fun b _ => ?_⟩
      simp [osb, og_os, okey]
  · exact ⟨rfl, ObjsKept.refl d _, fun b _ => rfl⟩

/-- The first-source latch changes objects only. -/
theorem latch_frame (d : Dev) (r : Report) (q : Nat) : ObjsOnly d (latch d r q) := by
  unfold latch
  by_cases h : og d 0x3800 2 = 0xFF
  · rw [if_pos h]
    exact (((((((ObjsOnly.refl d).os _ _ _).os _ _ _).os _ _ _).os _ _ _).os _ _ _).os _ _ _).os _ _ _
  · rw [if_neg h]
    exact (ObjsOnly.refl d).os _ _ _

/-- The first-source latch changes its own objects only. -/
theorem latch_kept (d : Dev) (r : Report) (q : Nat) :
    ObjsKept d (latch d r q) ((List.range 8).map (fun i => okey 0x3800 (i + 1))) := by
  unfold latch
  by_cases h : og d 0x3800 2 = 0xFF
  · rw [if_pos h]
    refine ((((((((ObjsKept.refl d _).os _ _ _ ?_).os _ _ _ ?_).os _ _ _ ?_).os _ _ _ ?_).os _ _ _ ?_).os _ _ _ ?_).os _ _ _ ?_) <;>
      decide
  · rw [if_neg h]
    exact ObjsKept.os (ObjsKept.refl _ _) _ _ _ (by decide)

/-- The sets' notes of a source reach the acquisition engine only. -/
theorem noteFault_frame (d : Dev) (n : Nat) (q : Option Nat) : noteFault d n q = { d with acq := (noteFault d n q).acq } := by
  have : ∀ (l : List Nat) (d : Dev), l.foldl (fun d a =>
      if og d (0x3613 + 16 * a) 1 = 0 then d else setAset d a { aset d a with faults := (aset d a).faults ++ [(n, q.getD 0)] }) d =
      { d with acq := (l.foldl (fun d a =>
        if og d (0x3613 + 16 * a) 1 = 0 then d
        else setAset d a { aset d a with faults := (aset d a).faults ++ [(n, q.getD 0)] }) d).acq } := by
    intro l
    induction l with
    | nil => intro d; rfl
    | cons a l ih =>
      intro d
      simp only [List.foldl_cons]
      split
      · exact ih d
      · rw [ih]; rfl
  exact this _ d

end Sys2Proof.Machine
end

