-- ==== Sys2Proof/Laws/Memory.lean ====
section
/-! SUPPORT. The shared memory: a read after a write, and that every operation on it keeps its canonical form. -/
namespace Sys2Proof.Machine

/-- One byte after the write of one byte. -/
theorem memByte_memPut (m : MemSt) (a b : Nat) (v : Byte) : memByte (memPut m a v) b = if b = a then v else memByte m b := by
  simp [memByte, memPut, tget_tput]

/-- Bytes outside a write read as before, bytes inside it as written. -/
theorem memByte_memWrite (bs : Bytes) : ∀ (m : MemSt) (a b : Nat),
    memByte (memWrite m a bs) b = if a ≤ b ∧ b < a + bs.length then bs.getD (b - a) 0 else memByte m b := by
  induction bs with
  | nil => intro m a b; simp only [memWrite, List.length_nil]; split
           · omega
           · rfl
  | cons v bs ih =>
    intro m a b
    simp only [memWrite, ih, memByte_memPut, List.length_cons]
    by_cases h1 : b = a
    · subst h1
      have : ¬ (b + 1 ≤ b ∧ b < b + 1 + bs.length) := by omega
      simp [this]
    · by_cases h2 : a + 1 ≤ b ∧ b < a + 1 + bs.length
      · have h3 : a ≤ b ∧ b < a + (bs.length + 1) := by omega
        have h4 : b - a = (b - (a + 1)) + 1 := by omega
        simp [h2, h3, h4]
      · have h3 : ¬ (a ≤ b ∧ b < a + (bs.length + 1)) := by omega
        rw [if_neg h2, if_neg h1, if_neg h3]

/-- The canonical form of the cells of a memory. -/
def MemSt.wf (m : MemSt) : Prop := Memory.wf m.cells = true

theorem MemSt.wf_reset : MemSt.reset.wf := rfl

theorem MemSt.wf_of_cells {m n : MemSt} (h : m.wf) (e : n.cells = m.cells) : n.wf := by unfold MemSt.wf; rw [e]; exact h

theorem MemSt.wf_memPut {m : MemSt} (a : Nat) (v : Byte) (h : m.wf) : (memPut m a v).wf := twf_tput _ _ _ _ h

theorem MemSt.wf_memWrite (bs : Bytes) : ∀ {m : MemSt} (a : Nat), m.wf → (memWrite m a bs).wf := by
  induction bs with
  | nil => intro m a h; exact h
  | cons v bs ih => intro m a h; exact ih (a + 1) (MemSt.wf_memPut a v h)

/-- A step of the device keeps the canonical form. -/
theorem wf_upd (s : State) (f : Dev → Dev) (h : s.mem.wf) : (upd s f).mem.wf := by
  rcases upd_mem s f with e | e
  · rw [e]; exact h
  · rw [e]; exact MemSt.wf_reset

/-- A property of states that each step of a fold keeps holds after the fold. -/
theorem foldl_keeps {α : Type} (P : State → Prop) (f : State → α → State) (hf : ∀ s a, P s → P (f s a)) :
    ∀ (l : List α) (s : State), P s → P (l.foldl f s)
  | [], _, h => h
  | a :: l, s, h => foldl_keeps P f hf l (f s a) (hf s a h)

theorem wf_upsetWord (s : State) (op : WordOp) (h : s.mem.wf) : (upsetWord s op).mem.wf := by
  unfold upsetWord
  repeat' split
  all_goals first | exact h | exact MemSt.wf_of_cells h rfl

/-- One access of a bank keeps the canonical form. -/
theorem wf_serve (s : State) (op : WordOp) (h : s.mem.wf) : (serve s op).mem.wf := by
  have hu := wf_upsetWord s op h
  have hf : ∀ t : State, t.mem.wf → ∀ w, (freshWord t w).mem.wf := fun t ht w => MemSt.wf_of_cells ht rfl
  simp only [serve]
  repeat' split
  all_goals first
    | exact hu
    | exact MemSt.wf_memWrite _ _ (hf _ hu _)
    | exact MemSt.wf_memWrite _ _ (hf _ (MemSt.wf_of_cells hu rfl) _)

theorem wf_collide (s : State) (op : WordOp) (h : s.mem.wf) : (collide s op).mem.wf := h

theorem wf_retries : ∀ (n : Nat) (s : State) (ops : List WordOp), s.mem.wf → (retries n s ops).mem.wf
  | 0, _, _, h => h
  | n + 1, s, ops, h => by
    simp only [retries]
    have h1 := foldl_keeps (fun t => t.mem.wf) serve wf_serve (ops.filter (fun o => !loses ops o)) s h
    have h2 := foldl_keeps (fun t => t.mem.wf) collide wf_collide (ops.filter (loses ops)) _ h1
    have h3 := foldl_keeps (fun t => t.mem.wf) (fun s (o : WordOp) =>
      respond { s with dev := later (bump s.dev (0x3E30 + o.port) 2) 42 0 o.port } o.port 4 0) (fun _ _ h => h)
      ((ops.filter (loses ops)).filter (fun o => o.port != 13)) _ h2
    split
    · exact h3
    · exact wf_retries n _ _ h3

theorem wf_serveClock (s : State) (ops : List WordOp) (h : s.mem.wf) : (serveClock s ops).mem.wf := by
  simp only [serveClock]
  have h1 := foldl_keeps (fun t => t.mem.wf) serve wf_serve
    ((ops.foldl (fun t o => opInsert o t) []).filter (fun o => !loses (ops.foldl (fun t o => opInsert o t) []) o)) s h
  have h2 := foldl_keeps (fun t => t.mem.wf) collide wf_collide
    ((ops.foldl (fun t o => opInsert o t) []).filter (loses (ops.foldl (fun t o => opInsert o t) []))) _ h1
  split
  · exact h2
  · exact wf_retries 16 _ _ h2

/-- The reset state's memory has the canonical form. -/
theorem reset_wf : State.reset.mem.wf := rfl

end Sys2Proof.Machine
end

