-- ==== Sys2Proof/Laws/PerInstr.lean ====
section
/-! SUPPORT. What kind of command each row is, constructor by constructor: the commands of nodes, of the island and of the shared memory
are different commands. -/
namespace Sys2Proof.Laws.reach

open Sys2Proof.Machine

/-- A command that acts on a node, one that reaches the island and one that reaches the shared memory are never the same. -/
def Statement (i : Instr) : Prop :=
  ((nodeOf i).isSome && (reachesIsland i || reachesMemory i)) = false ∧ (reachesIsland i && reachesMemory i) = false

theorem baseCycleStart : Statement .baseCycleStart := ⟨rfl, rfl⟩
theorem controlInstant : Statement .controlInstant := ⟨rfl, rfl⟩
theorem tightControlInstant : Statement .tightControlInstant := ⟨rfl, rfl⟩
theorem fieldCycleStart (l : Line) : Statement (.fieldCycleStart l) := ⟨rfl, rfl⟩
theorem windowCopyReceived (r : Ring) (j : RNode) (c : Chan) (typ flags : BitVec 8) (hdrOk crcOk : Bool) (inv err : BitVec 8) (claim cyc : BitVec 8) (data : Bytes) : Statement (.windowCopyReceived r j c typ flags hdrOk crcOk inv err claim cyc data) := ⟨rfl, rfl⟩
theorem axisFeedbackLoss (n : Ax) : Statement (.axisFeedbackLoss n) := ⟨rfl, rfl⟩
theorem axisCurrentFeedbackLoss (n : Ax) : Statement (.axisCurrentFeedbackLoss n) := ⟨rfl, rfl⟩
theorem nodeApplyInstant (nd : NodeId) (w : Win) : Statement (.nodeApplyInstant nd w) := ⟨rfl, rfl⟩
theorem axisCommandNone (n : Ax) (seq : BitVec 8) : Statement (.axisCommandNone n seq) := ⟨rfl, rfl⟩
theorem enable (n : Ax) (seq : BitVec 8) : Statement (.enable n seq) := ⟨rfl, rfl⟩
theorem disable (n : Ax) (seq : BitVec 8) : Statement (.disable n seq) := ⟨rfl, rfl⟩
theorem append (n : Ax) (seq : BitVec 8) : Statement (.append n seq) := ⟨rfl, rfl⟩
theorem stopHold (n : Ax) (seq : BitVec 8) : Statement (.stopHold n seq) := ⟨rfl, rfl⟩
theorem stopQuick (n : Ax) (seq : BitVec 8) : Statement (.stopQuick n seq) := ⟨rfl, rfl⟩
theorem resume (n : Ax) (seq : BitVec 8) : Statement (.resume n seq) := ⟨rfl, rfl⟩
theorem flush (n : Ax) (seq : BitVec 8) : Statement (.flush n seq) := ⟨rfl, rfl⟩
theorem home (n : Ax) (seq : BitVec 8) : Statement (.home n seq) := ⟨rfl, rfl⟩
theorem acknowledge (n : Ax) (seq : BitVec 8) : Statement (.acknowledge n seq) := ⟨rfl, rfl⟩
theorem limitReleased (n : Ax) (input : Fin 2) : Statement (.limitReleased n input) := ⟨rfl, rfl⟩
theorem limitChatter (n : Ax) (input : Fin 3) : Statement (.limitChatter n input) := ⟨rfl, rfl⟩
theorem velocityDurationEnd (n : Ax) : Statement (.velocityDurationEnd n) := ⟨rfl, rfl⟩
theorem dwellEnd (n : Ax) : Statement (.dwellEnd n) := ⟨rfl, rfl⟩
theorem gearSpanReached (n : Ax) : Statement (.gearSpanReached n) := ⟨rfl, rfl⟩
theorem gearEngageEnd (n : Ax) : Statement (.gearEngageEnd n) := ⟨rfl, rfl⟩
theorem livePhaseOffsetWrite (n : Ax) (phi : BitVec 64) : Statement (.livePhaseOffsetWrite n phi) := ⟨rfl, rfl⟩
theorem axisStall (n : Ax) : Statement (.axisStall n) := ⟨rfl, rfl⟩
theorem stepperFeedbackLoss (n : Ax) : Statement (.stepperFeedbackLoss n) := ⟨rfl, rfl⟩
theorem microstepTableWrite (t : Fin 4) (data : Bytes) : Statement (.microstepTableWrite t data) := ⟨rfl, rfl⟩
theorem nodeTargetMissing (r : Ring) (j : RNode) (w : Win) : Statement (.nodeTargetMissing r j w) := ⟨rfl, rfl⟩
theorem toothEvent (i : PIn) (dg : BitVec 32) (width : BitVec 32) : Statement (.toothEvent i dg width) := ⟨rfl, rfl⟩
theorem standstillTimeout (i : PIn) : Statement (.standstillTimeout i) := ⟨rfl, rfl⟩
theorem pulseInputSignalFault (i : PIn) : Statement (.pulseInputSignalFault i) := ⟨rfl, rfl⟩
theorem pulseInputLoss (i : PIn) : Statement (.pulseInputLoss i) := ⟨rfl, rfl⟩
theorem receiverSynchronised (g : Seg) (c : Chan) (eq eye : BitVec 8) : Statement (.receiverSynchronised g c eq eye) := ⟨rfl, rfl⟩
theorem receiverSyncLoss (g : Seg) (c : Chan) (inv : BitVec 8) : Statement (.receiverSyncLoss g c inv) := ⟨rfl, rfl⟩
theorem nodeWrapStart (r : Ring) (j : RNode) (c : Chan) : Statement (.nodeWrapStart r j c) := ⟨rfl, rfl⟩
theorem nodeWrapEnd (r : Ring) (j : RNode) (c : Chan) : Statement (.nodeWrapEnd r j c) := ⟨rfl, rfl⟩
theorem mouldWrite (g : Seg) (data : Bytes) : Statement (.mouldWrite g data) := ⟨rfl, rfl⟩
theorem fieldFrameReceived (l : Line) (k : FNode) (kind : Fin 4) (cable : Chan) (crcOk : Bool) (inv err : BitVec 8) (dev : BitVec 32) (alarm waited : Bool) (cyc : BitVec 3) (body : Bytes) : Statement (.fieldFrameReceived l k kind cable crcOk inv err dev alarm waited cyc body) := ⟨rfl, rfl⟩
theorem nodeExcluded (l : Line) (k : FNode) : Statement (.nodeExcluded l k) := ⟨rfl, rfl⟩
theorem segmentRequest (g : Seg) (v : BitVec 8) : Statement (.segmentRequest g v) := ⟨rfl, rfl⟩
theorem coldStartListenEnd (g : Seg) : Statement (.coldStartListenEnd g) := ⟨rfl, rfl⟩
theorem coldStartSlotEnd (g : Seg) (returned contention : Bool) : Statement (.coldStartSlotEnd g returned contention) := ⟨rfl, rfl⟩
theorem coldStartBackoffEnd (g : Seg) : Statement (.coldStartBackoffEnd g) := ⟨rfl, rfl⟩
theorem otherHeadHeard (g : Seg) (c : Chan) (crcOk : Bool) (kind : Fin 3) (claim : BitVec 8) (tag counter : BitVec 16) (cycle : BitVec 32) : Statement (.otherHeadHeard g c crcOk kind claim tag counter cycle) := ⟨rfl, rfl⟩
theorem integrationEnd (g : Seg) : Statement (.integrationEnd g) := ⟨rfl, rfl⟩
theorem rollCall (g : Seg) (seenA seenB : BitVec 16) : Statement (.rollCall g seenA seenB) := ⟨rfl, rfl⟩
theorem nodeRollCallFrame (nd : NodeId) (c : Chan) (count counter : BitVec 16) : Statement (.nodeRollCallFrame nd c count counter) := ⟨rfl, rfl⟩
theorem nodeFrameLockTaken (nd : NodeId) (tag : BitVec 16) : Statement (.nodeFrameLockTaken nd tag) := ⟨rfl, rfl⟩
theorem nodeFrameLockLost (nd : NodeId) : Statement (.nodeFrameLockLost nd) := ⟨rfl, rfl⟩
theorem nodeCopyReceived (r : Ring) (j : RNode) (c : Chan) (typ : BitVec 8) (hdrOk blockOk late : Bool) (seg : BitVec 8) (claim : BitVec 8) (cycle : BitVec 32) (flags : BitVec 8) (tag : BitVec 16) (pdu data : Bytes) : Statement (.nodeCopyReceived r j c typ hdrOk blockOk late seg claim cycle flags tag pdu data) := ⟨rfl, rfl⟩
theorem nodeSummationReceived (l : Line) (k : FNode) (c : Chan) (typ : BitVec 8) (ok late : Bool) (claim : BitVec 8) (cycle : BitVec 32) (flags : BitVec 8) (tag : BitVec 16) (corrections : List (BitVec 16 × BitVec 16)) (pdus : List Bytes) (coded : Bytes) : Statement (.nodeSummationReceived l k c typ ok late claim cycle flags tag corrections pdus coded) := ⟨rfl, rfl⟩
theorem nodeSendInstant (l : Line) (k : FNode) (kind : Fin 4) (c : Chan) (passing : BitVec 16) : Statement (.nodeSendInstant l k kind c passing) := ⟨rfl, rfl⟩
theorem mailboxReply (nd : NodeId) (seq : BitVec 8) (payload : Bytes) : Statement (.mailboxReply nd seq payload) := ⟨rfl, rfl⟩
theorem nodeMailboxTimeout (nd : NodeId) : Statement (.nodeMailboxTimeout nd) := ⟨rfl, rfl⟩
theorem nodeAbsent (nd : NodeId) : Statement (.nodeAbsent nd) := ⟨rfl, rfl⟩
theorem hostMailboxRequest (g : Seg) (payload : Bytes) : Statement (.hostMailboxRequest g payload) := ⟨rfl, rfl⟩
theorem chillRequest (cyc : BitVec 64) : Statement (.chillRequest cyc) := ⟨rfl, rfl⟩
theorem chillLatch : Statement .chillLatch := ⟨rfl, rfl⟩
theorem chillCollectionEnd : Statement .chillCollectionEnd := ⟨rfl, rfl⟩
theorem cyclePoint (i : Fin 8) : Statement (.cyclePoint i) := ⟨rfl, rfl⟩
theorem ptpAnnounce (d : Dom) (p : Port) (udp : Bool) (rank : List (BitVec 16)) (ident : BitVec 64) (utc : BitVec 16) (arb : Bool) (steps : BitVec 16) : Statement (.ptpAnnounce d p udp rank ident utc arb steps) := ⟨rfl, rfl⟩
theorem ptpSync (d : Dom) (udp : Bool) (t1 : BitVec 112) (dg : BitVec 32) : Statement (.ptpSync d udp t1 dg) := ⟨rfl, rfl⟩
theorem ptpDelayResponse (d : Dom) (udp : Bool) (delay : BitVec 64) : Statement (.ptpDelayResponse d udp delay) := ⟨rfl, rfl⟩
theorem ptpTimeout (d : Dom) : Statement (.ptpTimeout d) := ⟨rfl, rfl⟩
theorem delayReqSend (d : Dom) : Statement (.delayReqSend d) := ⟨rfl, rfl⟩
theorem pdelayReqSend (d : Dom) (p : Port) : Statement (.pdelayReqSend d p) := ⟨rfl, rfl⟩
theorem pdelayReqReceived (d : Dom) (p : Port) (udp : Bool) (dg : BitVec 32) (msg : Bytes) : Statement (.pdelayReqReceived d p udp dg msg) := ⟨rfl, rfl⟩
theorem alignmentHoldEnd : Statement .alignmentHoldEnd := ⟨rfl, rfl⟩
theorem sourceRelocked : Statement .sourceRelocked := ⟨rfl, rfl⟩
theorem timeSourceWrite (v : BitVec 8) : Statement (.timeSourceWrite v) := ⟨rfl, rfl⟩
theorem realign : Statement .realign := ⟨rfl, rfl⟩
theorem captureEvent (u : Fin 8) (dg : BitVec 32) : Statement (.captureEvent u dg) := ⟨rfl, rfl⟩
theorem captureArm (u : Fin 8) (on : Bool) : Statement (.captureArm u on) := ⟨rfl, rfl⟩
theorem timeTriggerFire (u : Fin 4) : Statement (.timeTriggerFire u) := ⟨rfl, rfl⟩
theorem timeTriggerEnable (u : Fin 4) (on : Bool) (instant : Option (BitVec 112)) : Statement (.timeTriggerEnable u on instant) := ⟨rfl, rfl⟩
theorem domainConfigWrite (d : Dom) (sub : BitVec 8) (v : BitVec 32) : Statement (.domainConfigWrite d sub v) := ⟨rfl, rfl⟩
theorem acquisitionArm (a : ASet) (id : BitVec 32) : Statement (.acquisitionArm a id) := ⟨rfl, rfl⟩
theorem acquisitionStop (a : ASet) : Statement (.acquisitionStop a) := ⟨rfl, rfl⟩
theorem manualTrigger (a : ASet) : Statement (.manualTrigger a) := ⟨rfl, rfl⟩
theorem deleteRecords (a : ASet) : Statement (.deleteRecords a) := ⟨rfl, rfl⟩
theorem autoTrigger (a : ASet) : Statement (.autoTrigger a) := ⟨rfl, rfl⟩
theorem rearmEnd (a : ASet) : Statement (.rearmEnd a) := ⟨rfl, rfl⟩
theorem uploadStart (id : BitVec 32) : Statement (.uploadStart id) := ⟨rfl, rfl⟩
theorem acquisitionDatagramSend (a : ASet) (upload : Bool) (p : Port) (upset : Fin 3) : Statement (.acquisitionDatagramSend a upload p upset) := ⟨rfl, rfl⟩
theorem pairEnableWrite (v : Bool) : Statement (.pairEnableWrite v) := ⟨rfl, rfl⟩
theorem pairLinkUp (lanes : BitVec 4) : Statement (.pairLinkUp lanes) := ⟨rfl, rfl⟩
theorem pairLaneLoss (lane : Fin 4) : Statement (.pairLaneLoss lane) := ⟨rfl, rfl⟩
theorem linkingTimeout : Statement .linkingTimeout := ⟨rfl, rfl⟩
theorem pairingMessage (crcOk : Bool) (m : PairingMsg) : Statement (.pairingMessage crcOk m) := ⟨rfl, rfl⟩
theorem beacon (crcOk : Bool) (k : BitVec 64) (t0 : BitVec 112) (claim st mode : BitVec 8) : Statement (.beacon crcOk k t0 claim st mode) := ⟨rfl, rfl⟩
theorem beaconMissing : Statement .beaconMissing := ⟨rfl, rfl⟩
theorem fingerprint (crcOk : Bool) (es : List (BitVec 8 × BitVec 8 × BitVec 32)) : Statement (.fingerprint crcOk es) := ⟨rfl, rfl⟩
theorem blockRequest (crcOk : Bool) (es : List (BitVec 8 × BitVec 8)) : Statement (.blockRequest crcOk es) := ⟨rfl, rfl⟩
theorem block (crcOk : Bool) (g : Seg) (node : BitVec 8) (cycle : BitVec 32) (data : Bytes) : Statement (.block crcOk g node cycle data) := ⟨rfl, rfl⟩
theorem exclusions (crcOk : Bool) (inTime : Bool) (es : List (BitVec 8 × BitVec 8)) : Statement (.exclusions crcOk inTime es) := ⟨rfl, rfl⟩
theorem digests (crcOk : Bool) (cycle : BitVec 32) (inp outp : BitVec 64) : Statement (.digests crcOk cycle inp outp) := ⟨rfl, rfl⟩
theorem fieldFrameMessage (crcOk : Bool) (l : Line) (k : FNode) (hdr : BitVec 8) (dev : BitVec 16) (body : Bytes) : Statement (.fieldFrameMessage crcOk l k hdr dev body) := ⟨rfl, rfl⟩
theorem localInputs (crcOk : Bool) (es : List PulseImage) : Statement (.localInputs crcOk es) := ⟨rfl, rfl⟩
theorem forward (crcOk : Bool) (item : FwdItem) (len : BitVec 32) (ke : Option (BitVec 64)) : Statement (.forward crcOk item len ke) := ⟨rfl, rfl⟩
theorem forwardedItemApply : Statement .forwardedItemApply := ⟨rfl, rfl⟩
theorem pairSafetyMessage (crcOk : Bool) (pdus : List Bytes) : Statement (.pairSafetyMessage crcOk pdus) := ⟨rfl, rfl⟩
theorem stateUnit (crcOk : Bool) (u : StateUnit) : Statement (.stateUnit crcOk u) := ⟨rfl, rfl⟩
theorem stateDigests (crcOk : Bool) (first : BitVec 16) (ds : List (BitVec 64)) : Statement (.stateDigests crcOk first ds) := ⟨rfl, rfl⟩
theorem stateTransferTimeout : Statement .stateTransferTimeout := ⟨rfl, rfl⟩
theorem inStepCountReached : Statement .inStepCountReached := ⟨rfl, rfl⟩
theorem announce (crcOk : Bool) (cycle : BitVec 64) (claim : BitVec 8) : Statement (.announce crcOk cycle claim) := ⟨rfl, rfl⟩
theorem takeoverCycle : Statement .takeoverCycle := ⟨rfl, rfl⟩
theorem partnerSendDecision (r : Ring) (c : Chan) (hdr : Option (BitVec 8)) (arrival : BitVec 32) : Statement (.partnerSendDecision r c hdr arrival) := ⟨rfl, rfl⟩
theorem pairDelay (crcOk : Bool) (response : Bool) (t : BitVec 112) (arrival : BitVec 112) : Statement (.pairDelay crcOk response t arrival) := ⟨rfl, rfl⟩
theorem release : Statement .release := ⟨rfl, rfl⟩
theorem repeatPairingChecks : Statement .repeatPairingChecks := ⟨rfl, rfl⟩
theorem adoptConfiguration (vals : List WrItem) : Statement (.adoptConfiguration vals) := ⟨rfl, rfl⟩
theorem islandCycle (disagree clock missed supply : Bool) (read : BitVec 8) (ovr : BitVec 8) : Statement (.islandCycle disagree clock missed supply read ovr) := ⟨rfl, rfl⟩
theorem islandSelfTestDone (pass : Bool) : Statement (.islandSelfTestDone pass) := ⟨rfl, rfl⟩
theorem siChangeAccepted (i : SIn) (level : Bool) : Statement (.siChangeAccepted i level) := ⟨rfl, rfl⟩
theorem testPulse (srcB : Bool) (low : BitVec 16) : Statement (.testPulse srcB low) := ⟨rfl, rfl⟩
theorem soOffPulse (o : SoPair) (pinB low : Bool) : Statement (.soOffPulse o pinB low) := ⟨rfl, rfl⟩
theorem discrepancyTimeout (f : Fin 64) : Statement (.discrepancyTimeout f) := ⟨rfl, rfl⟩
theorem permitDelayEnd (f : Fin 64) : Statement (.permitDelayEnd f) := ⟨rfl, rfl⟩
theorem unlockRundownEnd (f : Fin 64) : Statement (.unlockRundownEnd f) := ⟨rfl, rfl⟩
theorem safetyBlockWrite (data : Bytes) : Statement (.safetyBlockWrite data) := ⟨rfl, rfl⟩
theorem confirmationWrite (v : BitVec 32) : Statement (.confirmationWrite v) := ⟨rfl, rfl⟩
theorem safetyStore : Statement .safetyStore := ⟨rfl, rfl⟩
theorem safetyStoreComplete (ok : Bool) : Statement (.safetyStoreComplete ok) := ⟨rfl, rfl⟩
theorem islandRestart : Statement .islandRestart := ⟨rfl, rfl⟩
theorem vsoRangeChange (ok : Bool) : Statement (.vsoRangeChange ok) := ⟨rfl, rfl⟩
theorem nodeSafetyPdu (nd : NodeId) (claim : BitVec 8) (pdu : Bytes) : Statement (.nodeSafetyPdu nd claim pdu) := ⟨rfl, rfl⟩
theorem safetyWatchdogExpiry (nd : NodeId) : Statement (.safetyWatchdogExpiry nd) := ⟨rfl, rfl⟩
theorem sourceAssertion (src : Src) (cause : BitVec 16) (datum : BitVec 32) : Statement (.sourceAssertion src cause datum) := ⟨rfl, rfl⟩
theorem wireFault (src : Src) (both : Bool) (clocks : BitVec 16) : Statement (.wireFault src both clocks) := ⟨rfl, rfl⟩
theorem blockSelfTestDone (bit : Fin 32) (pass : Bool) : Statement (.blockSelfTestDone bit pass) := ⟨rfl, rfl⟩
theorem latchClear : Statement .latchClear := ⟨rfl, rfl⟩
theorem forceWrite (src : Src) (v : Bool) : Statement (.forceWrite src v) := ⟨rfl, rfl⟩
theorem forceEnableWrite (v : Bool) : Statement (.forceEnableWrite v) := ⟨rfl, rfl⟩
theorem counterClear (idx : BitVec 16) (sub : BitVec 8) (v : BitVec 32) : Statement (.counterClear idx sub v) := ⟨rfl, rfl⟩
theorem memoryAccess (reqs : List MemReq) : Statement (.memoryAccess reqs) := ⟨rfl, rfl⟩
theorem scrub : Statement .scrub := ⟨rfl, rfl⟩
theorem correctionRateCheck : Statement .correctionRateCheck := ⟨rfl, rfl⟩
theorem backgroundTestRegion (fails : BitVec 16) : Statement (.backgroundTestRegion fails) := ⟨rfl, rfl⟩
theorem regionRestore : Statement .regionRestore := ⟨rfl, rfl⟩
theorem backgroundTestEnable (on : Bool) : Statement (.backgroundTestEnable on) := ⟨rfl, rfl⟩
theorem fullMemoryTest : Statement .fullMemoryTest := ⟨rfl, rfl⟩
theorem fullMemoryTestEnd (mem : Fin 12) (addr : BitVec 32) : Statement (.fullMemoryTestEnd mem addr) := ⟨rfl, rfl⟩
theorem supplyWarning : Statement .supplyWarning := ⟨rfl, rfl⟩
theorem lastCommitComplete (us : BitVec 32) : Statement (.lastCommitComplete us) := ⟨rfl, rfl⟩
theorem commitEntryJournal : Statement .commitEntryJournal := ⟨rfl, rfl⟩
theorem warningEnd : Statement .warningEnd := ⟨rfl, rfl⟩
theorem resetLevelFall : Statement .resetLevelFall := ⟨rfl, rfl⟩
theorem bringUp (hw : BitVec 4) (testEn below vbak : Bool) : Statement (.bringUp hw testEn below vbak) := ⟨rfl, rfl⟩
theorem bringUpComplete : Statement .bringUpComplete := ⟨rfl, rfl⟩
theorem domainEnableWrite (mask : BitVec 8) : Statement (.domainEnableWrite mask) := ⟨rfl, rfl⟩
theorem domainInWindow (d : Fin 8) : Statement (.domainInWindow d) := ⟨rfl, rfl⟩
theorem stateRecordRefresh : Statement .stateRecordRefresh := ⟨rfl, rfl⟩
theorem keyRemoved : Statement .keyRemoved := ⟨rfl, rfl⟩
theorem keyInserted : Statement .keyInserted := ⟨rfl, rfl⟩
theorem journalWrite (ok : Bool) : Statement (.journalWrite ok) := ⟨rfl, rfl⟩
theorem journalRetry (ok : Bool) : Statement (.journalRetry ok) := ⟨rfl, rfl⟩
theorem modeRequest (m : BitVec 8) : Statement (.modeRequest m) := ⟨rfl, rfl⟩
theorem modeTransition : Statement .modeTransition := ⟨rfl, rfl⟩
theorem storeParameters : Statement .storeParameters := ⟨rfl, rfl⟩
theorem storeComplete (ok : Bool) : Statement (.storeComplete ok) := ⟨rfl, rfl⟩
theorem restoreDefaults : Statement .restoreDefaults := ⟨rfl, rfl⟩
theorem reloadStored : Statement .reloadStored := ⟨rfl, rfl⟩
theorem reloadComplete : Statement .reloadComplete := ⟨rfl, rfl⟩
theorem mappingActivate (idx : BitVec 16) (n : BitVec 8) : Statement (.mappingActivate idx n) := ⟨rfl, rfl⟩
theorem managementWatchdog : Statement .managementWatchdog := ⟨rfl, rfl⟩
theorem sensorSample (temps : List (BitVec 32)) (supply : List (BitVec 32)) (volts : List (BitVec 32)) (amps : List (BitVec 32)) : Statement (.sensorSample temps supply volts amps) := ⟨rfl, rfl⟩
theorem logSelect (seq : BitVec 64) : Statement (.logSelect seq) := ⟨rfl, rfl⟩
theorem logRead : Statement .logRead := ⟨rfl, rfl⟩
theorem imageLoadBegin : Statement .imageLoadBegin := ⟨rfl, rfl⟩
theorem imageBlock (num : BitVec 16) (data : Bytes) : Statement (.imageBlock num data) := ⟨rfl, rfl⟩
theorem imageBlockWritten (ok : Bool) : Statement (.imageBlockWritten ok) := ⟨rfl, rfl⟩
theorem imageVerify : Statement .imageVerify := ⟨rfl, rfl⟩
theorem imageActivate : Statement .imageActivate := ⟨rfl, rfl⟩
theorem imageAbort : Statement .imageAbort := ⟨rfl, rfl⟩
theorem imageBoot : Statement .imageBoot := ⟨rfl, rfl⟩
theorem relayStart : Statement .relayStart := ⟨rfl, rfl⟩
theorem relayAbort : Statement .relayAbort := ⟨rfl, rfl⟩
theorem relayActivate : Statement .relayActivate := ⟨rfl, rfl⟩
theorem sessionOpen (p : Port) (req : BitVec 32) (nonce : BitVec 128) (comm : Bool) (idle : BitVec 16) : Statement (.sessionOpen p req nonce comm idle) := ⟨rfl, rfl⟩
theorem sessionConfirm (p : Port) (h : Kda) : Statement (.sessionConfirm p h) := ⟨rfl, rfl⟩
theorem challengeLapse (id : BitVec 32) : Statement (.challengeLapse id) := ⟨rfl, rfl⟩
theorem sessionClose (p : Port) (h : Kda) : Statement (.sessionClose p h) := ⟨rfl, rfl⟩
theorem sessionIdleTimeout (id : BitVec 32) : Statement (.sessionIdleTimeout id) := ⟨rfl, rfl⟩
theorem dictionaryRead (p : Port) (h : Kda) (items : List RdItem) : Statement (.dictionaryRead p h items) := ⟨rfl, rfl⟩
theorem dictionaryWrite (p : Port) (h : Kda) (items : List WrItem) : Statement (.dictionaryWrite p h items) := ⟨rfl, rfl⟩
theorem segmentedBegin (p : Port) (h : Kda) (idx : BitVec 16) (sub : BitVec 8) (total : BitVec 32) : Statement (.segmentedBegin p h idx sub total) := ⟨rfl, rfl⟩
theorem segmentedData (p : Port) (h : Kda) (idx : BitVec 16) (sub : BitVec 8) (total offset : BitVec 32) (data : Bytes) : Statement (.segmentedData p h idx sub total offset data) := ⟨rfl, rfl⟩
theorem segmentedEnd (p : Port) (h : Kda) (idx : BitVec 16) (sub : BitVec 8) (total : BitVec 32) : Statement (.segmentedEnd p h idx sub total) := ⟨rfl, rfl⟩
theorem segmentedAbort (p : Port) (h : Kda) (idx : BitVec 16) (sub : BitVec 8) (total : BitVec 32) : Statement (.segmentedAbort p h idx sub total) := ⟨rfl, rfl⟩
theorem segmentedTimeout (id : BitVec 32) : Statement (.segmentedTimeout id) := ⟨rfl, rfl⟩
theorem segmentedRead (p : Port) (h : Kda) (idx : BitVec 16) (sub : BitVec 8) (offset : BitVec 32) (max : BitVec 16) : Statement (.segmentedRead p h idx sub offset max) := ⟨rfl, rfl⟩
theorem snapshotReleaseTimeout (id : BitVec 32) (idx : BitVec 16) (sub : BitVec 8) : Statement (.snapshotReleaseTimeout id idx sub) := ⟨rfl, rfl⟩
theorem imageFragment (p : Port) (h : Kda) (num : BitVec 32) (total offset : BitVec 16) (data : Bytes) : Statement (.imageFragment p h num total offset data) := ⟨rfl, rfl⟩
theorem imageSubscription (p : Port) (h : Kda) (period : BitVec 16) : Statement (.imageSubscription p h period) := ⟨rfl, rfl⟩
theorem imageFragmentSend (p : Port) (id : BitVec 32) : Statement (.imageFragmentSend p id) := ⟨rfl, rfl⟩
theorem eventSubscription (p : Port) (h : Kda) (mask : BitVec 8) : Statement (.eventSubscription p h mask) := ⟨rfl, rfl⟩
theorem eventDatagramSend (p : Port) (id : BitVec 32) : Statement (.eventDatagramSend p id) := ⟨rfl, rfl⟩
theorem arpRequest (p : Port) (plain : Bool) (target sender : BitVec 32) (mac : BitVec 48) : Statement (.arpRequest p plain target sender mac) := ⟨rfl, rfl⟩
theorem icmpEcho (p : Port) (plain : Bool) (src dst : BitVec 32) (ident seq : BitVec 16) (data : Bytes) : Statement (.icmpEcho p plain src dst ident seq data) := ⟨rfl, rfl⟩
theorem dhcpReply (p : Port) (kind : Fin 3) (addr mask router lease : BitVec 32) : Statement (.dhcpReply p kind addr mask router lease) := ⟨rfl, rfl⟩
theorem dhcpRenew (p : Port) : Statement (.dhcpRenew p) := ⟨rfl, rfl⟩
theorem dhcpRebind (p : Port) : Statement (.dhcpRebind p) := ⟨rfl, rfl⟩
theorem dhcpLeaseExpiry (p : Port) : Statement (.dhcpLeaseExpiry p) := ⟨rfl, rfl⟩
theorem ethernetLinkChange (p : Port) (speed : Fin 3) : Statement (.ethernetLinkChange p speed) := ⟨rfl, rfl⟩
theorem sourceDeasserted (src : Src) : Statement (.sourceDeasserted src) := ⟨rfl, rfl⟩
theorem nodeMailboxRequest (nd : NodeId) (seq : BitVec 8) (cap : BitVec 16) (payload : Bytes) (answer : Bytes) : Statement (.nodeMailboxRequest nd seq cap payload answer) := ⟨rfl, rfl⟩
theorem nodeSampleInstant (nd : NodeId) (offset : BitVec 32) (data : Bytes) : Statement (.nodeSampleInstant nd offset data) := ⟨rfl, rfl⟩
theorem nodeCycleStart (nd : NodeId) : Statement (.nodeCycleStart nd) := ⟨rfl, rfl⟩
theorem vbakLoss : Statement .vbakLoss := ⟨rfl, rfl⟩
theorem pulseInputSignalRestored (i : PIn) : Statement (.pulseInputSignalRestored i) := ⟨rfl, rfl⟩

end Sys2Proof.Laws.reach
end

