-- ==== Sys2Proof/Machine/KeyBytes.lean ====
section
/-! DEFINITION. The non-volatile memory of the pattern key as bytes (R5, R433): every record's little-endian layout and its CRC-32C. -/
namespace Sys2Proof.Machine

/-- A record: its body, then the CRC-32C over it (R433). -/
def sealed32 (b : Bytes) : Bytes := b ++ leBytes 4 (crc32c b)

/-- The key format record (R433). -/
def KeySt.formatBytes (k : KeySt) : Bytes :=
  sealed32 (leBytes 4 1 ++ leBytes 4 0x100000 ++ leBytes 8 k.writer ++ leBytes 12 0)

/-- A boot control record (R437). -/
def BootRec.encode (r : BootRec) : Bytes :=
  sealed32 (leBytes 4 r.seq ++ leBytes 1 r.selected ++ leBytes 1 r.trial ++ leBytes 1 r.tries ++ leBytes 1 0 ++ leBytes 4 r.progress ++
    leBytes 4 r.length ++ leBytes 4 r.version ++ leBytes 8 0)

/-- A state record (R444). -/
def StateRec.encode (r : StateRec) : Bytes :=
  sealed32 (leBytes 4 r.seq ++ leBytes 1 r.kind ++ leBytes 1 r.copy ++ leBytes 2 0 ++ leBytes 8 r.s ++ leBytes 14 r.time ++ leBytes 2 0 ++
    leBytes 8 r.count ++ leBytes 4 r.serial)

/-- A safety record (R441). -/
def SafetyRec.encode (r : SafetyRec) : Bytes :=
  sealed32 (leBytes 4 r.seq ++ leBytes 4 r.block.length ++ leBytes 4 r.check ++ leBytes 4 r.conf ++ leBytes 16 0 ++ r.block)

/-- One entry of a parameter set (R439): index, sub-index, length and value. -/
def entryOf (key : Nat) (v : Bytes) : Bytes := leBytes 2 (key / 256) ++ leBytes 1 (key % 256) ++ leBytes 2 v.length ++ v

/-- Entries by ascending index and sub-index (R439). -/
def insertEntry (e : Nat × Bytes) : List (Nat × Bytes) → List (Nat × Bytes)
  | [] => [e]
  | f :: t => if e.1 < f.1 then e :: f :: t else f :: insertEntry e t

/-- The entries of a set in their order, moulds apart (R439). -/
def ParamSet.entries (p : ParamSet) : List (Nat × Bytes) :=
  let ns := p.nums.map (fun e => (e.1, leBytes (match findRow (e.1 / 256) (e.1 % 256) with | some r => r.ty.size | none => 0) e.2))
  (p.strs.filter (fun e => !isMould e.1)).foldl (fun t e => insertEntry e t) ns

/-- The mould of segment g in a set. -/
def ParamSet.mould (p : ParamSet) (g : Nat) : Bytes := ((p.strs.find? (fun e => e.1 = okey (0x3300 + g) 0)).map Prod.snd).getD []

/-- The mould area (R439): 12 lengths, then the moulds in segment order. -/
def ParamSet.mouldArea (p : ParamSet) : Bytes :=
  (List.range 12).flatMap (fun g => leBytes 4 (p.mould g).length) ++ (List.range 12).flatMap p.mould

/-- A complete parameter set, header and entries (R438): the header CRC also covers every entry byte. -/
def ParamSet.encode (p : ParamSet) (b : Bool) : Bytes :=
  let m := p.mouldArea
  let es := p.entries.flatMap (fun e => entryOf e.1 e.2)
  let h := leBytes 1 p.format ++ leBytes 1 (b2n b) ++ leBytes 2 0 ++ leBytes 4 p.seq ++ leBytes 8 p.cycle ++ leBytes 4 p.bytes ++
    leBytes 4 p.fw ++ leBytes 4 m.length ++ leBytes 4 (crc32c m) ++ leBytes 8 p.serial ++ leBytes 4 0
  h ++ leBytes 4 (crc32c (h ++ es)) ++ es

/-- A bitmap of 512 axes, bit n for axis n (R448). -/
def axisMap (ns : List Nat) : Bytes := leBytes 64 ((ns.map (fun n => 2 ^ n)).sum)

/-- A snapshot (R448): header, valid and referenced bitmaps, 512 entries of position and offset. -/
def Snapshot.encode (s : Snapshot) : Bytes :=
  sealed32 (leBytes 4 1 ++ leBytes 4 0 ++ leBytes 8 s.seq ++ leBytes 8 s.cycle ++ leBytes 14 s.seg ++ leBytes 2 0 ++ leBytes 14 s.time ++
    leBytes 10 0 ++ axisMap (s.axes.map (fun a => a.1)) ++ axisMap ((s.axes.filter (fun a => a.2.2.2)).map (fun a => a.1)) ++
    (List.range 512).flatMap (fun n => match s.axes.find? (fun a => a.1 = n) with
      | some a => leBytes 8 (pat 64 a.2.1) ++ leBytes 8 (pat 64 a.2.2.1)
      | none => leBytes 16 0))

/-- The journal's entries at their places in the circular area (R433, R455): entry i of all ever written stands in slot i mod 8,192. -/
def KeySt.journalAreas (k : KeySt) : List (Nat × Bytes) :=
  k.journal.zipIdx.map (fun e => (0xB7000 + 32 * ((k.count - k.journal.length + e.2) % 8192), e.1.encode))

/-- What stands in the key's memory (R433): offsets and bytes. A record that is not valid, and a set that is blank or was left unfinished
beyond its format byte, hold bytes that nothing reads. -/
def KeySt.areas (k : KeySt) : List (Nat × Bytes) :=
  let set := fun (p : ParamSet) (b : Bool) (a m : Nat) =>
    if setValid p then [(a, p.encode b), (m, p.mouldArea)] else [(a, leBytes 1 p.format)]
  [(0, k.formatBytes)] ++
  (if k.boot0.valid then [(0x100, k.boot0.encode)] else []) ++ (if k.boot1.valid then [(0x140, k.boot1.encode)] else []) ++
  (if k.state0.valid then [(0x200, k.state0.encode)] else []) ++ (if k.state1.valid then [(0x240, k.state1.encode)] else []) ++
  set k.setA false 0x1000 0x81000 ++ set k.setB true 0x41000 0x97000 ++
  (if k.safety0.valid then [(0xAD000, k.safety0.encode)] else []) ++ (if k.safety1.valid then [(0xB2000, k.safety1.encode)] else []) ++
  (if k.snap0.good then [(0xF7000, k.snap0.encode)] else []) ++ (if k.snap1.good then [(0xFB000, k.snap1.encode)] else []) ++
  k.journalAreas

/-- The byte at an offset of the key's memory, where a record of the device stands there. -/
def keyByte (k : KeySt) (a : Nat) : Option Byte :=
  (k.areas.find? (fun r => decide (r.1 ≤ a) && decide (a < r.1 + r.2.length))).bind (fun r => r.2[a - r.1]?)

end Sys2Proof.Machine
end

