-- ==== Sys2Proof/WellFormed.lean ====
section
/-! DEFINITION. What the manual asks of a command's operands beyond their types: the lengths of lists and byte strings. -/
namespace Sys2Proof

open Sys2Proof.Machine

/-- Whether a command's operands have the lengths their rules state (R475, R459, R326, R396, R453, R366). -/
def Instr.wellFormed (i : Instr) : Bool :=
  match i with
  | .dictionaryRead _ _ items => 1 ≤ items.length && items.length ≤ 64
  | .dictionaryWrite _ _ items => 1 ≤ items.length && items.length ≤ 64
  | .imageBlock _ data => 1 ≤ data.length && data.length ≤ 65536
  | .pairingMessage _ m => m.tags.length = 12
  | .fingerprint _ es => es.length ≤ 16
  | .blockRequest _ es => es.length ≤ 16
  | .memoryAccess reqs => decide ((reqs.map (·.port)).Nodup)
  | .sensorSample temps supply volts amps =>
    temps.length = 6 && supply.length = 4 && volts.length = 8 && amps.length = 8
  | .safetyBlockWrite data => data.length ≤ 16384
  | .microstepTableWrite _ data => data.length = 1024
  | _ => true

end Sys2Proof
end

