-- ==== Sys2Proof/Tests/Slice0.lean ====
section
/-! SUPPORT. Checks of the model against the manual's own numbers, the well-formedness checks, and for every statement with
hypotheses a theorem that shows states and operands which meet them. -/
namespace Sys2Proof.Tests

open Sys2Proof Sys2Proof.Machine
set_option Elab.async false


/-- Object values written into the reset state. -/
def put (l : List (Nat × Nat × Nat)) (s : State) : State :=
  { s with dev := l.foldl (fun d p => os d p.1 p.2.1 p.2.2) s.dev }
/-- A change of the device. -/
def dv (f : Dev → Dev) (s : State) : State := { s with dev := f s.dev }
/-- Every function ready, in mode m. -/
def up (m : Nat) : State :=
  put [(0x1010, 0, 0xFFFFFFFF), (0x1020, 1, m)] (dv (fun d => { d with power := { d.power with booted := true } }) State.reset)

/-- The state with only a log entry as the reaction of source n. -/
def quiet (n : Nat) (s : State) : State := put [(0x3900 + n, 1, 1)] s

/-! Witnesses: states and operands that meet the hypotheses of every clause of the statements. -/

theorem witness_StepRunsTheFrontCommand :
    ({ State.reset with pending := [Instr.scrub] }).pending = Instr.scrub :: [] ∧ State.reset.pending = [] := by decide +kernel

theorem witness_SharedMemoryStaysCanonical :
    Memory.wf ({ State.reset with pending := [Instr.scrub] } : State).mem.cells = true ∧
    (∃ t, step { State.reset with pending := [Instr.scrub] } = .next t) := ⟨by decide +kernel, _, rfl⟩

theorem witness_SharedMemoryReachedByItsCommandsOnly :
    reachesMemory .safetyStore = false ∧ ∃ t, exec .safetyStore State.reset = .next t := ⟨by decide +kernel, _, rfl⟩

theorem witness_NoOtherBlockWritesTheIsland :
    reachesIsland .modeTransition = false ∧ ∃ t, exec .modeTransition State.reset = .next t := ⟨by decide +kernel, _, rfl⟩

theorem witness_SafetyOutputsStaySafe : OutputsSafe State.reset.isl ∧ step State.reset = .next State.reset :=
  ⟨by unfold OutputsSafe; decide +kernel, rfl⟩

theorem witness_NodeCommandsChangeOneNode : nodeOf (.nodeCycleStart (.ring 7 48)) = some (.ring 7 48) ∧
    ∃ t, exec (.nodeCycleStart (.ring 7 48)) State.reset = .next t := ⟨by decide +kernel, _, rfl⟩

theorem witness_AssertionIsNumberedLatchedCountedAndLogged :
    Settled (up 2) ∧ Calm (up 2).dev 0 ∧ bit (up 2).dev.fc.wire 0 = false ∧ Calm (up 2).dev 185 ∧
    (∀ n ∈ [8, 15], Calm (quiet n (up 2)).dev n ∧ bit (og (quiet n (up 2)).dev 0x2010 1) (n - 8) = true) ∧
    (∀ n ∈ [32, 39], Calm (quiet n (up 2)).dev n ∧ og (quiet n (up 2)).dev 0x3E40 (n - 31) < 0xFFFFFFFE) ∧ (262143#32).toNat < 2 ^ 18 ∧
    og (up 2).dev 0x3800 2 = 0xFF ∧ og (put [(0x3800, 2, 3)] (up 2)).dev 0x3800 2 ≠ 0xFF := by
  unfold Settled Calm; decide +kernel

theorem witness_SourcesAreAssertedAndEnd :
    Settled (up 2) ∧ reservedSource 191 = true ∧
    (let s := dv (fun d => { d with fc := { d.fc with cond := 2 ^ 8 } }) (up 2)
     ready s.dev 2 = true ∧ levelSource 8 = true ∧ bit s.dev.fc.cond 8 = true ∧ bit s.dev.fc.wire 8 = false) ∧
    bit (og (put [(0x2010, 1, 0x47)] (up 2)).dev 0x2010 1) (15 - 8) = false ∧
    (∀ n ∈ [1, 2, 3, 15], bit (dv (fun d => { d with fc := { d.fc with cond := 2 ^ n } }) (up 2)).dev.fc.cond n = true) ∧
    (2#16).toNat ≤ 2 ∧ 2 < (3#16).toNat ∧ Calm (up 2).dev 0 ∧ reservedSource 0 = false ∧ og (up 2).dev 0x3830 1 = 0 ∧
    (let s := put [(0x3830, 1, 1)] (up 2); Settled s ∧ og s.dev 0x3830 1 ≠ 0 ∧ Calm s.dev 0) := by
  unfold Settled Calm; decide +kernel

theorem witness_SelfTestMakesAFunctionReadyOrFailed :
    (let s := put [(0x1010, 0, 1), (0x2010, 2, 0x47)] (up 1)
     s.dev.power.booted = true ∧ testDue s.dev 4 = true ∧ bit (closeReady s.dev (setBit (og s.dev 0x1010 0) 4 true)) 4 = true ∧
     Settled s ∧ ready s.dev 2 = false ∧ testDue s.dev 2 = true) ∧
    (let s := put [(0x1010, 0, 3), (0x2010, 2, 0xFF)] (up 1)
     s.dev.power.booted = true ∧ testDue s.dev 31 = true ∧ Settled s ∧ (ready s.dev 0 && ready s.dev 3 && ready s.dev 4) = false) := by
  unfold Settled; decide +kernel

theorem witness_LatchAndCountersAreCleared :
    Settled State.reset ∧ ready State.reset.dev 2 = false ∧ Settled (up 2) ∧ ready (up 2).dev 2 = true ∧
    og (up 2).dev 0x3800 0x0A < 0xFFFFFFFE ∧ indexKnown 0x3840 = true ∧ isCounter 0x3840 0 = true ∧
    ready (up 2).dev (ownerBit (up 2).dev 0x3840) = true ∧ isCounter 0x3A30 6 = true ∧ indexKnown 0x3A30 = true ∧
    ready (up 2).dev (ownerBit (up 2).dev 0x3A30) = true := by
  unfold Settled; decide +kernel

theorem witness_ReactionCResetsTheChip :
    (let s := up 3
     Settled s ∧ ready s.dev 2 = true ∧ 1 ≤ mode s.dev ∧ reservedSource 2 = false ∧ live s.dev 2 = false ∧
     bit (og s.dev (0x3900 + 2) 1) 1 = false ∧ bit (og s.dev (0x3900 + 2) 1) 2 = false ∧ bit (og s.dev (0x3900 + 2) 1) 3 = true ∧
     (8 ≤ 2 → 2 ≤ 15 → bit (og s.dev 0x2010 1) (2 - 8) = true)) ∧
    (let s := put [(0x3900 + 15, 1, 8)] (up 3)
     Settled s ∧ reservedSource 15 = false ∧ live s.dev 15 = false ∧ bit (og s.dev 0x2010 1) (15 - 8) = true ∧
     bit (og s.dev (0x3900 + 15) 1) 3 = true) := by
  unfold Settled; decide +kernel

theorem witness_ModeRequestIsAcceptedAndPends :
    Settled State.reset ∧ ready State.reset.dev 0 = false ∧ Settled (up 2) ∧ ready (up 2).dev 0 = true ∧
    (1#8).toNat < 2 ∧ 5 < (6#8).toNat ∧ 2 ≤ (2#8).toNat ∧ (5#8).toNat ≤ 5 ∧ og (put [(0x1021, 2, 1)] (up 2)).dev 0x1021 2 = 1 ∧
    og (up 2).dev 0x1021 2 ≠ 1 ∧ paired (up 2).dev = false ∧
    (let s := put [(0x3C01, 1, 6), (0x3C01, 2, 1)] (up 2)
     Settled s ∧ paired s.dev = true ∧ og s.dev 0x3C01 2 ≠ 2 ∧ ready s.dev 0 = true ∧ og s.dev 0x1021 2 ≠ 1) := by
  unfold Settled; decide +kernel

/-- The island in Run without a stop request. -/
def run (s : State) : State := { s with isl := { s.isl with state := 4, stopReq := false } }

theorem witness_RequestsAreCarriedOutByTheTable :
    (up 2).dev.power.safeHold = none ∧ mode (up 1).dev = 1 ∧ Settled (up 2) ∧ og (up 2).dev 0x1021 2 ≠ 1 ∧
    (let s := put [(0x1021, 1, 2), (0x1021, 2, 1)] (up 2)
     Settled s ∧ og s.dev 0x1021 2 = 1 ∧ mode s.dev ≠ 1 ∧ og s.dev 0x1021 1 = mode s.dev) ∧
    (let s := put [(0x1021, 1, 3), (0x1021, 2, 1)] (up 5)
     Settled s ∧ og s.dev 0x1021 2 = 1 ∧ og s.dev 0x1021 1 ≠ mode s.dev ∧ transitionAllowed (mode s.dev) (og s.dev 0x1021 1) = false) ∧
    (let s := put [(0x1021, 1, 3), (0x1021, 2, 1)] (up 2)
     Settled s ∧ og s.dev 0x1021 2 = 1 ∧ transitionAllowed (mode s.dev) (og s.dev 0x1021 1) = true ∧
     entryCondition s.dev s.isl (og s.dev 0x1021 1) = false ∧
     entryCondition (run s).dev (run s).isl (og (run s).dev 0x1021 1) = true) ∧
    mode (up 3).dev = 3 := by
  unfold Settled; decide +kernel

theorem witness_EntriesIntoSafeHold :
    (let s := dv (fun d => { d with power := { d.power with safeHold := some ⟨2, 7, true⟩ } }) (up 3)
     s.dev.power.safeHold = some ⟨2, 7, true⟩ ∧ mode s.dev = 3 ∧ og s.dev 0x1021 2 ≠ 1) ∧
    (let s := put [(0x1021, 1, 2), (0x1021, 2, 1)] (dv (fun d => { d with power := { d.power with safeHold := some ⟨2, 7, true⟩ } }) (up 2))
     s.dev.power.safeHold = some ⟨2, 7, true⟩ ∧ mode s.dev = 2 ∧ og s.dev 0x1021 2 = 1 ∧ og s.dev 0x1021 1 ≠ 4) ∧
    mode (up 1).dev = 1 ∧ (∀ b, b < 5 → bit (og (up 1).dev 0x1010 0) b = true) ∧ mode (up 2).dev ≠ 1 := by
  decide +kernel

/-- A key that can be used, with the parameters read. -/
def key (s : State) : State := dv (fun d => { d with key := { d.key with present := true } }) (put [(0x2E00, 2, 2), (0x2E00, 1, 1)] s)

theorem witness_WarningCommitSealAndPowerLoss :
    (up 2).dev.power.powered = true ∧ (up 2).dev.power.commitRan = false ∧ warning (up 2).dev = false ∧ Calm (up 2).dev 0 ∧
    keyUsable (key (up 2)).dev = true ∧ (up 2).isl.storing = none ∧ ready (up 2).dev 0 = true ∧ (up 2).dev.mgmt.storing = false ∧
    ({ up 2 with isl := { (up 2).isl with storing := some .blank } }).isl.storing ≠ none ∧
    ready (put [(0x1010, 0, 0xFFFFFFFE)] (up 2)).dev 0 = false ∧ Calm (put [(0x1010, 0, 0xFFFFFFFE)] (up 2)).dev 0 ∧
    (let s := put [(0x2000, 2, 1)] (up 3); og s.dev 0x2000 2 = 1 ∧ mode s.dev = 3 ∧ s.dev.power.safeHold = none ∧ Calm s.dev 0) ∧
    og (put [(0x2000, 1, 5), (0x2E40, 6, 6)] (up 2)).dev 0x2E40 6 = 6 ∧
    (let s := put [(0x2000, 1, 3)] (up 2); warning s.dev = true ∧ bit (og s.dev 0x2000 1) 1 = true) ∧
    (let s := put [(0x2000, 1, 5)] (key (dv (fun d => { d with fc := { d.fc with waiting := 1, log := [⟨1, 2, 3, 1, 5, 6, 7⟩] } }) (up 2)))
     sealed s.dev = true ∧ keyUsable s.dev = true ∧ s.dev.fc.waiting ≠ 0 ∧ Settled s ∧ warning s.dev = true ∧
     bit (og s.dev 0x2000 1) 1 = false) ∧
    (dv (fun d => { d with power := { d.power with powered := false } }) (up 2)).dev.power.powered = false := by
  unfold Settled Calm; decide +kernel

theorem witness_BringUpStartsThePart :
    (up 2).dev.power.booted = true ∧ State.reset.dev.power.booted = false ∧ newestSet State.reset.dev.key = none ∧
    (let s := put (((List.range 192).map (fun n => (0x3900 + n, 1, 1)))) State.reset
     let p := { s.dev.key with present := true }
     s.dev.power.booted = false ∧ newestSet s.dev.key = none ∧ newestSet p = none ∧ p.present = true ∧ og s.dev 0x1010 0 = 0 ∧
     ∀ n, n < 192 → ∀ b ∈ [1, 2, 3], bit (og s.dev (0x3900 + n) 1) b = false) ∧
    (bit (0xF#4).toNat 1 && bit (0xF#4).toNat 2 && bit (0xF#4).toNat 3) = true ∧ (bit (0x9#4).toNat 1 && bit (0x9#4).toNat 2) = false ∧
    bit (0x9#4).toNat 0 = true := by
  decide +kernel

theorem witness_KeyRefreshAndPowerDomains :
    (key (up 2)).dev.key.present = true ∧ Calm (key (up 2)).dev 179 ∧ (up 2).dev.key.present = false ∧ Settled (up 2) ∧
    (let s := key (up 2)
     s.dev.power.booted = true ∧ warning s.dev = false ∧ sealed s.dev = false ∧ keyUsable s.dev = true ∧ Settled s) ∧
    warning (put [(0x2000, 1, 1)] (up 2)).dev = true ∧ Settled State.reset ∧ ready State.reset.dev 1 = false ∧
    mode (up 3).dev ≠ 2 ∧ ready (up 3).dev 1 = true ∧ (0x46#8) &&& 0x47 ≠ 0x47 ∧ (0x47#8) &&& 0x47 = 0x47 ∧
    bit (og (up 2).dev 0x2010 1) 7 = true ∧ (up 2).dev.power.powered = true ∧
    bit (og (put [(0x2010, 1, 0x47)] (up 2)).dev 0x2010 1) 7 = false := by
  unfold Settled Calm; decide +kernel

theorem witness_ParametersAreStoredAndReset :
    Settled (up 2) ∧ ready State.reset.dev 0 = false ∧ Settled State.reset ∧ ready (up 2).dev 0 = true ∧ mode (up 2).dev = 2 ∧ mode (up 3).dev ≠ 2 ∧
    (dv (fun d => { d with mgmt := { d.mgmt with storing := true } }) (up 2)).dev.mgmt.storing = true ∧
    (segState (up 2).dev 11 = 0 ∧ (seg (up 2).dev 11).swap = none) ∧
    warning (put [(0x2000, 1, 1)] (up 2)).dev = true ∧ warning (up 2).dev = false ∧
    ((up 2).dev.mgmt.storing || (up 2).dev.mgmt.reloading) = false ∧ mode (up 5).dev = 5 ∧
    (let s := key (up 2)
     keyUsable s.dev = true ∧ entryBytes (keyValues s.dev).1 (keyValues s.dev).2 ≤ 262096 ∧ mode s.dev ≠ 5 ∧ mode s.dev ≠ 0) ∧
    (let s := dv (fun d => { d with mgmt := { d.mgmt with storing := true } }) (key (up 2))
     s.dev.mgmt.storing = true ∧ keyUsable s.dev = true ∧ warning s.dev = false ∧ Settled s) ∧
    (let s := dv (fun d => { d with mgmt := { d.mgmt with reloading := true } }) (up 2)
     s.dev.mgmt.reloading = true ∧ keyUsable s.dev = false ∧ Settled s ∧ s.dev.mgmt.storing = false) ∧
    (let q : ParamSet := { ParamSet.blank with format := 1, sums := true, seq := 1, nums := [(okey 0x3900 1, 1)] }
     let s := dv (fun d => { d with mgmt := { d.mgmt with reloading := true }, key := { d.key with setA := q } }) (key (up 2))
     s.dev.mgmt.reloading = true ∧ keyUsable s.dev = true ∧ newestParams s.dev.key = some q ∧ (q.nums.map Prod.fst).Nodup) := by
  unfold Settled; decide +kernel

theorem witness_LogsWatchdogAndSensors :
    warning (put [(0x2000, 1, 1)] (up 2)).dev = true ∧
    (let s := key (dv (fun d => { d with fc := { d.fc with waiting := 1, log := [⟨1, 2, 3, 1, 5, 6, 7⟩] } }) (up 2))
     Settled s ∧ warning s.dev = false ∧ s.dev.fc.waiting ≠ 0 ∧ keyUsable s.dev = true ∧ s.dev.fc.waiting ≤ s.dev.fc.log.length ∧
     s.dev.fc.log.length ≤ 1024 ∧ og s.dev 0x2100 7 < 0xFFFFFFFE ∧ Calm s.dev 182) ∧
    ready State.reset.dev 0 = false ∧ ready (up 2).dev 0 = true ∧ Settled (up 2) ∧ (up 2).dev.power.booted = true ∧
    (let s := put [(0x39B0, 1, 1)] (up 2); Settled s ∧ Calm s.dev 176) ∧ State.reset.dev.power.booted = false ∧
    (let s := put [(0x3904, 1, 1), (0x3905, 1, 1)] (up 2)
     ready s.dev 2 = true ∧ s.dev.fc.wire = 0 ∧ (List.replicate 6 (0 : BitVec 32)).length = 6 ∧
     ∀ n ∈ [4, 5], ∀ b ∈ [1, 2, 3], bit (og s.dev (0x3900 + n) 1) b = false) := by
  unfold Settled Calm; decide +kernel

theorem witness_ImagesLoadBlockByBlock :
    Settled (up 5) ∧ ready (up 5).dev 0 = true ∧ keyUsable (up 5).dev = false ∧
    (let s := key (up 5)
     keyUsable s.dev = true ∧ og s.dev 0x2E40 1 = 0 ∧ og s.dev 0x2E40 6 = 0 ∧ mode s.dev = 5 ∧ mode (key (up 2)).dev ≠ 5) ∧
    (let s := put [(0x2E40, 2, 65536)] (key (up 5))
     og s.dev 0x2E40 2 ≠ 0 ∧ (newestBoot s.dev.key).length ≠ og s.dev 0x2E40 2) ∧
    (let s := put [(0x2E40, 2, 65537), (0x2E40, 6, 1), (0x2E40, 3, 1)] (key (up 5))
     og s.dev 0x2E40 6 = 1 ∧ (1#16).toNat = og s.dev 0x2E40 3 ∧ (1#16).toNat * 65536 < og s.dev 0x2E40 2 ∧ warning s.dev = false ∧
     [7#8].length = min (og s.dev 0x2E40 2 - (1#16).toNat * 65536) 65536 ∧ (0#16).toNat ≠ og s.dev 0x2E40 3 ∧ keyUsable s.dev = true) ∧
    (let s := put [(0x2E40, 2, 65537), (0x2E40, 6, 2), (0x2E40, 3, 1)] (key (up 5))
     og s.dev 0x2E40 6 = 2 ∧ og s.dev 0x2E40 3 ≠ 0 ∧ Calm s.dev 178) ∧
    warning (put [(0x2000, 1, 1)] (key (up 5))).dev = true ∧
    (let s := dv (fun d => { d with key := { d.key with boot0 := { d.key.boot0 with valid := true, length := 65537, progress := 1 } } })
       (put [(0x2E40, 2, 65537)] (key (up 5)))
     og s.dev 0x2E40 1 = 0 ∧ og s.dev 0x2E40 6 = 0 ∧ mode s.dev = 5 ∧ (newestBoot s.dev.key).length = og s.dev 0x2E40 2 ∧
     0 < (newestBoot s.dev.key).progress) ∧
    (let s := put [(0x2E40, 2, 257), (0x2E40, 6, 1), (0x2E40, 3, 1)] (key (up 5))
     og s.dev 0x2E40 6 = 1 ∧ og s.dev 0x2E40 2 ≤ og s.dev 0x2E40 3 * 65536) ∧ mode (up 2).dev ≠ 5 ∧ ready (up 2).dev 0 = true ∧
    og (put [(0x2E40, 6, 4)] (key (up 5))).dev 0x2E40 6 = 4 ∧ (key (up 5)).dev.key.present = true := by
  unfold Settled Calm; decide +kernel

theorem witness_RelayServesAndActivatesNodes :
    (let s := put [(0x2E60, 1, 8), (0x2E60, 2, 0xFFFE), (0x2E60, 3, 1), (0x3200, 2, 4)] (key (up 2))
     Settled s ∧ ready s.dev 0 = true ∧ og s.dev 0x2E60 5 ≠ 1 ∧ originates s.dev (og s.dev 0x2E60 1) = true ∧ keyUsable s.dev = true ∧
     2 ≤ segState s.dev (og s.dev 0x2E60 1) ∧ segState s.dev (og s.dev 0x2E60 1) ≤ 4 ∧
     (let t := dv (fun d => { d with key := { d.key with nodeDir := [(1, List.replicate 64 1)] } }) s
      nodeHeader t.dev (og t.dev 0x2E60 3) ≠ []) ∧
     og (put [(0x2E60, 5, 1)] s).dev 0x2E60 5 = 1 ∧ og s.dev 0x2E60 2 ≠ 0xFFFF ∧ og (put [(0x2E60, 2, 0xFFFF)] s).dev 0x2E60 2 = 0xFFFF) ∧
    (let s := dv (fun d => { d with mgmt := { d.mgmt with relaySeg := 8 } }) (put [(0x3200, 2, 4)] (up 2))
     segState s.dev s.dev.mgmt.relaySeg = 4 ∧ og s.dev 0x2E60 5 ≠ 1 ∧ originates s.dev s.dev.mgmt.relaySeg = true) ∧
    segState (up 2).dev (up 2).dev.mgmt.relaySeg ≠ 4 := by
  unfold Settled; decide +kernel

/-- An image of one byte of code, with the highest rollback number. -/
def oneByteImage : Bytes := leBytes 4 1 ++ leBytes 4 0x8512 ++ leBytes 4 1 ++ leBytes 4 7 ++ leBytes 1 64 ++ List.replicate 240 0

/-- The one hypothesis that rests on a constant of the part (log 17): where the signature verifies, the image is good. -/
theorem witness_ImagesLoadBlockByBlock_verify (h : Config.signatureOk oneByteImage = true) :
    imageOk (up 5).dev oneByteImage = true := by
  have b : Config.rollback.toNat ≤ 64 := by have := Config.rollback.isLt; omega
  have e : rollbackCounter (up 5).dev = Config.rollback.toNat := Nat.max_eq_left (Nat.zero_le _)
  have l : oneByteImage.length = 257 := by decide +kernel
  have r : rd oneByteImage 0 4 = 1 ∧ rd oneByteImage 4 4 = 0x8512 ∧ rd oneByteImage 8 4 = 1 ∧ rd oneByteImage 16 1 = 64 := by decide +kernel
  have i : imageIn oneByteImage = oneByteImage := by decide +kernel
  simp [imageOk, e, l, r, i, h, b]

/-- An open session of a host with a key. -/
def se : Session := ⟨7, true, [1], true, false, 30, 4, 9, [], 0, 0, [], [], 0, 0, none, none, none, []⟩
/-- The state with these sessions. -/
def inn (l : List Session) (s : State) : State := dv (fun d => { d with host := { d.host with sessions := l } }) s
/-- A well-formed header of session 7 without a tag, with counter 5 and request ID 1. -/
def bare : Kda := ⟨7, 5, 1, [], true, 36920, 1, 0, 0, 0, 0⟩
/-- A request of session x with counter 5 and request ID 1, as the ports take it. -/
def req (typ : Nat) (body : Bytes) (x : Session) : Kda :=
  { bare with session := BitVec.ofNat 32 x.id, counter := 5, tag := kdaTag x.key (kdaHeader typ 0 0 x.id 5 1 body.length) body,
              udp := BitVec.ofNat 16 (kdaPort typ), length := BitVec.ofNat 16 body.length }

/-- The tag of a request that `req` builds is the session's tag over it. -/
theorem tag_req (typ : Nat) (body : Bytes) (x : Session) : (req typ body x).tag =
    kdaTag x.key (kdaHeader typ 0 0 x.id (req typ body x).counter.toNat (req typ body x).reqId.toNat body.length) body := rfl

/-- A request that `req` builds is accepted. -/
theorem accepted_req (s : State) (p : Port) (typ : Nat) (body : Bytes) (x : Session)
    (h : linkUp s.dev p = true ∧ body.length ≤ 1432 ∧ (kdaPort typ < 65536 ∧ findSession s.dev (BitVec.ofNat 32 x.id).toNat = some x) ∧ x.rx < 5 ∧
      (x.isOpen = true ∨ typ = 0x12) ∧ ∀ r ∈ x.stored, r.1 ≠ 1) : Accepted s p (req typ body x) typ body x := by
  refine ⟨?_, h.2.2.1.2, rfl, h.2.2.2.1, h.2.2.2.2.1, h.2.2.2.2.2⟩
  have e : body.length % 65536 = body.length := Nat.mod_eq_of_lt (by omega)
  have u : kdaPort typ % 65536 = kdaPort typ := Nat.mod_eq_of_lt h.2.2.1.1
  simp [screen, h.1, kdaFormed, req, bare, e, h.2.1, u]

theorem witness_SessionsOpenAndClose :
    (Settled (up 2) ∧ linkUp (up 2).dev 0 = true ∧ linkUp State.reset.dev 0 = false ∧ (up 2).dev.host.sessions.length < 8 ∧
     8 ≤ (inn (List.replicate 8 se) (up 2)).dev.host.sessions.length ∧
     (inn [{ se with comm := true }] (up 2)).dev.host.sessions.any (fun y => y.isOpen && y.comm) = true ∧
     findSession (inn [{ se with isOpen := false }] (up 2)).dev (7#32).toNat = some { se with isOpen := false } ∧
     findSession (inn [se] (up 2)).dev (7#32).toNat = some se) ∧
    Accepted (inn [{ se with isOpen := false }] (up 2)) 1 (req 0x12 [] { se with isOpen := false }) 0x12 [] { se with isOpen := false } ∧
    Accepted (inn [se] (up 2)) 1 (req 0x14 [] se) 0x14 [] se :=
  ⟨by unfold Settled; decide +kernel, accepted_req _ _ _ _ _ (by decide +kernel), accepted_req _ _ _ _ _ (by decide +kernel)⟩

theorem witness_ForgedAndRepeatedRequestsDoNothing :
    (Settled (inn [se] (up 2)) ∧ linkUp (inn [se] (up 2)).dev 0 = true ∧ (writeBody []).length ≤ 1432 ∧
     og (inn [se] (up 2)).dev 0x2F20 1 < 0xFFFFFFFE ∧ hostMapped (inn [se] (up 2)).dev (0x3900 + 4) 1 = false ∧
     ready (inn [se] (up 2)).dev 1 = true ∧ reactionsOk 4 1 = true ∧ reactionsOk 3 31 = false ∧ mode (inn [se] (up 3)).dev = 3 ∧
     ([] : Bytes) ≠ (List.replicate 16 0 : Bytes) ∧ (3 : Nat) < 4) ∧
    Accepted (inn [se] (up 2)) 0 (req 0x20 (readBody [⟨0x1010, 0, 0⟩]) se) 0x20 (readBody [⟨0x1010, 0, 0⟩]) se ∧
    (∀ v ∈ [1, 31], Accepted (inn [se] (up 2)) 0 (req 0x21 (writeBody [⟨BitVec.ofNat 16 (0x3900 + 4), 1, 0, [v]⟩]) se) 0x21
      (writeBody [⟨BitVec.ofNat 16 (0x3900 + 4), 1, 0, [v]⟩]) se) ∧
    Accepted (inn [se] (up 3)) 0 (req 0x21 (writeBody [⟨0x1600, 1, 0, [1, 2, 3, 4]⟩]) se) 0x21 (writeBody [⟨0x1600, 1, 0, [1, 2, 3, 4]⟩]) se ∧
    (let x := { se with rx := 5 }
     let h := req 0x21 (writeBody []) x
     findSession (inn [x] (up 2)).dev h.session.toNat = some x ∧ h.counter.toNat ≤ x.rx ∧
     h.tag = kdaTag x.key (kdaHeader 0x21 0 0 x.id h.counter.toNat h.reqId.toNat (writeBody []).length) (writeBody [])) ∧
    (let x := { se with stored := [(1, 0x21, 0, [])] }
     let h := req 0x21 (writeBody []) x
     findSession (inn [x] (up 2)).dev h.session.toNat = some x ∧ x.rx < h.counter.toNat ∧
     (1, 0x21, 0, []) ∈ x.stored ∧ (∀ q ∈ x.stored, q.1 = h.reqId.toNat → q = (1, 0x21, 0, [])) ∧
     h.tag = kdaTag x.key (kdaHeader 0x21 0 0 x.id h.counter.toNat h.reqId.toNat (writeBody []).length) (writeBody [])) :=
  ⟨by unfold Settled; decide +kernel, accepted_req _ _ _ _ _ (by decide +kernel),
   fun v hv => by
     simp only [List.mem_cons, List.not_mem_nil, or_false] at hv
     rcases hv with rfl | rfl <;> exact accepted_req _ _ _ _ _ (by decide +kernel),
   accepted_req _ _ _ _ _ (by decide +kernel), ⟨by decide +kernel, by decide +kernel, tag_req _ _ _⟩,
   ⟨by decide +kernel, by decide +kernel, by decide +kernel, by decide +kernel, tag_req _ _ _⟩⟩

/-- A request with a wrong tag: the empty one. -/
theorem witness_ForgedAndRepeatedRequestsDoNothing_forged :
    bare.tag ≠ kdaTag se.key (kdaHeader 0x21 0 0 7 5 1 (writeBody []).length) (writeBody []) := by decide +kernel

theorem witness_SegmentedTransfers :
    (Settled (inn [se] (up 2)) ∧ (admitWrite (inn [se] (up 2)).dev se.caller 0x2E20 0).1 = .ok ∧
     (let r := (admitWrite (inn [se] (up 2)).dev se.caller 0x2E20 0).2
      lengthStatus (inn [se] (up 2)).dev r 0x2E20 512 = true) ∧ (inn [se] (up 2)).dev.host.sessions.all (fun y => y.segw.isNone) = true ∧
     mode (up 2).dev = 2 ∧ ready (up 2).dev 1 = true ∧ paired (up 2).dev = false ∧ hostMapped (up 2).dev 0x2E20 0 = false ∧
     ready (up 2).dev 5 = true ∧ findSession (inn [se] (up 2)).dev (7#32).toNat = some se ∧ heldSnap se (okey 0x3A10 0) = none ∧
     heldSnap { se with snaps := [(okey 0x3A10 0, [1, 2, 3])] } (okey 0x3A10 0) = some [1, 2, 3] ∧
     1 < ({ up 2 with isl := { (up 2).isl with block := [1, 2, 3] } }).isl.block.length) ∧
    Accepted (inn [se] (up 2)) 0 (req 0x23 (segBody 0x2E20 0 1 512 0 []) se) 0x23 (segBody 0x2E20 0 1 512 0 []) se ∧
    (let x := { se with segw := some ⟨okey 0x2E20 0, 512, [1]⟩ }
     Accepted (inn [x] (up 2)) 0 (req 0x23 (segBody 0x2E20 0 1 512 0 []) x) 0x23 (segBody 0x2E20 0 1 512 0 []) x ∧
     Accepted (inn [x] (up 2)) 0 (req 0x23 (segBody 0x2E20 0 2 512 1 [2]) x) 0x23 (segBody 0x2E20 0 2 512 1 [2]) x ∧
     Accepted (inn [x] (up 2)) 0 (req 0x23 (segBody 0x2E20 0 2 512 0 [2]) x) 0x23 (segBody 0x2E20 0 2 512 0 [2]) x ∧
     Accepted (inn [x] (up 2)) 0 (req 0x23 (segBody 0x2E20 0 3 512 0 []) x) 0x23 (segBody 0x2E20 0 3 512 0 []) x ∧
     Accepted (inn [x] (up 2)) 0 (req 0x23 (segBody 0x2E20 0 4 512 0 []) x) 0x23 (segBody 0x2E20 0 4 512 0 []) x) ∧
    (let x := { se with segw := some ⟨okey 0x2E20 0, 512, List.replicate 512 1⟩ }
     Accepted (inn [x] (up 2)) 0 (req 0x23 (segBody 0x2E20 0 3 512 0 []) x) 0x23 (segBody 0x2E20 0 3 512 0 []) x) ∧
    Accepted (inn [se] { up 2 with isl := { (up 2).isl with block := [1, 2, 3] } }) 0
      (req 0x22 (leBytes 2 0x3A10 ++ leBytes 1 0 ++ leBytes 1 0 ++ leBytes 4 0 ++ leBytes 2 1) se) 0x22
      (leBytes 2 0x3A10 ++ leBytes 1 0 ++ leBytes 1 0 ++ leBytes 4 0 ++ leBytes 2 1) se ∧
    (∀ x ∈ [se, { se with snaps := [(okey 0x3A10 0, [1, 2, 3])] }],
      Accepted (inn [x] (up 2)) 0 (req 0x22 (leBytes 2 0x3A10 ++ leBytes 1 0 ++ leBytes 1 0 ++ leBytes 4 1 ++ leBytes 2 1) x) 0x22
      (leBytes 2 0x3A10 ++ leBytes 1 0 ++ leBytes 1 0 ++ leBytes 4 1 ++ leBytes 2 1) x) := by
  refine ⟨by unfold Settled; decide +kernel, accepted_req _ _ _ _ _ (by decide +kernel), ⟨?_, ?_, ?_, ?_, ?_⟩, ?_, ?_, ?_⟩
  · exact accepted_req _ _ _ _ _ (by decide +kernel)
  · exact accepted_req _ _ _ _ _ (by decide +kernel)
  · exact accepted_req _ _ _ _ _ (by decide +kernel)
  · exact accepted_req _ _ _ _ _ (by decide +kernel)
  · exact accepted_req _ _ _ _ _ (by decide +kernel)
  · exact accepted_req _ _ _ _ _ (by decide +kernel)
  · exact accepted_req _ _ _ _ _ (by decide +kernel)
  · intro x hx
    simp only [List.mem_cons, List.not_mem_nil, or_false] at hx
    rcases hx with rfl | rfl
    · exact accepted_req _ _ _ _ _ (by decide +kernel)
    · exact accepted_req _ _ _ _ _ (by decide +kernel)

/-- A part whose host-to-device image is one live phase offset, with the lease at session 7. -/
def imaged (n : Nat) : State :=
  dv (fun d => { d with host := { d.host with sessions := [se], lease := n } }) (put [(0x1600, 1, (0x8021 * 256 + 8) * 256 + 64), (0x1600, 0, 1)] (up 2))

theorem witness_ImagesAndEventsAreExchanged :
    (Settled (imaged 7) ∧ (imaged 7).dev.host.lease = se.id ∧ mode (imaged 7).dev = 2 ∧ paired (imaged 7).dev = false ∧
     (List.replicate 8 0#8).length = (8#16).toNat ∧ imageSize (imaged 7).dev 0x1600 = 8 ∧ (imaged 7).dev.host.floor ≤ (1#32).toNat ∧
     (imaged 7).dev.host.imgNum = none ∧ og (imaged 7).dev 0x2F20 4 < 0xFFFFFFFE ∧ og (imaged 7).dev 0x2F20 6 < 0xFFFFFFFE ∧
     (imaged 9).dev.host.lease ≠ se.id ∧ (imaged 9).dev.host.lease ≠ 0 ∧ others (imaged 7).dev se.id (fun y => y.period != 0) < 2 ∧
     2 ≤ others (inn [se, { se with id := 8, period := 1 }, { se with id := 9, period := 1 }] (up 2)).dev se.id (fun y => y.period != 0) ∧
     others (imaged 7).dev se.id (fun y => y.events != 0) < 4 ∧
     4 ≤ others (inn (se :: [8, 9, 10, 11].map (fun i => { se with id := i, events := 1 })) (up 2)).dev se.id (fun y => y.events != 0) ∧
     (∀ x ∈ [{ se with sending := some ⟨1, 2, 3, [4], 0⟩ }, { se with evQueue := [[1]] }, { se with logQueue := [[1]] }],
       findSession (inn [x] (up 2)).dev (7#32).toNat = some x) ∧ linkUp (up 2).dev 0 = true) ∧
    (∀ n ∈ [7, 9], Accepted (imaged n) 0 (req 0x30 (fragmentHeader 1 0 0 8 0 ++ List.replicate 8 0) se) 0x30
      (fragmentHeader 1 0 0 8 0 ++ List.replicate 8 0) se) ∧
    (∀ l ∈ [[se], [se, { se with id := 8, period := 1 }, { se with id := 9, period := 1 }]],
      Accepted (inn l (up 2)) 0 (req 0x31 (leBytes 2 1) se) 0x31 (leBytes 2 1) se) ∧
    (∀ l ∈ [[se], se :: [8, 9, 10, 11].map (fun i => { se with id := i, events := 1 })], ∀ m ∈ [0, 7],
      Accepted (inn l (up 2)) 0 (req 0x40 (leBytes 1 m) se) 0x40 (leBytes 1 m) se) := by
  refine ⟨by unfold Settled; decide +kernel, fun n hn => ?_, fun l hl => ?_, fun l hl m hm => ?_⟩
  · simp only [List.mem_cons, List.not_mem_nil, or_false] at hn
    rcases hn with rfl | rfl <;> exact accepted_req _ _ _ _ _ (by decide +kernel)
  · simp only [List.mem_cons, List.not_mem_nil, or_false] at hl
    rcases hl with rfl | rfl <;> exact accepted_req _ _ _ _ _ (by decide +kernel)
  · simp only [List.mem_cons, List.not_mem_nil, or_false] at hl hm
    rcases hl with rfl | rfl <;> rcases hm with rfl | rfl <;> exact accepted_req _ _ _ _ _ (by decide +kernel)

theorem witness_PortsAnswerAndTakeAddresses :
    (∀ st ∈ [1, 2, 3],
      let s := put [(0x2F08, 2, 9), (0x2F08, 5, st)] (dv (fun d => { d with host := { d.host with offer := [(0, 9)] } }) (up 2))
      Settled s ∧ linkUp s.dev 0 = true ∧ dhcpState s.dev 0 = st ∧ (9#32).toNat = portAddress s.dev 0 ∧ (8#32).toNat ≠ portAddress s.dev 0 ∧
      tget (fun _ => 0) s.dev.host.offer 0 = (9#32).toNat ∧ og s.dev 0x2F20 8 < 0xFFFFFFFE) ∧
    tget (fun _ => 0) (up 2).dev.host.offer 0 = 0 ∧ dhcpState (put [(0x2F08, 5, 1)] (up 2)).dev 0 = 1 ∧
    (up 2).dev.power.booted = true ∧ ready (up 2).dev 2 = true ∧ bit (up 2).dev.fc.wire 188 = false ∧
    ((up 2).dev.host.ports.getD 0 (1, 0, 0)).2.1 = 0 ∧ (∀ b ∈ [1, 2, 3], bit (og (up 2).dev (0x3900 + 188) 1) b = false) := by
  unfold Settled; decide +kernel

/-- The configuration in force is the one written. -/
def inf (s : State) : State := dv (fun d => { d with inForce := d.objs }) s
/-- Axis 3 of kind k in mode m and axis state st, with limits and a staged velocity entry. -/
def axk (k m st : Nat) (l : List (Nat × Nat × Nat)) : State :=
  inf (put ([(ax 3 1, 1, k), (ax 3 9, 1, st), (ax 3 0x23, 1, 0x50000000), (ax 3 0x23, 2, 0x447A0000), (ax 3 0x23, 3, 0x461C4000),
    (ax 3 0x20, 1, 3), (ax 3 0x20, 4, 0x3F800000), (ax 3 0x20, 5, 0x3F800000), (ax 3 0x20, 6, 0x3F800000), (ax 3 0x20, 7, 0x42C80000),
    (ax 3 0x20, 9, 5)] ++ l) (up m))
/-- A change of axis 3's motion. -/
def mo (f : MotionSt → MotionSt) (s : State) : State := dv (fun d => setMot d 3 (f (mot d 3))) s
/-- An Active entry of type t. -/
def ent (t : Nat) : QEntry := { staged State.reset.dev 3 with typ := t, st := .active }

theorem witness_AxisCommandsAreTakenOnce :
    Settled (axk 6 3 0 []) ∧ paired (axk 6 3 0 []).dev = false ∧ (1#8).toNat ≠ og (axk 6 3 0 []).dev (ax 3 9) 3 / 256 ∧
    (1#8).toNat = og (axk 6 3 0 [(ax 3 9, 3, 256)]).dev (ax 3 9) 3 / 256 ∧
    axisReady (put [(0x1010, 0, 0)] (axk 6 3 0 [])).dev 3 = false ∧
    (∀ st ∈ [0, 1, 2, 4, 6], Commandable 3 1 (axk 6 3 st []) ∧ axState (axk 6 3 st []).dev 3 = st) ∧ mode (axk 6 3 0 []).dev ≠ 4 ∧
    axEnabled (axk 6 3 0 []).dev 3 = false ∧ mode (axk 6 4 0 []).dev = 4 ∧ Commandable 3 1 (axk 6 4 0 []) ∧
    (let s := put [(0x3C01, 1, 6), (0x3C01, 2, 1)] (axk 6 3 0 []); Settled s ∧ paired s.dev = true ∧ og s.dev 0x3C01 2 ≠ 2) := by
  unfold Settled Commandable; decide +kernel

theorem witness_EnableDisableAndAcknowledge :
    (∀ st ∈ [0, 1, 6], Commandable 3 1 (axk 6 3 st []) ∧ axState (axk 6 3 st []).dev 3 = st) ∧ enableOk (axk 6 3 0 []).dev 3 = true ∧
    enableOk (axk 6 2 0 []).dev 3 = false ∧ Commandable 3 1 (axk 6 2 0 []) ∧ (fbInput (axk 6 3 0 []).dev 3).isSome = false ∧
    (let s := axk 1 3 0 [(ax 3 1, 6, 0x10)]; (fbInput s.dev 3).isSome = true ∧ ready s.dev 16 = true) ∧
    axEnabled (axk 6 3 1 []).dev 3 = true ∧ causePresent (axk 6 3 6 []).dev 3 = false ∧
    (let s := dv (fun d => setStp d 3 { stp d 3 with missing := 9999 }) (axk 3 3 6 []); Commandable 3 1 s ∧ axState s.dev 3 = 6 ∧ causePresent s.dev 3 = true) := by
  unfold Commandable; decide +kernel

theorem witness_AppendQueuesTheStagedEntry :
    (∀ st ∈ [1, 2, 5, 6], Commandable 3 1 (axk 6 3 st []) ∧ axState (axk 6 3 st []).dev 3 = st) ∧ mode (axk 6 4 1 []).dev = 4 ∧
    og (axk 6 3 1 []).dev (ax 3 0x2D) 1 < 0xFFFFFFFF ∧
    16 ≤ (mot (mo (fun m => { m with queue := List.replicate 16 (ent 3) }) (axk 6 3 1 [])).dev 3).queue.length ∧
    (let s := axk 6 3 1 []
     (mot s.dev 3).queue = [] ∧ fieldsOk s.dev 3 (staged s.dev 3) = true ∧ og s.dev (ax 3 0x23) 4 ≠ 1 ∧ (mot s.dev 3).inPos = .reset ∧
     (mot s.dev 3).inNeg = .reset ∧ og s.dev (ax 3 0x20) 1 ≠ 4 ∧ mode s.dev ≠ 4) := by
  unfold Commandable; decide +kernel

theorem witness_StopResumeFlushAndHome :
    (∀ st ∈ [1, 2, 4, 5], Commandable 3 1 (axk 6 3 st []) ∧ axState (axk 6 3 st []).dev 3 = st ∧ mode (axk 6 3 st []).dev ≠ 4) ∧
    ready (axk 6 3 2 []).dev 2 = true ∧ sealed (axk 6 3 2 []).dev = false ∧
    (let s := mo (fun m => { m with queue := [ent 3, ent 5] }) (axk 6 3 4 [])
     Commandable 3 1 s ∧ axState s.dev 3 = 4 ∧ (mot s.dev 3).queue = ent 3 :: [ent 5] ∧ bit (og s.dev (ax 3 0x1B) 7) 3 = false ∧
     bit (og s.dev (ax 3 0x1B) 7) 4 = false ∧ (mot s.dev 3).inPos = .reset ∧ (mot s.dev 3).inNeg = .reset) ∧
    (let s := axk 6 3 4 [(ax 3 0x1B, 7, 8)]; Commandable 3 1 s ∧ bit (og s.dev (ax 3 0x1B) 7) 3 = true) ∧
    (∀ k ∈ [2, 5], let s := axk 6 3 1 [(ax 3 0x28, 1, k)]
      Commandable 3 1 s ∧ (mot s.dev 3).queue = [] ∧ (∀ m ∈ boundAxes s.dev.objs, gearing s.dev m = false) ∧
      ogq s.dev (ax 3 0x28) 3 ≤ ogq s.dev (ax 3 0x23) 1 ∧ ogq s.dev (ax 3 0x28) 4 ≤ ogq s.dev (ax 3 0x23) 1 ∧ og s.dev (ax 3 0x28) 1 = k) := by
  unfold Commandable; decide +kernel

/-- A gear run that has travelled 9. -/
def gr : GearRun := ⟨0, 0, 0, 9, 0, 0, 0, 0⟩

theorem witness_MotionEventsOfAnAxis :
    (let s := mo (fun m => { m with inPos := { m.inPos with quiet := 9999, released := false }, inNeg := { m.inNeg with quiet := 9999, released := false } }) (axk 6 3 1 [])
     ∀ j : Fin 2, (getInput (mot s.dev 3) j.val).active = false ∧ (getInput (mot s.dev 3) j.val).released = false ∧
       (getInput (mot s.dev 3) j.val).latched = false ∧ instants (cg s.dev (ax 3 0x2C) 5) ≤ (getInput (mot s.dev 3) j.val).quiet) ∧
    (let s := mo (fun m => { m with inRef := { m.inRef with changes := List.replicate 300 1 } }) (axk 6 3 1 [])
     (getInput (mot s.dev 3) 2).latched = false ∧ cg s.dev (ax 3 0x2C) 6 < (getInput (mot s.dev 3) 2).changes.length ∧
     og s.dev (ax 3 0x2D) 4 < 0xFFFFFFFE) ∧
    (let e := { ent 3 with ending := false, reached := true, dur := 5, durLeft := 0 }
     let s := mo (fun m => { m with queue := [e] }) (axk 6 3 2 [])
     activeEntry s.dev 3 = some e ∧ axState s.dev 3 = 2 ∧ e.typ = 3) ∧
    (let e := { ent 5 with started := true, durLeft := 0 }
     let s := mo (fun m => { m with queue := [e] }) (axk 6 3 2 [])
     activeEntry s.dev 3 = some e ∧ axState s.dev 3 = 2 ∧ e.typ = 5) ∧
    (let e := { ent 4 with span := 9, engage := 0 }
     let s := mo (fun m => { m with queue := [e], gear := some gr }) (axk 6 3 2 [])
     Settled s ∧ activeEntry s.dev 3 = some e ∧ (mot s.dev 3).queue = [e] ∧ gearing s.dev 3 = true ∧ (mot s.dev 3).gear = some gr ∧
     e.span ≠ 0 ∧ e.span ≤ gr.travel ∧ gr.ka + e.engage ≤ s.dev.time.kc ∧ paired s.dev = false ∧ e.st = .active) ∧
    axState (axk 6 3 1 []).dev 3 ≠ 2 ∧ (mot (axk 6 3 1 []).dev 3).queue = [] := by
  unfold Settled; decide +kernel

theorem witness_AxisLossesAreReported :
    (∀ k ∈ [1, 2], let s := dv (fun d => setCur (setSrv d 3 { srv d 3 with stale := 9999 }) 3 { cur d 3 with missing := 9999 }) (axk k 3 1 [])
      kind s.dev 3 = k ∧ fbInput s.dev 3 = none ∧ bit (og s.dev (ax 3 0x1B) 7) 4 = false ∧ cg s.dev (ax 3 0x16) 2 ≤ (srv s.dev 3).stale ∧
      axEnabled s.dev 3 = true ∧ cg s.dev (ax 3 0x1F) 7 ≤ (cur s.dev 3).missing ∧ Settled s ∧ Calm s.dev (50 + 4 * cluster s.dev 3) ∧
      cluster s.dev 3 < 8) ∧
    (∀ k ∈ [1, 2], (mot (axk k 3 1 []).dev 3).homing = none ∧ (mot (axk k 3 1 []).dev 3).blend = none) := by
  unfold Settled Calm; decide +kernel

theorem witness_AxisLossesAreReported_stepper :
    (∀ k ∈ [3, 4], let s := dv (fun d => setStp d 3 { stp d 3 with stall := 9999, missing := 9999 }) (axk k 3 1 [])
      kind s.dev 3 = k ∧ axEnabled s.dev 3 = true ∧ cg s.dev (ax 3 0x35) 4 ≤ (stp s.dev 3).stall ∧ og s.dev (ax 3 0x3B) 1 < 0xFFFFFFFE ∧
      cg s.dev (ax 3 0x16) 2 ≤ (stp s.dev 3).missing ∧ bit (og s.dev (ax 3 0x36) 5) 7 = false) ∧
    (∀ b ∈ [false, true], let s := dv (fun d => setStp d 3 { stp d 3 with missing := 9999, lost := b }) (axk 3 3 0 [])
      kind s.dev 3 = 3 ∧ axEnabled s.dev 3 = false ∧ (stp s.dev 3).lost = b ∧ cg s.dev (ax 3 0x16) 2 ≤ (stp s.dev 3).missing ∧ Settled s) ∧
    (let s := dv (fun d => setSrv d 3 { srv d 3 with stale := 9999 }) (axk 1 3 3 [])
     axState s.dev 3 = 3 ∧ Settled s ∧ Calm s.dev (50 + 4 * cluster s.dev 3) ∧ axEnabled s.dev 3 = true ∧ fbInput s.dev 3 = none ∧
     cg s.dev (ax 3 0x16) 2 ≤ (srv s.dev 3).stale) ∧
    axEnabled (axk 3 3 0 []).dev 3 = false ∧ (srv (axk 1 3 1 []).dev 3).stale < cg (axk 1 3 1 []).dev (ax 3 0x16) 2 := by
  unfold Settled Calm; decide +kernel

/-- A ring mould of segment 0 with one node without windows, and its CRC. -/
def ringMould : Bytes := (fun b => b ++ leBytes 4 (crc32c b)) ([1, 0, 0, 1, 0, 0, 16, 0, 0, 0, 16, 0, 0, 0, 0, 0] ++ List.replicate 16 0)
/-- The state with a mould of 36 bytes for segment g, with the value 16 for its cycles. -/
def moulded (g : Nat) (s : State) : State := dv (fun d => obs d (0x3300 + g) 0 ringMould) s
/-- The state with the base cycle and the cycle of the last control instant. -/
def atK (k kc : Nat) (s : State) : State := dv (fun d => { d with time := { d.time with k := k, kc := kc } }) s

theorem witness_BaseAndFieldCyclesCountAndSend :
    (Settled State.reset ∧ ready State.reset.dev 4 = false ∧ ready (put [(0x1010, 0, 16)] (up 2)).dev 4 = true ∧
     ready (put [(0x1010, 0, 16)] (up 2)).dev 31 = false) ∧
    (let s := put [(0x3000, 2, 3), (0x3000, 1, 2), (0x3C00, 2, 1), (0x1010, 0, 0x7FFFFFFF)] (up 3)
     ready s.dev 31 = false ∧ segState s.dev 0 = 3 ∧ og s.dev (sgb 0) 1 = 2 ∧ (seg s.dev 0).forced = false ∧ ready s.dev 18 = true ∧
     pairedSeg s.dev 0 = false ∧ og s.dev 0x3C00 2 ≠ 0) ∧
    (let s := atK 32 31 (moulded 8 (put [(0x3200, 2, 4), (0x3200, 1, 1), (0x3C00, 2, 1)] (up 3)))
     mould s.dev 8 ≠ [] ∧ ready s.dev 26 = true ∧ 2 * mouldNb (mould s.dev 8) = s.dev.time.k ∧ s.dev.time.kc ≠ s.dev.time.k ∧
     (seg s.dev 8).fieldCycle ≠ 3 ∧ segState s.dev 8 = 4 ∧ og s.dev (sgb 8) 1 = 1 ∧ (seg s.dev 8).forced = false ∧ (seg s.dev 8).swap = none ∧ pairedSeg s.dev 8 = false ∧ og s.dev 0x3C00 2 ≠ 0) ∧
    (let s := moulded 8 State.reset; mould s.dev 8 ≠ [] ∧ Settled s ∧ s.dev.time.kc = s.dev.time.k) := by
  unfold Settled; decide +kernel

theorem witness_BaseAndFieldCyclesCountAndSend_step : segStep (put [(0x3000, 2, 3), (0x3000, 1, 2), (0x3C00, 2, 1), (0x1010, 0, 0x7FFFFFFF)] (up 3)).dev ≠ 0 := by
  decide +kernel

/-- A configuration in which no source resets the chip. -/
def noC (s : State) : State := put (((List.range 256).filter (fun n => bit (defaultReactions n) 3)).map (fun n => (0x3900 + n, 1, 1))) s

theorem witness_ControlInstantsRunOncePerCycle :
    (let s := atK 5 4 (noC (up 2))
     Settled s ∧ ready s.dev 4 = true ∧ s.dev.time.kc ≠ s.dev.time.k ∧ s.dev.host.pending = none ∧ s.dev.time.kt ≠ s.dev.time.k ∧
     (∀ src, src < 256 → bit (og s.dev (0x3900 + src) 1) 3 = false) ∧ ∀ n ∈ boundAxes s.dev.objs, cluster s.dev n < 8) ∧
    axisSeg (up 2).dev 3 = none ∧
    Settled State.reset ∧ State.reset.dev.time.kc = State.reset.dev.time.k ∧ State.reset.dev.time.kt = State.reset.dev.time.k := by
  unfold Settled; decide +kernel

theorem witness_CyclePointsAndMappings :
    (let s := dv (fun d => { d with time := { d.time with ptDue := [(0, some (1, 2, 3))] } }) (put [(0x3500, 1, 1), (0x3500, 5, 3)] (up 2))
     Settled s ∧ tget (fun _ => none) s.dev.time.ptDue 0 = some (1, 2, 3) ∧ tget (fun _ => none) s.dev.time.ptDue 1 = none ∧
     ready s.dev 4 = true ∧ og s.dev 0x3500 1 ≠ 0 ∧ og s.dev 0x3500 6 < 0xFFFFFFFE ∧ ready s.dev 2 = true ∧ sealed s.dev = false ∧
     (∀ p ∈ s.dev.time.taps, p.2.2 ≤ 3) ∧ og (put [(0x3500, 1, 0)] s).dev 0x3500 1 = 0) ∧
    (let s := put [(0x1600, 1, (0x8021 * 256 + 8) * 256 + 64), (0x1601, 1, 5)] (up 2)
     Settled s ∧ paired s.dev = false ∧ (admission s.dev false 0x1600 0).1 = .ok ∧ (admission (up 3).dev false 0x1600 0).1 ≠ .ok ∧
     mapFail s.dev 0x1600 1 = none ∧ mapFail s.dev 0x1601 1 = some 1 ∧ (admission s.dev false 0x1601 0).1 = .ok) := by
  unfold Settled; decide +kernel

/-- Pulse input 0 counts in one direction. -/
def pon (l : List (Nat × Nat × Nat)) : State := inf (put ([(0x3D00, 1, 1), (0x3D00, 6, 100), (0x3D00, 8, 0), (0x3D00, 0x0D, 0), (0x3D00, 4, 0)] ++ l) (up 2))
/-- Pulse input 0 with these values. -/
def pul (f : PulseSt → PulseSt) (s : State) : State := dv (fun d => setPls d 0 (f (pls d 0))) s

theorem witness_PulseInputsCountAndShowTheirLosses :
    Settled (up 2) ∧ pulseOn (up 2).dev 0 = false ∧
    (let s := pul (fun x => { x with restart := true }) (pon [])
     pulseOn s.dev 0 = true ∧ (pls s.dev 0).waiting = [] ∧ cg s.dev 0x3D00 0x0D ≠ 1 ∧
     pulseTime (advance s.dev 7).time.seg + cg s.dev 0x3D00 4 + 20 < pulseInstantAt (s.dev.time.kc + 1) ∧ (pls s.dev 0).lastEdge = none ∧
     (pls s.dev 0).restart = true) ∧
    (let s := pul (fun x => { x with restart := false, lastEdge := some 6 }) (pon [(0x3D00, 5, 100)])
     pulseTime (advance s.dev 7).time.seg - 6 < (cg s.dev 0x3D00 5 * 5 + 3) / 4 ∧ og s.dev 0x3D20 2 < 0xFFFFFFFE ∧
     (cg s.dev 0x3D00 5 * 5 + 3) / 4 ≤ pulseTime (advance s.dev 7777).time.seg - 6 ∧
     pulseTime (advance s.dev 7777).time.seg + cg s.dev 0x3D00 4 + 20 < pulseInstantAt (s.dev.time.kc + 1) ∧
     (pls s.dev 0).restart = false ∧ (pls s.dev 0).sNeg = (pls s.dev 0).cmdNeg ∧ cg s.dev 0x3D00 8 ≠ 1 ∧ cg s.dev 0x3D00 8 ≠ 2 ∧
     (pls s.dev 0).refPending = false) ∧
    (let s := pul (fun x => { x with te := -9999999999999, watch := 99999 }) (pon [(0x3D00, 2, 0), (0x3D00, 0x12, 0x3F800000)])
     standstillTime s.dev 0 ≤ ((pulseTime s.dev.time.seg - (pls s.dev 0).te : Int) : Rat) ∧ Settled s ∧ pulseOn s.dev 0 = true ∧
     cg s.dev 0x3D00 2 = 0 ∧ bit (og s.dev 0x3D10 4) 8 = false ∧ og s.dev 0x3D20 8 < 0xFFFFFFFE ∧ f32ToRat (ogf s.dev 0x3D00 0x12) ≠ 0 ∧
     bit (og s.dev 0x3D10 4) 9 = false ∧ instants (og s.dev 0x3D00 0x13) ≤ (pls s.dev 0).watch ∧
     ∀ j : PIn, j ≠ 0 → bit (og s.dev (0x3D10 + j.val) 4) 8 = false) ∧
    (∃ j : PIn, j ≠ 0 ∧ bit (og (put [(0x3D11, 4, 256)] (up 2)).dev (0x3D10 + j.val) 4) 8 = true) := by
  unfold Settled; decide +kernel

theorem witness_SegmentRequestsAndMoulds :
    Settled (up 2) ∧ paired (up 2).dev = false ∧ ready State.reset.dev 1 = false ∧ Settled State.reset ∧ paired State.reset.dev = false ∧
    ready (up 2).dev 1 = true ∧
    2 < (3#8).toNat ∧ (2#8).toNat ≤ 2 ∧ segState (up 2).dev 0 = 0 ∧ segState (put [(0x3000, 2, 3)] (up 3)).dev 0 = 3 ∧ mode (up 3).dev ≠ 4 ∧
    (∀ n ∈ segAxes (put [(0x3000, 2, 3)] (up 3)).dev 0, axState (put [(0x3000, 2, 3)] (up 3)).dev n ≠ 2) ∧ mode (up 5).dev = 5 ∧
    segState (put [(0x3000, 2, 3)] (up 3)).dev 0 ≠ 4 ∧ mouldOk 0 [1] = false ∧ mouldOk 0 ringMould = true ∧ mouldOk 0 [] = true ∧
    segState (put [(0x3000, 2, 4)] (up 3)).dev 0 = 4 ∧ mode (up 3).dev ≠ 2 ∧ mode (up 2).dev = 2 ∧ ([] : Bytes).length ≠ 1024 ∧
    (∃ i, i < 512 ∧ rd (leBytes 2 0x8000 ++ List.replicate 1022 0) (2 * i) 2 = 0x8000) ∧
    (leBytes 2 0x8000 ++ List.replicate 1022 0).length = 1024 ∧ (List.replicate 1024 0 : Bytes).length = 1024 := by
  unfold Settled; decide +kernel

/-- Bytes of zero spell zero. -/
theorem ofLe_zeros (n : Nat) : ofLe (List.replicate n 0) = 0 := by
  induction n with
  | zero => rfl
  | succ n ih => rw [List.replicate_succ, ofLe, ih]; rfl

/-- A table of zeros holds no value 0x8000. -/
theorem witness_SegmentRequestsAndMoulds_table : ∀ i, i < 512 → rd (List.replicate 1024 0) (2 * i) 2 ≠ 0x8000 := by
  intro i h
  rw [rd, slice, List.drop_replicate, List.take_replicate, ofLe_zeros]
  decide

/-- Two tests that agree on a list find the same. -/
theorem find?_congr' {α : Type} {p q : α → Bool} : ∀ {l : List α}, (∀ x ∈ l, p x = q x) → l.find? p = l.find? q
  | [], _ => rfl
  | x :: l, h => by simp only [List.find?, h x (by simp), find?_congr' (l := l) (fun y hy => h y (by simp [hy]))]

/-- No axis has a cluster above 7 where no axis object is written. -/
theorem witness_ControlInstantsRunOncePerCycle_clusters (n : Nat) : cluster (atK 5 4 (noC (up 2))).dev n < 8 := by
  have hk : ∀ p ∈ (atK 5 4 (noC (up 2))).dev.objs, p.1 < 0x800000 := by decide +kernel
  have hg : ∀ (t : Table Nat), (∀ p ∈ t, p.1 < 0x800000) → ∀ k, 0x800000 ≤ k → tget objDefault t k = objDefault k := by
    intro t ht k hk'
    induction t with
    | nil => rfl
    | cons p t ih =>
      have h1 := ht p (by simp)
      have : p.1 ≠ k := by omega
      simp only [tget, this]
      exact ih (fun q hq => ht q (by simp [hq]))
  unfold cluster og
  rw [hg _ hk _ (by unfold okey ax; omega)]
  have hr : ∀ r ∈ rowsAxisB, r.stride = 64 ∧ r.count = 512 ∧ 0x8000 ≤ r.base ∧ r.base < 0x8040 := by decide +kernel
  have hb : ∃ r, rowsAxisB.find? (fun r => r.covers 0x801D 1) = some r ∧ r.dfl = .special := ⟨_, rfl, rfl⟩
  have hd : okey (ax n 0x1D) 1 / 256 = ax n 0x1D ∧ okey (ax n 0x1D) 1 % 256 = 1 := by unfold okey; omega
  by_cases h : n < 512
  · have hc : ∀ r ∈ rowsAxisB, r.covers (ax n 0x1D) 1 = r.covers 0x801D 1 := by
      intro r hm
      obtain ⟨h1, h2, h3, h4⟩ := hr r hm
      simp only [Row.covers, h1, h2]
      congr 2
      rw [← Bool.decide_and, ← Bool.decide_and, ← Bool.decide_and, ← Bool.decide_and]
      apply decide_eq_decide.mpr
      unfold ax
      omega
    have hw : rowsFor (ax n 0x1D) = rowsAxisB := by
      have : ¬ ax n 0x1D < 0x8000 ∧ ax n 0x1D < 0x10000 ∧ (ax n 0x1D - 0x8000) % 0x40 = 0x1D := by unfold ax; omega
      unfold rowsFor
      repeat rw [if_neg (by omega)]
      rw [if_pos this.2.1]
      simp only [this.2.2]
      rfl
    have hf : findRow (ax n 0x1D) 1 = rowsAxisB.find? (fun r => r.covers 0x801D 1) := by
      unfold findRow
      rw [hw]
      exact find?_congr' hc
    obtain ⟨r, e1, e2⟩ := hb
    rw [objDefault, hd.1, hd.2, hf, e1]
    simp only [e2]
    have : specialDefault (ax n 0x1D) 1 = n / 64 := by
      have : (ax n 0x1D - 0x8000) / 0x40 = n ∧ (ax n 0x1D - 0x8000) % 0x40 = 0x1D ∧ 0x8000 ≤ ax n 0x1D := by unfold ax; omega
      unfold specialDefault
      rw [if_neg (show ¬ ax n 0x1D = 0x1001 by omega), if_neg (show ¬ ax n 0x1D = 0x2F00 by omega), if_neg (show ¬ ax n 0x1D = 0x2F01 by omega),
        if_neg (show ¬ (decide (0x3420 ≤ ax n 0x1D) && decide (ax n 0x1D ≤ 0x3421)) = true by simp only [Bool.and_eq_true, decide_eq_true_eq]; omega),
        if_neg (show ¬ ax n 0x1D = 0x3820 by omega),
        if_neg (show ¬ (decide (0x3900 ≤ ax n 0x1D) && decide (ax n 0x1D < 0x39C0)) = true by simp only [Bool.and_eq_true, decide_eq_true_eq]; omega),
        if_neg (show ¬ ax n 0x1D = 0x3C00 by omega), if_pos this.2.2]
      simp only [this.1, this.2.1]
      rfl
    omega
  · have e : rowsFor (ax n 0x1D) = [] := by
      unfold rowsFor
      have : 0x10000 ≤ ax n 0x1D := by unfold ax; omega
      repeat rw [if_neg (by omega)]
    rw [objDefault, hd.1, hd.2, findRow, e]
    show 0 < 8
    decide

/-- Segment g with this state record of the head. -/
def sg (g : Nat) (f : SegSt → SegSt) (s : State) : State := dv (fun d => setSeg d g (f (seg d g))) s
/-- The record of node j of segment g at the head. -/
def he (g j : Nat) (f : HeadNode → HeadNode) (s : State) : State := dv (fun d => setHd d g j (f (hd d g j))) s
/-- Segment 8 in a state. -/
def line8 (st : Nat) : State := put [(0x3200, 2, st), (0x3C00, 2, 1)] (up 3)

theorem witness_SegmentsStartAndIntegrate :
    (segState (line8 0).dev 8 ≠ 1 ∧ Settled (line8 1) ∧ segState (line8 1).dev 8 = 1 ∧
     (∀ h ∈ [true, false], let s := atK 9999 9998 (sg 8 (fun x => { x with cold := .listening, heard := h, start := 0 }) (line8 1))
       (seg s.dev 8).cold = .listening ∧ (seg s.dev 8).start + 4 * slotCycles 8 ≤ s.dev.time.k ∧ (seg s.dev 8).heard = h ∧ segState s.dev 8 = 1) ∧
     (∀ n ∈ [0, 1], let s := atK 9999 9998 (sg 8 (fun x => { x with cold := .sending, heard := false, sent := n, start := 0 }) (line8 1))
       (seg s.dev 8).cold = .sending ∧ (seg s.dev 8).start + slotCycles 8 ≤ s.dev.time.k ∧ (seg s.dev 8).heard = false ∧ segState s.dev 8 = 1 ∧
       (seg s.dev 8).sent = n ∧ og s.dev (sgb 8) 9 < 0xFFFFFFFE) ∧
     (let s := atK 99999 9998 (sg 8 (fun x => { x with cold := .backoff, start := 0 }) (line8 1))
      (seg s.dev 8).cold = .backoff ∧ (seg s.dev 8).start + (255 - og s.dev 0x3C00 2) * slotCycles 8 ≤ s.dev.time.k ∧ segState s.dev 8 = 1)) ∧
    ((3#8).toNat ≤ 254 ∧ (0#16).toNat = mouldTag (mould (line8 1).dev 8) ∧ (1#16).toNat ≠ mouldTag (mould (line8 1).dev 8) ∧
     (seg (line8 1).dev 8).cold ≠ .backoff ∧ segState (line8 2).dev 8 ≠ 1 ∧
     (let s := put [(0x3C00, 4, 256)] (line8 2); pairedSeg s.dev 8 = true ∧ Settled s ∧ segState s.dev 8 ≠ 1) ∧ pairedSeg (line8 2).dev 8 = false ∧
     (let s := sg 8 (fun x => { x with rolled := true }) (put [(0x3200, 3, 1)] (line8 2))
      segState s.dev 8 = 2 ∧ og s.dev (sgb 8) 3 = 1 ∧ (seg s.dev 8).rolled = true ∧ (∀ p ∈ headsOf s.dev 8, p.2.state ≠ 1 ∧ p.2.state ≠ 2) ∧
      s.dev.time.k % mouldNb (mould s.dev 8) = 0)) := by
  unfold Settled; decide +kernel

/-- The ring of segment 0 with its mould, Synchronous, with claim 1. -/
def ring0 (st : Nat) : State := moulded 0 (put [(0x3000, 2, st), (0x3C00, 2, 1)] (up 3))

theorem witness_NodesAreCalledIntegratedAndLost :
    (let s := atK 256 255 (ring0 2)
     paired s.dev = false ∧ pairedSeg s.dev 0 = false ∧ sending s.dev 0 = true ∧ og s.dev 0x3C00 2 ≠ 0 ∧ rollDue s.dev 0 = true ∧
     (seg s.dev 0).mailed = false ∧ 1 ∈ mouldNodes 0 (mould s.dev 0) ∧ (hd s.dev 0 1).state = 0 ∧ (hd s.dev 0 1).addressed = false ∧
     (seg s.dev 0).exchanges = []) ∧
    sending (ring0 0).dev 0 = false ∧ Settled (ring0 0) ∧ (hd (he 0 1 (fun h => { h with state := 3 }) (ring0 3)).dev 0 1).state = 3 ∧
    (let e : Exchange := ⟨1, 1, 5, [1], 1, 0⟩
     let s := he 0 1 (fun h => { h with addressed := true, step := 1, state := 1 }) (sg 0 (fun x => { x with exchanges := [e] }) (ring0 3))
     (seg s.dev 0).exchanges = [e] ∧ e.node = 1 ∧ e.used ≠ 0 ∧ e.seq = (5#8).toNat ∧ e.cls = 1 ∧ (hd s.dev 0 1).addressed = true ∧
     (hd s.dev 0 1).step = 1 ∧ (let p : Bytes := [1, 0] ++ List.replicate 8 0; 2 ≤ p.length ∧ rd p 0 1 = 1 ∧ rd p 1 1 = 0 ∧
       identityOk (mould s.dev 0) 0 1 p = true) ∧ (let p : Bytes := [1, 0] ++ List.replicate 8 1; rd p 0 1 = 1 ∧ rd p 1 1 = 0 ∧
       identityOk (mould s.dev 0) 0 1 p = false)) ∧
    (let s := he 0 1 (fun h => { h with state := 3, missing := 32 }) (ring0 3); (hd s.dev 0 1).state = 3 ∧ 32 ≤ (hd s.dev 0 1).missing) ∧
    (hd (ring0 3).dev 0 1).state ≠ 3 ∧ nodeSeg (.ring 0 0) = 0 ∧ nodeNum (.ring 0 0) = 1 ∧ nodeSeg (.line 0 5) = 8 ∧ nodeNum (.line 0 5) = 5 ∧
    (let s := he 8 5 (fun h => { h with state := 3, dev := 8 }) (line8 3)
     (hd s.dev 8 5).state = 3 ∧ 8 ≤ (hd s.dev 8 5).dev ∧ og s.dev (fnx 0 5 3) 5 < 0xFFFFFFFE ∧ pairedSeg s.dev 8 = false) := by
  unfold Settled; decide +kernel

theorem witness_MailboxesAreExchangedAndChilled :
    (let s := dv (fun d => obs d 0x3300 0 (ringMould.take 6 ++ [16, 0] ++ ringMould.drop 8)) (ring0 3)
     Settled s ∧ paired s.dev = false ∧ ready s.dev 18 = true ∧ ([5, 0] : Bytes) ≠ [] ∧ ([5, 0] : Bytes).length ≤ mouldP 0 (mould s.dev 0) ∧
     rd [5, 0] 0 1 = 5 ∧ og s.dev (sgb 0 + 0x0A) 4 ≠ 1 ∧ og (put [(sgb 0 + 0x0A, 4, 1)] s).dev (sgb 0 + 0x0A) 4 = 1 ∧
     ready (put [(0x1010, 0, 0)] s).dev 18 = false ∧ (seg s.dev 0).exchanges = [] ∧
     mouldP 0 (mould s.dev 0) < (List.replicate 17 5#8).length) ∧
    (∀ u ∈ [1, 16], let e : Exchange := ⟨1, 4, 5, [1], u, 0⟩
     let s := sg 0 (fun x => { x with exchanges := [e] }) (ring0 3)
     (seg s.dev 0).exchanges = [e] ∧ e.node = nodeNum (.ring 0 0) ∧ e.cls = 4 ∧ e.used = u ∧ e.seq = (5#8).toNat ∧ e.seq ≠ (6#8).toNat ∧
     og s.dev (sgb 0 + 0x0A) 5 < 0xFFFFFFFE) ∧
    (let s := ring0 3
     Settled s ∧ ready s.dev 4 = true ∧ og s.dev 0x3510 2 ≠ 1 ∧ og s.dev 0x3510 2 ≠ 2 ∧ paired s.dev = false ∧
     (1#64).toNat < s.dev.time.kc + 1 + chillLead s.dev ∧ s.dev.time.kc + 1 + chillLead s.dev ≤ (1024#64).toNat ∧
     (1024#64).toNat % chillGrid s.dev = 0 ∧ ready (put [(0x1010, 0, 0)] s).dev 4 = false ∧ og (put [(0x3510, 2, 1)] s).dev 0x3510 2 = 1 ∧
     og (put [(0x3510, 2, 2)] s).dev 0x3510 2 = 2) ∧
    (let s := dv (fun d => { d with time := { d.time with chillAt := some 0 } }) (put [(0x3510, 2, 1)] (up 3))
     og s.dev 0x3510 2 = 1 ∧ s.dev.time.chillAt = some s.dev.time.k ∧ ready s.dev 2 = true ∧ sealed s.dev = false ∧
     (∀ p ∈ s.isl.counters, p.1 < 256) ∧ isCounter 0x3840 0 = true ∧ ready s.dev (ownerBit s.dev 0x3840) = true) ∧
    (let s := he 0 1 (fun h => { h with chillSt := 2 }) (put [(0x3510, 2, 2)] (ring0 3))
     Settled s ∧ og s.dev 0x3510 2 = 2 ∧ ∀ p ∈ s.dev.heads, p.2.chillSt = 0 ∨ p.2.chillSt = 1 ∨ p.2.chillSt = 2 ∨ p.2.chillSt = 5) := by
  unfold Settled; decide +kernel

/-- A line mould of segment 8 with one scheduled node. -/
def line0 : State := dv (fun d => setHd (obs d 0x3308 0 ([2, 8, 0, 1, 1, 0, 16, 0] ++ List.replicate 32 0 ++ [1] ++ List.replicate 23 0)) 8 0
  { hd d 8 0 with state := 3 }) (put [(0x3200, 2, 3), (0x3C00, 2, 1)] (up 3))

theorem witness_FramesAreReceivedAndClassified :
    (let s := atK 256 255 (sg 0 (fun x => { x with lastClaim := 1 }) (he 0 1 (fun h => { h with state := 3 }) (ring0 3)))
     pairedSeg s.dev 0 = false ∧ sending s.dev 0 = true ∧ 
     0 + 1 ≤ mouldN 0 (mould s.dev 0) ∧ (hd s.dev 0 1).state = 3 ∧ (hd s.dev 0 1).step ≠ 4 ∧ (∀ i, i < 9 → og s.dev (sgb 0 + 9) i < 0xFFFFFFFE) ∧
     (1#8).toNat = (seg s.dev 0).lastClaim ∧ (0#8).toNat = s.dev.time.k % 256 ∧ s.dev.time.kc ≠ s.dev.time.k ∧
     (2#8).toNat ≠ (seg s.dev 0).lastClaim ∧ ([0, 0] : Bytes).length = 2 + nodeWinBytes (mould s.dev 0) 1 ∧ (hd s.dev 0 1).rx = none ∧ Settled s) ∧
    (let s := atK 256 256 (he 0 1 (fun h => { h with state := 3, rx := some [0, 0] }) (ring0 3))
     s.dev.time.kc = s.dev.time.k ∧ (hd s.dev 0 1).rx = some [0, 0] ∧ (∃ w, (hd s.dev 0 1).rx = some w ∧ w ≠ ([0, 1] : Bytes))) ∧
    (let s := line0
     pairedSeg s.dev 8 = false ∧ sending s.dev 8 = true ∧ linePresent (mould s.dev 8) 0 = true ∧ (seg s.dev 8).swap = none ∧ (hd s.dev 8 0).state = 3 ∧ (seg s.dev 8).missNow = false ∧
     (∀ i, i < 9 → og s.dev (sgb 8 + 9) i < 0xFFFFFFFE ∧ og s.dev (fnx 0 0 3) i < 0xFFFFFFFE) ∧ (0#3).toNat = segCycle s.dev 8 % 8 ∧
     (1#3).toNat ≠ segCycle s.dev 8 % 8 ∧ (List.replicate 4 0 : Bytes).length = 4 ∧ (List.replicate 32 0 : Bytes).length = 32 ∧
     (hd s.dev 8 0).slot = none ∧ (hd s.dev 8 0).riser = none ∧ (hd s.dev 8 0).slotMiss = false ∧ (320#32).toInt.natAbs ≤ 320 ∧
     320 < (321#32).toInt.natAbs ∧ (800#32).toInt.natAbs ≤ 800 ∧ 800 < (801#32).toInt.natAbs) ∧
    (let s := put [(phyStatus 3, 2, 1)] (up 3)
     ready s.dev (18 + 3) = true ∧ (63#8).toNat ≤ 63 ∧ (100#8).toNat ≤ 100 ∧ Settled s ∧ og s.dev (phyStatus 3) (1 + 1) = 1 ∧
     og s.dev (phyStatus 3 + 1) (5 + 1) < 0xFFFFFFFE) ∧
    ready State.reset.dev (18 + 3) = false ∧ og (up 3).dev (phyStatus 3) (1 + 1) ≠ 1 := by
  unfold Settled; decide +kernel

/-- The state with node n's record changed. -/
def ndo (n : NodeId) (f : NodeSt → NodeSt) (s : State) : State := setNd s n (f (nd s n))
/-- A node of a ring, and one of a line. -/
def rn : NodeId := .ring 0 0
def fn : NodeId := .line 0 0
/-- The ring's mould with its paired flag, and one window of kind 2 at node 1. -/
def pairedMould : State := dv (fun d => obs d 0x3300 0 ([1, 0, 2, 1] ++ List.replicate 12 0 ++ [1] ++ List.replicate 11 0 ++ [2, 0] ++ List.replicate 6 0)) (up 3)

theorem witness_NodesTakeTheirPlaceAndTime :
    (ringNode fn = false ∧ mouldPaired (nodeMould (up 3) fn) = false ∧ ringNode rn = true) ∧
    (∀ n ∈ [rn, fn],
      (let s := ndo n (fun x => { x with run := 8, runTag := 7 }) (up 3)
       (nd s n).lock = false ∧ (if ringNode n then 8 else 4) ≤ (nd s n).run ∧ (nd s n).runTag = (7#16).toNat ∧ (nd s n).runTag ≠ (8#16).toNat) ∧
      (let s := ndo n (fun x => { x with lock := true, miss := 32 }) (up 3)
       (nd s n).lock = true ∧ (if ringNode n then 32 else 8) ≤ (nd s n).miss) ∧
      (let s := ndo n (fun x => { x with lock := true, run := 8, runTag := 7 }) (up 3)
       (nd s n).runTag ≠ (nd s n).tag ∧ (if ringNode n then 8 else 4) ≤ (nd s n).run) ∧
      (nd (up 3) n).corr = [] ∧ (nd (ndo n (fun x => { x with corr := [(1, 5)] }) (up 3)) n).corr = [(1, 5)]) ∧
    (mouldPaired (nodeMould pairedMould rn) = true ∧ (nd pairedMould rn).wrapB = false ∧ mouldPaired (nodeMould (up 3) rn) = false ∧
     0 < winCount (nodeMould pairedMould rn) 1 ∧ 2 ≤ winKind (nodeMould pairedMould rn) 1 0 ∧ winCount (nodeMould pairedMould rn) 1 ≤ 1) := by
  decide +kernel

theorem witness_NodesSelectApplyAndSend :
    (let s := ndo rn (fun x => { x with integrated := true, lock := true, addrA := some 1, tag := 7, timeCyc := 9 }) (up 3)
     (nd s rn).integrated = true ∧ (7#16).toNat = (nd s rn).tag ∧ (9#32).toNat = (nd s rn).timeCyc % 2 ^ 32 ∧ (nd s rn).bestClaim < (1#8).toNat ∧
     (1#8).toNat ≤ 254 ∧ inPlace s rn = true ∧ (nd s rn).best = none ∧ (0#8).toNat = (0 : Ring).val ∧ (List.replicate 16 0 : Bytes).length = 16) ∧
    inPlace (ndo rn (fun x => { x with integrated := true }) (up 3)) rn = false ∧
    (nd (ndo rn (fun x => { x with integrated := true, best := some (true, []) }) (up 3)) rn).best = some (true, []) ∧
    (nd (ndo rn (fun x => { x with integrated := true, best := some (false, [1, 2]) }) (up 3)) rn).best = some (false, [1, 2]) ∧
    (nd (up 3) rn).integrated = false ∧
    (let s := ndo fn (fun x => { x with integrated := true, lock := true, addrA := some 0, tag := 7, timeCyc := 9 }) line0
     (nd s fn).integrated = true ∧ (7#16).toNat = (nd s fn).tag ∧ (9#32).toNat = (nd s fn).timeCyc % 2 ^ 32 ∧ (nd s fn).bestClaim = 0 ∧
     (∃ e ∈ [(0x8000#16, 0#16)], e.1.toNat % 1024 = 0 ∧ e.1.toNat / 2 ^ 14 = 2) ∧ (nd s fn).best = none ∧ inPlace s fn = true ∧
     (nd s fn).excluded = false ∧ linePresent (nodeMould s fn) 0 = true ∧ 200 < (201#16).toNat ∧ (200#16).toNat ≤ 200) ∧
    (nd (ndo fn (fun x => { x with integrated := true, bestClaim := 9 }) line0) fn).bestClaim = 9 ∧
    (∀ f ∈ [0#8, 4#8], (nd (ndo fn (fun x => { x with integrated := true, best := some (true, f :: ([0] ++ leBytes 4 (3 + 4 * 0 + 65536 * (5#16).toNat))) }) line0) fn).best =
      some (true, f :: ([0] ++ leBytes 4 (3 + 4 * 0 + 65536 * (5#16).toNat)))) ∧ bit (0#8).toNat 2 = false ∧ bit (4#8).toNat 2 = true ∧ (nd (up 3) fn).integrated = false := by
  decide +kernel

/-- A safety PDU of ring 0's connection with permit v for node 1, sequence q, and its CRC at domain 0. -/
def pduOf (q : Nat) (v : Byte) : Bytes := (fun b => b ++ leBytes 4 (crcSafety 0 b)) (leBytes 2 0x1000 ++ leBytes 2 q ++ [v] ++ List.replicate 7 0)

theorem witness_NodesAnswerMailboxesAndSafetyPdus :
    inPlace (up 3) rn = false ∧
    (let s := ndo rn (fun x => { x with lock := true, addrA := some 1, reqSeq := 5 }) (up 3)
     inPlace s rn = true ∧ (5#8).toNat = (nd s rn).reqSeq ∧ (6#8).toNat ≠ (nd s rn).reqSeq) ∧
    rd [2] 0 1 = 2 ∧ rd [4] 0 1 = 4 ∧ 8 ≤ rd [9] 0 1 ∧ rd [9] 0 1 < 0x80 ∧ nodePermit rn [] = none ∧
    blkDomain (up 3).isl.block = 0 ∧ pduGood 0 (pduOf 1 0) = true ∧ nodePermit rn (pduOf 1 0) = some false ∧ pduGood 0 (pduOf 1 1) = true ∧
    nodePermit rn (pduOf 1 1) = some true ∧ pduGood 0 [] = false ∧ (nd (up 3) rn).watch = [] ∧ (nd (up 3) rn).pduSeq = [] ∧
    (let s := ndo rn (fun x => { x with pduSeq := [((3#8).toNat * 65536 + rd (pduOf 1 1) 0 2, rd (pduOf 1 1) 2 2 * 2 + 1)] }) (up 3)
     (nd s rn).pduSeq = [((3#8).toNat * 65536 + rd (pduOf 1 1) 0 2, rd (pduOf 1 1) 2 2 * 2 + 1)]) := by
  decide +kernel

/-- A PTP master. -/
def ma : Master := ⟨[1, 2], 3, 1, 4, 1, 5, false⟩
/-- Domain A in a state, with its master. -/
def dma (st : Nat) (m : Option Master) (l : List (Nat × Nat × Nat)) : State :=
  dv (fun d => { d with time := { d.time with domA := { d.time.domA with best := m, clock := 5 * unitCycle } } })
    (put ([(0x3428, 1, st), (0x3420, 1, 1), (0x3420, 3, 3)] ++ l) (up 2))

theorem witness_PtpDomainsFollowTheirMaster :
    Settled (up 2) ∧ domState (up 2).dev 0 = 0 ∧
    (let s := dma 1 none []
     Settled s ∧ domState s.dev 0 ≠ 0 ∧ ready s.dev 30 = true ∧ ready s.dev 4 = true ∧ bit (og s.dev 0x3420 3) 0 = true ∧
     (dom s.dev 0).heard = [] ∧ (dom s.dev 0).best = none ∧ bit (og (put [(0x3420, 3, 0)] s).dev 0x3420 3) 0 = false) ∧
    (let s := dma 1 (some ma) []
     (dom s.dev 0).best = some ma ∧ domState s.dev 0 = 1 ∧ s.dev.time.grid % 10 = 0 ∧ (∀ u : Fin 4, og s.dev (0x3450 + u.val) 1 = 0)) ∧
    domState (dma 2 none []).dev 0 ≠ 3 ∧ domState (dma 2 none []).dev 0 ≤ 4 ∧
    (let s := dma 3 (some ma) [(0x3410, 6, 2)]; domState s.dev 0 = 3 ∧ og s.dev 0x3410 6 ≠ 0 + 1) ∧
    (let s := dma 3 (some ma) [(0x3420, 5, 0)]; og s.dev 0x3420 5 = 0 ∧ (dom s.dev 0).best = some ma) ∧
    og (dma 3 (some ma) [(0x3420, 5, 1)]).dev 0x3420 5 = 1 := by
  unfold Settled; decide +kernel

theorem witness_SegmentTimeFollowsItsSource :
    (let s := dma 3 (some ma) [(0x3410, 6, 1)]
     Settled s ∧ og s.dev 0x3410 6 = 0 + 1 ∧ domState s.dev 0 = 3 ∧ (∀ u : Fin 4, og s.dev (0x3450 + u.val) 1 = 0) ∧ ready s.dev 4 = true ∧
     (∀ g : Seg, segState s.dev g.val = 0)) ∧
    (up 2).dev.time.hold = (up 2).dev.time.hold ∧
    (let s := dv (fun d => { d with time := { d.time with hold := true } }) (dma 3 (some ma) [(0x3410, 6, 1)])
     s.dev.time.hold = true ∧ Settled s ∧ og s.dev 0x3410 6 = 0 + 1) ∧
    (∀ m : Dom, og (put [(0x3410, 6, 0)] (up 2)).dev 0x3410 6 = m.val + 1 → domState (up 2).dev m.val ≠ 3) ∧
    (dv (fun d => { d with time := { d.time with hold := false } }) (up 2)).dev.time.hold = false ∧
    (let s := dma 3 (some ma) [(0x3410, 6, 0), (0x3410, 1, 1)]
     og s.dev 0x3410 1 = 0 + 1 ∧ og s.dev 0x3410 6 ≠ 0 + 1 ∧ og s.dev 0x3410 0x0A < 0xFFFFFFFE) ∧
    og (up 2).dev 0x3410 6 = og (up 2).dev 0x3410 1 ∧ ready State.reset.dev 4 = false ∧
    (∃ g : Seg, segState (put [(0x3000, 2, 3)] (up 2)).dev g.val ≠ 0) ∧ og (put [(0x3410, 6, 0)] (up 2)).dev 0x3410 6 = 0 ∧
    writeStatus (up 2).dev 0x3410 1 1 = .ok ∧ writeStatus (up 2).dev 0x3410 1 200 ≠ .ok ∧ writeStatus (up 2).dev 0x3420 1 1 = .ok ∧
    writeStatus (up 2).dev 0x3420 1 200 ≠ .ok ∧ og (dma 3 none [(0x3410, 6, 2)]).dev 0x3410 6 ≠ 0 + 1 := by
  unfold Settled; decide +kernel

theorem witness_CapturesStampAndTriggersFire :
    Settled State.reset ∧ ready State.reset.dev 4 = false ∧
    (let s := put [(0x3440, 1, 1), (0x3440, 2, 0x1000000)] (up 2)
     Settled s ∧ ready s.dev 4 = true ∧ og s.dev 0x3440 1 ≠ 0 ∧ 2 ^ 24 ≤ og s.dev 0x3440 2 ∧ og s.dev 0x3440 5 < 0xFFFFFFFE ∧
     og s.dev 0x3440 6 < 0xFFFFFFFE ∧ og (put [(0x3440, 2, 1)] s).dev 0x3440 2 < 2 ^ 24) ∧
    writeStatus (up 2).dev 0x3440 1 (b2n true) = .ok ∧ writeStatus State.reset.dev 0x3440 1 (b2n true) ≠ .ok ∧
    writeStatus (up 2).dev 0x3450 1 1 = .ok ∧ writeStatus (up 2).dev 0x3450 3 (5 * 65536) = .ok ∧ og (put [(0x3450, 2, 0)] (up 2)).dev 0x3450 2 = 0 ∧
    (up 2).dev.time.local_ ≤ unitsOf (5 * 65536) ∧ writeStatus (up 2).dev 0x3450 1 0 = .ok ∧
    (let s := dv (fun d => { d with time := { d.time with local_ := 10 ^ 30 } }) (up 2); unitsOf (5 * 65536) < s.dev.time.local_ ∧
      writeStatus s.dev 0x3450 3 (5 * 65536) = .ok) ∧
    (let s := put [(0x3450, 1, 1), (0x3450, 2, 0), (0x3450, 5, 0)] (up 2)
     let e := advance s.dev (gridTo s.dev.time.local_ (trigNext s.dev 0 * (10 * 2 ^ 24)) (8 * 2 ^ 40))
     ready s.dev 4 = true ∧ og s.dev 0x3450 1 ≠ 0 ∧ og s.dev 0x3450 2 = 0 ∧ og s.dev 0x3450 5 = 0 ∧ og s.dev 0x3450 6 < 0xFFFFFFFE ∧
     e.time.seg ≤ (s.dev.time.k + 1) * unitCycle ∧ timeUnits (og s.dev 0x3450 4) = 0) ∧
    (let s := dv (fun d => setTrigNext d 0 (10 ^ 15)) (put [(0x3450, 1, 1), (0x3450, 4, 65536)] (up 2))
     (s.dev.time.k + 1) * unitCycle < (advance s.dev (gridTo s.dev.time.local_ (trigNext s.dev 0 * (10 * 2 ^ 24)) (8 * 2 ^ 40))).time.seg ∧
     timeUnits (og s.dev 0x3450 4) ≠ 0 ∧ timeUnits (og s.dev 0x3450 3) ≤ (advance s.dev 0).time.local_ / (10 * 2 ^ 24)) := by
  unfold Settled; decide +kernel

/-- Set 0 of the acquisition in a state, with a record whose number is 7. -/
def acs (st : Nat) (f : AcqSt → AcqSt) (l : List (Nat × Nat × Nat)) : State :=
  dv (fun d => { d with acq := f d.acq, host := { d.host with sessions := [se] } }) (put ([(acqObj 0 3, 1, st), (acqObj 0 3, 2, 7)] ++ l) (up 2))
/-- A record of set 0. -/
def rec0 (c : Bool) : Record := ⟨7, 0, [1, 2, 3], c, 0, 0, 0⟩

theorem witness_SetsRunAndRecordsAreUploaded_sets :
    (Settled (acs 0 id []) ∧ armStatus (acs 0 id []).dev 0 = .ok ∧ armStatus (acs 1 id []).dev 0 ≠ .ok ∧ ready State.reset.dev 17 = false ∧
     ready (acs 0 id []).dev 17 = true ∧ acqState (acs 0 id []).dev 0 = 0 ∧ acqState (acs 4 id []).dev 0 = 4 ∧
     (let s := acs 2 (fun a => { a with recs := [rec0 false] }) []
      1 ≤ acqState s.dev 0 ∧ acqState s.dev 0 ≤ 3 ∧ recOf s.dev (curRec s.dev 0) = some (rec0 false) ∧
      (∀ x ∈ s.dev.acq.recs, x.num = curRec s.dev 0 → x.complete = false) ∧ Settled s) ∧
     (let s := dv (fun d => { d with time := { d.time with local_ := 10 ^ 30 } }) (acs 2 id [(acqObj 0 0, 0x0B, 1)])
      acqState s.dev 0 = 2 ∧ acqCfg s.dev 0 0x0B ≠ 0 ∧ (aset s.dev 0).armAt + acqCfg s.dev 0 0x0B * 1000000 * unitNs ≤ s.dev.time.local_ ∧ Settled s) ∧
     acqCfg (acs 0 id [(acqObj 0 0, 0x0B, 0)]).dev 0 0x0B = 0 ∧
     (aset (acs 4 id []).dev 0).rearmAt ≤ (acs 4 id []).dev.time.kc + 1 ∧ acqState (acs 0 id []).dev 0 ≠ 4) := by
  unfold Settled; decide +kernel

theorem witness_SetsRunAndRecordsAreUploaded_upload :
    (let s := acs 0 (fun a => { a with upload := some ⟨7, 0, 3, 7⟩, recs := [rec0 true] }) []
     s.dev.acq.upload = some ⟨7, 0, 3, 7⟩ ∧ recOf s.dev 7 = some (rec0 true) ∧ (rec0 true).set = 0 ∧ 3 ≤ (rec0 true).bytes.length ∧
     findSession s.dev 7 = some se ∧ og s.dev 0x3600 6 < 0xFFFFFFFE) ∧
    (let s := acs 0 (fun a => { a with recs := [rec0 true] }) [(0x3681, 1, 7), (0x3681, 2, 0), (0x3681, 3, 0)]
     s.dev.acq.upload = none ∧ recOf s.dev (og s.dev 0x3681 1) = some (rec0 true) ∧ og s.dev 0x3681 3 = 0 ∧ og s.dev 0x3681 2 < (rec0 true).bytes.length ∧
     (rec0 true).bytes.length < og s.dev 0x3681 2 + 4) ∧
    recOf (acs 0 id []).dev (og (acs 0 id []).dev 0x3681 1) = none ∧ (acs 0 id []).dev.acq.upload = none ∧ (acs 0 id []).dev.acq.streams = [] ∧
    (let s := dv (fun d => setAset d 0 { aset d 0 with owner := 7 }) (acs 0 (fun a => { a with streams := [(0, 7, 0, [1], true)] }) [])
     s.dev.acq.streams = (0, 7, 0, [1], true) :: [] ∧ findSession s.dev (aset s.dev 0).owner = some se) := by
  decide +kernel

/-- The pair in a state with a role and lanes, with claim 1 and ring 0 paired. -/
def pr (st role lanes : Nat) (f : PairSt → PairSt) (l : List (Nat × Nat × Nat)) : State :=
  dv (fun d => { d with pair := f d.pair }) (put ([(0x3C01, 1, st), (0x3C01, 2, role), (0x3C01, 9, lanes), (0x3C00, 2, 1), (0x3C00, 4, 0x101)] ++ l) (up 2))

theorem witness_PairsLinkAndAgree_link :
    Settled (pr 0 0 0 id []) ∧ writeStatus (pr 0 0 0 id []).dev 0x3C00 1 1 = .ok ∧ writeStatus State.reset.dev 0x3C00 1 1 ≠ .ok ∧
    pairState (pr 0 0 0 id []).dev = 0 ∧ writeStatus (pr 1 0 0 id []).dev 0x3C00 1 0 = .ok ∧ pairState (pr 1 0 0 id []).dev ≠ 0 ∧
    ready (pr 1 0 0 id []).dev 31 = true ∧ (1#4) ≠ 15 ∧ (1#4) ≠ 3 ∧ (1#4) ≠ 12 ∧
    bit (og (pr 1 0 0 id []).dev 0x3C01 9) 0 = false ∧ og (pr 1 0 15 id []).dev 0x3C01 9 = 15 ∧
    (∀ st ∈ [0, 1, 2, 3, 7], let s := pr st 0 3 id []
      bit (og s.dev 0x3C01 9) 1 = true ∧ og s.dev 0x3C01 9 ≠ 15 ∧ pairState s.dev = st) ∧
    (let s := dv (fun d => { d with time := { d.time with local_ := 10 ^ 30 } }) (pr 1 0 0 (fun p => { p with heardHead := false, linkAt := 0 }) [])
     pairState s.dev = 1 ∧ og s.dev 0x3C01 9 = 0 ∧ s.dev.pair.heardHead = false ∧ s.dev.pair.linkAt + 1000000000 * unitNs ≤ s.dev.time.local_ ∧ Settled s) ∧
    (let s := pr 7 1 15 (fun p => { p with delayT := some 5, last := some ⟨1, 2, 3, 4, 5⟩, beaconIn := false }) []
     s.dev.pair.delayT = some 5 ∧ s.dev.pair.last = some ⟨1, 2, 3, 4, 5⟩ ∧ s.dev.pair.beaconIn = false ∧ og s.dev 0x3C02 9 < 0xFFFFFFFE ∧ Settled s) ∧
    (pr 7 1 15 (fun p => { p with delayT := none }) []).dev.pair.delayT = none ∧
    (2#8).toNat ≠ og (pr 7 1 15 id []).dev 0x3C00 2 ∧ (99#16).toNat ≠ og (dv (fun d => { d with objs := tinsert (okey 0x3C00 3) 7 d.objs }) (pr 7 1 15 id [])).dev 0x3C00 3 ∧ (1#8).toNat = og (pr 7 1 15 id []).dev 0x3C00 2 ∧
    ready State.reset.dev 31 = false ∧ mode (pr 1 0 0 id []).dev = 2 ∧ mode (put [(0x1020, 1, 3)] (pr 1 0 0 id [])).dev ≠ 2 ∧
    adopts 0x3900 1 = true ∧ isMould (okey 0x3900 1) = false ∧ ((findRow 0x3900 1).map (fun r => r.ty.isBlob)) = some false ∧ adopts 0x1009 1 = false := by
  unfold Settled; decide +kernel

/-- A forwarded chill of cycle 9. -/
def chl : FwdItem := .chill 9

theorem witness_PairsLinkAndAgree_inputs :
    pairRole (pr 7 1 15 id []).dev ≠ 2 ∧ pairRole (pr 7 2 15 id []).dev ≠ 1 ∧ pairRole (pr 7 2 15 id []).dev = 2 ∧ pairRole (pr 7 1 15 id []).dev = 1 ∧
    (let s := atK 5 4 (he 0 1 (fun h => { h with rx := some [0, 0] }) (moulded 0 (pr 7 2 15 id [])))
     pairedSeg s.dev 0 = true ∧ (hd s.dev 0 1).rx.map crc32c = some (crc32c [0, 0]) ∧ (hd s.dev 0 2).rx.map crc32c ≠ some (7#32).toNat ∧
     s.dev.pair.requested.contains (blockKey 0 2) = false ∧ og s.dev 0x3C02 6 < 0xFFFFFFFE ∧ (5#32).toNat = s.dev.time.k % 2 ^ 32 ∧
     s.dev.time.kc ≠ s.dev.time.k ∧ ([0, 0] : Bytes).length = 2 + nodeWinBytes (mould s.dev 0) 1 ∧ (6#32).toNat ≠ s.dev.time.k % 2 ^ 32) ∧
    (let s := he 0 1 (fun h => { h with rx := some [0, 0] }) (pr 7 1 15 id [])
     (1#8) ≠ 0 ∧ (hd s.dev 0 1).rx = some [0, 0] ∧ (hd s.dev 0 2).rx = none) ∧ pairState (pr 0 0 0 id []).dev = 0 ∧
    (let s := dv (fun d => obs d 0x3308 0 ([2, 8, 0, 1, 1, 0, 16, 0] ++ List.replicate 32 0 ++ [1] ++ List.replicate 23 0)) (pr 7 2 15 id [(0x3200, 2, 3)])
     pairState s.dev ≠ 0 ∧ pairedSeg s.dev 8 = true ∧ sending s.dev 8 = true ∧ linePresent (mould s.dev 8) 0 = true ∧
     (0#8).toNat % 8 = segCycle s.dev 8 % 8 ∧ bits (0#8).toNat 5 2 = 0 ∧ (0#16).toInt.natAbs ≤ 320 ∧ (hd s.dev 8 0).slot = none ∧
     (hd (he 8 0 (fun h => { h with slot := some [1] }) s).dev 8 0).slot ≠ none) ∧
    pairState (pr 7 1 15 id []).dev ≠ 0 ∧ og (pr 7 1 15 id []).dev 0x3C01 9 ≠ 0 ∧
    (let s := atK 9 8 (pr 7 1 15 (fun p => { p with items := [(9, chl)] }) [])
     s.dev.pair.items = [(9, chl)] ∧ 9 ≤ s.dev.time.k ∧ chl = .chill 9 ∧ Settled s) ∧ (pr 7 1 15 id []).dev.time.k < 9 ∧
    (let s := pr 5 2 15 (fun p => { p with mine := [(5, 6, 7)], theirs := [] }) []
     5 = s.dev.time.k / 2 ^ 32 * 2 ^ 32 + (5#32).toNat ∧ s.dev.pair.theirs = [] ∧ s.dev.pair.mine = [(5, (6#64).toNat, (7#64).toNat)] ∧ pairState s.dev = 5) ∧
    (let s := pr 7 2 15 (fun p => { p with mine := [(5, 6, 7)], theirs := [] }) [(0x3C01, 3, 1), (0x3C01, 5, 2)]
     s.dev.pair.mine = [(5, 6, 7)] ∧ 6 ≠ (8#64).toNat ∧ pairState s.dev = 7 ∧ og s.dev 0x3C01 3 < og s.dev 0x3C01 5 ∧ og s.dev 0x3C02 1 < 0xFFFFFFFE) ∧
    (pr 7 2 15 id []).dev.pair.mine = [] := by
  unfold Settled; decide +kernel

theorem witness_PairsTransferStateAndTakeOver :
    Settled (pr 0 0 0 id []) ∧ pairState (pr 0 0 0 id []).dev ≠ 4 ∧ pairRole (pr 0 0 0 id []).dev ≠ 1 ∧ pairState (pr 4 2 15 id []).dev = 4 ∧
    (pr 4 2 15 id []).dev.time.k < (pr 4 2 15 id []).dev.pair.startedAt + 31250 ∧
    (let s := atK 99999 0 (pr 4 2 15 id []); s.dev.pair.startedAt + 31250 ≤ s.dev.time.k ∧ og s.dev 0x3C02 5 < 0xFFFFFFFE) ∧
    og (pr 5 2 15 id []).dev 0x3C01 7 < 1024 ∧
    (let s := pr 5 2 15 id [(0x3C01, 7, 1024)]; pairState s.dev = 5 ∧ 1024 ≤ og s.dev 0x3C01 7 ∧ og s.dev 0x3C01 9 ≠ 0) ∧
    (∀ st ∈ [2, 6, 7], let s := pr st 2 15 (fun p => { p with announced := some (1, 256 + 3) }) [(0x3C01, 6, 7)]
      pairState s.dev = st ∧ og s.dev 0x3C01 9 ≠ 0 ∧ ready s.dev 31 = true ∧ og s.dev 0x3C01 6 = 7 ∧ s.dev.pair.announced = some (1, 256 + 3) ∧
      1 ≤ s.dev.time.k + 1 ∧ og s.dev 0x3C02 3 < 0xFFFFFFFE) ∧
    (pr 2 0 0 id []).dev.pair.announced = none ∧ (pr 2 0 0 (fun p => { p with announced := some (9, 1) }) []).dev.time.k + 1 < 9 ∧
    pairedSeg (up 2).dev 0 = false ∧ og (pr 0 0 0 id [(0x3C01, 6, 3)]).dev 0x3C01 6 ≠ 7 ∧
    (let s := pr 7 2 15 id [(0x3000, 2, 3), (0x3C01, 4, 2), (0x3C01, 3, 1), (0x3C01, 5, 2)]
     pairedSeg s.dev 0 = true ∧ sending s.dev 0 = true ∧ og s.dev 0x3C00 2 ≤ og s.dev 0x3C01 4 ∧ (1#8).toNat ≤ og s.dev 0x3C01 3 ∧ og s.dev 0x3C01 3 ≠ 0 ∧
     og s.dev 0x3C01 3 < (2#8).toNat ∧ og s.dev 0x3C01 5 = (2#8).toNat ∧ pairRole s.dev = 2) := by
  unfold Settled; decide +kernel

/-- A safety block with one node input and one guard of sources SI0 and SI1, unlocked by the host, at domain 1. -/
def sblock : Bytes :=
  ([1, 1, 0, 0] ++ leBytes 4 1 ++ leBytes 2 250 ++ leBytes 2 20 ++ leBytes 2 1 ++ leBytes 2 100 ++ [0, 1] ++ List.replicate 14 0) ++
  (List.range 16).flatMap (fun _ => leBytes 2 100 ++ [1, 1]) ++ List.replicate 4 0 ++
  ([2, 0, 0, 0] ++ leBytes 2 0 ++ leBytes 2 1 ++ leBytes 2 2 ++ leBytes 2 0xFFFF ++ leBytes 2 0xFFFF ++ leBytes 2 0xFFFE ++ leBytes 2 10 ++ List.replicate 6 0)
/-- The island with that block in a state. -/
def isb (st : Nat) (f : IslandSt → IslandSt) (s : State) : State := { s with isl := f { s.isl with state := st, block := sblock } }
/-- A PDU of the safety node at line 0, node 0, sequence 5, at domain 1. -/
def npdu : Bytes := (fun b => b ++ leBytes 4 (crcSafety 1 b)) (leBytes 2 0x4000 ++ leBytes 2 5 ++ [1] ++ List.replicate 7 0)

theorem witness_IslandStartsFailsAndEvaluates_start :
    (isb 0 id (up 2)).isl.state = 0 ∧ (isb 5 id (up 2)).isl.state = 5 ∧ (isb 4 (fun i => { i with mism := 1 }) (up 2)).isl.mism = 1 ∧
    (isb 4 id (up 2)).isl.state ≠ 0 ∧ (isb 4 id (up 2)).isl.state ≠ 5 ∧ (isb 4 id (up 2)).isl.state ≠ 1 ∧ (isb 1 id (up 2)).isl.state = 1 ∧
    (newestSafety (up 2).dev.key).block = [] ∧
    (newestSafety (dv (fun d => { d with key := { d.key with present := true, safety0 := ⟨true, 1, crc32c [1], crc32c [1], [1]⟩ } }) (up 2)).dev.key).block ≠ [] ∧
    ready State.reset.dev 5 = false ∧ ready (up 2).dev 5 = true ∧
    (let s := isb 4 (fun i => { i with so := 1 }) (up 2); bit s.isl.so (2 * 0 + b2n false) = true ∧ bit s.isl.soFault 0 = false ∧ icount s.isl 4 < 0xFFFFFFFF) ∧
    bit (isb 4 (fun i => { i with so := 0 }) (up 2)).isl.so (2 * 0 + b2n false) = false := by
  decide +kernel

theorem witness_IslandStartsFailsAndEvaluates_run :
    (let s := isb 4 (fun i => { i with si := 1 }) (up 2)
     bit s.isl.si 0 = true ∧ Settled s ∧ s.isl.state ≠ 0 ∧ bit s.isl.si 0 ≠ false ∧ ready s.dev 2 = true ∧ sealed s.dev = false ∧ commitWindow s.dev = false ∧
     s.dev.fc.waiting < 1024 ∧ 0 < blkFns s.isl.block ∧ (discrepant s.isl 0).1 = true ∧ (inst s.isl 0).state ≠ 3 ∧ (inst s.isl 0).timer = none ∧
     rd (blkFn s.isl.block 0) 0 1 = 2 ∧ (inst s.isl 0).permit = false) ∧
    testFault (isb 4 (fun i => { i with siFault := 1 }) (up 2)).isl 0 = true ∧
    (let s := isb 4 (fun i => setInst { i with unlocks := 1 } 0 { InstSt.reset with timer := some 5, permit := true }) (up 2)
     (inst s.isl 0).timer.isSome = true ∧ (inst s.isl 0).permit = true ∧ unlockReq s.isl 0 = true) ∧ (isb 3 id (up 2)).isl.state ≠ 4 ∧
    (let s := isb 4 id line0
     0 < blkIns s.isl.block ∧ (∀ m, m < blkIns s.isl.block → (rd (blkIn s.isl.block m) 0 1 = 0 ∧ rd (blkIn s.isl.block m) 1 2 = 0 ↔ m = 0)) ∧
     sending s.dev 8 = true ∧ linePresent (mould s.dev 8) 0 = true ∧ (seg s.dev 8).swap = none ∧
     (800#32).toInt.natAbs ≤ 800 ∧ pduGood (blkDomain s.isl.block) npdu = true ∧ rd npdu 0 2 = 0x4000 ∧ rd npdu 2 2 = 5 ∧
     (tget (fun _ => SafeIn.reset) s.isl.nodeIn 0).seq ≠ some 5) ∧
    (tget (fun _ => SafeIn.reset) (isb 4 (fun i => { i with nodeIn := [(0, ⟨some 5, some 0, 1⟩)] }) line0).isl.nodeIn 0).seq = some 5 ∧
    ready State.reset.dev 31 = false ∧ ready (isb 4 id (up 2)).dev 31 = true ∧ pduGood (blkDomain (isb 4 id (up 2)).isl.block) [] = false ∧
    (tget (fun _ => SafeIn.reset) (isb 4 id (up 2)).isl.partner (rd npdu 0 2)).seq ≠ some (rd npdu 2 2) := by
  unfold Settled; decide +kernel

/-- A record of a safety block. -/
def srec (n : Nat) : SafetyRec := { valid := true, seq := n, check := 1, conf := 1, block := [] }

theorem witness_IslandIsCommissionedByItsObjects :
    commissionStatus (isb 4 id (up 2)) ≠ .ok ∧ ready (isb 3 id (up 2)).dev 5 = true ∧ (isb 3 id (up 2)).isl.state = 3 ∧
    blockOk (up 2).dev [] = false ∧ blockOk (up 2).dev sblock = true ∧ sblock.length ≤ 16384 ∧ 16384 < 16385 ∧
    (let s := isb 3 (fun i => { i with conf := 1, check := 1, storing := none }) (up 2)
     (1#32).toNat = s.isl.check ∧ (2#32).toNat ≠ s.isl.check ∧ s.isl.conf = s.isl.check ∧ bit (og s.dev 0x2000 1) 0 = false ∧ s.isl.storing = none) ∧
    (isb 3 (fun i => { i with conf := 1, check := 2 }) (up 2)).isl.conf ≠ (isb 3 (fun i => { i with conf := 1, check := 2 }) (up 2)).isl.check ∧
    (let s := isb 3 (fun i => { i with storing := some (srec 3) }) (up 2)
     s.isl.storing = some (srec 3) ∧ s.dev.key.present = false) ∧
    (∀ v ∈ [(false, false), (true, false), (true, true), (false, true)],
      let s := dv (fun d => { d with key := { d.key with present := true, readable := true, safety0 := { srec 1 with valid := v.1 }, safety1 := { srec 2 with valid := v.2 } } }) (up 2)
      s.dev.key.present = true ∧ s.dev.key.readable = true ∧ s.dev.key.safety0.valid = v.1 ∧ s.dev.key.safety1.valid = v.2 ∧
      s.dev.key.safety0.seq < s.dev.key.safety1.seq ∧ bit (og s.dev 0x2000 1) 0 = false) := by
  decide +kernel

/-- A request of port 2 at address 8, and one with a bad parity. -/
def mq (w : Bool) (size : Fin 4) : MemReq := ⟨2, w, 8, size, 0x1122, 0, false, false⟩

theorem witness_MemoryServesAndIsTested :
    (Settled State.reset ∧ ready State.reset.dev 3 = false ∧ ready (up 2).dev 3 = true ∧ ({ mq true 3 with parity := true }).parity = true ∧
     og (up 2).dev (0x3E30 + 2) 4 < 0xFFFFFFFE ∧ (mq true 3).upset.val = 0 ∧ (mq true 3).addr.toNat % 8 + 2 ^ (mq true 3).size.val ≤ 8 ∧
     (mq true 3).addr.toNat / 8 = 1 ∧ 2 ^ (mq true 3).size.val = 8 ∧ 2 ^ (mq true 2).size.val < 8 ∧ 1 ∉ (up 2).mem.single ∧ 1 ∉ (up 2).mem.bad ∧
     1 ∈ ({ (up 2) with mem := { (up 2).mem with single := [1] } }).mem.single ∧ 1 ∈ ({ (up 2) with mem := { (up 2).mem with bad := [1] } }).mem.bad ∧
     og (up 2).dev (0x3E10 + 1 % 16) 1 < 0xFFFFFFFE ∧ og (up 2).dev (0x3E10 + 1 % 16) 3 < 0xFFFFFFFE ∧
     ({ mq true 3 with port := 5, data := 9 } : MemReq) = { mq true 3 with port := 5, data := 9 } ∧ (mq true 3).port.val < 5 ∧
     og (up 2).dev (0x3E30 + 5) 1 < 0xFFFFFFFE) ∧
    ((up 2).dev.memt.scrubs = [] ∧
     (let s := dv (fun d => { d with memt := { d.memt with scrubs := [1], corr := 17 } }) (up 2)
      s.dev.memt.scrubs = 1 :: [] ∧ og s.dev (0x3E10 + 1 % 16) 2 < 0xFFFFFFFE ∧ 16 < s.dev.memt.corr ∧ Calm s.dev 44 ∧ Settled s) ∧ (up 2).dev.memt.corr ≤ 16 ∧
     (let s := put [(0x3E00, 1, 1)] (up 2)
      og s.dev 0x3E00 1 ≠ 0 ∧ s.dev.memt.testing = false ∧ (∀ i, i < 16 → og s.dev (0x3E10 + i) 1 < 0xFFFFF000) ∧ bit (og s.dev 0x3E00 4) 3 = false ∧
      bit (8#16).toNat 3 = true ∧ bit (8#16).toNat 2 = false ∧ s.mem.single = []) ∧
     (let s := dv (fun d => { d with memt := { d.memt with testing := true } }) (up 2); s.dev.memt.testing = true ∧ og s.dev 0x3E00 3 < 0xFFFFFFFE) ∧
     ready (up 2).dev 0 = true ∧ ready (up 2).dev 1 = true ∧ ready State.reset.dev 0 = false ∧ mode (up 2).dev ≠ 5 ∧ mode (up 5).dev = 5 ∧
     og (up 5).dev 0x3E50 2 ≠ 1 ∧ og (put [(0x3E50, 2, 1)] (up 5)).dev 0x3E50 2 = 1) := by
  unfold Settled Calm; decide +kernel

/-- Every opening request of the session x that `req` builds is not authenticated once its tag is replaced. -/
theorem witness_ReadsOfRoObjectsNeedNoSession :
    Settled (up 2) ∧ linkUp (up 2).dev 0 = true ∧ (∃ r, findRow 0x1001 0 = some r ∧ r.acc = .ro ∧ isLive r 0x1001 0 = false) ∧
    (∃ r, findRow 0x3240 2 = some r ∧ r.acc = .ro ∧ isLive r 0x3240 2 = true ∧ ready (up 2).dev (ownerBit (up 2).dev 0x3240) = true ∧
      ready (put [(0x1010, 0, 0x40000001)] (up 2)).dev (ownerBit (put [(0x1010, 0, 0x40000001)] (up 2)).dev 0x3240) = false ∧
      linkUp (put [(0x1010, 0, 0x40000001)] (up 2)).dev 0 = true) ∧
    (∃ r, findRow 0x3900 1 = some r ∧ r.acc ≠ .ro) ∧ (0#32) = 0 ∧
    ∀ typ body, Unauthenticated (up 2) bare typ body := by
  refine ⟨by unfold Settled; decide +kernel, by decide +kernel, ⟨_, rfl, by decide +kernel⟩, ⟨_, rfl, by decide +kernel⟩, ⟨_, rfl, by decide +kernel⟩, rfl, ?_⟩
  intro typ body x h
  exact absurd h (by simp [findSession, up, put, dv, os, State.reset, Dev.reset, HostSt.reset])

theorem witness_SessionsEndWithAllTheyHold :
    (∀ c ∈ [true, false], Accepted (inn [{ se with comm := c }] (up 3)) 0 (req 0x14 [] { se with comm := c }) 0x14 [] { se with comm := c } ∧
      findSession (inn [{ se with comm := c }] (up 3)).dev (7#32).toNat = some { se with comm := c }) ∧ se.isOpen = true ∧
    (let s := up 3
     Settled s ∧ ready s.dev 2 = true ∧ 1 ≤ mode s.dev ∧ reservedSource 2 = false ∧ live s.dev 2 = false ∧
     bit (og s.dev (0x3900 + 2) 1) 1 = false ∧ bit (og s.dev (0x3900 + 2) 1) 2 = false ∧ bit (og s.dev (0x3900 + 2) 1) 3 = true) :=
  ⟨fun c _ => ⟨accepted_req _ _ _ _ _ (by cases c <;> decide +kernel), by cases c <;> decide +kernel⟩, rfl, by unfold Settled; decide +kernel⟩

theorem witness_PulseInputsTerminateDifferentialPairs :
    (∀ p ∈ [0, 1], let d := (put [(0x3D00, 1, 1), (0x3D00, 2, 0), (0x3C00, 1, p)] (up 2)).dev
      d.power.powered = true ∧ paramsDone d = true ∧ og d 0x3D00 1 = 1 ∧ og d 0x3D00 2 = 0 ∧ og d 0x3C00 1 = p) ∧
    (let d := (put [(0x3D00, 1, 0), (0x3D00, 2, 2)] (up 2)).dev; og d 0x3D00 2 ≠ 0 ∧ og d 0x3D00 1 = 0) := by
  decide +kernel

/-! Further witnesses: the clauses the states above leave, and the boundary values of the clauses. -/

theorem witness_SegmentRequestsAndMoulds_requests :
    (let s := put [(0x3000, 2, 3)] (axk 1 3 1 [])
     Settled s ∧ paired s.dev = false ∧ ready s.dev 1 = true ∧ (0#8).toNat ≤ 2 ∧ segState s.dev 0 = 3 ∧ mode s.dev ≠ 4 ∧ segAxes s.dev 0 = [3] ∧
     (∀ n ∈ segAxes s.dev 0, axState s.dev n ≠ 2 ∧ axState s.dev n ≠ 3 ∧ axState s.dev n ≠ 5)) ∧
    (let s := put [(0x3000, 2, 3)] (axk 1 4 2 []); Settled s ∧ paired s.dev = false ∧ ready s.dev 1 = true ∧ (2#8).toNat = 2 ∧ mode s.dev = 4) ∧
    (∀ st ∈ [0, 4], let s := put [(0x3000, 2, st)] (up 3)
     Settled s ∧ paired s.dev = false ∧ ready s.dev 1 = true ∧ mode s.dev ≠ 5 ∧ segState s.dev 0 = st ∧ (seg s.dev 0).swap = none) ∧
    ((∀ st ∈ [1, 2, 3], segState (put [(0x3000, 2, st)] (up 3)).dev 0 = st) ∧ (let s := up 4; Settled s ∧ ready s.dev 1 = true ∧ mode s.dev ≠ 2)) := by
  unfold Settled; refine ⟨?_, ?_, ?_, ?_⟩ <;> decide +kernel

theorem witness_SegmentsStartAndIntegrate_rings :
    (∀ h ∈ [true, false], let s := atK 9999 9998 (sg 0 (fun x => { x with cold := .listening, heard := h, start := 9999 - 4 * slotCycles 0 }) (ring0 1))
      Settled s ∧ segState s.dev 0 = 1 ∧ (seg s.dev 0).cold = .listening ∧ (seg s.dev 0).start + 4 * slotCycles 0 ≤ s.dev.time.k ∧ (seg s.dev 0).heard = h) ∧
    (∀ h ∈ [true, false], let s := atK 9999 9998 (sg 0 (fun x => { x with cold := .sending, heard := h, start := 9999 - slotCycles 0 }) (ring0 1))
      Settled s ∧ segState s.dev 0 = 1 ∧ (seg s.dev 0).cold = .sending ∧ (seg s.dev 0).start + slotCycles 0 ≤ s.dev.time.k ∧ (seg s.dev 0).heard = h ∧
      (seg s.dev 0).sent = 0 ∧ og s.dev (sgb 0) 9 < 0xFFFFFFFE) ∧
    (let s := atK 9999 9998 (sg 0 (fun x => { x with cold := .sending, sent := 1, start := 0 }) (ring0 1))
     Settled s ∧ segState s.dev 0 = 1 ∧ (seg s.dev 0).heard = false ∧ (seg s.dev 0).sent ≠ 0 ∧ (seg s.dev 0).start + slotCycles 0 ≤ s.dev.time.k) ∧
    (∀ k ∈ [9984, 9999], let s := atK k 9 (moulded 8 (sg 8 (fun x => { x with cold := .sending, sent := 1, start := 0 }) (line8 1)))
      Settled s ∧ segState s.dev 8 = 1 ∧ (seg s.dev 8).start + slotCycles 8 ≤ s.dev.time.k ∧ (seg s.dev 8).heard = false ∧ (seg s.dev 8).sent ≠ 0 ∧
      (s.dev.time.k % mouldNb (mould s.dev 8) = 0 ↔ k = 9984)) ∧
    (let s := atK (254 * slotCycles 8) 9 (sg 8 (fun x => { x with cold := .backoff, start := 0 }) (line8 1))
     Settled s ∧ segState s.dev 8 = 1 ∧ (seg s.dev 8).cold = .backoff ∧ (seg s.dev 8).start + (255 - og s.dev 0x3C00 2) * slotCycles 8 ≤ s.dev.time.k) := by
  unfold Settled; refine ⟨?_, ?_, ?_, ?_, ?_⟩ <;> decide +kernel

theorem witness_SegmentsStartAndIntegrate_heads :
    ((∀ b ∈ [0, 0xFFFFFFFF], let s := put [(0x1010, 0, b)] (line8 1)
      Settled s ∧ ready s.dev (18 + 8) = decide (b ≠ 0) ∧ ∀ i ∈ [1, 2], og s.dev (sgb 8 + 9) i < 0xFFFFFFFE) ∧
    1 ≤ (1#8).toNat ∧ (254#8).toNat ≤ 254 ∧ (255#8).toNat = 255 ∧ (0#8).toNat = 0) ∧
    (∀ k ∈ [9984, 9999], ∀ g ∈ [0, 8], ∀ c ∈ [ColdPhase.backoff, .listening, .sending],
      let s := atK k 9 (moulded 8 (moulded 0 (put [(0x3000, 2, 1), (0x3200, 2, 1), (0x3C00, 2, 1)] (sg 0 (fun x => { x with cold := c }) (sg 8 (fun x => { x with cold := c }) (up 3))))))
      Settled s ∧ segState s.dev g = 1 ∧ (seg s.dev g).cold = c ∧ (1#16).toNat ≠ mouldTag (mould s.dev g) ∧ (50723#16).toNat = mouldTag (mould s.dev g) ∧
      pairedSeg s.dev g = false ∧ mouldPaired (mould s.dev g) = false) ∧
    (∀ e ∈ [0, 1], let s := put [(0x3230, 1, e)] (dv (fun d => obs d 0x3308 0 ([2, 8, 2, 1] ++ List.replicate 60 0)) (line8 3))
      mouldPaired (mould s.dev 8) = true ∧ ready s.dev (18 + 8) = true ∧ og s.dev (sgb 8 + 0x30) 1 = e ∧ (1#16).toNat ≠ mouldN 8 (mould s.dev 8) ∧
      (0#16).toNat = mouldN 8 (mould s.dev 8)) ∧
    (∀ dr ∈ [true, false], let s := dv (fun d => { d with pair := { d.pair with driving := dr } }) (put [(0x3C00, 4, 0x101)] (line8 3))
      Settled s ∧ pairedSeg s.dev 0 = true ∧ segState s.dev 0 ≠ 1 ∧ segState s.dev 8 ≠ 1 ∧ pairedSeg s.dev 8 = true ∧ s.dev.pair.driving = dr) ∧
    (let s := line8 3; Settled s ∧ segState s.dev 8 ≠ 1 ∧ pairedSeg s.dev 8 = false) ∧
    (∀ g ∈ [0, 8], let s := atK 9984 9 (sg g (fun x => { x with rolled := true }) (he g 1 (fun h => { h with state := 3 }) (moulded 8 (put [(sgb g, 2, 2), (sgb g, 3, 1)] (up 3)))))
      segState s.dev g = 2 ∧ og s.dev (sgb g) 3 = 1 ∧ (seg s.dev g).rolled = true ∧ (∀ p ∈ headsOf s.dev g, p.2.state ≠ 1 ∧ p.2.state ≠ 2) ∧
      s.dev.time.k % mouldNb (mould s.dev 8) = 0) := by
  unfold Settled; refine ⟨?_, ?_, ?_, ?_, ?_, ?_⟩ <;> decide +kernel

/-- The state of line 0 with a paired mould. -/
def pairedLine : State := dv (fun d => obs d 0x3308 0 ([2, 8, 2, 1] ++ List.replicate 60 0)) (line8 3)
/-- Ring 0 with a tight mould. -/
def tightRing : State := dv (fun d => obs d 0x3300 0 (ringMould.take 2 ++ [1] ++ ringMould.drop 3)) (ring0 3)
/-- The state with the cycle of the last tight control instant. -/
def atT (kt : Nat) (s : State) : State := dv (fun d => { d with time := { d.time with kt := kt } }) s
/-- Ring 0 or its tight form in cycle k, with what its node 1 delivered. -/
def rxd (tight : Bool) (k kc kt : Nat) (rx : Option Bytes) : State :=
  atT kt (atK k kc (sg 0 (fun x => { x with lastClaim := 1 }) (he 0 1 (fun h => { h with state := 3, rx := rx }) (if tight then tightRing else ring0 3))))

theorem witness_NodesAreCalledIntegratedAndLost_line :
    (let s := atK 256 255 (he 8 0 (fun h => { h with state := 0 }) line0)
     paired s.dev = false ∧ pairedSeg s.dev 8 = false ∧ sending s.dev 8 = true ∧ og s.dev 0x3C00 2 ≠ 0 ∧ rollDue s.dev 8 = true ∧
     0 ∈ mouldNodes 8 (mould s.dev 8) ∧ (hd s.dev 8 0).state = 0 ∧ (hd s.dev 8 0).addressed = false ∧ (seg s.dev 8).exchanges = []) ∧
    (let e : Exchange := ⟨0, 1, 5, [1], 1, 0⟩
     let s := he 8 0 (fun h => { h with addressed := true, step := 1, state := 1 }) (sg 8 (fun x => { x with exchanges := [e] }) line0)
     (seg s.dev 8).exchanges = [e] ∧ e.node = 0 ∧ e.used ≠ 0 ∧ e.seq = (5#8).toNat ∧ e.cls = 1 ∧ (hd s.dev 8 0).addressed = true ∧ (hd s.dev 8 0).step = 1 ∧
     identityOk (mould s.dev 8) 8 0 ([1, 0] ++ List.replicate 8 0) = true ∧ identityOk (mould s.dev 8) 8 0 ([1, 0] ++ List.replicate 8 1) = false) ∧
    (∀ m ∈ [7, 8], let s := he 8 0 (fun h => { h with state := 3, missing := m }) line0; (hd s.dev 8 0).state = 3 ∧ (hd s.dev 8 0).missing = m) ∧
    (sending (line8 0).dev 8 = false ∧ Settled (line8 0)) := by
  unfold Settled; refine ⟨?_, ?_, ?_, ?_⟩ <;> decide +kernel

theorem witness_MailboxesAreExchangedAndChilled_host :
    (∀ v ∈ [0#8, 1, 5, 6, 0x80, 0xFF], rd [v] 0 1 = 0 ∨ rd [v] 0 1 = 1 ∨ rd [v] 0 1 = 5 ∨ rd [v] 0 1 = 6 ∨ 0x80 ≤ rd [v] 0 1) ∧
    (∀ v ∈ [2#8, 4, 7, 0x7F], 2 ≤ rd [v] 0 1 ∧ rd [v] 0 1 < 0x80 ∧ rd [v] 0 1 ≠ 5 ∧ rd [v] 0 1 ≠ 6) ∧
    (let s := dv (fun d => obs d 0x3300 0 (ringMould.take 6 ++ [16, 0] ++ ringMould.drop 8)) (ring0 3)
     mouldP 0 (mould s.dev 0) = 16 ∧ (List.replicate 16 5#8).length ≤ mouldP 0 (mould s.dev 0) ∧ (List.replicate 17 5#8).length = 17) ∧
    (∀ u ∈ [1, 15, 16], let e : Exchange := ⟨0, 4, 5, [1], u, 0⟩
     let s := sg 8 (fun x => { x with exchanges := [e] }) line0
     Settled s ∧ paired s.dev = false ∧ (seg s.dev (nodeSeg (.line 0 0))).exchanges = [e] ∧ e.node = nodeNum (.line 0 0) ∧ e.cls = 4 ∧ e.used ≠ 0 ∧
     og s.dev (sgb 8 + 0x0A) 5 < 0xFFFFFFFE) ∧
    ((seg (ring0 3).dev (nodeSeg (.ring 0 0))).exchanges = []) ∧
    (let s := atK 99 98 (moulded 8 (line8 3))
     Settled s ∧ ready s.dev 4 = true ∧ og s.dev 0x3510 2 ≠ 1 ∧ og s.dev 0x3510 2 ≠ 2 ∧ paired s.dev = false ∧ chillGrid s.dev = 16 ∧ chillLead s.dev = 0 ∧
     s.dev.time.kc + 1 + chillLead s.dev ≤ (112#64).toNat ∧ (112#64).toNat % chillGrid s.dev = 0 ∧ (113#64).toNat % chillGrid s.dev ≠ 0 ∧
     (96#64).toNat < s.dev.time.kc + 1 + chillLead s.dev) ∧
    (og (up 3).dev 0x3510 2 ≠ 1 ∧ og (up 3).dev 0x3510 2 ≠ 2) := by
  unfold Settled; refine ⟨?_, ?_, ?_, ?_, ?_, ?_, ?_⟩ <;> decide +kernel

theorem witness_FramesAreReceivedAndClassified_ring :
    (∀ tight ∈ [false, true], let s := rxd tight 256 255 255 none
     pairedSeg s.dev 0 = false ∧ sending s.dev 0 = true ∧ 0 + 1 ≤ mouldN 0 (mould s.dev 0) ∧ (hd s.dev 0 1).state = 3 ∧ (hd s.dev 0 1).step ≠ 4 ∧
     (∀ i, i < 9 → og s.dev (sgb 0 + 9) i < 0xFFFFFFFE) ∧ (∀ i, i < 5 → og s.dev (sgb 0 + 0x31) i < 0xFFFFFF00) ∧ mouldTight (mould s.dev 0) = tight ∧
     2 + nodeWinBytes (mould s.dev 0) 1 = 2 ∧ (1#8).toNat = (seg s.dev 0).lastClaim ∧ (0#8).toNat = s.dev.time.k % 256 ∧
     s.dev.time.kc ≠ s.dev.time.k ∧ (hd s.dev 0 1).rx = none) ∧
    (∀ tight ∈ [false, true], (rxd tight 256 256 255 none).dev.time.kc = (rxd tight 256 256 255 none).dev.time.k) ∧
    (∀ kt ∈ [255, 256], ∀ rx ∈ [none, some [0, 0], some [0, 1]], let s := rxd true 256 255 kt rx
     mouldTight (mould s.dev 0) = true ∧ s.dev.time.kc ≠ s.dev.time.k ∧ (hd s.dev 0 1).rx = rx ∧
     (bit (1#8).toNat 0 = decide (s.dev.time.kt = s.dev.time.k) ↔ kt = 256) ∧ (bit (0#8).toNat 0 = decide (s.dev.time.kt = s.dev.time.k) ↔ kt = 255)) ∧
    (∀ b ∈ [false, true], (seg (sg 0 (fun x => { x with missNow := b }) (rxd false 256 255 255 none)).dev 0).missNow = b) ∧
    (Settled (rxd false 256 255 255 (some [0, 0])) ∧ rd ([0, 2] : Bytes) 0 2 / 256 ≠ 0 ∧ rd ([0, 2] : Bytes) 0 2 / 256 ≠ (hd (rxd false 256 255 255 none).dev 0 1).flags / 256) := by
  unfold Settled; refine ⟨?_, ?_, ?_, ?_, ?_⟩ <;> decide +kernel

theorem witness_FramesAreReceivedAndClassified_line :
    (∀ own ∈ [0, 3], ∀ e ∈ [0, 1], let s := he 8 0 (fun h => { h with state := 3, own := own }) (put [(0x3230, 1, e)] line0)
     Settled s ∧ pairedSeg s.dev 8 = false ∧ sending s.dev 8 = true ∧ linePresent (mould s.dev 8) 0 = true ∧ (hd s.dev 8 0).state = 3 ∧
     (seg s.dev 8).missNow = false ∧ (∀ i, i < 5 → og s.dev (sgb 8 + 0x32) i < 0xFFFFFF00) ∧ (hd s.dev 8 0).dev1 = none ∧ (hd s.dev 8 0).dev2 = none ∧
     (bit (hd s.dev 8 0).own 0 = false ↔ own = 0) ∧ (bit (hd s.dev 8 0).own 1 = false ↔ own = 0) ∧ receivingPair s.dev 0 = if e = 0 then 2 else 1) ∧
    ((-320 : Int).natAbs ≤ 320 ∧ (BitVec.ofInt 32 (-320)).toInt.natAbs ≤ 320 ∧ 320 < (BitVec.ofInt 32 (-321)).toInt.natAbs ∧
     (BitVec.ofInt 32 (-800)).toInt.natAbs ≤ 800 ∧ 800 < (BitVec.ofInt 32 (-801)).toInt.natAbs) ∧
    ((∀ g ∈ [0, 8], ∀ i ∈ [0, 1], let s := put [(phyStatus g, 1 + i, 1)] (up 3)
     Settled s ∧ ready s.dev (18 + g) = true ∧ og s.dev (phyStatus g) (1 + i) = 1 ∧ og s.dev (phyStatus g + 1) (5 + i) < 0xFFFFFFFE ∧
     og s.dev (phyStatus g + 1) (1 + i) < 0xFFFFFF00 ∧ og (up 3).dev (phyStatus g) (1 + i) ≠ 1) ∧ Settled State.reset ∧ ready State.reset.dev 18 = false) := by
  unfold Settled; refine ⟨?_, ?_, ?_⟩ <;> decide +kernel

theorem witness_NodesTakeTheirPlaceAndTime_more :
    (∀ n ∈ [rn, fn], (1#16).toNat < (2#16).toNat ∧ ¬ (2#16).toNat < (2#16).toNat ∧
      (let s := ndo n (fun x => { x with lock := true, foreign := 8 }) (up 3); (nd s n).lock = true ∧ (if ringNode n then 8 else 4) ≤ (nd s n).foreign) ∧
      (let s := ndo n (fun x => { x with lock := true, foreign := 3, miss := 7 }) (up 3)
       (nd s n).miss < (if ringNode n then 32 else 8) ∧ (nd s n).foreign < (if ringNode n then 8 else 4)) ∧ (nd (up 3) n).lock = false ∧
      (let s := ndo n (fun x => { x with run := 3 }) (up 3); (nd s n).run < (if ringNode n then 8 else 4))) ∧
    (ringNode fn = false ∧ mouldPaired (nodeMould pairedLine fn) = true) ∧
    (∀ h ∈ [false, true], let s := ndo rn (fun x => { x with half := h, best := some (true, [1]), corr := [(1, -5)] }) tightRing
     mouldTight (nodeMould s rn) = true ∧ (nd s rn).half = h ∧ (nd s rn).corr = [(1, -5)]) ∧
    (mouldTight (nodeMould (ring0 3) rn) = false) ∧
    ((5#32).toInt ≥ 0 ∧ (BitVec.ofInt 32 (-5)).toInt < 0 ∧ (List.replicate 32 0#8).length = 32) ∧
    (∀ a ∈ [false, true], ∀ b ∈ [false, true], let s := ndo rn (fun x => { x with syncA := a, syncB := b }) pairedMould
     mouldPaired (nodeMould s rn) = true ∧ (nd s rn).syncA = a ∧ (nd s rn).syncB = b ∧ winCount (nodeMould s rn) 1 ≤ (1 : Win).val ∧
     (0 : Win).val < winCount (nodeMould s rn) 1 ∧ 2 ≤ winKind (nodeMould s rn) 1 (0 : Win).val) := by
  refine ⟨?_, ?_, ?_, ?_, ?_, ?_⟩ <;> decide +kernel

/-- Ring 0 whose node 1 has one window of kind k. -/
def kindMould (k : Byte) : State := dv (fun d => obs d 0x3300 0 ([1, 0, 0, 1] ++ List.replicate 12 0 ++ [1] ++ List.replicate 11 0 ++ [k, 0] ++ List.replicate 6 0)) (up 3)
/-- The state with node 1 of ring 0 Integrated, changed. -/
def rin (f : NodeSt → NodeSt) (s : State) : State := ndo rn (fun x => f { x with integrated := true, lock := true, addrA := some 1, tag := 7, timeCyc := 9 }) s
/-- Line 0 with N nodes of which node 0 has these flags, and its Integrated node 0. -/
def lnN (n flags : Byte) (f : NodeSt → NodeSt) : State := ndo fn (fun x => f { x with integrated := true, lock := true, addrA := some 0, tag := 7, timeCyc := 9 })
  (dv (fun d => obs d 0x3308 0 ([2, 8, 0, 1, n, 0, 16, 0] ++ List.replicate 32 0 ++ [flags] ++ List.replicate 339 0)) line0)

theorem witness_NodesSelectApplyAndSend_copies :
    ((0x11#8) ≠ 0x10 ∧ frameType 0x11 = true ∧ frameType 0x80 = true ∧ frameType 0x10 = true ∧ frameType 0x13 = false ∧ frameType 0 = false ∧ 1 ≤ (1#8).toNat ∧ (254#8).toNat ≤ 254) ∧
    (∀ t ∈ [false, true], ∀ h ∈ [false, true], ∀ up ∈ [none, some [1, 2]],
      let s := rin (fun x => { x with half := h, bestClaim := 3, best := some (true, [1]), up := up }) (if t then tightRing else ring0 3)
      (nd s rn).integrated = true ∧ inPlace s rn = true ∧ (nd s rn).lock = true ∧ mouldTight (nodeMould s rn) = t ∧ (nd s rn).half = h ∧ (nd s rn).up = up ∧
      (7#16).toNat = (nd s rn).tag ∧ (8#16).toNat ≠ (nd s rn).tag ∧ (9#32).toNat = (nd s rn).timeCyc % 2 ^ 32 ∧ (8#32).toNat ≠ (nd s rn).timeCyc % 2 ^ 32 ∧
      (nd s rn).bestClaim < (4#8).toNat ∧ (3#8).toNat ≤ (nd s rn).bestClaim ∧ (0#8).toNat = (0 : Ring).val ∧ (1#8).toNat ≠ (0 : Ring).val ∧
      bit (1#8).toNat 0 = true ∧ bit (0#8).toNat 0 = false) ∧
    (inPlace (ndo rn (fun x => { x with integrated := true, lock := true }) (up 3)) rn = false) := by
  refine ⟨?_, ?_, ?_⟩ <;> decide +kernel

theorem witness_NodesSelectApplyAndSend_apply :
    (∀ k ∈ [0#8, 1, 2, 3], ∀ o ∈ [0, 1, 2], ∀ cp ∈ [none, some (true, []), some (false, [1, 2, 3])],
      let s := rin (fun x => { x with prev := cp, best := cp, tabOk := 15, wins := [(0, { nwin x 0 with owed := o })] }) (kindMould k)
      (nd s rn).integrated = true ∧ (nwin (nd s rn) 0).owed = o ∧ winKind (nodeMould s rn) 1 0 = k.toNat ∧ (0 : Win).val < winCount (nodeMould s rn) 1 ∧
      (nd s rn).best = cp ∧ (nd s rn).prev = cp ∧ (nd s rn).tabOk = 15 ∧ mouldTight (nodeMould s rn) = false) ∧
    ((nd (rin (fun x => { x with half := true }) tightRing) rn).half = true) ∧
    (∀ v ∈ [0#8, 16#8], (bit (rd (slice ([1, 2, v, 0] ++ List.replicate 14 0) 2 16) 0 2) 4 = true ↔ v = 16)) ∧
    ((nd (kindMould 0) rn).integrated = false) := by
  refine ⟨?_, ?_, ?_, ?_⟩ <;> decide +kernel

theorem witness_NodesSelectApplyAndSend_send (e : Bool) :
    let s := lnN 1 1 (fun x => { x with due := some 9, excluded := e })
    inPlace s fn = true ∧ linePresent (nodeMould s fn) 0 = true ∧ (nd s fn).integrated = true ∧ (nd s fn).excluded = e ∧
    lineSafety (nodeMould s fn) 0 = false ∧ (nd s fn).due ≠ none ∧ (nd s fn).pdu = none := by
  cases e <;> decide +kernel

theorem witness_NodesSelectApplyAndSend_safety (e : Bool) :
    let s := lnN 17 3 (fun x => { x with due := some 9, excluded := e })
    inPlace s fn = true ∧ linePresent (nodeMould s fn) 0 = true ∧ (nd s fn).integrated = true ∧ (nd s fn).excluded = e ∧
    lineSafety (nodeMould s fn) 0 = true ∧ (nd s fn).due ≠ none ∧ (nd s fn).pdu = none := by
  cases e <;> decide +kernel

theorem witness_NodesSelectApplyAndSend_riser :
    (let s := lnN 17 1 (fun x => { x with due := none })
     (nd s fn).due = none ∧ riserCycle (nodeMould s fn) 0 (sendCycle (nodeMould s fn) (nd s fn) .a) = false) ∧
    (let s := lnN 1 1 id; riserCycle (nodeMould s fn) 0 (sendCycle (nodeMould s fn) (nd s fn) .a) = true) := by
  constructor <;> decide +kernel

theorem witness_NodesSelectApplyAndSend_pdu :
    let s := lnN 1 3 (fun x => { x with pdu := some (7, [1]) })
    (nd s fn).pdu = some (7, [1]) ∧ 7 ≠ sendCycle (nodeMould s fn) (nd s fn) .b := by
  constructor <;> decide +kernel

theorem witness_NodesSelectApplyAndSend_away :
    (nd (ndo fn (fun x => { x with integrated := false }) (lnN 1 1 id)) fn).integrated = false ∧
    inPlace (ndo fn (fun x => { x with lock := false }) (lnN 1 1 id)) fn = false := by
  constructor <;> decide +kernel

theorem witness_NodesSelectApplyAndSend_claims :
    (nd (ndo fn (fun x => { x with bestClaim := 9 }) State.reset) fn).bestClaim = 9 ∧ (9#8).toNat ≤ 9 ∧ 9 < (10#8).toNat := by
  decide

theorem witness_NodesSelectApplyAndSend_types :
    (0x21#8) ≠ 0x20 ∧ frameType 0x21 = true ∧ (0x10#8) ≠ 0x20 ∧ 1 ≤ (1#8).toNat ∧ (254#8).toNat ≤ 254 := by
  decide

theorem witness_NodesSelectApplyAndSend_corrections : ∀ e ∈ [((0x8001#16, 0#16) : BitVec 16 × BitVec 16)], e.1.toNat % 1024 ≠ 0 := by
  intro e he
  rw [List.mem_singleton.1 he]
  show 32769 % 1024 ≠ 0
  omega

theorem witness_NodesAnswerMailboxesAndSafetyPdus_more :
    (∀ n ∈ [rn, fn], let s := (if n = rn then rin (fun x => { x with reqSeq := 5, reply := [1, 2, 3] }) (ring0 3) else lnN 1 1 (fun x => { x with reqSeq := 5, reply := [1, 2, 3] }))
      inPlace s n = true ∧ ringNode n = decide (n = rn) ∧ (nd s n).reply.length ≤ (3#16).toNat ∧ (2#16).toNat < (nd s n).reply.length ∧ (5#8).toNat = (nd s n).reqSeq ∧
      (6#8).toNat ≠ (nd s n).reqSeq) ∧
    (∀ v ∈ [8#8, 0x7F], 8 ≤ rd [v] 0 1 ∧ rd [v] 0 1 < 0x80) ∧
    ((let p (v : Byte) : Bytes := (fun b => b ++ leBytes 4 (crcSafety 0 b)) (leBytes 2 0x2000 ++ leBytes 2 1 ++ [v] ++ List.replicate 7 0)
     ∀ v ∈ [0#8, 1], pduGood 0 (p v) = true ∧ nodePermit fn (p v) = some (decide (v = 1))) ∧ nodePermit fn (pduOf 1 1) = none ∧ pduGood 0 (pduOf 1 1 ++ [0]) = false) := by
  refine ⟨?_, ?_, ?_⟩ <;> decide +kernel

/-- Set 0 with two stream entries for session 7, the first of n bytes. -/
def streaming (n : Nat) : State := dv (fun d => setAset d 0 { aset d 0 with owner := 7 })
  (acs 0 (fun a => { a with streams := [(0, 7, 0, List.replicate n 1, true), (0, 8, 0, [2], true)] }) [])

theorem witness_PtpDomainsFollowTheirMaster_more :
    (∀ u ∈ [0, 1], ∀ x ∈ [0, 1, 2, 3], let s := dma 1 none [(0x3420, 4, x)]
     Settled s ∧ domState s.dev 0 ≠ 0 ∧ ready s.dev 30 = true ∧ ready s.dev 4 = true ∧ (bit (og s.dev 0x3420 4) u = true ↔ u = 0 ∧ (x = 1 ∨ x = 3) ∨ u = 1 ∧ 2 ≤ x) ∧
     (dom s.dev 0).heard = [] ∧ (dom s.dev 0).best = none) ∧
    (let s := dma 1 none [(0x3420, 3, 2)]; bit (og s.dev 0x3420 3) 0 = false ∧ bit (og s.dev 0x3420 3) 1 = true) ∧
    (∀ st ∈ [2, 3], let s := dma st (some ma) [(0x3420, 5, 0), (0x3420, 4, 3)]
     Settled s ∧ (dom s.dev 0).best = some ma ∧ ma.udp = false ∧ og s.dev 0x3420 5 = 0 ∧ domState s.dev 0 = st) ∧
    (let s := dma 1 none [(0x3420, 5, 1), (0x3420, 4, 3), (0x3420, 2, 7)]
     og s.dev 0x3420 5 = 1 ∧ bit (og s.dev 0x3420 3) 0 = true ∧ rd ([0, 0, 0, 0, 7] ++ List.replicate 39 0) 4 1 = og s.dev 0x3420 2 ∧
     44 ≤ ([0, 0, 0, 0, 7] ++ List.replicate 39 0 : Bytes).length ∧ rd ([0, 0, 0, 0, 8] ++ List.replicate 39 0) 4 1 ≠ og s.dev 0x3420 2) ∧
    (∀ st ∈ [1, 2, 4], domState (dma st none []).dev 0 = st) := by
  unfold Settled; refine ⟨?_, ?_, ?_, ?_, ?_⟩ <;> decide +kernel

theorem witness_SegmentTimeFollowsItsSource_more :
    (let s := dma 3 (some ma) [(0x3410, 6, 0), (0x3410, 1, 1)]; Settled s ∧ followsTime s.dev = false ∧ domState s.dev 0 = 3) ∧
    (let s := dv (fun d => { d with time := { d.time with hold := true } }) (put [(0x3410, 6, 0)] (up 2))
     s.dev.time.hold = true ∧ ∀ m : Dom, og s.dev 0x3410 6 = m.val + 1 → domState s.dev m.val ≠ 3) ∧
    (og (up 2).dev 0x3410 1 = 0 ∧ 2 < og (put [(0x3410, 6, 3)] (up 2)).dev 0x3410 6) ∧
    (∀ p ∈ [(0, 0), (1, 0), (1, 0xFFFFFFFF)], let s := put [(0x3420, 1, p.1), (0x1010, 0, p.2 / 1), (0x3410, 6, 0)] (up 2); og s.dev 0x3420 1 = p.1 ∧ og s.dev 0x3410 6 ≠ 0 + 1) := by
  unfold Settled; refine ⟨?_, ?_, ?_, ?_⟩ <;> decide +kernel

theorem witness_CapturesStampAndTriggersFire_more :
    (∀ m ∈ [0, 1], ∀ h ∈ [0, 1], let s := dv (fun d => { d with time := { d.time with capHeld := h } }) (put [(0x3440, 1, 1), (0x3440, 2, 0x1000000), (0x3440, 3, m)] (up 2))
     Settled s ∧ ready s.dev 4 = true ∧ og s.dev 0x3440 1 ≠ 0 ∧ 2 ^ 24 ≤ og s.dev 0x3440 2 ∧ og s.dev 0x3440 3 = m ∧ bit s.dev.time.capHeld 0 = decide (h = 1)) ∧
    (og (up 2).dev 0x3440 1 = 0 ∧ og (up 2).dev 0x3450 1 = 0) ∧
    (let s := put [(0x3450, 1, 1), (0x3450, 2, 0), (0x3450, 4, 65536), (0x3450, 5, 0)] (up 2)
     let e := advance s.dev (gridTo s.dev.time.local_ (trigNext s.dev 0 * (10 * 2 ^ 24)) (8 * 2 ^ 40))
     timeUnits (og s.dev 0x3450 4) ≠ 0 ∧ timeUnits (og s.dev 0x3450 3) ≤ e.time.local_ / (10 * 2 ^ 24) ∧ e.time.seg ≤ (s.dev.time.k + 1) * unitCycle) := by
  unfold Settled; refine ⟨?_, ?_, ?_⟩ <;> decide +kernel

theorem witness_SetsRunAndRecordsAreUploaded_more :
    (∀ p ∈ [0, 100], ∀ st ∈ [0, 4], let s := acs st id [(acqObj 0 0, 8, p)]; (acqPre s.dev 0 = 0 ↔ p = 0) ∧ acqState s.dev 0 = st ∧ Settled s) ∧
    (∀ p ∈ [0, 100], armStatus (acs 0 id [(acqObj 0 0, 8, p)]).dev 0 = .ok) ∧
    (∀ st ∈ [1, 2, 3], let s := acs st (fun a => { a with recs := [rec0 false] }) []
     Settled s ∧ ready s.dev 17 = true ∧ acqState s.dev 0 = st ∧ recOf s.dev (curRec s.dev 0) = some (rec0 false) ∧
     ∀ x ∈ s.dev.acq.recs, x.num = curRec s.dev 0 → x.complete = false) ∧
    (∀ l ∈ [(true, 7), (true, 8), (false, 7)], let s := acs 0 (fun a => { a with recs := [rec0 l.1], upload := some ⟨l.2, 0, 3, 7⟩ }) []
     rec0 l.1 ∈ s.dev.acq.recs ∧ (rec0 l.1).set = (0 : ASet).val ∧ (rec0 l.1).complete = l.1 ∧ locked s.dev (rec0 l.1).num = decide (l.2 = 7)) ∧
    (∀ k ∈ [1, 2], let s := dv (fun d => { d with time := { d.time with local_ := 1000000 * unitNs } }) (acs k id [(acqObj 0 0, 0x0B, 1)])
     Settled s ∧ acqState s.dev 0 = k ∧ acqCfg s.dev 0 0x0B ≠ 0 ∧ (aset s.dev 0).armAt + acqCfg s.dev 0 0x0B * 1000000 * unitNs ≤ s.dev.time.local_) ∧
    (let s := dv (fun d => setAset d 0 { aset d 0 with rearmAt := 9 }) (acs 4 id []); s.dev.time.kc + 1 < (aset s.dev 0).rearmAt) ∧
    (∀ n ∈ [1400, 1401], let r : Record := ⟨7, 0, List.replicate n 1, true, 0, 0, 0⟩
     let s := acs 0 (fun a => { a with upload := some ⟨7, 0, n, 7⟩, recs := [r] }) []
     Settled s ∧ ready s.dev 17 = true ∧ s.dev.acq.upload = some ⟨7, 0, n, 7⟩ ∧ recOf s.dev 7 = some r ∧ r.set = 0 ∧ n ≤ r.bytes.length ∧ 0 < n ∧
     findSession s.dev 7 = some se ∧ og s.dev 0x3600 6 < 0xFFFFFFFE) ∧
    ((streaming 1400).dev.acq.streams = (0, 7, 0, List.replicate 1400 1, true) :: [(0, 8, 0, [2], true)]) ∧
    ((streaming 1401).dev.acq.streams = (0, 7, 0, List.replicate 1401 1, true) :: [(0, 8, 0, [2], true)]) ∧
    (∀ n ∈ [1400, 1401], ready (streaming n).dev 17 = true ∧ Settled (streaming n) ∧ og (streaming n).dev 0x3600 6 < 0xFFFFFFFE) ∧
    (∀ n ∈ [1400, 1401], findSession (streaming n).dev (aset (streaming n).dev 0).owner = some se) ∧
    (∀ a ∈ [(0, 0), (0, 3), (2, 1)], let s := acs 0 (fun a => { a with recs := [rec0 true] }) [(0x3681, 1, 7), (0x3681, 2, a.1), (0x3681, 3, a.2)]
     s.dev.acq.upload = none ∧ recOf s.dev (og s.dev 0x3681 1) = some (rec0 true) ∧
     (let stop := if og s.dev 0x3681 3 = 0 then (rec0 true).bytes.length else og s.dev 0x3681 2 + og s.dev 0x3681 3
      stop ≤ (rec0 true).bytes.length ∧ og s.dev 0x3681 2 < stop)) ∧
    (∀ a ∈ [(0, 4), (3, 0)], let s := acs 0 (fun a => { a with recs := [rec0 true] }) [(0x3681, 1, 7), (0x3681, 2, a.1), (0x3681, 3, a.2)]
     let stop := if og s.dev 0x3681 3 = 0 then (rec0 true).bytes.length else og s.dev 0x3681 2 + og s.dev 0x3681 3
     (rec0 true).bytes.length < stop ∨ stop ≤ og s.dev 0x3681 2) := by
  unfold Settled; refine ⟨?_, ?_, ?_, ?_, ?_, ?_, ?_, ?_, ?_, ?_, ?_, ?_, ?_⟩ <;> decide +kernel

/-- A pairing message of claim 2 and version v. -/
def pm (c v : Nat) : PairingMsg := ⟨5, BitVec.ofNat 8 c, BitVec.ofNat 16 v, 0, List.replicate 12 0, 0, 0⟩

theorem witness_PairsLinkAndAgree_linking :
    (∀ st ∈ [1, 2, 3, 7], ∀ q ∈ [0, 5000], let s := pr st 1 15 (fun p => { p with used := q }) []
     Settled s ∧ ready s.dev 31 = true ∧ pairState s.dev = st ∧ s.dev.pair.queue = [] ∧ s.dev.pair.used ≤ 5000 ∧ LinkFree s.dev) ∧
    ((15#4).toNat = 15 ∧ (3#4) ≠ 15 ∧ (12#4) ≠ 15) ∧
    (∀ lanes ∈ [3, 12, 15], ∀ l : Fin 4, let s := pr 7 1 lanes id []
     (bit (og s.dev 0x3C01 9) l.val = true ↔ lanes = 15 ∨ lanes = 3 ∧ l.val < 2 ∨ lanes = 12 ∧ 2 ≤ l.val) ∧ og s.dev 0x3C01 9 = lanes) ∧
    (∀ st ∈ [0, 1, 2, 3, 6, 7], let s := pr st 1 12 (fun p => { p with last := some ⟨1, 2, 3, 4, 5⟩ }) []
     Settled s ∧ pairState s.dev = st ∧ s.dev.pair.last ≠ none ∧ bit (og s.dev 0x3C01 9) 3 = true ∧ og s.dev 0x3C01 9 ≠ 15) ∧
    (∀ st ∈ [1, 7], let s := dv (fun d => { d with objs := tinsert (okey 0x3C00 3) 7 d.objs }) (pr st 1 15 id [])
     pairState s.dev ≠ 0 ∧ og s.dev 0x3C01 9 ≠ 0 ∧ (pm 1 9).claim.toNat = og s.dev 0x3C00 2 ∧ (pm 2 9).claim.toNat ≠ og s.dev 0x3C00 2 ∧
     (pm 2 9).version.toNat ≠ og s.dev 0x3C00 3) ∧
    (∀ m ∈ [2, 3], ∀ st ∈ [2, 3, 7], let s := pr st 1 15 (fun p => { p with last := some ⟨1, 2, 3, 4, 5⟩, beaconIn := false, missed := m }) []
     Settled s ∧ pairState s.dev = st ∧ s.dev.pair.last = some ⟨1, 2, 3, 4, 5⟩ ∧ s.dev.pair.beaconIn = false ∧ og s.dev 0x3C02 9 < 0xFFFFFFFE ∧ s.dev.pair.missed = m) ∧
    ((pr 7 1 15 (fun p => { p with last := none }) []).dev.pair.last = none ∧ (pr 7 1 15 (fun p => { p with beaconIn := true }) []).dev.pair.beaconIn = true ∧
     (pr 1 1 0 (fun p => { p with heardHead := true }) []).dev.pair.heardHead = true) ∧
    ((∃ r, findRow 0x3900 1 = some r ∧ r.ty.isBlob = false) ∧ adopts (0x1009#16).toNat (1#8).toNat = false) := by
  unfold Settled LinkFree; refine ⟨?_, ?_, ?_, ?_, ?_, ?_, ?_, ?_⟩ <;> decide +kernel

theorem witness_PairsLinkAndAgree_messages :
    (∀ lanes ∈ [0, 15], let s := pr 7 2 lanes id []; Settled s ∧ og s.dev 0x3C01 9 = lanes ∧ og s.dev 0x3C02 8 < 0xFFFFFFFE) ∧
    (let s := atK 5 4 (he 0 1 (fun h => { h with rx := some [0, 0] }) (moulded 0 (pr 7 2 15 id [])))
     Settled s ∧ pairRole s.dev = 2 ∧ LinkFree s.dev ∧ (BitVec.ofNat 32 (crc32c [0, 0])).toNat = crc32c [0, 0] ∧
     (hd s.dev 0 1).rx.map crc32c = some (BitVec.ofNat 32 (crc32c [0, 0])).toNat ∧ (hd s.dev 0 1).rx.map crc32c ≠ some (7#32).toNat ∧
     s.dev.pair.requested.contains (blockKey 0 1) = false ∧ og s.dev 0x3C02 6 < 0xFFFFFFFE) ∧
    (let s := he 0 1 (fun h => { h with rx := some (List.replicate 900 1) }) (pr 7 1 15 id [])
     Settled s ∧ pairRole s.dev = 1 ∧ (hd s.dev 0 1).rx = some (List.replicate 900 1) ∧ LinkFree s.dev ∧ og s.dev 0x3C01 9 = 15 ∧ s.dev.pair.fullServe = []) ∧
    ((∀ r ∈ [1, 2], ∀ sl ∈ [none, some [1]],
      let s := he 8 0 (fun h => { h with slot := sl }) (dv (fun d => obs d 0x3308 0 ([2, 8, 0, 1, 1, 0, 16, 0] ++ List.replicate 32 0 ++ [1] ++ List.replicate 23 0)) (pr 7 r 15 id [(0x3200, 2, 3)]))
      Settled s ∧ pairState s.dev ≠ 0 ∧ pairedSeg s.dev 8 = true ∧ sending s.dev 8 = true ∧ linePresent (mould s.dev 8) 0 = true ∧ segCycle s.dev 8 % 8 = 0 ∧
      (hd s.dev 8 0).slot = sl ∧ pairRole s.dev = r) ∧ (320#16).toInt.natAbs ≤ 320 ∧ (BitVec.ofInt 16 (-320)).toInt.natAbs ≤ 320 ∧ bits (0x90#8).toNat 5 2 = 0) ∧
    (let s := pr 7 1 15 id []; Settled s ∧ LinkFree s.dev ∧ chl.encode.length ≤ 900 ∧ pairRole s.dev = 1) ∧
    (let s := atK 9 8 (pr 7 1 15 (fun p => { p with items := [(10, chl)] }) []); s.dev.pair.items = [(10, chl)] ∧ s.dev.time.k < 10) ∧
    (∀ n ∈ [1023, 1024], let s := pr 5 2 15 (fun p => { p with mine := [(5, 6, 7)], theirs := [] }) [(0x3C01, 7, n)]
     og s.dev 0x3C01 7 = n ∧ s.dev.pair.mine = [(5, (6#64).toNat, (7#64).toNat)] ∧ 5 = s.dev.time.k / 2 ^ 32 * 2 ^ 32 + (5#32).toNat ∧ pairState s.dev = 5) ∧
    (∀ p ∈ [(6, 8), (8, 7)], (p.1 ≠ (6#64).toNat ∨ p.2 ≠ (7#64).toNat)) := by
  unfold Settled LinkFree; refine ⟨?_, ?_, ?_, ?_, ?_, ?_, ?_, ?_⟩ <;> decide +kernel

theorem witness_PairsTransferStateAndTakeOver_transfer :
    (let s := pr 4 2 15 id []; Settled s ∧ pairState s.dev = 4 ∧ (AxisImage.mk [] (mot s.dev 3) (srv s.dev 3) (cur s.dev 3) (stp s.dev 3) (chan s.dev 0)).objs = []) ∧
    (∀ st ∈ [(4, 2, 0), (7, 1, 4)], let s := pr st.1 st.2.1 15 (fun p => { p with differ := [], checked := 0 }) [(0x3C01, 6, st.2.2)]
     Settled s ∧ s.dev.pair.differ = [] ∧ (pairState s.dev = 4 ∨ leadsTransfer s.dev = true) ∧ s.dev.pair.checked + (List.replicate 1 0#64).length < unitCount) ∧
    (∀ st ∈ [(4, 2, 0), (7, 1, 4)], let s := pr st.1 st.2.1 15 (fun p => { p with differ := [], checked := unitCount - 1 }) [(0x3C01, 6, st.2.2)]
     unitCount ≤ s.dev.pair.checked + (List.replicate 1 0#64).length ∧ og s.dev 0x3C02 4 < 0xFFFFFFFE) ∧
    ((let s := pr 4 2 15 (fun p => { p with differ := [3] }) []; s.dev.pair.differ ≠ []) ∧ leadsTransfer (pr 3 2 15 id []).dev = false) ∧
    (∀ k ∈ [31249, 31250], let s := atK k 0 (pr 4 2 15 id []); pairState s.dev = 4 ∧ (s.dev.time.k < s.dev.pair.startedAt + 31250 ↔ k = 31249)) ∧
    (∀ n ∈ [1023, 1024], let s := pr 5 2 15 id [(0x3C01, 7, n)]; Settled s ∧ pairState s.dev = 5 ∧ (1024 ≤ og s.dev 0x3C01 7 ↔ n = 1024) ∧ LinkFree s.dev) := by
  unfold Settled LinkFree; refine ⟨?_, ?_, ?_, ?_, ?_, ?_⟩ <;> decide +kernel

theorem witness_PairsTransferStateAndTakeOver_takeover :
    ((∀ st ∈ [1, 2, 3, 6, 7], let s := pr st 1 15 id []; Settled s ∧ pairState s.dev = st ∧ og s.dev 0x3C01 9 ≠ 0 ∧ ready s.dev 31 = true) ∧ (1#64) ≠ 0) ∧
    (∀ cl ∈ [0, 1, 255, 256, 257], ∀ st ∈ [2, 6, 7], let s := pr st 2 15 (fun p => { p with announced := some (1, cl) }) []
     Settled s ∧ s.dev.pair.announced = some (1, cl) ∧ 1 ≤ s.dev.time.k + 1 ∧ og s.dev 0x3C02 3 < 0xFFFFFFFE ∧ pairState s.dev = st) ∧
    (let s := pr 7 1 15 (fun p => { p with announced := some (2, 1) }) []; s.dev.pair.announced = some (2, 1) ∧ s.dev.time.k + 1 < 2) ∧
    (∀ st ∈ [0, 3], let s := pr 7 2 15 id [(0x3000, 2, st), (0x3C01, 4, 2), (0x3C01, 3, 2)]
     Settled s ∧ pairedSeg s.dev 0 = true ∧ ready s.dev 18 = true ∧ og s.dev 0x3C00 2 ≤ og s.dev 0x3C01 4 ∧ (sending s.dev 0 = true ↔ st = 3) ∧
     s.dev.pair.decided = [] ∧ og s.dev 0x3C01 3 = 2 ∧ (2#8).toNat ≤ og s.dev 0x3C01 3 ∧ og s.dev 0x3C01 3 < (3#8).toNat) ∧
    (let s := pr 7 2 15 (fun p => { p with decided := [(1, true)] }) [(0x3000, 2, 3), (0x3C01, 4, 0), (0x3C01, 3, 2)]
     (∃ p ∈ s.dev.pair.decided, p.1 = 2 * (0 : Ring).val + 1) ∧ og s.dev 0x3C01 4 < og s.dev 0x3C00 2 ∧ (if sending s.dev 0 = true then og s.dev 0x3C01 3 else 0) ≠ 0) := by
  unfold Settled; refine ⟨?_, ?_, ?_, ?_, ?_⟩ <;> decide +kernel

theorem witness_IslandStartsFailsAndEvaluates_more :
    (∀ st ∈ [1, 2, 3, 4], ∀ m ∈ [0, 1], let s := isb st (fun i => { i with mism := m }) (up 2); s.isl.state = st ∧ s.isl.state ≠ 0 ∧ s.isl.state ≠ 5 ∧ s.isl.mism = m) ∧
    ((∀ b ∈ [false, true], let s := isb 4 (fun i => { i with so := 3 }) (up 2); bit s.isl.so (2 * 0 + b2n b) = true ∧ bit s.isl.soFault 0 = false) ∧
     bit (isb 4 (fun i => { i with soFault := 1 }) (up 2)).isl.soFault 0 = true) ∧
    (∀ st ∈ [0, 3, 5], (isb 4 (fun i => setInst { i with siFault := 1 } 0 { InstSt.reset with state := st, permit := decide (st = 3) }) (up 2)).isl.state = 4 ∧
      (inst (isb 4 (fun i => setInst { i with siFault := 1 } 0 { InstSt.reset with state := st, permit := decide (st = 3) }) (up 2)).isl 0).state = st) ∧
    (0 < blkFns (isb 4 id (up 2)).isl.block ∧ rd (blkPin (isb 4 id (up 2)).isl.block 0) 2 1 = 1) ∧
    ((let s := isb 4 id (pr 7 1 15 id []); og s.dev 0x3C01 9 ≠ 0 ∧ og s.dev 0x3C02 8 < 0xFFFFFFFE ∧ ready s.dev 31 = true ∧ s.isl.state ≠ 0 ∧
     pduGood (blkDomain s.isl.block) npdu = true ∧ (tget (fun _ => SafeIn.reset) s.isl.partner (rd npdu 0 2)).seq ≠ some (rd npdu 2 2)) ∧
     (isb 0 id (pr 7 1 15 id [])).isl.state = 0) := by
  refine ⟨?_, ?_, ?_, ?_, ?_⟩ <;> decide +kernel

theorem witness_MemoryServesAndIsTested_more :
    (let s : State := { (up 2) with mem := { (up 2).mem with single := [8191], bad := [3] } }
     Settled s ∧ ready s.dev 3 = true ∧ 8191 ∈ s.mem.single ∧ 8191 ∉ s.mem.bad ∧ 3 ∈ s.mem.bad ∧ og s.dev (0x3E10 + 8191 % 16) 1 < 0xFFFFFFFE ∧
     og s.dev (0x3E10 + 3 % 16) 3 < 0xFFFFFFFE) ∧
    ((0#18).toNat % 8 + 2 ^ (3 : Fin 4).val ≤ 8 ∧ (7#18).toNat % 8 + 2 ^ (0 : Fin 4).val ≤ 8 ∧ 2 ^ (0 : Fin 4).val < 8) ∧
    (∀ m ∈ [16, 17], (dv (fun d => { d with memt := { d.memt with corr := m } }) (up 2)).dev.memt.corr = m) ∧
    (let s := up 2; Settled s ∧ ready s.dev 3 = true ∧ og (put [(0x3E00, 1, 0)] s).dev 0x3E00 1 = 0 ∧ bit (0x8001#16).toNat 0 = true ∧ bit (0x8001#16).toNat 15 = true ∧
     bit (0x8001#16).toNat 1 = false) ∧
    (let s := put [(0x3E50, 2, 1)] (up 5); Settled s ∧ og s.dev 0x3E50 2 = 1 ∧ (0 : Fin 12).val = 0 ∧ (1 : Fin 12).val = 1 ∧ 3 ≤ (3 : Fin 12).val ∧ (10 : Fin 12).val ≤ 10) := by
  unfold Settled; refine ⟨?_, ?_, ?_, ?_, ?_⟩ <;> decide +kernel

theorem witness_PulseInputEventsTakeTheirEffect :
    (let s := pul (fun x => { x with restart := true }) (pon [])
     Settled s ∧ pulseOn s.dev 0 = true ∧ (pls s.dev 0).waiting = [] ∧ (pls s.dev 0).lastEdge = none ∧ (pls s.dev 0).restart = true ∧ cg s.dev 0x3D00 0x0D ≠ 1 ∧
     pulseTime (advance s.dev (0#32).toNat).time.seg + cg s.dev 0x3D00 4 + 20 < pulseInstantAt (s.dev.time.kc + 1)) ∧
    (let s := pul (fun x => { x with te := -9999999999999, watch := 99999 }) (pon [(0x3D00, 2, 0), (0x3D00, 0x12, 0x3F800000)])
     Settled s ∧ pulseOn s.dev 0 = true ∧ standstillTime s.dev 0 ≤ ((pulseTime s.dev.time.seg - (pls s.dev 0).te : Int) : Rat) ∧ cg s.dev 0x3D00 2 = 0 ∧
     bit (og s.dev 0x3D10 4) 8 = false ∧ f32ToRat (ogf s.dev 0x3D00 0x12) ≠ 0 ∧ bit (og s.dev 0x3D10 4) 9 = false ∧ fedAxes s.dev 0 = []) ∧
    (∀ n ∈ [130, 131], let s := quiet n (pul (fun x => { x with watch := 99999 }) (pon [(0x3D00, 2, 0), (0x3D00, 0x12, 0x3F800000)]))
     Settled s ∧ pulseOn s.dev 0 = true ∧ instants (og s.dev 0x3D00 0x13) ≤ (pls s.dev 0).watch ∧ fedAxes s.dev 0 = [] ∧ Calm s.dev n) ∧
    (instants (og (pon [(0x3D00, 0x12, 0x3F800000)]).dev 0x3D00 0x13) ≤ (pls (pul (fun x => { x with watch := instants (og (pon []).dev 0x3D00 0x13) }) (pon [])).dev 0).watch) := by
  unfold Settled Calm; refine ⟨?_, ?_, ?_, ?_⟩ <;> decide +kernel

theorem witness_PairEventsTakeTheirEffect :
    (let s := pr 0 0 0 id []; Settled s ∧ writeStatus s.dev 0x3C00 1 1 = .ok ∧ pairState s.dev = 0) ∧
    (let s := quiet 163 (pr 2 0 15 id []); Settled s ∧ pairState s.dev = 2 ∧ ready s.dev 31 = true ∧ og s.dev 0x3C01 9 = 15 ∧ Calm s.dev 163) ∧
    (let s := dv (fun d => { d with time := { d.time with local_ := 1000000000 * unitNs } }) (pr 1 0 0 (fun p => { p with heardHead := false, linkAt := 0 }) [])
     Settled s ∧ pairState s.dev = 1 ∧ og s.dev 0x3C01 9 = 0 ∧ s.dev.pair.heardHead = false ∧ s.dev.pair.linkAt + 1000000000 * unitNs ≤ s.dev.time.local_) ∧
    ((∀ st ∈ [2, 7], ∀ m ∈ [0, 2], let s := pr st 1 15 (fun p => { p with delayT := some 5, last := some ⟨1, 2, 3, 4, 5⟩, beaconIn := false, missed := m }) []
     Settled s ∧ pairState s.dev = st ∧ og s.dev 0x3C01 9 ≠ 0 ∧ s.dev.pair.delayT = some 5 ∧ s.dev.pair.theirs = [] ∧ s.dev.pair.mine = [] ∧
     s.dev.pair.last = some ⟨1, 2, 3, 4, 5⟩ ∧ s.dev.pair.beaconIn = false ∧ s.dev.pair.missed = m ∧ og s.dev 0x3C02 9 < 0xFFFFFFFE) ∧ (1#64) ≠ 0) ∧
    (let s := atK 5 4 (he 0 1 (fun h => { h with rx := some [0, 0] }) (moulded 0 (pr 7 2 15 id [])))
     Settled s ∧ pairedSeg s.dev 0 = true ∧ pairRole s.dev = 2 ∧ (hd s.dev 0 1).rx.map crc32c = some (BitVec.ofNat 32 (crc32c [0, 0])).toNat ∧
     (5#32).toNat = s.dev.time.k % 2 ^ 32 ∧ s.dev.time.kc ≠ s.dev.time.k ∧ ([0, 0] : Bytes).length = 2 + nodeWinBytes (mould s.dev 0) 1) ∧
    (let s := he 0 1 (fun h => { h with rx := some (List.replicate 900 1) }) (pr 7 1 15 id [])
     Settled s ∧ pairedSeg s.dev 0 = true ∧ pairRole s.dev = 1 ∧ (1#8) ≠ 0 ∧ (hd s.dev 0 1).rx = some (List.replicate 900 1) ∧ LinkFree s.dev) ∧
    (let s := dv (fun d => obs d 0x3308 0 ([2, 8, 0, 1, 1, 0, 16, 0] ++ List.replicate 32 0 ++ [1] ++ List.replicate 23 0)) (pr 7 1 15 id [(0x3200, 2, 3)])
     Settled s ∧ pairState s.dev ≠ 0 ∧ pairedSeg s.dev 8 = true ∧ sending s.dev 8 = true ∧ linePresent (mould s.dev 8) 0 = true ∧
     (0x80#8).toNat % 8 = segCycle s.dev 8 % 8 ∧ bits (0x80#8).toNat 5 2 = 0 ∧ (320#16).toInt.natAbs ≤ 320 ∧ (hd s.dev 8 0).slot = none) ∧
    (let s := atK 9 8 (pr 7 1 15 (fun p => { p with items := [(9, chl)] }) []); Settled s ∧ s.dev.pair.items = [(9, chl)] ∧ 9 ≤ s.dev.time.k ∧ chl = .chill 9) ∧
    (let s := quiet 162 (atK 31250 0 (pr 4 2 15 (fun p => { p with differ := [], checked := 0 }) []))
     Settled s ∧ pairState s.dev = 4 ∧ (AxisImage.mk [] (mot s.dev 3) (srv s.dev 3) (cur s.dev 3) (stp s.dev 3) (chan s.dev 0)).objs = [] ∧ s.dev.pair.differ = [] ∧
     s.dev.pair.checked + (List.replicate 4620 0#64).length < unitCount ∧ s.dev.pair.startedAt + 31250 ≤ s.dev.time.k ∧ og s.dev 0x3C02 5 < 0xFFFFFFFE ∧ Calm s.dev 162) ∧
    (let s := pr 5 2 15 id [(0x3C01, 7, 1024)]; Settled s ∧ pairState s.dev = 5 ∧ 1024 ≤ og s.dev 0x3C01 7) ∧
    (∀ cl ∈ [1, 255], let s := pr 6 2 15 (fun p => { p with announced := some (1, cl) }) []
     Settled s ∧ s.dev.pair.announced = some (1, cl) ∧ 1 ≤ s.dev.time.k + 1 ∧ 1 ≤ cl ∧ cl ≤ 255 ∧ pairState s.dev = 6) ∧
    (let s := pr 7 2 15 id [(0x3000, 2, 3), (0x3C01, 4, 2), (0x3C01, 3, 1)]
     Settled s ∧ pairedSeg s.dev 0 = true ∧ ready s.dev (18 + 0) = true ∧ og s.dev 0x3C00 2 ≤ og s.dev 0x3C01 4 ∧ s.dev.pair.decided = [] ∧
     (if sending s.dev 0 = true then og s.dev 0x3C01 3 else 0) < (2#8).toNat) ∧
    ((let s := pr 7 1 15 id []; Settled s ∧ ready s.dev 31 = true ∧ pairState s.dev = 7) ∧
     (let s := pr 1 1 15 id []; Settled s ∧ ready s.dev 31 = true ∧ pairState s.dev = 1 ∧ mode s.dev = 2 ∧ LinkFree s.dev) ∧ adopts 0x3900 1 = true ∧
     isMould (okey 0x3900 1) = false) := by
  unfold Settled Calm LinkFree; refine ⟨?_, ?_, ?_, ?_, ?_, ?_, ?_, ?_, ?_, ?_, ?_, ?_, ?_⟩ <;> decide +kernel

theorem witness_ReadsOfRoObjectsNeedNoSession_value :
    (let s := up 2; ∃ r, findRow 0x1001 0 = some r ∧ (readValue s r 0x1001 0).2.length ≤ 1400) := by
  decide +kernel

theorem witness_SessionsEndWithAllTheyHold_domain :
    (let s := put [(0x3900 + 15, 1, 8), (0x2010, 1, 0xFF)] (up 3)
     Settled s ∧ ready s.dev 2 = true ∧ 1 ≤ mode s.dev ∧ reservedSource 15 = false ∧ live s.dev 15 = false ∧ bit (og s.dev 0x2010 1) (15 - 8) = true ∧
     bit (og s.dev (0x3900 + 15) 1) 1 = false ∧ bit (og s.dev (0x3900 + 15) 1) 2 = false ∧ bit (og s.dev (0x3900 + 15) 1) 3 = true) := by
  unfold Settled; decide +kernel

/-- The state after a command, or the state itself where the command gives none. -/
def after (c : Instr) (s : State) : State := match exec c s with | .next t => t | _ => s

/-! Checks against the manual's own numbers: worked examples, check values and tables. -/

/-- R193: the check values of "123456789". -/
theorem test_crc_check_values : crc32c (ascii "123456789") = 0xE3069283 ∧ crc16 (ascii "123456789") = 0x29B1 := by decide +kernel

/-- R471: SHA-256 of "abc", the example of FIPS 180-4, which the rule names. -/
theorem test_sha256_abc : ofBe (sha256 (ascii "abc")) =
    0xBA7816BF8F01CFEA414140DE5DAE2223B00361A396177A9CB410FF61F20015AD := by decide +kernel

/-- The example of the dictionary's chapter: 3 s + 1.5 µs + 0.8 ns as 14 bytes. -/
theorem test_time_bytes : leBytes 14 (mkTime 3 1500 52429) =
    [3, 0, 0, 0, 0, 0, 0, 0, 0xDC, 5, 0, 0, 0xCD, 0xCC] := by decide +kernel

/-- The examples of the scope chapter and of the dictionary's chapter: where an axis object and a node object lie. -/
theorem test_indices : ax 300 0x12 = 0xCB12 ∧ fnx 2 1000 2 = 0x6FA2 ∧ ax 145 0x3D = 0xA47D ∧ fnx 2 712 3 = 0x6B23 := by decide +kernel

/-- R307, R308: the worked block, 58 bits with parameter 4. -/
theorem test_rice_block :
    let z := (codeValues 16 0 (0, 0, 0) [100, 104, 109, 113, 118, 122]).1
    z = [200, 8, 2, 1, 2, 1] ∧ bestRice z 16 = 4 ∧ (riceBlock 16 0 z).length = 58 ∧
    packBits 8 (riceBlock 16 0 z) = [0x08, 0x00, 0xFF, 0xF4, 0x20, 0x41, 0x10, 0x40] := by decide +kernel

/-- R254, R257: the worked slots of node 512, cycles 30 to 32 before the riser. -/
theorem test_worked_slots :
    let h0 : HeadNode := { HeadNode.reset with h1 := 10400, h2 := 10000, synced := true }
    let h1 := decodeSlot h0 [0xF6, 0x0F, 0x13, 0x00]
    let h2 := decodeSlot h1 [0x8A, 0x3A, 0x17, 0x00]
    let h3 := decodeSlot h2 [0x45, 0x35, 0x17, 0x00]
    (wordAt h1 0, sgn 16 (wordAt h1 1), h1.approx) = (0x0013, 10790, false) ∧
    (wordAt h2 0, sgn 16 (wordAt h2 1), h2.approx) = (0x0017, -4, true) ∧
    (wordAt h3 0, sgn 16 (wordAt h3 1)) = (0x0017, -6) := by decide +kernel

/-- R262: the coded setpoints of nodes 512, 17 and 3. -/
theorem test_coded_setpoints :
    let d := (put [(fnx 1 512 1, 1, 105), (fnx 1 512 1, 2, 100), (fnx 1 17 1, 1, 700), (fnx 1 17 1, 2, 1000), (fnx 1 3 1, 1, 20000)] State.reset).dev
    let d := { d with inForce := d.objs }
    codeEntry (setHd d 9 512 { hd d 9 512 with needAbs := false }) 1 512 = [0x01, 0x58] ∧
    codeEntry (setHd d 9 17 { hd d 9 17 with needAbs := false }) 1 17 = [0x46, 0x40, 0xED] ∧
    codeEntry (setHd d 9 3 { hd d 9 3 with needAbs := true }) 1 3 = [0x0F, 0x00, 0x20, 0x4E] := by decide +kernel

/-- R108, R112: the worked move ends after 66,875 cycles exactly at its target, and its end phases last 4,375 cycles. -/
theorem test_move_profile :
    let p := moveProf 0 0 0 0 (400000 * 65536) 200000 2000000 2000000 50000000
    p.ended 66874 = false ∧ p.ended 66875 = true ∧ p.at 0 66875 = (400000 * 65536, 0, 0) ∧
    inCycles (p.edge false) = 4375 ∧ inCycles (p.edge true) = 4375 := by decide +kernel

/-- R117: a stop from 200,000 counts/s with these limits takes as long as the profile's last phases. -/
theorem test_stop_profile :
    let p := stopProf 0 0 200000 0 2000000 50000000
    p.ended 4374 = false ∧ p.ended 4375 = true ∧ (p.at 0 4375).1 = 14000 * 65536 := by decide +kernel

/-- R133, R134: the worked step channel over two cycles: rates, steps and accumulator. -/
theorem test_step_channel :
    let goal (v : Nat) (d : Dev) := os d (ax 3 0x36) 6 v
    let d0 := goal 2621440 (inf (put [(ax 3 9, 1, 2), (ax 3 1, 1, 5), (ax 3 1, 5, 3), (0x3D83, 1, 200)] (up 3))).dev
    let d1 := stepUpdate (chanCycle d0 3) 3
    let d2 := stepUpdate (goal 5242880 (chanCycle d1 3)) 3
    let d3 := chanCycle d2 3
    (chan d1 3).v = 1407374883553 ∧ (chan d2 3).s = 39 ∧ (chan d2 3).acc = 281474976708416 ∧
    ogd d2 (ax 3 0x37) 1 = 1407375420424 ∧ (chan d3 3).s = 80 ∧ ogd d3 (ax 3 0x37) 2 = 4294963520 := by decide +kernel

/-- R49: the worked mapping. Entry 1 of 0x1600 activates on a Stopped part; entry 2, an object of class RO, does not; a part in
Running refuses the write. -/
theorem test_mapping_example :
    let s := put [(0x1600, 1, 0x50450110)] (up 2)
    og (after (.mappingActivate 0x1600 1) s).dev 0x1600 0 = 1 ∧
    og (after (.mappingActivate 0x1600 2) (put [(0x1600, 2, 0x10200108)] s)).dev 0x1600 0 = 0 ∧
    og (after (.mappingActivate 0x1600 1) (put [(0x1020, 1, 3)] s)).dev 0x1600 0 = 0 := by decide +kernel

/-- R47, R424: a request of Service on a Stopped part does not change the mode before the boundary, where it takes effect. -/
theorem test_mode_request :
    let s := after (.modeRequest 5) (up 2)
    mode s.dev = 2 ∧ mode (after .modeTransition s).dev = 5 := by decide +kernel

/-- R376, R388: two assertions take two successive numbers and the source counts them. -/
theorem test_assertion :
    let s := after (.sourceAssertion 44 5 7) (up 2)
    let t := after (.sourceAssertion 44 6 7) s
    s.dev.fc.nextSeq = (up 2).dev.fc.nextSeq + 1 ∧ t.dev.fc.nextSeq = s.dev.fc.nextSeq + 1 ∧
    og t.dev (0x3840 + 44) 0 = 2 := by decide +kernel

/-- R102, R104: Enable takes a Disabled local step axis to Standstill in Running, and does not on a Stopped part. -/
theorem test_enable :
    let s := put [(ax 3 1, 1, 6), (ax 3 1, 5, 3), (ax 3 1, 4, 2)] (up 3)
    axState (after (.enable 3 7) s).dev 3 = 1 ∧
    axState (after (.enable 3 7) (put [(0x1020, 1, 2)] s)).dev 3 = 0 := by decide +kernel

/-- R396: a write of four bytes lists four cells in the canonical form, and a write of zeros lists none. -/
theorem test_memory_write :
    let s := after (.memoryAccess [⟨0, true, 0x40, 2, 0xDEADBEEF, 0, false, false⟩]) (up 2)
    Memory.wf s.mem.cells = true ∧ s.mem.cells.length = 4 := by decide +kernel


/-! The well-formedness checks: each refuses an ill-formed command and accepts the like well-formed one. -/

/-- The session part of a request, for the checks. -/
def kda : Kda := bare
/-- A pairing message with this many tags. -/
def pmsg (n : Nat) : PairingMsg := ⟨0, 0, 0, 0, List.replicate n 0, 0, 0⟩

theorem test_wf_dictionaryRead : (Instr.dictionaryRead 0 kda []).wellFormed = false ∧
    (Instr.dictionaryRead 0 kda (List.replicate 65 ⟨0x1000, 0, 0⟩)).wellFormed = false ∧
    (Instr.dictionaryRead 0 kda (List.replicate 64 ⟨0x1000, 0, 0⟩)).wellFormed = true := by decide +kernel
theorem test_wf_dictionaryWrite : (Instr.dictionaryWrite 0 kda []).wellFormed = false ∧
    (Instr.dictionaryWrite 0 kda (List.replicate 65 ⟨0x1000, 0, 0, []⟩)).wellFormed = false ∧
    (Instr.dictionaryWrite 0 kda (List.replicate 64 ⟨0x1000, 0, 0, []⟩)).wellFormed = true := by decide +kernel
theorem test_wf_imageBlock : (Instr.imageBlock 0 []).wellFormed = false ∧ (Instr.imageBlock 0 [1]).wellFormed = true := by decide +kernel
theorem test_wf_pairingMessage : (Instr.pairingMessage true (pmsg 11)).wellFormed = false ∧ (Instr.pairingMessage true (pmsg 12)).wellFormed = true := by decide +kernel
theorem test_wf_fingerprint : (Instr.fingerprint true (List.replicate 17 (0, 0, 0))).wellFormed = false ∧
    (Instr.fingerprint true (List.replicate 16 (0, 0, 0))).wellFormed = true := by decide +kernel
theorem test_wf_blockRequest : (Instr.blockRequest true (List.replicate 17 (0, 0))).wellFormed = false ∧
    (Instr.blockRequest true (List.replicate 16 (0, 0))).wellFormed = true := by decide +kernel
theorem test_wf_memoryAccess : (Instr.memoryAccess [mq true 0, mq false 1]).wellFormed = false ∧
    (Instr.memoryAccess [mq true 0]).wellFormed = true := by decide +kernel
theorem test_wf_sensorSample :
    let z (n : Nat) : List (BitVec 32) := List.replicate n 0
    (Instr.sensorSample (z 6) (z 4) (z 8) (z 7)).wellFormed = false ∧
    (Instr.sensorSample (z 6) (z 4) (z 8) (z 8)).wellFormed = true := by decide +kernel
theorem test_wf_safetyBlockWrite : (Instr.safetyBlockWrite (List.replicate 16385 0)).wellFormed = false ∧
    (Instr.safetyBlockWrite (List.replicate 16384 0)).wellFormed = true := by decide +kernel
theorem test_wf_microstepTableWrite : (Instr.microstepTableWrite 0 (List.replicate 1023 0)).wellFormed = false ∧
    (Instr.microstepTableWrite 0 (List.replicate 1024 0)).wellFormed = true := by decide +kernel

/-- The table gives its rows no bits, so no word spells a command and none is put into the queue. -/
theorem test_no_row_has_bits (n w : Nat) : decodeTableWord n w = none ∧ State.reset.withFetchWord n w = State.reset := ⟨rfl, rfl⟩

end Sys2Proof.Tests
end

section
/-! The sessions of the host link (R468-R473): what their operations do, and how they end. -/
namespace Sys2Proof.Machine

/-! ## The session with an identifier -/

/-- A session is found under its own identifier. -/
theorem id_of_findSession {d : Dev} {id : Nat} {x : Session} (h : findSession d id = some x) : x.id = id := by
  simpa using List.find?_some h

/-- A change of one session reaches that session alone. -/
theorem findSession_onSession (d : Dev) (id i : Nat) (f : Session → Session) (hf : ∀ x, (f x).id = x.id) :
    findSession (onSession d id f) i = if i = id then (findSession d i).map f else findSession d i := by
  have hid : ∀ x : Session, (if x.id = id then f x else x).id = x.id := fun x => by split <;> simp [hf]
  simp only [findSession, onSession, List.find?_map, Function.comp_def, hid]
  cases hx : d.host.sessions.find? (fun x => x.id = i) with
  | none => simp
  | some x =>
    have hi : x.id = i := by simpa using List.find?_some hx
    by_cases e : i = id <;> simp [hi, e]

@[simp] theorem findSession_emit (d : Dev) (m : Msg) (i : Nat) : findSession (emit d m) i = findSession d i := rfl

/-- A dropped session is gone, and every other one stays (R473). -/
theorem findSession_dropSession (d : Dev) (id i : Nat) :
    findSession (dropSession d id) i = if i = id then none else findSession d i := by
  simp only [findSession, dropSession, showSessions, os_host, List.find?_filter]
  split
  case isTrue e => simp [e]
  case isFalse e =>
    congr 1
    funext x
    by_cases hx : x.id = i <;> simp [hx, e]

/-- A dropped session gives its lease back (R473). -/
theorem dropSession_lease (d : Dev) (id : Nat) :
    (dropSession d id).host.lease = if d.host.lease = id then 0 else d.host.lease := rfl

/-- Dropping a session of a device whose other sessions and lease are those of `s` leaves nothing of it. -/
theorem sessionGone_dropSession {s t : State} {id : Nat} (hs : ∀ i, i ≠ id → findSession t.dev i = findSession s.dev i)
    (hl : t.dev.host.lease = s.dev.host.lease) : SessionGone s { t with dev := dropSession t.dev id } id := by
  refine ⟨by simp [findSession_dropSession], by simp [dropSession_lease, hl], fun i hi => ?_⟩
  simp [findSession_dropSession, hi, hs i hi]

/-- An open session is dropped at its close, and that of a commissioning session reaches the island (R370, R473). -/
theorem closeSession_open {s : State} {id : Nat} {x : Session} (hx : findSession s.dev id = some x) (ho : x.isOpen = true) :
    closeSession s id = if x.comm then closeCommission { s with dev := dropSession s.dev id }
      else { s with dev := dropSession s.dev id } := by
  simp [closeSession, hx, ho]

/-! ## A request and its response -/

/-- The session is found under its own identifier. -/
theorem Accepted.find {s : State} {p : Port} {h : Kda} {typ : Nat} {body : Bytes} {x : Session} (ha : Accepted s p h typ body x) :
    findSession s.dev x.id = some x := by
  obtain ⟨-, hfind, -⟩ := ha
  rw [id_of_findSession hfind, hfind]

/-- Only a confirmation is accepted in a session that is not open (R470). -/
theorem Accepted.isOpen {s : State} {p : Port} {h : Kda} {typ : Nat} {body : Bytes} {x : Session} (ha : Accepted s p h typ body x)
    (ht : typ ≠ 0x12) : x.isOpen = true := by
  obtain ⟨-, -, -, -, hopen, -⟩ := ha
  exact hopen.resolve_right ht

/-- The device once a session's datagram counter is noted (R472). -/
def counterNoted (d : Dev) (id n : Nat) : Dev := onSession d id (fun y => { y with rx := n })

theorem findSession_counterNoted {d : Dev} {id : Nat} {x : Session} (hx : findSession d id = some x) (n i : Nat) :
    findSession (counterNoted d id n) i = if i = id then some { x with rx := n } else findSession d i := by
  by_cases e : i = id <;> simp [counterNoted, findSession_onSession, e, hx]

/-- An accepted request goes on to its execution, with its counter noted (R472). -/
theorem receive_accepted {s : State} {p : Port} {h : Kda} {typ : Nat} {body : Bytes} {x : Session}
    (ha : Accepted s p h typ body x) (answered : Bool) :
    receive s.dev p h typ body answered = .go (counterNoted s.dev x.id h.counter.toNat) { x with rx := h.counter.toNat } := by
  obtain ⟨hscreen, hfind, htag, hrx, hopen, hnew⟩ := ha
  have hid := id_of_findSession hfind
  rw [← hid] at hfind
  have hctr : ¬ h.counter.toNat ≤ x.rx := by omega
  have hexec : (!x.isOpen && typ != 0x12) = false := by
    rcases hopen with ho | ht
    · simp [ho]
    · simp [ht]
  have hstored : (if answered then x.stored.find? (fun r => r.1 = h.reqId.toNat) else none) = none := by
    split
    · simpa using fun a b c d hr => hnew _ hr
    · rfl
  simp only [receive, hscreen, hfind, ← hid, ← htag, hctr, hexec, hstored, bne_self_eq_false, Bool.false_eq_true, if_false,
    counterNoted]

/-- A message of a session takes the session's next counter and its tag (R467, R471). -/
theorem sendIn_found {d : Dev} {id : Nat} {x : Session} (hx : findSession d id = some x) (p : Port) (typ status req : Nat) (body : Bytes) :
    sendIn d p id typ 1 status req body =
      emit (onSession d id (fun y => { y with tx := y.tx + 1 })) (response p x typ status req body) := by
  simp only [sendIn, hx, response, id_of_findSession hx]

/-- What a session keeps of a response it sends: the response itself, for the last 16 requests, and the counter it took (R472). -/
def replied (req : Nat) (a : Answer) (x : Session) : Session :=
  { x with stored := ((x.stored ++ [(req, a.1, a.2.1, a.2.2)]).reverse.take 16).reverse, tx := x.tx + 1 }

theorem findSession_reply {d : Dev} {id : Nat} {x : Session} (hx : findSession d id = some x) (p : Port) (req : Nat) (a : Answer) (i : Nat) :
    findSession (reply d p id req a) i = if i = id then some (replied req a x) else findSession d i := by
  by_cases e : i = id <;> simp [reply, sendIn, findSession_onSession, hx, e, replied]

/-- A reply hands one datagram to the port. -/
theorem reply_out {d : Dev} {id : Nat} {x : Session} (hx : findSession d id = some x) (p : Port) (req : Nat) (a : Answer) :
    (reply d p id req a).out = d.out ++ [response p x a.1 a.2.1 req a.2.2] := by
  have hy := findSession_onSession d id id
    (fun y => { y with stored := (y.stored ++ [(req, a.1, a.2.1, a.2.2)]).reverse.take 16 |>.reverse }) (fun _ => rfl)
  rw [if_pos rfl, hx, Option.map_some] at hy
  simp only [reply, sendIn_found hy]
  rfl

@[simp] theorem reply_fc (d : Dev) (p : Port) (id req : Nat) (a : Answer) : (reply d p id req a).fc = d.fc := by
  simp only [reply, sendIn]; split <;> rfl
@[simp] theorem reply_power (d : Dev) (p : Port) (id req : Nat) (a : Answer) : (reply d p id req a).power = d.power := by
  simp only [reply, sendIn]; split <;> rfl
@[simp] theorem reply_lease (d : Dev) (p : Port) (id req : Nat) (a : Answer) : (reply d p id req a).host.lease = d.host.lease := by
  simp only [reply, sendIn]; split <;> rfl

/-! ## The collector's way to a chip reset -/

/-- More objects may change. -/
theorem ObjsKept.mono {a b : Dev} {l m : List Nat} (h : ObjsKept a b l) (hl : l ⊆ m) : ObjsKept a b m :=
  fun k hk => h k (fun hm => hk (hl hm))

/-- A statistics counter's increment changes that object only (R388). -/
theorem bump_kept (d : Dev) (i c : Nat) : ObjsKept d (bump d i c) [okey i c] := by
  have hos := (ObjsKept.refl d [okey i c]).os i c (og d i c + 1) (by simp)
  simp only [bump]
  split
  · exact .refl d _
  · split
    · exact hos.congr rfl
    · exact hos

/-! A statistics counter's increment leaves the sources' conditions and wire faults. -/
@[simp] theorem bump_cond (d : Dev) (i c : Nat) : (bump d i c).fc.cond = d.fc.cond := by
  simp only [bump]; split
  · rfl
  · split <;> rfl
@[simp] theorem bump_wire (d : Dev) (i c : Nat) : (bump d i c).fc.wire = d.fc.wire := by
  simp only [bump]; split
  · rfl
  · split <;> rfl

theorem number_kept (d : Dev) : ObjsKept d (number d).1 dropKeys := by
  unfold number
  split
  · exact .refl d _
  · split
    · exact (bump_kept d _ _).mono (by decide)
    · exact (ObjsKept.refl d _).congr rfl

/-- A source's status objects are the only ones its assertion changes there (R419, R422, R429). -/
theorem sourceStatus_kept (d : Dev) (n m : Nat) : ObjsKept d (sourceStatus d n m)
    [okey 0x2000 1, okey 0x2010 2, okey 0x2010 3, okey 0x2020 1, okey 0x2020 2, okey 0x2020 3] := by
  have bitKept (e : Dev) (i c b : Nat) (v : Bool) : ObjsKept e (osb e i c b v) [okey i c] := (ObjsKept.refl e _).os _ _ _ (by simp)
  unfold sourceStatus
  split
  · exact (bitKept _ _ _ _ _).mono (by decide)
  split
  · exact ((bitKept _ _ _ _ _).mono (by decide)).trans ((bump_kept _ _ _).mono (by decide))
  split
  · exact ((bitKept _ _ _ _ _).mono (by decide)).trans ((bump_kept _ _ _).mono (by decide))
  split
  · split
    · exact ((bitKept _ _ _ _ _).mono (by decide)).trans ((bitKept _ _ _ _ _).mono (by decide))
    · exact (bitKept _ _ _ _ _).mono (by decide)
  · exact .refl d _

/-- The device as a new assertion is counted: a level source's condition and status are set (R388, R527). -/
def counted (d : Dev) (r : Report) : Dev :=
  bump (if levelSource r.src then
    sourceStatus { d with fc := { d.fc with cond := setBit d.fc.cond r.src true } } r.src r.datum else d) (0x3840 + r.src) 0

/-- The device a new assertion hands to its reactions: counted, numbered, latched and noted (R376, R386, R388). -/
def asserted (d : Dev) (r : Report) : Dev :=
  noteFault (latch (number (counted d r)).1 r ((number (counted d r)).2.getD 0)) r.src (number (counted d r)).2

/-- A report of a source that is not live, neither a wire fault nor forced, is a new assertion (R374-R387). -/
theorem assertReport_new {d : Dev} {r : Report} (hr : ready d 2 = true) (hl : live d r.src = false) (hw : r.wire = false)
    (hf : r.force = false) :
    assertReport d r = (react (asserted d r) r (number (counted d r)).2, (number (counted d r)).2) := by
  have hc : bit d.fc.cond r.src = false := by
    simp only [live, Bool.or_eq_false_iff] at hl
    exact hl.1.1
  simp only [assertReport, hr, hl, hw, hf, hc, asserted, counted, Bool.not_true, Bool.not_false, Bool.and_true, Bool.and_false,
    Bool.false_eq_true, if_false]

/-- Until its reactions run, an assertion changes the collector's own counters, latch and status objects only. -/
theorem asserted_kept (d : Dev) (r : Report) : ObjsKept d (asserted d r) (dropKeys ++ reportKeys r.src) := by
  have hstatus : ObjsKept d (if levelSource r.src then
      sourceStatus { d with fc := { d.fc with cond := setBit d.fc.cond r.src true } } r.src r.datum else d)
      (dropKeys ++ reportKeys r.src) := by
    split
    · exact fun k hk => (sourceStatus_kept _ r.src r.datum).mono (by simp [reportKeys]) k hk
    · exact .refl d _
  have hcount : ObjsKept d (counted d r) (dropKeys ++ reportKeys r.src) :=
    hstatus.trans ((bump_kept _ _ _).mono (by simp [reportKeys]))
  have hnumber := hcount.trans ((number_kept _).mono (List.subset_append_left _ _))
  have hlatch := hnumber.trans ((latch_kept _ r ((number (counted d r)).2.getD 0)).mono
    (List.subset_append_of_subset_right _ (List.subset_append_right _ _)))
  exact hlatch.congr (by rw [asserted, noteFault_frame])

/-- A source's reactions are no object of the collector's. -/
theorem og_reactions_asserted (d : Dev) (r : Report) : og (asserted d r) (0x3900 + r.src) 1 = og d (0x3900 + r.src) 1 :=
  asserted_kept d r _ (by simp [dropKeys, reportKeys, List.range, List.range.loop, okey]; omega)

/-- A reaction with C, and with neither T nor B, ends in a chip reset (R380, R384). -/
theorem react_chipReset {d : Dev} {r : Report} (q : Option Nat) (hT : bit (og d (0x3900 + r.src) 1) 1 = false)
    (hB : bit (og d (0x3900 + r.src) 1) 2 = false) (hC : bit (og d (0x3900 + r.src) 1) 3 = true) :
    ∃ e, react d r q = chipReset e := by
  simp only [react, hT, hB, hC, Bool.false_eq_true, if_false, if_true]
  exact ⟨_, rfl⟩

theorem report_chipReset {d : Dev} {src : Nat} (cause datum : Nat) (hr : ready d 2 = true) (hl : live d src = false)
    (hT : bit (og d (0x3900 + src) 1) 1 = false) (hB : bit (og d (0x3900 + src) 1) 2 = false)
    (hC : bit (og d (0x3900 + src) 1) 3 = true) : ∃ e, report d src cause datum = chipReset e := by
  have hcfg := og_reactions_asserted d ⟨src, cause, datum, false, false, 0⟩
  simp only [report, raise, assertReport_new (r := ⟨src, cause, datum, false, false, 0⟩) hr hl rfl rfl]
  exact react_chipReset _ (by rw [hcfg]; exact hT) (by rw [hcfg]; exact hB) (by rw [hcfg]; exact hC)

/-- A parity failure of a scratchpad changes its counter only (R403). -/
theorem padError_kept (d : Dev) (c a : Nat) : ObjsKept d (padError d c a) [okey 0x3E40 (c + 1)] := by
  simp only [padError]
  split
  · exact (bump_kept d _ _).congr rfl
  · exact bump_kept d _ _

@[simp] theorem padError_cond (d : Dev) (c a : Nat) : (padError d c a).fc.cond = d.fc.cond := by
  simp only [padError]; split <;> exact bump_cond d _ _
@[simp] theorem padError_wire (d : Dev) (c a : Nat) : (padError d c a).fc.wire = d.fc.wire := by
  simp only [padError]; split <;> exact bump_wire d _ _

/-- A parity failure is no object of a source: not its reactions, its force bit or its condition. -/
theorem og_padError_source (d : Dev) {c n : Nat} (a : Nat) (hc : c < 8) (hn : n < 192) {b : Nat} (hb : b < 256) :
    og (padError d c a) (0x3900 + n) b = og d (0x3900 + n) b :=
  padError_kept d c a _ (by simp only [okey, List.mem_singleton]; omega)

theorem live_padError (d : Dev) {c n : Nat} (a : Nat) (hc : c < 8) (hn : n < 192) : live (padError d c a) n = live d n := by
  simp [live, forced, og_padError_source d a hc hn]

theorem ready_padError (d : Dev) {c : Nat} (a b : Nat) (hc : c < 8) : ready (padError d c a) b = ready d b := by
  have h : og (padError d c a) 0x1010 0 = og d 0x1010 0 := padError_kept d c a _ (by simp only [okey, List.mem_singleton]; omega)
  simp [ready, h]

/-- A chip reset loses every session and the lease (R384, R473). -/
theorem upd_chipReset_host {s : State} {f : Dev → Dev} {e : Dev} (h : f s.dev = chipReset e) : (upd s f).dev.host = .reset := by
  have hfin : finish (f s.dev) = chipReset e := by rw [h, finish_settled _ rfl]
  have hclr : (chipReset e).power.cleared = true := rfl
  simp only [upd, hfin, hclr, if_true]
  rfl

/-- The assertion of a source with the reaction C, and with neither T nor B, resets the chip. -/
theorem sourceAssertion_chipReset {s : State} {src : Src} (cause : BitVec 16) (datum : BitVec 32) (hr : ready s.dev 2 = true)
    (hres : reservedSource src.val = false) (hl : live s.dev src.val = false)
    (hdom : 8 ≤ src.val → src.val ≤ 15 → bit (og s.dev 0x2010 1) (src.val - 8) = true)
    (hT : bit (og s.dev (0x3900 + src.val) 1) 1 = false) (hB : bit (og s.dev (0x3900 + src.val) 1) 2 = false)
    (hC : bit (og s.dev (0x3900 + src.val) 1) 3 = true) :
    ∃ f e, exec (.sourceAssertion src cause datum) s = .next (upd s f) ∧ f s.dev = chipReset e := by
  have hoff : (reservedSource src.val || (8 ≤ src.val && src.val ≤ 15 && !bit (og s.dev 0x2010 1) (src.val - 8))) = false := by
    simpa [hres] using hdom
  have hwire : bit s.dev.fc.wire src.val = false := by
    simp only [live, Bool.or_eq_false_iff] at hl
    exact hl.1.2
  have hexec : exec (.sourceAssertion src cause datum) s = execSourceAssertion src cause datum s := rfl
  simp only [hexec, execSourceAssertion, hoff, Bool.false_eq_true, if_false]
  obtain ⟨e, he⟩ : ∃ e, report (if 32 ≤ src.val && src.val ≤ 39 then padError s.dev (src.val - 32) datum.toNat else s.dev)
      src.val cause.toNat datum.toNat = chipReset e := by
    split
    case isTrue hpad =>
      have hc : src.val - 32 < 8 := by simp only [Bool.and_eq_true, decide_eq_true_eq] at hpad; omega
      refine report_chipReset _ _ ?_ ?_ ?_ ?_ ?_
      · rwa [ready_padError _ _ _ hc]
      · rwa [live_padError _ _ hc src.isLt]
      all_goals rwa [og_padError_source _ _ hc src.isLt (by omega)]
    case isFalse => exact report_chipReset _ _ hr hl hT hB hC
  exact ⟨_, e, rfl, by simpa [hwire] using he⟩

/-! ## How a session ends -/

/-- The device once an accepted close message is answered (R469). -/
def closeAnswered (s : State) (p : Port) (h : Kda) (x : Session) : Dev :=
  reply (counterNoted s.dev x.id h.counter.toNat) p x.id h.reqId.toNat (0x14, 0, [])

theorem exec_sessionClose_accepted {s : State} {p : Port} {h : Kda} {x : Session} (hs : Settled s) (ha : Accepted s p h 0x14 [] x) :
    exec (.sessionClose p h) s = .next (closeSession { s with dev := closeAnswered s p h x } x.id) := by
  obtain ⟨htodo, hclr⟩ := hs
  have hexec : exec (.sessionClose p h) s = execSessionClose p h s := rfl
  have hupd : upd s (fun _ => closeAnswered s p h x) = { s with dev := closeAnswered s p h x } :=
    upd_settled _ _ (by rw [closeAnswered, reply_fc]; exact htodo) (by rw [closeAnswered, reply_power]; exact hclr)
  rw [hexec, execSessionClose, receive_accepted ha true, ← hupd]
  rfl

/-- The close message: answered in the session, which is then gone (R473). -/
theorem sessionClose_ends {s : State} {p : Port} {h : Kda} {x : Session} (hs : Settled s) (ha : Accepted s p h 0x14 [] x) :
    ∃ u, SessionGone s u x.id ∧ u.isl = s.isl ∧ u.dev.out = s.dev.out ++ [response p x 0x14 0 h.reqId.toNat []] ∧
      exec (.sessionClose p h) s = .next (if x.comm then closeCommission u else u) := by
  have hnoted (i : Nat) := findSession_counterNoted ha.find h.counter.toNat i
  have hx := (hnoted x.id).trans (if_pos rfl)
  have hfound (i : Nat) : findSession (closeAnswered s p h x) i = _ := findSession_reply hx _ _ _ i
  have hothers (i : Nat) (hi : i ≠ x.id) : findSession (closeAnswered s p h x) i = findSession s.dev i := by
    rw [hfound, if_neg hi, hnoted, if_neg hi]
  have hclose := closeSession_open (s := { s with dev := closeAnswered s p h x }) ((hfound x.id).trans (if_pos rfl))
    (ha.isOpen (by decide))
  exact ⟨{ s with dev := dropSession (closeAnswered s p h x) x.id },
    sessionGone_dropSession (t := { s with dev := closeAnswered s p h x }) hothers (reply_lease ..), rfl,
    reply_out hx _ _ _, by rw [exec_sessionClose_accepted hs ha, hclose]; rfl⟩

/-- The idle timeout of an open session (R473). -/
theorem sessionIdleTimeout_ends {s : State} {id : BitVec 32} {x : Session} (hx : findSession s.dev id.toNat = some x)
    (ho : x.isOpen = true) : ∃ u, SessionGone s u id.toNat ∧ u.isl = s.isl ∧
      exec (.sessionIdleTimeout id) s = .next (if x.comm then closeCommission u else u) := by
  have hexec : exec (.sessionIdleTimeout id) s = execSessionIdleTimeout id s := rfl
  refine ⟨{ s with dev := dropSession s.dev id.toNat }, sessionGone_dropSession (fun _ _ => rfl) rfl, rfl, ?_⟩
  simp only [hexec, execSessionIdleTimeout, hx, ho, if_true, closeSession_open hx ho]

/-- Settles O57: a close and a timeout drop the session, and a chip reset loses the host link's whole state. -/
theorem sessionsEndWithAllTheyHold : Obligations.SessionsEndWithAllTheyHold := by
  unfold Obligations.SessionsEndWithAllTheyHold
  intro p h id src cause datum x s hs
  refine ⟨sessionClose_ends hs, sessionIdleTimeout_ends, ?_⟩
  intro hr _ hres hl hdom hT hB hC
  obtain ⟨f, e, hexec, hreset⟩ := sourceAssertion_chipReset cause datum hr hres hl hdom hT hB hC
  have hhost := upd_chipReset_host hreset
  exact ⟨_, hexec, by rw [hhost]; rfl, by rw [hhost]; rfl⟩

end Sys2Proof.Machine
end

section
/-! ## The terminations of the pulse inputs -/
namespace Sys2Proof.Machine

/-- Once the parameters are read, the input's own record decides whether it is terminated, and pair enable by how much (R495, R497). -/
theorem fbTermination_of_paramsDone {d : Dev} (hp : d.power.powered = true) (hk : paramsDone d = true) (i : PIn) :
    fbTermination d i = if og d (0x3D00 + i.val) 1 = 1 ∧ og d (0x3D00 + i.val) 2 = 0 then
      some (if og d 0x3C00 1 = 1 then 240 else 120) else none := by
  by_cases he : og d (0x3D00 + i.val) 1 = 1
  · by_cases hm : og d (0x3D00 + i.val) 2 = 0
    · simp [fbTermination, hp, hk, he, hm]
    · simp [fbTermination, hm]
  · simp [fbTermination, he]

/-- Settles O58: each clause picks one branch of what the input's enable and mode and the pair enable decide. -/
theorem pulseInputsTerminateDifferentialPairs : Obligations.PulseInputsTerminateDifferentialPairs := by
  unfold Obligations.PulseInputsTerminateDifferentialPairs
  intro i d hp hk
  have hterm := fbTermination_of_paramsDone hp hk i
  refine ⟨?unpaired, ?paired, ?singleEnded, ?disabled⟩
  case unpaired =>
    intro he hm hpair
    rw [hterm, if_pos ⟨he, hm⟩, if_neg (by simp [hpair])]
  case paired =>
    intro he hm hpair
    exact ⟨by rw [hterm, if_pos ⟨he, hm⟩, if_pos hpair], by norm_num⟩
  case singleEnded =>
    intro hm
    rw [hterm, if_neg fun h => hm h.2]
  case disabled =>
    intro he
    rw [hterm, if_neg fun h => by simp [he] at h]

end Sys2Proof.Machine
end


section
/-! ## What a command reaches: the device, the island, one node -/
namespace Sys2Proof.Machine

/-- From `s` to `t` only the device and the shared memory change, the memory in its canonical form: what a command of the device does. -/
structure DevStep (s t : State) : Prop where
  nodes : t.nodes = s.nodes
  pending : t.pending = s.pending
  isl : t.isl = s.isl
  mem : s.mem.wf → t.mem.wf

/-- From `s` to `t` the island may change too, but its outputs stay safe: what a command that reaches the island does. -/
structure IslStep (s t : State) : Prop where
  nodes : t.nodes = s.nodes
  pending : t.pending = s.pending
  outputs : OutputsSafe s.isl → OutputsSafe t.isl
  mem : s.mem.wf → t.mem.wf

/-- From `s` to `t` node `n` may change, with what it sends and the free values it takes, and nothing else. -/
structure NodeStep (n : NodeId) (s t : State) : Prop where
  frame : t = { s with nodes := t.nodes, dev := { s.dev with out := t.dev.out, free := t.dev.free } }
  others : ∀ k, k ≠ nkey (nodeSeg n) (nodeNum n) → tget (fun _ => NodeSt.reset) t.nodes k = tget (fun _ => NodeSt.reset) s.nodes k

theorem DevStep.refl (s : State) : DevStep s s := ⟨rfl, rfl, rfl, id⟩

theorem DevStep.trans {s t u : State} (h : DevStep s t) (g : DevStep t u) : DevStep s u :=
  ⟨g.nodes.trans h.nodes, g.pending.trans h.pending, g.isl.trans h.isl, g.mem ∘ h.mem⟩

theorem DevStep.upd (s : State) (f : Dev → Dev) : DevStep s (upd s f) :=
  ⟨upd_nodes s f, upd_pending s f, upd_isl s f, wf_upd s f⟩

theorem DevStep.dev (s : State) (d : Dev) : DevStep s { s with dev := d } := ⟨rfl, rfl, rfl, id⟩

theorem DevStep.ite {s a b : State} {p : Prop} [Decidable p] (ha : DevStep s a) (hb : DevStep s b) : DevStep s (if p then a else b) := by
  split <;> assumption

theorem DevStep.foldl {α : Type} {f : State → α → State} (hf : ∀ s a, DevStep s (f s a)) (l : List α) (s : State) :
    DevStep s (l.foldl f s) := by
  induction l generalizing s with
  | nil => exact .refl s
  | cons a l ih => exact (hf s a).trans (ih _)

theorem IslStep.refl (s : State) : IslStep s s := ⟨rfl, rfl, id, id⟩

theorem IslStep.trans {s t u : State} (h : IslStep s t) (g : IslStep t u) : IslStep s u :=
  ⟨g.nodes.trans h.nodes, g.pending.trans h.pending, g.outputs ∘ h.outputs, g.mem ∘ h.mem⟩

theorem DevStep.island {s t : State} (h : DevStep s t) : IslStep s t := ⟨h.nodes, h.pending, fun o => h.isl ▸ o, h.mem⟩

theorem IslStep.upd (s : State) (f : Dev → Dev) : IslStep s (upd s f) := (DevStep.upd s f).island

theorem IslStep.dev (s : State) (d : Dev) : IslStep s { s with dev := d } := (DevStep.dev s d).island

theorem IslStep.ite {s a b : State} {p : Prop} [Decidable p] (ha : IslStep s a) (hb : IslStep s b) : IslStep s (if p then a else b) := by
  split <;> assumption

theorem IslStep.foldl {α : Type} {f : State → α → State} (hf : ∀ s a, IslStep s (f s a)) (l : List α) (s : State) :
    IslStep s (l.foldl f s) := by
  induction l generalizing s with
  | nil => exact .refl s
  | cons a l ih => exact (hf s a).trans (ih _)

theorem NodeStep.refl (n : NodeId) (s : State) : NodeStep n s s := ⟨rfl, fun _ _ => rfl⟩

/-- A node command hands frames out, takes free values and replaces its node. -/
theorem NodeStep.setNd (n : NodeId) (s : State) (d : Dev) (x : NodeSt) (hd : d = { s.dev with out := d.out, free := d.free }) :
    NodeStep n s (setNd { s with dev := d } n x) :=
  ⟨by rw [hd]; rfl, fun _ hk => tget_tput_other _ _ x hk⟩

theorem NodeStep.trans {n : NodeId} {s t u : State} (h : NodeStep n s t) (g : NodeStep n t u) : NodeStep n s u :=
  ⟨by rw [g.frame, h.frame], fun k hk => (g.others k hk).trans (h.others k hk)⟩

/-! ## The island's operations -/

/-- Outside Run, and for a pair with a fault or without supply, no output is asked for (R345, R357). -/
theorem soOn_imp {i : IslandSt} {n : Nat} (h : soOn i n = true) : i.state = 4 ∧ i.vso = true ∧ bit i.soFault n = false := by
  simp only [soOn, Bool.and_eq_true, decide_eq_true_eq, Bool.not_eq_true'] at h
  obtain ⟨⟨⟨⟨hs, hv⟩, -⟩, hf⟩, -⟩ := h
  exact ⟨hs, hv, hf⟩

@[simp] theorem bit_zero (b : Nat) : bit 0 b = false := by simp [bit_eq_testBit]

/-- The pins of the pairs that are asked for. -/
def soPins (on : Nat → Bool) (l : List Nat) (m : Nat) : Nat :=
  l.foldl (fun m n => if on n then setBit (setBit m (2 * n) true) (2 * n + 1) true else m) m

/-- A pin is on when it was, or when its pair is asked for. -/
theorem bit_soPins (on : Nat → Bool) (l : List Nat) (m n b : Nat) (hb : b < 2) (h : bit (soPins on l m) (2 * n + b) = true) :
    bit m (2 * n + b) = true ∨ on n = true := by
  induction l generalizing m with
  | nil => exact .inl h
  | cons a l ih =>
    rcases ih _ h with hm | ho
    · beta_reduce at hm
      by_cases ha : on a = true
      · simp only [ha, if_true, bit_setBit] at hm
        by_cases e : a = n
        · exact .inr (e ▸ ha)
        · rw [if_neg (by omega), if_neg (by omega)] at hm
          exact .inl hm
      · rw [if_neg ha] at hm
        exact .inl hm
    · exact .inr ho

theorem soPins_none (on : Nat → Bool) (l : List Nat) (m : Nat) (h : ∀ n, on n = false) : soPins on l m = m := by
  induction l generalizing m with
  | nil => rfl
  | cons a l ih =>
    rw [soPins, List.foldl_cons, h a, if_neg Bool.false_ne_true]
    exact ih m

/-- Outputs brought up to date are safe, whatever they were. -/
theorem outputsSafe_refresh (i : IslandSt) : OutputsSafe (refresh i) := by
  set j : IslandSt := { i with permits := if i.state = 4 then permitMap i else 0 } with hj
  have hso : (refresh i).so = soPins (soOn j) (List.range 4) 0 := rfl
  refine ⟨fun hs => ⟨if_neg hs, ?_⟩, fun n _ hon => ?_⟩
  · have hoff (n : Nat) : soOn j n = false := by
      rw [Bool.eq_false_iff]
      exact fun h => hs (soOn_imp h).1
    rw [hso, soPins_none _ _ _ hoff]
  · have hn : soOn j n = true := by
      rw [hso] at hon
      rcases hon with h | h
      · exact (bit_soPins _ _ 0 n 0 (by omega) h).resolve_left (by simp)
      · exact (bit_soPins _ _ 0 n 1 (by omega) h).resolve_left (by simp)
    exact (soOn_imp hn).2

/-- What `OutputsSafe` speaks of. -/
theorem OutputsSafe.congr {i j : IslandSt} (h : OutputsSafe i)
    (e : (j.state, j.permits, j.so, j.vso, j.soFault) = (i.state, i.permits, i.so, i.vso, i.soFault)) : OutputsSafe j := by
  simp only [Prod.mk.injEq] at e
  obtain ⟨hs, hp, ho, hv, hf⟩ := e
  simpa only [OutputsSafe, hs, hp, ho, hv, hf] using h

/-- A change that leaves the outputs, and what they follow, alone. -/
theorem IslStep.isl (s : State) (i : IslandSt) (d : Dev)
    (e : (i.state, i.permits, i.so, i.vso, i.soFault) = (s.isl.state, s.isl.permits, s.isl.so, s.isl.vso, s.isl.soFault)) :
    IslStep s { s with isl := i, dev := d } := ⟨rfl, rfl, fun h => h.congr e, id⟩

/-- From `s` to `t` the device and the island may change in any way: what precedes the island's `islandSettle`. -/
structure Loose (s t : State) : Prop where
  nodes : t.nodes = s.nodes
  pending : t.pending = s.pending
  mem : t.mem = s.mem

theorem Loose.refl (s : State) : Loose s s := ⟨rfl, rfl, rfl⟩
theorem Loose.trans {s t u : State} (h : Loose s t) (g : Loose t u) : Loose s u :=
  ⟨g.nodes.trans h.nodes, g.pending.trans h.pending, g.mem.trans h.mem⟩
theorem Loose.parts (s : State) (d : Dev) (i : IslandSt) : Loose s { s with dev := d, isl := i } := ⟨rfl, rfl, rfl⟩

theorem Loose.foldl {α : Type} {f : State → α → State} (hf : ∀ s a, Loose s (f s a)) (l : List α) (s : State) :
    Loose s (l.foldl f s) := by
  induction l generalizing s with
  | nil => exact .refl s
  | cons a l ih => exact (hf s a).trans (ih _)

/-- A settled island is safe, whatever it did before (R345, R357). -/
theorem Loose.settle {s t : State} (h : Loose s t) : IslStep s (islandSettle t) := by
  have hu := DevStep.upd (islandReports { t with isl := { refresh t.isl with stopReq := stopWanted (refresh t.isl) } }) id
  refine ⟨hu.nodes.trans h.nodes, hu.pending.trans h.pending, fun _ => ?_, fun hm => hu.mem ?_⟩
  · have hisl : (islandSettle t).isl = _ := hu.isl
    rw [hisl]
    exact (outputsSafe_refresh t.isl).congr rfl
  · show t.mem.wf
    rw [h.mem]; exact hm

theorem Loose.islandState {s t : State} (h : Loose s t) (st : Nat) : Loose s (islandState t st) := by
  unfold Machine.islandState
  split
  · exact h
  · exact h.trans (.parts t _ _)

theorem Loose.islandFault {s t : State} (h : Loose s t) (c : Nat) : Loose s (islandFault t c) :=
  (h.trans (.parts t t.dev _)).islandState 5

theorem Loose.freezePdus {s t : State} (h : Loose s t) : Loose s (freezePdus t) := h.trans (.parts t _ t.isl)

theorem Loose.handover {s t : State} (h : Loose s t) : Loose s (handover t) := by
  have hpdus := h.trans (Loose.foldl (f := fun s p => sendPdu s p.1 p.2) (fun s _ => .parts s _ _) (pduList t) t)
  have hsent (t : State) : Loose t (if paired t.dev then { t with dev := sendPair t.dev 10 (ownPdus t) } else t) := by
    split
    · exact .parts t _ t.isl
    · exact .refl t
  unfold Machine.handover
  split
  · exact h
  · exact hpdus.trans (hsent _)

theorem islStep_islandStart (s : State) (r : Bool) : IslStep s (islandStart s r) :=
  (Loose.parts s _ _).islandState 1 |>.settle

theorem islStep_openCommission (s : State) : IslStep s (openCommission s) :=
  .ite ((Loose.refl s).islandState 3).settle (.refl s)

theorem islStep_closeCommission (s : State) : IslStep s (closeCommission s) := .ite (islStep_islandStart s true) (.refl s)


/-! ## The dictionary and the images -/

/-- `IslStep.ite` for an operation that answers more than the state. -/
theorem IslStep.iteFst {α : Type} {s : State} {p : Prop} [Decidable p] {a b : State × α} (ha : IslStep s a.1) (hb : IslStep s b.1) :
    IslStep s (if p then a else b).1 := by
  split <;> assumption

/-- `DevStep.ite` for an operation that answers more than the state. -/
theorem DevStep.iteFst {α : Type} {s : State} {p : Prop} [Decidable p] {a b : State × α} (ha : DevStep s a.1) (hb : DevStep s b.1) :
    DevStep s (if p then a else b).1 := by
  split <;> assumption

theorem islStep_onDev (s : State) (r : Dev × Status) : IslStep s (onDev s r).1 := .upd s (fun _ => r.1)

theorem islStep_counterWrite (s : State) (idx sub v : Nat) : IslStep s (counterWrite s idx sub v).1 :=
  .iteFst (.refl s) <| .iteFst (.refl s) <| .iteFst (.refl s) <| .iteFst (.refl s) <| .iteFst (.refl s) <|
    .iteFst (.isl s _ s.dev rfl) (.dev s _)

theorem islStep_blockWrite (s : State) (b : Bytes) : IslStep s (blockWrite s b).1 := by
  unfold blockWrite
  split
  · exact .iteFst (.refl s) (.iteFst (.refl s) (.isl s _ s.dev rfl))
  · exact .refl s

theorem islStep_confirmWrite (s : State) (v : Nat) : IslStep s (confirmWrite s v).1 := by
  unfold confirmWrite
  split
  · exact .iteFst (.isl s _ s.dev rfl) (.refl s)
  · exact .refl s

theorem islStep_safetyStore (s : State) : IslStep s (safetyStore s).1 := by
  unfold safetyStore
  split
  · exact .iteFst (.refl s) (.iteFst (.refl s) (.isl s _ s.dev rfl))
  · exact .refl s

theorem islStep_islandCommand (s : State) (v : Nat) : IslStep s (islandCommand s v).1 :=
  .iteFst (islStep_safetyStore s) (.iteFst (islStep_islandStart s true) (.refl s))

theorem islStep_putNumber (s : State) (c : Caller) (r : Row) (idx sub v : Nat) : IslStep s (putNumber s c r idx sub v).1 := by
  have hdev := islStep_onDev s
  refine .iteFst (.iteFst (hdev _) (.refl s)) <| .iteFst (.iteFst (.refl s) (hdev _)) <| .iteFst (hdev _) <| .iteFst (hdev _) <|
    .iteFst (hdev _) <| .iteFst (islStep_counterWrite ..) <| .iteFst (islStep_confirmWrite ..) <| .iteFst (islStep_islandCommand ..) <|
    .iteFst (.isl s _ s.dev rfl) <| .iteFst (hdev _) ?_
  split
  · exact hdev _
  · exact .refl s

theorem islStep_putBlob (s : State) (r : Row) (idx sub : Nat) (b : Bytes) : IslStep s (putBlob s r idx sub b).1 := by
  have hdev := islStep_onDev s
  unfold putBlob
  dsimp only
  split
  · exact hdev _
  · exact .iteFst (islStep_blockWrite s b) <| .iteFst (hdev _) <| .iteFst (.refl s) <| .iteFst (hdev _) <| .iteFst (hdev _) <|
      .iteFst (.refl s) <| .iteFst (.refl s) <| .iteFst (.dev s _) (.dev s _)

theorem islStep_putValue (s : State) (c : Caller) (r : Row) (idx sub : Nat) (b : Bytes) : IslStep s (putValue s c r idx sub b).1 :=
  .iteFst (islStep_putBlob ..) (.iteFst (.refl s) (islStep_putNumber ..))

theorem islStep_writeLocal (s : State) (c : Caller) (idx sub : Nat) (b : Bytes) : IslStep s (writeLocal s c idx sub b).1 := by
  unfold writeLocal
  split
  · exact islStep_putValue ..
  · exact .refl s

theorem islStep_writeObject (s : State) (c : Caller) (w : WrItem) : IslStep s (writeObject s c w).1 :=
  .iteFst (.iteFst (.dev s _) (.iteFst (.refl s) (islStep_writeLocal ..))) (islStep_writeLocal ..)

theorem islStep_forwardWrites (s : State) (ws : List WrItem) : IslStep s (forwardWrites s ws) := .ite (.refl s) (.dev s _)

theorem islStep_writeItems (s : State) (c : Caller) (fwd ws : List WrItem) : IslStep s (writeItems s c fwd ws).1 := by
  induction ws generalizing s fwd with
  | nil => exact islStep_forwardWrites s fwd
  | cons w ws ih => exact (islStep_writeObject s c w).trans (ih _ _)

theorem islStep_answerWrite (s : State) (c : Caller) (ws : List WrItem) : IslStep s (answerWrite s c ws).1 :=
  .iteFst (.dev s _) (islStep_writeItems s c [] ws)

theorem devStep_readValue (s : State) (r : Row) (idx sub : Nat) : DevStep s (readValue s r idx sub).1 :=
  .iteFst (.dev s _) (.iteFst (.refl s) (.iteFst (.dev s _) (.refl s)))

theorem devStep_readOne (s : State) (inSession chill : Bool) (idx sub : Nat) : DevStep s (readOne s inSession chill idx sub).1 := by
  unfold readOne
  split
  · exact .iteFst (.iteFst (.refl s) (.refl s)) (devStep_readValue ..)
  · exact .refl s

theorem devStep_readSubs (s : State) (inSession chill : Bool) (idx : Nat) (acc : Bytes) (subs : List Nat) :
    DevStep s (readSubs s inSession chill idx acc subs).1 := by
  induction subs generalizing s acc with
  | nil => exact .refl s
  | cons sub rest ih =>
    have hone := devStep_readOne s inSession chill idx sub
    unfold readSubs
    split
    next s1 b e => exact (congrArg Prod.fst e ▸ hone).trans (ih s1 _)
    next => exact .refl s

theorem devStep_readItem (s : State) (inSession : Bool) (it : RdItem) : DevStep s (readItem s inSession it).1 :=
  .iteFst (.iteFst (.refl s) (devStep_readSubs ..)) (devStep_readOne ..)

theorem devStep_readItems (s : State) (inSession : Bool) (its : List RdItem) : DevStep s (readItems s inSession its).1 := by
  induction its generalizing s with
  | nil => exact .refl s
  | cons it its ih => exact (devStep_readItem s inSession it).trans (ih _)

theorem devStep_answerRead (s : State) (inSession : Bool) (its : List RdItem) : DevStep s (answerRead s inSession its).1 :=
  .iteFst (.dev s _) (.iteFst (.refl s) (devStep_readItems s inSession its))

/-- A session's request goes as far as what it runs. -/
theorem devStep_serveRequest {run : State → Session → State × Answer} (hrun : ∀ s x, DevStep s (run s x).1) (s : State) (p : Port) (h : Kda)
    (typ : Nat) (body : Bytes) : DevStep s (serveRequest s p h typ body run) := by
  unfold serveRequest
  split
  · exact .upd s _
  · exact ((DevStep.upd s _).trans (hrun _ _)).trans (.upd _ _)

theorem islStep_serveRequest {run : State → Session → State × Answer} (hrun : ∀ s x, IslStep s (run s x).1) (s : State) (p : Port) (h : Kda)
    (typ : Nat) (body : Bytes) : IslStep s (serveRequest s p h typ body run) := by
  unfold serveRequest
  split
  · exact .upd s _
  · exact ((IslStep.upd s _).trans (hrun _ _)).trans (.upd _ _)

/-- So does a request without a session. -/
theorem devStep_serveBare {run : State → State × Answer} (hrun : ∀ s, DevStep s (run s).1) (s : State) (p : Port) (h : Kda)
    (typ : Nat) (body : Bytes) : DevStep s (serveBare s p h typ body run) := by
  unfold serveBare
  split
  · exact .upd s _
  · exact (hrun s).trans (.upd _ _)

theorem devStep_segBegin (s : State) (x : Session) (idx sub total : Nat) : DevStep s (segBegin s x idx sub total).1 := by
  unfold segBegin
  split
  · exact .iteFst (.refl s) (.iteFst (.refl s) (.dev s _))
  · exact .refl s

theorem devStep_segData (s : State) (x : Session) (idx sub off : Nat) (b : Bytes) : DevStep s (segData s x idx sub off b).1 := by
  unfold segData
  split
  · exact .refl s
  · exact .iteFst (.refl s) (.iteFst (.refl s) (.dev s _))

theorem islStep_segEnd (s : State) (x : Session) (idx sub : Nat) : IslStep s (segEnd s x idx sub).1 := by
  unfold segEnd
  split
  · exact .refl s
  · exact .iteFst (.dev s _) (((IslStep.dev s _).trans (islStep_writeObject ..)).trans (islStep_forwardWrites ..))

theorem devStep_segRead (s : State) (x : Session) (idx sub off max : Nat) : DevStep s (segRead s x idx sub off max).1 := by
  unfold segRead
  dsimp only
  split
  case h_2 => exact .refl s
  case h_1 r _ =>
    split
    case h_1 => exact .refl s
    case h_2 t b hgot =>
      have ht : DevStep s t := by
        split at hgot
        · cases hgot
          exact (devStep_readValue s r idx sub).trans (.dev _ _)
        · obtain ⟨_, -, e⟩ := Option.map_eq_some_iff.1 hgot
          cases e
          exact .refl s
      exact .iteFst (.refl s) (.ite (ht.trans (.dev t _)) ht)

theorem devStep_segReadBare (s : State) (idx sub off max : Nat) : DevStep s (segReadBare s idx sub off max).1 := by
  unfold segReadBare
  split
  · exact .iteFst (devStep_readValue ..) (.refl s)
  · exact .refl s

theorem islStep_putMapped (s : State) (v : Nat) (b : Bytes) : IslStep s (putMapped s v b) := by
  unfold putMapped
  dsimp only
  split
  · exact .ite (.refl s) (islStep_putNumber ..)
  · exact .refl s

theorem islStep_putImage (s : State) (es : List Nat) (b : Bytes) : IslStep s (putImage s es b) := by
  induction es generalizing s b with
  | nil => exact .refl s
  | cons v es ih => exact (islStep_putMapped s v _).trans (ih _ _)

theorem islStep_activateImage (s : State) : IslStep s (activateImage s) := by
  unfold activateImage
  split
  · exact .refl s
  · exact .ite (.dev s _) ((IslStep.dev s _).trans (islStep_putImage ..))

theorem islStep_applyItem (s : State) (it : FwdItem) : IslStep s (applyItem s it) := by
  cases it with
  | write ws => exact .foldl (fun s w => islStep_writeLocal s _ _ _ _) ws s
  | _ => unfold applyItem; exact .upd s _

theorem islStep_closeSession (s : State) (id : Nat) : IslStep s (closeSession s id) := by
  unfold closeSession
  split
  · exact .refl s
  · exact .ite ((IslStep.dev s _).trans (islStep_closeCommission _)) (.dev s _)

/-! ## The shared memory's commands -/

theorem DevStep.memory (s : State) (d : Dev) (m : MemSt) (hm : s.mem.wf → m.wf) : DevStep s { s with dev := d, mem := m } :=
  ⟨rfl, rfl, rfl, hm⟩

theorem devStep_freshWord (s : State) (w : Nat) : DevStep s (freshWord s w) := .memory s _ _ id

theorem devStep_upsetWord (s : State) (op : WordOp) : DevStep s (upsetWord s op) := by
  have herr (m : MemSt) (hm : m.cells = s.mem.cells) : DevStep s { s with mem := m } := .memory s s.dev m (fun h => MemSt.wf_of_cells h hm)
  unfold upsetWord
  exact .ite (.ite (.refl s) (herr _ rfl)) (.ite (.ite (.refl s) (herr _ rfl)) (.refl s))

theorem devStep_respond (s : State) (p r d : Nat) : DevStep s (respond s p r d) := .dev s _

theorem devStep_memWrite (s : State) (a : Nat) (b : Bytes) : DevStep s { s with mem := memWrite s.mem a b } :=
  .memory s s.dev _ (MemSt.wf_memWrite b a)

theorem devStep_serve (s : State) (op : WordOp) : DevStep s (serve s op) := by
  refine (devStep_upsetWord s op).trans ?_
  set u := upsetWord s op
  have hwrite (t : State) (ht : DevStep u t) (a : Nat) (b : Bytes) :
      DevStep u (respond { t with mem := memWrite t.mem a b } op.port 0 0) := (ht.trans (devStep_memWrite t a b)).trans (.dev _ _)
  have hcorrected : DevStep u (if u.mem.single.contains op.word then corrected u op.word else u) := .ite (.dev u _) (.refl u)
  exact .ite
    (.ite (hwrite _ (devStep_freshWord u _) _ _) (.ite (.dev u _) (hwrite _ (hcorrected.trans (devStep_freshWord _ _)) _ _)))
    (.ite (.dev u _) (.ite (.dev u _) (.dev u _)))

theorem devStep_collide (s : State) (op : WordOp) : DevStep s (collide s op) := .dev s _

theorem devStep_retries (n : Nat) (s : State) (ops : List WordOp) : DevStep s (retries n s ops) := by
  induction n generalizing s ops with
  | zero => exact .refl s
  | succ n ih =>
    have hfail (s : State) (o : WordOp) :
        DevStep s (respond { s with dev := later (bump s.dev (0x3E30 + o.port) 2) 42 0 o.port } o.port 4 0) := .dev s _
    have hround := ((DevStep.foldl devStep_serve (ops.filter (fun o => !loses ops o)) s).trans
      (.foldl devStep_collide (ops.filter (loses ops)) _)).trans
      (.foldl hfail ((ops.filter (loses ops)).filter (fun o => o.port != 13)) _)
    exact .ite hround (hround.trans (ih _ _))

theorem devStep_serveClock (s : State) (ops : List WordOp) : DevStep s (serveClock s ops) := by
  unfold serveClock
  set sorted := ops.foldl (fun t o => opInsert o t) []
  have hround := (DevStep.foldl devStep_serve (sorted.filter (fun o => !loses sorted o)) s).trans
    (.foldl devStep_collide (sorted.filter (loses sorted)) _)
  exact .ite hround (hround.trans (devStep_retries 16 _ _))

theorem devStep_copyRegion (s : State) (r : Nat) : DevStep s (copyRegion s r) := .memory s _ _ id

theorem devStep_memoryAccess (reqs : List MemReq) (s : State) : ∃ t, execMemoryAccess reqs s = .next t ∧ DevStep s t := by
  refine ⟨_, rfl, ?_⟩
  split
  · exact .foldl (fun s r => devStep_respond s _ 3 0) reqs s
  · extract_lets s1 good hs s2 s3 s4
    have h1 : DevStep s s1 := .foldl (fun s r => .dev s _) _ s
    have h2 : DevStep s1 s2 := by
      refine .foldl (fun s h => ?_) hs s1
      split
      · exact .dev s _
      · exact .refl s
    have h4 : DevStep s2 s4 := (devStep_serveClock s2 _).trans (devStep_serveClock s3 _)
    exact ((h1.trans h2).trans h4).trans (.upd s4 id)

end Sys2Proof.Machine
end

section
/-! ## Every command keeps to its kind -/
namespace Sys2Proof.Machine

/-- What a command does, by its kind: a command of the device, one that reaches the island, or one of a node. -/
inductive Effect (c : Instr) (s t : State) : Prop
  | device (hn : nodeOf c = none) (h : DevStep s t)
  | island (hn : nodeOf c = none) (hr : reachesIsland c = true) (h : IslStep s t)
  | node (n : NodeId) (hn : nodeOf c = some n) (h : NodeStep n s t)

/-- Command `c` is answered with a next state, and reaches what its kind says. -/
def Stays (c : Instr) (s : State) : Prop := ∃ t, exec c s = .next t ∧ Effect c s t

theorem Stays.upd {c : Instr} {s : State} (f : Dev → Dev) (h : exec c s = .next (upd s f)) (hn : nodeOf c = none) : Stays c s :=
  ⟨_, h, .device hn (.upd s f)⟩

theorem Stays.device {c : Instr} {s t : State} (h : exec c s = .next t) (hn : nodeOf c = none) (ht : DevStep s t) : Stays c s :=
  ⟨t, h, .device hn ht⟩

theorem Stays.island {c : Instr} {s t : State} (h : exec c s = .next t) (hc : nodeOf c = none ∧ reachesIsland c = true) (ht : IslStep s t) :
    Stays c s := ⟨t, h, .island hc.1 hc.2 ht⟩

theorem Stays.node {c : Instr} {s t : State} {n : NodeId} (h : exec c s = .next t) (hn : nodeOf c = some n) (ht : NodeStep n s t) :
    Stays c s := ⟨t, h, .node n hn ht⟩

theorem NodeStep.ite {n : NodeId} {s a b : State} {p : Prop} [Decidable p] (ha : NodeStep n s a) (hb : NodeStep n s b) :
    NodeStep n s (if p then a else b) := by
  split <;> assumption

/-- A node command that changes its node only. -/
theorem NodeStep.self (n : NodeId) (s : State) (x : NodeSt) : NodeStep n s (Machine.setNd s n x) := .setNd n s s.dev x rfl

theorem NodeStep.updNode (n : NodeId) (s : State) (f : NodeSt → NodeSt) : NodeStep n s (updNode s n f) := .self n s _

/-- A node command that hands a frame out only. -/
theorem NodeStep.emit (n : NodeId) (s : State) (m : Msg) : NodeStep n s { s with dev := emit s.dev m } := ⟨rfl, fun _ _ => rfl⟩

/-- The body of a field node's frame costs free values only. -/
theorem fieldBody_frame (dom : Nat) (b : Bytes) (l k : Nat) (kind : Fin 4) (q : Nat) (d : Dev) (x : NodeSt) :
    (fieldBody dom b l k kind q d x).2 = { d with free := (fieldBody dom b l k kind q d x).2.free } := by
  unfold fieldBody
  split
  case h_3 =>
    split
    · rfl
    · split <;> rfl
  all_goals rfl

theorem NodeStep.iteFst {α : Type} {n : NodeId} {s : State} {p : Prop} [Decidable p] {a b : State × α} (ha : NodeStep n s a.1)
    (hb : NodeStep n s b.1) : NodeStep n s (if p then a else b).1 := by
  split <;> assumption

theorem nodeStep_takeTable (s : State) (n : NodeId) (p : Bytes) : NodeStep n s (takeTable s n p).1 :=
  .iteFst (.self n s _) (.iteFst (.self n s _) (.refl n s))

theorem nodeStep_takeFirmware (s : State) (n : NodeId) (p a : Bytes) : NodeStep n s (takeFirmware s n p a).1 :=
  .iteFst (.refl n s) <| .iteFst (.self n s _) <| .iteFst (.iteFst (.self n s _) (.refl n s)) <| .iteFst (.refl n s) (.self n s _)

theorem nodeStep_nodeAnswer (s : State) (n : NodeId) (cap : Nat) (p a : Bytes) : NodeStep n s (nodeAnswer s n cap p a).1 :=
  have hschedule : NodeStep n s (takeSchedule s n p) := .updNode n s _
  .iteFst hschedule <| .iteFst (nodeStep_takeTable s n p) <| .iteFst (.refl n s) <| .iteFst (nodeStep_takeFirmware s n p a) <|
    .iteFst (.refl n s) (.refl n s)

theorem stays_nodeApplyInstant (n : NodeId) (w : Win) (s : State) : Stays (.nodeApplyInstant n w) s := by
  refine .node rfl rfl (.ite (.refl n s) ?_)
  cases n <;> exact .setNd _ s _ _ rfl

theorem stays_nodeRollCallFrame (n : NodeId) (c : Chan) (N m : BitVec 16) (s : State) : Stays (.nodeRollCallFrame n c N m) s :=
  .node rfl rfl (.ite (.refl n s) ((NodeStep.emit n s _).trans (.updNode n _ _)))

theorem stays_nodeCopyReceived (r : Ring) (j : RNode) (c : Chan) (typ : BitVec 8) (hdrOk blockOk late : Bool) (sg claim : BitVec 8)
    (cycle : BitVec 32) (flags : BitVec 8) (tag : BitVec 16) (pdu data : Bytes) (s : State) :
    Stays (.nodeCopyReceived r j c typ hdrOk blockOk late sg claim cycle flags tag pdu data) s :=
  .node rfl rfl (.ite (.ite (.refl _ s) (.self _ s _)) (.ite (.setNd _ s _ _ rfl) (.self _ s _)))

theorem stays_nodeSummationReceived (l : Line) (k : FNode) (c : Chan) (typ : BitVec 8) (ok late : Bool) (claim : BitVec 8)
    (cycle : BitVec 32) (flags : BitVec 8) (tag : BitVec 16) (corrections : List (BitVec 16 × BitVec 16)) (pdus : List Bytes)
    (coded : Bytes) (s : State) :
    Stays (.nodeSummationReceived l k c typ ok late claim cycle flags tag corrections pdus coded) s :=
  .node rfl rfl (.ite (.ite (.refl _ s) (.self _ s _)) (.ite (.self _ s _) (.self _ s _)))

theorem stays_nodeSendInstant (l : Line) (k : FNode) (kind : Fin 4) (c : Chan) (passing : BitVec 16) (s : State) :
    Stays (.nodeSendInstant l k kind c passing) s := by
  refine .node rfl rfl (.ite (.refl _ s) ?_)
  dsimp only
  split
  · exact .refl _ s
  · have hframe := fun q => fieldBody_frame (blkDomain s.isl.block) (nodeMould s (.line l k)) l.val k.val kind q s.dev (nd s (.line l k))
    exact .ite (.setNd _ s _ _ (by rw [hframe])) (.setNd _ s _ _ (by simp only [emit]; rw [hframe]))

theorem stays_nodeSafetyPdu (n : NodeId) (claim : BitVec 8) (pdu : Bytes) (s : State) : Stays (.nodeSafetyPdu n claim pdu) s := by
  refine .node rfl rfl ?_
  split
  · exact .refl n s
  · exact .ite (.refl n s) (.self n s _)

theorem stays_nodeMailboxRequest (n : NodeId) (seq : BitVec 8) (cap : BitVec 16) (payload answer : Bytes) (s : State) :
    Stays (.nodeMailboxRequest n seq cap payload answer) s := by
  refine .node rfl rfl (.ite (.refl n s) ?_)
  extract_lets x s1
  have hdue : NodeStep n s s1 := by
    cases n
    · exact .emit _ s _
    · exact .updNode _ s _
  exact .ite (hdue.trans (.updNode n s1 _)) ((hdue.trans (nodeStep_nodeAnswer ..)).trans (.updNode n _ _))

theorem stays_scrub (s : State) : Stays .scrub s := by
  refine .device rfl rfl ?_
  split
  · exact .refl s
  · refine DevStep.trans ?_ (.upd _ id)
    exact .memory s _ _ id

theorem stays_backgroundTestRegion (fails : BitVec 16) (s : State) : Stays (.backgroundTestRegion fails) s :=
  .device rfl rfl (.ite (.refl s) (((devStep_copyRegion s _).trans (.dev _ _)).trans (.upd _ id)))

theorem stays_regionRestore (s : State) : Stays .regionRestore s :=
  .device rfl rfl (.ite (.refl s) (((devStep_copyRegion s _).trans (.dev _ _)).trans (.upd _ id)))

theorem stays_fullMemoryTestEnd (mem : Fin 12) (addr : BitVec 32) (s : State) : Stays (.fullMemoryTestEnd mem addr) s :=
  .device rfl rfl (.ite (.refl s) ((DevStep.memory s _ .reset (fun _ => MemSt.wf_reset)).trans (.upd _ id)))

theorem stays_dictionaryRead (p : Port) (h : Kda) (items : List RdItem) (s : State) : Stays (.dictionaryRead p h items) s :=
  .device rfl rfl (.ite (devStep_serveBare (fun s => devStep_answerRead s false items) ..)
    (devStep_serveRequest (fun s _ => devStep_answerRead s true items) ..))

theorem stays_segmentedRead (p : Port) (h : Kda) (idx : BitVec 16) (sub : BitVec 8) (off : BitVec 32) (max : BitVec 16) (s : State) :
    Stays (.segmentedRead p h idx sub off max) s :=
  .device rfl rfl (.ite (devStep_serveBare (fun s => .iteFst (.dev s _) (devStep_segReadBare ..)) ..)
    (devStep_serveRequest (fun s _ => .iteFst (.dev s _) (devStep_segRead ..)) ..))

theorem stays_segmentedAbort (p : Port) (h : Kda) (idx : BitVec 16) (sub : BitVec 8) (total : BitVec 32) (s : State) :
    Stays (.segmentedAbort p h idx sub total) s := by
  refine .device rfl rfl (devStep_serveRequest (fun s x => ?_) ..)
  split
  · exact .dev s _
  · exact .refl s

theorem stays_segmentedData (p : Port) (h : Kda) (idx : BitVec 16) (sub : BitVec 8) (total off : BitVec 32) (data : Bytes) (s : State) :
    Stays (.segmentedData p h idx sub total off data) s :=
  .device rfl rfl (devStep_serveRequest (fun s _ => .iteFst (.dev s _) (devStep_segData ..)) ..)

theorem stays_segmentedBegin (p : Port) (h : Kda) (idx : BitVec 16) (sub : BitVec 8) (total : BitVec 32) (s : State) :
    Stays (.segmentedBegin p h idx sub total) s :=
  .device rfl rfl (devStep_serveRequest (fun _ _ => devStep_segBegin ..) ..)

theorem stays_imageSubscription (p : Port) (h : Kda) (period : BitVec 16) (s : State) : Stays (.imageSubscription p h period) s :=
  .device rfl rfl (devStep_serveRequest (fun s _ => .iteFst (.dev s _) (.iteFst (.refl s) (.dev s _))) ..)

theorem stays_eventSubscription (p : Port) (h : Kda) (mask : BitVec 8) (s : State) : Stays (.eventSubscription p h mask) s :=
  .device rfl rfl (devStep_serveRequest (fun s _ => .iteFst (.dev s _) (.iteFst (.refl s) (.dev s _))) ..)

theorem stays_controlInstant (s : State) : Stays .controlInstant s := by
  refine .island rfl ⟨rfl, rfl⟩ (.ite (.refl s) ?_)
  extract_lets s1 s2 s3
  exact (((IslStep.upd s _).trans (islStep_activateImage s1)).trans (.upd s2 _)).trans (.dev s3 _)

theorem stays_forwardedItemApply (s : State) : Stays .forwardedItemApply s :=
  .island rfl ⟨rfl, rfl⟩ ((IslStep.dev s _).trans (.foldl (fun s _ => islStep_applyItem s _) _ _))

theorem stays_fieldFrameReceived (l : Line) (k : FNode) (kind : Fin 4) (cable : Chan) (crcOk : Bool) (inv err : BitVec 8)
    (dev : BitVec 32) (alarm waited : Bool) (cyc : BitVec 3) (body : Bytes) (s : State) :
    Stays (.fieldFrameReceived l k kind cable crcOk inv err dev alarm waited cyc body) s := by
  refine .island rfl ⟨rfl, rfl⟩ ?_
  extract_lets g s1 d h v out note share keep
  have hcount : IslStep s s1 := .upd s _
  have hset (f : Dev → Dev) : IslStep s (upd s1 f) := hcount.trans (.upd s1 f)
  have hsafety (i : IslandSt) : IslStep s (islandSettle { (upd s1 note) with isl := i }) :=
    (hset note).trans ((Loose.parts (upd s1 note) (upd s1 note).dev i).settle)
  exact .ite hcount <| .ite (hset _) <| .ite hcount <| .ite (.ite hcount (hset _)) <| .ite (.ite hcount (hset _)) <|
    .ite (.ite (hset note) (hsafety _)) (hset note)

theorem stays_supplyWarning (s : State) : Stays .supplyWarning s := by
  refine .island rfl ⟨rfl, rfl⟩ ?_
  have hstore (t : State) : IslStep t (if bit (og t.dev 0x2000 1) 1 && t.isl.storing.isSome then
      { t with isl := { t.isl with storing := none, storeStatus := 3 } } else t) := .ite (.isl t _ t.dev rfl) (.refl t)
  exact .ite (.refl s) ((IslStep.upd s _).trans (hstore _))

theorem stays_resetLevelFall (s : State) : Stays .resetLevelFall s := by
  refine .island rfl ⟨rfl, rfl⟩ (.ite (.refl s) ⟨rfl, rfl, fun _ => ?_, fun _ => MemSt.wf_reset⟩)
  exact ⟨fun _ => ⟨rfl, rfl⟩, fun n hn hon => by
    simp [IslandSt.reset] at hon⟩

theorem stays_bringUp (hw : BitVec 4) (testEn below vbak : Bool) (s : State) : Stays (.bringUp hw testEn below vbak) s := by
  refine .island rfl ⟨rfl, rfl⟩ (.ite (.refl s) ?_)
  exact ((IslStep.ite (islStep_islandStart s false) (.refl s)).trans (.upd _ _)).trans (Loose.refl _).settle

theorem stays_sessionConfirm (p : Port) (h : Kda) (s : State) : Stays (.sessionConfirm p h) s := by
  refine .island rfl ⟨rfl, rfl⟩ ?_
  split
  · exact .upd s _
  · exact .ite (.upd s _) (.ite ((IslStep.upd s _).trans (islStep_openCommission _)) (.upd s _))

theorem stays_sessionClose (p : Port) (h : Kda) (s : State) : Stays (.sessionClose p h) s := by
  refine .island rfl ⟨rfl, rfl⟩ ?_
  split
  · exact .upd s _
  · exact (IslStep.upd s _).trans (islStep_closeSession _ _)

theorem stays_sessionIdleTimeout (id : BitVec 32) (s : State) : Stays (.sessionIdleTimeout id) s := by
  refine .island rfl ⟨rfl, rfl⟩ ?_
  split
  · exact .ite (islStep_closeSession s _) (.refl s)
  · exact .refl s

theorem stays_segmentedEnd (p : Port) (h : Kda) (idx : BitVec 16) (sub : BitVec 8) (total : BitVec 32) (s : State) :
    Stays (.segmentedEnd p h idx sub total) s :=
  .island rfl ⟨rfl, rfl⟩ (islStep_serveRequest (fun _ _ => islStep_segEnd ..) ..)

theorem stays_dictionaryWrite (p : Port) (h : Kda) (items : List WrItem) (s : State) : Stays (.dictionaryWrite p h items) s :=
  .island rfl ⟨rfl, rfl⟩ (islStep_serveRequest (fun _ _ => islStep_answerWrite ..) ..)

theorem stays_islandCycle (a b c e : Bool) (read ovr : BitVec 8) (s : State) : Stays (.islandCycle a b c e read ovr) s := by
  refine .island rfl ⟨rfl, rfl⟩ (.ite (.refl s) ?_)
  have hfault (i : IslandSt) (c : Nat) : IslStep s (islandSettle (freezePdus (islandFault { s with isl := i } c))) :=
    ((Loose.parts s s.dev i).islandFault c).freezePdus.settle
  have hisl (i : IslandSt) : Loose s { s with isl := i } := .parts s s.dev i
  refine .ite (hfault _ 4) <| .ite (hfault _ 2) <| .ite (hfault _ 3) <| .ite (hfault _ 1) <| .ite ?_ ?_
  · exact (hisl _).settle
  · exact (hisl _).handover.settle

theorem stays_islandSelfTestDone (pass : Bool) (s : State) : Stays (.islandSelfTestDone pass) s :=
  .island rfl ⟨rfl, rfl⟩ (.ite (.refl s) (.ite ((Loose.parts s _ s.isl).islandFault 0).settle ((Loose.parts s _ _).islandState _).settle))

theorem stays_safetyStoreComplete (ok : Bool) (s : State) : Stays (.safetyStoreComplete ok) s := by
  refine .island rfl ⟨rfl, rfl⟩ ?_
  split
  · exact .refl s
  · exact .ite (.isl s _ _ rfl) (.isl s _ s.dev rfl)

/-- What remains is one of few shapes: a change of the device, or of the island that settles, under at most one condition. -/
theorem exec_stays (c : Instr) (s : State) : Stays c s := by
  cases c
  case nodeApplyInstant => exact stays_nodeApplyInstant ..
  case nodeRollCallFrame => exact stays_nodeRollCallFrame ..
  case nodeCopyReceived => exact stays_nodeCopyReceived ..
  case nodeSummationReceived => exact stays_nodeSummationReceived ..
  case nodeSendInstant => exact stays_nodeSendInstant ..
  case nodeSafetyPdu => exact stays_nodeSafetyPdu ..
  case nodeMailboxRequest => exact stays_nodeMailboxRequest ..
  case nodeTargetMissing => exact .node rfl rfl (.ite (.updNode _ s _) (.refl _ s))
  case nodeFrameLockTaken => exact .node rfl rfl (.ite (.self _ s _) (.refl _ s))
  case nodeFrameLockLost => exact .node rfl rfl (.ite (.self _ s _) (.refl _ s))
  case nodeWrapStart | nodeWrapEnd | nodeSampleInstant | nodeCycleStart | safetyWatchdogExpiry =>
    exact .node rfl rfl (.updNode _ s _)
  case scrub => exact stays_scrub s
  case memoryAccess reqs =>
    obtain ⟨t, h, ht⟩ := devStep_memoryAccess reqs s
    exact .device h rfl ht
  case backgroundTestRegion => exact stays_backgroundTestRegion ..
  case regionRestore => exact stays_regionRestore s
  case fullMemoryTestEnd => exact stays_fullMemoryTestEnd ..
  case dictionaryRead => exact stays_dictionaryRead ..
  case segmentedRead => exact stays_segmentedRead ..
  case segmentedAbort => exact stays_segmentedAbort ..
  case segmentedData => exact stays_segmentedData ..
  case segmentedBegin => exact stays_segmentedBegin ..
  case imageSubscription => exact stays_imageSubscription ..
  case eventSubscription => exact stays_eventSubscription ..
  case segmentedTimeout | snapshotReleaseTimeout => exact .device rfl rfl (.dev s _)
  case controlInstant => exact stays_controlInstant s
  case forwardedItemApply => exact stays_forwardedItemApply s
  case fieldFrameReceived => exact stays_fieldFrameReceived ..
  case supplyWarning => exact stays_supplyWarning s
  case resetLevelFall => exact stays_resetLevelFall s
  case bringUp => exact stays_bringUp ..
  case sessionConfirm => exact stays_sessionConfirm ..
  case sessionClose => exact stays_sessionClose ..
  case sessionIdleTimeout => exact stays_sessionIdleTimeout ..
  case segmentedEnd => exact stays_segmentedEnd ..
  case dictionaryWrite => exact stays_dictionaryWrite ..
  case islandCycle => exact stays_islandCycle ..
  case islandSelfTestDone => exact stays_islandSelfTestDone ..
  case safetyStoreComplete => exact stays_safetyStoreComplete ..
  case pairSafetyMessage => exact .island rfl ⟨rfl, rfl⟩ (.ite (.upd s _) (.ite (Loose.parts s _ _).settle (.refl s)))
  case siChangeAccepted =>
    refine .island rfl ⟨rfl, rfl⟩ (.ite (.refl s) (.trans ?_ (.upd _ _)))
    exact .isl s _ s.dev rfl
  case testPulse => exact .island rfl ⟨rfl, rfl⟩ (.ite (.refl s) (Loose.parts s s.dev _).settle)
  case soOffPulse | discrepancyTimeout | permitDelayEnd | unlockRundownEnd =>
    exact .island rfl ⟨rfl, rfl⟩ (.ite (Loose.parts s s.dev _).settle (.refl s))
  case vsoRangeChange => exact .island rfl ⟨rfl, rfl⟩ (Loose.parts s _ _).settle
  case safetyBlockWrite => exact .island rfl ⟨rfl, rfl⟩ ((islStep_blockWrite ..).trans (.dev _ _))
  case confirmationWrite => exact .island rfl ⟨rfl, rfl⟩ ((islStep_confirmWrite ..).trans (.dev _ _))
  case safetyStore => exact .island rfl ⟨rfl, rfl⟩ ((islStep_safetyStore s).trans (.dev _ _))
  case counterClear => exact .island rfl ⟨rfl, rfl⟩ ((islStep_counterWrite ..).trans (.dev _ _))
  case islandRestart => exact .island rfl ⟨rfl, rfl⟩ (.ite (.dev s _) ((islStep_islandStart s true).trans (.dev _ _)))
  case sourceAssertion | wireFault | lastCommitComplete | commitEntryJournal | warningEnd | keyRemoved | keyInserted | journalWrite
      | journalRetry | sensorSample | bringUpComplete =>
    exact .device rfl rfl (.ite (.refl s) (.upd s _))
  case blockSelfTestDone | domainInWindow | stateRecordRefresh | managementWatchdog => exact .device rfl rfl (.ite (.upd s _) (.refl s))
  case vbakLoss => exact .device rfl rfl (.ite (.refl s) (.dev s _))
  all_goals exact .upd _ rfl rfl

/-! What a kind says of the whole state. -/

theorem Effect.pending {c : Instr} {s t : State} (h : Effect c s t) : t.pending = s.pending := by
  cases h with
  | device _ h => exact h.pending
  | island _ _ h => exact h.pending
  | node n _ h => rw [h.frame]

theorem Effect.mem {c : Instr} {s t : State} (h : Effect c s t) : s.mem.wf → t.mem.wf := by
  cases h with
  | device _ h => exact h.mem
  | island _ _ h => exact h.mem
  | node n _ h => rw [h.frame]; exact id

theorem Effect.outputs {c : Instr} {s t : State} (h : Effect c s t) : OutputsSafe s.isl → OutputsSafe t.isl := by
  cases h with
  | device _ h => exact h.island.outputs
  | island _ _ h => exact h.outputs
  | node n _ h => rw [h.frame]; exact id

theorem Effect.isl {c : Instr} {s t : State} (h : Effect c s t) (hr : reachesIsland c = false) : t.isl = s.isl := by
  cases h with
  | device _ h => exact h.isl
  | island _ hc _ => simp [hr] at hc
  | node n _ h => rw [h.frame]

/-- The state a command is answered with is the one its kind speaks of. -/
theorem effect_of_exec {c : Instr} {s t : State} (h : exec c s = .next t) : Effect c s t := by
  obtain ⟨u, hu, he⟩ := exec_stays c s
  obtain rfl : t = u := by simpa using h.symm.trans hu
  exact he

/-- A step idles, or is the front command's on the state with the queue's rest. -/
theorem step_next {s t : State} (h : step s = .next t) :
    t = s ∨ ∃ c rest, s.pending = c :: rest ∧ Effect c { s with pending := rest } t := by
  unfold step at h
  split at h
  · exact .inl (by simpa using h.symm)
  case h_2 c rest hp => exact .inr ⟨c, rest, hp, effect_of_exec h⟩

/-- Settles O1: `step` is defined so, one clause for each form of the queue. -/
theorem stepRunsTheFrontCommand : Obligations.StepRunsTheFrontCommand := by
  unfold Obligations.StepRunsTheFrontCommand
  exact ⟨fun c rest s hp => by simp only [step, hp], fun s hp => by simp only [step, hp]⟩

/-- Settles O2: no arm of `exec` answers a fault or a refusal, and no kind of command touches the queue. -/
theorem everyCommandAnswersAndKeepsTheQueue : Obligations.EveryCommandAnswersAndKeepsTheQueue := by
  unfold Obligations.EveryCommandAnswersAndKeepsTheQueue
  intro c s
  obtain ⟨t, ht, he⟩ := exec_stays c s
  exact ⟨t, ht, he.pending⟩

/-- Settles O4: every command keeps the canonical form, whatever its kind. -/
theorem sharedMemoryStaysCanonical : Obligations.SharedMemoryStaysCanonical := by
  unfold Obligations.SharedMemoryStaysCanonical
  intro s t hwf hstep
  rcases step_next hstep with rfl | ⟨c, rest, -, he⟩
  · exact hwf
  · exact he.mem hwf

/-- Settles O6: a command of the device or of a node leaves the island as it is. -/
theorem noOtherBlockWritesTheIsland : Obligations.NoOtherBlockWritesTheIsland := by
  unfold Obligations.NoOtherBlockWritesTheIsland
  exact fun c s t hr ht => (effect_of_exec ht).isl hr

/-- Settles O7: the island ends each change with its outputs brought up to date, and every other command leaves the outputs alone. -/
theorem safetyOutputsStaySafe : Obligations.SafetyOutputsStaySafe := by
  unfold Obligations.SafetyOutputsStaySafe
  intro s t hsafe hstep
  rcases step_next hstep with rfl | ⟨c, rest, -, he⟩
  · exact hsafe
  · exact he.outputs hsafe

/-- Settles O8: the nodes by the kind of the command. -/
theorem nodeCommandsChangeOneNode : Obligations.NodeCommandsChangeOneNode := by
  unfold Obligations.NodeCommandsChangeOneNode
  intro c s t ht
  cases effect_of_exec ht with
  | device hn h => rw [hn]; exact h.nodes
  | island hn _ h => rw [hn]; exact h.nodes
  | node n hn h => rw [hn]; exact ⟨h.frame, h.others⟩

/-! ## Defaults of the axes' objects -/

/-- A row of the axis tables: one object of each of the 512 axes (R25). -/
def Row.ofAxes (r : Row) : Bool := decide (0x8000 ≤ r.base) && decide (r.base < 0x8040) && decide (r.stride = 0x40) && decide (r.count = 512)

theorem Row.covers_ax {r : Row} (hr : r.ofAxes = true) {n o : Nat} (hn : n < 512) (ho : o < 0x40) (sub : Nat) :
    r.covers (ax n o) sub = r.covers (ax 0 o) sub := by
  simp only [Row.ofAxes, Bool.and_eq_true, decide_eq_true_eq] at hr
  obtain ⟨⟨⟨hlo, hhi⟩, hs⟩, hc⟩ := hr
  have hiff : (r.base ≤ ax n o ∧ (ax n o - r.base) % 0x40 = 0 ∧ (ax n o - r.base) / 0x40 < 512) ↔
      (r.base ≤ ax 0 o ∧ (ax 0 o - r.base) % 0x40 = 0 ∧ (ax 0 o - r.base) / 0x40 < 512) := by
    simp only [ax]; omega
  rw [Bool.eq_iff_iff]
  simp only [Row.covers, hs, hc, Bool.and_eq_true, decide_eq_true_eq]
  tauto

theorem rowsFor_ax {n o : Nat} (hn : n < 512) (ho : o < 0x40) :
    rowsFor (ax n o) = if o < 0x10 then rowsAxisA else if o < 0x20 then rowsAxisB else if o < 0x30 then rowsAxisC else rowsAxisD := by
  have hlow (b : Nat) (hb : b ≤ 0x8000) : ¬ ax n o < b := by unfold ax; omega
  have hhigh : ax n o < 0x10000 := by unfold ax; omega
  have hmod : (ax n o - 0x8000) % 0x40 = o := by unfold ax; omega
  simp [rowsFor, hhigh, hmod, hlow]

/-- Every axis has the objects of axis 0. -/
theorem findRow_ax {n o : Nat} (hn : n < 512) (ho : o < 0x40) (sub : Nat) : findRow (ax n o) sub = findRow (ax 0 o) sub := by
  have hall : ∀ r ∈ rowsFor (ax 0 o), r.ofAxes = true := by
    rw [rowsFor_ax (by omega) ho]
    split
    · decide
    split
    · decide
    split <;> decide
  unfold findRow
  rw [rowsFor_ax hn ho, ← rowsFor_ax (n := 0) (by omega) ho]
  exact List.find?_congr fun r hr => Row.covers_ax (hall r hr) hn ho sub
/-- An axis object with a plain default has it in every axis. -/
theorem objDefault_ax {n o sub v : Nat} (hn : n < 512) (ho : o < 0x40) (hs : sub < 256)
    (h : (findRow (ax 0 o) sub).map Row.dfl = some (.num v)) : objDefault (okey (ax n o) sub) = v := by
  have h1 : okey (ax n o) sub / 256 = ax n o := by unfold okey; omega
  have h2 : okey (ax n o) sub % 256 = sub := by unfold okey; omega
  obtain ⟨r, hr, hd⟩ := Option.map_eq_some_iff.1 h
  simp only [objDefault, h1, h2, findRow_ax hn ho, hr, hd]

/-- Settles O3: each clause is a value of the reset state; the states of a segment and of an axis are defaults of their objects. -/
theorem resetState : Obligations.ResetState := by
  unfold Obligations.ResetState
  have haxis (o : Nat) (ho : o < 0x40) (h : (findRow (ax 0 o) 1).map Row.dfl = some (.num 0)) (n : Ax) :
      objDefault (okey (ax n.val o) 1) = 0 := objDefault_ax n.isLt ho (by decide) h
  refine ⟨⟨by decide, by decide, by decide, by decide, rfl, rfl, rfl, fun _ => rfl, by decide, fun n => ?_, by decide, by decide, by decide,
    rfl⟩, rfl, fun _ => ⟨rfl, rfl⟩, fun n hn hon => ?_⟩
  · exact ⟨haxis 9 (by decide) (by decide) n, haxis 1 (by decide) (by decide) n⟩
  · simp [State.reset, IslandSt.reset] at hon

end Sys2Proof.Machine
end

section
/-! ## A report in the calm case -/
namespace Sys2Proof.Machine

/-- The device once a new report is noticed: a level source's own assertion sets its condition and its status (R419, R527). -/
def noticed (d : Dev) (r : Report) : Dev :=
  if levelSource r.src && !r.wire && !r.force then
    sourceStatus { d with fc := { d.fc with cond := setBit d.fc.cond r.src true } } r.src r.datum
  else d

/-- The log entry of a report with number `q` (R381). -/
def reportEntry (d : Dev) (r : Report) (q : Nat) : LogEntry :=
  ⟨q, localNs d, segNs d, 1 + 4 * b2n r.wire + 8 * b2n r.force + epochFlag d, r.src, r.cause, r.datum⟩

/-- What a report whose source is not live leaves of device `d`, where its reaction is at most I and E and nothing is dropped. -/
structure Reported (d : Dev) (r : Report) (e : Dev) : Prop where
  frame : e = { d with objs := e.objs, fc := e.fc, host := e.host, acq := e.acq }
  kept : ObjsKept d e (reportKeys r.src)
  count : og e (0x3840 + r.src) 0 = og d (0x3840 + r.src) 0 + 1
  first : og d 0x3800 2 = 0xFF → og e 0x3800 2 = r.src ∧ og e 0x3800 3 = d.fc.nextSeq ∧ og e 0x3800 6 = r.cause ∧
    og e 0x3800 7 = r.datum ∧ og e 0x3800 8 = b2n r.wire + 2 * b2n r.force
  later : og d 0x3800 2 ≠ 0xFF → og e 0x3800 1 = 1 ∧ ∀ i, 2 ≤ i → i ≤ 8 → og e 0x3800 i = og d 0x3800 i
  supply : ∀ b, b ≠ 5 → bit (og e 0x2000 1) b = bit (og d 0x2000 1) b
  fc : e.fc = { d.fc with
    nextSeq := d.fc.nextSeq + 1
    errPins := d.fc.errPins || bit (og d (0x3900 + r.src) 1) 4
    log := if bit (og d (0x3900 + r.src) 1) 0 then d.fc.log ++ [reportEntry d r d.fc.nextSeq] else d.fc.log
    waiting := d.fc.waiting + b2n (bit (og d (0x3900 + r.src) 1) 0)
    cond := e.fc.cond }
  cond : ∀ b, b ≠ 185 → bit e.fc.cond b = (bit d.fc.cond b || (levelSource r.src && !r.wire && !r.force && b = r.src))

/-- The objects a noticed report may change. -/
def noticeKeys : List Nat := [okey 0x2000 1, okey 0x2010 2, okey 0x2010 3, okey 0x2020 1, okey 0x2020 2, okey 0x2020 3]

/-- A bit other than the one written. -/
theorem setBit_self (v n : Nat) : bit (setBit v n true) n = true := by simp [bit_setBit]

theorem noticed_spec {d : Dev} (r : Report) (h2 : og d 0x2020 2 < 0xFFFFFFFE) (h3 : og d 0x2020 3 < 0xFFFFFFFE) :
    noticed d r = { d with objs := (noticed d r).objs, fc := { d.fc with cond := (noticed d r).fc.cond } } ∧
    ObjsKept d (noticed d r) noticeKeys ∧
    (∀ b, b ≠ 5 → bit (og (noticed d r) 0x2000 1) b = bit (og d 0x2000 1) b) ∧
    ∀ b, bit (noticed d r).fc.cond b = (bit d.fc.cond b || (levelSource r.src && !r.wire && !r.force && b = r.src)) := by
  unfold noticed
  cases hl : levelSource r.src && !r.wire && !r.force
  · exact ⟨rfl, .refl d _, fun _ _ => rfl, fun b => by simp⟩
  · obtain ⟨hframe, hkept, hbits⟩ :=
      sourceStatus_frame { d with fc := { d.fc with cond := setBit d.fc.cond r.src true } } r.src r.datum h2 h3
    rw [if_pos rfl]
    refine ⟨by rw [hframe], hkept, hbits, fun b => ?_⟩
    rw [hframe]
    show bit (setBit d.fc.cond r.src true) b = _
    rw [bit_setBit]
    by_cases hb : b = r.src <;> simp [hb]

/-- The keys of a report's objects, for an object of another index. -/
theorem not_mem_reportKeys {src k : Nat} (hc : k ≠ okey (0x3840 + src) 0) (hn : k ∉ noticeKeys)
    (hl : k < okey 0x3800 1 ∨ okey 0x3800 8 < k) : k ∉ reportKeys src := by
  simp only [reportKeys, noticeKeys, List.mem_append, List.mem_cons, List.mem_map, List.mem_range, List.not_mem_nil, or_false] at hn ⊢
  rintro ((h | h) | ⟨i, hi, rfl⟩)
  · exact hc h
  · exact hn h
  · unfold okey at hl; omega

/-- Objects a report does not reach read as before. -/
theorem ObjsKept.og {a b : Dev} {l : List Nat} (h : ObjsKept a b l) {i c : Nat} (hk : okey i c ∉ l) : og b i c = og a i c := h _ hk

theorem latch_first {d : Dev} (r : Report) (q : Nat) (h : og d 0x3800 2 = 0xFF) :
    og (latch d r q) 0x3800 2 = r.src ∧ og (latch d r q) 0x3800 3 = q ∧ og (latch d r q) 0x3800 6 = r.cause ∧
    og (latch d r q) 0x3800 7 = r.datum ∧ og (latch d r q) 0x3800 8 = b2n r.wire + 2 * b2n r.force := by
  simp [latch, h, og_os, okey]

theorem latch_later {d : Dev} (r : Report) (q : Nat) (h : og d 0x3800 2 ≠ 0xFF) :
    og (latch d r q) 0x3800 1 = 1 ∧ ∀ i, 2 ≤ i → i ≤ 8 → og (latch d r q) 0x3800 i = og d 0x3800 i := by
  simp only [latch, if_neg h, og_os_same, true_and]
  intro i hi _
  rw [og_os, if_neg (by unfold okey; omega)]

/-- A reaction of at most I and E: the pins and the log (R381, R382). -/
theorem react_calm {d : Dev} {r : Report} {q : Nat} (hcfg : ∀ b ∈ [1, 2, 3], bit (og d (0x3900 + r.src) 1) b = false)
    (hw : commitWindow d = false) (hn : d.fc.waiting < 1024) (hlen : d.fc.log.length < 1024) :
    react d r (some q) = { d with fc := (react d r (some q)).fc, host := (react d r (some q)).host } ∧
    (react d r (some q)).fc = { d.fc with
      errPins := d.fc.errPins || bit (og d (0x3900 + r.src) 1) 4
      log := if bit (og d (0x3900 + r.src) 1) 0 then d.fc.log ++ [reportEntry d r q] else d.fc.log
      waiting := d.fc.waiting + b2n (bit (og d (0x3900 + r.src) 1) 0)
      cond := (react d r (some q)).fc.cond } ∧
    ∀ b, b ≠ 185 → bit (react d r (some q)).fc.cond b = bit d.fc.cond b := by
  have hT := hcfg 1 (by simp)
  have hB := hcfg 2 (by simp)
  have hC := hcfg 3 (by simp)
  simp only [react, hT, hB, hC, Bool.false_eq_true, if_false]
  set pins : Dev := if bit (og d (0x3900 + r.src) 1) 4 then { d with fc := { d.fc with errPins := true } } else d with hpins
  have hp : pins = { d with fc := { d.fc with errPins := d.fc.errPins || bit (og d (0x3900 + r.src) 1) 4 } } := by
    rw [hpins]
    cases bit (og d (0x3900 + r.src) 1) 4 <;> simp
  have hog (i c : Nat) : og pins i c = og d i c := by rw [hp]; rfl
  cases hI : bit (og d (0x3900 + r.src) 1) 0
  · rw [if_neg (by simp), hp]
    exact ⟨rfl, by simp [b2n], fun _ _ => rfl⟩
  · have hlog : faultLog pins r (some q) = bufferEntry pins (reportEntry d r q) := by
      have hent : reportEntry d r q = ⟨q, localNs pins, segNs pins, 1 + 4 * b2n r.wire + 8 * b2n r.force + epochFlag pins, r.src, r.cause, r.datum⟩ := by
        rw [hp]; rfl
      rw [hent]
      exact logEntry_room (by rw [hp]; exact hw) (by rw [hp]; exact hn)
    rw [if_pos rfl, hlog, bufferEntry_frame, bufferEntry_fc (by rw [hp]; exact hlen)]
    refine ⟨by rw [hp], by rw [hp]; simp [b2n], fun b hb => ?_⟩
    show bit (setBit pins.fc.cond 185 false) b = _
    rw [bit_setBit_ne hb, hp]

/-- The device once a new report is counted. -/
def countedReport (d : Dev) (r : Report) : Dev := bump (noticed d r) (0x3840 + r.src) 0

/-- The device a new report hands to its reactions: counted, numbered, latched and noted (R376, R386, R388). -/
def recorded (d : Dev) (r : Report) : Dev :=
  noteFault (latch (number (countedReport d r)).1 r ((number (countedReport d r)).2.getD 0)) r.src (number (countedReport d r)).2

/-- A report whose source is not live is a new one, whatever its flags (R375, R387, R391). -/
theorem assertReport_notLive {d : Dev} {r : Report} (hr : ready d 2 = true) (hl : live d r.src = false) :
    assertReport d r = (react (recorded d r) r (number (countedReport d r)).2, (number (countedReport d r)).2) := by
  have hc : bit d.fc.cond r.src = false := by
    simp only [live, Bool.or_eq_false_iff] at hl
    exact hl.1.1
  simp only [assertReport, hr, hl, hc, Bool.not_true, Bool.false_eq_true, if_false, Bool.and_false, Bool.false_and]
  rfl

theorem Calm.src_lt {d : Dev} {src : Nat} (h : Calm d src) : src < 192 := by
  obtain ⟨-, -, hres, -⟩ := h
  simp only [reservedSource, Bool.or_eq_false_iff, decide_eq_false_iff_not] at hres
  omega

/-- In the calm case a new report changes its counter beside what it is noticed by. -/
theorem countedReport_calm {d : Dev} {r : Report} (h : Calm d r.src) :
    countedReport d r = os (noticed d r) (0x3840 + r.src) 0 (og d (0x3840 + r.src) 0 + 1) ∧
    ObjsKept d (countedReport d r) (okey (0x3840 + r.src) 0 :: noticeKeys) ∧
    number (countedReport d r) =
      ({ countedReport d r with fc := { (countedReport d r).fc with nextSeq := d.fc.nextSeq + 1 } }, some d.fc.nextSeq) := by
  have hsrc := h.src_lt
  obtain ⟨hready, hseal, -, -, -, -, -, -, hcnt, h2, h3⟩ := h
  obtain ⟨hframe, hkept, hbits, -⟩ := noticed_spec r h2 h3
  have hcn : og (noticed d r) (0x3840 + r.src) 0 = og d (0x3840 + r.src) 0 := hkept.og (by simp [noticeKeys, okey]; omega)
  have hcount : countedReport d r = os (noticed d r) (0x3840 + r.src) 0 (og d (0x3840 + r.src) 0 + 1) := by
    rw [countedReport, bump_small (by omega), hcn]
  have hck : ObjsKept d (countedReport d r) (okey (0x3840 + r.src) 0 :: noticeKeys) := by
    rw [hcount]
    exact (hkept.mono (List.subset_cons_self _ _)).os _ _ _ (by simp)
  have hcready : ready (countedReport d r) 2 = true := by
    rw [ready, hck.og (by simp [noticeKeys, okey]; omega)]; exact hready
  have hcseal : sealed (countedReport d r) = false := by
    have hsup : og (countedReport d r) 0x2000 1 = og (noticed d r) 0x2000 1 := by
      rw [hcount, og_os, if_neg (by unfold okey; omega)]
    rw [sealed, hsup, hbits 2 (by decide)]; exact hseal
  have hseq : (countedReport d r).fc.nextSeq = d.fc.nextSeq := by rw [hcount, os_fc, hframe]
  exact ⟨hcount, hck, by rw [number_ready hcready hcseal, hseq]⟩

/-- What the reactions of a calm report find: all but what they do themselves. -/
theorem recorded_calm {d : Dev} {r : Report} (h : Calm d r.src) :
    recorded d r = { d with objs := (recorded d r).objs, acq := (recorded d r).acq
                            fc := { d.fc with nextSeq := d.fc.nextSeq + 1, cond := (noticed d r).fc.cond } } ∧
    ObjsKept d (recorded d r) (reportKeys r.src) ∧
    ∃ m, (∀ i c, og m i c = og (countedReport d r) i c) ∧ ∀ i c, og (recorded d r) i c = og (latch m r d.fc.nextSeq) i c := by
  obtain ⟨hcount, hkept, hnum⟩ := countedReport_calm h
  obtain ⟨-, -, -, -, -, -, -, -, -, h2, h3⟩ := h
  obtain ⟨hframe, -, -, -⟩ := noticed_spec r h2 h3
  have hrec : recorded d r = noteFault (latch (number (countedReport d r)).1 r d.fc.nextSeq) r.src (some d.fc.nextSeq) := by
    rw [recorded, hnum, Option.getD_some]
  have hcf : countedReport d r = { d with objs := (countedReport d r).objs, fc := { d.fc with cond := (noticed d r).fc.cond } } := by
    rw [hcount, hframe]; rfl
  have hnote := fun m : Dev => noteFault_frame (latch m r d.fc.nextSeq) r.src (some d.fc.nextSeq)
  rw [hnum] at hrec
  generalize recorded d r = e at hrec ⊢
  generalize countedReport d r = c at hkept hrec hcf ⊢
  refine ⟨?_, ?_, { c with fc := { c.fc with nextSeq := d.fc.nextSeq + 1 } }, fun _ _ => rfl, fun i k => by rw [hrec]; exact og_congr (by rw [hnote]) i k⟩
  · rw [hrec, hnote, latch_frame, hcf]
  · rw [hrec]
    have hmk : ObjsKept d { c with fc := { c.fc with nextSeq := d.fc.nextSeq + 1 } } (reportKeys r.src) :=
      (hkept.mono (by simp [reportKeys, noticeKeys])).congr rfl
    exact (hmk.trans ((latch_kept _ r _).mono (List.subset_append_right _ _))).congr (by rw [hnote])

/-- A report in the calm case: numbered, counted, latched, and logged and shown as its reaction says (R376-R388). -/
theorem assertReport_calm {d : Dev} {r : Report} (h : Calm d r.src) :
    (assertReport d r).2 = some d.fc.nextSeq ∧ Reported d r (assertReport d r).1 := by
  have hsrc := h.src_lt
  obtain ⟨hcount, -, hnum⟩ := countedReport_calm h
  obtain ⟨hrf, hrk, m, hmc, hrm⟩ := recorded_calm h
  obtain ⟨hready, -, -, hlive, hcfg, hwin, hwait, hlen, -, h2, h3⟩ := h
  obtain ⟨-, hnk, hnb, hnc⟩ := noticed_spec r h2 h3
  have hsupply (b : Nat) (hb : b ≠ 5) : bit (og (recorded d r) 0x2000 1) b = bit (og d 0x2000 1) b := by
    rw [hrm, (latch_kept m r _).og (by decide), hmc, hcount, og_os, if_neg (by unfold okey; omega), hnb b hb]
  have hlatch (c : Nat) (hc : c < 256) : og m 0x3800 c = og d 0x3800 c := by
    rw [hmc, hcount, og_os, if_neg (by unfold okey; omega), hnk.og (by simp [noticeKeys, okey]; omega)]
  have hcnt : og (recorded d r) (0x3840 + r.src) 0 = og d (0x3840 + r.src) 0 + 1 := by
    rw [hrm, (latch_kept m r _).og (by simp [List.range, List.range.loop, okey]; omega), hmc, hcount, og_os_same]
  have hcfgs : og (recorded d r) (0x3900 + r.src) 1 = og d (0x3900 + r.src) 1 :=
    hrk.og (not_mem_reportKeys (by unfold okey; omega) (by simp [noticeKeys, okey]; omega) (by unfold okey; omega))
  have hwin' : commitWindow (recorded d r) = false := by
    rw [commitWindow, hsupply 0 (by decide), hrf]; exact hwin
  obtain ⟨hef, hefc, hec⟩ := react_calm (r := r) (q := d.fc.nextSeq) (by rw [hcfgs]; exact hcfg) hwin' (by rw [hrf]; exact hwait)
    (by rw [hrf]; exact hlen)
  rw [assertReport_notLive hready hlive, hnum]
  rw [hcfgs] at hefc
  generalize react (recorded d r) r (some d.fc.nextSeq) = e at hef hefc hec ⊢
  generalize recorded d r = f at hrf hrk hrm hsupply hcnt hef hefc hec
  have hobjs : e.objs = f.objs := by rw [hef]
  have hog (i c : Nat) : og e i c = og (latch m r d.fc.nextSeq) i c := by rw [← hrm]; exact og_congr hobjs i c
  refine ⟨rfl, ⟨by rw [hef, hrf], hrk.congr hobjs, by rw [og_congr hobjs, hcnt], fun h0 => ?_, fun h0 => ?_,
    fun b hb => by rw [og_congr hobjs, hsupply b hb], ?_, fun b hb => ?_⟩⟩
  · simp only [hog]
    exact latch_first r _ ((hlatch 2 (by decide)).trans h0)
  · simp only [hog]
    obtain ⟨hov, hkeep⟩ := latch_later r d.fc.nextSeq (fun h => h0 ((hlatch 2 (by decide)).symm.trans h))
    exact ⟨hov, fun i h2 h8 => (hkeep i h2 h8).trans (hlatch i (by omega))⟩
  · have hepoch : epochFlag f = epochFlag d := by
      rw [epochFlag, hrk.og (not_mem_reportKeys (by unfold okey; omega) (by simp [noticeKeys, okey]) (by decide))]; rfl
    have htime : f.time = d.time := by rw [hrf]
    have hent : reportEntry f r d.fc.nextSeq = reportEntry d r d.fc.nextSeq := by
      simp only [reportEntry, localNs, segNs, hepoch, htime]
    rw [hent] at hefc
    rw [hefc, hrf]
  · rw [hec b hb, hrf]
    exact hnc b

end Sys2Proof.Machine
end

section
/-! ## Commands of the device and what they leave -/
namespace Sys2Proof.Machine

/-- A change of the device that reports nothing and resets nothing is what the command does. -/
theorem Does.of_upd {c : Instr} {s : State} {f : Dev → Dev} {P : Dev → Prop} (h : exec c s = .next (upd s f))
    (ht : (f s.dev).fc.todo = []) (hc : (f s.dev).power.cleared = false) (hp : P (f s.dev)) : Does c s P :=
  ⟨f s.dev, h.trans (by rw [upd_settled s f ht hc]), hp⟩

theorem Leaves.of_upd {c : Instr} {s : State} {f : Dev → Dev} {P : Dev → Prop} (h : exec c s = .next (upd s f)) (hp : P (f s.dev)) :
    Leaves c s P := ⟨f s.dev, h, hp⟩

theorem Idles.of_upd {c : Instr} {s : State} {f : Dev → Dev} (hs : Settled s) (h : exec c s = .next (upd s f)) (hf : f s.dev = s.dev) :
    Idles c s := h.trans (by rw [upd_settled s f (by rw [hf]; exact hs.1) (by rw [hf]; exact hs.2), hf])

theorem Answers.of_upd {c : Instr} {s : State} {f : Dev → Dev} {st : Status} (hs : Settled s) (h : exec c s = .next (upd s f))
    (hf : f s.dev = answer s.dev st) : Answers c s st :=
  h.trans (by rw [upd_settled s f (by rw [hf]; exact hs.1) (by rw [hf]; exact hs.2), hf])

/-- A command whose change of the device is known as that to `d`. -/
theorem Does.of_eq {c : Instr} {s : State} {f : Dev → Dev} {d : Dev} {P : Dev → Prop} (h : exec c s = .next (upd s f))
    (hf : f s.dev = d) (ht : d.fc.todo = []) (hc : d.power.cleared = false) (hp : P d) : Does c s P :=
  .of_upd h (by rw [hf]; exact ht) (by rw [hf]; exact hc) (by rw [hf]; exact hp)

/-- The device of a command's outcome. -/
def devOf : Host.Outcome State Fault Refusal → Dev
  | .next t => t.dev
  | _ => .reset

/-! ## Assertions of sources -/

/-- A device whose collector is ready, with the parity counter of cluster 0's scratchpad one short of its end (R388), and no reaction of
source 32. -/
def parityCounterFull : State :=
  { State.reset with dev := os (os (os Dev.reset 0x1010 0 4) 0x3E40 1 0xFFFFFFFE) 0x3920 1 0 }

/-- Refutes O9: an assertion of source 32 counts a parity error; when that saturates the counter 0x3E40.01, source 183 is reported too
(R388), so that two numbers are given, not one. -/
theorem not_assertionIsNumberedLatchedCountedAndLogged : ¬ Obligations.AssertionIsNumberedLatchedCountedAndLogged := by
  unfold Obligations.AssertionIsNumberedLatchedCountedAndLogged
  intro h
  have hcalm : Settled parityCounterFull ∧ Calm parityCounterFull.dev 32 ∧ bit parityCounterFull.dev.fc.wire 32 = false := by
    unfold Settled Calm; decide
  obtain ⟨hsettled, hcalm, hwire⟩ := hcalm
  obtain ⟨d, hexec, hseq, -⟩ := h 32 0 0 parityCounterFull hsettled hcalm hwire (fun _ h => absurd h (by decide))
  have hnext : (devOf (exec (.sourceAssertion 32 0 0) parityCounterFull)).fc.nextSeq = 2 := by decide
  rw [hexec] at hnext
  exact absurd (hseq.symm.trans hnext) (by decide)

/-- What ends with a source's condition (R419, R420, R429). -/
theorem sourceEnded_spec (d : Dev) (n : Nat) :
    sourceEnded d n = { d with objs := (sourceEnded d n).objs } ∧
    ObjsKept d (sourceEnded d n) [okey 0x2000 1, okey 0x2010 2, okey 0x2010 3, okey 0x2020 1] ∧
    (8 ≤ n → n ≤ 15 → bit (og (sourceEnded d n) 0x2010 3) (n - 8) = false) ∧
    (n = 1 → bit (og (sourceEnded d n) 0x2000 1) 5 = false) ∧
    (n = 2 → bit (og (sourceEnded d n) 0x2020 1) 0 = true) ∧
    (n = 3 → bit (og (sourceEnded d n) 0x2020 1) 1 = true ∧ bit (og (sourceEnded d n) 0x2020 1) 2 = true) ∧
    ∀ m, bit (og (sourceEnded d n) 0x2010 2) m = (bit (og d 0x2010 2) m || decide (m < 8 ∧ m + 8 = n) && bit (og d 0x2010 1) m) := by
  have hdom (m : Nat) (h : ¬ (8 ≤ n ∧ n ≤ 15)) : ¬ (m < 8 ∧ m + 8 = n) := by omega
  unfold sourceEnded
  split
  case isTrue h =>
    subst h
    exact ⟨rfl, (ObjsKept.refl d _).os _ _ _ (by simp), by omega, fun _ => by simp [osb, bit_setBit], by omega, by omega,
      fun m => by simp [osb, og_os, okey]⟩
  split
  case isTrue h =>
    subst h
    exact ⟨rfl, (ObjsKept.refl d _).os _ _ _ (by simp), by omega, by omega, fun _ => by simp [osb, bit_setBit], by omega,
      fun m => by simp [osb, og_os, okey]⟩
  split
  case isTrue h =>
    subst h
    exact ⟨rfl, ((ObjsKept.refl d _).os _ _ _ (by simp)).os _ _ _ (by simp), by omega, by omega, by omega,
      fun _ => by simp [osb, bit_setBit], fun m => by simp [osb, og_os, okey]⟩
  split
  case isFalse h1 h2 h3 h =>
    simp only [Bool.and_eq_true, decide_eq_true_eq] at h
    exact ⟨rfl, .refl d _, fun a b => absurd ⟨a, b⟩ h, fun e => absurd e h1, fun e => absurd e h2, fun e => absurd e h3,
      fun m => by simp [hdom m h]⟩
  case isTrue h1 h2 h3 h =>
    simp only [Bool.and_eq_true, decide_eq_true_eq] at h
    have hk := (ObjsKept.refl d [okey 0x2000 1, okey 0x2010 2, okey 0x2010 3, okey 0x2020 1]).os 0x2010 3
      (setBit (og d 0x2010 3) (n - 8) false) (by simp)
    have henable : og (osb d 0x2010 3 (n - 8) false) 0x2010 1 = og d 0x2010 1 := by simp [osb, og_os, okey]
    have hshown : og (osb d 0x2010 3 (n - 8) false) 0x2010 2 = og d 0x2010 2 := by simp [osb, og_os, okey]
    dsimp only
    rw [henable]
    cases hen : bit (og d 0x2010 1) (n - 8)
    · rw [if_neg Bool.false_ne_true]
      refine ⟨rfl, hk, fun _ _ => by simp [osb, bit_setBit], by omega, by omega, by omega, fun m => ?_⟩
      rw [hshown]
      by_cases hm : m < 8 ∧ m + 8 = n
      · obtain rfl : m = n - 8 := by omega
        simp [hen]
      · simp [hm]
    · rw [if_pos rfl]
      refine ⟨rfl, hk.os _ _ _ (by simp), fun _ _ => by simp [osb, og_os, okey, bit_setBit], by omega, by omega, by omega, fun m => ?_⟩
      rw [osb, og_os_same, bit_setBit, hshown]
      by_cases hm : m = n - 8
      · subst hm
        have hd : n - 8 < 8 ∧ n - 8 + 8 = n := by omega
        simp [hd, hen]
      · have hd : ¬ (m < 8 ∧ m + 8 = n) := by omega
        simp [hm, hd]

end Sys2Proof.Machine
end
section
namespace Sys2Proof.Machine

/-! ## When a source is asserted and when it ends -/

/-- A source that may not be asserted: a reserved one, and that of a domain that is off (R420). -/
theorem sourceAssertion_off {src : Src} {s : State} (cause : BitVec 16) (datum : BitVec 32)
    (h : reservedSource src.val = true ∨ 8 ≤ src.val ∧ src.val ≤ 15 ∧ bit (og s.dev 0x2010 1) (src.val - 8) = false) :
    Idles (.sourceAssertion src cause datum) s := by
  have hexec : exec (.sourceAssertion src cause datum) s = execSourceAssertion src cause datum s := rfl
  rw [Idles, hexec, execSourceAssertion, if_pos]
  rcases h with h | ⟨h8, h15, hd⟩
  · simp [h]
  · simp [h8, h15, hd]

/-- No scratchpad's parity is a level source. -/
theorem not_pad_of_levelSource {n : Nat} (h : levelSource n = true) : ¬ (32 ≤ n ∧ n ≤ 39) := by
  simp only [levelSource, Bool.or_eq_true, Bool.and_eq_true, decide_eq_true_eq] at h
  omega

/-- A level source whose condition stands is not asserted again (R527). -/
theorem sourceAssertion_stands {src : Src} {s : State} (cause : BitVec 16) (datum : BitVec 32) (hs : Settled s)
    (hr : ready s.dev 2 = true) (hl : levelSource src.val = true) (hc : bit s.dev.fc.cond src.val = true)
    (hw : bit s.dev.fc.wire src.val = false) : Idles (.sourceAssertion src cause datum) s := by
  have hexec : exec (.sourceAssertion src cause datum) s = execSourceAssertion src cause datum s := rfl
  have hpad := not_pad_of_levelSource hl
  rw [Idles, hexec, execSourceAssertion]
  split
  · rfl
  · refine congrArg _ ((upd_settled s _ ?_ ?_).trans ?_) <;>
      simp [hw, hpad, report, raise, assertReport, hr, hl, hc, hs.1, hs.2]

/-- The end of a condition takes the wire fault and what the source showed with it (R375, R419, R429). -/
theorem sourceDeasserted_does {src : Src} {s : State} (hs : Settled s) (hc : bit s.dev.fc.cond src.val = true) :
    Does (.sourceDeasserted src) s (fun d =>
      d = sourceEnded { s.dev with fc := { s.dev.fc with cond := setBit s.dev.fc.cond src.val false
                                                         wire := setBit s.dev.fc.wire src.val false } } src.val) := by
  have hd : deassert { s.dev with fc := { s.dev.fc with wire := setBit s.dev.fc.wire src.val false } } src.val =
      sourceEnded { s.dev with fc := { s.dev.fc with cond := setBit s.dev.fc.cond src.val false
                                                     wire := setBit s.dev.fc.wire src.val false } } src.val := if_pos hc
  have hframe := (sourceEnded_spec { s.dev with fc := { s.dev.fc with cond := setBit s.dev.fc.cond src.val false
                                                                      wire := setBit s.dev.fc.wire src.val false } } src.val).1
  refine .of_upd (f := fun d => deassert { d with fc := { d.fc with wire := setBit d.fc.wire src.val false } } src.val) rfl
    ?_ ?_ hd
  · show (deassert _ _).fc.todo = []
    rw [hd, hframe]; exact hs.1
  · show (deassert _ _).power.cleared = false
    rw [hd, hframe]; exact hs.2

theorem wireFault_short {src : Src} {both : Bool} {clocks : BitVec 16} {s : State} (h : clocks.toNat ≤ 2) :
    Idles (.wireFault src both clocks) s := by
  have hexec : exec (.wireFault src both clocks) s = execWireFault src both clocks s := rfl
  rw [Idles, hexec, execWireFault, if_pos h]

/-- A report of a wire fault is no report of the source's own condition. -/
theorem Reported.levelless {d e : Dev} {r : Report} (h : Reported d r e) (hw : (r.wire || r.force) = true) (b : Nat) (hb : b ≠ 185) :
    bit e.fc.cond b = bit d.fc.cond b := by
  rw [h.cond b hb]
  cases hwire : r.wire <;> simp_all

theorem Reported.settled {s : State} {r : Report} {e : Dev} (h : Reported s.dev r e) (hs : Settled s) :
    e.fc.todo = [] ∧ e.power.cleared = false :=
  ⟨by rw [h.fc]; exact hs.1, by rw [h.frame]; exact hs.2⟩

/-- A wire fault is reported with its flag, and shown in the wire-fault map (R375). -/
theorem wireFault_does {src : Src} {both : Bool} {clocks : BitVec 16} {s : State} (hs : Settled s) (h : 2 < clocks.toNat)
    (hcalm : Calm s.dev src.val) : Does (.wireFault src both clocks) s (fun d => ∃ e, Reported s.dev ⟨src.val, 0, 0, true, false, 0⟩ e ∧
      d = { osb e 0x3802 (src.val / 64 + 1) (src.val % 64) true with fc := { e.fc with wire := setBit e.fc.wire src.val true } }) := by
  have hexec : exec (.wireFault src both clocks) s = execWireFault src both clocks s := rfl
  obtain ⟨-, hrep⟩ := assertReport_calm (r := ⟨src.val, 0, 0, true, false, 0⟩) hcalm
  obtain ⟨htodo, hclr⟩ := hrep.settled hs
  rw [execWireFault, if_neg (by omega)] at hexec
  exact .of_upd hexec htodo hclr ⟨_, hrep, rfl⟩

/-! ## Force bits -/

/-- The write of a force bit without the enable (R391). -/
theorem forceWrite_locked {d : Dev} {n : Nat} (hr : ready d 2 = true) (hres : reservedSource n = false) (he : og d 0x3830 1 = 0) :
    forceWrite d n true = (d, .state) := by
  simp [forceWrite, hr, hres, he]

/-- The write that sets a force bit of a source that is not live (R391). -/
theorem forceWrite_set {d : Dev} {n : Nat} (hr : ready d 2 = true) (hres : reservedSource n = false) (he : og d 0x3830 1 ≠ 0)
    (hl : live d n = false) : forceWrite d n true = (os (assertReport d ⟨n, 0, 0, false, true, 0⟩).1 (0x3900 + n) 3 1, .ok) := by
  have hf : forced d n = false := by
    simp only [live, Bool.or_eq_false_iff] at hl
    exact hl.2
  simp [forceWrite, hr, hres, he, hf]

theorem forceWrite_clear {d : Dev} {n : Nat} (hr : ready d 2 = true) (hres : reservedSource n = false) :
    forceWrite d n false = (os d (0x3900 + n) 3 0, .ok) := by
  simp [forceWrite, hr, hres]

/-- A force bit that is set asserts its source with the force flag (R391). -/
theorem forceWrite_does {src : Src} {s : State} (hs : Settled s) (he : og s.dev 0x3830 1 ≠ 0) (hcalm : Calm s.dev src.val) :
    Does (.forceWrite src true) s (fun d => ∃ e, Reported s.dev ⟨src.val, 0, 0, false, true, 0⟩ e ∧
      d = answer (os e (0x3900 + src.val) 3 1) .ok) := by
  obtain ⟨-, hrep⟩ := assertReport_calm (r := ⟨src.val, 0, 0, false, true, 0⟩) hcalm
  obtain ⟨htodo, hclr⟩ := hrep.settled hs
  obtain ⟨hr, -, hres, hl, -⟩ := hcalm
  have hset := forceWrite_set hr hres he hl
  refine .of_upd (f := fun d => let (d, st) := forceWrite d src.val true; answer d st) rfl ?_ ?_ ⟨_, hrep, ?_⟩ <;>
    simp only [hset]
  · exact htodo
  · exact hclr

/-- Zeroes written to sub-index `c` of consecutive objects. -/
def zeroed (d : Dev) (i c n : Nat) : Dev := (List.range n).foldl (fun d k => os d (i + k) c 0) d

theorem zeroed_succ (d : Dev) (i c n : Nat) : zeroed d i c (n + 1) = os (zeroed d i c n) (i + n) c 0 := by
  simp [zeroed, List.range_succ]

theorem zeroed_frame (d : Dev) (i c n : Nat) : zeroed d i c n = { d with objs := (zeroed d i c n).objs } := by
  induction n with
  | zero => rfl
  | succ n ih => rw [zeroed_succ, ih]; rfl

theorem zeroed_kept (d : Dev) (i c n : Nat) : ObjsKept d (zeroed d i c n) ((List.range n).map (fun k => okey (i + k) c)) := by
  induction n with
  | zero => exact .refl d _
  | succ n ih => 
    rw [zeroed_succ]
    exact (ih.mono (by simp [List.range_succ])).os _ _ _ (by simp [List.range_succ])

theorem og_zeroed (d : Dev) (i c n : Nat) {k : Nat} (hk : k < n) : og (zeroed d i c n) (i + k) c = 0 := by
  induction n with
  | zero => omega
  | succ n ih =>
    rw [zeroed_succ, og_os]
    split
    · rfl
    · exact ih (by rename_i h; unfold okey at h; by_contra hn; exact h (by rw [show k = n by omega]))

theorem exec_forceEnableWrite (v : Bool) (s : State) :
    exec (.forceEnableWrite v) s = .next (upd s (fun d => answer (forceEnableWrite d v).1 (forceEnableWrite d v).2)) := rfl

theorem forceEnableWrite_clear {d : Dev} (hr : ready d 2 = true) :
    forceEnableWrite d false = (zeroed (os d 0x3830 1 0) 0x3900 3 192, .ok) := by
  simp [forceEnableWrite, hr, zeroed]

theorem sourceDeasserted_ends {src : Src} {s : State} (hs : Settled s) (hc : bit s.dev.fc.cond src.val = true) :
    Does (.sourceDeasserted src) s (fun d =>
        bit d.fc.cond src.val = false ∧ bit d.fc.wire src.val = false ∧
        (∀ b, b ≠ src.val → bit d.fc.cond b = bit s.dev.fc.cond b ∧ bit d.fc.wire b = bit s.dev.fc.wire b) ∧
        (8 ≤ src.val → src.val ≤ 15 → bit (og d 0x2010 3) (src.val - 8) = false) ∧
        (src.val = 1 → bit (og d 0x2000 1) 5 = false) ∧
        (src.val = 2 → bit (og d 0x2020 1) 0 = true) ∧ (src.val = 3 → bit (og d 0x2020 1) 1 = true ∧ bit (og d 0x2020 1) 2 = true) ∧
        (∀ m, bit (og d 0x2010 2) m = (bit (og s.dev 0x2010 2) m || decide (m < 8 ∧ m + 8 = src.val) && bit (og s.dev 0x2010 1) m)) ∧
        d = { s.dev with objs := d.objs, fc := { s.dev.fc with cond := d.fc.cond, wire := d.fc.wire } } ∧
        ObjsKept s.dev d [okey 0x2000 1, okey 0x2010 2, okey 0x2010 3, okey 0x2020 1]) := by
  obtain ⟨d, hexec, rfl⟩ := sourceDeasserted_does hs hc
  set a : Dev := { s.dev with fc := { s.dev.fc with cond := setBit s.dev.fc.cond src.val false
                                                    wire := setBit s.dev.fc.wire src.val false } } with ha
  obtain ⟨hframe, hkept, hover, hvin, hclock, hmon, hwin⟩ := sourceEnded_spec a src.val
  have hfc : (sourceEnded a src.val).fc = a.fc := by rw [hframe]
  refine ⟨_, hexec, by rw [hfc]; simp [ha, bit_setBit], by rw [hfc]; simp [ha, bit_setBit],
    fun b hb => ?_, hover, hvin, hclock, hmon, hwin, hframe.trans (by rw [hfc]), hkept⟩
  rw [hfc]
  exact ⟨bit_setBit_ne hb, bit_setBit_ne hb⟩

theorem wireFault_marks {src : Src} {both : Bool} {clocks : BitVec 16} {s : State} (hs : Settled s) (h : 2 < clocks.toNat)
    (hcalm : Calm s.dev src.val) : Does (.wireFault src both clocks) s (fun d =>
        bit d.fc.wire src.val = true ∧ bit (og d 0x3802 (src.val / 64 + 1)) (src.val % 64) = true ∧
        d.fc.nextSeq = s.dev.fc.nextSeq + 1 ∧ og d (0x3840 + src.val) 0 = og s.dev (0x3840 + src.val) 0 + 1 ∧
        (og s.dev 0x3800 2 = 0xFF → og d 0x3800 2 = src.val ∧ og d 0x3800 3 = s.dev.fc.nextSeq ∧ og d 0x3800 8 = 1) ∧
        d = { s.dev with objs := d.objs, fc := d.fc, host := d.host, acq := d.acq } ∧
        ObjsKept s.dev d (okey 0x3802 (src.val / 64 + 1) :: reportKeys src.val)) := by
  obtain ⟨d, hexec, e, hrep, rfl⟩ := wireFault_does (both := both) hs h hcalm
  have hsrc := hcalm.src_lt
  have hlatch (c : Nat) (hc : c < 256) : og (osb e 0x3802 (src.val / 64 + 1) (src.val % 64) true) 0x3800 c = og e 0x3800 c := by
    rw [osb, og_os, if_neg (by unfold okey; omega)]
  have hcount : og (osb e 0x3802 (src.val / 64 + 1) (src.val % 64) true) (0x3840 + src.val) 0 = og e (0x3840 + src.val) 0 := by
    rw [osb, og_os, if_neg (by unfold okey; omega)]
  refine ⟨_, hexec, setBit_self .., ?_, ?_, hcount.trans hrep.count, fun h0 => ?_, ?_, ?_⟩
  · show bit (og (osb e 0x3802 (src.val / 64 + 1) (src.val % 64) true) 0x3802 (src.val / 64 + 1)) (src.val % 64) = true
    rw [osb, og_os_same, setBit_self]
  · show e.fc.nextSeq = _
    rw [hrep.fc]
  · obtain ⟨hsrc', hseq, -, -, hflag⟩ := hrep.first h0
    exact ⟨(hlatch 2 (by decide)).trans hsrc', (hlatch 3 (by decide)).trans hseq, (hlatch 8 (by decide)).trans hflag⟩
  · rw [hrep.frame]; rfl
  · exact ((hrep.kept.mono (List.subset_cons_self _ _)).os _ _ _ (by simp)).congr rfl

theorem forceWrite_asserts {src : Src} {s : State} (hs : Settled s) (he : og s.dev 0x3830 1 ≠ 0) (hcalm : Calm s.dev src.val) :
    Does (.forceWrite src true) s (fun d =>
        og d (0x3900 + src.val) 3 = 1 ∧ d.fc.nextSeq = s.dev.fc.nextSeq + 1 ∧
        og d (0x3840 + src.val) 0 = og s.dev (0x3840 + src.val) 0 + 1 ∧
        (og s.dev 0x3800 2 = 0xFF → og d 0x3800 2 = src.val ∧ og d 0x3800 3 = s.dev.fc.nextSeq ∧ og d 0x3800 8 = 2) ∧
        d = { s.dev with objs := d.objs, fc := d.fc, host := d.host, acq := d.acq, out := s.dev.out ++ [said .ok] } ∧
        ObjsKept s.dev d (okey (0x3900 + src.val) 3 :: reportKeys src.val)) := by
  obtain ⟨d, hexec, e, hrep, rfl⟩ := forceWrite_does hs he hcalm
  have hsrc := hcalm.src_lt
  have hother (i c : Nat) (hi : i < 0x3900) (hc : c < 256) : og (answer (os e (0x3900 + src.val) 3 1) .ok) i c = og e i c :=
    (og_os ..).trans (if_neg (by unfold okey; omega))
  refine ⟨_, hexec, og_os_same .., ?_, (hother _ _ (by omega) (by omega)).trans hrep.count, fun h0 => ?_, ?_, ?_⟩
  · show e.fc.nextSeq = _
    rw [hrep.fc]
  · obtain ⟨hsrc', hseq, -, -, hflag⟩ := hrep.first h0
    exact ⟨(hother _ 2 (by decide) (by decide)).trans hsrc', (hother _ 3 (by decide) (by decide)).trans hseq,
      (hother _ 8 (by decide) (by decide)).trans hflag⟩
  · rw [hrep.frame]; rfl
  · exact ((hrep.kept.mono (List.subset_cons_self _ _)).os _ _ _ (by simp)).congr rfl

theorem forceEnableWrite_clears {s : State} (hs : Settled s) (hr : ready s.dev 2 = true) :
    Does (.forceEnableWrite false) s (fun d =>
        og d 0x3830 1 = 0 ∧ (∀ n, n < 192 → og d (0x3900 + n) 3 = 0) ∧
        Writes s.dev d (okey 0x3830 1 :: (List.range 192).map (fun n => okey (0x3900 + n) 3)) [said .ok]) := by
  have hset := forceEnableWrite_clear hr
  have hframe := zeroed_frame (os s.dev 0x3830 1 0) 0x3900 3 192
  have hkept := zeroed_kept (os s.dev 0x3830 1 0) 0x3900 3 192
  have hzero := fun k hk => og_zeroed (os s.dev 0x3830 1 0) 0x3900 3 192 (k := k) hk
  have henable : og (zeroed (os s.dev 0x3830 1 0) 0x3900 3 192) 0x3830 1 = 0 :=
    (hkept.og (by simp [okey]; omega)).trans (og_os_same ..)
  have hf : answer (forceEnableWrite s.dev false).1 (forceEnableWrite s.dev false).2 =
      answer (zeroed (os s.dev 0x3830 1 0) 0x3900 3 192) .ok := by
    rw [hset]
  obtain ⟨z, hz⟩ : ∃ z, z = zeroed (os s.dev 0x3830 1 0) 0x3900 3 192 := ⟨_, rfl⟩
  rw [← hz] at hframe hkept henable hf
  simp only [← hz] at hzero
  refine .of_eq (exec_forceEnableWrite false s) hf ?_ ?_ ⟨henable, hzero, by rw [hframe]; rfl, ?_⟩
  · show z.fc.todo = []
    rw [hframe]; exact hs.1
  · show z.power.cleared = false
    rw [hframe]; exact hs.2
  · exact (((ObjsKept.refl s.dev _).os 0x3830 1 0 (by simp)).trans (hkept.mono (List.subset_cons_self _ _))).congr rfl

/-- Settles O10: each command's effect is that of the report or of the end of its condition. -/
theorem sourcesAreAssertedAndEnd : Obligations.SourcesAreAssertedAndEnd := by
  unfold Obligations.SourcesAreAssertedAndEnd
  refine ⟨fun src cause datum s hs => ⟨sourceAssertion_off cause datum, sourceAssertion_stands cause datum hs, sourceDeasserted_ends hs⟩,
    fun src both clocks s hs => ⟨wireFault_short, wireFault_marks hs⟩,
    fun src s hs hr hres => ⟨fun he => ?locked, forceWrite_asserts hs, ?clear, ?enable, forceEnableWrite_clears hs hr⟩⟩
  case locked => exact .of_upd hs (f := fun d => let (d, st) := forceWrite d src.val true; answer d st) rfl (by simp only [forceWrite_locked hr hres he])
  case clear =>
    refine .of_upd (f := fun d => let (d, st) := forceWrite d src.val false; answer d st) rfl ?_ ?_ ?_ <;>
      simp only [forceWrite_clear hr hres]
    · exact hs.1
    · exact hs.2
    · exact ⟨og_os_same .., rfl, ((ObjsKept.refl s.dev _).os _ _ _ (by simp)).congr rfl⟩
  case enable =>
    have hset : forceEnableWrite s.dev true = (os s.dev 0x3830 1 1, .ok) := by simp [forceEnableWrite, hr]
    refine .of_upd (f := fun d => let (d, st) := forceEnableWrite d true; answer d st) rfl ?_ ?_ ?_ <;> simp only [hset]
    · exact hs.1
    · exact hs.2
    · exact ⟨og_os_same s.dev 0x3830 1 1, rfl, ((ObjsKept.refl s.dev _).os 0x3830 1 1 (by simp)).congr rfl⟩
end Sys2Proof.Machine
end

section
/-! ## Self-tests, clears and the chip reset -/
namespace Sys2Proof.Machine

/-! ### Readiness -/

theorem bit_clearBits (bs : List Nat) : ∀ (m c : Nat), bit (clearBits m bs) c = (bit m c && !bs.contains c) := by
  induction bs with
  | nil => simp [clearBits]
  | cons b bs ih =>
    intro m c
    have hcons : clearBits m (b :: bs) = clearBits (setBit m b false) bs := rfl
    rw [hcons, ih, bit_setBit]
    by_cases h : c = b <;> simp [h]

/-- A bit that closing keeps was set. -/
theorem bit_of_closeReady {d : Dev} {m b : Nat} (h : bit (closeReady d m) b = true) : bit m b = true := by
  unfold closeReady at h
  extract_lets m1 m2 m3 at h
  have drop {x : Nat} {l : List Nat} (hx : bit (clearBits x l) b = true) : bit x b = true := by
    rw [bit_clearBits, Bool.and_eq_true] at hx; exact hx.1
  have h3 : bit m3 b = true := by split at h; exacts [drop h, h]
  have h2 : bit m2 b = true := by simp only [m3] at h3; split at h3; exacts [h3, drop h3]
  have h1 : bit m1 b = true := by simp only [m2] at h2; split at h2; exacts [h2, drop h2]
  simp only [m1] at h1
  split at h1
  exacts [h1, drop h1]

/-- Without the fabric, the dictionary and the arbiter's clocks a function does not become ready (R10). -/
theorem closeReady_core {d : Dev} {m b : Nat} (hb : b < 32) (h0 : b ≠ 0) (h3 : b ≠ 3) (h4 : b ≠ 4) (h5 : b ≠ 5)
    (hm : (bit m 0 && bit m 3 && bit m 4) = false) : bit (closeReady d m) b = false := by
  by_contra h
  rw [Bool.not_eq_false] at h
  unfold closeReady at h
  extract_lets m1 m2 m3 at h
  have drop {x : Nat} {l : List Nat} (hx : bit (clearBits x l) b = true) : bit x b = true := by
    rw [bit_clearBits, Bool.and_eq_true] at hx; exact hx.1
  have h3' : bit m3 b = true := by split at h; exacts [drop h, h]
  have h2 : bit m2 b = true := by simp only [m3] at h3'; split at h3'; exacts [h3', drop h3']
  have h1 : bit m1 b = true := by simp only [m2] at h2; split at h2; exacts [h2, drop h2]
  have hclear : m1 = clearBits m ((List.range 32).filter (fun b => b != 5 && b != 0 && b != 3 && b != 4)) := if_neg (by simp [hm])
  rw [hclear, bit_clearBits] at h1
  have hin : ((List.range 32).filter (fun b => b != 5 && b != 0 && b != 3 && b != 4)).contains b = true := by
    simp [hb, h0, h3, h4, h5]
  rw [hin] at h1
  simp at h1

/-- What no step of a fold changes, the fold leaves. -/
theorem foldl_leaves {α β γ : Type} (g : β → γ) {f : β → α → β} (h : ∀ b a, g (f b a) = g b) (l : List α) :
    ∀ b, g (l.foldl f b) = g b := by
  induction l with
  | nil => exact fun _ => rfl
  | cons a l ih => exact fun b => (ih _).trans (h b a)

/-- What a function's readiness starts writes no object but a port's DHCP state. -/
theorem gainedBit_kept (d : Dev) (b : Nat) : ∀ i c, i < 0x2F08 → c < 256 → og (gainedBit d b) i c = og d i c := by
  intro i c hi hc
  have hdhcp (e : Dev) (p : Nat) : og (dhcpDiscover e p) i c = og e i c := by
    simp only [dhcpDiscover, dhcpSend, og_emit]
    repeat rw [og_os, if_neg (by unfold okey; omega)]
    rfl
  unfold gainedBit
  split
  · rfl
  split
  · exact foldl_leaves (fun e => og e i c) (fun _ _ => og_setPls ..) _ d
  split
  · have hports := foldl_leaves (fun e => og e i c)
      (f := fun d p => if og d (0x2F08 + p) 1 != 0 && og d (0x2F08 + p) 5 = 1 then dhcpDiscover d p else d)
      (fun e p => by split; exacts [hdhcp e p, rfl]) (List.range 2) d
    dsimp only
    split
    · exact hports
    split
    · exact hports
    · exact hports
  · rfl

/-- A passed self-test of a function whose dependencies stand (R10). -/
theorem setReady_ready {d : Dev} {b : Nat} (h : bit (closeReady d (setBit (og d 0x1010 0) b true)) b = true) :
    ready (setReady d b) b = true ∧ (∀ c, c ≠ b → ready (setReady d b) c = ready d c) ∧ og (setReady d b) 0x1011 0 = og d 0x1011 0 := by
  have hset : setReady d b = gainedBit (os d 0x1010 0 (setBit (og d 0x1010 0) b true)) b := if_pos h
  have hmap : og (setReady d b) 0x1010 0 = setBit (og d 0x1010 0) b true := by
    rw [hset, gainedBit_kept _ _ _ _ (by decide) (by decide), og_os_same]
  have hfailed : og (setReady d b) 0x1011 0 = og d 0x1011 0 := by
    rw [hset, gainedBit_kept _ _ _ _ (by decide) (by decide), og_os, if_neg (by decide)]
  simp only [ready, hmap]
  exact ⟨by rw [setBit_self], fun c hc => bit_setBit_ne hc, hfailed⟩

theorem setReady_not {d : Dev} {b : Nat} (h : bit (closeReady d (setBit (og d 0x1010 0) b true)) b = false) : setReady d b = d :=
  if_neg (by rw [h]; decide)

theorem exec_blockSelfTestDone {b : Fin 32} {s : State} (pass : Bool) (hb : s.dev.power.booted = true) (hd : testDue s.dev b.val = true) :
    exec (.blockSelfTestDone b pass) s = .next (upd s (fun d =>
      if pass then setReady d b.val else report (osb d 0x1011 0 b.val true) 186 0 b.val)) := by
  have hexec : exec (.blockSelfTestDone b pass) s = execBlockSelfTestDone b pass s := rfl
  rw [hexec, execBlockSelfTestDone, if_pos (by simp [hb, hd])]

/-- Settles O11: `setReady` and the report of a failed test, by what they write. -/
theorem selfTestMakesAFunctionReadyOrFailed : Obligations.SelfTestMakesAFunctionReadyOrFailed := by
  unfold Obligations.SelfTestMakesAFunctionReadyOrFailed
  intro b s hb hd
  have hexec := fun pass => exec_blockSelfTestDone pass hb hd
  refine ⟨fun h => .of_upd (hexec true) (setReady_ready h), fun hs h0 _ h3 h4 hcore => ?blocked, fun hs h2 => ?failed⟩
  case blocked =>
    have h5 : b.val ≠ 5 := by
      intro h
      simp [testDue, h] at hd
    have hm : (bit (setBit (og s.dev 0x1010 0) b.val true) 0 && bit (setBit (og s.dev 0x1010 0) b.val true) 3 &&
        bit (setBit (og s.dev 0x1010 0) b.val true) 4) = false := by
      rw [bit_setBit_ne h0.symm, bit_setBit_ne h3.symm, bit_setBit_ne h4.symm]
      exact hcore
    exact .of_upd hs (hexec true) (setReady_not (closeReady_core b.isLt h0 h3 h4 h5 hm))
  case failed =>
    have hready : ready (osb s.dev 0x1011 0 b.val true) 2 = false := by
      rw [ready, osb, og_os, if_neg (by decide)]; exact h2
    have hrep : report (osb s.dev 0x1011 0 b.val true) 186 0 b.val =
        { osb s.dev 0x1011 0 b.val true with fc := { s.dev.fc with held := s.dev.fc.held ++ [rep 186 0 b.val 0] } } := by
      simp only [report, raise, assertReport, hready, Bool.not_false, if_true]
      rfl
    refine .of_eq (hexec false) hrep hs.1 hs.2 ⟨?_, fun c hc => ?_, rfl, rfl, ?_⟩
    · show bit (og (osb s.dev 0x1011 0 b.val true) 0x1011 0) b.val = true
      rw [osb, og_os_same, setBit_self]
    · show bit (og (osb s.dev 0x1011 0 b.val true) 0x1011 0) c = _
      rw [osb, og_os_same, bit_setBit_ne hc]
    · exact ((ObjsKept.refl s.dev _).os _ _ _ (by simp)).congr rfl

/-! ### The latch clear and the counters -/

/-- A list of writes keeps what is none of their objects. -/
theorem ObjsKept.writes {α : Type} {i c v : α → Nat} {l : List α} {keys : List Nat} : ∀ {a b : Dev}, ObjsKept a b keys →
    (∀ x ∈ l, okey (i x) (c x) ∈ keys) → ObjsKept a (l.foldl (fun d x => Machine.os d (i x) (c x) (v x)) b) keys := by
  induction l with
  | nil => exact fun h _ => h
  | cons x l ih => exact fun h hl => ih (h.os _ _ _ (hl x (by simp))) fun y hy => hl y (by simp [hy])

/-- The objects of the first-source latch and the wire-fault map at their defaults (R386). -/
def latchEmptied (d : Dev) : Dev :=
  (List.range 3).foldl (fun d i => os d 0x3802 (i + 1) 0)
    ((List.range 8).foldl (fun d i => os d 0x3800 (i + 1) (objDefault (okey 0x3800 (i + 1)))) d)

/-- The objects a latch clear writes beside its number's. -/
def latchKeys : List Nat := (List.range 8).map (fun i => okey 0x3800 (i + 1)) ++ (List.range 3).map (fun i => okey 0x3802 (i + 1))

theorem ObjsOnly.writes {α : Type} {i c v : α → Nat} {l : List α} : ∀ {a b : Dev}, ObjsOnly a b →
    ObjsOnly a (l.foldl (fun d x => Machine.os d (i x) (c x) (v x)) b) := by
  induction l with
  | nil => exact fun h => h
  | cons x l ih => exact fun h => ih (h.os _ _ _)

theorem latchEmptied_spec (d : Dev) :
    latchEmptied d = { d with objs := (latchEmptied d).objs } ∧ ObjsKept d (latchEmptied d) latchKeys ∧
    og (latchEmptied d) 0x3800 1 = 0 ∧ og (latchEmptied d) 0x3800 2 = 0xFF ∧ (∀ i, 3 ≤ i → i ≤ 8 → og (latchEmptied d) 0x3800 i = 0) ∧
    ∀ i, 1 ≤ i → i ≤ 3 → og (latchEmptied d) 0x3802 i = 0 := by
  have hd2 : objDefault (okey 0x3800 2) = 0xFF := by decide
  have hd0 : ∀ i < 9, i ≠ 0 → i ≠ 2 → objDefault (okey 0x3800 i) = 0 := by decide
  refine ⟨ObjsOnly.writes (.writes (.refl d)), ?_, ?_, ?_, fun i h3 h8 => ?_, fun i h1 h3 => ?_⟩
  · exact .writes (.writes (.refl d _) (by decide)) (by decide)
  · simp [latchEmptied, List.range, List.range.loop, og_os, okey]
    exact hd0 1 (by decide) (by decide) (by decide)
  · simp [latchEmptied, List.range, List.range.loop, og_os, okey]
    exact hd2
  · have hcases : i = 3 ∨ i = 4 ∨ i = 5 ∨ i = 6 ∨ i = 7 ∨ i = 8 := by omega
    have hdef := hd0 i (by omega) (by omega) (by omega)
    rcases hcases with rfl | rfl | rfl | rfl | rfl | rfl <;>
      simpa [latchEmptied, List.range, List.range.loop, og_os, okey] using hdef
  · have hcases : i = 1 ∨ i = 2 ∨ i = 3 := by omega
    rcases hcases with rfl | rfl | rfl <;> simp [latchEmptied, List.range, List.range.loop, og_os, okey]

theorem latchClear_eq (d : Dev) : latchClear d =
    if (List.range 192).any (fun n => live (latchEmptied (number d).1) n && bit (og (latchEmptied (number d).1) (0x3900 + n) 1) 4) then
      latchEmptied (number d).1
    else { latchEmptied (number d).1 with fc := { (latchEmptied (number d).1).fc with errPins := false } } := rfl

/-- What numbering gives, as long as the drop counter is short of its end (R376, R378). -/
theorem number_spec {d : Dev} (hr : ready d 2 = true) (hc : og d 0x3800 0x0A < 0xFFFFFFFE) :
    (number d).1 = { d with objs := (number d).1.objs, fc := { d.fc with nextSeq := (number d).1.fc.nextSeq } } ∧
    ObjsKept d (number d).1 [okey 0x3800 0x0A] ∧ (sealed d = false → (number d).1.fc.nextSeq = d.fc.nextSeq + 1) := by
  have hr' : bit (og d 0x1010 0) 2 = true := hr
  unfold number
  rw [hr', if_neg (by decide)]
  split
  · case isTrue h =>
    rw [bump_small hc]
    exact ⟨rfl, (ObjsKept.refl d _).os _ _ _ (by simp), fun hs => by simp [hs] at h⟩
  · exact ⟨rfl, (ObjsKept.refl d _).congr rfl, fun _ => rfl⟩

/-- The latch clear: what it empties, and the pins it releases when no live source asks for them (R382, R386). -/
theorem latchClear_spec {d : Dev} (hr : ready d 2 = true) (hc : og d 0x3800 0x0A < 0xFFFFFFFE) :
    og (latchClear d) 0x3800 1 = 0 ∧ og (latchClear d) 0x3800 2 = 0xFF ∧ (∀ i, 3 ≤ i → i ≤ 8 → og (latchClear d) 0x3800 i = 0) ∧
    (∀ i, 1 ≤ i → i ≤ 3 → og (latchClear d) 0x3802 i = 0) ∧
    (sealed d = false → (latchClear d).fc.nextSeq = d.fc.nextSeq + 1) ∧
    (latchClear d).fc.errPins = (d.fc.errPins && (List.range 192).any (fun b => live d b && bit (og d (0x3900 + b) 1) 4)) ∧
    (latchClear d).fc = { d.fc with nextSeq := (latchClear d).fc.nextSeq, errPins := (latchClear d).fc.errPins } ∧
    latchClear d = { d with objs := (latchClear d).objs, fc := (latchClear d).fc } ∧
    ObjsKept d (latchClear d) (okey 0x3800 0x0A :: latchKeys) := by
  obtain ⟨hnf, hnk, hns⟩ := number_spec hr hc
  obtain ⟨hlf, hlk, h1, h2, h38, h13⟩ := latchEmptied_spec (number d).1
  have hkept : ObjsKept d (latchEmptied (number d).1) (okey 0x3800 0x0A :: latchKeys) :=
    (hnk.mono (by simp)).trans (hlk.mono (List.subset_cons_self _ _))
  have hsource (b c : Nat) (hb : b < 192) (hc : c < 256) : og (latchEmptied (number d).1) (0x3900 + b) c = og d (0x3900 + b) c :=
    hkept.og (by simp [latchKeys, List.range, List.range.loop, okey]; omega)
  rw [latchClear_eq]
  generalize latchEmptied (number d).1 = e at hlf h1 h2 h38 h13 hkept hsource ⊢
  generalize (number d).1 = m at hnf hns hlf
  have hfc : e.fc = { d.fc with nextSeq := m.fc.nextSeq } := by rw [hlf, hnf]
  have hany : (List.range 192).any (fun n => live e n && bit (og e (0x3900 + n) 1) 4) =
      (List.range 192).any (fun b => live d b && bit (og d (0x3900 + b) 1) 4) := by
    refine Bool.eq_iff_iff.mpr ?_
    simp only [List.any_eq_true, List.mem_range]
    refine exists_congr fun n => and_congr_right fun hn => ?_
    simp only [live, forced, hsource n 1 hn (by decide), hsource n 3 hn (by decide), hfc]
  rw [hany]
  have hframe : e = { d with objs := e.objs, fc := { d.fc with nextSeq := m.fc.nextSeq } } := by rw [hlf, hnf]
  cases hlive : (List.range 192).any (fun b => live d b && bit (og d (0x3900 + b) 1) 4)
  · rw [if_neg Bool.false_ne_true]
    refine ⟨h1, h2, h38, h13, fun hs => ?_, by simp, ?_, ?_, hkept.congr rfl⟩
    · show e.fc.nextSeq = _
      rw [hfc]; exact hns hs
    · show { e.fc with errPins := false } = _
      rw [hfc]
    · show { e with fc := { e.fc with errPins := false } } = _
      rw [hframe]
  · refine ⟨h1, h2, h38, h13, fun hs => by rw [if_pos rfl, hfc]; exact hns hs, by rw [if_pos rfl, hfc]; simp, ?_, ?_, hkept⟩
    · rw [if_pos rfl, hfc]
    · rw [if_pos rfl, hframe]

theorem exec_latchClear (s : State) :
    exec .latchClear s = .next (upd s (fun d => if ready d 2 then answer (latchClear d) .ok else answer d .notReady)) := rfl

/-- A counter's row says that it is one, so that the object exists. -/
theorem findRow_of_isCounter {i c : Nat} (h : isCounter i c = true) : (findRow i c).isNone = false := by
  unfold isCounter at h
  cases hrow : findRow i c <;> simp_all

theorem exec_counterClear (idx : BitVec 16) (sub : BitVec 8) (v : BitVec 32) (s : State) :
    exec (.counterClear idx sub v) s = .next { (counterWrite s idx.toNat sub.toNat v.toNat).1 with
      dev := answer (counterWrite s idx.toNat sub.toNat v.toNat).1.dev (counterWrite s idx.toNat sub.toNat v.toNat).2 } := rfl

/-- A write of a counter whose function is ready (R388). -/
theorem counterWrite_eq {s : State} {i c : Nat} (v : Nat) (hi : indexKnown i = true) (hc : isCounter i c = true)
    (hr : ready s.dev (ownerBit s.dev i) = true) : counterWrite s i c v =
      if v != 0 then (s, .range)
      else if i = 0x3A30 then ({ s with isl := { s.isl with counters := tput (fun _ => 0) s.isl.counters c 0 } }, .ok)
      else ({ s with dev := os s.dev i c 0 }, .ok) := by
  simp only [counterWrite, hi, hc, hr, findRow_of_isCounter hc, Bool.not_true, Bool.false_eq_true, if_false]

/-- Settles O12: the latch clear by what it empties, the counter clear by the one object it writes. -/
theorem latchAndCountersAreCleared : Obligations.LatchAndCountersAreCleared := by
  unfold Obligations.LatchAndCountersAreCleared
  refine ⟨fun s hs => ⟨fun hr => ?early, fun hr hc => ?clear⟩, fun idx sub v s hi hc hr => ⟨fun hv => ?value, fun hn => ?device, fun hn => ?island⟩⟩
  case early => exact .of_upd hs (exec_latchClear s) (by rw [hr, if_neg Bool.false_ne_true])
  case clear =>
    obtain ⟨h1, h2, h38, h13, hseq, hpins, hfc, hframe, hkept⟩ := latchClear_spec hr hc
    obtain ⟨e, he⟩ : ∃ e, e = latchClear s.dev := ⟨_, rfl⟩
    rw [← he] at h1 h2 hseq hpins hfc hframe hkept
    simp only [← he] at h38 h13
    have hf : (if ready s.dev 2 then answer (latchClear s.dev) .ok else answer s.dev .notReady) = answer e .ok := by
      rw [hr, if_pos rfl, he]
    refine .of_eq (exec_latchClear s) hf ?_ ?_ ⟨h1, h2, h38, h13, hseq, hpins, hfc, ?_, hkept.congr rfl⟩
    · show e.fc.todo = []
      rw [hfc]; exact hs.1
    · show e.power.cleared = false
      rw [hframe]; exact hs.2
    · rw [hframe]; rfl
  case value =>
    have hv' : (v.toNat != 0) = true := by
      rw [bne_iff_ne]
      exact fun h => hv (BitVec.eq_of_toNat_eq h)
    rw [Answers, exec_counterClear, counterWrite_eq _ hi hc hr, if_pos hv']
  case device =>
    have hn' : idx.toNat ≠ 0x3A30 := fun h => hn (BitVec.eq_of_toNat_eq h)
    refine ⟨answer (os s.dev idx.toNat sub.toNat 0) .ok, ?_, og_os_same s.dev _ _ 0, rfl, ((ObjsKept.refl s.dev _).os _ _ _ (by simp)).congr rfl⟩
    rw [exec_counterClear, counterWrite_eq _ hi hc hr, if_neg (by decide), if_neg hn']
  case island =>
    have hn' : idx.toNat = 0x3A30 := by rw [hn]; rfl
    refine ⟨{ s.isl with counters := tput (fun _ => 0) s.isl.counters sub.toNat 0 }, ?_, tget_tput_same (fun _ => 0) _ _ 0, rfl, fun k hk => tget_tput_other (fun _ => 0) _ 0 hk⟩
    rw [exec_counterClear, counterWrite_eq _ hi hc hr, if_neg (by decide), if_pos hn']

/-! ### The chip reset -/

theorem tget_filter {α : Type} (d : Nat → α) (p : Nat → Bool) {k : Nat} (hk : p k = true) :
    ∀ t : Table α, tget d (t.filter (fun q => p q.1)) k = tget d t k
  | [] => rfl
  | q :: t => by
    by_cases hq : q.1 = k
    · subst hq
      simp [hk, tget]
    · cases hp : p q.1 <;> simp [hp, tget, hq, tget_filter d p hk t]

theorem tget_filter_out {α : Type} (d : Nat → α) (p : Nat → Bool) {k : Nat} (hk : p k = false) :
    ∀ t : Table α, tget d (t.filter (fun q => p q.1)) k = d k
  | [] => rfl
  | q :: t => by
    cases hp : p q.1
    · simp [hp, tget_filter_out d p hk t]
    · have hq : q.1 ≠ k := by
        rintro rfl
        simp [hk] at hp
      simp [hp, tget, hq, tget_filter_out d p hk t]

/-- The object values of a device that restarts (R384, R428). -/
theorem tget_restart (d : Dev) (cause k : Nat) : tget objDefault (restart d cause).objs k =
    if k = okey 0x1011 0 then setBit 0 5 (bit (og d 0x1011 0) 5)
    else if k = okey 0x1010 0 then setBit 0 5 (ready d 5)
    else if k = okey 0x1020 2 then mode d
    else if 0x204000 ≤ k ∧ k < 0x204200 then tget objDefault d.objs k else objDefault k := by
  have hback (k : Nat) : tget objDefault (backupObjs d.objs) k =
      if 0x204000 ≤ k ∧ k < 0x204200 then tget objDefault d.objs k else objDefault k := by
    split
    case isTrue h => exact tget_filter _ (fun k => 0x204000 ≤ k && k < 0x204200) (by simpa using h) _
    case isFalse h => exact tget_filter_out _ (fun k => 0x204000 ≤ k && k < 0x204200) (by simpa using h) _
  have hfailed : objDefault (okey 0x1011 0) = 0 := by decide
  have hready : objDefault (okey 0x1010 0) = 0 := by decide
  simp only [restart, osb, os, og, tget_tput, hback]
  simp [okey] at hfailed hready ⊢
  rw [hfailed, hready]

/-- What a chip reset keeps and loses (R384, R424, R428). -/
theorem chipReset_spec (d : Dev) :
    mode (chipReset d) = 1 ∧ og (chipReset d) 0x1020 2 = mode d ∧ (∀ b, b ≠ 5 → ready (chipReset d) b = false) ∧
    ready (chipReset d) 5 = ready d 5 ∧
    ∀ k, 0x204000 ≤ k → k < 0x204200 → tget objDefault (chipReset d).objs k = tget objDefault d.objs k := by
  have hobjs : (writeState d 3 (d.fc.nextSeq - 1) none).objs = d.objs := by
    unfold writeState
    split <;> rfl
  have hval (k : Nat) := tget_restart (writeState d 3 (d.fc.nextSeq - 1) none) 3 k
  have hmode : mode (writeState d 3 (d.fc.nextSeq - 1) none) = mode d := og_congr hobjs _ _
  have hready : ready (writeState d 3 (d.fc.nextSeq - 1) none) 5 = ready d 5 := by
    rw [ready, og_congr hobjs]; rfl
  have hmap : og (chipReset d) 0x1010 0 = setBit 0 5 (ready d 5) := by
    rw [← hready]; exact hval (okey 0x1010 0)
  refine ⟨?_, ?_, fun b hb => ?_, ?_, fun k hlo hhi => ?_⟩
  · exact (hval (okey 0x1020 1)).trans (by simp [okey]; decide)
  · rw [← hmode]
    exact (hval (okey 0x1020 2)).trans (by simp [okey])
  · rw [ready, hmap, bit_setBit_ne hb, bit_zero]
  · rw [ready, hmap, bit_setBit, if_pos rfl]
  · refine (hval k).trans ?_
    rw [if_neg (by unfold okey; omega), if_neg (by unfold okey; omega), if_neg (by unfold okey; omega), if_pos ⟨hlo, hhi⟩, hobjs]

/-! ### What the shared operations leave -/

theorem bump_frame (d : Dev) (i c : Nat) :
    bump d i c = { d with objs := (bump d i c).objs, fc := { d.fc with todo := (bump d i c).fc.todo } } := by
  simp only [bump]
  split
  · rfl
  · split <;> rfl

theorem number_frame (d : Dev) : (number d).1 =
    { d with objs := (number d).1.objs, fc := { d.fc with nextSeq := (number d).1.fc.nextSeq, todo := (number d).1.fc.todo } } := by
  unfold number
  split
  · rfl
  · split
    · exact (bump_frame d _ _).trans (by rw [bump_frame])
    · rfl

theorem sourceStatus_fc_frame (d : Dev) (n m : Nat) : sourceStatus d n m =
    { d with objs := (sourceStatus d n m).objs, fc := { d.fc with todo := (sourceStatus d n m).fc.todo } } := by
  have hbump (e : Dev) (i c : Nat) (he : e = { d with objs := e.objs, fc := { d.fc with todo := e.fc.todo } }) :
      bump e i c = { d with objs := (bump e i c).objs, fc := { d.fc with todo := (bump e i c).fc.todo } } := by
    rw [bump_frame e, he]
  unfold sourceStatus
  split
  · rfl
  split
  · exact hbump _ _ _ rfl
  split
  · exact hbump _ _ _ rfl
  split
  · dsimp only
    split <;> rfl
  · rfl

/-- A log entry's place: the collector's log and what waits for subscribers, or a drop counter (R447, R455). -/
theorem logEntry_frame (d : Dev) (e : LogEntry) : logEntry d e = { d with
      objs := (logEntry d e).objs, host := (logEntry d e).host
      fc := { d.fc with log := (logEntry d e).fc.log, waiting := (logEntry d e).fc.waiting, commitLog := (logEntry d e).fc.commitLog
                        cond := (logEntry d e).fc.cond, todo := (logEntry d e).fc.todo } } := by
  unfold logEntry
  split
  · split
    · rw [bump_frame]
    · rfl
  · split
    · rw [later, bump_frame]
    · rfl

theorem logEntry_kept (d : Dev) (e : LogEntry) : ObjsKept d (logEntry d e) dropKeys := by
  unfold logEntry
  split
  · split
    · exact (bump_kept d _ _).mono (by decide)
    · exact (ObjsKept.refl d _).congr rfl
  · split
    · exact ((bump_kept d _ _).mono (by decide)).congr rfl
    · exact (ObjsKept.refl d _).congr rfl

/-- Until its reactions run, an assertion leaves time, supply and the pins. -/
theorem asserted_leaves (d : Dev) (r : Report) :
    (asserted d r).time = d.time ∧ (asserted d r).fc.errPins = d.fc.errPins := by
  have hc : (counted d r).time = d.time ∧ (counted d r).fc.errPins = d.fc.errPins := by
    rw [counted, bump_frame]
    split
    · rw [sourceStatus_fc_frame]; exact ⟨rfl, rfl⟩
    · exact ⟨rfl, rfl⟩
  rw [asserted, noteFault_frame, latch_frame, number_frame]
  exact hc

/-- The reaction C with neither T nor B: what the device that is reset shows of the one asserted (R380-R384). -/
theorem react_resets {d : Dev} {r : Report} (q : Option Nat) (hT : bit (og d (0x3900 + r.src) 1) 1 = false)
    (hB : bit (og d (0x3900 + r.src) 1) 2 = false) (hC : bit (og d (0x3900 + r.src) 1) 3 = true) :
    ∃ e, react d r q = chipReset e ∧ ObjsKept d e dropKeys ∧ e.time = d.time ∧
      e.fc.errPins = (d.fc.errPins || bit (og d (0x3900 + r.src) 1) 4) := by
  simp only [react, hT, hB, hC, Bool.false_eq_true, if_false, if_true]
  refine ⟨_, rfl, ?_⟩
  set pins : Dev := if bit (og d (0x3900 + r.src) 1) 4 then { d with fc := { d.fc with errPins := true } } else d with hpins
  have hp : pins = { d with fc := { d.fc with errPins := d.fc.errPins || bit (og d (0x3900 + r.src) 1) 4 } } := by
    rw [hpins]
    cases bit (og d (0x3900 + r.src) 1) 4 <;> simp
  have hk : ObjsKept d pins dropKeys := by rw [hp]; exact (ObjsKept.refl d _).congr rfl
  have hleft : pins.time = d.time ∧ pins.fc.errPins = (d.fc.errPins || bit (og d (0x3900 + r.src) 1) 4) := by
    rw [hp]; exact ⟨rfl, rfl⟩
  split
  · cases q with
    | none => exact ⟨hk, hleft⟩
    | some n =>
      refine ⟨hk.trans (logEntry_kept _ _), ?_⟩
      rw [faultLog, logEntry_frame]
      exact hleft
  · exact ⟨hk, hleft⟩

/-- A new assertion of a source with C, and with neither T nor B: the reset, with the pins set by E first. -/
theorem report_resets {d : Dev} {n : Nat} (cause datum : Nat) (hr : ready d 2 = true) (hl : live d n = false)
    (hT : bit (og d (0x3900 + n) 1) 1 = false) (hB : bit (og d (0x3900 + n) 1) 2 = false) (hC : bit (og d (0x3900 + n) 1) 3 = true) :
    ∃ e, report d n cause datum = chipReset e ∧ ObjsKept d e (dropKeys ++ reportKeys n) ∧ e.time = d.time ∧
      e.fc.errPins = (d.fc.errPins || bit (og d (0x3900 + n) 1) 4) := by
  have hcfg := og_reactions_asserted d ⟨n, cause, datum, false, false, 0⟩
  obtain ⟨htime, hpins⟩ := asserted_leaves d ⟨n, cause, datum, false, false, 0⟩
  obtain ⟨e, he, hk, ht, hp⟩ := react_resets (r := ⟨n, cause, datum, false, false, 0⟩)
    (number (counted d ⟨n, cause, datum, false, false, 0⟩)).2 (by rw [hcfg]; exact hT) (by rw [hcfg]; exact hB) (by rw [hcfg]; exact hC)
  have hkept : ObjsKept d (asserted d ⟨n, cause, datum, false, false, 0⟩) (dropKeys ++ reportKeys n) := asserted_kept d _
  refine ⟨e, ?_, hkept.trans (hk.mono (List.subset_append_left dropKeys _)), ht.trans htime, ?_⟩
  · rw [report, raise, assertReport_new (r := ⟨n, cause, datum, false, false, 0⟩) hr hl rfl rfl]
    exact he
  · rw [hp, hpins, hcfg]

/-- The assertion of a source with the reaction C, and with neither T nor B. -/
theorem sourceAssertion_resets {s : State} {src : Src} (cause : BitVec 16) (datum : BitVec 32) (hr : ready s.dev 2 = true)
    (hres : reservedSource src.val = false) (hl : live s.dev src.val = false)
    (hdom : 8 ≤ src.val → src.val ≤ 15 → bit (og s.dev 0x2010 1) (src.val - 8) = true)
    (hT : bit (og s.dev (0x3900 + src.val) 1) 1 = false) (hB : bit (og s.dev (0x3900 + src.val) 1) 2 = false)
    (hC : bit (og s.dev (0x3900 + src.val) 1) 3 = true) :
    ∃ f e, exec (.sourceAssertion src cause datum) s = .next (upd s f) ∧ f s.dev = chipReset e ∧
      ObjsKept s.dev e (okey 0x3E40 (src.val - 31) :: (dropKeys ++ reportKeys src.val)) ∧ e.time = s.dev.time ∧
      e.fc.errPins = (s.dev.fc.errPins || bit (og s.dev (0x3900 + src.val) 1) 4) := by
  have hoff : (reservedSource src.val || (8 ≤ src.val && src.val ≤ 15 && !bit (og s.dev 0x2010 1) (src.val - 8))) = false := by
    simpa [hres] using hdom
  have hwire : bit s.dev.fc.wire src.val = false := by
    simp only [live, Bool.or_eq_false_iff] at hl
    exact hl.1.2
  have hexec : exec (.sourceAssertion src cause datum) s = execSourceAssertion src cause datum s := rfl
  simp only [hexec, execSourceAssertion, hoff, Bool.false_eq_true, if_false]
  suffices h : ∃ e, report (if 32 ≤ src.val && src.val ≤ 39 then padError s.dev (src.val - 32) datum.toNat else s.dev)
      src.val cause.toNat datum.toNat = chipReset e ∧
      ObjsKept s.dev e (okey 0x3E40 (src.val - 31) :: (dropKeys ++ reportKeys src.val)) ∧ e.time = s.dev.time ∧
      e.fc.errPins = (s.dev.fc.errPins || bit (og s.dev (0x3900 + src.val) 1) 4) by
    obtain ⟨e, he, hrest⟩ := h
    exact ⟨_, e, rfl, by simpa [hwire] using he, hrest⟩
  split
  case isTrue hpad =>
    have hc : src.val - 32 < 8 := by simp only [Bool.and_eq_true, decide_eq_true_eq] at hpad; omega
    have h32 : src.val - 32 + 1 = src.val - 31 := by simp only [Bool.and_eq_true, decide_eq_true_eq] at hpad; omega
    have hcfg := og_padError_source s.dev (n := src.val) datum.toNat hc src.isLt (b := 1) (by decide)
    obtain ⟨e, he, hk, ht, hp⟩ := report_resets (d := padError s.dev (src.val - 32) datum.toNat) (n := src.val) cause.toNat datum.toNat
      (by rwa [ready_padError _ _ _ hc]) (by rwa [live_padError _ _ hc src.isLt]) (by rwa [hcfg]) (by rwa [hcfg]) (by rwa [hcfg])
    have hpadleft : (padError s.dev (src.val - 32) datum.toNat).time = s.dev.time ∧
        (padError s.dev (src.val - 32) datum.toNat).fc.errPins = s.dev.fc.errPins := by
      simp only [padError]
      split <;> (try rw [setPad]) <;> rw [bump_frame] <;> exact ⟨rfl, rfl⟩
    refine ⟨e, he, ?_, ht.trans hpadleft.1, by rw [hp, hpadleft.2, hcfg]⟩
    have hpk := padError_kept s.dev (src.val - 32) datum.toNat
    rw [h32] at hpk
    exact (hpk.mono (by simp)).trans (hk.mono (List.subset_cons_self _ _))
  case isFalse =>
    obtain ⟨e, he, hk, ht, hp⟩ := report_resets (d := s.dev) (n := src.val) cause.toNat datum.toNat hr hl hT hB hC
    exact ⟨e, he, hk.mono (List.subset_cons_self _ _), ht, hp⟩

/-- The end of a step that resets the chip (R384). -/
theorem upd_resets {s : State} {f : Dev → Dev} {e : Dev} (h : f s.dev = chipReset e) :
    upd s f = { s with dev := { chipReset e with power := { (chipReset e).power with cleared := false } }, mem := .reset } := by
  have hfin : finish (f s.dev) = chipReset e := by rw [h, finish_settled _ rfl]
  have hclr : (chipReset e).power.cleared = true := rfl
  simp only [upd, hfin, hclr, if_true]

/-- Settles O13: the assertion ends in a chip reset of a device that differs from the one before in what an assertion writes. -/
theorem reactionCResetsTheChip : Obligations.ReactionCResetsTheChip := by
  unfold Obligations.ReactionCResetsTheChip
  intro src cause datum s hs hr hm hres hl hT hB hC hdom
  obtain ⟨f, e, hexec, hf, hk, ht, hp⟩ := sourceAssertion_resets cause datum hr hres hl hdom hT hB hC
  have hsrc := src.isLt
  have hother (k : Nat) (hk' : k < 0x200000 ∨ 0x204000 ≤ k ∧ k < 0x204200) : tget objDefault e.objs k = tget objDefault s.dev.objs k := by
    refine hk k ?_
    simp [dropKeys, reportKeys, List.range, List.range.loop, okey]
    omega
  have hmode : mode e = mode s.dev := hother (okey 0x1020 1) (by simp [okey])
  have hready : ready e 5 = ready s.dev 5 := by
    have h : og e 0x1010 0 = og s.dev 0x1010 0 := hother (okey 0x1010 0) (by simp [okey])
    simp only [ready, h]
  obtain ⟨h1, hprev, hnone, h5, hback⟩ := chipReset_spec e
  have hlocal : (chipReset e).time.local_ = e.time.local_ := by
    show (writeState e _ _ _).time.local_ = _
    unfold writeState
    split <;> rfl
  have hpins : (chipReset e).fc.errPins = e.fc.errPins := by
    show (writeState e _ _ _).fc.errPins = _
    unfold writeState
    split <;> rfl
  refine ⟨_, hexec, ?_⟩
  rw [upd_resets hf]
  refine ⟨h1, hprev.trans hmode, fun b _ hb => hnone b hb, h5.trans hready, rfl, rfl, rfl, rfl, rfl, rfl, rfl, fun k hlo hhi => ?_, ?_, ?_, rfl, rfl⟩
  · exact (hback k hlo hhi).trans (hother k (.inr ⟨hlo, hhi⟩))
  · exact hlocal.trans (by rw [ht])
  · exact hpins.trans hp

end Sys2Proof.Machine
end

section
/-! ## Modes, supply, bring-up and the pattern key -/
namespace Sys2Proof.Machine

/-- A part whose management and collector are ready, with a store of the island's block in progress, and a report of the management
watchdog (source 176, whose reactions include C) waiting at the collector. -/
def watchdogWaits : State :=
  { State.reset with
    dev := { os Dev.reset 0x1010 0 5 with
      power := { PowerSt.reset with powered := true, booted := true }
      fc := { Collector.reset with todo := [rep 176 0 0 0] } }
    isl := { IslandSt.reset with storing := some SafetyRec.blank } }

/-- Refutes O17: a report that waits at the collector when the warning begins resets the chip at the end of that step (R384), so that no
warning is in force after it. -/
theorem not_warningCommitSealAndPowerLoss : ¬ Obligations.WarningCommitSealAndPowerLoss := by
  unfold Obligations.WarningCommitSealAndPowerLoss
  intro h
  obtain ⟨hwarning, -⟩ := h.1 0 watchdogWaits
  have hcalm : Calm watchdogWaits.dev 0 := by unfold Calm; decide
  obtain ⟨t, hexec, hwarn, -⟩ := hwarning rfl rfl (by decide) hcalm (by decide) (by decide)
  have hnone : warning (devOf (exec .supplyWarning watchdogWaits)) = false := by decide
  rw [hexec] at hnone
  exact absurd (hwarn.symm.trans hnone) (by decide)

end Sys2Proof.Machine
end

section
/-! ## The host link: what the statements leave out -/
namespace Sys2Proof.Machine

/-- An open session with identifier 7 and a set key, whose last counter was 5. -/
def openSession : Session :=
  { id := 7, isOpen := true, key := [], keySet := true, comm := false, idle := 30, rx := 5, tx := 9, stored := [], events := 0, evCount := 0,
    evQueue := [], logQueue := [], period := 0, images := 0, sending := none, waitImg := none, segw := none, snaps := [] }

/-- A Stopped part whose management, collector, parameters and host link are ready, with one session. -/
def linkedPart (x : Session) : State :=
  { State.reset with dev := { os (os Dev.reset 0x1010 0 0x40000007) 0x1020 1 2 with host := { Dev.reset.host with sessions := [x] } } }

/-- An old write request of session 7, in a frame the port does not accept (R465). -/
def unacceptedWrite : Kda :=
  { session := 7, counter := 5, reqId := 1, plain := false, udp := 36920, version := 1, flags := 0, status := 0, length := 2, reserved := 0
    tag := kdaTag openSession.key (kdaHeader 0x21 0 0 openSession.id (5 : BitVec 64).toNat (1 : BitVec 32).toNat (writeBody []).length)
      (writeBody []) }

/-- A datagram of a session that the port does not look at (R465). -/
theorem serveRequest_screened {s : State} {p : Port} {h : Kda} {typ : Nat} {body : Bytes} {d : Dev}
    (run : State → Session → State × Answer) (hd : screen s.dev p h typ body = some d) :
    serveRequest s p h typ body run = upd s (fun _ => d) := by
  simp only [serveRequest, receive, hd]

/-- Refutes O25: a datagram with an old counter in a frame that the port does not accept is dropped and counted in 0x2F20.08 (R465), not in
0x2F20.02. -/
theorem not_forgedAndRepeatedRequestsDoNothing : ¬ Obligations.ForgedAndRepeatedRequestsDoNothing := by
  unfold Obligations.ForgedAndRepeatedRequestsDoNothing
  intro h
  have hs : Settled (linkedPart openSession) := by unfold Settled; decide
  have hlink : linkUp (linkedPart openSession).dev 0 = true := by decide
  obtain ⟨-, hold, -⟩ := h.1 0 unacceptedWrite [] openSession (linkedPart openSession) hs hlink (by decide) (by decide) rfl
  obtain ⟨d, hexec, hcount, -⟩ := hold (by simp only [unacceptedWrite]) (by decide) (by decide)
  have hscreen : screen (linkedPart openSession).dev 0 unacceptedWrite 0x21 (writeBody []) = some (bump (linkedPart openSession).dev 0x2F20 8) := by
    rw [screen, if_neg (by rw [hlink]; decide), if_pos (show (!unacceptedWrite.plain) = true from rfl)]
  have hdropped : exec (.dictionaryWrite 0 unacceptedWrite []) (linkedPart openSession) =
      .next (upd (linkedPart openSession) (fun _ => bump (linkedPart openSession).dev 0x2F20 8)) :=
    congrArg Host.Outcome.next (serveRequest_screened _ hscreen)
  have hdev : upd (linkedPart openSession) (fun _ => bump (linkedPart openSession).dev 0x2F20 8) = { linkedPart openSession with dev := d } :=
    Host.Outcome.next.inj (hdropped.symm.trans hexec)
  have hzero : og (upd (linkedPart openSession) (fun _ => bump (linkedPart openSession).dev 0x2F20 8)).dev 0x2F20 2 = 0 := by decide
  rw [hdev] at hzero
  exact absurd (hcount.symm.trans hzero) (by decide)

/-! ### Requests that are served -/

/-- An accepted request: it runs with its counter noted, and is answered (R472). -/
theorem serveRequest_accepted {s : State} {p : Port} {h : Kda} {typ : Nat} {body : Bytes} {x : Session} (hs : Settled s)
    (ha : Accepted s p h typ body x) (run : State → Session → State × Answer) {e : Dev} {a : Answer}
    (hrun : run { s with dev := counterNoted s.dev x.id h.counter.toNat } { x with rx := h.counter.toNat } = ({ s with dev := e }, a))
    (ht : e.fc.todo = []) (hc : e.power.cleared = false) :
    serveRequest s p h typ body run = { s with dev := reply e p x.id h.reqId.toNat a } := by
  have hupd : upd s (fun _ => counterNoted s.dev x.id h.counter.toNat) = { s with dev := counterNoted s.dev x.id h.counter.toNat } :=
    upd_settled s _ hs.1 hs.2
  simp only [serveRequest, receive_accepted ha, hupd, hrun]
  exact upd_settled { s with dev := e } _ (by rw [reply_fc]; exact ht) (by rw [reply_power]; exact hc)

/-- What a served request leaves, where its run leaves the session its key and its counters. -/
theorem Served.of_run {c : Instr} {s : State} {p : Port} {h : Kda} {typ : Nat} {body : Bytes} {x y : Session} (hs : Settled s)
    (ha : Accepted s p h typ body x) {run : State → Session → State × Answer} {e : Dev} {rt st : Nat} {rb : Bytes} {P : Dev → Session → Prop}
    (hexec : exec c s = .next (serveRequest s p h typ body run))
    (hrun : run { s with dev := counterNoted s.dev x.id h.counter.toNat } { x with rx := h.counter.toNat } = ({ s with dev := e }, rt, st, rb))
    (ht : e.fc.todo = []) (hc : e.power.cleared = false) (hout : e.out = s.dev.out) (hy : findSession e x.id = some y)
    (hrx : y.rx = h.counter.toNat) (htx : y.tx = x.tx) (hkey : y.key = x.key)
    (hP : P (reply e p x.id h.reqId.toNat (rt, st, rb)) (replied h.reqId.toNat (rt, st, rb) y)) : Served c s p h x rt st rb P := by
  have hresp : response p y rt st h.reqId.toNat rb = response p x rt st h.reqId.toNat rb := by
    simp only [response, id_of_findSession hy, htx, hkey]
  refine ⟨_, replied h.reqId.toNat (rt, st, rb) y, hexec.trans (congrArg _ (serveRequest_accepted hs ha run hrun ht hc)), ?_,
    (findSession_reply hy ..).trans (if_pos rfl), hrx, by rw [replied, htx], hkey, ?_, hP⟩
  · rw [reply_out hy, hout, hresp]
  · simp [replied]

/-- The end of a transfer of the restore methods (0x2E20) with a method the manual reserves. -/
def reservedMethods : SegWrite := ⟨okey 0x2E20 0, 512, List.replicate 512 3⟩

theorem reservedMethods_length : reservedMethods.data.length = 512 := List.length_replicate
theorem reservedMethods_any : reservedMethods.data.any (fun m => 2 < m.toNat) = true :=
  List.any_eq_true.mpr ⟨3, List.mem_replicate.mpr ⟨by decide, rfl⟩, by decide⟩

/-- A request to end a transfer of session 7, with its tag. -/
def endRequest (x : Session) (body : Bytes) : Kda :=
  { session := 7, counter := 6, reqId := 1, plain := true, udp := 36920, version := 1, flags := 0, status := 0, length := 16, reserved := 0
    tag := kdaTag x.key (kdaHeader 0x23 0 0 x.id (6 : BitVec 64).toNat (1 : BitVec 32).toNat body.length) body }

/-- The session whose transfer ends. -/
def endSession : Session := { openSession with segw := some reservedMethods }

theorem endRequest_accepted : Accepted (linkedPart endSession) 0 (endRequest endSession (segBody 0x2E20 0 3 512 0 [])) 0x23
    (segBody 0x2E20 0 3 512 0 []) endSession := by
  refine ⟨?_, rfl, by simp only [endRequest], by decide, .inl rfl, by simp [endSession, openSession]⟩
  have hlink : linkUp (linkedPart endSession).dev 0 = true := by decide
  have hformed : kdaFormed (endRequest endSession (segBody 0x2E20 0 3 512 0 [])) (segBody 0x2E20 0 3 512 0 []) = true := by
    have hlen : (segBody 0x2E20 0 3 512 0 []).length = 16 := by decide
    simp [kdaFormed, endRequest, hlen]
  have hplain : (endRequest endSession (segBody 0x2E20 0 3 512 0 [])).plain = true := rfl
  have hudp : ((endRequest endSession (segBody 0x2E20 0 3 512 0 [])).udp.toNat != kdaPort 0x23) = false := by
    simp only [endRequest]; decide
  simp only [screen, hlink, hformed, hplain, hudp, Bool.not_true, Bool.false_eq_true, if_false]

/-- The row of the restore methods (R450). -/
def methodsRow : Row := ⟨0x2E20, 1, 1, 0, 0, .octets, .rws, false, true, .len 512 512, .special⟩

/-- A reserved restore method is refused (R26, R450). -/
theorem putValue_reserved (s : State) (c : Caller) {b : Bytes} (hlen : b.length = 512) (hb : b.any (fun m => 2 < m.toNat) = true) :
    putValue s c methodsRow 0x2E20 0 b = (s, .reserved) := by
  have hblob : methodsRow.ty.isBlob = true := rfl
  have hseg : segObject 0x2E20 = none := by decide
  have hok : lengthOk methodsRow.rng b.length = true := by rw [hlen]; decide
  have hty : (methodsRow.ty = .str) = False := by decide
  simp [putValue, hblob, putBlob, hseg, hok, hty, hb]

/-- The End of a transfer whose value is not taken: the transfer is over, and nothing is written. -/
theorem segEnd_reserved {s : State} {x : Session} (hx : x.segw = some reservedMethods) (hpair : paired s.dev = false)
    (hadmit : admitWrite (setSegw s x.id none).dev x.caller 0x2E20 0 = (.ok, methodsRow)) :
    segEnd s x 0x2E20 0 = (setSegw s x.id none, .reserved) := by
  have hopen : openSeg x 0x2E20 0 = some reservedMethods := by rw [openSeg, hx]; rfl
  have hput := putValue_reserved (setSegw s x.id none) x.caller reservedMethods_length reservedMethods_any
  have hlocal : writeLocal (setSegw s x.id none) x.caller 0x2E20 0 reservedMethods.data = (setSegw s x.id none, .reserved) := by
    rw [writeLocal, hadmit]
    exact hput
  have hlen : (reservedMethods.data.length != reservedMethods.total) = false := by rw [reservedMethods_length]; rfl
  have hwrite : writeObject (setSegw s x.id none) x.caller ⟨BitVec.ofNat 16 0x2E20, BitVec.ofNat 8 0, 0, reservedMethods.data⟩ =
      (setSegw s x.id none, .reserved, []) := by
    have hp : paired (setSegw s x.id none).dev = false := hpair
    have hl : writeLocal (setSegw s x.id none) x.caller (BitVec.ofNat 16 0x2E20).toNat (BitVec.ofNat 8 0).toNat reservedMethods.data =
      (setSegw s x.id none, .reserved) := hlocal
    simp only [writeObject, hl, hp, Bool.false_and, Bool.false_eq_true, if_false]
  simp only [segEnd, hopen, hlen, Bool.false_eq_true, if_false, hwrite]
  rfl

/-- The End of a transfer, as it runs and is answered. -/
def runEnd (idx : BitVec 16) (sub : BitVec 8) (total : BitVec 32) (s : State) (x : Session) : State × Answer :=
  ((segEnd s x idx.toNat sub.toNat).1, segAnswer (segEnd s x idx.toNat sub.toNat).2 idx.toNat sub.toNat 3 total.toNat 0)

theorem exec_segmentedEnd (p : Port) (h : Kda) (idx : BitVec 16) (sub : BitVec 8) (total : BitVec 32) (s : State) :
    exec (.segmentedEnd p h idx sub total) s =
      .next (serveRequest s p h 0x23 (segBody idx.toNat sub.toNat 3 total.toNat 0 []) (runEnd idx sub total)) := rfl

/-- The refused End of a transfer. -/
theorem runEnd_reserved {s : State} {x : Session} (hx : x.segw = some reservedMethods) (hpair : paired s.dev = false)
    (hadmit : admitWrite (setSegw s x.id none).dev x.caller 0x2E20 0 = (.ok, methodsRow)) :
    runEnd 0x2E20 0 512 s x = (setSegw s x.id none, segAnswer .reserved 0x2E20 0 3 512 0) := by
  have hend : segEnd s x (0x2E20 : BitVec 16).toNat (0 : BitVec 8).toNat = _ := segEnd_reserved hx hpair hadmit
  rw [runEnd, hend]
  rfl

/-- What a session may write does not depend on the sessions there are. -/
theorem admitWrite_onSession (d : Dev) (n : Nat) (f : Session → Session) (c : Caller) (i k : Nat) :
    admitWrite (onSession d n f) c i k = admitWrite d c i k := rfl

theorem admitWrite_endSession (n : Nat) :
    admitWrite (onSession (counterNoted (linkedPart endSession).dev 7 n) 7 (fun x => { x with segw := none })) endSession.caller 0x2E20 0 =
      (.ok, methodsRow) := by
  rw [admitWrite_onSession, counterNoted, admitWrite_onSession]
  decide

/-- Refutes O26: an End with all bytes is answered "reserved" when the value holds a restore method the manual reserves (R26, R450). -/
theorem not_segmentedTransfers : ¬ Obligations.SegmentedTransfers := by
  unfold Obligations.SegmentedTransfers
  intro h
  have hs : Settled (linkedPart endSession) := by unfold Settled; decide
  have hacc := endRequest_accepted
  obtain ⟨r, hr⟩ : ∃ r, r = endRequest endSession (segBody 0x2E20 0 3 512 0 []) := ⟨_, rfl⟩
  rw [← hr] at hacc
  obtain ⟨-, -, hend, -⟩ := h.1 0 r 0 0 512 0 0 [] reservedMethods endSession (linkedPart endSession) hs
  obtain ⟨-, hall⟩ := hend hacc rfl rfl
  obtain ⟨d, y, hexec, -, hy, -, -, -, hstored, -⟩ := hall reservedMethods_length rfl rfl (by decide) (by decide) (by decide) (by decide)
  have hrun := runEnd_reserved (s := { linkedPart endSession with dev := counterNoted (linkedPart endSession).dev endSession.id r.counter.toNat })
    (x := { endSession with rx := r.counter.toNat }) rfl rfl (admitWrite_endSession r.counter.toNat)
  have hserved := serveRequest_accepted hs hacc (runEnd 0x2E20 0 512) hrun rfl rfl
  have hdev := Host.Outcome.next.inj (hexec.symm.trans ((exec_segmentedEnd ..).trans (congrArg Host.Outcome.next hserved)))
  obtain rfl : d = _ := congrArg State.dev hdev
  have hfound := (findSession_reply (d := (setSegw { linkedPart endSession with dev := counterNoted (linkedPart endSession).dev endSession.id r.counter.toNat } endSession.id none).dev)
    (id := endSession.id) rfl 0 r.reqId.toNat (segAnswer .reserved 0x2E20 0 3 512 0) endSession.id).trans (if_pos rfl)
  have hyeq := Option.some.inj (hy.symm.trans hfound)
  rw [hyeq] at hstored
  exact absurd hstored (by simp [replied, endSession, openSession, segAnswer, statusCode])

end Sys2Proof.Machine
end

section
/-! ## Commands that end in an answer; the relay of node firmware -/
namespace Sys2Proof.Machine

/-- A command that does `g` and answers the status `g` gives. -/
theorem Does.answered {c : Instr} {s : State} {g : Dev → Dev × Status} {e : Dev} {st : Status} {P : Dev → Prop} (hs : Settled s)
    (h : exec c s = .next (upd s (fun d => answer (g d).1 (g d).2))) (hg : g s.dev = (e, st)) (ht : e.fc = s.dev.fc)
    (hc : e.power = s.dev.power) (hp : P (answer e st)) : Does c s P :=
  .of_eq (d := answer e st) h (by rw [hg]) ((congrArg (·.todo) ht).trans hs.1) ((congrArg (·.cleared) hc).trans hs.2) hp

theorem Answers.answered {c : Instr} {s : State} {g : Dev → Dev × Status} {st : Status} (hs : Settled s)
    (h : exec c s = .next (upd s (fun d => answer (g d).1 (g d).2))) (hg : g s.dev = (s.dev, st)) : Answers c s st :=
  .of_upd hs h (by rw [hg])

theorem exec_relayStart (s : State) : exec .relayStart s = .next (upd s (fun d => answer (relayStart d).1 (relayStart d).2)) := rfl

theorem exec_relayActivate (s : State) :
    exec .relayActivate s = .next (upd s (fun d => answer (relayActivate d).1 (relayActivate d).2)) := rfl

theorem exec_relayAbort (s : State) :
    exec .relayAbort s = .next (upd s (fun d => if ready d 0 then answer (relayInterrupt d) .ok else answer d .notReady)) := rfl

/-- What stands of node j after an interrupted relay, or a fresh start, is of that node. -/
theorem find_getD_fst (l : List (Nat × Nat × Nat)) (j : Nat) : ((l.find? (fun p => p.1 = j)).getD (j, 0, 0)).1 = j := by
  cases h : l.find? (fun p => p.1 = j) with
  | none => rfl
  | some p => exact of_decide_eq_true (List.find?_some (p := fun p : Nat × Nat × Nat => decide (p.1 = j)) h)

/-- The nodes a relay's start serves (R462). -/
def relayNodes (d : Dev) : List Nat :=
  let ns := (mouldNodes (og d 0x2E60 1) (mould d (og d 0x2E60 1))).filter (fun j => (hd d (og d 0x2E60 1) j).state = 3)
  if og d 0x2E60 2 = 0xFFFF then ns.filter (fun j => (hd d (og d 0x2E60 1) j).ntype = rd (nodeHeader d (og d 0x2E60 3)) 0 2)
  else ns.filter (· = og d 0x2E60 2)

theorem mem_relayNodes {d : Dev} {j : Nat} : j ∈ relayNodes d ↔
    j ∈ mouldNodes (og d 0x2E60 1) (mould d (og d 0x2E60 1)) ∧ (hd d (og d 0x2E60 1) j).state = 3 ∧
      (if og d 0x2E60 2 = 0xFFFF then (hd d (og d 0x2E60 1) j).ntype = rd (nodeHeader d (og d 0x2E60 3)) 0 2 else j = og d 0x2E60 2) := by
  unfold relayNodes
  split <;> simp [and_comm]

theorem relayStart_serves {d : Dev} (hr : ready d 0 = true) (ho : originates d (og d 0x2E60 1) = true) (hk : keyUsable d = true)
    (h2 : 2 ≤ segState d (og d 0x2E60 1)) (h4 : segState d (og d 0x2E60 1) ≤ 4) (h5 : og d 0x2E60 5 ≠ 1)
    (hh : nodeHeader d (og d 0x2E60 3) ≠ []) :
    ∃ m : MgmtSt, m.relayList.map Prod.fst = relayNodes d ∧ m.relaySeg = og d 0x2E60 1 ∧
      relayStart d = (relayCounts (os { d with mgmt := m } 0x2E60 5 (if (relayNodes d).isEmpty then 2 else 1)) 0 0 (relayNodes d).length, .ok) := by
  have hlen : (nodeHeader d (og d 0x2E60 3)).length ≠ 0 := fun h => hh (List.length_eq_zero_iff.mp h)
  simp only [relayStart, hr, ho, hk, h2, h4, h5, hlen, Bool.not_true, Bool.false_or, decide_true, Bool.and_self, Bool.false_eq_true, if_false]
  refine ⟨_, ?_, ?_, rfl⟩
  · simp only [List.map_map]
    exact (List.map_congr_left fun j _ => find_getD_fst _ j).trans (List.map_id _)
  · rfl

theorem relayStart_shows {s : State} (hs : Settled s) (hr : ready s.dev 0 = true) (ho : originates s.dev (og s.dev 0x2E60 1) = true)
    (hk : keyUsable s.dev = true) (h2 : 2 ≤ segState s.dev (og s.dev 0x2E60 1)) (h4 : segState s.dev (og s.dev 0x2E60 1) ≤ 4)
    (h5 : og s.dev 0x2E60 5 ≠ 1) (hh : nodeHeader s.dev (og s.dev 0x2E60 3) ≠ []) :
    Does .relayStart s (fun d => d.mgmt.relayList.map Prod.fst = relayNodes s.dev ∧ og d 0x2E60 8 = d.mgmt.relayList.length ∧
      og d 0x2E60 6 = 0 ∧ og d 0x2E60 7 = 0 ∧ og d 0x2E60 5 = (if d.mgmt.relayList = [] then 2 else 1) ∧ d.mgmt.relaySeg = og s.dev 0x2E60 1 ∧
      d = { s.dev with objs := d.objs, mgmt := d.mgmt, out := s.dev.out ++ [said .ok] }) := by
  obtain ⟨m, hlist, hseg, heq⟩ := relayStart_serves hr ho hk h2 h4 h5 hh
  have hlen : (relayNodes s.dev).length = m.relayList.length := by rw [← hlist, List.length_map]
  have hempty : (relayNodes s.dev).isEmpty = true ↔ m.relayList = [] := by rw [← hlist, List.isEmpty_iff, List.map_eq_nil_iff]
  refine .answered hs (exec_relayStart s) heq rfl rfl ⟨hlist, ?_, ?_, ?_, ?_, hseg, rfl⟩
  · exact (og_os_same ..).trans hlen
  · simp [relayCounts, og_os, okey]
  · simp [relayCounts, og_os, okey]
  · simp only [og_answer, relayCounts, og_os, okey]
    simp [hempty]

theorem relayAbort_interrupts {s : State} (hs : Settled s) (hr : ready s.dev 0 = true) :
    Does .relayAbort s (fun d => og d 0x2E60 5 = (if og s.dev 0x2E60 5 = 1 then 4 else og s.dev 0x2E60 5) ∧
      d = { s.dev with objs := d.objs, mgmt := d.mgmt, out := s.dev.out ++ [said .ok] } ∧ ObjsKept s.dev d [okey 0x2E60 5]) := by
  by_cases h : og s.dev 0x2E60 5 = 1
  · refine .of_eq (d := answer (os { s.dev with mgmt := { s.dev.mgmt with relayList := [], relayOld := s.dev.mgmt.relayList } } 0x2E60 5 4) .ok)
      (exec_relayAbort s) (by rw [if_pos hr, relayInterrupt, if_pos h]) hs.1 hs.2 ⟨?_, rfl, ?_⟩
    · rw [if_pos h]; exact (og_answer ..).trans (og_os_same ..)
    · exact ((ObjsKept.refl s.dev _).os 0x2E60 5 4 (by simp)).congr rfl
  · exact .of_eq (d := answer s.dev .ok) (exec_relayAbort s) (by rw [if_pos hr, relayInterrupt, if_neg h]) hs.1 hs.2
      ⟨(if_neg h).symm, rfl, ObjsKept.refl s.dev _⟩

theorem relayActivate_sends {s : State} (hs : Settled s) (hr : ready s.dev 0 = true) (h4 : segState s.dev s.dev.mgmt.relaySeg = 4)
    (h5 : og s.dev 0x2E60 5 ≠ 1) (ho : originates s.dev s.dev.mgmt.relaySeg = true) :
    Does .relayActivate s (fun d =>
      (seg d s.dev.mgmt.relaySeg).exchanges.map (fun e => (e.node, e.payload)) =
        (seg s.dev s.dev.mgmt.relaySeg).exchanges.map (fun e => (e.node, e.payload)) ++ s.dev.mgmt.relayDone.map (fun j => (j, [7, 4])) ∧
      d = { s.dev with segs := d.segs, out := s.dev.out ++ [said .ok] } ∧ ∀ g, g ≠ s.dev.mgmt.relaySeg → seg d g = seg s.dev g) := by
  have heq : (relayActivate s.dev).2 = .ok := by simp [relayActivate, hr, h4, h5, ho]
  refine .answered (e := (relayActivate s.dev).1) (st := .ok) hs (exec_relayActivate s) (by rw [← heq]) ?_ ?_ ?_ <;>
    simp only [relayActivate, hr, h4, h5, ho, bne_self_eq_false, Bool.not_true, Bool.false_or, decide_false, Bool.false_eq_true, if_false]
  · rfl
  · rfl
  · refine ⟨?_, rfl, fun g hg => (seg_setSeg ..).trans (if_neg hg)⟩
    refine (congrArg (fun x => (SegSt.exchanges x).map _) ((seg_setSeg ..).trans (if_pos rfl))).trans ?_
    simp

/-- Settles O23: by the branches of the relay's start, abort and activation. -/
theorem relayServesAndActivatesNodes : Obligations.RelayServesAndActivatesNodes := by
  unfold Obligations.RelayServesAndActivatesNodes
  intro s hs hr
  refine ⟨fun h5 ho hk h2 h4 => ?busy, fun h5 ho hk h2 h4 hh => ?start, relayAbort_interrupts hs hr,
    fun h4 h5 ho => relayActivate_sends hs hr h4 h5 ho, fun h4 => ?refused⟩
  case busy => exact .answered hs (exec_relayStart s) (by simp [relayStart, hr, ho, hk, h2, h4, h5])
  case start =>
    obtain ⟨d, hexec, hlist, hd⟩ := relayStart_shows hs hr ho hk h2 h4 h5 hh
    exact ⟨d, hexec, fun j => by rw [hlist, mem_relayNodes], hd⟩
  case refused => exact .answered hs (exec_relayActivate s) (by simp [relayActivate, hr, h4])
end Sys2Proof.Machine
end

section
/-! ## Device modes: requests, transitions and entries into Safe-hold -/
namespace Sys2Proof.Machine

theorem Writes.of_objs {a b : Dev} {keys : List Nat} (h : ObjsOnly a b) (hk : ObjsKept a b keys) : Writes a b keys [] :=
  ⟨by rw [List.append_nil]; exact h, hk⟩

/-! ### A logged event -/

/-- The entry that an event with number `q` logs (R456). -/
def eventEntry (d : Dev) (q b c v : Nat) : LogEntry := ⟨q, localNs d, segNs d, 2 + epochFlag d, b, c, v % 2 ^ 32⟩

theorem event_unnumbered {d d1 : Dev} (h : number d = (d1, none)) (b c v : Nat) : event d b c v = (d1, none) := by
  unfold event; rw [h]

theorem event_logged {d d1 : Dev} {q : Nat} (h : number d = (d1, some q)) (b c v : Nat) :
    event d b c v = (logEntry d1 (eventEntry d1 q b c v), some q) := by
  unfold event; rw [h]; rfl

theorem event_cases (d : Dev) (b c v : Nat) :
    (event d b c v).1 = (number d).1 ∨ ∃ e, (event d b c v).1 = logEntry (number d).1 e := by
  obtain ⟨d1, q⟩ | ⟨d1, q⟩ : (∃ d1, number d = (d1, none)) ∨ ∃ p : Dev × Nat, number d = (p.1, some p.2) := by
    rcases h : number d with ⟨d1, _ | q⟩
    · exact .inl ⟨d1, rfl⟩
    · exact .inr ⟨(d1, q), rfl⟩
  · exact .inl (by rw [event_unnumbered q, q])
  · exact .inr ⟨_, by rw [event_logged q, q]⟩

theorem event_kept (d : Dev) (b c v : Nat) : ObjsKept d (event d b c v).1 dropKeys := by
  rcases event_cases d b c v with h | ⟨e, h⟩ <;> rw [h]
  · exact number_kept d
  · exact (number_kept d).trans (logEntry_kept _ e)

theorem event_frame (d : Dev) (b c v : Nat) : (event d b c v).1 = { d with
    objs := (event d b c v).1.objs, host := (event d b c v).1.host
    fc := { d.fc with nextSeq := (event d b c v).1.fc.nextSeq, log := (event d b c v).1.fc.log, waiting := (event d b c v).1.fc.waiting
                      commitLog := (event d b c v).1.fc.commitLog, cond := (event d b c v).1.fc.cond, todo := (event d b c v).1.fc.todo } } := by
  rcases event_cases d b c v with h | ⟨e, h⟩ <;> rw [h]
  · rw [number_frame]
  · rw [logEntry_frame, number_frame]

theorem number_open {d : Dev} (hr : ready d 2 = true) (hs : sealed d = false) :
    number d = ({ d with fc := { d.fc with nextSeq := d.fc.nextSeq + 1 } }, some d.fc.nextSeq) := by
  have hr' : bit (og d 0x1010 0) 2 = true := hr
  simp [number, hr', hs]

theorem event_numbered {d : Dev} (hr : ready d 2 = true) (hs : sealed d = false) (b c v : Nat) :
    (event d b c v).2 = some d.fc.nextSeq ∧ (event d b c v).1.fc.nextSeq = d.fc.nextSeq + 1 := by
  rw [event_logged (number_open hr hs)]
  exact ⟨rfl, by rw [logEntry_frame]⟩

theorem not_mem_dropKeys {i c : Nat} (hi : i ≤ 0x2000) (hc : c < 256) : okey i c ∉ dropKeys := by
  simp [dropKeys, okey]; omega

/-- Objects below index 0x2100 are as they were: what the event log, the axes and the segments leave unchanged. -/
structure LowKept (a b : Dev) : Prop where
  kept : ∀ k, k < 0x210000 → tget objDefault b.objs k = tget objDefault a.objs k

namespace LowKept
theorem refl (a : Dev) : LowKept a a := ⟨fun _ _ => rfl⟩
theorem trans {a b c : Dev} (h : LowKept a b) (g : LowKept b c) : LowKept a c := ⟨fun k hk => (g.kept k hk).trans (h.kept k hk)⟩
theorem congr {a b c : Dev} (h : LowKept a b) (e : c.objs = b.objs) : LowKept a c := ⟨fun k hk => by rw [e]; exact h.kept k hk⟩
theorem os {a b : Dev} (h : LowKept a b) (i c v : Nat) (hi : 0x2100 ≤ i) : LowKept a (Machine.os b i c v) :=
  ⟨fun k hk => (os_other b i c v k (by unfold okey; omega)).trans (h.kept k hk)⟩
theorem og {a b : Dev} (h : LowKept a b) {i c : Nat} (hi : i < 0x2100) (hc : c < 256) : Machine.og b i c = Machine.og a i c :=
  h.kept _ (by unfold okey; omega)
theorem of_kept {a b : Dev} {l : List Nat} (h : ObjsKept a b l) (hl : ∀ k ∈ l, 0x210000 ≤ k) : LowKept a b :=
  ⟨fun k hk => h k (fun hm => absurd (hl k hm) (by omega))⟩
theorem mot {a b : Dev} (h : LowKept a b) (n : Nat) (m : MotionSt) : LowKept a (setMot b n m) := h.congr rfl
theorem srv {a b : Dev} (h : LowKept a b) (n : Nat) (m : ServoSt) : LowKept a (setSrv b n m) := h.congr rfl
theorem cur {a b : Dev} (h : LowKept a b) (n : Nat) (m : CurrentSt) : LowKept a (setCur b n m) := h.congr rfl
theorem stp {a b : Dev} (h : LowKept a b) (n : Nat) (m : StepperSt) : LowKept a (setStp b n m) := h.congr rfl
theorem seg {a b : Dev} (h : LowKept a b) (n : Nat) (m : SegSt) : LowKept a (setSeg b n m) := h.congr rfl
theorem hd {a b : Dev} (h : LowKept a b) (g n : Nat) (m : HeadNode) : LowKept a (setHd b g n m) := h.congr rfl
theorem mgmt {a b : Dev} (h : LowKept a b) (m : MgmtSt) : LowKept a { b with mgmt := m } := h.congr rfl
theorem foldl {α : Type} {g : Dev → α → Dev} (hg : ∀ d x, LowKept d (g d x)) (l : List α) (d : Dev) : LowKept d (l.foldl g d) := by
  induction l generalizing d with
  | nil => exact refl d
  | cons x l ih => exact (hg d x).trans (ih _)
end LowKept

theorem ax_high (n o : Nat) : 0x2100 ≤ ax n o := by unfold ax; omega
theorem sgb_high (g : Nat) : 0x2100 ≤ sgb g := by unfold sgb; split <;> omega

theorem bump_low (d : Dev) (i c : Nat) (hi : 0x2100 ≤ i) : LowKept d (bump d i c) :=
  .of_kept (bump_kept d i c) (by simp [okey]; omega)

theorem event_low (d : Dev) (b c v : Nat) : LowKept d (event d b c v).1 := .of_kept (event_kept d b c v) (by decide)
theorem log_low (d : Dev) (b c v : Nat) : LowKept d (log d b c v) := event_low d b c v

theorem osb_low {a b : Dev} (h : LowKept a b) (i c n : Nat) (v : Bool) (hi : 0x2100 ≤ i) : LowKept a (osb b i c n v) := h.os _ _ _ hi
theorem osi_low {a b : Dev} (h : LowKept a b) (w i c : Nat) (v : Int) (hi : 0x2100 ≤ i) : LowKept a (osi w b i c v) := h.os _ _ _ hi

theorem retireBlend_low (d : Dev) (n : Nat) : LowKept d (retireBlend d n) := by
  unfold retireBlend
  split
  · exact ((LowKept.refl d).mot n _).trans (bump_low _ _ _ (ax_high ..))
  · exact .refl d

theorem homeAbort_low (d : Dev) (n r : Nat) : LowKept d (homeAbort d n r) := by
  unfold homeAbort
  split
  · exact (((LowKept.refl d).mot n _).os (ax n 0x29) 2 _ (ax_high ..)).trans (bump_low _ _ _ (ax_high ..))
  · exact .refl d

theorem showAxis_low (d : Dev) (n : Nat) : LowKept d (showAxis d n) := by
  unfold showAxis
  refine LowKept.os (LowKept.os ?_ _ _ _ (ax_high ..)) _ _ _ (ax_high ..)
  have h := (LowKept.refl d).os (ax n 0x22) 1 (mot d n).queue.length (ax_high ..)
  split
  · split
    · exact ((h.os _ _ _ (ax_high ..)).os _ _ _ (ax_high ..)).os _ _ _ (ax_high ..)
    · exact osi_low ((h.os _ _ _ (ax_high ..)).os _ _ _ (ax_high ..)) _ _ _ _ (ax_high ..)
  · exact ((h.os _ _ _ (ax_high ..)).os _ _ _ (ax_high ..)).os _ _ _ (ax_high ..)

theorem stepperOff_low (d : Dev) (n : Nat) : LowKept d (stepperOff d n) := by
  unfold stepperOff
  split
  · exact osb_low (osb_low (osb_low (((LowKept.refl d).stp n _).os (ax n 0x36) 1 0 (ax_high ..)) _ _ 2 false (ax_high ..)) _ _ 4 _ (ax_high ..))
      _ _ 6 false (ax_high ..)
  · exact .refl d

theorem axisOff_low (d : Dev) (n st : Nat) : LowKept d (axisOff d n st) := by
  have h := (retireBlend_low d n).trans (homeAbort_low _ n 2)
  have hrefs := (((h.mot n { mot (homeAbort (retireBlend d n) n 2) n with
    queue := (mot (homeAbort (retireBlend d n) n 2) n).queue.map QEntry.interrupt, prof := none, demands := [], stop := none }).os
    (ax n 9) 1 st (ax_high ..)).os (ax n 0x24) 2 0 (ax_high ..)).os (ax n 0x24) 3 0 (ax_high ..)
  have htorque := ((hrefs.os (ax n 0x1B) 4 0 (ax_high ..)).os (ax n 0x1B) 5 0 (ax_high ..)).os (ax n 0x1B) 6 0 (ax_high ..)
  exact ((((htorque.srv n _).cur n _).trans (stepperOff_low ..)).trans (showAxis_low ..))

theorem disableAxis_low (d : Dev) (n cause seq : Nat) : LowKept d (disableAxis d n cause seq) := by
  unfold disableAxis setCause
  split
  · exact ((axisOff_low d n 0).os _ _ _ (ax_high ..)).os _ _ _ (ax_high ..)
  · exact .refl d

theorem occur_low (d : Dev) (kind g : Nat) : LowKept d (occur d kind g) := by
  unfold occur
  split
  · exact .refl d
  · exact .foldl (fun d i => by dsimp only; split; exacts [(LowKept.refl d).congr rfl, .refl d]) _ _

theorem mouldStatus_low (d : Dev) (g : Nat) : LowKept d (mouldStatus d g) := by
  have hg := sgb_high g
  have ho : 0x2100 ≤ sgb g + 8 := hg.trans (Nat.le_add_right ..)
  have three (x y z : Nat) : LowKept d (os (os (os d (sgb g + 8) 3 x) (sgb g + 8) 4 y) (sgb g + 8) 5 z) :=
    (((LowKept.refl d).os _ _ _ ho).os _ _ _ ho).os _ _ _ ho
  unfold mouldStatus
  dsimp only
  split
  · refine LowKept.trans ?_ (.foldl (fun d i => (LowKept.refl d).os _ _ _ ho) _ _)
    split
    · exact .refl d
    · exact (LowKept.refl d).os _ _ _ (hg.trans (Nat.le_add_right ..))
  · split
    · exact ((osi_low (three ..) _ _ _ _ ho).os _ _ _ ho).os _ _ _ ho
    · exact (((osi_low (three ..) _ _ _ _ ho).os _ _ _ ho).os _ _ _ ho).os _ _ _ (hg.trans (Nat.le_add_right ..))

theorem syncMoulds_low (d : Dev) : LowKept d (syncMoulds d) := by
  unfold syncMoulds
  refine (LowKept.foldl (fun d g => ?_) _ _).os _ _ _ (by decide)
  exact mouldStatus_low d g

theorem takeMould_low (d : Dev) (g : Nat) : LowKept d (takeMould d g) := by
  unfold takeMould
  split
  · exact ((LowKept.refl d).seg g _).trans (syncMoulds_low _)
  · exact .refl d

theorem forgetNodes_low (d : Dev) (g : Nat) : LowKept d (forgetNodes d g) := by
  unfold forgetNodes
  refine LowKept.trans ?_ (takeMould_low ..)
  refine ((LowKept.foldl (fun d p => ?_) (d.heads.filter (fun p => p.1 / 1024 = g)) d).seg g _).os _ _ _ (sgb_high g)
  dsimp only
  split
  · exact (LowKept.refl d).hd ..
  · exact ((LowKept.refl d).hd ..).os _ _ _ (by unfold fnx; omega)

theorem relayInterrupt_low (d : Dev) : LowKept d (relayInterrupt d) := by
  unfold relayInterrupt
  split
  · exact ((LowKept.refl d).mgmt _).os 0x2E60 5 4 (by decide)
  · exact .refl d

theorem setSegState_low (d : Dev) (g st : Nat) : LowKept d (setSegState d g st) := by
  have hg := sgb_high g
  have hlog : LowKept d (occur (log (os (os d (sgb g) 2 st) (sgb g) 4 d.time.k) (0x10 + g) 1 st) 5 g) :=
    ((((LowKept.refl d).os _ _ _ hg).os _ _ _ hg).trans (log_low ..)).trans (occur_low ..)
  obtain ⟨e, he⟩ : ∃ e, e = occur (log (os (os d (sgb g) 2 st) (sgb g) 4 d.time.k) (0x10 + g) 1 st) 5 g := ⟨_, rfl⟩
  have hforget : LowKept d (if st ≤ 2 then forgetNodes e g else e) := by
    split
    · exact (he ▸ hlog).trans (forgetNodes_low ..)
    · exact he ▸ hlog
  unfold setSegState
  rw [← he]
  dsimp only
  generalize (if st ≤ 2 then forgetNodes e g else e) = f at hforget ⊢
  split
  · exact .refl d
  · split
    · split
      · exact ((hforget.seg g _).os _ 3 0 hg).trans (relayInterrupt_low _)
      · exact (hforget.seg g _).os _ 3 0 hg
    · exact hforget

theorem segLeave_low (d : Dev) (g st : Nat) (r : Bool) : LowKept d (segLeave d g st r) := by
  unfold segLeave
  have h := setSegState_low d g st
  dsimp only
  split
  · have h' := h.trans (LowKept.foldl (fun d n => disableAxis_low d n 7 0) (segAxes (setSegState d g st) g) _)
    split
    · exact h'.congr rfl
    · exact h'
  · exact h

theorem forceSegments_low (d : Dev) (target : Nat) (quiet : Bool) : LowKept d (forceSegments d target quiet) := by
  unfold forceSegments
  refine ((LowKept.foldl (fun d n => disableAxis_low d n 7 0) _ _).trans (LowKept.foldl (fun d g => ?_) _ _)).trans
    (LowKept.foldl (fun d l => ?_) _ _)
  · split
    · exact segLeave_low ..
    · split
      · exact segLeave_low ..
      · exact .refl d
  · dsimp only
    split
    · exact (LowKept.refl d).seg ..
    · exact .refl d

/-! ### Entering a mode -/

/-- What the entry into a mode shows, and that it leaves every other object below the event log's as it was (R46). -/
structure Entered (a b : Dev) (m cause : Nat) (q : Option Nat) : Prop where
  mode : og b 0x1020 1 = m
  prev : og b 0x1020 2 = Machine.mode a
  cycle : og b 0x1020 3 = a.time.k
  cause : og b 0x1020 4 = cause
  number : ∀ n, q = some n → og b 0x1020 5 = n
  others : ∀ i c, i < 0x2100 → i ≠ 0x1020 → c < 256 → og b i c = og a i c
  frame : b = { a with objs := b.objs, host := b.host, fc := b.fc }

theorem enterMode_entered (d : Dev) (m cause : Nat) (q : Option Nat) : Entered d (enterMode d m cause q) m cause q := by
  have hlow := event_low d 1 1 (m + cause * 256)
  have hframe := event_frame d 1 1 (m + cause * 256)
  unfold enterMode
  obtain ⟨e, he⟩ : ∃ e, e = (event d 1 1 (m + cause * 256)).1 := ⟨_, rfl⟩
  rw [← he] at hlow hframe
  have htime : e.time = d.time := by rw [hframe]
  dsimp only
  rw [← he]
  refine ⟨?_, ?_, ?_, ?_, fun n hn => ?_, fun i c hi hne hc => ?_, ?_⟩
  · simp [og_os, okey]
  · simp [og_os, okey]
  · simp [og_os, okey, htime]
  · simp [og_os, okey]
  · simp [hn]
  · have hk (c' : Nat) (hc' : c' < 256) : okey i c ≠ okey 0x1020 c' := by unfold okey; omega
    simp only [og_os, hk 1 (by decide), hk 2 (by decide), hk 3 (by decide), hk 4 (by decide), hk 5 (by decide), if_false]
    exact hlow.og hi hc
  · have hos (n : Nat) : ObjsOnly e (os (os (os (os (os e 0x1020 2 (mode d)) 0x1020 1 m) 0x1020 3 e.time.k) 0x1020 4 cause) 0x1020 5 n) :=
      (((((ObjsOnly.refl e).os _ _ _).os _ _ _).os _ _ _).os _ _ _).os _ _ _
    rw [hos, hframe]

theorem writeBoot_frame (d : Dev) (r : BootRec) : writeBoot d r = { d with key := (writeBoot d r).key } := by
  unfold writeBoot
  split <;> rfl

/-- The device as the confirmation of a trial image leaves it before its log entry (R437). -/
def trialConfirmed (d : Dev) : Dev :=
  let e := writeBoot d { newestBoot d.key with selected := (newestBoot d.key).trial, trial := 0xFF, tries := 0 }
  let f := if rollbackCounter e < rd (slot d.key ((newestBoot d.key).trial = 1)) 16 1 then
    { e with power := { e.power with otp := rd (slot d.key ((newestBoot d.key).trial = 1)) 16 1 } } else e
  os { f with mgmt := { f.mgmt with imgTrial := false } } 0x1002 4 (rollbackCounter f)

theorem trialConfirmed_spec (d : Dev) : ObjsKept d (trialConfirmed d) [okey 0x1002 4] ∧
    (trialConfirmed d).power.safeHold = d.power.safeHold := by
  unfold trialConfirmed
  rw [writeBoot_frame]
  dsimp only
  split
  · exact ⟨((ObjsKept.refl d _).congr rfl).os 0x1002 4 _ (by simp), rfl⟩
  · exact ⟨((ObjsKept.refl d _).congr rfl).os 0x1002 4 _ (by simp), rfl⟩

theorem confirmTrial_cases (d : Dev) : confirmTrial d = d ∨ ∃ v, confirmTrial d = log (trialConfirmed d) 1 7 v := by
  unfold confirmTrial
  split
  · exact .inr ⟨_, rfl⟩
  · exact .inl rfl

theorem confirmTrial_spec (d : Dev) : (∀ i c, i < 0x2100 → i ≠ 0x1002 → c < 256 → og (confirmTrial d) i c = og d i c) ∧
    (confirmTrial d).power.safeHold = d.power.safeHold := by
  obtain ⟨hkept, hpower⟩ := trialConfirmed_spec d
  rcases confirmTrial_cases d with h | ⟨v, h⟩ <;> rw [h]
  · exact ⟨fun _ _ _ _ _ => rfl, rfl⟩
  · refine ⟨fun i c hi hne hc => ?_, ?_⟩
    · exact ((log_low _ 1 7 v).og hi hc).trans (hkept.og (by simp [okey]; omega))
    · unfold log; rw [event_frame]; exact hpower

/-! ### A mode request -/

theorem serveOne_frame (d : Dev) (m : LinkMsg) : serveOne d m = { d with
    pair := { d.pair with queue := (serveOne d m).pair.queue, used := (serveOne d m).pair.used, usedFwd := (serveOne d m).pair.usedFwd }
    out := (serveOne d m).out } := by
  unfold serveOne
  dsimp only
  split
  · split <;> rfl
  · split <;> rfl

theorem servePair_frame (d : Dev) : servePair d = { d with
    pair := { d.pair with queue := (servePair d).pair.queue, used := (servePair d).pair.used, usedFwd := (servePair d).pair.usedFwd }
    out := (servePair d).out } := by
  have hall (l : List LinkMsg) : ∀ e : Dev, l.foldl serveOne e = { e with
      pair := { e.pair with queue := (l.foldl serveOne e).pair.queue, used := (l.foldl serveOne e).pair.used
                            usedFwd := (l.foldl serveOne e).pair.usedFwd }
      out := (l.foldl serveOne e).out } := by
    induction l with
    | nil => exact fun _ => rfl
    | cons m l ih => intro e; rw [List.foldl_cons, ih, serveOne_frame]
  unfold servePair
  rw [hall]

theorem sendPair_frame (d : Dev) (typ : Nat) (b : Bytes) : sendPair d typ b = { d with
    pair := { d.pair with queue := (sendPair d typ b).pair.queue, used := (sendPair d typ b).pair.used
                          usedFwd := (sendPair d typ b).pair.usedFwd }
    out := (sendPair d typ b).out } := by
  have hq : queueLink d typ false b.length b = { d with pair := { d.pair with queue := (queueLink d typ false b.length b).pair.queue } } := by
    unfold queueLink
    split <;> rfl
  unfold sendPair
  rw [servePair_frame, hq]

/-- An item that this unit, not the follower of a pair, offers it is kept with its cycle and sent on (R330). -/
theorem forwardItem_leads {d : Dev} (h : og d 0x3C01 2 ≠ 2) (it : FwdItem) :
    (forwardItem d it).pair.items = d.pair.items ++ [(forwardCycle d it.encode.length, it)] ∧
    forwardItem d it = { d with
      pair := { d.pair with items := (forwardItem d it).pair.items, queue := (forwardItem d it).pair.queue
                            used := (forwardItem d it).pair.used, usedFwd := (forwardItem d it).pair.usedFwd }
      out := (forwardItem d it).out } := by
  unfold forwardItem
  rw [if_neg h]
  dsimp only
  rw [sendPair_frame]
  exact ⟨rfl, rfl⟩

theorem exec_modeRequest (m : BitVec 8) (s : State) : exec (.modeRequest m) s = .next (upd s (fun d =>
    if paired d && ready d 0 && 2 ≤ m.toNat && m.toNat ≤ 5 && og d 0x1021 2 != 1 then answer (forwardItem d (.mode m)) .ok
    else answer (modeRequest d m.toNat).1 (modeRequest d m.toNat).2)) := rfl

theorem modeRequest_refused {m : BitVec 8} {s : State} {st : Status} (hs : Settled s) (h : modeRequest s.dev m.toNat = (s.dev, st))
    (hf : (paired s.dev && ready s.dev 0 && 2 ≤ m.toNat && m.toNat ≤ 5 && og s.dev 0x1021 2 != 1) = false) :
    Answers (.modeRequest m) s st :=
  .of_upd hs (exec_modeRequest m s) (by rw [if_neg (by simp only [hf]; decide), h])

/-- The device with a mode request taken after its event. -/
def requested (d : Dev) (m : Nat) : Dev :=
  os (os (os (os (event d 1 2 m).1 0x1021 1 m) 0x1021 2 1) 0x1021 3 0) 0x1021 4 ((event d 1 2 m).2.getD 0)

theorem modeRequest_taken {d : Dev} {m : Nat} (hr : ready d 0 = true) (h2 : 2 ≤ m) (h5 : m ≤ 5) (hb : og d 0x1021 2 ≠ 1) :
    modeRequest d m = (requested d m, .ok) := by
  simp [modeRequest, requested, hr, hb, show ¬ m < 2 by omega, show ¬ 5 < m by omega]

theorem requested_spec (d : Dev) (m : Nat) :
    og (requested d m) 0x1021 1 = m ∧ og (requested d m) 0x1021 2 = 1 ∧ og (requested d m) 0x1021 3 = 0 ∧
    (ready d 2 = true → sealed d = false → og (requested d m) 0x1021 4 = d.fc.nextSeq ∧ (requested d m).fc.nextSeq = d.fc.nextSeq + 1) ∧
    requested d m = { d with objs := (requested d m).objs, fc := (requested d m).fc, host := (requested d m).host } ∧
    ObjsKept d (requested d m) (dropKeys ++ (List.range 4).map (fun i => okey 0x1021 (i + 1))) := by
  have hmem (i : Nat) (hi : i < 4) : okey 0x1021 (i + 1) ∈ dropKeys ++ (List.range 4).map (fun i => okey 0x1021 (i + 1)) :=
    List.mem_append_right _ (List.mem_map.mpr ⟨i, List.mem_range.mpr hi, rfl⟩)
  have hev : ObjsKept d (event d 1 2 m).1 (dropKeys ++ (List.range 4).map (fun i => okey 0x1021 (i + 1))) :=
    (event_kept d 1 2 m).mono (List.subset_append_left ..)
  have honly : ObjsOnly (event d 1 2 m).1 (requested d m) := ((((ObjsOnly.refl _).os _ _ _).os _ _ _).os _ _ _).os _ _ _
  refine ⟨?_, ?_, ?_, fun hr hs => ⟨?_, ?_⟩, ?_, ?_⟩
  · simp [requested, og_os, okey]
  · simp [requested, og_os, okey]
  · simp [requested, og_os, okey]
  · rw [requested, (event_numbered hr hs 1 2 m).1]; exact og_os_same ..
  · rw [honly, ← (event_numbered hr hs 1 2 m).2]
  · rw [honly, event_frame]
  · exact (((hev.os 0x1021 1 m (hmem 0 (by decide))).os 0x1021 2 1 (hmem 1 (by decide))).os 0x1021 3 0 (hmem 2 (by decide))).os 0x1021 4 _
      (hmem 3 (by decide))

/-- Settles O14: by the answers of `modeRequest`, or by what a forwarded item leaves. -/
theorem modeRequestIsAcceptedAndPends : Obligations.ModeRequestIsAcceptedAndPends := by
  unfold Obligations.ModeRequestIsAcceptedAndPends
  intro m s
  refine ⟨fun hs hr => ?unready, fun hs hr hm => ?range, fun hs hr h2 h5 hb => ?busy, fun hr h2 h5 hb hp => ?taken,
    fun hs hr h2 h5 hb hp hl => ?paired⟩
  case unready => exact modeRequest_refused hs (by simp [modeRequest, hr]) (by simp [hr])
  case range =>
    refine modeRequest_refused hs (by simp [modeRequest, hr]; exact fun _ _ => absurd hm (by omega)) ?_
    rcases hm with hm | hm
    · simp [show ¬ 2 ≤ m.toNat by omega]
    · simp [show ¬ m.toNat ≤ 5 by omega]
  case busy =>
    exact modeRequest_refused hs (by simp [modeRequest, hr, hb, show ¬ m.toNat < 2 by omega, show ¬ 5 < m.toNat by omega]) (by simp [hb])
  case taken =>
    obtain ⟨hm, hpend, hcause, hnum, hframe, hkept⟩ := requested_spec s.dev m.toNat
    have hf : answer (modeRequest s.dev m.toNat).1 (modeRequest s.dev m.toNat).2 = answer (requested s.dev m.toNat) .ok := by
      rw [modeRequest_taken hr h2 h5 hb]
    refine .of_upd (exec_modeRequest m s) ?_
    rw [if_neg (by simp [hp]), hf]
    refine ⟨hm, hpend, hcause, hnum, ?_, hkept.congr rfl⟩
    show emit _ _ = _
    rw [hframe]; rfl
  case paired =>
    obtain ⟨hitems, hframe⟩ := forwardItem_leads hl (.mode m)
    refine .of_eq (d := answer (forwardItem s.dev (.mode m)) .ok) (exec_modeRequest m s) (if_pos (by simp [hp, hr, h2, h5, hb])) ?_ ?_ ⟨hitems, ?_⟩
    · show (forwardItem s.dev (.mode m)).fc.todo = []
      rw [hframe]; exact hs.1
    · show (forwardItem s.dev (.mode m)).power.cleared = false
      rw [hframe]; exact hs.2
    · show emit _ _ = _
      rw [hframe]; rfl

/-! ### Entries into Safe-hold and the end of Bring-up -/

theorem exec_modeTransition (s : State) : exec .modeTransition s = .next (upd s (fun d =>
    if mode d = 1 then (if og d 0x1021 2 = 1 then os (os d 0x1021 2 3) 0x1021 3 1 else d) else modeBoundary d s.isl)) := rfl

/-- The device once Safe-hold is entered for an entry that waited. -/
def heldSafe (d : Dev) (e : SafeHoldEntry) : Dev := enterMode { d with power := { d.power with safeHold := none } } 4 e.cause (some e.seq)

theorem heldSafe_entered (d : Dev) (e : SafeHoldEntry) :
    Entered { d with power := { d.power with safeHold := none } } (heldSafe d e) 4 e.cause (some e.seq) := enterMode_entered ..

theorem modeBoundary_holds {d : Dev} {e : SafeHoldEntry} (isl : IslandSt) (h : d.power.safeHold = some e) (hm : mode d = 2 ∨ mode d = 3) :
    (og d 0x1021 2 ≠ 1 → modeBoundary d isl = heldSafe d e) ∧
    (og d 0x1021 2 = 1 → e.later = true → og d 0x1021 1 ≠ 4 → modeBoundary d isl = os (os (heldSafe d e) 0x1021 2 3) 0x1021 3 3) := by
  have hmode : ¬ ((mode d != 2 && mode d != 3) = true) := by rcases hm with hm | hm <;> simp [hm]
  have hmode' : ¬ ((mode { d with power := { d.power with safeHold := none } } != 2 &&
      mode { d with power := { d.power with safeHold := none } } != 3) = true) := hmode
  have hreq : og (heldSafe d e) 0x1021 1 = og d 0x1021 1 := (heldSafe_entered d e).others 0x1021 1 (by decide) (by decide) (by decide)
  constructor
  · intro hp
    unfold modeBoundary
    rw [h]
    dsimp only
    rw [if_neg hmode', if_pos (by simp [hp])]
    rfl
  · intro hp hl hr
    unfold modeBoundary
    rw [h]
    dsimp only
    rw [if_neg hmode', if_neg (by simp [hp]), if_pos]
    · rfl
    · have hr' : og (heldSafe d e) 0x1021 1 ≠ 4 := hreq ▸ hr
      show (e.later && og (heldSafe d e) 0x1021 1 != 4) = true
      simp [hl, hr']

theorem exec_bringUpComplete (s : State) : exec .bringUpComplete s = .next (
    if mode s.dev != 1 || !(bit (og s.dev 0x1010 0) 0 && bit (og s.dev 0x1010 0) 2 && bit (og s.dev 0x1010 0) 3 && bit (og s.dev 0x1010 0) 4 &&
      (bit (og s.dev 0x1010 0) 1 || bit (og s.dev 0x1011 0) 1)) then s
    else upd s (fun d => confirmTrial (match d.power.safeHold with | some e => heldSafe d e | none => enterMode d 2 4 none))) := rfl

/-- Settles O16: an entry that waits is carried out by the boundary, or at the end of Bring-up. -/
theorem entriesIntoSafeHold : Obligations.EntriesIntoSafeHold := by
  unfold Obligations.EntriesIntoSafeHold
  intro s e
  have hnot1 (hm : mode s.dev = 2 ∨ mode s.dev = 3) : mode s.dev ≠ 1 := by rcases hm with hm | hm <;> simp [hm]
  refine ⟨fun h hm hp => ?entry, fun h hm hp hl hr => ?superseded, fun hm h0 h2 h3 h4 h1 => ?complete, fun h => ?idle⟩
  case entry =>
    have he := heldSafe_entered s.dev e
    refine .of_upd (exec_modeTransition s) ?_
    rw [if_neg (hnot1 hm), (modeBoundary_holds s.isl h hm).1 hp]
    exact ⟨he.mode, he.prev, he.cause, he.number _ rfl, by rw [he.frame], by rw [he.frame]⟩
  case superseded =>
    have he := heldSafe_entered s.dev e
    refine .of_upd (exec_modeTransition s) ?_
    rw [if_neg (hnot1 hm), (modeBoundary_holds s.isl h hm).2 hp hl hr]
    refine ⟨Eq.trans ?_ he.mode, Eq.trans ?_ (he.number _ rfl), ?_, og_os_same ..⟩
    · simp [mode, og_os, okey]
    · simp [og_os, okey]
    · simp [og_os, okey]
  case complete =>
    have hgo : ¬ ((mode s.dev != 1 || !(bit (og s.dev 0x1010 0) 0 && bit (og s.dev 0x1010 0) 2 && bit (og s.dev 0x1010 0) 3 &&
        bit (og s.dev 0x1010 0) 4 && (bit (og s.dev 0x1010 0) 1 || bit (og s.dev 0x1011 0) 1))) = true) := by
      rcases h1 with h1 | h1 <;> simp [hm, h0, h2, h3, h4, h1]
    refine .of_upd ((exec_bringUpComplete s).trans (by rw [if_neg hgo])) ?_
    cases hp : s.dev.power.safeHold with
    | none =>
      have hent := enterMode_entered s.dev 2 4 none
      obtain ⟨hog, hhold⟩ := confirmTrial_spec (enterMode s.dev 2 4 none)
      have hshow (c : Nat) (hc : c < 256) := hog 0x1020 c (by decide) (by decide) hc
      exact ⟨fun _ => ⟨(hshow 1 (by decide)).trans hent.mode, (hshow 4 (by decide)).trans hent.cause⟩, fun h => absurd h (by simp),
        ((hshow 2 (by decide)).trans hent.prev).trans hm, hhold.trans ((congrArg (·.power.safeHold) hent.frame).trans hp)⟩
    | some e' =>
      have hent := heldSafe_entered s.dev e'
      obtain ⟨hog, hhold⟩ := confirmTrial_spec (heldSafe s.dev e')
      have hshow (c : Nat) (hc : c < 256) := hog 0x1020 c (by decide) (by decide) hc
      refine ⟨fun h => absurd h (by simp), fun h => ?_, ((hshow 2 (by decide)).trans hent.prev).trans hm,
        hhold.trans (congrArg (·.power.safeHold) hent.frame)⟩
      obtain rfl : e' = e := Option.some.inj h
      exact ⟨(hshow 1 (by decide)).trans hent.mode, (hshow 4 (by decide)).trans hent.cause, (hshow 5 (by decide)).trans (hent.number _ rfl)⟩
  case idle =>
    refine (exec_bringUpComplete s).trans ?_
    rw [if_pos]
    rcases h with h | h <;> simp [h]

/-! ### The table of transitions -/

theorem pushDemand_low (d : Dev) (n : Nat) (cat : StopCat) (cause seq : Nat) : LowKept d (pushDemand d n cat cause seq) := by
  unfold pushDemand
  split
  · exact (LowKept.refl d).mot ..
  · exact .refl d

theorem safeStops_low (d : Dev) (cur sq : Nat) : LowKept d (carryOut.safeStops d cur sq) := by
  unfold carryOut.safeStops
  split
  · exact .foldl (fun d n => pushDemand_low ..) _ _
  · exact .refl d

/-- A mode that the table allows differs from the mode in force and is one of 2 to 5. -/
theorem transitionAllowed_iff (cur m : Nat) : transitionAllowed cur m = true ↔
    (cur = 2 ∧ (m = 3 ∨ m = 4 ∨ m = 5)) ∨ (cur = 3 ∧ (m = 2 ∨ m = 4)) ∨ (cur = 4 ∧ m = 2) ∨ (cur = 5 ∧ m = 2) := by
  simp [transitionAllowed, or_assoc]

/-- What MODE_TRANSITION does. -/
def boundaryWork (d : Dev) (isl : IslandSt) : Dev :=
  if mode d = 1 then (if og d 0x1021 2 = 1 then os (os d 0x1021 2 3) 0x1021 3 1 else d) else modeBoundary d isl

theorem boundaryWork_idle {d : Dev} (isl : IslandSt) (h : d.power.safeHold = none ∨ mode d = 1) (hp : og d 0x1021 2 ≠ 1) :
    boundaryWork d isl = d := by
  unfold boundaryWork modeBoundary
  by_cases hm : mode d = 1
  · rw [if_pos hm, if_neg hp]
  · rw [if_neg hm, h.resolve_right hm]
    simp [hp]

theorem boundaryWork_requested {d : Dev} (isl : IslandSt) (h : d.power.safeHold = none) (hm : mode d ≠ 1) (hp : og d 0x1021 2 = 1) :
    boundaryWork d isl = carryOut d isl := by
  unfold boundaryWork modeBoundary
  rw [if_neg hm, h]
  simp [hp]

theorem refused_writes (d : Dev) (c : Nat) : og (os (os d 0x1021 2 3) 0x1021 3 c) 0x1021 2 = 3 ∧ og (os (os d 0x1021 2 3) 0x1021 3 c) 0x1021 3 = c ∧
    Writes d (os (os d 0x1021 2 3) 0x1021 3 c) [okey 0x1021 2, okey 0x1021 3] [] := by
  refine ⟨by simp [og_os, okey], og_os_same .., .of_objs (((ObjsOnly.refl d).os 0x1021 2 3).os 0x1021 3 c)
    (((ObjsKept.refl d _).os 0x1021 2 3 (by simp)).os 0x1021 3 c (by simp))⟩

/-- The device after a mode entry that a request asked for, with what the mode forces (R426). -/
theorem carryOut_enters {d : Dev} {isl : IslandSt} (ha : transitionAllowed (mode d) (og d 0x1021 1) = true)
    (hc : entryCondition d isl (og d 0x1021 1) = true) :
    ∃ e, LowKept (enterMode d (og d 0x1021 1) (if mode d = 5 then 6 else 1) (some (og d 0x1021 4))) e ∧
      carryOut d isl = os e 0x1021 2 2 := by
  have htab := (transitionAllowed_iff _ _).mp ha
  have hne : og d 0x1021 1 ≠ mode d := by omega
  have ha' : ¬ (!transitionAllowed (mode d) (og d 0x1021 1)) = true := by simp [ha]
  have hc' : ¬ (!entryCondition d isl (og d 0x1021 1)) = true := by simp [hc]
  unfold carryOut
  dsimp only
  rw [if_neg hne, if_neg ha', if_neg hc']
  by_cases h4 : og d 0x1021 1 = 4
  · rw [if_pos h4, if_neg (show mode d ≠ 5 by omega), h4]
    exact ⟨_, safeStops_low .., rfl⟩
  · rw [if_neg h4]
    by_cases h2 : og d 0x1021 1 = 2
    · rw [if_pos h2, h2]
      split
      · exact ⟨_, .refl _, rfl⟩
      · exact ⟨_, forceSegments_low .., rfl⟩
    · rw [if_neg h2, if_neg (show mode d ≠ 5 by omega)]
      by_cases h5 : og d 0x1021 1 = 5
      · rw [if_pos h5, h5]
        exact ⟨_, forceSegments_low .., rfl⟩
      · rw [if_neg h5, show og d 0x1021 1 = 3 by omega]
        exact ⟨_, .refl _, rfl⟩

theorem entryCondition_running {d : Dev} {isl : IslandSt} (h : entryCondition d isl 3 = true) :
    warning d = false ∧ bit (og d 0x2000 1) 6 = false ∧ ready d 5 = true ∧ isl.state = 4 ∧ isl.stopReq = false := by
  simp only [entryCondition, if_pos, Bool.and_eq_true, Bool.not_eq_true', decide_eq_true_eq] at h
  obtain ⟨⟨⟨⟨⟨hw, ht⟩, hr⟩, hi⟩, hq⟩, -⟩ := h
  exact ⟨hw, ht, hr, hi, hq⟩

theorem entryCondition_service {d : Dev} {isl : IslandSt} (h : entryCondition d isl 5 = true) : warning d = false := by
  simp only [entryCondition, show ¬ (5 : Nat) = 3 by decide, if_false, if_pos, Bool.and_eq_true, Bool.not_eq_true'] at h
  exact h.1

theorem entryCondition_stopped {d : Dev} {isl : IslandSt} (h : mode d = 3 ∨ mode d = 4) : entryCondition d isl 2 = true ↔
    ∀ n ∈ boundAxes d.objs, axState d n ≠ 2 ∧ axState d n ≠ 3 ∧ axState d n ≠ 5 := by
  simp [entryCondition, h, List.all_eq_true, and_assoc]

/-- Settles O15: by the branches of `carryOut`; what a mode forces leaves the objects of the mode alone. -/
theorem requestsAreCarriedOutByTheTable : Obligations.RequestsAreCarriedOutByTheTable := by
  unfold Obligations.RequestsAreCarriedOutByTheTable
  refine ⟨fun s h => ⟨fun hs hp => ?idle, fun hs hp hm he => ?same, fun hs hp hr => ?untabled, fun hs hp ha hc => ?unmet, fun hp ha hc => ?enters⟩,
    fun s => ⟨fun ha => ?_, fun ha => ?_, entryCondition_running, entryCondition_service, entryCondition_stopped⟩⟩
  case idle => exact .of_upd hs (exec_modeTransition s) (boundaryWork_idle s.isl h hp)
  case same =>
    have hwork : boundaryWork s.dev s.isl = os s.dev 0x1021 2 2 :=
      (boundaryWork_requested s.isl (h.resolve_right hm) hm hp).trans (by simp [carryOut, he])
    exact .of_eq (exec_modeTransition s) hwork hs.1 hs.2 ⟨og_os_same .., .of_objs ((ObjsOnly.refl _).os ..)
      ((ObjsKept.refl _ _).os _ _ _ (by simp))⟩
  case untabled =>
    have hwork : boundaryWork s.dev s.isl = os (os s.dev 0x1021 2 3) 0x1021 3 1 := by
      by_cases hm : mode s.dev = 1
      · unfold boundaryWork
        rw [if_pos hm, if_pos hp]
      · obtain ⟨hne, ha⟩ := hr.resolve_left hm
        exact (boundaryWork_requested s.isl (h.resolve_right hm) hm hp).trans (by simp [carryOut, hne, ha])
    exact .of_eq (exec_modeTransition s) hwork hs.1 hs.2 (refused_writes s.dev 1)
  case unmet =>
    have htab := (transitionAllowed_iff _ _).mp ha
    have hm : mode s.dev ≠ 1 := by omega
    have hne : og s.dev 0x1021 1 ≠ mode s.dev := by omega
    have hwork : boundaryWork s.dev s.isl = os (os s.dev 0x1021 2 3) 0x1021 3 2 :=
      (boundaryWork_requested s.isl (h.resolve_right hm) hm hp).trans (by simp [carryOut, hne, ha, hc])
    exact .of_eq (exec_modeTransition s) hwork hs.1 hs.2 (refused_writes s.dev 2)
  case enters =>
    have htab := (transitionAllowed_iff _ _).mp ha
    have hm : mode s.dev ≠ 1 := by omega
    obtain ⟨e, hlow, heq⟩ := carryOut_enters ha hc
    have hent := enterMode_entered s.dev (og s.dev 0x1021 1) (if mode s.dev = 5 then 6 else 1) (some (og s.dev 0x1021 4))
    have hwork : boundaryWork s.dev s.isl = os e 0x1021 2 2 := (boundaryWork_requested s.isl (h.resolve_right hm) hm hp).trans heq
    have hshow (c : Nat) (hc : c < 256) : og (os e 0x1021 2 2) 0x1020 c =
        og (enterMode s.dev (og s.dev 0x1021 1) (if mode s.dev = 5 then 6 else 1) (some (og s.dev 0x1021 4))) 0x1020 c := by
      rw [og_os, if_neg (by unfold okey; omega), hlow.og (by decide) hc]
    refine .of_upd (f := fun d => boundaryWork d s.isl) (exec_modeTransition s) ?_
    rw [hwork]
    exact ⟨(hshow 1 (by decide)).trans hent.mode, (hshow 2 (by decide)).trans hent.prev, (hshow 3 (by decide)).trans hent.cycle,
      (hshow 4 (by decide)).trans hent.cause, (hshow 5 (by decide)).trans (hent.number _ rfl), og_os_same ..⟩
  · have := (transitionAllowed_iff _ _).mp ha
    omega
  · have := (transitionAllowed_iff _ _).mp ha
    omega

end Sys2Proof.Machine
end

section
/-! ## Reports that change no other block; the pattern key and the power domains -/
namespace Sys2Proof.Machine

/-! ### What the collector does with a report -/

/-- From `a` to `b` the collector numbered, counted, latched and logged: it changed values of the objects `l` and no source's condition but
that of the dropped log (185). -/
structure Noted (a b : Dev) (l : List Nat) : Prop where
  frame : b = { a with
    objs := b.objs, host := b.host, acq := b.acq
    fc := { a.fc with nextSeq := b.fc.nextSeq, log := b.fc.log, waiting := b.fc.waiting, commitLog := b.fc.commitLog
                      cond := b.fc.cond, todo := b.fc.todo, errPins := b.fc.errPins } }
  kept : ObjsKept a b l
  cond : ∀ n, n ≠ 185 → bit b.fc.cond n = bit a.fc.cond n

namespace Noted
theorem refl (a : Dev) (l : List Nat) : Noted a a l := ⟨rfl, .refl a l, fun _ _ => rfl⟩

theorem trans {a b c : Dev} {l : List Nat} (h : Noted a b l) (g : Noted b c l) : Noted a c l :=
  ⟨by rw [g.frame, h.frame], h.kept.trans g.kept, fun n hn => (g.cond n hn).trans (h.cond n hn)⟩

theorem mono {a b : Dev} {l m : List Nat} (h : Noted a b l) (hl : l ⊆ m) : Noted a b m := ⟨h.frame, h.kept.mono hl, h.cond⟩

theorem wire {a b : Dev} {l : List Nat} (h : Noted a b l) : b.fc.wire = a.fc.wire := by rw [h.frame]

theorem og {a b : Dev} {l : List Nat} (h : Noted a b l) {i c : Nat} (hk : okey i c ∉ l) : Machine.og b i c = Machine.og a i c := h.kept.og hk
end Noted

theorem bump_noted (d : Dev) (i c : Nat) : Noted d (bump d i c) [okey i c] :=
  ⟨by rw [bump_frame], bump_kept d i c, fun _ _ => by rw [bump_cond]⟩

theorem number_noted (d : Dev) : Noted d (number d).1 dropKeys := by
  refine ⟨by rw [number_frame], number_kept d, fun _ _ => ?_⟩
  rw [number_frame]

theorem bufferEntry_noted (d : Dev) (e : LogEntry) : Noted d (bufferEntry d e) dropKeys := by
  refine ⟨rfl, (ObjsKept.refl d _).congr rfl, fun n hn => ?_⟩
  show bit (setBit d.fc.cond 185 false) n = _
  rw [bit_setBit, if_neg hn]

theorem logEntry_noted (d : Dev) (e : LogEntry) : Noted d (logEntry d e) dropKeys := by
  unfold logEntry
  split
  · split
    · exact (bump_noted d _ _).mono (by decide)
    · exact Noted.trans (b := { d with fc := { d.fc with commitLog := d.fc.commitLog + 1 } }) ⟨rfl, (ObjsKept.refl d _).congr rfl, fun _ _ => rfl⟩
        (bufferEntry_noted _ e)
  · split
    · have h := (bump_noted d 0x2100 6).mono (m := dropKeys) (by decide)
      exact ⟨by rw [later, h.frame], h.kept.congr rfl, h.cond⟩
    · exact bufferEntry_noted d e

theorem event_noted (d : Dev) (b c v : Nat) : Noted d (event d b c v).1 dropKeys := by
  rcases event_cases d b c v with h | ⟨e, h⟩ <;> rw [h]
  · exact number_noted d
  · exact (number_noted d).trans (logEntry_noted _ e)

theorem log_noted (d : Dev) (b c v : Nat) : Noted d (log d b c v) dropKeys := event_noted d b c v

theorem faultLog_noted (d : Dev) (r : Report) (q : Option Nat) : Noted d (faultLog d r q) dropKeys := by
  unfold faultLog
  split
  · exact .refl d _
  · exact logEntry_noted d _

/-- Reactions of at most I and E. -/
def Mild (d : Dev) (src : Nat) : Prop := ∀ b ∈ [1, 2, 3], bit (og d (0x3900 + src) 1) b = false

theorem react_noted {d : Dev} {r : Report} (q : Option Nat) (hcfg : Mild d r.src) : Noted d (react d r q) dropKeys := by
  have hpins : Noted d (if bit (og d (0x3900 + r.src) 1) 4 then { d with fc := { d.fc with errPins := true } } else d) dropKeys := by
    split
    · exact ⟨rfl, (ObjsKept.refl d _).congr rfl, fun _ _ => rfl⟩
    · exact .refl d _
  simp only [react, hcfg 1 (by simp), hcfg 2 (by simp), hcfg 3 (by simp), Bool.false_eq_true, if_false]
  split
  · exact hpins.trans (faultLog_noted ..)
  · exact hpins

theorem latch_noted (d : Dev) (r : Report) (q : Nat) : Noted d (latch d r q) ((List.range 8).map (fun i => okey 0x3800 (i + 1))) :=
  ⟨by rw [latch_frame], latch_kept d r q, fun _ _ => by rw [latch_frame]⟩

theorem noteFault_noted (d : Dev) (n : Nat) (q : Option Nat) (l : List Nat) : Noted d (noteFault d n q) l :=
  ⟨by rw [noteFault_frame], (ObjsKept.refl d l).congr (by rw [noteFault_frame]), fun _ _ => by rw [noteFault_frame]⟩

theorem sourceStatus_noted (d : Dev) (n m : Nat) : Noted d (sourceStatus d n m)
    [okey 0x2000 1, okey 0x2010 2, okey 0x2010 3, okey 0x2020 1, okey 0x2020 2, okey 0x2020 3] :=
  ⟨by rw [sourceStatus_fc_frame], sourceStatus_kept d n m, fun _ _ => by rw [sourceStatus_fc_frame]⟩

/-- A source's report with reactions of at most I and E, from a ready collector on (R374-R387, R527). -/
structure Shown (a b : Dev) (src : Nat) : Prop where
  frame : b = { a with
    objs := b.objs, host := b.host, acq := b.acq
    fc := { a.fc with nextSeq := b.fc.nextSeq, log := b.fc.log, waiting := b.fc.waiting, commitLog := b.fc.commitLog
                      cond := b.fc.cond, todo := b.fc.todo, errPins := b.fc.errPins } }
  kept : ObjsKept a b (dropKeys ++ reportKeys src)
  cond : ∀ n, n ≠ 185 → bit b.fc.cond n = (bit a.fc.cond n || levelSource src && decide (n = src))
  count : live a src = false → og a (0x3840 + src) 0 < 0xFFFFFFFF → og b (0x3840 + src) 0 = og a (0x3840 + src) 0 + 1

/-- The condition a level source's report sets, with its status. -/
def lit (d : Dev) (src datum : Nat) : Dev :=
  if levelSource src then sourceStatus { d with fc := { d.fc with cond := setBit d.fc.cond src true } } src datum else d

theorem lit_shows (d : Dev) (src datum : Nat) (b : Dev) (h : Noted (lit d src datum) b (dropKeys ++ reportKeys src)) :
    b = { d with
      objs := b.objs, host := b.host, acq := b.acq
      fc := { d.fc with nextSeq := b.fc.nextSeq, log := b.fc.log, waiting := b.fc.waiting, commitLog := b.fc.commitLog
                        cond := b.fc.cond, todo := b.fc.todo, errPins := b.fc.errPins } } ∧
    ObjsKept d b (dropKeys ++ reportKeys src) ∧
    ∀ n, n ≠ 185 → bit b.fc.cond n = (bit d.fc.cond n || levelSource src && decide (n = src)) := by
  unfold lit at h
  cases hl : levelSource src
  · rw [hl, if_neg (by decide)] at h
    exact ⟨h.frame, h.kept, fun n hn => by simpa using h.cond n hn⟩
  · rw [hl, if_pos rfl] at h
    have hst := (sourceStatus_noted { d with fc := { d.fc with cond := setBit d.fc.cond src true } } src datum).mono
      (m := dropKeys ++ reportKeys src) (by simp [reportKeys])
    have hall := hst.trans h
    refine ⟨by rw [hall.frame], fun k hk => hall.kept k hk, fun n hn => ?_⟩
    rw [hall.cond n hn]
    show bit (setBit d.fc.cond src true) n = _
    rw [bit_setBit]
    by_cases hns : n = src <;> simp [hns]

theorem lit_ready (d : Dev) (src datum : Nat) {i c : Nat} (hk : okey i c ∉ dropKeys ++ reportKeys src) : og (lit d src datum) i c = og d i c :=
  (lit_shows d src datum _ (.refl _ _)).2.1.og hk

theorem reactions_not_reported (src : Nat) : okey (0x3900 + src) 1 ∉ dropKeys ++ reportKeys src := by
  simp [dropKeys, reportKeys, List.range, List.range.loop, okey]; omega

/-- A report while the source is already live is logged, with reaction I, and not counted (R387). -/
theorem assertReport_standing {d : Dev} {src cause datum : Nat} (hr : ready d 2 = true) (h : (levelSource src && bit d.fc.cond src) = false)
    (hlive : live d src = true) :
    (assertReport d ⟨src, cause, datum, false, false, 0⟩).1 =
      if bit (og (lit d src datum) (0x3900 + src) 1) 0 then
        faultLog (number (lit d src datum)).1 ⟨src, cause, datum, false, false, 0⟩ (number (lit d src datum)).2 else lit d src datum := by
  unfold lit
  cases hl : levelSource src
  case false =>
    simp only [assertReport, hr, hlive, hl, Bool.not_true, Bool.false_and, Bool.or_self, Bool.false_eq_true, if_false, if_true]
    split <;> rfl
  case true =>
    have hc : bit d.fc.cond src = false := by simpa [hl] using h
    simp only [assertReport, hr, hlive, hl, hc, Bool.not_true, Bool.not_false, Bool.and_true, Bool.and_false, Bool.or_self, Bool.false_eq_true,
      if_false, if_true]
    split <;> rfl

/-- A counter below its last value goes up by one. -/
theorem og_bump_same {d : Dev} {i c : Nat} (h : og d i c < 0xFFFFFFFF) : og (bump d i c) i c = og d i c + 1 := by
  simp only [bump, if_neg (Nat.not_le.mpr h)]
  split
  · exact og_os_same ..
  · exact og_os_same ..

theorem report_shown {d : Dev} {src : Nat} (cause datum : Nat) (hr : ready d 2 = true) (hcfg : Mild d src) : Shown d (report d src cause datum) src := by
  unfold report raise
  cases hlev : levelSource src && bit d.fc.cond src
  case true =>
    rw [Bool.and_eq_true] at hlev
    obtain ⟨hl, hc⟩ := hlev
    have hsame : assertReport d ⟨src, cause, datum, false, false, 0⟩ = (d, none) := by simp [assertReport, hr, hl, hc]
    rw [hsame]
    refine ⟨rfl, .refl d _, fun n hn => ?_, fun hlive => ?_⟩
    · by_cases hns : n = src <;> simp [hns, hc, hl]
    · simp [live, hc] at hlive
  case false =>
    have hcfg' (e : Dev) (he : Noted (lit d src datum) e (dropKeys ++ reportKeys src)) : Mild e src := fun b hb => by
      rw [(lit_shows d src datum e he).2.1.og (reactions_not_reported src)]; exact hcfg b hb
    cases hlive : live d src
    case true =>
      rw [assertReport_standing hr hlev hlive]
      have hnoted : Noted (lit d src datum) (if bit (og (lit d src datum) (0x3900 + src) 1) 0 then
          faultLog (number (lit d src datum)).1 ⟨src, cause, datum, false, false, 0⟩ (number (lit d src datum)).2 else lit d src datum)
          (dropKeys ++ reportKeys src) := by
        split
        · exact ((number_noted _).trans (faultLog_noted ..)).mono (List.subset_append_left ..)
        · exact .refl _ _
      obtain ⟨hframe, hkept, hcond⟩ := lit_shows d src datum _ hnoted
      exact ⟨hframe, hkept, hcond, fun h => absurd hlive (by simp [h])⟩
    case false =>
      rw [assertReport_new (r := ⟨src, cause, datum, false, false, 0⟩) hr hlive rfl rfl]
      have hcounted : counted d ⟨src, cause, datum, false, false, 0⟩ = bump (lit d src datum) (0x3840 + src) 0 := rfl
      have hcount : Noted (lit d src datum) (counted d ⟨src, cause, datum, false, false, 0⟩) (dropKeys ++ reportKeys src) := by
        rw [hcounted]; exact (bump_noted _ _ _).mono (by simp [reportKeys])
      have hasserted : Noted (counted d ⟨src, cause, datum, false, false, 0⟩) (asserted d ⟨src, cause, datum, false, false, 0⟩)
          (dropKeys ++ (List.range 8).map (fun i => okey 0x3800 (i + 1))) :=
        (((number_noted _).mono (List.subset_append_left ..)).trans ((latch_noted _ _ _).mono (List.subset_append_right ..))).trans
          (noteFault_noted _ _ _ _)
      have hwide : dropKeys ++ (List.range 8).map (fun i => okey 0x3800 (i + 1)) ⊆ dropKeys ++ reportKeys src :=
        List.append_subset.mpr ⟨List.subset_append_left .., List.subset_append_of_subset_right _ (List.subset_append_right ..)⟩
      have hreact := react_noted (r := ⟨src, cause, datum, false, false, 0⟩) (number (counted d ⟨src, cause, datum, false, false, 0⟩)).2
        (hcfg' _ (hcount.trans (hasserted.mono hwide)))
      obtain ⟨hframe, hkept, hcond⟩ := lit_shows d src datum _ ((hcount.trans (hasserted.mono hwide)).trans (hreact.mono (List.subset_append_left ..)))
      refine ⟨hframe, hkept, hcond, fun _ hmax => ?_⟩
      have hafter := hasserted.trans (hreact.mono (List.subset_append_left ..))
      have hlit : og (lit d src datum) (0x3840 + src) 0 = og d (0x3840 + src) 0 := by
        unfold lit
        split
        · exact (sourceStatus_kept _ src datum).og (by simp [okey]; omega)
        · rfl
      rw [hafter.og (by simp [dropKeys, List.range, List.range.loop, okey]; omega), hcounted, og_bump_same (hlit ▸ hmax), hlit]

/-! ### What losing a readiness bit leaves -/

theorem osf_low {a b : Dev} (h : LowKept a b) (i c : Nat) (v : F32) (hi : 0x2100 ≤ i) : LowKept a (osf b i c v) := h.os _ _ _ hi

theorem LowKept.of_objs {a b : Dev} (h : b.objs = a.objs) : LowKept a b := (LowKept.refl a).congr h

theorem LowKept.pair {a b : Dev} (h : LowKept a b) (p : PairSt) : LowKept a { b with pair := p } := h.congr rfl

theorem LowKept.time {a b : Dev} (h : LowKept a b) (t : TimeSt) : LowKept a { b with time := t } := h.congr rfl

theorem segStatus_low {a b : Dev} (h : LowKept a b) (n : Nat) (v : Bool) : LowKept a (segStatus b n v) := osb_low h _ _ _ _ (by decide)

theorem switchSource_low (d : Dev) (src : Nat) : LowKept d (switchSource d src) := by
  have h := ((((LowKept.refl d).os 0x3410 6 src (by decide)).trans (bump_low _ 0x3410 0x0A (by decide))).trans (log_low _ 2 1 src))
  have h' := segStatus_low (segStatus_low (segStatus_low (osf_low h 0x3410 8 0 (by decide)) 2 false) 1 false) 3 (src = 0)
  unfold switchSource
  dsimp only
  split
  · exact segStatus_low (osf_low (h'.time _) 0x3410 0x0B 0 (by decide)) 7 false
  · exact h'

theorem leftLocked_low (d : Dev) (n : Nat) : LowKept d (leftLocked d n) := by
  unfold leftLocked
  split
  · exact .refl d
  · split
    · exact switchSource_low ..
    · exact segStatus_low (segStatus_low (osf_low (osf_low ((LowKept.refl d).os 0x3410 6 3 (by decide)) 0x3410 8 0 (by decide)) 0x3410 0x0B _
        (by decide)) 2 true) 1 false

theorem setDomState_low (d : Dev) (n st : Nat) : LowKept d (setDomState d n st) := by
  have h := (LowKept.refl d).os (0x3428 + n) 1 st (by omega)
  unfold setDomState
  dsimp only
  split
  · exact h.trans (leftLocked_low ..)
  · exact h

theorem domHoldover_low (d : Dev) (n : Nat) : LowKept d (domHoldover d n) := by
  unfold domHoldover
  split
  · exact .trans (b := setDom d n { dom d n with best := none, heard := [], offsets := [], good := 0, bad := 0 }) (.of_objs rfl)
      (setDomState_low ..)
  · exact .refl d

theorem chanRun_low (d : Dev) (c t : Nat) : LowKept d (chanRun d c t) := by
  unfold chanRun
  dsimp only
  split
  · exact .of_objs rfl
  · exact .of_objs rfl

theorem chanStopped_low (d : Dev) (c t : Nat) : LowKept d (chanStop (chanRun d c t) c) :=
  (chanRun_low d c t).trans (.of_objs (b := chanStop (chanRun d c t) c) rfl)

theorem storeLost_low (d : Dev) : LowKept d (storeLost d) := by
  have hidle : LowKept d ((List.range 4).foldl (fun d s => os d (0x3613 + 0x10 * s) 1 0) d) :=
    .foldl (fun d s => (LowKept.refl d).os (0x3613 + 0x10 * s) 1 0 (by omega)) _ _
  unfold storeLost
  refine LowKept.os ?_ 0x3600 2 0 (by decide)
  exact hidle.trans (.of_objs rfl)

theorem padLost_low (d : Dev) (c : Nat) : LowKept d ((clusterAxes (setPad d c Pad.clear) c).foldl (fun d n => disableAxis d n 4 0) (setPad d c Pad.clear)) :=
  .trans (b := setPad d c Pad.clear) (.of_objs rfl) (.foldl (fun d n => disableAxis_low d n 4 0) _ _)

theorem emuLost_low (d : Dev) : LowKept d (lostBit d 16) := by
  refine LowKept.trans (b := (List.range 8).foldl (fun e m => emuStop e m (fabricTicks d)) d) (.foldl (g := fun e m => emuStop e m (fabricTicks d)) (fun e m => .of_objs rfl) _ _)
    (.foldl (fun e n => ?_) _ _)
  split
  · exact .trans (b := osb e (ax n 0x1B) 7 4 true) (osb_low (.refl e) _ _ _ _ (ax_high ..)) (.of_objs rfl)
  · exact .refl e

theorem lostBit_low (d : Dev) (b : Nat) : LowKept d (lostBit d b) := by
  by_cases h16 : b = 16
  · rw [h16]; exact emuLost_low d
  unfold lostBit
  split
  · have h := padLost_low d (b - 6)
    dsimp only
    split
    · exact h.trans (.of_objs rfl)
    · exact h
  split
  · have ho : 0x2100 ≤ phyStatus (b - 18) := by unfold phyStatus; split <;> exact (sgb_high _).trans (Nat.le_add_right ..)
    exact (((LowKept.refl d).os _ 1 0 ho).os _ 2 0 ho).trans (segLeave_low ..)
  split
  · exact storeLost_low d
  split
  · exact .foldl (g := fun e c => chanStop (chanRun e c (stepTicks d)) c) (fun e c => chanStopped_low e c _) (List.range 16) d
  split
  · exact (domHoldover_low d 0).trans (domHoldover_low _ 1)
  split
  · exact ((LowKept.refl d).pair _).os 0x3C01 9 0 (by decide)
  · exact .refl d

/-- Clearing readiness bits clears them, gains none, and leaves the other objects below the event log's. -/
theorem clearReady_spec (d : Dev) (bs : List Nat) :
    (∀ b, ready (clearReady d bs) b = true → ready d b = true ∧ b ∉ bs) ∧
    ∀ i c, i < 0x2100 → i ≠ 0x1010 → c < 256 → og (clearReady d bs) i c = og d i c := by
  have hlow : LowKept (os d 0x1010 0 (closeReady d (clearBits (og d 0x1010 0) bs))) (clearReady d bs) := LowKept.foldl lostBit_low _ _
  refine ⟨fun b hb => ?_, fun i c hi hne hc => ?_⟩
  · unfold ready at hb
    rw [hlow.og (by decide) (by decide), og_os_same] at hb
    have := bit_of_closeReady hb
    rw [bit_clearBits, Bool.and_eq_true, Bool.not_eq_true', ← Bool.not_eq_true, List.contains_iff_mem] at this
    exact this
  · rw [hlow.og hi hc, og_os, if_neg (by unfold okey; omega)]

/-! ### The pattern key (R434, R443) -/

/-- The device without its key (R434). -/
def withoutKey (d : Dev) : Dev := os (os { d with key := { d.key with present := false, readable := false } } 0x2E00 1 0) 0x2E00 2 0

theorem exec_keyRemoved (s : State) : exec .keyRemoved s = .next (
    if !s.dev.key.present then s
    else upd s (fun d => report (if (withoutKey d).mgmt.storing then storeFail (withoutKey d) else withoutKey d) 179 0 0)) := rfl

/-- The objects a failed store writes beside its log entry. -/
def storeFailKeys : List Nat :=
  [okey 0x2E00 5, okey 0x2E00 6, okey 0x2E00 7, okey 0x2E00 8, okey 0x2E00 10, okey 0x2E10 2, okey 0x2E10 3]

theorem syncSets_spec (d : Dev) : ObjsOnly d (syncSets d) ∧ ObjsKept d (syncSets d) storeFailKeys := by
  unfold syncSets
  have hk := ((((ObjsKept.refl d storeFailKeys).os 0x2E00 5 d.key.setA.seq (by decide)).os 0x2E00 6 (setState d.key.setA) (by decide)).os
    0x2E00 7 d.key.setB.seq (by decide)).os 0x2E00 8 (setState d.key.setB) (by decide)
  have ho := ((((ObjsOnly.refl d).os 0x2E00 5 d.key.setA.seq).os 0x2E00 6 (setState d.key.setA)).os 0x2E00 7 d.key.setB.seq).os
    0x2E00 8 (setState d.key.setB)
  dsimp only
  split
  · exact ⟨(ho.os _ _ _).os _ _ _, (hk.os 0x2E10 3 _ (by decide)).os 0x2E00 10 _ (by decide)⟩
  · exact ⟨(ho.os _ _ _).os _ _ _, (hk.os 0x2E10 3 _ (by decide)).os 0x2E00 10 _ (by decide)⟩

theorem storeFail_spec (d : Dev) : (storeFail d).mgmt.storing = false ∧ (storeFail d).key = d.key ∧ og (storeFail d) 0x2E10 2 = 3 ∧
    ObjsKept d (storeFail d) (dropKeys ++ storeFailKeys) ∧ (storeFail d).fc.wire = d.fc.wire ∧
    ∀ n, n ≠ 185 → bit (storeFail d).fc.cond n = bit d.fc.cond n := by
  obtain ⟨honly, hkept⟩ := syncSets_spec { d with mgmt := { d.mgmt with storing := false } }
  have hlog := log_noted (os (syncSets { d with mgmt := { d.mgmt with storing := false } }) 0x2E10 2 3) 1 3 (b2n d.mgmt.storeB)
  have hframe : os (syncSets { d with mgmt := { d.mgmt with storing := false } }) 0x2E10 2 3 =
      { d with objs := (os (syncSets { d with mgmt := { d.mgmt with storing := false } }) 0x2E10 2 3).objs, mgmt := { d.mgmt with storing := false } } := by
    rw [honly.os 0x2E10 2 3]
  unfold storeFail
  dsimp only
  refine ⟨?_, ?_, ?_, ?_, ?_, fun n hn => ?_⟩
  · rw [hlog.frame, hframe]
  · rw [hlog.frame, hframe]
  · rw [hlog.og (by decide), og_os_same]
  · exact ObjsKept.trans (((hkept.os 0x2E10 2 3 (by decide)).mono (List.subset_append_right ..)).congr rfl)
      (hlog.kept.mono (List.subset_append_left ..))
  · rw [hlog.wire, hframe]
  · rw [hlog.cond n hn, hframe]

theorem ready_of_og {a b : Dev} (h : og b 0x1010 0 = og a 0x1010 0) (n : Nat) : ready b n = ready a n := by unfold ready; rw [h]

theorem keyRemoved_reports {s : State} (hp : s.dev.key.present = true) (hcalm : Calm s.dev 179) : Leaves .keyRemoved s (fun d =>
    d.key.present = false ∧ keyUsable d = false ∧ og d 0x2E00 1 = 0 ∧ og d 0x2E00 2 = 0 ∧ bit d.fc.cond 179 = true ∧
    og d (0x3840 + 179) 0 = og s.dev (0x3840 + 179) 0 + 1 ∧ (s.dev.mgmt.storing = true → d.mgmt.storing = false ∧ og d 0x2E10 2 = 3)) := by
  obtain ⟨hr, -, -, hlive, hcfg, -, -, -, hcount, -, -⟩ := hcalm
  -- the device that reports the missing key
  obtain ⟨e, he⟩ : ∃ e, e = if (withoutKey s.dev).mgmt.storing then storeFail (withoutKey s.dev) else withoutKey s.dev := ⟨_, rfl⟩
  have hbase : e.key = (withoutKey s.dev).key ∧ ObjsKept (withoutKey s.dev) e (dropKeys ++ storeFailKeys) ∧ e.fc.wire = s.dev.fc.wire ∧
      bit e.fc.cond 179 = bit s.dev.fc.cond 179 ∧ (s.dev.mgmt.storing = true → e.mgmt.storing = false ∧ og e 0x2E10 2 = 3) := by
    rw [he]
    obtain ⟨hstop, hkey, hfail, hkept, hwire, hcond⟩ := storeFail_spec (withoutKey s.dev)
    split
    · exact ⟨hkey, hkept, hwire, hcond 179 (by decide), fun _ => ⟨hstop, hfail⟩⟩
    · next h => exact ⟨rfl, .refl _ _, rfl, rfl, fun hst => absurd hst h⟩
  obtain ⟨hkey, hkept, hwire, hcond, hstore⟩ := hbase
  have hkl (i c : Nat) (hi : okey i c ≠ okey 0x2E00 1) (hi' : okey i c ≠ okey 0x2E00 2) (hn : okey i c ∉ dropKeys ++ storeFailKeys) :
      og e i c = og s.dev i c := by
    rw [hkept.og hn, withoutKey]
    simp only [og_os, hi, hi', if_false]
    rfl
  have hready : ready e 2 = true := (ready_of_og (hkl 0x1010 0 (by decide) (by decide) (by decide)) 2).trans hr
  have hmild : Mild e 179 := fun b hb => by rw [hkl _ _ (by decide) (by decide) (by decide)]; exact hcfg b hb
  have hlive' : live e 179 = false := by
    unfold live forced at hlive ⊢
    rw [hcond, hwire, hkl _ _ (by decide) (by decide) (by decide)]; exact hlive
  have hn := hkl (0x3840 + 179) 0 (by decide) (by decide) (by decide)
  have hshown := report_shown (src := 179) 0 0 hready hmild
  have hk : (report e 179 0 0).key = (withoutKey s.dev).key := by rw [hshown.frame]; exact hkey
  refine .of_upd ((exec_keyRemoved s).trans (by rw [if_neg (by simp [hp])])) ?_
  rw [← he]
  refine ⟨?_, ?_, ?_, ?_, ?_, ?_, fun hst => ⟨?_, ?_⟩⟩
  · rw [hk]; rfl
  · unfold keyUsable; rw [hk]; rfl
  · exact (hshown.kept.og (by decide)).trans ((hkept.og (by decide)).trans (by simp [withoutKey, og_os, okey]))
  · exact (hshown.kept.og (by decide)).trans ((hkept.og (by decide)).trans (og_os_same ..))
  · rw [hshown.cond 179 (by decide)]; simp [levelSource]
  · rw [hshown.count hlive' (by rw [hn]; omega), hn]
  · rw [hshown.frame]; exact (hstore hst).1
  · rw [hshown.kept.og (by decide)]; exact (hstore hst).2

theorem exec_keyInserted (s : State) : exec .keyInserted s = .next (
    if s.dev.key.present then s
    else upd s (fun d => deassert (os { d with key := { d.key with present := true } } 0x2E00 1 1) 179)) := rfl

/-- The end of a condition that no object shows: its bit and its held reports. -/
theorem deassert_plain {d : Dev} {src : Nat} (hs : ∀ e : Dev, sourceEnded e src = e) :
    deassert d src = { d with fc := { d.fc with cond := (deassert d src).fc.cond, held := (deassert d src).fc.held } } ∧
    bit (deassert d src).fc.cond src = false ∧ ∀ n, n ≠ src → bit (deassert d src).fc.cond n = bit d.fc.cond n := by
  unfold deassert
  split
  · rw [hs]
    exact ⟨rfl, by simp [bit_setBit], fun n hn => by simp [bit_setBit, hn]⟩
  · next h => exact ⟨rfl, by simpa using h, fun _ _ => rfl⟩

theorem keyInserted_ends {s : State} (hs : Settled s) (hp : s.dev.key.present = false) : Does .keyInserted s (fun d =>
    d.key = { s.dev.key with present := true } ∧ og d 0x2E00 1 = 1 ∧ bit d.fc.cond 179 = false ∧
    d = { s.dev with objs := d.objs, fc := { s.dev.fc with cond := d.fc.cond, held := d.fc.held }, key := d.key } ∧
    ObjsKept s.dev d [okey 0x2E00 1]) := by
  obtain ⟨e, he⟩ : ∃ e, e = os { s.dev with key := { s.dev.key with present := true } } 0x2E00 1 1 := ⟨_, rfl⟩
  have heframe : e = { s.dev with objs := e.objs, key := { s.dev.key with present := true } } := by rw [he]; rfl
  have hekept : ObjsKept s.dev e [okey 0x2E00 1] := by
    rw [he]
    exact ObjsKept.os (b := { s.dev with key := { s.dev.key with present := true } }) (fun _ _ => rfl) 0x2E00 1 1 (by simp)
  have heset : og e 0x2E00 1 = 1 := by rw [he]; exact og_os_same ..
  obtain ⟨hframe, hcond, -⟩ := deassert_plain (d := e) (src := 179) (fun _ => rfl)
  refine .of_eq (d := deassert e 179) ((exec_keyInserted s).trans (by rw [if_neg (by simp [hp])])) (by rw [he]) ?_ ?_ ⟨?_, ?_, hcond, ?_, ?_⟩
  · rw [hframe, heframe]; exact hs.1
  · rw [hframe, heframe]; exact hs.2
  · rw [hframe, heframe]
  · rw [hframe]; exact heset
  · rw [hframe, heframe]
  · rw [hframe]; exact hekept.congr rfl

theorem exec_stateRecordRefresh (s : State) : exec .stateRecordRefresh s = .next (
    if s.dev.power.booted && !warning s.dev && !sealed s.dev then upd s (fun d => writeState d 1 d.fc.nextSeq none) else s) := rfl

theorem newestState_state1 {k : KeySt} (hv : k.state1.valid = true) (hs : k.state0.seq < k.state1.seq) : newestState k = k.state1 := by
  simp [newestState, hv, Nat.not_le.mpr hs]

theorem newestState_state0 {k : KeySt} (hv : k.state0.valid = true) (hs : k.state1.valid = true → k.state1.seq ≤ k.state0.seq) :
    newestState k = k.state0 := by
  unfold newestState
  rw [if_pos]
  cases hv1 : k.state1.valid
  · simp [hv]
  · simpa [hv] using hs hv1

/-- A state record written to a usable key is the newest from then on (R444, R445). -/
theorem writeState_newest {d : Dev} (h : keyUsable d = true) (kind n : Nat) (copy : Option Nat) :
    (newestState (writeState d kind n copy).key).valid = true ∧ (newestState (writeState d kind n copy).key).kind = kind ∧
    (newestState (writeState d kind n copy).key).s = n ∧
    writeState d kind n copy = { d with key := (writeState d kind n copy).key } := by
  have h' : (d.key.present && d.key.readable) = true := h
  unfold writeState
  rw [if_pos h']
  dsimp only
  split
  · next hold =>
    have hn : newestState d.key = d.key.state0 := by rw [newestState, if_pos hold]
    rw [newestState_state1 rfl (by rw [hn]; exact Nat.lt_succ_self _)]
    exact ⟨rfl, rfl, rfl, rfl⟩
  · next hnew =>
    have hn : newestState d.key = if d.key.state1.valid then d.key.state1 else .blank := by rw [newestState, if_neg hnew]
    rw [newestState_state0 rfl (fun hv1 => by
      have hv : d.key.state1.valid = true := hv1
      rw [hn, if_pos hv]; exact Nat.le_succ _)]
    exact ⟨rfl, rfl, rfl, rfl⟩

theorem stateRecordRefresh_writes {s : State} (hs : Settled s) (hb : s.dev.power.booted = true) (hw : warning s.dev = false)
    (hseal : sealed s.dev = false) (hk : keyUsable s.dev = true) : Does .stateRecordRefresh s (fun d =>
      (newestState d.key).valid = true ∧ (newestState d.key).kind = 1 ∧ (newestState d.key).s = s.dev.fc.nextSeq ∧
      d = { s.dev with key := d.key }) := by
  have hnew := writeState_newest hk 1 s.dev.fc.nextSeq none
  obtain ⟨-, -, -, hframe⟩ := id hnew
  refine .of_eq (f := fun d => writeState d 1 d.fc.nextSeq none) (d := writeState s.dev 1 s.dev.fc.nextSeq none)
    ((exec_stateRecordRefresh s).trans (by rw [if_pos (by simp [hb, hw, hseal])])) rfl ?_ ?_ hnew
  · rw [hframe]; exact hs.1
  · rw [hframe]; exact hs.2

/-! ### Power domains (R420) -/

theorem exec_domainEnableWrite (mask : BitVec 8) (s : State) : exec (.domainEnableWrite mask) s =
    .next (upd s (fun d => answer (domainEnable d mask.toNat).1 (domainEnable d mask.toNat).2)) := rfl

theorem mask_core_iff : ∀ mask : BitVec 8, (bit mask.toNat 0 && bit mask.toNat 1 && bit mask.toNat 2 && bit mask.toNat 6) = true ↔
    mask &&& 0x47 = 0x47 := by decide

/-- Domain n is switched off: out of its window, its blocks not ready. -/
def SwitchedOff (d : Dev) (n : Nat) : Prop :=
  bit (og d 0x2010 2) n = false ∧ ∀ b, b < 32 → b ∈ domainBlocks n → ready d b = false

theorem foldl_invariant {α β : Type} {g : β → α → β} {I : β → Prop} (hI : ∀ d x, I d → I (g d x)) (l : List α) : ∀ d, I d → I (l.foldl g d) := by
  induction l with
  | nil => exact fun _ h => h
  | cons x l ih => exact fun d h => ih _ (hI d x h)

/-- What one step of a fold establishes and the others keep holds at its end. -/
theorem foldl_establishes {α β : Type} {g : β → α → β} {I P : β → Prop} (hI : ∀ d x, I d → I (g d x)) (hP : ∀ d x, I d → P d → P (g d x))
    {y : α} (hy : ∀ d, I d → P (g d y)) {l : List α} (hm : y ∈ l) {d : β} (hd : I d) : P (l.foldl g d) := by
  obtain ⟨before, after, rfl⟩ := List.append_of_mem hm
  rw [List.foldl_append, List.foldl_cons]
  have hbefore := foldl_invariant hI before d hd
  exact (foldl_invariant (I := fun d => I d ∧ P d) (fun d x h => ⟨hI d x h.1, hP d x h.1 h.2⟩) after _ ⟨hI _ y hbefore, hy _ hbefore⟩).2

/-- One domain of a new enable mask. -/
def maskStep (old new : Nat) (d : Dev) (n : Nat) : Dev :=
  if bit old n && !bit new n then deassert (clearReady (osb d 0x2010 2 n false) (domainBlocks n)) (8 + n)
  else if !bit old n && bit new n then os d 0x1011 0 (clearBits (og d 0x1011 0) (domainBlocks n)) else d

theorem deassert_domain (d : Dev) (m : Nat) : og (deassert d (8 + m)) 0x2010 1 = og d 0x2010 1 ∧
    og (deassert d (8 + m)) 0x1010 0 = og d 0x1010 0 ∧
    ∀ n, bit (og d 0x2010 1) n = false → bit (og (deassert d (8 + m)) 0x2010 2) n = bit (og d 0x2010 2) n := by
  unfold deassert
  split
  · obtain ⟨-, hkept, -, -, -, -, hwin⟩ := sourceEnded_spec { d with fc := { d.fc with cond := setBit d.fc.cond (8 + m) false } } (8 + m)
    refine ⟨hkept.og (by decide), hkept.og (by decide), fun n hn => (hwin n).trans ?_⟩
    have hn' : bit (og { d with fc := { d.fc with cond := setBit d.fc.cond (8 + m) false } } 0x2010 1) n = false := hn
    rw [hn', Bool.and_false, Bool.or_false]; rfl
  · exact ⟨rfl, rfl, fun _ _ => rfl⟩

theorem maskStep_spec (old new : Nat) (d : Dev) (m : Nat) : og (maskStep old new d m) 0x2010 1 = og d 0x2010 1 ∧
    (∀ n, bit (og d 0x2010 1) n = false → SwitchedOff d n → SwitchedOff (maskStep old new d m) n) ∧
    (bit old m = true → bit new m = false → bit (og d 0x2010 1) m = false → SwitchedOff (maskStep old new d m) m) := by
  unfold maskStep
  split
  · obtain ⟨henable, hmap, hwin⟩ := deassert_domain (clearReady (osb d 0x2010 2 m false) (domainBlocks m)) m
    obtain ⟨hready, hog⟩ := clearReady_spec (osb d 0x2010 2 m false) (domainBlocks m)
    have hen : og (clearReady (osb d 0x2010 2 m false) (domainBlocks m)) 0x2010 1 = og d 0x2010 1 := by
      rw [hog _ _ (by decide) (by decide) (by decide), osb, og_os, if_neg (by decide)]
    have hmap' (b : Nat) : ready (osb d 0x2010 2 m false) b = ready d b := ready_of_og (by rw [osb, og_os, if_neg (by decide)]) b
    have hset (n : Nat) : bit (og (clearReady (osb d 0x2010 2 m false) (domainBlocks m)) 0x2010 2) n = if n = m then false else bit (og d 0x2010 2) n := by
      rw [hog _ _ (by decide) (by decide) (by decide), osb, og_os_same, bit_setBit]
    refine ⟨henable.trans hen, fun n hn hoff => ⟨?_, fun b hb hmem => ?_⟩, fun _ _ hn => ⟨?_, fun b hb hmem => ?_⟩⟩
    · rw [hwin n (by rw [hen]; exact hn), hset, hoff.1]
      exact ite_self _
    · rw [ready_of_og hmap, Bool.eq_false_iff]
      intro h
      have := (hready b h).1
      rw [hmap', hoff.2 b hb hmem] at this
      exact absurd this (by decide)
    · rw [hwin m (by rw [hen]; exact hn), hset, if_pos rfl]
    · rw [ready_of_og hmap, Bool.eq_false_iff]
      exact fun h => (hready b h).2 hmem
  · next hnot =>
    have hno (h1 : bit old m = true) (h2 : bit new m = false) : False := hnot (by simp [h1, h2])
    split
    · refine ⟨by rw [og_os, if_neg (by decide)], fun n _ hoff => ⟨?_, fun b hb hmem => ?_⟩, fun h1 h2 => (hno h1 h2).elim⟩
      · rw [og_os, if_neg (by decide)]; exact hoff.1
      · exact (ready_of_og (by rw [og_os, if_neg (by decide)]) b).trans (hoff.2 b hb hmem)
    · exact ⟨rfl, fun _ _ hoff => hoff, fun h1 h2 => (hno h1 h2).elim⟩

theorem applyMask_eq (d : Dev) (old new : Nat) : applyMask d old new = (List.range 8).foldl (maskStep old new) d := rfl

theorem applyMask_spec {d : Dev} {old new : Nat} (h1 : og d 0x2010 1 = new) : og (applyMask d old new) 0x2010 1 = new ∧
    ∀ n, n < 8 → bit old n = true → bit new n = false → SwitchedOff (applyMask d old new) n := by
  rw [applyMask_eq]
  have hI (d : Dev) (m : Nat) (h : og d 0x2010 1 = new) : og (maskStep old new d m) 0x2010 1 = new := (maskStep_spec old new d m).1.trans h
  refine ⟨foldl_invariant (I := fun d => og d 0x2010 1 = new) hI _ d h1, fun n hn hold hnew => ?_⟩
  exact foldl_establishes (I := fun d => og d 0x2010 1 = new) hI (fun e m he => (maskStep_spec old new e m).2.1 n (by rw [he]; exact hnew))
    (fun e he => (maskStep_spec old new e n).2.2 hold hnew (by rw [he]; exact hnew)) (List.mem_range.mpr hn) h1

theorem exec_domainInWindow (n : Fin 8) (s : State) : exec (.domainInWindow n) s = .next (
    if s.dev.power.powered && s.dev.power.booted && bit (og s.dev 0x2010 1) n.val then upd s (fun d => osb d 0x2010 2 n.val true) else s) := rfl

/-- Settles O19: the removed key by its report, the domains by the fold over the mask. -/
theorem keyRefreshAndPowerDomains : Obligations.KeyRefreshAndPowerDomains := by
  unfold Obligations.KeyRefreshAndPowerDomains
  refine ⟨fun s => ⟨keyRemoved_reports, fun hp => ?gone, fun hp hs => keyInserted_ends hs hp, fun hp => ?there,
    fun hb hw hseal hk hs => stateRecordRefresh_writes hs hb hw hseal hk, fun hw => ?warned⟩,
    fun mask n s => ⟨fun hs hr => ?unready, fun hs hr hm => ?running, fun hs hr hm hc => ?core, fun hr hm hc => ?enabled,
      fun hs hp hb he => ?window, fun he => ?disabled⟩⟩
  case gone => rw [Idles, exec_keyRemoved, if_pos (by simp [hp])]
  case there => rw [Idles, exec_keyInserted, if_pos hp]
  case warned => rw [Idles, exec_stateRecordRefresh, if_neg (by simp [hw])]
  case unready => exact .answered hs (exec_domainEnableWrite mask s) (by simp [domainEnable, hr])
  case running => exact .answered hs (exec_domainEnableWrite mask s) (by simp [domainEnable, hr, hm])
  case core =>
    have hc' : (bit mask.toNat 0 && bit mask.toNat 1 && bit mask.toNat 2 && bit mask.toNat 6) = false := by
      rw [← Bool.not_eq_true, mask_core_iff]; exact hc
    exact .answered hs (exec_domainEnableWrite mask s) (by simp [domainEnable, hr, hm, hc'])
  case enabled =>
    have hc' := (mask_core_iff mask).mpr hc
    obtain ⟨hen, hoff⟩ := applyMask_spec (d := os s.dev 0x2010 1 mask.toNat) (old := og s.dev 0x2010 1) (og_os_same ..)
    have heq : domainEnable s.dev mask.toNat = (applyMask (os s.dev 0x2010 1 mask.toNat) (og s.dev 0x2010 1) mask.toNat, .ok) := by
      simp [domainEnable, hr, hm, hc']
    refine .of_upd (exec_domainEnableWrite mask s) ?_
    rw [heq]
    exact ⟨hen, fun hold hnew => hoff n.val n.isLt hold hnew⟩
  case window =>
    refine .of_eq (d := osb s.dev 0x2010 2 n.val true) ((exec_domainInWindow n s).trans (by rw [if_pos (by simp [hp, hb, he])])) rfl hs.1 hs.2
      ⟨by simp [osb, bit_setBit], fun m hm => by simp [osb, bit_setBit, hm], ?_⟩
    exact .of_objs ((ObjsOnly.refl _).os ..) ((ObjsKept.refl _ _).os _ _ _ (by simp))
  case disabled => rw [Idles, exec_domainInWindow, if_neg (by simp [he])]

end Sys2Proof.Machine
end

section
/-! ## Image loading -/
namespace Sys2Proof.Machine

/-! ### The boot control record (R437) -/

theorem newestBoot_boot1 {k : KeySt} (hv : k.boot1.valid = true) (hs : k.boot0.seq < k.boot1.seq) : newestBoot k = k.boot1 := by
  simp [newestBoot, hv, Nat.not_le.mpr hs]

theorem newestBoot_boot0 {k : KeySt} (hv : k.boot0.valid = true) (hs : k.boot1.valid = true → k.boot1.seq ≤ k.boot0.seq) :
    newestBoot k = k.boot0 := by
  unfold newestBoot
  rw [if_pos]
  cases hv1 : k.boot1.valid
  · simp [hv]
  · simpa [hv] using hs hv1

/-- A boot control record written to a usable key is the newest from then on, and the slots stay. -/
theorem writeBoot_newest {d : Dev} (h : keyUsable d = true) (r : BootRec) :
    newestBoot (writeBoot d r).key = { r with valid := true, seq := (newestBoot d.key).seq + 1 } ∧
    (∀ b, slot (writeBoot d r).key b = slot d.key b) ∧ keyUsable (writeBoot d r) = true ∧ (writeBoot d r).key.nodeImg = d.key.nodeImg := by
  have h' : (d.key.present && d.key.readable) = true := h
  unfold writeBoot
  rw [if_pos h']
  dsimp only
  split
  · next hold =>
    have hn : newestBoot d.key = d.key.boot0 := by rw [newestBoot, if_pos hold]
    rw [newestBoot_boot1 rfl (by rw [hn]; exact Nat.lt_succ_self _)]
    exact ⟨rfl, fun _ => rfl, h, rfl⟩
  · next hnew =>
    rw [newestBoot_boot0 rfl (fun hv1 => by
      have hv : d.key.boot1.valid = true := hv1
      have hn : newestBoot d.key = d.key.boot1 := by rw [newestBoot, if_neg hnew, if_pos hv]
      rw [hn]; exact Nat.le_succ _)]
    exact ⟨rfl, fun _ => rfl, h, rfl⟩

/-! ### The load's commands (R459) -/

/-- Every function's readiness and the object values that a report's course depends on. -/
def calmKeys (src : Nat) : List Nat :=
  [okey 0x1010 0, okey 0x2000 1, okey (0x3900 + src) 1, okey (0x3900 + src) 3, okey (0x3840 + src) 0, okey 0x2020 2, okey 0x2020 3]

/-- A report stays calm where those values and the collector are as they were. -/
theorem Calm.of_kept {d e : Dev} {src : Nat} {l : List Nat} (h : Calm d src) (hk : ObjsKept d e l) (hfc : e.fc = d.fc)
    (hp : e.power = d.power)
    (hl : ∀ k ∈ calmKeys src, k ∉ l) : Calm e src := by
  have hog (i c : Nat) (hm : okey i c ∈ calmKeys src) : og e i c = og d i c := hk.og (hl _ hm)
  unfold Calm ready live forced sealed commitWindow at h ⊢
  simp only [hfc, hp, hog 0x1010 0 (by simp [calmKeys]), hog 0x2000 1 (by simp [calmKeys]), hog (0x3900 + src) 1 (by simp [calmKeys]),
    hog (0x3900 + src) 3 (by simp [calmKeys]), hog (0x3840 + src) 0 (by simp [calmKeys]), hog 0x2020 2 (by simp [calmKeys]),
    hog 0x2020 3 (by simp [calmKeys])]
  exact h

theorem exec_imageLoadBegin (s : State) : exec .imageLoadBegin s = .next (upd s (fun d => answer (imageBegin d).1 (imageBegin d).2)) := rfl
theorem exec_imageBlock (num : BitVec 16) (data : Bytes) (s : State) :
    exec (.imageBlock num data) s = .next (upd s (fun d => answer (imageBlock d num.toNat data).1 (imageBlock d num.toNat data).2)) := rfl
theorem exec_imageBlockWritten (ok : Bool) (s : State) : exec (.imageBlockWritten ok) s = .next (upd s (fun d => imageWritten d ok)) := rfl
theorem exec_imageVerify (s : State) : exec .imageVerify s = .next (upd s (fun d => answer (imageVerify d).1 (imageVerify d).2)) := rfl
theorem exec_imageAbort (s : State) : exec .imageAbort s = .next (upd s (fun d => answer (imageAbort d).1 (imageAbort d).2)) := rfl
theorem exec_imageActivate (s : State) : exec .imageActivate s = .next (upd s (fun d => answer (imageActivate d).1 (imageActivate d).2)) := rfl
theorem exec_imageBoot (s : State) :
    exec .imageBoot s = .next (upd s (fun d => if (imageBoot d).2 = .ok then (imageBoot d).1 else answer (imageBoot d).1 (imageBoot d).2)) := rfl

theorem imageGuard_shut {d : Dev} (hr : ready d 0 = true) (h : keyUsable d = false ∨ warning d = true) (ok : Bool) :
    imageGuard d ok = some .state := by
  rcases h with h | h <;> simp [imageGuard, hr, h]

theorem imageGuard_open {d : Dev} (hr : ready d 0 = true) (hk : keyUsable d = true) (hw : warning d = false) : imageGuard d true = none := by
  simp [imageGuard, hr, hk, hw]

theorem imageBegin_open {d : Dev} (hr : ready d 0 = true) (hk : keyUsable d = true) (hw : warning d = false) (h6 : og d 0x2E40 6 = 0) :
    imageGuard d (og d 0x2E40 6 != 1 && og d 0x2E40 6 != 2 && og d 0x2E40 6 != 3 && og d 0x2E40 6 != 6) = none := by
  rw [h6]; exact imageGuard_open hr hk hw

section
variable {s : State} (hs : Settled s) (hr : ready s.dev 0 = true)
include hs hr

theorem image_shut (h : keyUsable s.dev = false ∨ warning s.dev = true) :
    Answers .imageLoadBegin s .state ∧ Answers .imageVerify s .state ∧ Answers .imageAbort s .state ∧ Answers .imageActivate s .state := by
  refine ⟨.answered hs (exec_imageLoadBegin s) ?_, .answered hs (exec_imageVerify s) ?_, .answered hs (exec_imageAbort s) ?_,
    .answered hs (exec_imageActivate s) ?_⟩
  · simp only [imageBegin, imageGuard_shut hr h]
  · simp only [imageVerify, imageGuard_shut hr h]
  · simp only [imageAbort, imageGuard_shut hr h]
  · simp only [imageActivate, imageGuard_shut hr h]

variable (hk : keyUsable s.dev = true) (hw : warning s.dev = false)
include hk hw

variable (h1 : og s.dev 0x2E40 1 = 0)
include h1

theorem imageLoadBegin_unserviced (h6 : og s.dev 0x2E40 6 = 0) (hm : mode s.dev ≠ 5) : Does .imageLoadBegin s (fun d =>
    og d 0x2E40 6 = 7 ∧ og d 0x2E40 7 = 7 ∧ Writes s.dev d [okey 0x2E40 6, okey 0x2E40 7] [said .state]) := by
  have heq : imageBegin s.dev = (os (os s.dev 0x2E40 6 7) 0x2E40 7 7, .state) := by
    simp [imageBegin, imageBegin_open hr hk hw h6, h1, hm]
  refine .answered hs (exec_imageLoadBegin s) heq rfl rfl ⟨by simp [og_os, okey], by simp, rfl, ?_⟩
  exact (((ObjsKept.refl s.dev _).os 0x2E40 6 7 (by simp)).os 0x2E40 7 7 (by simp)).congr rfl

/-- The device with a load begun, before its block number is set. -/
def loadBegun (d : Dev) : Dev := os (os (os { d with mgmt := { d.mgmt with imgBuf := [] } } 0x2E40 6 1) 0x2E40 7 0) 0x2E40 8 0

theorem imageLoadBegin_fresh (h6 : og s.dev 0x2E40 6 = 0) (hm : mode s.dev = 5) (h2 : og s.dev 0x2E40 2 ≠ 0)
    (hl : (newestBoot s.dev.key).length ≠ og s.dev 0x2E40 2) : Does .imageLoadBegin s (fun d =>
      og d 0x2E40 6 = 1 ∧ og d 0x2E40 7 = 0 ∧ og d 0x2E40 3 = 0 ∧ (newestBoot d.key).length = og s.dev 0x2E40 2 ∧
      (∀ b, slot d.key b = slot s.dev.key b) ∧
      d = { s.dev with objs := d.objs, key := d.key, mgmt := { s.dev.mgmt with imgBuf := [] }, out := s.dev.out ++ [said .ok] }) := by
  obtain ⟨hnew, hslot, -, -⟩ := writeBoot_newest (d := loadBegun s.dev) hk { newestBoot s.dev.key with length := og s.dev 0x2E40 2, progress := 0, version := 0 }
  have hframe := writeBoot_frame (loadBegun s.dev) { newestBoot s.dev.key with length := og s.dev 0x2E40 2, progress := 0, version := 0 }
  obtain ⟨e, he⟩ : ∃ e, e = writeBoot (loadBegun s.dev) { newestBoot s.dev.key with length := og s.dev 0x2E40 2, progress := 0, version := 0 } := ⟨_, rfl⟩
  rw [← he] at hnew hslot hframe
  have heq : imageBegin s.dev = (os e 0x2E40 3 0, .ok) := by
    rw [he]
    simp [imageBegin, imageBegin_open hr hk hw h6, h1, hm, h2, hl, loadBegun]
  have hog (i c : Nat) : og e i c = og (loadBegun s.dev) i c := by rw [hframe]; rfl
  refine .answered hs (exec_imageLoadBegin s) heq (by rw [hframe]; rfl) (by rw [hframe]; rfl) ⟨?_, ?_, ?_, ?_, ?_, ?_⟩
  · rw [og_answer, og_os, if_neg (by decide), hog]; simp [loadBegun, og_os, okey]
  · rw [og_answer, og_os, if_neg (by decide), hog]; simp [loadBegun, og_os, okey]
  · simp
  · exact congrArg BootRec.length hnew
  · exact hslot
  · rw [hframe]; rfl

theorem imageLoadBegin_resumes (h6 : og s.dev 0x2E40 6 = 0) (hm : mode s.dev = 5) (h2 : og s.dev 0x2E40 2 ≠ 0)
    (hl : (newestBoot s.dev.key).length = og s.dev 0x2E40 2) (hp : 0 < (newestBoot s.dev.key).progress) : Does .imageLoadBegin s (fun d =>
      og d 0x2E40 6 = 1 ∧ og d 0x2E40 7 = 0 ∧ og d 0x2E40 3 = (newestBoot s.dev.key).progress ∧ d.key = s.dev.key) := by
  have heq : imageBegin s.dev = (os (loadBegun s.dev) 0x2E40 3 (newestBoot s.dev.key).progress, .ok) := by
    simp [imageBegin, imageBegin_open hr hk hw h6, h1, hm, h2, hl, hp, loadBegun]
  refine .answered hs (exec_imageLoadBegin s) heq rfl rfl ⟨?_, ?_, by simp, rfl⟩
  · simp [loadBegun, og_os, okey]
  · simp [loadBegun, og_os, okey]

omit h1 in
theorem imageBlock_takes {num : BitVec 16} {data : Bytes} (h6 : og s.dev 0x2E40 6 = 1) (hn : num.toNat = og s.dev 0x2E40 3)
    (hleft : num.toNat * 65536 < og s.dev 0x2E40 2) (hlen : data.length = min (og s.dev 0x2E40 2 - num.toNat * 65536) 65536) :
    Does (.imageBlock num data) s (fun d => og d 0x2E40 6 = 2 ∧ d.mgmt = { s.dev.mgmt with imgBuf := data } ∧
      d = { s.dev with objs := d.objs, mgmt := d.mgmt, out := s.dev.out ++ [said .ok] } ∧ ObjsKept s.dev d [okey 0x2E40 6]) := by
  have heq : imageBlock s.dev num.toNat data = (os { s.dev with mgmt := { s.dev.mgmt with imgBuf := data } } 0x2E40 6 2, .ok) := by
    have hne : og s.dev 0x2E40 2 - og s.dev 0x2E40 3 * 65536 ≠ 0 := by omega
    rw [hn] at hlen
    simp [imageBlock, hr, hk, hw, h6, hn, hlen, hne]
  refine .answered hs (exec_imageBlock num data s) heq rfl rfl ⟨by simp, rfl, rfl, ?_⟩
  exact ((ObjsKept.refl s.dev [okey 0x2E40 6]).os 0x2E40 6 2 (by simp)).congr rfl

omit h1 hw in
theorem imageBlock_misplaced {num : BitVec 16} {data : Bytes} (h6 : og s.dev 0x2E40 6 = 1) (hn : num.toNat ≠ og s.dev 0x2E40 3)
    (h0 : data.length ≠ 0) (hlen : data.length ≤ 65536) : Answers (.imageBlock num data) s .range :=
  .answered hs (exec_imageBlock num data s) (by simp [imageBlock, hr, hk, h6, hn, List.length_eq_zero_iff.not.mp h0, Nat.not_lt.mpr hlen])

/-- The device with a written block in its slot and counted. -/
def blockStored (d : Dev) (b : Bytes) (n : Nat) : Dev := os { setTarget d b with mgmt := { d.mgmt with imgBuf := [] } } 0x2E40 3 n

omit hs hr hk hw in
theorem blockStored_spec (b : Bytes) (n : Nat) : slot (blockStored s.dev b n).key (inactiveB s.dev) = b ∧
    slot (blockStored s.dev b n).key (!inactiveB s.dev) = slot s.dev.key (!inactiveB s.dev) ∧
    keyUsable (blockStored s.dev b n) = keyUsable s.dev ∧ (blockStored s.dev b n).key.boot0 = s.dev.key.boot0 ∧
    (blockStored s.dev b n).key.boot1 = s.dev.key.boot1 ∧
    blockStored s.dev b n = { s.dev with objs := (blockStored s.dev b n).objs, key := (blockStored s.dev b n).key, mgmt := (blockStored s.dev b n).mgmt } := by
  simp only [blockStored, setTarget, h1, if_pos]
  cases inactiveB s.dev <;> exact ⟨rfl, rfl, rfl, rfl, rfl, rfl⟩

omit hw hr in
theorem imageBlockWritten_stores (h6 : og s.dev 0x2E40 6 = 2) (h3 : og s.dev 0x2E40 3 ≠ 0) : Does (.imageBlockWritten true) s (fun d =>
    slot d.key (inactiveB s.dev) = putBlock (slot s.dev.key (inactiveB s.dev)) (og s.dev 0x2E40 3) s.dev.mgmt.imgBuf ∧ og d 0x1002 3 = 0 ∧
    og d 0x2E40 3 = og s.dev 0x2E40 3 + 1 ∧ og d 0x2E40 6 = 1 ∧ (newestBoot d.key).progress = og s.dev 0x2E40 3 + 1) := by
  obtain ⟨e, he⟩ : ∃ e, e = blockStored s.dev (putBlock (slot s.dev.key (inactiveB s.dev)) (og s.dev 0x2E40 3) s.dev.mgmt.imgBuf)
    (og s.dev 0x2E40 3 + 1) := ⟨_, rfl⟩
  obtain ⟨hput, -, huse, -, -, hframe⟩ := blockStored_spec h1 (putBlock (slot s.dev.key (inactiveB s.dev)) (og s.dev 0x2E40 3) s.dev.mgmt.imgBuf)
    (og s.dev 0x2E40 3 + 1)
  rw [← he] at hput huse hframe
  obtain ⟨hnew, hslot, -, -⟩ := writeBoot_newest (d := e) (huse.trans hk) { newestBoot e.key with progress := og s.dev 0x2E40 3 + 1 }
  have hboot := writeBoot_frame e { newestBoot e.key with progress := og s.dev 0x2E40 3 + 1 }
  have he1 : og e 0x2E40 1 = 0 := by rw [he]; exact (og_os ..).trans ((if_neg (by decide)).trans h1)
  have heq : imageWritten s.dev true = os (os (writeBoot e { newestBoot e.key with progress := og s.dev 0x2E40 3 + 1 }) 0x1002 3 0) 0x2E40 6 1 := by
    have htarget : targetBytes s.dev = slot s.dev.key (inactiveB s.dev) := by simp [targetBytes, h1]
    unfold imageWritten
    rw [h6, if_neg (by decide), if_neg (by simp [hk]), htarget]
    show (if og s.dev 0x2E40 3 = 0 then _ else os (if og (blockStored s.dev _ _) 0x2E40 1 = 0 then _ else _) 0x2E40 6 1) = _
    rw [if_neg h3, ← he, if_pos he1, he]
    rfl
  obtain ⟨f, hf⟩ : ∃ f, f = writeBoot e { newestBoot e.key with progress := og s.dev 0x2E40 3 + 1 } := ⟨_, rfl⟩
  rw [← hf] at hnew hslot hboot heq
  have hog : og f 0x2E40 3 = og s.dev 0x2E40 3 + 1 := by
    rw [show og f 0x2E40 3 = og e 0x2E40 3 by rw [hboot]; rfl, he]; exact og_os_same ..
  refine .of_eq (exec_imageBlockWritten true s) heq ?_ ?_ ⟨?_, ?_, ?_, by simp, ?_⟩
  · show f.fc.todo = []
    rw [hboot, hframe]; exact hs.1
  · show f.power.cleared = false
    rw [hboot, hframe]; exact hs.2
  · exact (hslot _).trans hput
  · rw [og_os, if_neg (by decide), og_os_same]
  · rw [og_os, if_neg (by decide), og_os, if_neg (by decide), hog]
  · exact congrArg BootRec.progress hnew

omit h1 hw hr hk in
theorem imageBlockWritten_fails (h6 : og s.dev 0x2E40 6 = 2) (hcalm : Calm s.dev 178) : Does (.imageBlockWritten false) s (fun d =>
    og d 0x2E40 6 = 7 ∧ og d 0x2E40 7 = 6 ∧ og d (0x3840 + 178) 0 = og s.dev (0x3840 + 178) 0 + 1 ∧ d.key = s.dev.key) := by
  obtain ⟨e, he⟩ : ∃ e, e = os (os { s.dev with mgmt := { s.dev.mgmt with imgBuf := [] } } 0x2E40 6 7) 0x2E40 7 6 := ⟨_, rfl⟩
  have hog (i c : Nat) (h : okey i c ≠ okey 0x2E40 6) (h' : okey i c ≠ okey 0x2E40 7) : og e i c = og s.dev i c := by
    rw [he, og_os, if_neg h', og_os, if_neg h]; rfl
  have hkept : ObjsKept s.dev e [okey 0x2E40 6, okey 0x2E40 7] := by
    rw [he]
    exact (ObjsKept.os (b := { s.dev with mgmt := { s.dev.mgmt with imgBuf := [] } }) (fun _ _ => rfl) 0x2E40 6 7 (by simp)).os 0x2E40 7 6 (by simp)
  have hcalm' : Calm e 178 := hcalm.of_kept hkept (by rw [he]; rfl) (by rw [he]; rfl) (by decide)
  have hrep := (assertReport_calm (r := ⟨178, 0, 0, false, false, 0⟩) hcalm').2
  have heq : imageWritten s.dev false = report e 178 0 0 := by
    unfold imageWritten
    rw [h6, if_neg (by decide), if_pos (by simp), he]; rfl
  have hset : Settled { s with dev := e } := ⟨by rw [he]; exact hs.1, by rw [he]; exact hs.2⟩
  obtain ⟨ht, hc⟩ := hrep.settled hset
  refine .of_eq (exec_imageBlockWritten false s) heq ht hc ⟨?_, ?_, ?_, ?_⟩
  · exact (hrep.kept.og (by decide)).trans (by rw [he]; simp [og_os, okey])
  · exact (hrep.kept.og (by decide)).trans (by rw [he]; simp)
  · exact hrep.count.trans (by rw [hog _ _ (by decide) (by decide)])
  · exact (congrArg Dev.key hrep.frame).trans (by rw [he]; rfl)

theorem imageVerify_passes {b : Bytes} (h6 : og s.dev 0x2E40 6 = 1) (hl : og s.dev 0x2E40 2 ≤ og s.dev 0x2E40 3 * 65536)
    (hb : b = (targetBytes s.dev).take (og s.dev 0x2E40 2)) (hok : imageOk s.dev b = true) : Does .imageVerify s (fun d =>
      og d 0x2E40 6 = 4 ∧ og d 0x1002 3 = rd b 12 4 ∧ (newestBoot d.key).version = rd b 12 4) := by
  obtain ⟨hnew, -, -, -⟩ := writeBoot_newest hk { newestBoot s.dev.key with version := rd b 12 4 }
  have hframe := writeBoot_frame s.dev { newestBoot s.dev.key with version := rd b 12 4 }
  have hguard : imageGuard s.dev (og s.dev 0x2E40 6 = 1 && decide (og s.dev 0x2E40 3 * 65536 ≥ og s.dev 0x2E40 2)) = none := by
    rw [h6, show decide (og s.dev 0x2E40 3 * 65536 ≥ og s.dev 0x2E40 2) = true from decide_eq_true hl]
    exact imageGuard_open hr hk hw
  have heq : imageVerify s.dev = (os (os (writeBoot s.dev { newestBoot s.dev.key with version := rd b 12 4 }) 0x1002 3 (rd b 12 4)) 0x2E40 6 4, .ok) := by
    simp only [imageVerify, hguard, h1, if_pos, ← hb, hok]
  obtain ⟨f, hf⟩ : ∃ f, f = writeBoot s.dev { newestBoot s.dev.key with version := rd b 12 4 } := ⟨_, rfl⟩
  rw [← hf] at hnew hframe heq
  refine .answered hs (exec_imageVerify s) heq (by show f.fc = _; rw [hframe]) (by show f.power = _; rw [hframe]) ⟨by simp, ?_, ?_⟩
  · rw [og_answer, og_os, if_neg (by decide), og_os_same]
  · exact congrArg BootRec.version hnew

omit hs in
theorem imageActivate_tries (h6 : og s.dev 0x2E40 6 = 4) : Leaves .imageActivate s (fun d =>
    og d 0x2E40 6 = 5 ∧ (newestBoot d.key).trial = b2n (inactiveB s.dev) ∧ (newestBoot d.key).tries = 0) := by
  obtain ⟨hnew, -, -, -⟩ := writeBoot_newest hk { newestBoot s.dev.key with trial := b2n (inactiveB s.dev), tries := 0 }
  have hguard : imageGuard s.dev (og s.dev 0x2E40 6 = 4 && og s.dev 0x2E40 1 = 0) = none := by
    rw [h6, h1]; exact imageGuard_open hr hk hw
  obtain ⟨f, hf⟩ : ∃ f, f = writeBoot s.dev { newestBoot s.dev.key with trial := b2n (inactiveB s.dev), tries := 0 } := ⟨_, rfl⟩
  have heq : imageActivate s.dev = (log (os f 0x2E40 6 5) 1 6 (og f 0x1002 3), .ok) := by
    rw [hf]
    simp only [imageActivate, hguard]
  rw [← hf] at hnew
  have hlog := log_noted (os f 0x2E40 6 5) 1 6 (og f 0x1002 3)
  have hkey : (log (os f 0x2E40 6 5) 1 6 (og f 0x1002 3)).key = f.key := by rw [hlog.frame]; rfl
  refine .of_upd (exec_imageActivate s) ?_
  rw [heq]
  refine ⟨?_, ?_, ?_⟩
  · exact (hlog.og (by decide)).trans (og_os_same ..)
  · show (newestBoot (log (os f 0x2E40 6 5) 1 6 (og f 0x1002 3)).key).trial = _
    rw [hkey, hnew]
  · show (newestBoot (log (os f 0x2E40 6 5) 1 6 (og f 0x1002 3)).key).tries = _
    rw [hkey, hnew]

theorem imageAbort_empties : Does .imageAbort s (fun d => og d 0x2E40 6 = 0 ∧ og d 0x2E40 3 = 0 ∧ slot d.key (inactiveB s.dev) = [] ∧
    slot d.key (!inactiveB s.dev) = slot s.dev.key (!inactiveB s.dev)) := by
  obtain ⟨e, he⟩ : ∃ e, e = setTarget { s.dev with mgmt := { s.dev.mgmt with imgBuf := [] } } [] := ⟨_, rfl⟩
  have hspec : e = { s.dev with key := e.key, mgmt := { s.dev.mgmt with imgBuf := [] } } ∧ keyUsable e = true ∧ slot e.key (inactiveB s.dev) = [] ∧
      slot e.key (!inactiveB s.dev) = slot s.dev.key (!inactiveB s.dev) := by
    have h1' : og { s.dev with mgmt := { s.dev.mgmt with imgBuf := [] } } 0x2E40 1 = 0 := h1
    have hb : inactiveB { s.dev with mgmt := { s.dev.mgmt with imgBuf := [] } } = inactiveB s.dev := rfl
    rw [he]
    rw [setTarget, h1', if_pos rfl, hb]
    cases inactiveB s.dev <;> exact ⟨rfl, hk, rfl, rfl⟩
  obtain ⟨hframe, huse, hput, hkeep⟩ := hspec
  obtain ⟨-, hslot, -, -⟩ := writeBoot_newest huse { newestBoot e.key with length := 0, progress := 0, version := 0 }
  have hboot := writeBoot_frame e { newestBoot e.key with length := 0, progress := 0, version := 0 }
  have he1 : og e 0x2E40 1 = 0 := by rw [hframe]; exact h1
  obtain ⟨f, hf⟩ : ∃ f, f = writeBoot e { newestBoot e.key with length := 0, progress := 0, version := 0 } := ⟨_, rfl⟩
  have heq : imageAbort s.dev = (os (os (os f 0x1002 3 0) 0x2E40 6 0) 0x2E40 3 0, .ok) := by
    simp only [imageAbort, imageGuard_open hr hk hw, ← he, he1, if_pos, ← hf]
  rw [← hf] at hslot hboot
  refine .answered hs (exec_imageAbort s) heq (by show f.fc = _; rw [hboot, hframe]) (by show f.power = _; rw [hboot, hframe])
    ⟨by simp [og_os, okey], by simp, (hslot _).trans hput, (hslot _).trans hkeep⟩

end

/-! ### The commanded restart (R424) -/

theorem imageBoot_restarts {s : State} (hr : ready s.dev 0 = true) (hm : mode s.dev = 5) (hp : s.dev.key.present = true) :
    ∃ t, exec .imageBoot s = .next t ∧
      mode t.dev = 1 ∧ og t.dev 0x1020 2 = 5 ∧ t.dev.power.booted = false ∧ t.dev.power.restart = 4 ∧ t.dev.motion = [] ∧
      t.dev.host.sessions = [] ∧ t.mem = .reset ∧ t.isl = s.isl ∧ t.nodes = s.nodes ∧ t.dev.time.local_ = s.dev.time.local_ ∧
      t.dev.fc.errPins = s.dev.fc.errPins ∧ t.dev.out = s.dev.out ++ [said .ok] := by
  have hval (k : Nat) := tget_restart (answer (writeState s.dev 3 (s.dev.fc.nextSeq - 1) none) .ok) 4 k
  have hframe : writeState s.dev 3 (s.dev.fc.nextSeq - 1) none = { s.dev with key := (writeState s.dev 3 (s.dev.fc.nextSeq - 1) none).key } := by
    unfold writeState
    split <;> rfl
  have heq : imageBoot s.dev = (restart (answer (writeState s.dev 3 (s.dev.fc.nextSeq - 1) none) .ok) 4, .ok) := by
    simp [imageBoot, hr, hm, hp]
  have hmode : mode (answer (writeState s.dev 3 (s.dev.fc.nextSeq - 1) none) .ok) = 5 := by rw [hframe]; exact hm
  obtain ⟨e, he⟩ : ∃ e, e = answer (writeState s.dev 3 (s.dev.fc.nextSeq - 1) none) .ok := ⟨_, rfl⟩
  have heframe : e.time = s.dev.time ∧ e.fc = s.dev.fc ∧ e.out = s.dev.out ++ [said .ok] := by
    rw [he, hframe]; exact ⟨rfl, rfl, rfl⟩
  rw [← he] at hval heq hmode
  have hfin : finish (restart e 4) = restart e 4 := finish_settled _ rfl
  refine ⟨{ s with dev := { restart e 4 with power := { (restart e 4).power with cleared := false } }, mem := .reset }, ?_, ?_, ?_, rfl, rfl, rfl, rfl,
    rfl, rfl, rfl, ?_, ?_, ?_⟩
  · have hclr : (restart e 4).power.cleared = true := rfl
    rw [exec_imageBoot]
    simp only [upd, heq, if_true, hfin, hclr]
  · exact (hval (okey 0x1020 1)).trans (by simp [okey]; decide)
  · exact (hval (okey 0x1020 2)).trans (by simpa [okey] using hmode)
  · show e.time.local_ = _
    rw [heframe.1]
  · show e.fc.errPins = _
    rw [heframe.2.1]
  · exact heframe.2.2

/-- Settles O22: by the branches of the image commands; a written boot control record is the newest. -/
theorem imagesLoadBlockByBlock : Obligations.ImagesLoadBlockByBlock := by
  unfold Obligations.ImagesLoadBlockByBlock
  refine ⟨fun num data s hs hr => ⟨fun hk => ?_, image_shut hs hr, fun hk hw h1 => ⟨imageLoadBegin_unserviced hs hr hk hw h1,
      imageLoadBegin_fresh hs hr hk hw h1, imageLoadBegin_resumes hs hr hk hw h1, imageBlock_takes hs hr hk hw, imageBlock_misplaced hs hr hk,
      imageBlockWritten_stores hs hk h1, imageBlockWritten_fails hs, fun b => imageVerify_passes hs hr hk hw h1,
      imageActivate_tries hr hk hw h1, imageAbort_empties hs hr hk hw h1⟩⟩,
    fun s => ⟨fun hs hr hm => ?_, imageBoot_restarts⟩⟩
  · exact .answered hs (exec_imageBlock num data s) (by simp [imageBlock, hr, hk])
  · have hno : imageBoot s.dev = (s.dev, .state) := by simp [imageBoot, hr, hm]
    exact .of_upd hs (exec_imageBoot s) (by rw [hno]; rfl)

end Sys2Proof.Machine
end

section
/-! ## The journal, the log, the watchdog and the sensors -/
namespace Sys2Proof.Machine

/-! ### The journal (R455) -/

theorem exec_journalWrite (ok : Bool) (s : State) :
    exec (.journalWrite ok) s = .next (if warning s.dev then s else upd s (fun d => journalWrite d ok)) := rfl

theorem exec_journalRetry (ok : Bool) (s : State) :
    exec (.journalRetry ok) s = .next (if warning s.dev || !bit s.dev.fc.cond 182 then s else upd s (fun d => journalWrite d ok)) := rfl

/-- The key's state record with the journal's new count. -/
def recounted (k : KeySt) (n : Nat) : KeySt :=
  if k.state0.valid && (!k.state1.valid || k.state1.seq ≤ k.state0.seq) then { k with state1 := { k.state0 with count := n, seq := k.state0.seq + 1 } }
  else if k.state1.valid then { k with state0 := { k.state1 with count := n, seq := k.state1.seq + 1 } } else k

theorem recounted_spec (k : KeySt) (n : Nat) : (recounted k n).journal = k.journal ∧ (recounted k n).count = k.count := by
  unfold recounted
  split
  · exact ⟨rfl, rfl⟩
  · split <;> exact ⟨rfl, rfl⟩

theorem journalAppend_eq (d : Dev) (es : List LogEntry) : journalAppend d es = { d with
    key := recounted { d.key with journal := (d.key.journal ++ es).drop ((d.key.journal ++ es).length - 8192), count := d.key.count + es.length }
      (d.key.count + es.length) } := rfl

theorem journalAppend_spec (d : Dev) (es : List LogEntry) (hlen : es.length ≤ 8192) :
    journalAppend d es = { d with key := (journalAppend d es).key } ∧ (journalAppend d es).key.count = d.key.count + es.length ∧
    ∃ pre, (journalAppend d es).key.journal = pre ++ es := by
  rw [journalAppend_eq]
  refine ⟨rfl, by rw [(recounted_spec _ _).2], d.key.journal.drop ((d.key.journal ++ es).length - 8192), ?_⟩
  have hle : (d.key.journal ++ es).length - 8192 ≤ d.key.journal.length := by rw [List.length_append]; omega
  rw [(recounted_spec _ _).1, List.drop_append_of_le_length hle]

theorem journalWrite_succeeds {s : State} (hs : Settled s) (hw : warning s.dev = false) (hn : s.dev.fc.waiting ≠ 0) (hk : keyUsable s.dev = true)
    (hl : s.dev.fc.waiting ≤ s.dev.fc.log.length) (hmax : s.dev.fc.log.length ≤ 1024) : Does (.journalWrite true) s (fun d =>
      d.fc.waiting = 0 ∧ d.fc.log = s.dev.fc.log ∧ bit d.fc.cond 182 = false ∧ d.key.count = s.dev.key.count + s.dev.fc.waiting ∧
      (∃ pre, d.key.journal = pre ++ s.dev.fc.log.drop (s.dev.fc.log.length - s.dev.fc.waiting)) ∧ d = { s.dev with fc := d.fc, key := d.key }) := by
  have hwait : (waitingEntries s.dev).length = s.dev.fc.waiting := by
    rw [waitingEntries, List.length_drop]; omega
  obtain ⟨hframe, hcount, pre, hjournal⟩ := journalAppend_spec s.dev (waitingEntries s.dev) (by omega)
  obtain ⟨e, he⟩ : ∃ e, e = { journalAppend s.dev (waitingEntries s.dev) with fc := { s.dev.fc with waiting := 0 } } := ⟨_, rfl⟩
  have heq : journalWrite s.dev true = deassert e 182 := by
    rw [journalWrite, if_neg hn, if_pos (by simp [hk]), he]
    rfl
  obtain ⟨hd, hcond, -⟩ := deassert_plain (d := e) (src := 182) (fun _ => rfl)
  have hfc : e.fc = { s.dev.fc with waiting := 0 } := by rw [he]
  have hkey : e.key = (journalAppend s.dev (waitingEntries s.dev)).key := by rw [he]
  refine .of_eq (d := deassert e 182) ((exec_journalWrite true s).trans (by rw [if_neg (by simp [hw])])) heq ?_ ?_ ⟨?_, ?_, hcond, ?_, ⟨pre, ?_⟩, ?_⟩
  · rw [hd, hfc]; exact hs.1
  · rw [hd, he, hframe]; exact hs.2
  · rw [hd, hfc]
  · rw [hd, hfc]
  · rw [hd, hkey, hcount, hwait]
  · rw [hd, hkey, hjournal]; rfl
  · rw [hd, he, hframe]

theorem journalWrite_fails {s : State} (hs : Settled s) (hw : warning s.dev = false) (hn : s.dev.fc.waiting ≠ 0)
    (h7 : og s.dev 0x2100 7 < 0xFFFFFFFE) (hcalm : Calm s.dev 182) : Does (.journalWrite false) s (fun d =>
      og d 0x2100 7 = og s.dev 0x2100 7 + 1 ∧ bit d.fc.cond 182 = true ∧ d.fc.nextSeq = s.dev.fc.nextSeq + 1 ∧ d.key = s.dev.key ∧
      s.dev.fc.waiting ≤ d.fc.waiting) := by
  obtain ⟨e, he⟩ : ∃ e, e = os s.dev 0x2100 7 (og s.dev 0x2100 7 + 1) := ⟨_, rfl⟩
  have hkept : ObjsKept s.dev e [okey 0x2100 7] := by rw [he]; exact (ObjsKept.refl _ _).os _ _ _ (by simp)
  have hrep := (assertReport_calm (r := ⟨182, 0, 0, false, false, 0⟩)
    (hcalm.of_kept hkept (by rw [he]; rfl) (by rw [he]; rfl) (by decide))).2
  obtain ⟨ht, hc⟩ := hrep.settled (s := { s with dev := e }) ⟨by rw [he]; exact hs.1, by rw [he]; exact hs.2⟩
  have heq : journalWrite s.dev false = report e 182 0 0 := by
    rw [journalWrite, if_neg hn, if_neg (by simp), bump_small h7, he]
  refine .of_eq ((exec_journalWrite false s).trans (by rw [if_neg (by simp [hw])])) heq ht hc ⟨?_, ?_, ?_, ?_, ?_⟩
  · exact (hrep.kept.og (by decide)).trans (by rw [he]; simp)
  · show bit (assertReport e _).1.fc.cond 182 = true
    rw [hrep.cond 182 (by decide)]; simp [levelSource]
  · show (assertReport e _).1.fc.nextSeq = _
    rw [hrep.fc, he]; rfl
  · exact (congrArg Dev.key hrep.frame).trans (by rw [he]; rfl)
  · show _ ≤ (assertReport e _).1.fc.waiting
    rw [hrep.fc, he]; exact Nat.le_add_right ..

/-! ### The log's objects (R457) -/

theorem exec_logSelect (seq : BitVec 64) (s : State) : exec (.logSelect seq) s =
    .next (upd s (fun d => if ready d 0 then answer (os d 0x2101 1 seq.toNat) .ok else answer d .notReady)) := rfl

theorem exec_logRead (s : State) : exec .logRead s = .next (upd s (fun d => if ready d 0 then
    os (obs d 0x2101 2 (logPage d).1) 0x2101 3 (logPage d).2 else answer d .notReady)) := rfl

theorem logRead_shows {s : State} (hs : Settled s) (hr : ready s.dev 0 = true) : Does .logRead s (fun d =>
    ob d 0x2101 2 = (((wholeLog s.dev).filter (fun e => og s.dev 0x2101 1 ≤ e.seq)).take 32).flatMap LogEntry.encode ∧
    (∀ e, (((wholeLog s.dev).filter (fun e => og s.dev 0x2101 1 ≤ e.seq)).take 32).getLast? = some e → og d 0x2101 3 = e.seq + 1) ∧
    d = { s.dev with objs := d.objs, blobs := d.blobs } ∧ ObjsKept s.dev d [okey 0x2101 3]) := by
  have hnext (e : LogEntry) (he : (((wholeLog s.dev).filter (fun e => og s.dev 0x2101 1 ≤ e.seq)).take 32).getLast? = some e) :
      (logPage s.dev).2 = e.seq + 1 := by
    simp only [logPage, he]
  refine .of_eq (d := os (obs s.dev 0x2101 2 (logPage s.dev).1) 0x2101 3 (logPage s.dev).2) (exec_logRead s) (if_pos hr) hs.1 hs.2
    ⟨?_, fun e he => (og_os_same ..).trans (hnext e he), rfl, ?_⟩
  · simp [ob, os, obs, logPage]
  · exact ObjsKept.os (b := obs s.dev 0x2101 2 (logPage s.dev).1) (fun _ _ => rfl) 0x2101 3 _ (by simp)

/-! ### The management watchdog (R452) -/

theorem exec_managementWatchdog (s : State) :
    exec .managementWatchdog s = .next (if s.dev.power.booted then upd s (fun d => report d 176 0 0) else s) := rfl

theorem managementWatchdog_reports {s : State} (hs : Settled s) (hb : s.dev.power.booted = true) (hcalm : Calm s.dev 176) :
    Does .managementWatchdog s (fun d =>
      og d (0x3840 + 176) 0 = og s.dev (0x3840 + 176) 0 + 1 ∧ d.fc.nextSeq = s.dev.fc.nextSeq + 1 ∧
      d = { s.dev with objs := d.objs, fc := d.fc, host := d.host, acq := d.acq } ∧ ObjsKept s.dev d (reportKeys 176)) := by
  have hrep := (assertReport_calm (r := ⟨176, 0, 0, false, false, 0⟩) hcalm).2
  obtain ⟨ht, hc⟩ := hrep.settled hs
  refine .of_eq (d := (assertReport s.dev ⟨176, 0, 0, false, false, 0⟩).1) ((exec_managementWatchdog s).trans (by rw [if_pos hb])) rfl ht hc
    ⟨hrep.count, ?_, hrep.frame, hrep.kept⟩
  rw [hrep.fc]

/-! ### Sensors (R423, R453) -/

/-- Binary32 values written to consecutive sub-indices. -/
def putValues (d : Dev) (idx sub : Nat) (vs : List (BitVec 32)) : Dev :=
  (vs.zipIdx).foldl (fun d p => osf d idx (sub + p.2) p.1) d

theorem putFrom_spec (idx sub : Nat) (vs : List (BitVec 32)) : ∀ (k : Nat) (d : Dev),
    ObjsOnly d ((vs.zipIdx k).foldl (fun d p => osf d idx (sub + p.2) p.1) d) ∧
    (∀ key, key < okey idx (sub + k) ∨ okey idx (sub + k + vs.length) ≤ key →
      tget objDefault ((vs.zipIdx k).foldl (fun d p => osf d idx (sub + p.2) p.1) d).objs key = tget objDefault d.objs key) ∧
    ∀ n, n < vs.length → og ((vs.zipIdx k).foldl (fun d p => osf d idx (sub + p.2) p.1) d) idx (sub + k + n) = (vs.getD n 0).toNat := by
  induction vs with
  | nil => exact fun k d => ⟨rfl, fun _ _ => rfl, fun n hn => absurd hn (by simp)⟩
  | cons v vs ih =>
    intro k d
    obtain ⟨honly, hkept, hval⟩ := ih (k + 1) (osf d idx (sub + k) v)
    rw [List.zipIdx_cons, List.foldl_cons]
    refine ⟨((ObjsOnly.refl d).os _ _ _).trans honly, fun key hkey => ?_, fun n hn => ?_⟩
    · rw [hkept key (by unfold okey at hkey ⊢; simp at hkey; omega)]
      exact os_other _ _ _ _ _ (by unfold okey at hkey ⊢; simp at hkey; omega)
    · cases n with
      | zero =>
        refine (hkept (okey idx (sub + k)) (by unfold okey; omega)).trans ?_
        exact (og_os_same ..).trans (by simp)
      | succ n =>
        have := hval n (by simpa using hn)
        rw [show sub + (k + 1) + n = sub + k + (n + 1) by omega] at this
        rw [List.getD_cons_succ]
        exact this

theorem putValues_spec (d : Dev) (idx sub : Nat) (vs : List (BitVec 32)) :
    ObjsOnly d (putValues d idx sub vs) ∧
    (∀ i c, okey i c < okey idx sub ∨ okey idx (sub + vs.length) ≤ okey i c → og (putValues d idx sub vs) i c = og d i c) ∧
    ∀ n, n < vs.length → ogf (putValues d idx sub vs) idx (sub + n) = vs.getD n 0 := by
  obtain ⟨honly, hkept, hval⟩ := putFrom_spec idx sub vs 0 d
  refine ⟨honly, fun i c h => hkept (okey i c) h, fun n hn => ?_⟩
  have := hval n hn
  unfold ogf putValues
  rw [show sub + n = sub + 0 + n by omega, this, BitVec.ofNat_toNat, BitVec.setWidth_eq]

/-- A temperature source follows its threshold with the hysteresis of 0x2030.03. -/
def tempLevel (mx : F32) (d : Dev) (src : Nat) (t : F32) : Dev :=
  if f32Le t mx then report d src 0 0 else if f32Le mx (f32Sub t (ogf d 0x2030 3)) then deassert d src else d

/-- The temperatures, the supply and the VIN power of one sample. -/
def supplyReadings (d : Dev) (temps supply : List (BitVec 32)) : Dev :=
  osf (putValues (osf (putValues d 0x2050 1 (temps.take 6)) 0x2050 7 (f32Max (temps.take 6))) 0x2050 8 (supply.take 4)) 0x2050 0x0C
    (f32Mul (supply.getD 0 0) (supply.getD 3 0))

/-- The values of the domains, 0 for one outside its window. -/
def windowed (d : Dev) (vs : List (BitVec 32)) : List (BitVec 32) :=
  (vs.take 8).zipIdx.map (fun p => if bit (og d 0x2010 2) p.2 then p.1 else 0)

/-- The readings of one sample before the temperature sources follow. -/
def readings (d : Dev) (temps supply volts amps : List (BitVec 32)) : Dev :=
  putValues (putValues (supplyReadings d temps supply) 0x2051 1 (windowed (supplyReadings d temps supply) volts)) 0x2052 1
    (windowed (supplyReadings d temps supply) amps)

theorem exec_sensorSample (temps supply volts amps : List (BitVec 32)) (s : State) : exec (.sensorSample temps supply volts amps) s = .next (
    if !ready s.dev 0 then s
    else upd s (fun d =>
      tempLevel (f32Max (temps.take 6)) (tempLevel (f32Max (temps.take 6)) (readings d temps supply volts amps) 4
          (ogf (readings d temps supply volts amps) 0x2030 1)) 5 (ogf (readings d temps supply volts amps) 0x2030 2))) := rfl

theorem supplyReadings_spec (d : Dev) {temps supply : List (BitVec 32)} (ht : temps.length = 6) (hp : supply.length = 4) :
    ObjsOnly d (supplyReadings d temps supply) ∧
    (∀ i c, okey i c < okey 0x2050 0 ∨ okey 0x2051 0 ≤ okey i c → og (supplyReadings d temps supply) i c = og d i c) ∧
    (∀ i, i < 6 → ogf (supplyReadings d temps supply) 0x2050 (1 + i) = temps.getD i 0) ∧
    ogf (supplyReadings d temps supply) 0x2050 7 = f32Max temps ∧
    (∀ i, i < 4 → ogf (supplyReadings d temps supply) 0x2050 (8 + i) = supply.getD i 0) ∧
    ogf (supplyReadings d temps supply) 0x2050 0x0C = f32Mul (supply.getD 0 0) (supply.getD 3 0) := by
  have hosf (e : Dev) (i c : Nat) (v : F32) : ogf (osf e i c v) i c = v := by
    rw [ogf, osf, og_os_same, BitVec.ofNat_toNat, BitVec.setWidth_eq]
  have hosf' (e : Dev) (i c j b : Nat) (v : F32) (h : okey j b ≠ okey i c) : og (osf e i c v) j b = og e j b := by
    rw [osf, og_os, if_neg h]
  unfold supplyReadings
  rw [List.take_of_length_le (by omega), List.take_of_length_le (by omega)]
  obtain ⟨ho1, hk1, hv1⟩ := putValues_spec d 0x2050 1 temps
  obtain ⟨ho2, hk2, hv2⟩ := putValues_spec (osf (putValues d 0x2050 1 temps) 0x2050 7 (f32Max temps)) 0x2050 8 supply
  rw [ht] at hk1 hv1
  rw [hp] at hk2 hv2
  have ogf_congr {a b : Dev} {i c : Nat} (h : og a i c = og b i c) : ogf a i c = ogf b i c := by unfold ogf; rw [h]
  refine ⟨?_, fun i c h => ?_, fun i hi => ?_, ?_, fun i hi => ?_, hosf ..⟩
  · exact ((ho1.os _ _ _).trans ho2).os _ _ _
  · rw [hosf' _ _ _ _ _ _ (by unfold okey at h ⊢; omega), hk2 _ _ (by unfold okey at h ⊢; omega), hosf' _ _ _ _ _ _ (by unfold okey at h ⊢; omega),
      hk1 _ _ (by unfold okey at h ⊢; omega)]
  · rw [← hv1 i hi]
    refine ogf_congr ?_
    rw [hosf' _ _ _ _ _ _ (by unfold okey; omega), hk2 _ _ (by unfold okey; omega), hosf' _ _ _ _ _ _ (by unfold okey; omega)]
  · rw [ogf_congr (hosf' _ _ _ _ _ _ (by decide)), ogf_congr (hk2 _ _ (by decide)), hosf]
  · rw [← hv2 i hi]
    exact ogf_congr (hosf' _ _ _ _ _ _ (by unfold okey; omega))

theorem windowed_getD (d : Dev) {vs : List (BitVec 32)} (hl : vs.length = 8) {i : Nat} (hi : i < 8) :
    (windowed d vs).getD i 0 = if bit (og d 0x2010 2) i then vs.getD i 0 else 0 := by
  unfold windowed
  rw [List.take_of_length_le (by omega)]
  simp [List.getD_eq_getElem?_getD, hl, hi]

theorem length_windowed (d : Dev) {vs : List (BitVec 32)} (hl : vs.length = 8) : (windowed d vs).length = 8 := by
  simp [windowed, hl]

/-- The follow of a temperature source: its condition, and nothing of the readings. -/
theorem tempLevel_spec {d : Dev} {mx t : F32} {src : Nat} (hsrc : src = 4 ∨ src = 5) (hr : ready d 2 = true) (hcfg : Mild d src) :
    ObjsKept d (tempLevel mx d src t) (dropKeys ++ reportKeys src) ∧
    (∀ n, n ≠ src → n ≠ 185 → bit (tempLevel mx d src t).fc.cond n = bit d.fc.cond n) ∧
    (f32Le t mx = true → bit (tempLevel mx d src t).fc.cond src = true) ∧
    (f32Le t mx = false → f32Le mx (f32Sub t (ogf d 0x2030 3)) = true → bit (tempLevel mx d src t).fc.cond src = false) ∧
    (f32Le t mx = false → f32Le mx (f32Sub t (ogf d 0x2030 3)) = false → bit (tempLevel mx d src t).fc.cond src = bit d.fc.cond src) := by
  have hshown := report_shown (src := src) 0 0 hr hcfg
  have hend (e : Dev) : sourceEnded e src = e := by rcases hsrc with rfl | rfl <;> rfl
  have hlev : levelSource src = true := by rcases hsrc with rfl | rfl <;> rfl
  have hne : src ≠ 185 := by omega
  obtain ⟨hframe, hoff, hothers⟩ := deassert_plain (d := d) hend
  unfold tempLevel
  split
  · next h =>
    exact ⟨hshown.kept, fun n hn h185 => by rw [hshown.cond n h185]; simp [hn], fun _ => by rw [hshown.cond src hne]; simp [hlev],
      fun h' => absurd h (by simp [h']), fun h' => absurd h (by simp [h'])⟩
  · next h =>
    split
    · next hlow =>
      exact ⟨by rw [hframe]; exact fun _ _ => rfl, fun n hn _ => hothers n hn, fun h' => absurd h' h, fun _ _ => hoff,
        fun _ h' => absurd hlow (by simp [h'])⟩
    · next hmid => exact ⟨.refl _ _, fun _ _ _ => rfl, fun h' => absurd h' h, fun _ h' => absurd h' hmid, fun _ _ => rfl⟩

theorem readings_spec (d : Dev) {temps supply volts amps : List (BitVec 32)} (ht : temps.length = 6) (hp : supply.length = 4)
    (hv : volts.length = 8) (ha : amps.length = 8) :
    ObjsOnly d (readings d temps supply volts amps) ∧
    (∀ i c, okey i c < okey 0x2050 0 ∨ okey 0x2053 0 ≤ okey i c → og (readings d temps supply volts amps) i c = og d i c) ∧
    (∀ i, i < 6 → ogf (readings d temps supply volts amps) 0x2050 (1 + i) = temps.getD i 0) ∧
    ogf (readings d temps supply volts amps) 0x2050 7 = f32Max temps ∧
    (∀ i, i < 4 → ogf (readings d temps supply volts amps) 0x2050 (8 + i) = supply.getD i 0) ∧
    ogf (readings d temps supply volts amps) 0x2050 0x0C = f32Mul (supply.getD 0 0) (supply.getD 3 0) ∧
    ∀ i, i < 8 → ogf (readings d temps supply volts amps) 0x2051 (1 + i) = (if bit (og d 0x2010 2) i then volts.getD i 0 else 0) ∧
      ogf (readings d temps supply volts amps) 0x2052 (1 + i) = (if bit (og d 0x2010 2) i then amps.getD i 0 else 0) := by
  obtain ⟨ho, hk, htemp, hmax, hsup, hpow⟩ := supplyReadings_spec d ht hp
  unfold readings
  obtain ⟨e, he⟩ : ∃ e, e = supplyReadings d temps supply := ⟨_, rfl⟩
  rw [← he] at ho hk htemp hmax hsup hpow ⊢
  obtain ⟨ho1, hk1, hv1⟩ := putValues_spec e 0x2051 1 (windowed e volts)
  obtain ⟨ho2, hk2, hv2⟩ := putValues_spec (putValues e 0x2051 1 (windowed e volts)) 0x2052 1 (windowed e amps)
  rw [length_windowed e hv] at hk1 hv1
  rw [length_windowed e ha] at hk2 hv2
  have hwin : og e 0x2010 2 = og d 0x2010 2 := hk _ _ (by decide)
  have ogf_congr {a b : Dev} {i c : Nat} (h : og a i c = og b i c) : ogf a i c = ogf b i c := by unfold ogf; rw [h]
  have hlow (c : Nat) (hc : c < 256) : ogf (putValues (putValues e 0x2051 1 (windowed e volts)) 0x2052 1 (windowed e amps)) 0x2050 c = ogf e 0x2050 c :=
    ogf_congr ((hk2 _ _ (by unfold okey; omega)).trans (hk1 _ _ (by unfold okey; omega)))
  refine ⟨(ho.trans ho1).trans ho2, fun i c h => ?_, fun i hi => ?_, ?_, fun i hi => ?_, ?_, fun i hi => ⟨?_, ?_⟩⟩
  · rw [hk2 _ _ (by unfold okey at h ⊢; omega), hk1 _ _ (by unfold okey at h ⊢; omega), hk _ _ (by unfold okey at h ⊢; omega)]
  · rw [hlow _ (by omega), htemp i hi]
  · rw [hlow _ (by decide), hmax]
  · rw [hlow _ (by omega), hsup i hi]
  · rw [hlow _ (by decide), hpow]
  · rw [ogf_congr (hk2 _ _ (by unfold okey; omega)), hv1 i hi, windowed_getD e hv hi, hwin]
  · rw [hv2 i hi, windowed_getD e ha hi, hwin]

theorem sensorSample_shows {s : State} {temps supply volts amps : List (BitVec 32)} (hr : ready s.dev 0 = true) (hr2 : ready s.dev 2 = true)
    (ht : temps.length = 6) (hp : supply.length = 4) (hv : volts.length = 8) (ha : amps.length = 8)
    (hcfg : ∀ n ∈ [4, 5], Mild s.dev n) :
    Leaves (.sensorSample temps supply volts amps) s (fun d =>
      (∀ i, i < 6 → ogf d 0x2050 (1 + i) = temps.getD i 0) ∧ ogf d 0x2050 7 = f32Max temps ∧
      (∀ i, i < 4 → ogf d 0x2050 (8 + i) = supply.getD i 0) ∧
      ogf d 0x2050 0x0C = f32Mul (supply.getD 0 0) (supply.getD 3 0) ∧
      (∀ i, i < 8 → ogf d 0x2051 (1 + i) = (if bit (og s.dev 0x2010 2) i then volts.getD i 0 else 0) ∧
        ogf d 0x2052 (1 + i) = (if bit (og s.dev 0x2010 2) i then amps.getD i 0 else 0)) ∧
      (∀ i, i < 2 →
        (f32Le (ogf s.dev 0x2030 (1 + i)) (f32Max temps) = true → bit d.fc.cond (4 + i) = true) ∧
        (f32Le (ogf s.dev 0x2030 (1 + i)) (f32Max temps) = false →
          f32Le (f32Max temps) (f32Sub (ogf s.dev 0x2030 (1 + i)) (ogf s.dev 0x2030 3)) = true → bit d.fc.cond (4 + i) = false) ∧
        (f32Le (ogf s.dev 0x2030 (1 + i)) (f32Max temps) = false →
          f32Le (f32Max temps) (f32Sub (ogf s.dev 0x2030 (1 + i)) (ogf s.dev 0x2030 3)) = false →
          bit d.fc.cond (4 + i) = bit s.dev.fc.cond (4 + i)))) := by
  have hexec := exec_sensorSample temps supply volts amps s
  rw [if_neg (by simp [hr]), List.take_of_length_le (Nat.le_of_eq ht)] at hexec
  obtain ⟨ho, hk, htemp, hmax, hsup, hpow, hdom⟩ := readings_spec s.dev ht hp hv ha
  refine .of_upd hexec ?_
  obtain ⟨e, he⟩ : ∃ e, e = readings s.dev temps supply volts amps := ⟨_, rfl⟩
  rw [← he] at ho hk htemp hmax hsup hpow hdom ⊢
  have ogf_congr {a b : Dev} {i c : Nat} (h : og a i c = og b i c) : ogf a i c = ogf b i c := by unfold ogf; rw [h]
  have hcond : e.fc.cond = s.dev.fc.cond := by rw [ho]
  have hr2' : ready e 2 = true := (ready_of_og (hk _ _ (by decide)) 2).trans hr2
  have hcfg' (n : Nat) (hn : n ∈ [4, 5]) : Mild e n := fun b hb => by
    rw [hk (0x3900 + n) 1 (by unfold okey; omega)]; exact hcfg n hn b hb
  have hthr (c : Nat) (hc : c < 256) : ogf e 0x2030 c = ogf s.dev 0x2030 c := ogf_congr (hk _ _ (by unfold okey; omega))
  rw [hthr 1 (by decide), hthr 2 (by decide)]
  -- the warning level, then the critical one
  obtain ⟨hk4, hkeep4, hon4, hoff4, hstay4⟩ := tempLevel_spec (mx := f32Max temps) (t := ogf s.dev 0x2030 1) (.inl rfl) hr2' (hcfg' 4 (by simp))
  obtain ⟨f, hf⟩ : ∃ f, f = tempLevel (f32Max temps) e 4 (ogf s.dev 0x2030 1) := ⟨_, rfl⟩
  rw [← hf] at hk4 hkeep4 hon4 hoff4 hstay4 ⊢
  have hr2'' : ready f 2 = true := (ready_of_og (hk4.og (by decide)) 2).trans hr2'
  have hcfg'' : Mild f 5 := fun b hb => by rw [hk4.og (by decide)]; exact hcfg' 5 (by simp) b hb
  obtain ⟨hk5, hkeep5, hon5, hoff5, hstay5⟩ := tempLevel_spec (mx := f32Max temps) (t := ogf s.dev 0x2030 2) (.inr rfl) hr2'' hcfg''
  have hhyst (x : Dev) (hx : og x 0x2030 3 = og e 0x2030 3) : ogf x 0x2030 3 = ogf s.dev 0x2030 3 := (ogf_congr hx).trans (hthr 3 (by decide))
  rw [hhyst e rfl] at hoff4 hstay4
  rw [hhyst f (hk4.og (by decide))] at hoff5 hstay5
  have hread (i c : Nat) (hi : 0x2050 ≤ i) (hi' : i ≤ 0x2052) (hc : c < 256) : ogf (tempLevel (f32Max temps) f 5 (ogf s.dev 0x2030 2)) i c = ogf e i c := by
    have hnot (src : Nat) (hsrc : src ≤ 5) : okey i c ∉ dropKeys ++ reportKeys src := by
      simp [dropKeys, reportKeys, List.range, List.range.loop, okey]; omega
    exact ogf_congr ((hk5.og (hnot 5 (by decide))).trans (hk4.og (hnot 4 (by decide))))
  refine ⟨fun i hi => ?_, ?_, fun i hi => ?_, ?_, fun i hi => ⟨?_, ?_⟩, fun i hi => ?_⟩
  · rw [hread _ _ (by decide) (by decide) (by omega), htemp i hi]
  · rw [hread _ _ (by decide) (by decide) (by decide), hmax]
  · rw [hread _ _ (by decide) (by decide) (by omega), hsup i hi]
  · rw [hread _ _ (by decide) (by decide) (by decide), hpow]
  · rw [hread _ _ (by decide) (by decide) (by omega), (hdom i hi).1]
  · rw [hread _ _ (by decide) (by decide) (by omega), (hdom i hi).2]
  · obtain rfl | rfl : i = 0 ∨ i = 1 := by omega
    · have h4 := hkeep5 4 (by decide) (by decide)
      exact ⟨fun h => h4.trans (hon4 h), fun h h' => h4.trans (hoff4 h h'), fun h h' => h4.trans ((hstay4 h h').trans (by rw [hcond]))⟩
    · have h5 := hkeep4 5 (by decide) (by decide)
      exact ⟨hon5, hoff5, fun h h' => (hstay5 h h').trans (h5.trans (by rw [hcond]))⟩

/-- Settles O21: by what the journal's writes, a report of the watchdog and the readings of a sample leave. -/
theorem logsWatchdogAndSensors : Obligations.LogsWatchdogAndSensors := by
  unfold Obligations.LogsWatchdogAndSensors
  refine ⟨fun seq s hs => ⟨fun hw ok => ⟨?_, ?_⟩, journalWrite_succeeds hs, journalWrite_fails hs, fun hw ok => ⟨fun hc => ?_, fun hc => ?_⟩,
      fun hr => ⟨?_, ?_⟩, fun hr => ?select, logRead_shows hs⟩,
    fun temps supply volts amps s => ⟨managementWatchdog_reports, fun hb => ?_, fun hr => ?_,
      fun hr hr2 _ ht hp hv ha hcfg => sensorSample_shows hr hr2 ht hp hv ha hcfg⟩⟩
  · rw [Idles, exec_journalWrite, if_pos hw]
  · rw [Idles, exec_journalRetry, if_pos (by simp [hw])]
  · have hretry : ¬ (warning s.dev || !bit s.dev.fc.cond 182) = true := by simp [hw, hc]
    rw [exec_journalWrite, exec_journalRetry, if_neg hretry, if_neg (by simp [hw])]
  · rw [Idles, exec_journalRetry, if_pos (by simp [hc])]
  · exact .of_upd hs (exec_logSelect seq s) (if_neg (by simp [hr]))
  · exact .of_upd hs (exec_logRead s) (if_neg (by simp [hr]))
  case select =>
    refine .of_eq (d := answer (os s.dev 0x2101 1 seq.toNat) .ok) (exec_logSelect seq s) (if_pos hr) hs.1 hs.2 ⟨by simp, rfl, ?_⟩
    exact ((ObjsKept.refl s.dev [okey 0x2101 1]).os 0x2101 1 _ (by simp)).congr rfl
  · rw [Idles, exec_managementWatchdog, if_neg (by simp [hb])]
  · rw [Idles, exec_sensorSample, if_pos (by simp [hr])]

end Sys2Proof.Machine
end

section
/-! ## Sessions: how they open, and what the host link's operations leave alone -/
namespace Sys2Proof.Machine

/-! ### The host link alone changes -/

namespace HostOnly

theorem refl (a : Dev) (l : List Nat) : HostOnly a a l := ⟨rfl, .refl a l⟩

theorem trans {a b c : Dev} {l : List Nat} (h : HostOnly a b l) (g : HostOnly b c l) : HostOnly a c l :=
  ⟨by rw [g.1, h.1], h.2.trans g.2⟩

theorem host {a b : Dev} {l : List Nat} (h : HostOnly a b l) (x : HostSt) : HostOnly a { b with host := x } l :=
  h.trans ⟨rfl, .refl _ _⟩

theorem emit {a b : Dev} {l : List Nat} (h : HostOnly a b l) (m : Msg) : HostOnly a (Machine.emit b m) l :=
  h.trans ⟨rfl, .refl _ _⟩

theorem onSession {a b : Dev} {l : List Nat} (h : HostOnly a b l) (n : Nat) (f : Session → Session) : HostOnly a (Machine.onSession b n f) l :=
  h.host _

theorem os {a b : Dev} {l : List Nat} (h : HostOnly a b l) {i c : Nat} (v : Nat) (hk : okey i c ∈ l) : HostOnly a (Machine.os b i c v) l :=
  h.trans ⟨rfl, (ObjsKept.refl b l).os _ _ _ hk⟩

theorem sendIn {a b : Dev} {l : List Nat} (h : HostOnly a b l) (p : Port) (n typ fl st req : Nat) (body : Bytes) :
    HostOnly a (Machine.sendIn b p n typ fl st req body) l := by
  unfold Machine.sendIn
  split
  · exact h
  · exact (h.onSession _ _).emit _

theorem reply {a b : Dev} {l : List Nat} (h : HostOnly a b l) (p : Port) (n req : Nat) (r : Answer) : HostOnly a (Machine.reply b p n req r) l :=
  (h.onSession n _).sendIn ..

theorem counterNoted {a b : Dev} {l : List Nat} (h : HostOnly a b l) (id n : Nat) : HostOnly a (Machine.counterNoted b id n) l :=
  h.onSession _ _

/-- A statistics counter that does not saturate counts by one and reports nothing (R388). -/
theorem bump {a b : Dev} {l : List Nat} (h : HostOnly a b l) {i c : Nat} (hc : og b i c < 0xFFFFFFFE) (hk : okey i c ∈ l) :
    HostOnly a (Machine.bump b i c) l := by
  have hbump : Machine.bump b i c = Machine.os b i c (og b i c + 1) := by
    simp only [Machine.bump]
    rw [if_neg (by omega), if_neg (by omega)]
  rw [hbump]
  exact h.os _ hk

theorem fc {a b : Dev} {l : List Nat} (h : HostOnly a b l) : b.fc = a.fc := by rw [h.1]
theorem power {a b : Dev} {l : List Nat} (h : HostOnly a b l) : b.power = a.power := by rw [h.1]

end HostOnly

/-- The counts of open sessions (R470). -/
def sessionKeys : List Nat := [okey 0x2F10 4, okey 0x2F10 5]

theorem showSessions_hostOnly (d : Dev) : HostOnly d (showSessions d) sessionKeys :=
  ((HostOnly.refl d _).os _ (by decide)).os _ (by decide)

theorem dropSession_hostOnly (d : Dev) (id : Nat) : HostOnly d (dropSession d id) sessionKeys :=
  ((HostOnly.refl d _).host _).trans (showSessions_hostOnly _)

/-- A command that changes the host link alone does what its change says. -/
theorem Does.of_hostOnly {c : Instr} {s : State} {f : Dev → Dev} {d : Dev} {l : List Nat} {P : Dev → Prop} (hs : Settled s)
    (h : exec c s = .next (upd s f)) (hf : f s.dev = d) (hd : HostOnly s.dev d l) (hp : P d) : Does c s P :=
  .of_eq h hf (by rw [hd.fc]; exact hs.1) (by rw [hd.power]; exact hs.2) hp

/-! ### A fresh identifier -/

/-- The ten identifiers tried are distinct. -/
theorem candidates_nodup (c : Nat) : ((List.range 10).map (fun i => (c + i) % 2 ^ 32)).Nodup := by
  refine List.Nodup.map_on (fun i hi j hj h => ?_) List.nodup_range
  simp only [List.mem_range] at hi hj
  omega

/-- Ten candidates are more than the zero and the sessions there are: one is free (R470). -/
theorem freshId_spec {d : Dev} (h : d.host.sessions.length < 8) (c : Nat) : freshId d c ≠ 0 ∧ findSession d (freshId d c) = none := by
  unfold freshId
  cases hfind : ((List.range 10).map (fun i => (c + i) % 2 ^ 32)).find? (fun i => i != 0 && (findSession d i).isNone) with
  | some i => simpa using List.find?_some hfind
  | none =>
    have hused : (List.range 10).map (fun i => (c + i) % 2 ^ 32) ⊆ 0 :: d.host.sessions.map Session.id := by
      intro i hi
      have hno := List.find?_eq_none.mp hfind i hi
      by_cases hz : i = 0
      · simp [hz]
      · obtain ⟨x, hx⟩ : ∃ x, findSession d i = some x := by
          simpa [hz, Option.isSome_iff_exists, Option.ne_none_iff_exists'] using hno
        have hmem : x ∈ d.host.sessions := List.mem_of_find?_eq_some hx
        exact List.mem_cons_of_mem _ (List.mem_map.mpr ⟨x, hmem, id_of_findSession hx⟩)
    have hlen := ((candidates_nodup c).subperm hused).length_le
    simp only [List.length_map, List.length_range, List.length_cons] at hlen
    omega

/-! ### The commands -/

section
variable {s : State} {p : Port} {req : BitVec 32} {nonce : BitVec 128} {comm : Bool} {idle : BitVec 16} {h : Kda} {x : Session}

theorem sessionOpen_full (hs : Settled s) (hl : linkUp s.dev p = true) (h8 : 8 ≤ s.dev.host.sessions.length) :
    Does (.sessionOpen p req nonce comm idle) s (fun d =>
      d = { s.dev with out := s.dev.out ++ [.datagram p 0 0x11 (kdaHeader 0x11 1 0x24 0 0 req.toNat 0)] }) := by
  refine .of_eq (d := sendBare s.dev p 0x11 0x24 req.toNat []) rfl ?_ hs.1 hs.2 ?_
  · simp only [hl, h8, Bool.not_true, Bool.false_eq_true, if_false, if_true]
  · simp only [sendBare, emit, List.append_nil, List.length_nil]

theorem sessionOpen_second (hs : Settled s) (hl : linkUp s.dev p = true) (h8 : s.dev.host.sessions.length < 8)
    (hc : s.dev.host.sessions.any (fun y => y.isOpen && y.comm) = true) : Does (.sessionOpen p req nonce true idle) s (fun d =>
      d = { s.dev with out := s.dev.out ++ [.datagram p 0 0x11 (kdaHeader 0x11 1 7 0 0 req.toNat 0)] }) := by
  refine .of_eq (d := sendBare s.dev p 0x11 7 req.toNat []) rfl ?_ hs.1 hs.2 ?_
  · simp only [hl, Nat.not_le.mpr h8, hc, Bool.not_true, Bool.false_eq_true, Bool.or_true, Bool.true_or, Bool.and_self, if_false, if_true]
  · simp only [sendBare, emit, List.append_nil, List.length_nil]

theorem sessionOpen_opens (hs : Settled s) (hl : linkUp s.dev p = true) (h8 : s.dev.host.sessions.length < 8) :
    Does (.sessionOpen p req nonce false idle) s (fun d =>
      ∃ y, d.host.sessions = s.dev.host.sessions ++ [y] ∧ y.isOpen = false ∧ y.id ≠ 0 ∧ findSession s.dev y.id = none ∧
        y.idle = (if idle = 0 then og s.dev 0x2F10 3 else idle.toNat) ∧ y.rx = 0 ∧ y.tx = 0 ∧
        d = { s.dev with host := { s.dev.host with sessions := d.host.sessions }, free := d.free, out := d.out } ∧
        d.out.length = s.dev.out.length + 1) := by
  obtain ⟨hnz, hfree⟩ := freshId_spec h8 (Config.sessionId s.dev.free).toNat
  refine .of_upd rfl ?_ ?_ ?_ <;> simp only [hl, Nat.not_le.mpr h8, Bool.not_true, Bool.false_and, Bool.false_eq_true, if_false]
  · exact hs.1
  · exact hs.2
  · exact ⟨_, rfl, rfl, hnz, hfree, rfl, rfl, rfl, rfl, by simp [emit]⟩

theorem sessionOpen_down (hs : Settled s) (hl : linkUp s.dev p = false) : Idles (.sessionOpen p req nonce comm idle) s :=
  .of_upd hs rfl (by simp only [hl, Bool.not_false, if_true])

/-- The device once an accepted confirmation is answered (R470). -/
def confirmed (s : State) (h : Kda) (x : Session) : Dev :=
  showSessions (onSession (counterNoted s.dev x.id h.counter.toNat) x.id (fun x => { x with isOpen := true }))

theorem exec_sessionConfirm_accepted (ha : Accepted s p h 0x12 [] x) (ho : x.isOpen = false) (hc : x.comm = false) :
    exec (.sessionConfirm p h) s = .next (upd s (fun _ => reply (confirmed s h x) p x.id h.reqId.toNat (0x13, 0, []))) := by
  have hexec : exec (.sessionConfirm p h) s = execSessionConfirm p h s := rfl
  rw [hexec, execSessionConfirm, receive_accepted ha true]
  simp only [ho, hc, Bool.false_eq_true, if_false]
  rfl

theorem findSession_confirmed (ha : Accepted s p h 0x12 [] x) :
    findSession (confirmed s h x) x.id = some { x with rx := h.counter.toNat, isOpen := true } := by
  have hnoted : findSession (confirmed s h x) x.id =
      findSession (onSession (counterNoted s.dev x.id h.counter.toNat) x.id (fun x => { x with isOpen := true })) x.id := rfl
  rw [hnoted, findSession_onSession _ _ _ _ (by intro y; rfl), if_pos rfl, findSession_counterNoted ha.find, if_pos rfl]
  rfl

/-- An answer counts no session open that was not. -/
theorem reply_opens (d : Dev) (n req : Nat) (r : Answer) :
    ((reply d p n req r).host.sessions.filter Session.isOpen).length = (d.host.sessions.filter Session.isOpen).length := by
  have hon (e : Dev) (f : Session → Session) (hf : ∀ y, (f y).isOpen = y.isOpen) :
      ((onSession e n f).host.sessions.filter Session.isOpen).length = (e.host.sessions.filter Session.isOpen).length := by
    simp only [onSession, List.filter_map, List.length_map]
    congr 2
    funext y
    simp only [Function.comp_apply]
    split
    · exact hf y
    · rfl
  simp only [reply, sendIn]
  split
  · exact hon d _ (by intro y; rfl)
  · exact (hon _ _ (by intro y; rfl)).trans (hon d _ (by intro y; rfl))

theorem sessionConfirm_opens (hs : Settled s) (ha : Accepted s p h 0x12 [] x) (ho : x.isOpen = false) (hc : x.comm = false) :
    Served (.sessionConfirm p h) s p h x 0x13 0 [] (fun d y =>
      y.isOpen = true ∧ og d 0x2F10 4 = (d.host.sessions.filter Session.isOpen).length ∧ HostOnly s.dev d [okey 0x2F10 4, okey 0x2F10 5]) := by
  have hfound := findSession_confirmed ha
  have hhost : HostOnly s.dev (confirmed s h x) sessionKeys :=
    (((HostOnly.refl s.dev _).counterNoted _ _).onSession _ _).trans (showSessions_hostOnly _)
  have hreply := hhost.reply p x.id h.reqId.toNat (0x13, 0, [])
  have hresp : response p { x with rx := h.counter.toNat, isOpen := true } 0x13 0 h.reqId.toNat [] = response p x 0x13 0 h.reqId.toNat [] := rfl
  have hobj : (reply (confirmed s h x) p x.id h.reqId.toNat (0x13, 0, [])).objs = (confirmed s h x).objs := by
    rw [reply, sendIn]
    split <;> rfl
  refine ⟨_, replied h.reqId.toNat (0x13, 0, []) { x with rx := h.counter.toNat, isOpen := true },
    (exec_sessionConfirm_accepted ha ho hc).trans (congrArg _ (upd_settled s _ ?_ ?_)), ?_,
    (findSession_reply hfound ..).trans (if_pos rfl), rfl, rfl, rfl, ?_, rfl, ?_, hreply⟩
  · rw [hreply.fc]; exact hs.1
  · rw [hreply.power]; exact hs.2
  · rw [reply_out hfound, hresp]
    rfl
  · simp [replied]
  · rw [og_congr hobj, reply_opens, confirmed, showSessions, og_os, if_neg (by decide), og_os_same]
    rfl

theorem challengeLapse_drops {id : BitVec 32} (hs : Settled s) (hx : findSession s.dev id.toNat = some x) (ho : x.isOpen = false) :
    Does (.challengeLapse id) s (fun d => findSession d id.toNat = none ∧ (∀ i, i ≠ id.toNat → findSession d i = findSession s.dev i) ∧
      HostOnly s.dev d [okey 0x2F10 4, okey 0x2F10 5]) := by
  have hdrop := dropSession_hostOnly s.dev id.toNat
  refine .of_hostOnly (d := dropSession s.dev id.toNat) hs rfl ?_ hdrop ⟨?_, fun i hi => ?_, hdrop⟩
  · simp only [hx, ho, Bool.false_eq_true, if_false]
  · rw [findSession_dropSession, if_pos rfl]
  · rw [findSession_dropSession, if_neg hi]

theorem sessionClose_drops (hs : Settled s) (ha : Accepted s p h 0x14 [] x) (hc : x.comm = false) : Does (.sessionClose p h) s (fun d =>
    d.out = s.dev.out ++ [response p x 0x14 0 h.reqId.toNat []] ∧ findSession d x.id = none ∧ (s.dev.host.lease = x.id → d.host.lease = 0) ∧
    HostOnly s.dev d [okey 0x2F10 4, okey 0x2F10 5]) := by
  have hfound : findSession (counterNoted s.dev x.id h.counter.toNat) x.id = some { x with rx := h.counter.toNat } :=
    (findSession_counterNoted ha.find _ _).trans (if_pos rfl)
  have hfind : findSession (closeAnswered s p h x) x.id = some (replied h.reqId.toNat (0x14, 0, []) { x with rx := h.counter.toNat }) :=
    (findSession_reply hfound ..).trans (if_pos rfl)
  have hopen : (replied h.reqId.toNat (0x14, 0, []) { x with rx := h.counter.toNat }).isOpen = true := ha.isOpen (by decide)
  have hcomm : (replied h.reqId.toNat (0x14, 0, []) { x with rx := h.counter.toNat }).comm = false := hc
  have hanswered : HostOnly s.dev (closeAnswered s p h x) sessionKeys := ((HostOnly.refl s.dev _).counterNoted _ _).reply ..
  refine ⟨dropSession (closeAnswered s p h x) x.id, ?_, reply_out hfound .., ?_, fun hlease => ?_, hanswered.trans (dropSession_hostOnly _ _)⟩
  · rw [exec_sessionClose_accepted hs ha, closeSession_open (s := { s with dev := closeAnswered s p h x }) hfind hopen, hcomm]
    rfl
  · rw [findSession_dropSession, if_pos rfl]
  · have hkept : (closeAnswered s p h x).host.lease = x.id := (reply_lease ..).trans hlease
    rw [dropSession_lease, if_pos hkept]

theorem sessionIdleTimeout_drops {id : BitVec 32} (hx : findSession s.dev id.toNat = some x) (ho : x.isOpen = true) (hc : x.comm = false) :
    Does (.sessionIdleTimeout id) s (fun d => findSession d id.toNat = none ∧ (s.dev.host.lease = id.toNat → d.host.lease = 0) ∧
      HostOnly s.dev d [okey 0x2F10 4, okey 0x2F10 5]) := by
  have hexec : exec (.sessionIdleTimeout id) s = execSessionIdleTimeout id s := rfl
  refine ⟨dropSession s.dev id.toNat, ?_, ?_, fun hlease => ?_, dropSession_hostOnly _ _⟩
  · simp only [hexec, execSessionIdleTimeout, hx, ho, if_true, closeSession_open hx ho, hc, Bool.false_eq_true, if_false]
  · rw [findSession_dropSession, if_pos rfl]
  · rw [dropSession_lease, if_pos hlease]

end

/-- Settles O24: of ten identifiers tried one is free, and every session that ends is dropped with its lease. -/
theorem sessionsOpenAndClose : Obligations.SessionsOpenAndClose := by
  unfold Obligations.SessionsOpenAndClose
  intro p req id nonce comm idle h x s hs
  exact ⟨sessionOpen_full hs, sessionOpen_second hs, sessionOpen_opens hs, sessionOpen_down hs, sessionConfirm_opens hs,
    challengeLapse_drops hs, sessionClose_drops hs, sessionIdleTimeout_drops⟩

end Sys2Proof.Machine
end

section
/-! ## Process images and events of the sessions -/
namespace Sys2Proof.Machine

/-! ### The bytes of an image -/

theorem tdel_absent {k : Nat} : ∀ {t : Table Nat}, (∀ q ∈ t, q.1 < k) → tdel k t = t
  | [], _ => rfl
  | q :: t, h => by
    have hq : q.1 ≠ k := Nat.ne_of_lt (h q List.mem_cons_self)
    rw [tdel, if_neg hq, tdel_absent (fun r hr => h r (List.mem_cons_of_mem _ hr))]

theorem tinsert_last {k v : Nat} : ∀ {t : Table Nat}, (∀ q ∈ t, q.1 < k) → tinsert k v t = t ++ [(k, v)]
  | [], _ => rfl
  | q :: t, h => by
    have hq : ¬ k < q.1 := Nat.not_lt.mpr (Nat.le_of_lt (h q List.mem_cons_self))
    rw [tinsert, if_neg hq, tinsert_last (fun r hr => h r (List.mem_cons_of_mem _ hr)), List.cons_append]

/-- A byte behind all others joins them at the end (R480). -/
theorem putImageByte_last {t : Table Nat} {k : Nat} (b : Byte) (h : ∀ q ∈ t, q.1 < k) : putImageByte t (b, k) = t ++ [(k, b.toNat)] := by
  have hb : b.toNat ≠ 256 := Nat.ne_of_lt b.isLt
  simp only [putImageByte, tput, hb, if_false]
  rw [tdel_absent h, tinsert_last h]

/-- Bytes in order of their places form the image. -/
theorem foldl_putImageByte (data : Bytes) : ∀ (t : Table Nat) (k : Nat), (∀ q ∈ t, q.1 < k) →
    (data.zipIdx k).foldl putImageByte t = t ++ (data.zipIdx k).map (fun p => (p.2, p.1.toNat)) := by
  induction data with
  | nil => intro t k _; simp
  | cons b data ih =>
    intro t k h
    rw [List.zipIdx_cons, List.foldl_cons, putImageByte_last b h, ih, List.map_cons, List.append_assoc, List.singleton_append]
    intro q hq
    rcases List.mem_append.mp hq with hq | hq
    · exact Nat.lt_succ_of_lt (h q hq)
    · rw [List.mem_singleton.mp hq]
      exact Nat.lt_succ_self k

/-- The bytes of an image that came in one fragment are that fragment's. -/
theorem image_of_fragment (data : Bytes) : ((data.zipIdx 0).foldl putImageByte []).length = data.length ∧
    ((data.zipIdx 0).foldl putImageByte []).map (fun p => BitVec.ofNat 8 p.2) = data := by
  rw [foldl_putImageByte data [] 0 (by simp), List.nil_append]
  refine ⟨by rw [List.length_map, List.length_zipIdx], ?_⟩
  rw [List.map_map]
  conv_rhs => rw [← List.zipIdx_map_fst 0 data]
  refine List.map_congr_left (fun q _ => ?_)
  rw [Function.comp_apply, BitVec.ofNat_toNat, BitVec.setWidth_eq]

/-! ### Images from the host -/

/-- What an accepted fragment does (R480). -/
def fragmentTaken (d : Dev) (x : Session) (num total off : Nat) (data : Bytes) : Dev :=
  if 1400 < data.length || total < off + data.length then bump d 0x2F20 3
  else if (takeLease d x).host.lease != x.id then bump (takeLease d x) 0x2F20 6
  else if mode (takeLease d x) = 1 || mode (takeLease d x) = 5 then takeLease d x
  else leaseFragment (takeLease d x) num total off data

section
variable {s : State} {p : Port} {h : Kda} {num : BitVec 32} {total : BitVec 16} {data : Bytes} {x : Session}

theorem exec_imageFragment_accepted (ha : Accepted s p h 0x30 (fragmentHeader num.toNat 0 0 total.toNat 0 ++ data) x) :
    exec (.imageFragment p h num total 0 data) s = .next (upd s (fun _ =>
      fragmentTaken (counterNoted s.dev x.id h.counter.toNat) { x with rx := h.counter.toNat } num.toNat total.toNat 0 data)) := by
  have hexec : exec (.imageFragment p h num total 0 data) s = .next (upd s (fun d =>
      match receive d p h 0x30 (fragmentHeader num.toNat 0 0 total.toNat 0 ++ data) false with
      | .done d => d
      | .go d x => fragmentTaken d x num.toNat total.toNat 0 data)) := rfl
  rw [hexec]
  simp only [upd, receive_accepted ha false]

/-- A whole image of the mapped size is taken at once, and a lower number is refused from then on (R20, R480). -/
theorem leaseFragment_whole {d : Dev} {n : Nat} (hnone : d.host.imgNum = none) (hfloor : d.host.floor ≤ n) (hp : paired d = false)
    (hsize : data.length = imageSize d 0x1600) :
    leaseFragment d n data.length 0 data =
      pendImage { d with host := { d.host with imgNum := none, imgLen := 0, image := [], floor := n + 1 } } n data := by
  obtain ⟨hlen, hbytes⟩ := image_of_fragment data
  have hold : (decide (n < d.host.floor) || false) = false := by simp [hfloor]
  have hbegin : beginImage d n data.length = { d with host := { d.host with imgNum := some n, imgLen := data.length, image := [] } } := by
    simp only [beginImage, hnone, Option.isSome_none, Bool.false_and, Bool.false_eq_true, if_false]
    exact if_pos hsize
  have hsame : imageSize (beginImage d n data.length) 0x1600 = data.length := by rw [hbegin]; exact hsize.symm
  have hpaired : paired (beginImage d n data.length) = false := by rw [hbegin]; exact hp
  simp only [leaseFragment, hnone, hold, reduceCtorEq, if_false, Bool.false_eq_true]
  have hok : (data.length != (beginImage d n data.length).host.imgLen || data.length != imageSize (beginImage d n data.length) 0x1600) = false := by
    rw [hsame, hbegin]
    simp
  rw [hok, hbegin] at *
  simp only [Bool.false_eq_true, if_false, addFragment, hlen, Nat.lt_irrefl, hbytes]
  exact if_neg (by rw [Bool.not_eq_true]; exact hp)

/-- The lease holder's session keeps the lease, and no image is under way. -/
theorem takeLease_holder {n : Nat} (hlease : s.dev.host.lease = x.id) (hfloor : s.dev.host.floor ≤ n)
    (hnone : s.dev.host.imgNum = none) : ∃ hh : HostSt,
      takeLease (counterNoted s.dev x.id h.counter.toNat) { x with rx := h.counter.toNat } = { s.dev with host := hh } ∧
      hh.lease = x.id ∧ hh.imgNum = none ∧ hh.floor ≤ n ∧ hh.pending = s.dev.host.pending := by
  unfold takeLease
  split
  · exact ⟨_, rfl, rfl, rfl, Nat.zero_le _, rfl⟩
  · exact ⟨_, rfl, hlease, hnone, hfloor, rfl⟩

theorem imageFragment_pends (hs : Settled s) (ha : Accepted s p h 0x30 (fragmentHeader num.toNat 0 0 total.toNat 0 ++ data) x)
    (hlease : s.dev.host.lease = x.id) (hm : mode s.dev = 2 ∨ mode s.dev = 3 ∨ mode s.dev = 4)
    (hp : paired s.dev = false) (hlen : data.length = total.toNat) (hmax : total.toNat ≤ 1400) (hsize : total.toNat = imageSize s.dev 0x1600)
    (hfloor : s.dev.host.floor ≤ num.toNat) (hnone : s.dev.host.imgNum = none) (hc : og s.dev 0x2F20 4 < 0xFFFFFFFE) :
    Does (.imageFragment p h num total 0 data) s (fun d =>
      d.host.pending = some (num.toNat, data) ∧ d.host.floor = num.toNat + 1 ∧ d.host.lease = x.id ∧
      og d 0x2F20 4 = og s.dev 0x2F20 4 + b2n s.dev.host.pending.isSome ∧ d.out = s.dev.out ∧ HostOnly s.dev d [okey 0x2F20 4]) := by
  obtain ⟨hh, htake, hl, hn, hf, hpend⟩ := takeLease_holder (h := h) hlease hfloor hnone
  have hmode : ¬ (mode s.dev = 1 ∨ mode s.dev = 5) := by omega
  have hwhole := leaseFragment_whole (d := { s.dev with host := hh }) (n := num.toNat) hn hf hp (hlen.trans hsize)
  rw [hlen] at hwhole
  obtain ⟨e, he⟩ : ∃ e : Dev, e = { s.dev with host := { hh with imgNum := none, imgLen := 0, image := [], floor := num.toNat + 1 } } := ⟨_, rfl⟩
  have htaken : fragmentTaken (counterNoted s.dev x.id h.counter.toNat) { x with rx := h.counter.toNat } num.toNat total.toNat 0 data =
      pendImage e num.toNat data := by
    have hsmall : (decide (1400 < data.length) || decide (total.toNat < 0 + data.length)) = false := by simp; omega
    have hown : (hh.lease != x.id) = false := by simp [hl]
    have hmode' : (decide (mode ({ s.dev with host := hh } : Dev) = 1) || decide (mode ({ s.dev with host := hh } : Dev) = 5)) = false := by
      have hsame : mode ({ s.dev with host := hh } : Dev) = mode s.dev := rfl
      rw [hsame]
      simpa using hmode
    simp only [fragmentTaken, hsmall, htake, hown, hmode', Bool.false_eq_true, if_false, hwhole, he]
  have hcount : og e 0x2F20 4 = og s.dev 0x2F20 4 := by rw [he]; rfl
  have hhost : HostOnly s.dev e [okey 0x2F20 4] := by rw [he]; exact ⟨rfl, .refl _ _⟩
  have hpending : e.host.pending = s.dev.host.pending := by rw [he]; exact hpend
  have hfloor' : e.host.floor = num.toNat + 1 := by rw [he]
  have hlease' : e.host.lease = x.id := by rw [he]; exact hl
  have hout : e.out = s.dev.out := by rw [he]
  obtain ⟨u, hu⟩ : ∃ u, u = if e.host.pending.isSome then bump e 0x2F20 4 else e := ⟨_, rfl⟩
  have hspec : HostOnly s.dev u [okey 0x2F20 4] ∧ og u 0x2F20 4 = og s.dev 0x2F20 4 + b2n s.dev.host.pending.isSome ∧ u.host = e.host ∧ u.out = e.out := by
    rw [hu, hpending]
    split
    case isTrue hsome =>
      have hbump := (HostOnly.refl e [okey 0x2F20 4]).bump (i := 0x2F20) (c := 4) (by omega) (by simp)
      refine ⟨hhost.trans hbump, ?_, by rw [bump_frame], by rw [bump_frame]⟩
      rw [og_bump_same (by omega), hcount, hsome]
      rfl
    case isFalse hno =>
      rw [Bool.not_eq_true] at hno
      exact ⟨hhost, by rw [hcount, hno]; rfl, rfl, rfl⟩
  obtain ⟨hu1, hu2, hu3, hu4⟩ := hspec
  have hdone : pendImage e num.toNat data = { u with host := { u.host with pending := some (num.toNat, data) } } := by rw [pendImage, ← hu]
  refine .of_hostOnly (d := { u with host := { u.host with pending := some (num.toNat, data) } }) hs (exec_imageFragment_accepted ha)
    (htaken.trans hdone) (hu1.host _) ⟨rfl, ?_, ?_, hu2, hu4.trans hout, hu1.host _⟩
  · exact (congrArg HostSt.floor hu3).trans hfloor'
  · exact (congrArg HostSt.lease hu3).trans hlease'

/-- A fragment of another session than the lease holder's is counted, and nothing else (R480). -/
theorem imageFragment_unleased (hs : Settled s) (ha : Accepted s p h 0x30 (fragmentHeader num.toNat 0 0 total.toNat 0 ++ data) x)
    (hlease : s.dev.host.lease ≠ x.id) (hheld : s.dev.host.lease ≠ 0) (hlen : data.length ≤ total.toNat) (hmax : data.length ≤ 1400)
    (hc : og s.dev 0x2F20 6 < 0xFFFFFFFE) : Does (.imageFragment p h num total 0 data) s (fun d =>
      og d 0x2F20 6 = og s.dev 0x2F20 6 + 1 ∧ d.host.pending = s.dev.host.pending ∧ d.host.image = s.dev.host.image ∧
      d.out = s.dev.out ∧ HostOnly s.dev d [okey 0x2F20 6]) := by
  obtain ⟨e, he⟩ : ∃ e, e = counterNoted s.dev x.id h.counter.toNat := ⟨_, rfl⟩
  have hhost : HostOnly s.dev e [okey 0x2F20 6] := by rw [he]; exact (HostOnly.refl _ _).counterNoted _ _
  have hlease' : e.host.lease = s.dev.host.lease := by rw [he]; rfl
  have hcount : og e 0x2F20 6 = og s.dev 0x2F20 6 := by rw [he]; rfl
  have hpend : e.host.pending = s.dev.host.pending ∧ e.host.image = s.dev.host.image ∧ e.out = s.dev.out := by rw [he]; exact ⟨rfl, rfl, rfl⟩
  have htaken : fragmentTaken e { x with rx := h.counter.toNat } num.toNat total.toNat 0 data = bump e 0x2F20 6 := by
    have hsmall : (decide (1400 < data.length) || decide (total.toNat < 0 + data.length)) = false := by simp; omega
    have htake : takeLease e { x with rx := h.counter.toNat } = e := by simp [takeLease, hlease', hheld]
    have hother : (e.host.lease != x.id) = true := by simp [hlease', hlease]
    simp only [fragmentTaken, hsmall, htake, hother, Bool.false_eq_true, if_false, if_true]
  have hbump := hhost.bump (i := 0x2F20) (c := 6) (by omega) (by simp)
  refine .of_hostOnly (d := bump e 0x2F20 6) hs (exec_imageFragment_accepted ha) (by rw [← he]; exact htaken) hbump
    ⟨by rw [og_bump_same (by omega), hcount], ?_, ?_, ?_, hbump⟩
  · exact (congrArg (fun d : Dev => d.host.pending) (bump_frame e 0x2F20 6)).trans hpend.1
  · exact (congrArg (fun d : Dev => d.host.image) (bump_frame e 0x2F20 6)).trans hpend.2.1
  · exact (congrArg Dev.out (bump_frame e 0x2F20 6)).trans hpend.2.2

/-! ### Subscriptions -/

/-- The subscriptions of others do not depend on what a session's request notes of itself. -/
theorem others_counterNoted (d : Dev) (id n : Nat) (f : Session → Bool) : others (counterNoted d id n) id f = others d id f := by
  simp only [others, counterNoted, onSession, List.filter_map, List.length_map]
  congr 2
  funext y
  simp only [Function.comp_apply]
  by_cases hy : y.id = id <;> simp [hy]

/-- A request that changes its own session only, as `f` says, and is answered by `st`. -/
theorem Served.of_session {c : Instr} {typ st : Nat} {body : Bytes} {P : Dev → Session → Prop} {run : State → Session → State × Answer}
    {f : Session → Session} (hs : Settled s) (ha : Accepted s p h typ body x) (hexec : exec c s = .next (serveRequest s p h typ body run))
    (hrun : run { s with dev := counterNoted s.dev x.id h.counter.toNat } { x with rx := h.counter.toNat } =
      ({ s with dev := onSession (counterNoted s.dev x.id h.counter.toNat) x.id f }, typ, st, []))
    (hid : ∀ y, (f y).id = y.id) (hrx : ∀ y, (f y).rx = y.rx) (htx : ∀ y, (f y).tx = y.tx) (hkey : ∀ y, (f y).key = y.key)
    (hP : ∀ d, HostOnly s.dev d [] → P d (replied h.reqId.toNat (typ, st, []) (f { x with rx := h.counter.toNat }))) :
    Served c s p h x typ st [] P := by
  have hhost : HostOnly s.dev (onSession (counterNoted s.dev x.id h.counter.toNat) x.id f) [] :=
    ((HostOnly.refl s.dev []).counterNoted _ _).onSession _ _
  refine .of_run (y := f { x with rx := h.counter.toNat }) hs ha hexec hrun hs.1 hs.2 rfl ?_ (hrx _) (htx _) (hkey _) (hP _ (hhost.reply ..))
  rw [findSession_onSession _ _ _ _ hid, if_pos rfl, findSession_counterNoted ha.find, if_pos rfl]
  rfl

theorem onSession_self (d : Dev) (id : Nat) : onSession d id (fun y => y) = d := by
  simp only [onSession, ite_self, List.map_id']

/-- A session's image subscription with period `n` (R481). -/
def withPeriod (n : Nat) (x : Session) : Session :=
  if n = 0 then { x with period := 0, sending := none, waitImg := none } else { x with period := n }

/-- IMAGE_SUBSCRIPTION as it runs and is answered (R481). -/
def runImageSubscription (n : Nat) (s : State) (x : Session) : State × Answer :=
  if n = 0 then ({ s with dev := onSession s.dev x.id (withPeriod 0) }, 0x31, 0, [])
  else if 2 ≤ others s.dev x.id (fun y => y.period != 0) then (s, 0x31, 0x25, [])
  else ({ s with dev := onSession s.dev x.id (withPeriod n) }, 0x31, 0, [])

theorem exec_imageSubscription (p : Port) (h : Kda) (period : BitVec 16) (s : State) : exec (.imageSubscription p h period) s =
    .next (serveRequest s p h 0x31 (leBytes 2 period.toNat) (runImageSubscription period.toNat)) := rfl

theorem withPeriod_spec (n : Nat) (x : Session) : (withPeriod n x).period = n ∧ (withPeriod n x).id = x.id ∧ (withPeriod n x).rx = x.rx ∧
    (withPeriod n x).tx = x.tx ∧ (withPeriod n x).key = x.key := by
  unfold withPeriod
  split
  case isTrue h => exact ⟨h.symm, rfl, rfl, rfl, rfl⟩
  case isFalse => exact ⟨rfl, rfl, rfl, rfl, rfl⟩

theorem imageSubscription_taken {period : BitVec 16} (hs : Settled s) (ha : Accepted s p h 0x31 (leBytes 2 period.toNat) x)
    (ho : others s.dev x.id (fun y => y.period != 0) < 2) :
    Served (.imageSubscription p h period) s p h x 0x31 0 [] (fun d y => y.period = period.toNat ∧ HostOnly s.dev d []) := by
  refine .of_session (f := withPeriod period.toNat) hs ha (exec_imageSubscription ..) ?_ (fun y => (withPeriod_spec _ y).2.1)
    (fun y => (withPeriod_spec _ y).2.2.1) (fun y => (withPeriod_spec _ y).2.2.2.1) (fun y => (withPeriod_spec _ y).2.2.2.2)
    (fun d hd => ⟨(withPeriod_spec period.toNat _).1, hd⟩)
  by_cases hn : period.toNat = 0
  · simp only [runImageSubscription, hn, if_true]
  · simp only [runImageSubscription, others_counterNoted, Nat.not_le.mpr ho, hn, if_false]

theorem imageSubscription_refused {period : BitVec 16} (hs : Settled s) (ha : Accepted s p h 0x31 (leBytes 2 period.toNat) x)
    (hn : period ≠ 0) (ho : 2 ≤ others s.dev x.id (fun y => y.period != 0)) :
    Served (.imageSubscription p h period) s p h x 0x31 0x25 [] (fun d y => y.period = x.period ∧ HostOnly s.dev d []) := by
  have hn' : period.toNat ≠ 0 := by simpa [BitVec.toNat_eq] using hn
  refine .of_session (f := fun y => y) hs ha (exec_imageSubscription ..) ?_ (fun _ => rfl) (fun _ => rfl) (fun _ => rfl) (fun _ => rfl)
    (fun d hd => ⟨rfl, hd⟩)
  simp only [runImageSubscription, others_counterNoted, ho, hn', if_false, if_true, onSession_self]

/-- A session's event subscription (R482). -/
def withEvents (mask : BitVec 8) (x : Session) : Session :=
  if mask = 0 then { x with events := 0, evQueue := [], logQueue := [] } else { x with events := mask.toNat }

/-- EVENT_SUBSCRIPTION as it runs and is answered (R482). -/
def runEventSubscription (mask : BitVec 8) (s : State) (x : Session) : State × Answer :=
  if 8 ≤ mask.toNat then ({ s with dev := bump s.dev 0x2F20 3 }, 0x40, 0x20, [])
  else if mask != 0 && 4 ≤ others s.dev x.id (fun y => y.events != 0) then (s, 0x40, 0x25, [])
  else ({ s with dev := onSession s.dev x.id (withEvents mask) }, 0x40, 0, [])

theorem exec_eventSubscription (p : Port) (h : Kda) (mask : BitVec 8) (s : State) : exec (.eventSubscription p h mask) s =
    .next (serveRequest s p h 0x40 (leBytes 1 mask.toNat) (runEventSubscription mask)) := rfl

theorem withEvents_spec (mask : BitVec 8) (x : Session) : (withEvents mask x).id = x.id ∧ (withEvents mask x).rx = x.rx ∧
    (withEvents mask x).tx = x.tx ∧ (withEvents mask x).key = x.key := by
  unfold withEvents
  split <;> exact ⟨rfl, rfl, rfl, rfl⟩

theorem eventSubscription_taken {mask : BitVec 8} (hs : Settled s) (ha : Accepted s p h 0x40 (leBytes 1 mask.toNat) x) (h8 : mask.toNat < 8)
    (hn : mask ≠ 0) (ho : others s.dev x.id (fun y => y.events != 0) < 4) : Served (.eventSubscription p h mask) s p h x 0x40 0 [] (fun d y =>
      y.events = mask.toNat ∧ y.logQueue = x.logQueue ∧ HostOnly s.dev d []) := by
  refine .of_session (f := withEvents mask) hs ha (exec_eventSubscription ..) ?_ (fun y => (withEvents_spec _ y).1)
    (fun y => (withEvents_spec _ y).2.1) (fun y => (withEvents_spec _ y).2.2.1) (fun y => (withEvents_spec _ y).2.2.2)
    (fun d hd => ⟨?_, ?_, hd⟩)
  · simp only [runEventSubscription, others_counterNoted, Nat.not_le.mpr h8, Nat.not_le.mpr ho, decide_false, Bool.and_false,
      Bool.false_eq_true, if_false]
  · simp only [replied, withEvents, hn, if_false]
  · simp only [replied, withEvents, hn, if_false]

theorem eventSubscription_ends (hs : Settled s) (ha : Accepted s p h 0x40 (leBytes 1 0) x) :
    Served (.eventSubscription p h 0) s p h x 0x40 0 [] (fun d y =>
      y.events = 0 ∧ y.evQueue = [] ∧ y.logQueue = [] ∧ HostOnly s.dev d []) :=
  .of_session (f := withEvents 0) hs ha (exec_eventSubscription ..) rfl (fun y => (withEvents_spec _ y).1)
    (fun y => (withEvents_spec _ y).2.1) (fun y => (withEvents_spec _ y).2.2.1) (fun y => (withEvents_spec _ y).2.2.2)
    (fun _ hd => ⟨rfl, rfl, rfl, hd⟩)

theorem eventSubscription_refused {mask : BitVec 8} (hs : Settled s) (ha : Accepted s p h 0x40 (leBytes 1 mask.toNat) x)
    (h8 : mask.toNat < 8) (hn : mask ≠ 0) (ho : 4 ≤ others s.dev x.id (fun y => y.events != 0)) :
    Served (.eventSubscription p h mask) s p h x 0x40 0x25 [] (fun d y => y.events = x.events ∧ HostOnly s.dev d []) := by
  have hmask : (mask != 0 && decide (4 ≤ others s.dev x.id (fun y => y.events != 0))) = true := by simpa using ⟨hn, ho⟩
  refine .of_session (f := fun y => y) hs ha (exec_eventSubscription ..) ?_ (fun _ => rfl) (fun _ => rfl) (fun _ => rfl) (fun _ => rfl)
    (fun d hd => ⟨rfl, hd⟩)
  simp only [runEventSubscription, others_counterNoted, hmask, Nat.not_le.mpr h8, if_false, if_true, onSession_self]

/-! ### What goes out to the subscribers -/

/-- A datagram to a session: one message, and its next counter (R467). -/
theorem findSession_sendIn {d : Dev} {id : Nat} {x : Session} (hx : findSession d id = some x) (p : Port) (typ st req : Nat) (body : Bytes) :
    findSession (sendIn d p id typ 0 st req body) id = some { x with tx := x.tx + 1 } ∧
    (sendIn d p id typ 0 st req body).out.length = d.out.length + 1 := by
  simp only [sendIn, hx, findSession_emit]
  refine ⟨?_, by simp [emit, onSession]⟩
  rw [findSession_onSession _ _ _ _ (by intro y; rfl), if_pos rfl, hx]
  rfl

/-- A message to a session that a change of that session goes with. -/
theorem sendIn_onSession {d : Dev} {id : Nat} {x : Session} {f : Session → Session} (hx : findSession d id = some x)
    (hf : ∀ y, (f y).id = y.id) (p : Port) (typ : Nat) (body : Bytes) :
    findSession (sendIn (onSession d id f) p id typ 0 0 0 body) id = some { f x with tx := (f x).tx + 1 } ∧
    (sendIn (onSession d id f) p id typ 0 0 0 body).out.length = d.out.length + 1 ∧
    HostOnly d (sendIn (onSession d id f) p id typ 0 0 0 body) [] := by
  have hfx : findSession (onSession d id f) id = some (f x) := by
    rw [findSession_onSession _ _ _ _ hf, if_pos rfl, hx]
    rfl
  obtain ⟨hfound, hout⟩ := findSession_sendIn hfx p typ 0 0 body
  exact ⟨hfound, hout, ((HostOnly.refl d []).onSession _ _).sendIn ..⟩

/-- The session once the image being sent has gone on by `n` bytes (R480, R481). -/
def imageSent (o : OutImage) (n : Nat) (x : Session) : Session :=
  if o.off + n < o.data.length then { x with sending := some { o with off := o.off + n } } else { x with sending := x.waitImg, waitImg := none }

theorem imageSent_spec (o : OutImage) (n : Nat) (x : Session) : (imageSent o n x).id = x.id ∧ (imageSent o n x).tx = x.tx := by
  unfold imageSent
  split <;> exact ⟨rfl, rfl⟩

theorem imageFragmentSend_goesOn {id : BitVec 32} {o : OutImage} (hs : Settled s) (hx : findSession s.dev id.toNat = some x)
    (ho : x.sending = some o) (hl : linkUp s.dev p = true) : Does (.imageFragmentSend p id) s (fun d =>
      d.out.length = s.dev.out.length + 1 ∧ HostOnly s.dev d [] ∧ ∃ y, findSession d id.toNat = some y ∧ y.tx = x.tx + 1 ∧
        (o.off + 1400 < o.data.length → y.sending = some { o with off := o.off + 1400 } ∧ y.waitImg = x.waitImg) ∧
        (o.data.length ≤ o.off + 1400 → y.sending = x.waitImg ∧ y.waitImg = none)) := by
  obtain ⟨n, hn⟩ : ∃ n, n = (slice o.data o.off 1400).length := ⟨_, rfl⟩
  have hlen : n = min 1400 (o.data.length - o.off) := by rw [hn, slice, List.length_take, List.length_drop]
  obtain ⟨hfound, hout, hhost⟩ := sendIn_onSession (f := imageSent o n) hx (fun y => (imageSent_spec o n y).1) p 0x32
    (fragmentHeader o.num o.cycle o.applied o.data.length o.off ++ slice o.data o.off 1400)
  refine .of_hostOnly hs rfl ?_ hhost ⟨hout, hhost, _, hfound, by rw [(imageSent_spec o n x).2], fun hmore => ?_, fun hlast => ?_⟩
  · simp only [hx, Option.bind_some, ho, hl, Bool.not_true, Bool.false_eq_true, if_false, hn]
    rfl
  · have h1400 : n = 1400 := by omega
    have hlt : o.off + 1400 < o.data.length := hmore
    simp only [imageSent, h1400, hlt, if_true, and_self]
  · have hge : ¬ o.off + n < o.data.length := by omega
    simp only [imageSent, hge, if_false, and_self]


theorem eventDatagramSend_record {id : BitVec 32} {r : Bytes} {rest : List Bytes} (hs : Settled s) (hl : linkUp s.dev p = true)
    (hx : findSession s.dev id.toNat = some x) (hq : x.evQueue = r :: rest) : Does (.eventDatagramSend p id) s (fun d =>
      (∃ y, findSession d id.toNat = some y ∧ y.evQueue = rest ∧ y.logQueue = x.logQueue ∧ y.evCount = (x.evCount + 1) % 2 ^ 32) ∧
      d.out.length = s.dev.out.length + 1 ∧ HostOnly s.dev d []) := by
  obtain ⟨hfound, hout, hhost⟩ := sendIn_onSession (f := fun y => { y with evCount := (x.evCount + 1) % 2 ^ 32, evQueue := rest }) hx
    (by intro y; rfl) p 0x41 (leBytes 4 ((x.evCount + 1) % 2 ^ 32) ++ leBytes 1 1 ++ leBytes 3 0 ++ [r].flatten)
  refine .of_hostOnly hs rfl ?_ hhost ⟨⟨_, hfound, rfl, rfl, rfl⟩, hout, hhost⟩
  simp only [hx, hq, hl, Bool.not_true, Bool.false_eq_true, if_false, sendEvents, id_of_findSession hx, List.length_singleton]

theorem eventDatagramSend_log {id : BitVec 32} (hs : Settled s) (hl : linkUp s.dev p = true)
    (hx : findSession s.dev id.toNat = some x) (hq : x.evQueue = []) (hlog : x.logQueue ≠ []) : Does (.eventDatagramSend p id) s (fun d =>
      (∃ y, findSession d id.toNat = some y ∧ y.logQueue = x.logQueue.drop 32 ∧ y.evCount = (x.evCount + 1) % 2 ^ 32) ∧
      d.out.length = s.dev.out.length + 1 ∧ HostOnly s.dev d []) := by
  obtain ⟨hfound, hout, hhost⟩ := sendIn_onSession
    (f := fun y => { y with evCount := (x.evCount + 1) % 2 ^ 32, logQueue := y.logQueue.drop 32 }) hx
    (by intro y; rfl) p 0x41 (leBytes 4 ((x.evCount + 1) % 2 ^ 32) ++ leBytes 1 (x.logQueue.take 32).length ++ leBytes 3 0 ++ (x.logQueue.take 32).flatten)
  have hsome : x.logQueue.isEmpty = false := by simpa using hlog
  refine .of_hostOnly hs rfl ?_ hhost ⟨⟨_, hfound, rfl, rfl⟩, hout, hhost⟩
  simp only [hx, hq, hl, hsome, Bool.not_true, Bool.false_eq_true, if_false, sendEvents, id_of_findSession hx]

end

/-- Settles O27: the bytes of a whole image are those of its fragment, and each other request changes its own session. -/
theorem imagesAndEventsAreExchanged : Obligations.ImagesAndEventsAreExchanged := by
  unfold Obligations.ImagesAndEventsAreExchanged
  refine ⟨fun p h num id total period data o x s hs => ⟨fun ha _ => imageFragment_pends hs ha, imageFragment_unleased hs,
    imageSubscription_taken hs, imageSubscription_refused hs, imageFragmentSend_goesOn hs⟩, fun p h id mask r rest x s hs =>
    ⟨eventSubscription_taken hs, eventSubscription_ends hs, eventSubscription_refused hs, eventDatagramSend_record hs, eventDatagramSend_log hs⟩⟩

end Sys2Proof.Machine
end

section
/-! ## The Ethernet ports -/
namespace Sys2Proof.Machine

section
variable {s : State} {p : Port} {a b mask router lease : BitVec 32} {mac : BitVec 48} {ident seq : BitVec 16} {data : Bytes}

theorem toNat_ne_zero {n : Nat} {v : BitVec n} (h : v ≠ 0) : v.toNat ≠ 0 := by simpa [BitVec.toNat_eq] using h

theorem arpRequest_answers (hs : Settled s) (hl : linkUp s.dev p = true) (ha : a.toNat = portAddress s.dev p) (hn : a ≠ 0) :
    Does (.arpRequest p true a b mac) s (fun d =>
      d = { s.dev with out := s.dev.out ++ [.ether p 0x0806 ([0, 1, 8, 0, 6, 4, 0, 2] ++ beBytes 6 (portMac p) ++ beBytes 4 a.toNat ++
        beBytes 6 mac.toNat ++ beBytes 4 b.toNat)] }) := by
  have hme : (linkUp s.dev p && portAddress s.dev p != 0 && decide (a.toNat = portAddress s.dev p)) = true := by
    simp [hl, ← ha, toNat_ne_zero hn]
  have hhead : beBytes 2 1 ++ beBytes 2 0x0800 ++ beBytes 1 6 ++ beBytes 1 4 ++ beBytes 2 2 = [0, 1, 8, 0, 6, 4, 0, 2] := by decide
  refine .of_eq rfl (d := emit s.dev (.ether p 0x0806 ([0, 1, 8, 0, 6, 4, 0, 2] ++ beBytes 6 (portMac p) ++ beBytes 4 a.toNat ++
        beBytes 6 mac.toNat ++ beBytes 4 b.toNat))) ?_ hs.1 hs.2 rfl
  simp only [hme, hhead, Bool.not_true, Bool.false_eq_true, if_false, if_true]
  rw [ha]

theorem icmpEcho_answers (hs : Settled s) (hl : linkUp s.dev p = true) (ha : a.toNat = portAddress s.dev p) (hn : a ≠ 0) :
    Does (.icmpEcho p true b a ident seq data) s (fun d => ∃ c, d = { s.dev with out := s.dev.out ++ [.ether p 0x01 (beBytes 4 b.toNat ++ [0, 0] ++
      beBytes 2 c ++ beBytes 2 ident.toNat ++ beBytes 2 seq.toNat ++ data)] }) := by
  have hme : (linkUp s.dev p && portAddress s.dev p != 0 && decide (a.toNat = portAddress s.dev p)) = true := by
    simp [hl, ← ha, toNat_ne_zero hn]
  have hhead : beBytes 2 0 = [0, 0] := by decide
  refine .of_eq rfl (d := emit s.dev (.ether p 0x01 (beBytes 4 b.toNat ++ [0, 0] ++
    beBytes 2 (inetSum (beBytes 2 0 ++ (beBytes 2 ident.toNat ++ beBytes 2 seq.toNat ++ data))) ++ beBytes 2 ident.toNat ++ beBytes 2 seq.toNat ++ data)))
    ?_ hs.1 hs.2 ⟨_, rfl⟩
  simp only [hme, hhead, Bool.not_true, Bool.false_eq_true, if_false, if_true, List.append_assoc]

theorem foreign_idles (hs : Settled s) (ha : a.toNat ≠ portAddress s.dev p) :
    Idles (.arpRequest p true a b mac) s ∧ Idles (.icmpEcho p true b a ident seq data) s := by
  have hme : (linkUp s.dev p && portAddress s.dev p != 0 && decide (a.toNat = portAddress s.dev p)) = false := by simp [ha]
  exact ⟨.of_upd hs rfl (by simp only [hme, Bool.not_true, Bool.false_eq_true, if_false]),
    .of_upd hs rfl (by simp only [hme, Bool.not_true, Bool.false_eq_true, if_false])⟩

/-- A statistics counter below its end counts, and nothing else (R388). -/
theorem bump_counts {d : Dev} {i c : Nat} (h : og d i c < 0xFFFFFFFE) : bump d i c = os d i c (og d i c + 1) := by
  simp only [bump]
  rw [if_neg (by omega), if_neg (by omega)]

theorem unaccepted_counts {c : Instr} (hs : Settled s) (hl : linkUp s.dev p = true)
    (hc : c = Instr.arpRequest p false a b mac ∨ c = Instr.icmpEcho p false b a ident seq data) (hcount : og s.dev 0x2F20 8 < 0xFFFFFFFE) :
    Does c s (fun d => og d 0x2F20 8 = og s.dev 0x2F20 8 + 1 ∧ Writes s.dev d [okey 0x2F20 8] []) := by
  have hcounted : unacceptable s.dev p = os s.dev 0x2F20 8 (og s.dev 0x2F20 8 + 1) := by
    rw [unacceptable, if_pos hl, bump_counts hcount]
  have hwrites : Writes s.dev (os s.dev 0x2F20 8 (og s.dev 0x2F20 8 + 1)) [okey 0x2F20 8] [] :=
    .of_objs ((ObjsOnly.refl _).os _ _ _) ((ObjsKept.refl _ _).os _ _ _ (by simp))
  rcases hc with rfl | rfl
  · exact .of_eq rfl hcounted hs.1 hs.2 ⟨og_os_same .., hwrites⟩
  · exact .of_eq rfl hcounted hs.1 hs.2 ⟨og_os_same .., hwrites⟩

/-! ### Addresses by DHCP -/

theorem ofNat_port (p : Port) : Fin.ofNat 2 p.val = p := Fin.ofNat_val_eq_self p

theorem dhcpReply_offered (hs : Settled s) (hl : linkUp s.dev p = true) (h1 : dhcpState s.dev p = 1)
    (ho : tget (fun _ => 0) s.dev.host.offer p.val = 0) : Does (.dhcpReply p 0 a mask router lease) s (fun d =>
      tget (fun _ => 0) d.host.offer p.val = a.toNat ∧
      d = { s.dev with host := { s.dev.host with offer := d.host.offer }, out := s.dev.out ++ [.ether p 0x44 (leBytes 1 3 ++ (leBytes 4 a.toNat).reverse)] }) := by
  refine .of_eq rfl (d := dhcpSend { s.dev with host := { s.dev.host with offer := tput (fun _ => 0) s.dev.host.offer p.val a.toNat } } p.val 3 a.toNat)
    ?_ hs.1 hs.2 ⟨tget_tput_same .., ?_⟩
  · simp only [hl, h1, ho, decide_true, Bool.true_or, Bool.not_true, Bool.or_false, Bool.false_eq_true, if_false, if_true, Bool.and_self]
  · simp only [dhcpSend, emit, ofNat_port]

theorem dhcpReply_bound (hs : Settled s) (hl : linkUp s.dev p = true) (hst : dhcpState s.dev p = 1 ∨ dhcpState s.dev p = 3)
    (ho : tget (fun _ => 0) s.dev.host.offer p.val = a.toNat) (hn : a ≠ 0) :
    Does (.dhcpReply p 1 a mask router lease) s (fun d => portAddress d p = a.toNat ∧ dhcpState d p = 2 ∧
      og d (0x2F08 + p.val) 4 = router.toNat ∧ og d (0x2F08 + p.val) 6 = lease.toNat ∧
      Writes s.dev d ((List.range 5).map (fun i => okey (0x2F08 + p.val) (i + 2))) []) := by
  have hgo : (!linkUp s.dev p || !(decide (dhcpState s.dev p = 1) || decide (dhcpState s.dev p = 3))) = false := by
    rcases hst with h | h <;> simp [hl, h]
  have hack : (a.toNat != 0 && decide (a.toNat = tget (fun _ => 0) s.dev.host.offer p.val)) = true := by simp [ho, toNat_ne_zero hn]
  have hkind : ¬ (1 : Fin 3) = 0 := by decide
  refine .of_eq rfl (d := dhcpBind s.dev p a.toNat mask.toNat router.toNat lease.toNat) ?_ hs.1 hs.2 ⟨?_, ?_, ?_, ?_, ?_⟩
  · simp only [hgo, hack, hkind, Bool.false_eq_true, if_false, if_true]
  · simp [portAddress, dhcpBind, og_os, okey]
  · simp [dhcpState, dhcpBind, og_os, okey]
  · simp [dhcpBind, og_os, okey]
  · simp [dhcpBind]
  · refine .of_objs (((((ObjsOnly.refl _).os _ _ _).os _ _ _).os _ _ _).os _ _ _ |>.os _ _ _) ?_
    have hkey (i : Nat) (hi : i < 5) : okey (0x2F08 + p.val) (i + 2) ∈ (List.range 5).map (fun i => okey (0x2F08 + p.val) (i + 2)) :=
      List.mem_map.mpr ⟨i, List.mem_range.mpr hi, rfl⟩
    exact ((((((ObjsKept.refl s.dev _).os _ _ _ (hkey 0 (by omega))).os _ _ _ (hkey 1 (by omega))).os _ _ _ (hkey 2 (by omega))).os _ _ _
      (hkey 3 (by omega))).os _ _ _ (hkey 4 (by omega)))

theorem dhcpRenew_renews (hs : Settled s) (hl : linkUp s.dev p = true) (h2 : dhcpState s.dev p = 2) : Does (.dhcpRenew p) s (fun d =>
    dhcpState d p = 3 ∧ portAddress d p = portAddress s.dev p ∧ d.out.length = s.dev.out.length + 1 ∧
    d = { s.dev with objs := d.objs, out := d.out }) := by
  refine .of_upd rfl ?_ ?_ ?_ <;> simp only [hl, h2, decide_true, Bool.and_self, if_true]
  · exact hs.1
  · exact hs.2
  · refine ⟨?_, ?_, by simp [dhcpSend, emit], rfl⟩
    · simp [dhcpState, dhcpSend, og_os, okey]
    · simp [portAddress, dhcpSend, og_os, okey]

theorem dhcpRebind_asks (hs : Settled s) (hl : linkUp s.dev p = true) (h3 : dhcpState s.dev p = 3) : Does (.dhcpRebind p) s (fun d =>
    dhcpState d p = 3 ∧ portAddress d p = portAddress s.dev p ∧ d.out.length = s.dev.out.length + 1 ∧
    d = { s.dev with objs := d.objs, out := d.out }) := by
  refine .of_upd rfl ?_ ?_ ?_ <;> simp only [hl, h3, decide_true, Bool.and_self, if_true]
  · exact hs.1
  · exact hs.2
  · refine ⟨?_, ?_, by simp [dhcpSend, emit], rfl⟩
    · simpa [dhcpState, dhcpSend, og_os, okey] using h3
    · simp [portAddress, dhcpSend, og_os, okey]

/-- A port that starts again has no address, and asks for one (R466). -/
theorem dhcpDiscover_spec (d : Dev) (p : Port) : dhcpState (dhcpDiscover d p.val) p = 1 ∧ portAddress (dhcpDiscover d p.val) p = 0 ∧
    (dhcpDiscover d p.val).host = { d.host with offer := (dhcpDiscover d p.val).host.offer } ∧ (dhcpDiscover d p.val).fc = d.fc ∧
    (dhcpDiscover d p.val).power = d.power ∧ ObjsKept d (dhcpDiscover d p.val) ((List.range 5).map (fun i => okey (0x2F08 + p.val) (i + 2))) := by
  have hkey (i : Nat) (hi : i < 5) : okey (0x2F08 + p.val) (i + 2) ∈ (List.range 5).map (fun i => okey (0x2F08 + p.val) (i + 2)) :=
    List.mem_map.mpr ⟨i, List.mem_range.mpr hi, rfl⟩
  refine ⟨?_, ?_, rfl, rfl, rfl, ?_⟩
  · simp [dhcpState, dhcpDiscover, dhcpSend, og_os, okey]
  · simp [portAddress, dhcpDiscover, dhcpSend, og_os, okey]
  · have hasked : dhcpDiscover d p.val = dhcpSend (os (os (os (os (os { d with host := { d.host with offer := tdel p.val d.host.offer } }
        (0x2F08 + p.val) 2 0) (0x2F08 + p.val) 3 0) (0x2F08 + p.val) 4 0) (0x2F08 + p.val) 5 1) (0x2F08 + p.val) 6 0) p.val 1 0 := rfl
    have hstart : ObjsKept d { d with host := { d.host with offer := tdel p.val d.host.offer } }
        ((List.range 5).map (fun i => okey (0x2F08 + p.val) (i + 2))) := .refl d _
    have hwritten := ((((hstart.os _ _ 0 (hkey 0 (by omega))).os _ _ 0 (hkey 1 (by omega))).os _ _ 0 (hkey 2 (by omega))).os _ _ 1
      (hkey 3 (by omega))).os _ _ 0 (hkey 4 (by omega))
    rw [hasked]
    exact hwritten.congr rfl

theorem dhcpLeaseExpiry_restarts (hs : Settled s) (hl : linkUp s.dev p = true) (h2 : 2 ≤ dhcpState s.dev p) : Does (.dhcpLeaseExpiry p) s (fun d =>
    dhcpState d p = 1 ∧ portAddress d p = 0 ∧ d.host = { s.dev.host with offer := d.host.offer }) := by
  obtain ⟨hst, haddr, hhost, -⟩ := dhcpDiscover_spec s.dev p
  refine .of_eq rfl (d := dhcpDiscover s.dev p.val) ?_ hs.1 hs.2 ⟨hst, haddr, hhost⟩
  simp only [hl, h2, decide_true, Bool.and_self, if_true]

/-! ### The link -/

/-- A source follows its condition (R527). -/
theorem level_follows {d : Dev} {src : Nat} (cause datum : Nat) (on : Bool) (hr : ready d 2 = true) (hmild : Mild d src)
    (hlev : levelSource src = true) (h185 : src ≠ 185) (hplain : ∀ e, sourceEnded e src = e) :
    bit (level d src cause datum on).fc.cond src = on ∧ ObjsKept d (level d src cause datum on) (dropKeys ++ reportKeys src) := by
  cases on with
  | true =>
    have hshown := report_shown (src := src) cause datum hr hmild
    exact ⟨by rw [level, if_pos rfl, hshown.cond _ h185, hlev]; simp, hshown.kept⟩
  | false =>
    obtain ⟨hframe, hoff, -⟩ := deassert_plain (d := d) hplain
    exact ⟨hoff, by rw [level, if_neg Bool.false_ne_true, hframe]; exact (ObjsKept.refl d _).congr rfl⟩

/-- The device as a link event shows the speed, before the source follows (R464). -/
def linkShown (d : Dev) (p : Port) (speed : Nat) : Dev :=
  if og d (0x2F08 + p.val) 1 = 0 && speed != 0 && dhcpState (os d (0x2F08 + p.val) 1 speed) p = 1 then
    dhcpDiscover (os d (0x2F08 + p.val) 1 speed) p.val
  else os d (0x2F08 + p.val) 1 speed

theorem linkShown_spec (d : Dev) (p : Port) (speed : Nat) : og (linkShown d p speed) (0x2F08 + p.val) 1 = speed ∧
    ∀ i c, i < 0x2F08 ∨ 0x2F09 < i → c < 256 → og (linkShown d p speed) i c = og d i c := by
  have hkept := (dhcpDiscover_spec (os d (0x2F08 + p.val) 1 speed) p).2.2.2.2.2
  have hp := p.isLt
  have hos (i c : Nat) (hi : i < 0x2F08 ∨ 0x2F09 < i) (hc : c < 256) : og (os d (0x2F08 + p.val) 1 speed) i c = og d i c := by
    rw [og_os, if_neg (by unfold okey; omega)]
  unfold linkShown
  split
  · refine ⟨(hkept.og ?_).trans (og_os_same ..), fun i c hi hc => (hkept.og ?_).trans (hos i c hi hc)⟩
    · simp only [List.mem_map, List.mem_range, okey]
      omega
    · simp only [List.mem_map, List.mem_range, okey]
      omega
  · exact ⟨og_os_same .., hos⟩

theorem ethernetLinkChange_shows {speed : Fin 3} (hl : linkUp s.dev p = true) (hr : ready s.dev 2 = true)
    (hfix : (s.dev.host.ports.getD p.val (1, 0, 0)).2.1 = 0) (hmild : Mild s.dev 188) : Leaves (.ethernetLinkChange p speed) s (fun d =>
      og d (0x2F08 + p.val) 1 = speed.val ∧ bit d.fc.cond 188 = (og d 0x2F08 1 = 0 || og d 0x2F09 1 = 0)) := by
  obtain ⟨hspeed, hlow⟩ := linkShown_spec s.dev p speed.val
  obtain ⟨e, he⟩ : ∃ e, e = linkShown s.dev p speed.val := ⟨_, rfl⟩
  rw [← he] at hspeed hlow
  simp only [linkUp, Bool.and_eq_true] at hl
  obtain ⟨⟨-, h30⟩, hport⟩ := hl
  have hready (b : Nat) : ready e b = ready s.dev b := ready_of_og (hlow 0x1010 0 (.inl (by decide)) (by decide)) b
  have hmild' : Mild e 188 := fun b hb => by rw [hlow _ _ (.inr (by decide)) (by decide)]; exact hmild b hb
  obtain ⟨hcond, hkept⟩ := level_follows (src := 188) 0 p.val (decide (og e 0x2F08 1 = 0) || decide (og e 0x2F09 1 = 0)) ((hready 2).trans hr) hmild'
    (by decide) (by decide) (fun d => rfl)
  have hp := p.isLt
  have hkeep (i : Nat) (hi : i < 2) : og (level e 188 0 p.val (decide (og e 0x2F08 1 = 0) || decide (og e 0x2F09 1 = 0))) (0x2F08 + i) 1 = og e (0x2F08 + i) 1 :=
    hkept.og (by simp [dropKeys, reportKeys, List.range, List.range.loop, okey]; omega)
  refine .of_upd rfl ?_
  have hopen : (!portEnabled s.dev p.val || (speed.val != 0 && (s.dev.host.ports.getD p.val (1, 0, 0)).2.1 != 0 &&
      (s.dev.host.ports.getD p.val (1, 0, 0)).2.1 != speed.val)) = false := by
    rw [hport, hfix]
    simp
  have hready30 : ready (os s.dev (0x2F08 + p.val) 1 speed.val) 30 = true := by
    rw [ready, og_os, if_neg (by unfold okey; omega)]
    exact h30
  simp only [hopen, hready30, Bool.not_true, Bool.false_eq_true, if_false]
  have hfold : (if (decide (og s.dev (0x2F08 + p.val) 1 = 0) && speed.val != 0 && decide (dhcpState (os s.dev (0x2F08 + p.val) 1 speed.val) p = 1)) = true then
      dhcpDiscover (os s.dev (0x2F08 + p.val) 1 speed.val) p.val else os s.dev (0x2F08 + p.val) 1 speed.val) = e := he.symm
  simp only [hfold]
  refine ⟨(hkeep p.val hp).trans hspeed, ?_⟩
  rw [hcond, hkeep 0 (by decide), hkeep 1 (by decide)]

end

/-- Settles O28: each event of a port reads the port's own objects, and source 188 follows the two link states. -/
theorem portsAnswerAndTakeAddresses : Obligations.PortsAnswerAndTakeAddresses := by
  unfold Obligations.PortsAnswerAndTakeAddresses
  intro p a b mask router lease mac ident seq data speed s hs hl
  exact ⟨fun ha hn => ⟨arpRequest_answers hs hl ha hn, icmpEcho_answers hs hl ha hn⟩, foreign_idles hs, fun _ => unaccepted_counts hs hl,
    fun h1 ho _ => dhcpReply_offered hs hl h1 ho, dhcpReply_bound hs hl, dhcpRenew_renews hs hl, dhcpRebind_asks hs hl, dhcpLeaseExpiry_restarts hs hl,
    fun hr _ => ethernetLinkChange_shows hl hr⟩

end Sys2Proof.Machine
end

section
/-! ## Pulse inputs and the pair: events whose counters reach their end -/
namespace Sys2Proof.Machine

/-- A part whose pulse input 0 counts and has not had a tooth yet, with the count of its teeth one short of its end (R388) and a chip reset as
the reaction to a counter at its end (source 183). -/
def toothCountFull : State :=
  { State.reset with dev := { os (os (os Dev.reset 0x1010 0 0x10004) 0x3D20 1 0xFFFFFFFE) (0x3900 + 183) 1 8 with
      inForce := [(okey 0x3D00 1, 1), (okey 0x3D00 6, 1)] } }

/-- Refutes O59: the first tooth is counted in 0x3D20.01; where that count reaches its end, source 183 is reported (R388), whose reaction
may reset the chip (R384), and the position is lost. -/
theorem not_pulseInputEventsTakeTheirEffect : ¬ Obligations.PulseInputEventsTakeTheirEffect := by
  unfold Obligations.PulseInputEventsTakeTheirEffect
  intro h
  have hs : Settled toothCountFull := by unfold Settled; decide
  obtain ⟨htooth, -⟩ := h 0 0 0 0 toothCountFull hs
  obtain ⟨t, hexec, hpos, -⟩ := htooth (by decide) (by decide) (by decide) (by decide) (by decide) (by decide +kernel)
    (by decide)
  have hdev : devOf (exec (.toothEvent 0 0 0) toothCountFull) = t.dev := by rw [hexec]; rfl
  have hlost : pulsePos (devOf (exec (.toothEvent 0 0 0) toothCountFull)) 0 = 0 := by decide +kernel
  rw [hdev] at hlost
  exact absurd (hpos.symm.trans hlost) (by decide)

/-- A unit in the state Announced whose own takeover is due, with the count of its reclaims one short of its end (R388) and a chip reset as
the reaction to a counter at its end (source 183). -/
def reclaimCountFull : State :=
  { State.reset with dev := { os (os (os (os (os Dev.reset 0x1010 0 0x80000004) 0x3C01 1 6) 0x3C00 2 1) 0x3C02 3 0xFFFFFFFE) (0x3900 + 183) 1 8 with
      pair := { Dev.reset.pair with announced := some (0, 1) } } }

/-- Refutes O60: a takeover is counted in 0x3C02.03; where that count reaches its end, source 183 is reported (R388), whose reaction may reset
the chip (R384), and the unit is Unpaired. -/
theorem not_pairEventsTakeTheirEffect : ¬ Obligations.PairEventsTakeTheirEffect := by
  unfold Obligations.PairEventsTakeTheirEffect
  intro h
  have hs : Settled reclaimCountFull := by unfold Settled; decide
  obtain ⟨-, -, -, -, -, -, -, -, -, -, -, -, htakeover, -⟩ := h reclaimCountFull hs
  obtain ⟨t, hexec, hstate, -⟩ := htakeover 0 1 (by decide) (by decide) (by decide) (by decide) (by decide)
  have hdev : devOf (exec .takeoverCycle reclaimCountFull) = t.dev := by rw [hexec]; rfl
  have hlost : pairState (devOf (exec .takeoverCycle reclaimCountFull)) = 0 := by decide
  rw [hdev] at hlost
  exact absurd (hstate.symm.trans hlost) (by decide)

end Sys2Proof.Machine
end

section
/-! ## Segment time -/
namespace Sys2Proof.Machine

/-- Where no time trigger is enabled, a base that steps fires none (R282). -/
theorem baseStepped_quiet {d : Dev} (h : ∀ u : Fin 4, og d (0x3450 + u.val) 1 = 0) (b : Nat) : baseStepped d b = d := by
  have hu : ∀ u ∈ List.range 4, (decide (og d (0x3450 + u) 1 = 1) && decide (og d (0x3450 + u) 2 = b)) = false := fun u hm => by
    rw [h ⟨u, List.mem_range.mp hm⟩]; rfl
  unfold baseStepped
  split
  · rfl
  · exact List.foldlRecOn (motive := fun e => e = d) (List.range 4) _ rfl (fun e he u hm => by rw [he, if_neg (by simp [hu u hm])])

/-- Beside leaving Locked as the source in force, a state of a domain is its object alone. -/
theorem setDomState_plain {d : Dev} {n : Nat} (h : domState d n ≠ 3 ∨ og d 0x3410 6 ≠ n + 1) (st : Nat) :
    setDomState d n st = os d (0x3428 + n) 1 st := by
  unfold setDomState
  dsimp only
  split
  case isFalse => rfl
  case isTrue hc =>
    have h3 : domState d n = 3 := of_decide_eq_true ((Bool.and_eq_true ..).mp hc).1
    have h6 : og (os d (0x3428 + n) 1 st) 0x3410 6 ≠ n + 1 := by
      rw [og_os, if_neg (by unfold okey; omega)]; exact h.resolve_left (fun g => g h3)
    rw [leftLocked, if_pos (by simp [h6])]

theorem segStatus_kept {a b : Dev} {l : List Nat} (h : ObjsKept a b l) (n : Nat) (v : Bool) (hk : okey 0x3410 9 ∈ l) :
    ObjsKept a (segStatus b n v) l := h.os _ _ _ hk

theorem bit_segStatus (d : Dev) (n m : Nat) (v : Bool) :
    bit (og (segStatus d n v) 0x3410 9) m = if m = n then v else bit (og d 0x3410 9) m := by
  rw [segStatus, osb, og_os_same, bit_setBit]

theorem og_segStatus (d : Dev) (n : Nat) (v : Bool) {i c : Nat} (h : okey i c ≠ okey 0x3410 9) : og (segStatus d n v) i c = og d i c := by
  rw [segStatus, osb, og_os, if_neg h]

/-- A step of segment time where no trigger is enabled (R274, R275). -/
theorem stepSegTime_quiet {d : Dev} (h : ∀ u : Fin 4, og d (0x3450 + u.val) 1 = 0) (n : Nat) : stepSegTime d n =
    segStatus (segStatus { d with time := { d.time with seg := (dom d n).clock, k := (dom d n).clock / unitCycle } } 4 true) 5 true := by
  rw [stepSegTime]
  refine baseStepped_quiet (fun u => ?_) 1
  have hne : okey (0x3450 + u.val) 1 ≠ okey 0x3410 9 := by unfold okey; omega
  rw [og_segStatus _ _ _ hne, og_segStatus _ _ _ hne]
  exact h u

theorem writeNum_refused {d : Dev} {i c v : Nat} (h : writeStatus d i c v ≠ .ok) : writeNum d i c v = (d, writeStatus d i c v) := by
  unfold writeNum
  split
  case h_1 hok => exact absurd hok h
  case h_2 => rfl

theorem writeNum_taken {d : Dev} {i c v : Nat} (h : writeStatus d i c v = .ok) : writeNum d i c v = (os d i c v, .ok) := by
  rw [writeNum, h]


section
variable {s : State} (hs : Settled s)
include hs

theorem alignmentHoldEnd_steps {n : Dom} (hh : s.dev.time.hold = true) (h6 : og s.dev 0x3410 6 = n.val + 1) (h3 : domState s.dev n.val = 3)
    (ht : ∀ u : Fin 4, og s.dev (0x3450 + u.val) 1 = 0) : Does .alignmentHoldEnd s (fun d =>
      d.time.hold = false ∧ d.time.seg = (dom s.dev n.val).clock ∧ d.time.k = (dom s.dev n.val).clock / unitCycle ∧
      bit (og d 0x3410 9) 4 = true ∧ bit (og d 0x3410 9) 5 = true ∧ ObjsKept s.dev d [okey 0x3410 9]) := by
  have hn : (decide (og s.dev 0x3410 6 = 1) || decide (og s.dev 0x3410 6 = 2)) = true := by simp; omega
  have hsub : og s.dev 0x3410 6 - 1 = n.val := by omega
  have hst : domState { s.dev with time := { s.dev.time with hold := false } } n.val = 3 := h3
  refine .of_eq (d := stepSegTime { s.dev with time := { s.dev.time with hold := false } } n.val) rfl ?_ ?_ ?_ ?_
  · simp only [hh, Bool.not_true, Bool.false_eq_true, if_false]
    rw [hsub, hst, hn]
    rfl
  all_goals rw [stepSegTime_quiet (d := { s.dev with time := { s.dev.time with hold := false } }) ht]
  · exact hs.1
  · exact hs.2
  · refine ⟨rfl, rfl, rfl, ?_, ?_, ?_⟩
    · rw [bit_segStatus, if_neg (by decide), bit_segStatus, if_pos rfl]
    · rw [bit_segStatus, if_pos rfl]
    · exact segStatus_kept (segStatus_kept ((ObjsKept.refl s.dev _).congr rfl) _ _ (by simp)) _ _ (by simp)

theorem alignmentHoldEnd_runsOut (hh : s.dev.time.hold = true) (h : ∀ m : Dom, og s.dev 0x3410 6 = m.val + 1 → domState s.dev m.val ≠ 3) :
    Does .alignmentHoldEnd s (fun d =>
      d.time = { s.dev.time with hold := false } ∧ bit (og d 0x3410 9) 6 = true ∧ ObjsKept s.dev d [okey 0x3410 9]) := by
  have hno : ((decide (og s.dev 0x3410 6 = 1) || decide (og s.dev 0x3410 6 = 2)) &&
      decide (domState { s.dev with time := { s.dev.time with hold := false } } (og s.dev 0x3410 6 - 1) = 3)) = false := by
    have h1 := h 0
    have h2 := h 1
    simp only [Bool.and_eq_false_iff, Bool.or_eq_false_iff, decide_eq_false_iff_not]
    by_cases e1 : og s.dev 0x3410 6 = 1
    · rw [e1]; exact .inr (h1 e1)
    · by_cases e2 : og s.dev 0x3410 6 = 2
      · rw [e2]; exact .inr (h2 e2)
      · exact .inl ⟨e1, e2⟩
  refine .of_eq (d := segStatus { s.dev with time := { s.dev.time with hold := false } } 6 true) rfl ?_ hs.1 hs.2 ⟨rfl, ?_, ?_⟩
  · simp only [hh, Bool.not_true, Bool.false_eq_true, if_false]
    exact if_neg (by rw [hno]; exact Bool.false_ne_true)
  · rw [bit_segStatus, if_pos rfl]
  · exact segStatus_kept ((ObjsKept.refl s.dev _).congr rfl) _ _ (by simp)

theorem timeSourceWrite_stores {v : BitVec 8} (hw : writeStatus s.dev 0x3410 1 v.toNat = .ok) : Does (.timeSourceWrite v) s (fun d =>
    og d 0x3410 1 = v.toNat ∧ d.time = { s.dev.time with srcWrite := true } ∧
    Writes { s.dev with time := d.time } d [okey 0x3410 1] [said .ok]) := by
  refine .of_eq (d := answer (sourceWritten (os s.dev 0x3410 1 v.toNat) v.toNat) .ok) rfl (by simp only [writeNum_taken hw]) hs.1 hs.2
    ⟨?_, rfl, rfl, ?_⟩
  · rw [og_answer, sourceWritten, og_os_same]
  · exact ((((ObjsKept.refl s.dev [okey 0x3410 1]).os 0x3410 1 v.toNat (by simp)).congr
      (c := { os s.dev 0x3410 1 v.toNat with time := { s.dev.time with srcWrite := true } }) rfl).os 0x3410 1 v.toNat (by simp))

theorem timeSourceWrite_refused {v : BitVec 8} (hw : writeStatus s.dev 0x3410 1 v.toNat ≠ .ok) :
    Answers (.timeSourceWrite v) s (writeStatus s.dev 0x3410 1 v.toNat) := by
  refine .of_upd hs rfl ?_
  simp only [writeNum_refused hw]

theorem domainConfigWrite_refused {n : Dom} {sub : BitVec 8} {w : BitVec 32}
    (hw : writeStatus s.dev (0x3420 + n.val) sub.toNat w.toNat ≠ .ok) :
    Answers (.domainConfigWrite n sub w) s (writeStatus s.dev (0x3420 + n.val) sub.toNat w.toNat) := by
  refine .of_upd hs rfl ?_
  simp only [domainWrite, writeNum_refused hw]

end

@[simp] theorem og_obs (d : Dev) (i b : Nat) (v : Bytes) (j c : Nat) : og (obs d i b v) j c = og d j c := rfl
theorem dom_congr {a b : Dev} (h : a.time = b.time) (n : Nat) : dom a n = dom b n := by unfold dom; rw [h]

@[simp] theorem dom_setDom (d : Dev) (n : Nat) (x : DomainSt) : dom (setDom d n x) n = x := by
  unfold dom setDom; split <;> rfl

/-- What a configuration write leaves of its domain (R287). -/
def reconfigured (d : Dev) (n sub v : Nat) : Dev := domEnable (domDisable (os d (0x3420 + n) sub v) n) n

theorem domDisable_spec {d : Dev} {n : Nat} (h6 : og d 0x3410 6 ≠ n + 1) : dom (domDisable d n) n = DomainSt.reset ∧
    domState (domDisable d n) n = 0 ∧ ObjsKept d (domDisable d n) ((List.range 9).map (fun j => okey (0x3428 + n) (j + 1))) ∧
    (domDisable d n).time = (setDom d n DomainSt.reset).time ∧ (domDisable d n).fc = d.fc ∧ (domDisable d n).power = d.power := by
  rw [domDisable, setDomState_plain (.inr h6)]
  refine ⟨(dom_congr (b := setDom d n DomainSt.reset) rfl n).trans (dom_setDom ..), ?_, ?_, rfl, rfl, rfl⟩
  · simp [domState, og_os, osi, osf, okey]
  · have hmem (j : Nat) (hj : j < 9) : okey (0x3428 + n) (j + 1) ∈ (List.range 9).map (fun j => okey (0x3428 + n) (j + 1)) :=
      List.mem_map.mpr ⟨j, List.mem_range.mpr hj, rfl⟩
    have h1 := (ObjsKept.refl d ((List.range 9).map (fun j => okey (0x3428 + n) (j + 1)))).os (0x3428 + n) 1 0 (hmem 0 (by decide))
    have h3 := (h1.congr (c := obs (setDom (os d (0x3428 + n) 1 0) n DomainSt.reset) (0x3428 + n) 2 (List.replicate 8 0)) rfl).os
      (0x3428 + n) 3 0 (hmem 2 (by decide))
    have h7 := ((h3.os (0x3428 + n) 4 (pat 64 0) (hmem 3 (by decide))).os (0x3428 + n) 5 (pat 64 0) (hmem 4 (by decide))).os
      (0x3428 + n) 7 0 (hmem 6 (by decide))
    exact ((h7.os (0x3428 + n) 6 (BitVec.toNat (0 : F32)) (hmem 5 (by decide))).os (0x3428 + n) 8 0 (hmem 7 (by decide))).os
      (0x3428 + n) 9 0 (hmem 8 (by decide))

theorem realign_steps {s : State} {n : Dom} (hr : ready s.dev 4 = true) (hoff : ∀ g : Seg, segState s.dev g.val = 0) (h6 : og s.dev 0x3410 6 = n.val + 1)
    (h3 : domState s.dev n.val = 3) (ht : ∀ u : Fin 4, og s.dev (0x3450 + u.val) 1 = 0) : Leaves .realign s (fun d =>
      d.time.seg = (dom s.dev n.val).clock ∧ d.time.k = (dom s.dev n.val).clock / unitCycle ∧ said .ok ∈ d.out) := by
  have hl := log_noted s.dev 2 3 0
  obtain ⟨e, he⟩ : ∃ e, e = log s.dev 2 3 0 := ⟨_, rfl⟩
  rw [← he] at hl
  have htime : e.time = s.dev.time := by rw [hl.frame]
  have hdom : dom e n.val = dom s.dev n.val := by simp only [dom, htime]
  have hquiet (u : Fin 4) : og e (0x3450 + u.val) 1 = 0 := (hl.og (by simp [dropKeys, okey]; omega)).trans (ht u)
  have hn : (decide (og s.dev 0x3410 6 = 1) || decide (og s.dev 0x3410 6 = 2)) = true := by simp; omega
  have hall : (List.range 12).all (fun g => decide (segState s.dev g = 0)) = true :=
    List.all_eq_true.mpr fun g hg => decide_eq_true (hoff ⟨g, List.mem_range.mp hg⟩)
  have hre : realign s.dev = (stepSegTime e n.val, .ok) := by
    rw [realign, hr, Bool.not_true, if_neg Bool.false_ne_true]
    simp only [hall, hn, Bool.true_and]
    rw [show og s.dev 0x3410 6 - 1 = n.val from by omega, h3, if_pos (by decide), he]
  have hexec : exec .realign s = .next (upd s (fun d => answer (realign d).1 (realign d).2)) := rfl
  refine .of_upd hexec ?_
  rw [hre, stepSegTime_quiet hquiet, hdom]
  exact ⟨rfl, rfl, List.mem_append_right _ (List.mem_singleton.mpr rfl)⟩

/-- A domain that is not the source in force passes through Disabled and takes its configuration (R287). -/
theorem domainConfigWrite_takes {s : State} (hs : Settled s) {n : Dom} {sub : BitVec 8} {w : BitVec 32}
    (hw : writeStatus s.dev (0x3420 + n.val) sub.toNat w.toNat = .ok) (h6 : og s.dev 0x3410 6 ≠ n.val + 1) :
    Does (.domainConfigWrite n sub w) s (fun d =>
      og d (0x3420 + n.val) sub.toNat = w.toNat ∧ (dom d n.val).best = none ∧ (dom d n.val).heard = [] ∧
      domState d n.val = (if og d (0x3420 + n.val) 1 = 1 then (if ready s.dev 30 then 1 else 4) else 0) ∧ said .ok ∈ d.out ∧
      d.time.seg = s.dev.time.seg) := by
  obtain ⟨a, ha⟩ : ∃ a, a = os s.dev (0x3420 + n.val) sub.toNat w.toNat := ⟨_, rfl⟩
  have h6a : og a 0x3410 6 ≠ n.val + 1 := by rw [ha, og_os, if_neg (by unfold okey; omega)]; exact h6
  obtain ⟨hdom, hoff, hkept, htime, hfc, hpow⟩ := domDisable_spec h6a
  obtain ⟨e, he⟩ : ∃ e, e = domDisable a n.val := ⟨_, rfl⟩
  rw [← he] at hdom hoff hkept htime hfc hpow
  have hog (i c : Nat) (hi : i < 0x3428) (hc : c < 256) : og e i c = og a i c := hkept.og (by simp [List.range, List.range.loop, okey]; omega)
  have hcfg : og e (0x3420 + n.val) sub.toNat = w.toNat := by rw [hog _ _ (by omega) sub.isLt, ha, og_os_same]
  have hready : ready e 30 = ready s.dev 30 :=
    ready_of_og ((hog _ _ (by decide) (by decide)).trans (by rw [ha, og_os, if_neg (by unfold okey; omega)])) 30
  have hseg : e.time.seg = s.dev.time.seg := by rw [htime, ha, setDom]; split <;> rfl
  have henable : domEnable e n.val =
      if og e (0x3420 + n.val) 1 = 1 then os e (0x3428 + n.val) 1 (if ready s.dev 30 then 1 else 4) else e := by
    rw [domEnable, setDomState_plain (.inl (by rw [hoff]; decide)), hready]
  have hexec : exec (.domainConfigWrite n sub w) s =
    .next (upd s (fun d => answer (domainWrite d n.val sub.toNat w.toNat).1 (domainWrite d n.val sub.toNat w.toNat).2)) := rfl
  have hwrite : domainWrite s.dev n.val sub.toNat w.toNat = (domEnable e n.val, .ok) := by
    rw [domainWrite, writeNum_taken hw, he, ha]
  have hsaid (d : Dev) : said .ok ∈ (answer d .ok).out := List.mem_append_right _ (List.mem_singleton.mpr rfl)
  have hfc' : e.fc = s.dev.fc := hfc.trans (by rw [ha]; rfl)
  have hpow' : e.power = s.dev.power := hpow.trans (by rw [ha]; rfl)
  by_cases hon : og e (0x3420 + n.val) 1 = 1
  · rw [if_pos hon] at henable
    refine .answered (e := os e (0x3428 + n.val) 1 (if ready s.dev 30 then 1 else 4)) hs hexec (hwrite.trans (by rw [henable])) hfc' hpow'
      ⟨?_, ?_, ?_, ?_, hsaid _, hseg⟩
    · rw [og_answer, og_os, if_neg (by unfold okey; omega), hcfg]
    · exact congrArg (·.best) hdom
    · exact congrArg (·.heard) hdom
    · have hcfg1 : og (os e (0x3428 + n.val) 1 (if ready s.dev 30 then 1 else 4)) (0x3420 + n.val) 1 = 1 := by
        rw [og_os, if_neg (by unfold okey; omega), hon]
      rw [domState, og_answer, og_os_same, og_answer, hcfg1, if_pos rfl]
  · rw [if_neg hon] at henable
    refine .answered (e := e) hs hexec (hwrite.trans (by rw [henable])) hfc' hpow' ⟨hcfg, ?_, ?_, ?_, hsaid _, hseg⟩
    · exact congrArg (·.best) hdom
    · exact congrArg (·.heard) hdom
    · exact hoff.trans (if_neg hon).symm

/-- The configured source is taken again (R276). -/
theorem sourceRelocked_switches {s : State} {n : Dom} (h1 : og s.dev 0x3410 1 = n.val + 1) (h3 : domState s.dev n.val = 3)
    (h6 : og s.dev 0x3410 6 ≠ n.val + 1) (hc : og s.dev 0x3410 0x0A < 0xFFFFFFFE) (hf : followsTime s.dev = false) :
    Leaves .sourceRelocked s (fun d => og d 0x3410 6 = n.val + 1 ∧ og d 0x3410 0x0A = og s.dev 0x3410 0x0A + 1 ∧ d.time = s.dev.time ∧
      bit (og d 0x3410 9) 1 = false ∧ bit (og d 0x3410 9) 2 = false) := by
  have hn : (decide (og s.dev 0x3410 1 = 1) || decide (og s.dev 0x3410 1 = 2)) = true := by simp; omega
  have hsrc : (n.val + 1 = 0) = False := by simp
  refine .of_upd rfl ?_
  have hcond : ((decide (og s.dev 0x3410 1 = 1) || decide (og s.dev 0x3410 1 = 2)) && decide (domState s.dev (og s.dev 0x3410 1 - 1) = 3) &&
      (og s.dev 0x3410 6 != og s.dev 0x3410 1) && !followsTime s.dev) = true := by
    rw [hn, h1, Nat.add_sub_cancel, h3, hf]; simp [h6]
  rw [if_pos hcond, switchSource, h1, bump_counts (by rw [og_os, if_neg (by decide)]; exact hc)]
  obtain ⟨a, ha⟩ : ∃ a, a = os (os s.dev 0x3410 6 (n.val + 1)) 0x3410 0x0A (og (os s.dev 0x3410 6 (n.val + 1)) 0x3410 0x0A + 1) := ⟨_, rfl⟩
  have hl := log_noted a 2 1 (n.val + 1)
  rw [← ha]
  generalize log a 2 1 (n.val + 1) = e at hl ⊢
  simp only [hsrc, if_false]
  have htime : e.time = s.dev.time := by rw [hl.frame, ha]; rfl
  have hog (c : Nat) (hc : c < 256) : og e 0x3410 c = og a 0x3410 c := hl.og (by simp [dropKeys, okey]; omega)
  refine ⟨?_, ?_, htime, ?_, ?_⟩
  · simp [segStatus, osb, osf, og_os, okey, hog, ha]
  · simp [segStatus, osb, osf, og_os, okey, hog, ha]
  · simp [bit_segStatus]
  · simp [bit_segStatus]

/-- Settles O48: the steps of segment time and of its source, each by what its function does where no time trigger is enabled. -/
theorem segmentTimeFollowsItsSource : Obligations.SegmentTimeFollowsItsSource := by
  unfold Obligations.SegmentTimeFollowsItsSource
  intro v sub w n s hs
  refine ⟨fun hh => ?_, fun hh => ⟨alignmentHoldEnd_steps hs hh, alignmentHoldEnd_runsOut hs hh⟩, sourceRelocked_switches, fun h => ?_, fun hr => ?_,
    fun hr h => ?_, realign_steps, timeSourceWrite_stores hs, timeSourceWrite_refused hs, domainConfigWrite_refused hs, domainConfigWrite_takes hs⟩
  · exact .of_upd hs rfl (by simp only [hh, Bool.not_false, if_true])
  · refine .of_upd hs rfl ?_
    dsimp only
    rw [if_neg]
    rcases h with h | h <;> simp [h]
  · exact .of_upd (f := fun d => answer (realign d).1 (realign d).2) hs rfl (by simp only [realign, hr, Bool.not_false, if_true])
  · refine .of_upd (f := fun d => answer (realign d).1 (realign d).2) hs rfl ?_
    rw [realign, hr, Bool.not_true, if_neg Bool.false_ne_true]
    dsimp only
    rw [if_neg]
    intro hall
    simp only [Bool.and_eq_true, List.all_eq_true, Bool.or_eq_true, decide_eq_true_eq, List.mem_range] at hall
    obtain ⟨⟨hoff, hsrc⟩, -⟩ := hall
    rcases h with ⟨g, hg⟩ | h | h
    · exact hg (hoff g.val g.isLt)
    · omega
    · omega

end Sys2Proof.Machine
end

section
/-! ## Fields of byte strings -/
namespace Sys2Proof.Machine

@[simp] theorem length_leBytes (n : Nat) : ∀ v, (leBytes n v).length = n := by
  induction n with
  | zero => intro v; rfl
  | succ n ih => intro v; rw [leBytes, List.length_cons, ih]

@[simp] theorem length_beBytes (n v : Nat) : (beBytes n v).length = n := by rw [beBytes, List.length_reverse, length_leBytes]

theorem leBytes_ofLe : ∀ b : Bytes, leBytes b.length (ofLe b) = b
  | [] => rfl
  | b :: bs => by
    have hb := b.isLt
    have hlow : BitVec.ofNat 8 (b.toNat + 256 * ofLe bs) = b := by
      apply BitVec.eq_of_toNat_eq; rw [BitVec.toNat_ofNat]; omega
    have hhigh : (b.toNat + 256 * ofLe bs) / 256 = ofLe bs := by omega
    rw [List.length_cons, ofLe, leBytes, hlow, hhigh, leBytes_ofLe bs]

theorem beBytes_ofLe {n : Nat} {b : Bytes} (h : b.length = n) : beBytes n (ofLe b.reverse) = b := by
  have := leBytes_ofLe b.reverse
  rw [List.length_reverse, h] at this
  rw [beBytes, this, List.reverse_reverse]

theorem slice_append_left {a b : Bytes} {o n : Nat} (h : o + n ≤ a.length) : slice (a ++ b) o n = slice a o n := by
  unfold slice
  rw [List.drop_append_of_le_length (by omega), List.take_append_of_le_length (by rw [List.length_drop]; omega)]

theorem slice_append_right {a b : Bytes} {o n : Nat} (h : a.length ≤ o) : slice (a ++ b) o n = slice b (o - a.length) n := by
  unfold slice
  rw [List.drop_append, List.drop_eq_nil_of_le h, List.nil_append]

theorem slice_all {a : Bytes} {n : Nat} (h : a.length = n) : slice a 0 n = a := by
  unfold slice
  rw [List.drop_zero, ← h, List.take_length]

theorem length_slice {b : Bytes} {o n : Nat} (h : o + n ≤ b.length) : (slice b o n).length = n := by
  unfold slice
  rw [List.length_take, List.length_drop]; omega

theorem ofLe_byte (v : Nat) : ofLe (beBytes 1 v) = v % 256 := by
  simp [beBytes, leBytes, ofLe]

end Sys2Proof.Machine
end

section
/-! ## PTP domains -/
namespace Sys2Proof.Machine

@[simp] theorem length_portIdentity (p : Nat) : (portIdentity p).length = 10 := by simp [portIdentity]

@[simp] theorem length_ptpStamp (u : Nat) : (ptpStamp u).length = 10 := by simp [ptpStamp]

/-- The header of a PTP message up to its sequence number. -/
def ptpHead (domain p typ flags corr len : Nat) : Bytes :=
  beBytes 1 typ ++ ([0x12] ++ beBytes 2 len ++ (beBytes 1 domain ++ ([0] ++ beBytes 2 flags ++ beBytes 8 corr ++
    List.replicate 4 0 ++ portIdentity p)))

theorem ptpMessage_eq (domain p typ flags corr seq ctl : Nat) (body : Bytes) : ptpMessage domain p typ flags corr seq ctl body =
    ptpHead domain p typ flags corr (34 + body.length) ++ (beBytes 2 seq ++ (beBytes 1 ctl ++ [0x7F] ++ body)) := by
  simp only [ptpMessage, ptpHead, List.append_assoc]

theorem length_ptpHead (domain p typ flags corr len : Nat) : (ptpHead domain p typ flags corr len).length = 30 := by simp [ptpHead]

/-- Where a PTP message shows its type, domain, sequence number and body. -/
theorem ptpMessage_fields (domain p typ flags corr seq ctl : Nat) (body : Bytes) :
    rd (ptpMessage domain p typ flags corr seq ctl body) 0 1 = typ % 256 ∧
    rd (ptpMessage domain p typ flags corr seq ctl body) 4 1 = domain % 256 ∧
    slice (ptpMessage domain p typ flags corr seq ctl body) 30 2 = beBytes 2 seq ∧
    (∀ o n, slice (ptpMessage domain p typ flags corr seq ctl body) (34 + o) n = slice body o n) ∧
    (ptpMessage domain p typ flags corr seq ctl body).length = 34 + body.length := by
  have hlen := length_ptpHead domain p typ flags corr (34 + body.length)
  rw [ptpMessage_eq]
  refine ⟨?_, ?_, ?_, fun o n => ?_, ?_⟩
  · rw [rd, slice_append_left (by omega), ptpHead, slice_append_left (by simp), slice_all (by simp), ofLe_byte]
  · rw [rd, slice_append_left (by omega), ptpHead, slice_append_right (by simp), slice_append_right (by simp), slice_append_left (by simp)]
    simp [slice_all, ofLe_byte]
  · rw [slice_append_right (by omega), hlen, slice_append_left (by simp), slice_all (by simp)]
  · rw [slice_append_right (by omega), hlen, slice_append_right (by simp; omega), slice_append_right (by simp; omega)]
    congr 1
    simp; omega
  · simp [hlen]; omega

theorem out_emit_emit {d : Dev} {l : List Msg} (h : d.out = l) (a b : Msg) : (emit (emit d a) b).out = l ++ [a, b] := by
  simp [emit, h]

/-- What stands before a PTP message on its transport (R484). -/
def ptpDest (udp peer event : Bool) : Bytes :=
  if udp then (if peer then [224, 0, 0, 107] else [224, 0, 1, 129]) ++ beBytes 2 (if event then 319 else 320)
  else beBytes 6 (if peer then 0x0180C200000E else 0x011B19000000)

@[simp] theorem length_ptpDest (udp peer event : Bool) : (ptpDest udp peer event).length = 6 := by
  cases udp <;> cases peer <;> simp [ptpDest]

theorem ptpEmit_eq (d : Dev) (p : Nat) (udp peer event : Bool) (m : Bytes) : ptpEmit d p udp peer event m =
    emit d (.ether (Fin.ofNat 2 p) (if udp then 17 else 0x88F7) (ptpDest udp peer event ++ m)) := by
  cases udp <;> simp [ptpEmit, ptpDest]

/-- A field of a message behind what stands before it. -/
theorem slice_ptpDest (udp peer event : Bool) (m : Bytes) (o n : Nat) : slice (ptpDest udp peer event ++ m) (6 + o) n = slice m o n := by
  rw [slice_append_right (by rw [length_ptpDest]; omega), length_ptpDest, Nat.add_sub_cancel_left]

theorem advance_frame (d : Dev) (g : Nat) : advance d g = { d with time := (advance d g).time } := by
  unfold advance; split <;> rfl

theorem advance_zero (d : Dev) : advance d 0 = d := by
  unfold advance
  simp only [Nat.zero_mul, Nat.add_zero, ite_self]

theorem best_advance (d : Dev) (g n : Nat) : (dom (advance d g) n).best = (dom d n).best := by
  unfold advance
  split
  · rfl
  · unfold dom
    split
    · dsimp only; split <;> rfl
    · dsimp only; split <;> rfl

theorem hearsPtp_eq_false {d : Dev} {n : Nat} {udp : Bool} (h : domState d n = 0 ∨ bit (og d (0x3420 + n) 4) (if udp then 1 else 0) = false) :
    hearsPtp d n udp = false := by
  unfold hearsPtp
  rcases h with h | h <;> simp [h]

theorem hearsPtp_eq_true {d : Dev} {n : Nat} {udp : Bool} (hr : ready d 30 = true) (h0 : domState d n ≠ 0)
    (h : bit (og d (0x3420 + n) 4) (if udp then 1 else 0) = true) : hearsPtp d n udp = true := by
  unfold hearsPtp
  rw [hr, h]; simp [h0]

theorem og_advance (d : Dev) (g i c : Nat) : og (advance d g) i c = og d i c := by rw [advance_frame]; rfl

theorem hearsPtp_advance (d : Dev) (g n : Nat) (udp : Bool) : hearsPtp (advance d g) n udp = hearsPtp d n udp := by
  rw [advance_frame]; rfl

/-- A command of which, after the time it came by, nothing remains to be done. -/
theorem Does.of_advance {c : Instr} {s : State} {f : Dev → Dev} {g : Nat} (hs : Settled s) (h : exec c s = .next (upd s f))
    (hf : f s.dev = advance s.dev g) : Does c s (fun d => d = advance s.dev g) :=
  .of_eq h hf (by rw [advance_frame]; exact hs.1) (by rw [advance_frame]; exact hs.2) rfl

section
variable {n : Dom} {p : Port} {udp : Bool} {s : State} (hs : Settled s)
include hs

theorem ptpAnnounce_unheard (rank : List (BitVec 16)) (ident : BitVec 64) (utc : BitVec 16) (arb : Bool) (steps : BitVec 16)
    (h : hearsPtp s.dev n.val udp = false ∨ bit (og s.dev (0x3420 + n.val) 3) p.val = false) :
    Idles (.ptpAnnounce n p udp rank ident utc arb steps) s := by
  refine .of_upd hs rfl ?_
  dsimp only
  rw [if_pos]
  rcases h with h | h <;> simp [h]

theorem ptpDelayResponse_unheard (delay : BitVec 64) (h : hearsPtp s.dev n.val udp = false) : Idles (.ptpDelayResponse n udp delay) s :=
  .of_upd hs rfl (by simp only [h, Bool.not_false, if_true])

theorem ptpSync_unfollowed (t1 : BitVec 112) (dg : BitVec 32) (h : hearsPtp s.dev n.val udp = false ∨ (dom s.dev n.val).best = none) :
    Does (.ptpSync n udp t1 dg) s (fun d => d = advance s.dev dg.toNat) := by
  refine .of_advance hs rfl ?_
  dsimp only
  rw [if_pos]
  rw [hearsPtp_advance]
  rcases h with h | h
  · simp [h]
  · simp [best_advance, h]

theorem pdelayReqReceived_unheard (dg : BitVec 32) (msg : Bytes)
    (h : hearsPtp s.dev n.val udp = false ∨ rd msg 4 1 ≠ og s.dev (0x3420 + n.val) 2) :
    Does (.pdelayReqReceived n p udp dg msg) s (fun d => d = advance s.dev dg.toNat) := by
  refine .of_advance hs rfl ?_
  dsimp only
  rw [if_neg]
  rw [hearsPtp_advance, show og (advance s.dev dg.toNat) (0x3420 + n.val) 2 = og s.dev (0x3420 + n.val) 2 from by rw [advance_frame]; rfl]
  rcases h with h | h <;> simp [h]

theorem ptpAnnounce_first {rank : List (BitVec 16)} {ident : BitVec 64} {utc steps : BitVec 16} {arb : Bool} {m : Master}
    (h : hearsPtp s.dev n.val udp = true) (hr : ready s.dev 4 = true) (hp : bit (og s.dev (0x3420 + n.val) 3) p.val = true)
    (hheard : (dom s.dev n.val).heard = []) (hbest : (dom s.dev n.val).best = none)
    (hm : m = ⟨rank.map BitVec.toNat, ident.toNat, p.val, utc.toNat, b2n arb, steps.toNat, udp⟩) :
    Does (.ptpAnnounce n p udp rank ident utc arb steps) s (fun d =>
      (dom d n.val).heard = [m] ∧ (dom d n.val).best = some m ∧ (dom d n.val).clock = (dom s.dev n.val).clock ∧
      domState d n.val = domState s.dev n.val ∧ ob d (0x3428 + n.val) 2 = (leBytes 8 m.ident).reverse ∧ og d (0x3428 + n.val) 3 = p.val + 1 ∧
      og d (0x3428 + n.val) 9 = m.steps) := by
  refine .of_eq (d := showMaster (setDom s.dev n.val { dom s.dev n.val with heard := [m], best := some m }) n.val m) rfl ?_ hs.1 hs.2 ?_
  · simp only [h, hr, hp, hheard, hbest, ← hm, Bool.not_true, Bool.or_self, Bool.false_eq_true, if_false, List.filter_nil, List.nil_append,
      bestMaster, Bool.false_and]
  · have hdom : dom (showMaster (setDom s.dev n.val { dom s.dev n.val with heard := [m], best := some m }) n.val m) n.val =
        { dom s.dev n.val with heard := [m], best := some m } := (dom_congr rfl _).trans (dom_setDom ..)
    rw [hdom]
    refine ⟨rfl, rfl, rfl, ?_, ?_, ?_, ?_⟩
    · simp [domState, showMaster, osi, og_os, okey]
    · exact tget_tput_same ..
    · simp [showMaster, osi, og_os, okey, hm]
    · simp [showMaster]

theorem ptpSync_first {t1 : BitVec 112} {m : Master} (h : hearsPtp s.dev n.val udp = true) (hr : ready s.dev 4 = true)
    (hbest : (dom s.dev n.val).best = some m) (h1 : domState s.dev n.val = 1) (hg : s.dev.time.grid % 10 = 0)
    (ht : ∀ u : Fin 4, og s.dev (0x3450 + u.val) 1 = 0) : Does (.ptpSync n udp t1 0) s (fun d =>
      domState d n.val = 2 ∧ ((dom d n.val).clock : Int) =
        max 0 ((unitsOf t1.toNat : Int) + (pathDelay s.dev n.val + ogi 32 s.dev (0x3420 + n.val) 9 * 65536) * (10 * 2 ^ 24)) ∧
      (dom d n.val).good = 0 ∧ d.time.seg = s.dev.time.seg) := by
  obtain ⟨v, hv⟩ : ∃ v, v = ((unitsOf t1.toNat : Int) +
    (pathDelay s.dev n.val + ogi 32 s.dev (0x3420 + n.val) 9 * 65536) * (10 * 2 ^ 24)).toNat := ⟨_, rfl⟩
  obtain ⟨shown, hshown⟩ : ∃ w : Int, w = satInt 64 (ratRoundEven (mkRat (((dom s.dev n.val).clock : Int) - (0 : Nat) - (unitsOf t1.toNat : Int) -
    (pathDelay s.dev n.val + ogi 32 s.dev (0x3420 + n.val) 9 * 65536) * (10 * 2 ^ 24)) (10 * 2 ^ 24))) := ⟨_, rfl⟩
  obtain ⟨e, he⟩ : ∃ e, e = setDom (osi 64 s.dev (0x3428 + n.val) 4 shown) n.val
    { dom s.dev n.val with clock := v, offsets := [], good := 0, bad := 0 } := ⟨_, rfl⟩
  have hst : domState e n.val = 1 := by rw [he, domState, og_setDom, osi, og_os, if_neg (by unfold okey; omega)]; exact h1
  have hquiet (u : Fin 4) : og (os e (0x3428 + n.val) 1 2) (0x3450 + u.val) 1 = 0 := by
    rw [og_os, if_neg (by unfold okey; omega), he, og_setDom, osi, og_os, if_neg (by unfold okey; omega)]; exact ht u
  have hdom : dom (os e (0x3428 + n.val) 1 2) n.val = { dom s.dev n.val with clock := v, offsets := [], good := 0, bad := 0 } := by
    exact (dom_congr (b := e) rfl _).trans (by rw [he, dom_setDom])
  refine .of_eq (d := os e (0x3428 + n.val) 1 2) rfl ?_ ?_ ?_ ⟨og_os_same .., ?_, ?_, ?_⟩
  · rw [show (0 : BitVec 32).toNat = 0 from rfl, advance_zero]
    have hsome : (dom s.dev n.val).best.isNone = false := by rw [hbest]; rfl
    simp only [h, hr, hsome, h1, hg, Bool.not_true, Bool.or_self, Bool.false_eq_true, if_false, decide_true, Bool.true_or, if_true, Nat.zero_mul]
    rw [← hshown, Nat.cast_zero, add_zero, ← hv, ← he, setDomState_plain (.inl (by rw [hst]; decide)), baseStepped_quiet hquiet]
  · rw [he]; exact hs.1
  · rw [he]; exact hs.2
  · rw [hdom, hv, Int.toNat_eq_max, max_comm]
  · rw [hdom]
  · show e.time.seg = _
    rw [he, setDom]; split <;> rfl

theorem ptpDelayResponse_stores (delay : BitVec 64) (h : hearsPtp s.dev n.val udp = true) : Does (.ptpDelayResponse n udp delay) s (fun d =>
    pathDelay d n.val = delay.toInt ∧ Writes s.dev d [okey (0x3428 + n.val) 5] []) := by
  refine .of_eq (d := osi 64 s.dev (0x3428 + n.val) 5 delay.toInt) rfl (by simp only [h, Bool.not_true, Bool.false_eq_true, if_false]) hs.1 hs.2
    ⟨?_, .of_objs ((ObjsOnly.refl s.dev).os ..) ((ObjsKept.refl s.dev _).os _ _ _ (by simp))⟩
  have hlo := delay.le_toInt
  have hhi := delay.toInt_lt
  unfold pathDelay ogi osi
  rw [og_os_same]
  unfold sgn pat
  omega

theorem delayReqSend_idles (h : domState s.dev n.val = 0 ∨ og s.dev (0x3420 + n.val) 5 ≠ 0) : Idles (.delayReqSend n) s := by
  refine .of_upd hs rfl ?_
  dsimp only
  split
  · rw [if_neg]
    rcases h with h | h
    · simp [hearsPtp_eq_false (.inl h)]
    · simp [h]
  · rfl

theorem pdelayReqSend_idles (h : domState s.dev n.val = 0 ∨ og s.dev (0x3420 + n.val) 5 ≠ 1) : Idles (.pdelayReqSend n p) s := by
  refine .of_upd hs rfl ?_
  dsimp only
  rw [if_neg]
  rcases h with h | h <;> simp [h]

theorem delayReqSend_sends {m : Master} (hh : hearsPtp s.dev n.val udp = true) (hbest : (dom s.dev n.val).best = some m) (hu : m.udp = udp)
    (h5 : og s.dev (0x3420 + n.val) 5 = 0) (h23 : domState s.dev n.val = 2 ∨ domState s.dev n.val = 3) :
    Does (.delayReqSend n) s (fun d => d.objs = s.dev.objs ∧
      ∃ b, d.out = s.dev.out ++ [.ether (Fin.ofNat 2 m.port) (if udp then 17 else 0x88F7) b] ∧ rd b 6 1 = 1 ∧
        rd b 10 1 = og s.dev (0x3420 + n.val) 2 % 256 ∧ b.length = 50) := by
  obtain ⟨q, hq⟩ : ∃ q, q = ptpSeq s.dev n.val m.port 1 := ⟨_, rfl⟩
  obtain ⟨msg, hmsg⟩ : ∃ b, b = ptpMessage (og s.dev (0x3420 + n.val) 2) m.port 1 0 0 q.1 1 (ptpStamp (clockUnits (dom s.dev n.val).clock)) :=
    ⟨_, rfl⟩
  obtain ⟨htyp, hdom, -, -, hlen⟩ := ptpMessage_fields (og s.dev (0x3420 + n.val) 2) m.port 1 0 0 q.1 1
    (ptpStamp (clockUnits (dom s.dev n.val).clock))
  rw [← hmsg] at htyp hdom hlen

  have hcond : (decide (og s.dev (0x3420 + n.val) 5 = 0) && domValid s.dev n.val && domState s.dev n.val != 4 &&
      hearsPtp s.dev n.val m.udp) = true := by
    rw [hu, hh, h5, domValid]
    rcases h23 with h | h <;> simp [h]
  refine .of_eq (d := emit q.2 (.ether (Fin.ofNat 2 m.port) (if udp then 17 else 0x88F7) (ptpDest udp false true ++ msg))) rfl ?_
    (by rw [hq]; exact hs.1) (by rw [hq]; exact hs.2) ⟨by rw [hq]; rfl, _, by rw [hq]; rfl, ?_, ?_, by simp [hlen]⟩
  · dsimp only
    split
    case h_2 hnone => rw [hbest] at hnone; cases hnone
    case h_1 m' hm' =>
      obtain rfl : m' = m := by rw [hbest] at hm'; cases hm'; rfl
      rw [if_pos hcond, ← hq, hmsg, ptpEmit_eq, hu]
  · exact (congrArg ofLe (slice_ptpDest udp false true msg 0 1)).trans htyp
  · exact (congrArg ofLe (slice_ptpDest udp false true msg 4 1)).trans hdom

theorem pdelayReqSend_sends (hr : ready s.dev 30 = true) (h0 : domState s.dev n.val ≠ 0) (h5 : og s.dev (0x3420 + n.val) 5 = 1)
    (h3 : bit (og s.dev (0x3420 + n.val) 3) p.val = true) : Does (.pdelayReqSend n p) s (fun d => d.objs = s.dev.objs ∧
      ∃ a, a.length = 54 ∧ rd a 0 1 = 2 ∧ rd a 4 1 = og s.dev (0x3420 + n.val) 2 % 256 ∧
        d.out = s.dev.out ++ (if bit (og s.dev (0x3420 + n.val) 4) 0 then [.ether p 0x88F7 (beBytes 6 0x0180C200000E ++ a)] else []) ++
          (if bit (og s.dev (0x3420 + n.val) 4) 1 then [.ether p 17 ([224, 0, 0, 107] ++ beBytes 2 319 ++ a)] else [])) := by
  obtain ⟨q, hq⟩ : ∃ q, q = ptpSeq s.dev n.val p.val 2 := ⟨_, rfl⟩
  obtain ⟨body, hbody⟩ : ∃ b, b = ptpStamp (clockUnits (dom s.dev n.val).clock) ++ List.replicate 10 0 := ⟨_, rfl⟩
  obtain ⟨msg, hmsg⟩ : ∃ b, b = ptpMessage (og s.dev (0x3420 + n.val) 2) p.val 2 0 0 q.1 5 body := ⟨_, rfl⟩
  obtain ⟨htyp, hdom, -, -, hlen⟩ := ptpMessage_fields (og s.dev (0x3420 + n.val) 2) p.val 2 0 0 q.1 5 body
  rw [← hmsg] at htyp hdom hlen
  have hcond : (decide (og s.dev (0x3420 + n.val) 5 = 1) && domState s.dev n.val != 0 && bit (og s.dev (0x3420 + n.val) 3) p.val &&
      ready s.dev 30) = true := by
    rw [h5, h3, hr]; simp [h0]
  obtain ⟨e, he⟩ : ∃ e, e = (if bit (og s.dev (0x3420 + n.val) 4) 0
    then emit q.2 (.ether p 0x88F7 (beBytes 6 0x0180C200000E ++ msg)) else q.2) := ⟨_, rfl⟩
  have hhear (d : Dev) (udp : Bool) (hd : d.objs = s.dev.objs) :
      hearsPtp d n.val udp = bit (og s.dev (0x3420 + n.val) 4) (if udp then 1 else 0) := by
    simp only [hearsPtp, ready, domState, og_congr hd]
    rw [show bit (og s.dev 0x1010 0) 30 = true from hr]; simp [show og s.dev (0x3428 + n.val) 1 ≠ 0 from h0]
  have hqo : q.2.objs = s.dev.objs := by rw [hq]; rfl
  have heo : e.objs = s.dev.objs := by rw [he]; split <;> exact hqo
  have hqout : q.2.out = s.dev.out := by rw [hq]; exact setDom_out ..
  refine .of_eq (d := if bit (og s.dev (0x3420 + n.val) 4) 1 then emit e (.ether p 17 ([224, 0, 0, 107] ++ beBytes 2 319 ++ msg)) else e)
    rfl ?_ ?_ ?_ ⟨?_, msg, by rw [hlen, hbody]; simp, htyp, hdom, ?_⟩
  · have hp : Fin.ofNat 2 p.val = p := Fin.ofNat_val_eq_self p
    have hfirst : (if hearsPtp q.2 n.val false then ptpEmit q.2 p.val false true true msg else q.2) = e := by
      rw [hhear q.2 false hqo, ptpEmit_eq, hp, he]; rfl
    dsimp only
    rw [if_pos hcond, ← hq, ← hbody, ← hmsg]
    simp only [hfirst]
    simp only [hhear e true heo, ptpEmit_eq, hp]
    rfl
  · rw [he, hq]; split <;> split <;> exact hs.1
  · rw [he, hq]; split <;> split <;> exact hs.2
  · split <;> exact heo
  · rw [he, ← hqout]; split <;> split <;> simp [emit]

theorem pdelayReqReceived_answers {dg : BitVec 32} {msg : Bytes} (hh : hearsPtp s.dev n.val udp = true) (h5 : og s.dev (0x3420 + n.val) 5 = 1)
    (h3 : bit (og s.dev (0x3420 + n.val) 3) p.val = true) (hd : rd msg 4 1 = og s.dev (0x3420 + n.val) 2) (hlen : 44 ≤ msg.length) :
    Does (.pdelayReqReceived n p udp dg msg) s (fun d => d.objs = s.dev.objs ∧
      d.time = (advance s.dev dg.toNat).time ∧ ∃ a b, d.out = s.dev.out ++ [.ether p (if udp then 17 else 0x88F7) a,
        .ether p (if udp then 17 else 0x88F7) b] ∧ rd a 6 1 = 3 ∧ rd b 6 1 = 0x0A ∧
        slice a 36 2 = slice msg 30 2 ∧ slice b 36 2 = slice msg 30 2 ∧ slice a 50 10 = slice msg 20 10) := by
  obtain ⟨e, he⟩ : ∃ e, e = advance s.dev dg.toNat := ⟨_, rfl⟩
  have hframe : e = { s.dev with time := e.time } := by rw [he]; exact advance_frame ..
  have hcond : (decide (og e (0x3420 + n.val) 5 = 1) && hearsPtp e n.val udp && bit (og e (0x3420 + n.val) 3) p.val &&
      decide (rd msg 4 1 = og e (0x3420 + n.val) 2)) = true := by
    rw [he, hearsPtp_advance, hh, og_advance, og_advance, og_advance, h5, h3, hd]
    simp
  have hseq : beBytes 2 (ofLe (slice msg 30 2).reverse) = slice msg 30 2 := beBytes_ofLe (length_slice (by omega))
  refine .of_upd rfl ?_ ?_ ?_
  all_goals
    dsimp only
    rw [← he, if_pos hcond, ptpEmit_eq, ptpEmit_eq]
  · rw [hframe]; exact hs.1
  · rw [hframe]; exact hs.2
  · have hout : e.out = s.dev.out := by rw [hframe]
    have hobjs : e.objs = s.dev.objs := by rw [hframe]
    have hp : Fin.ofNat 2 p.val = p := Fin.ofNat_val_eq_self p
    rw [hp]
    refine ⟨hobjs, rfl, _, _, out_emit_emit hout .., ?_, ?_, ?_, ?_, ?_⟩
    · exact (congrArg ofLe (slice_ptpDest _ _ _ _ 0 1)).trans (ptpMessage_fields ..).1
    · exact (congrArg ofLe (slice_ptpDest _ _ _ _ 0 1)).trans (ptpMessage_fields ..).1
    · exact (slice_ptpDest _ _ _ _ 30 2).trans ((ptpMessage_fields ..).2.2.1.trans hseq)
    · exact (slice_ptpDest _ _ _ _ 30 2).trans ((ptpMessage_fields ..).2.2.1.trans hseq)
    · refine (slice_ptpDest _ _ _ _ 44 10).trans (((ptpMessage_fields ..).2.2.2.1 10 10).trans ?_)
      rw [slice_append_right (by simp), length_ptpStamp]
      exact slice_all (length_slice (by omega))

theorem ptpTimeout_holds (h3 : domState s.dev n.val ≠ 3 ∨ og s.dev 0x3410 6 ≠ n.val + 1) (h0 : domState s.dev n.val ≠ 0)
    (h4 : domState s.dev n.val ≤ 4) : Does (.ptpTimeout n) s (fun d => domState d n.val = 4 ∧ og d 0x3410 6 = og s.dev 0x3410 6 ∧
      (domState s.dev n.val ≠ 4 → (dom d n.val).best = none ∧ (dom d n.val).heard = []) ∧ (dom d n.val).clock = (dom s.dev n.val).clock) := by
  by_cases he : domState s.dev n.val = 4
  · exact .of_eq (d := s.dev) rfl (by rw [domHoldover, if_neg (by simp [he])]) hs.1 hs.2 ⟨he, rfl, fun h => absurd he h, rfl⟩
  · obtain ⟨x, hx⟩ : ∃ x, x = { dom s.dev n.val with best := none, heard := [], offsets := [], good := 0, bad := 0 } := ⟨_, rfl⟩
    have hdom : dom (os (setDom s.dev n.val x) (0x3428 + n.val) 1 4) n.val = x :=
      (dom_congr (b := setDom s.dev n.val x) rfl _).trans (dom_setDom ..)
    refine .of_eq (d := os (setDom s.dev n.val x) (0x3428 + n.val) 1 4) rfl ?_ hs.1 hs.2
      ⟨og_os_same .., ?_, fun _ => ?_, ?_⟩
    · rw [domHoldover, if_pos (by simp; omega), ← hx]
      exact setDomState_plain (d := setDom s.dev n.val x) h3 4
    · rw [og_os, if_neg (by unfold okey; omega), og_setDom]
    · rw [hdom, hx]; exact ⟨rfl, rfl⟩
    · rw [hdom, hx]

end

/-- Settles O47: each PTP message and the timeout, by whether the domain hears the message and what its state takes from it. -/
theorem ptpDomainsFollowTheirMaster : Obligations.PtpDomainsFollowTheirMaster := by
  unfold Obligations.PtpDomainsFollowTheirMaster
  rintro n p udp rank ident utc steps arb t1 dg delay msg m s c kind hs rfl rfl
  refine ⟨fun h => ?_, fun h0 => ?_, fun h0 hr30 hr4 => ⟨fun hbit => ?_, fun h3 h4 => ?_, fun h3 h6 => ?_, fun h5 => ?_, fun h5 => ?_⟩⟩
  · have hno := hearsPtp_eq_false h
    exact ⟨ptpAnnounce_unheard hs rank ident utc arb steps (.inl hno), ptpDelayResponse_unheard hs delay hno,
      ptpSync_unfollowed hs t1 dg (.inl hno), pdelayReqReceived_unheard hs dg msg (.inl hno)⟩
  · exact ⟨.of_upd hs rfl (by rw [domHoldover, if_neg (by simp [h0])]), delayReqSend_idles hs (.inl h0), pdelayReqSend_idles hs (.inl h0)⟩
  · have hh := hearsPtp_eq_true hr30 h0 hbit
    refine ⟨ptpAnnounce_first hs hh hr4, fun hp => ptpAnnounce_unheard hs rank ident utc arb steps (.inr hp),
      fun hb => ptpSync_unfollowed hs t1 dg (.inr hb), ?_, ptpDelayResponse_stores hs delay hh,
      fun hb hu h5 h23 => delayReqSend_sends hs hh hb hu h5 h23, fun h5 h3 => ⟨pdelayReqSend_sends hs hr30 h0 h5 h3,
        pdelayReqReceived_answers hs hh h5 h3, fun hd => pdelayReqReceived_unheard hs dg msg (.inr hd)⟩⟩
    rintro hb h1 rfl hg ht
    exact ptpSync_first hs hh hr4 hb h1 hg ht
  · obtain ⟨d, hexec, hst, -, hforgot, hclock⟩ := ptpTimeout_holds hs (.inl h3) h0 h4
    exact ⟨d, hexec, hst, hforgot, hclock⟩
  · obtain ⟨d, hexec, hst, hsrc, -, hclock⟩ := ptpTimeout_holds hs (.inr h6) h0 (by omega)
    exact ⟨d, hexec, hst, hsrc, hclock⟩
  · exact delayReqSend_idles hs (.inr (by omega))
  · exact pdelayReqSend_idles hs (.inr (by omega))

end Sys2Proof.Machine
end

section
/-! ## Acquisition: a command while the collector gives no numbers -/
namespace Sys2Proof.Machine

/-- A part whose log is sealed with no number left to give, with the count of the items it could not take one short of its end (R388). -/
def numbersExhausted : State :=
  { State.reset with dev := { os (os (os Dev.reset 0x1010 0 0x20004) 0x2000 1 4) 0x3800 0x0A 0xFFFFFFFE with
      fc := { Dev.reset.fc with nextSeq := 70000 } } }

/-- Refutes O50: a manual trigger of an Idle set takes a number (R376); where none is left the item is counted in 0x3800.0A, and where that
count reaches its end source 183 is reported (R388): the collector does not stay as it was. -/
theorem not_setsRunAndRecordsAreUploaded : ¬ Obligations.SetsRunAndRecordsAreUploaded := by
  unfold Obligations.SetsRunAndRecordsAreUploaded
  intro h
  have hs : Settled numbersExhausted := by unfold Settled; decide
  obtain ⟨-, -, -, hready, -⟩ := h.1 0 0 numbersExhausted hs
  obtain ⟨hidle, -⟩ := hready (by decide)
  obtain ⟨d, hexec, hwrites⟩ := (hidle (by decide)).2
  have hdev : devOf (exec (.manualTrigger 0) numbersExhausted) = d := by rw [hexec]; rfl
  have hwaits : d.fc.todo = (number numbersExhausted.dev).1.fc.todo := by rw [hwrites.1]
  have htaken : (devOf (exec (.manualTrigger 0) numbersExhausted)).fc.todo = [] := by decide
  rw [hdev, hwaits] at htaken
  exact absurd htaken (by decide)

end Sys2Proof.Machine
end

section
/-! ## Cycle points and mapping records -/
namespace Sys2Proof.Machine

/-- The device with cycle point i no longer due. -/
def pointTaken (d : Dev) (i : Nat) : Dev := { d with time := { d.time with ptDue := tput (fun _ => none) d.time.ptDue i none } }

theorem pointTaken_due (d : Dev) (i : Nat) : tget (fun _ => none) (pointTaken d i).time.ptDue i = none :=
  tget_tput_same (fun _ => none) d.time.ptDue i none

/-- The notification of a point takes a number and waits for its subscribers (R249). -/
theorem pointNotify_open {d : Dev} (hr : ready d 2 = true) (hs : sealed d = false) (kind segm k time unit pk : Nat) :
    ∃ h, pointNotify d kind segm k time unit pk = { d with fc := { d.fc with nextSeq := d.fc.nextSeq + 1 }, host := h } := by
  rw [pointNotify, number_open hr hs]
  exact ⟨_, rfl⟩

/-- A pulse that no other one hinders (R250). -/
theorem tapPulse_free {d : Dev} {l : Nat} (h : ∀ p ∈ d.time.taps, p.2.2 ≤ l) :
    ∃ t, tapPulse d l = emit { d with time := t } .tap ∧ t.ptDue = d.time.ptDue := by
  have hnone : d.time.taps.filter (fun p => l < p.2.2) = [] :=
    List.filter_eq_nil_iff.mpr fun p hp => by simpa using h p hp
  unfold tapPulse
  rw [hnone]
  exact ⟨_, rfl, rfl⟩

/-- What the outputs of a point of kind kd that fires do: its notification and its pulse (R249, R250). -/
def pointOutputs (d : Dev) (o kd k sg l i : Nat) : Dev :=
  let n := if bit (og d o 5) 0 then pointNotify d 2 (if 3 ≤ kd && kd ≤ 5 then og d o 3 else 0) k (time112 sg) i kd else d
  if bit (og n o 5) 1 then tapPulse n l else n

theorem pointOutputs_spec {d : Dev} (hr : ready d 2 = true) (hs : sealed d = false) {l : Nat} (ht : ∀ p ∈ d.time.taps, p.2.2 ≤ l)
    (o kd k sg i : Nat) : ∃ h t, pointOutputs d o kd k sg l i = { d with
      fc := { d.fc with nextSeq := d.fc.nextSeq + b2n (bit (og d o 5) 0) }, host := h, time := t,
      out := d.out ++ (if bit (og d o 5) 1 then [.tap] else []) } ∧ t.ptDue = d.time.ptDue := by
  obtain ⟨n, hn⟩ : ∃ n, n = (if bit (og d o 5) 0 then
    pointNotify d 2 (if 3 ≤ kd && kd ≤ 5 then og d o 3 else 0) k (time112 sg) i kd else d) := ⟨_, rfl⟩
  have hnoted : ∃ h, n = { d with fc := { d.fc with nextSeq := d.fc.nextSeq + b2n (bit (og d o 5) 0) }, host := h } := by
    rw [hn]
    cases bit (og d o 5) 0
    · exact ⟨d.host, rfl⟩
    · exact pointNotify_open hr hs ..
  obtain ⟨h, hnoted⟩ := hnoted
  have hpulse : og n o 5 = og d o 5 := by rw [hnoted]; rfl
  have htaps : n.time = d.time := by rw [hnoted]
  rw [pointOutputs, ← hn, hpulse]
  cases bit (og d o 5) 1
  · exact ⟨h, d.time, by rw [if_neg Bool.false_ne_true, hnoted, if_neg Bool.false_ne_true, List.append_nil], rfl⟩
  · obtain ⟨t, hpulsed, hdue⟩ := tapPulse_free (d := n) (l := l) (by rw [htaps]; exact ht)
    exact ⟨h, t, by rw [if_pos rfl, hpulsed, hnoted, if_pos rfl]; rfl, hdue.trans (by rw [htaps])⟩

theorem exec_cyclePoint (i : Fin 8) (s : State) : exec (.cyclePoint i) s = .next (upd s (fun d =>
    match tget (fun _ => none) d.time.ptDue i.val with
    | none => d
    | some (k, sg, l) => if !ready (pointTaken d i.val) 4 || og (pointTaken d i.val) (0x3500 + i.val) 1 = 0 then pointTaken d i.val
      else pointOutputs (bump (pointTaken d i.val) (0x3500 + i.val) 6) (0x3500 + i.val) (og (pointTaken d i.val) (0x3500 + i.val) 2) k sg l i.val)) := rfl

@[simp] theorem og_pointTaken (d : Dev) (n i c : Nat) : og (pointTaken d n) i c = og d i c := rfl
@[simp] theorem ready_pointTaken (d : Dev) (n b : Nat) : ready (pointTaken d n) b = ready d b := rfl

section
variable {s : State} (hs : Settled s) {i : Fin 8} {k sg l : Nat}
  (hdue : tget (fun _ => none) s.dev.time.ptDue i.val = some (k, sg, l))
include hs hdue

theorem cyclePoint_disabled (h : ready s.dev 4 = false ∨ og s.dev (0x3500 + i.val) 1 = 0) : Does (.cyclePoint i) s (fun d =>
    d = { s.dev with time := { s.dev.time with ptDue := d.time.ptDue } } ∧ tget (fun _ => none) d.time.ptDue i.val = none) := by
  refine .of_eq (d := pointTaken s.dev i.val) (exec_cyclePoint i s) ?_ hs.1 hs.2 ⟨rfl, pointTaken_due ..⟩
  simp only [hdue, og_pointTaken, ready_pointTaken]
  exact if_pos (by rcases h with h | h <;> simp [h])

theorem cyclePoint_fires (hr : ready s.dev 4 = true) (h1 : og s.dev (0x3500 + i.val) 1 ≠ 0) (h6 : og s.dev (0x3500 + i.val) 6 < 0xFFFFFFFE)
    (hr2 : ready s.dev 2 = true) (hseal : sealed s.dev = false) (ht : ∀ p ∈ s.dev.time.taps, p.2.2 ≤ l) : Does (.cyclePoint i) s (fun d =>
      og d (0x3500 + i.val) 6 = og s.dev (0x3500 + i.val) 6 + 1 ∧ tget (fun _ => none) d.time.ptDue i.val = none ∧
      d.fc.nextSeq = s.dev.fc.nextSeq + b2n (bit (og s.dev (0x3500 + i.val) 5) 0) ∧ d.fc.log = s.dev.fc.log ∧
      d.out = s.dev.out ++ (if bit (og s.dev (0x3500 + i.val) 5) 1 then [.tap] else []) ∧
      ObjsKept s.dev d [okey (0x3500 + i.val) 6]) := by
  obtain ⟨e, he⟩ : ∃ e, e = os (pointTaken s.dev i.val) (0x3500 + i.val) 6 (og s.dev (0x3500 + i.val) 6 + 1) := ⟨_, rfl⟩
  have hother (j c : Nat) (hk : okey j c ≠ okey (0x3500 + i.val) 6) : og e j c = og s.dev j c := by rw [he, og_os, if_neg hk, og_pointTaken]
  have hre : ready e 2 = true := (ready_of_og (hother _ _ (by unfold okey; omega)) 2).trans hr2
  have hse : sealed e = false := by rw [sealed, hother _ _ (by unfold okey; omega)]; exact hseal
  have h5 : og e (0x3500 + i.val) 5 = og s.dev (0x3500 + i.val) 5 := hother _ _ (by unfold okey; omega)
  have hbump : bump (pointTaken s.dev i.val) (0x3500 + i.val) 6 = e := by
    rw [bump_counts (d := pointTaken s.dev i.val) h6, he, og_pointTaken]
  obtain ⟨h, t, hout, htdue⟩ := pointOutputs_spec hre hse (l := l) (by rw [he]; exact ht) (0x3500 + i.val) (og s.dev (0x3500 + i.val) 2) k sg i.val
  have hkept : ObjsKept s.dev e [okey (0x3500 + i.val) 6] := by
    rw [he]; exact ((ObjsKept.refl s.dev _).congr (c := pointTaken s.dev i.val) rfl).os _ _ _ (by simp)
  refine .of_eq (d := pointOutputs e (0x3500 + i.val) (og s.dev (0x3500 + i.val) 2) k sg l i.val) (exec_cyclePoint i s) ?_ ?_ ?_ ?_
  · simp only [hdue, og_pointTaken, ready_pointTaken, hbump]
    exact if_neg (by simp [hr, h1])
  all_goals rw [hout]
  · rw [he]; exact hs.1
  · rw [he]; exact hs.2
  · refine ⟨?_, ?_, ?_, by rw [he]; rfl, ?_, hkept.congr rfl⟩
    · exact (og_congr (b := e) rfl ..).trans (by rw [he, og_os_same])
    · exact (congrArg (tget (fun _ => none) · i.val) htdue).trans (by rw [he]; exact pointTaken_due ..)
    · rw [h5, he]; rfl
    · rw [h5, he]; rfl

end

/-- The entry that fails is one of those checked (R49). -/
theorem entryFail_range {host : Bool} {k : Nat} : ∀ {es before : List Nat} {i : Nat}, entryFail host before i es = some k →
    i ≤ k ∧ k < i + es.length
  | v :: es, before, i, h => by
    rw [entryFail, ite_eq_iff] at h
    rw [List.length_cons]
    obtain ⟨-, h⟩ | ⟨-, h⟩ := h
    · cases h; omega
    · have := entryFail_range h; omega

section
variable {idx : BitVec 16} {n : BitVec 8} {s : State} (hs : Settled s)
include hs

theorem mappingActivate_foreign (h : ¬ (0x1600 ≤ idx.toNat ∧ idx.toNat < 0x1800 ∨ 0x1A00 ≤ idx.toNat ∧ idx.toNat < 0x1C00)) :
    Answers (.mappingActivate idx n) s .noObject :=
  .of_upd hs rfl (if_pos (by simp; omega))

variable (h : 0x1600 ≤ idx.toNat ∧ idx.toNat < 0x1800 ∨ 0x1A00 ≤ idx.toNat ∧ idx.toNat < 0x1C00)
include h

theorem mappingActivate_refused (ha : (admission s.dev false idx.toNat 0).1 ≠ .ok) :
    Answers (.mappingActivate idx n) s (admission s.dev false idx.toNat 0).1 := by
  refine .of_upd hs rfl ((if_neg (by simp; omega)).trans ?_)
  split
  case h_1 hok => exact absurd hok ha
  case h_2 => rfl

/-- A write of the number of entries by an unpaired device, once admitted (R49). -/
theorem mappingActivate_admitted (hp : paired s.dev = false) (ha : (admission s.dev false idx.toNat 0).1 = .ok) {d : Dev} {st : Status}
    (hm : mapActivate s.dev idx.toNat n.toNat = (d, st)) (hd : ObjsOnly s.dev d) {P : Dev → Prop}
    (hP : P (emit d (.status (statusCode st) (failedEntry s.dev idx.toNat 0 n.toNat st)))) : Does (.mappingActivate idx n) s P := by
  refine .of_eq rfl ((if_neg (by simp; omega)).trans ?_) ?_ ?_ hP
  · rw [ha]
    simp only [agreed, hp, Bool.false_and, Bool.false_eq_true, if_false, hm]
  · rw [emit_fc, hd]; exact hs.1
  · rw [emit_power, hd]; exact hs.2

end

/-- Settles O37: a point's outputs as its notification and its pulse leave them; a mapping write by the first entry that fails. -/
theorem cyclePointsAndMappings : Obligations.CyclePointsAndMappings := by
  unfold Obligations.CyclePointsAndMappings
  refine ⟨fun i s hs => ⟨fun hn => ?_, fun k sg l hdue => ⟨cyclePoint_disabled hs hdue, cyclePoint_fires hs hdue⟩⟩,
    fun idx n s hs hp => ⟨mappingActivate_foreign hs, fun h => ⟨mappingActivate_refused hs h, fun ha => ⟨fun h64 => ?_, fun h64 hf => ?_,
      fun e h64 hf => ?_⟩⟩⟩⟩
  · exact .of_upd hs (exec_cyclePoint i s) (by simp only [hn])
  · obtain ⟨d, hexec, hd⟩ := mappingActivate_admitted (n := n) (P := fun d => d = answer s.dev .range) hs h hp ha
      (by rw [mapActivate, if_pos h64]) (.refl s.dev) (by rw [failedEntry, if_neg (by simp; omega)]; rfl)
    exact hexec.trans (by rw [hd])
  · refine mappingActivate_admitted hs h hp ha (by rw [mapActivate, if_neg (by omega), hf]; rfl) ((ObjsOnly.refl s.dev).os _ _ _)
      ⟨og_os_same .., ?_, ?_⟩
    · rw [failedEntry, if_neg (by simp)]; rfl
    · exact ((ObjsKept.refl s.dev _).os _ _ _ (by simp)).congr rfl
  · have hrange := entryFail_range hf
    rw [recordEntries, List.length_map, List.length_range] at hrange
    refine ⟨hrange.1, by omega, mappingActivate_admitted hs h hp ha (by rw [mapActivate, if_neg (by omega), hf]; rfl) (.refl s.dev)
      ⟨?_, .refl s.dev _⟩⟩
    rw [failedEntry, if_pos (by simp; omega), hf]
    rfl

end Sys2Proof.Machine
end

section
/-! ## Commissioning of the island -/
namespace Sys2Proof.Machine

variable {s : State}

/-- While Commissioning, with the island ready, the commissioning objects are taken (R28, R346). -/
theorem commissionStatus_ok (hr : ready s.dev 5 = true) (h3 : s.isl.state = 3) : commissionStatus s = .ok := by
  simp [commissionStatus, hr, h3]

theorem blockWrite_refused (data : Bytes) (h : commissionStatus s ≠ .ok) : blockWrite s data = (s, commissionStatus s) := by
  unfold blockWrite
  split
  case h_1 hok => exact absurd hok h
  case h_2 => rfl

theorem confirmWrite_refused (v : Nat) (h : commissionStatus s ≠ .ok) : confirmWrite s v = (s, commissionStatus s) := by
  unfold confirmWrite
  split
  case h_1 hok => exact absurd hok h
  case h_2 => rfl

theorem safetyStore_refused (h : commissionStatus s ≠ .ok) : safetyStore s = (s, commissionStatus s) := by
  unfold safetyStore
  split
  case h_1 hok => exact absurd hok h
  case h_2 => rfl

/-- A command of the island that answers the status of what it did. -/
theorem exec_safetyBlockWrite {data : Bytes} {t : State} {st : Status} (h : blockWrite s data = (t, st)) :
    exec (.safetyBlockWrite data) s = .next { t with dev := answer t.dev st } := by
  show execSafetyBlockWrite data s = _
  rw [execSafetyBlockWrite, h]

theorem exec_confirmationWrite {v : BitVec 32} {t : State} {st : Status} (h : confirmWrite s v.toNat = (t, st)) :
    exec (.confirmationWrite v) s = .next { t with dev := answer t.dev st } := by
  show execConfirmationWrite v s = _
  rw [execConfirmationWrite, h]

theorem exec_safetyStore {t : State} {st : Status} (h : safetyStore s = (t, st)) :
    exec .safetyStore s = .next { t with dev := answer t.dev st } := by
  show execSafetyStore s = _
  rw [execSafetyStore, h]

theorem safetyStore_takes (hc : commissionStatus s = .ok) (heq : s.isl.conf = s.isl.check) (hw : bit (og s.dev 0x2000 1) 0 = false)
    (hn : s.isl.storing = none) : ∃ r, exec .safetyStore s =
      .next { s with isl := { s.isl with storing := some r, storeStatus := 1 }, dev := answer s.dev .ok } ∧
      r.valid = true ∧ r.seq = (newestSafety s.dev.key).seq + 1 ∧ r.check = s.isl.check ∧ r.conf = s.isl.conf ∧ r.block = s.isl.block :=
  ⟨⟨true, (newestSafety s.dev.key).seq + 1, s.isl.check, s.isl.conf, s.isl.block⟩,
    exec_safetyStore (t := { s with isl := { s.isl with
      storing := some ⟨true, (newestSafety s.dev.key).seq + 1, s.isl.check, s.isl.conf, s.isl.block⟩, storeStatus := 1 } }) (st := .ok)
      (by simp [safetyStore, hc, heq, hw, hn]), rfl, rfl, rfl, rfl, rfl⟩

/-- The key with the record in its older copy (R441). -/
def olderReplaced (k : KeySt) (r : SafetyRec) : KeySt :=
  if k.safety0.valid && (!k.safety1.valid || k.safety1.seq ≤ k.safety0.seq) then { k with safety1 := r } else { k with safety0 := r }

theorem exec_safetyStoreComplete (ok : Bool) {r : SafetyRec} (h : s.isl.storing = some r) : exec (.safetyStoreComplete ok) s = .next (
    if ok && s.dev.key.present && s.dev.key.readable && !bit (og s.dev 0x2000 1) 0 then
      { s with dev := { s.dev with key := olderReplaced s.dev.key r },
               isl := { s.isl with storing := none, storeStatus := 2, storedConf := r.conf } }
    else { s with isl := { s.isl with storing := none, storeStatus := 3 } }) := by
  show execSafetyStoreComplete ok s = _
  rw [execSafetyStoreComplete, h]
  rfl

/-- Settles O54: each write by the island's readiness and state; the store's end by the newer copy of the key. -/
theorem islandIsCommissionedByItsObjects : Obligations.IslandIsCommissionedByItsObjects := by
  unfold Obligations.IslandIsCommissionedByItsObjects
  refine fun data v ok s => ⟨fun h => ⟨exec_safetyBlockWrite (blockWrite_refused data h), exec_confirmationWrite (confirmWrite_refused _ h),
    exec_safetyStore (safetyStore_refused h)⟩, fun hr h3 => ?_, fun hn => ?_, fun r hr => ⟨fun h => ?_, fun hok hp hrd hw => ⟨olderReplaced s.dev.key r, ?_, ?_, ?_, ?_⟩⟩⟩
  · have hc := commissionStatus_ok hr h3
    refine ⟨fun hl => exec_safetyBlockWrite ?_, fun hl hb => exec_safetyBlockWrite ?_,
      fun hl hb => exec_safetyBlockWrite (t := { s with isl := { s.isl with block := data, check := crc32c data } }) ?_,
      fun hv => exec_confirmationWrite ?_,
      fun hv => exec_confirmationWrite (t := { s with isl := { s.isl with conf := v.toNat } }) ?_, fun h => exec_safetyStore ?_, safetyStore_takes hc,
      fun r heq hw hs => exec_safetyStore ?_⟩
    · simp [blockWrite, hc, hl]
    · simp [blockWrite, hc, hb, Nat.not_lt.mpr hl]
    · simp [blockWrite, hc, hb, Nat.not_lt.mpr hl]
    · simp [confirmWrite, hc, hv]
    · simp [confirmWrite, hc, hv]
    · rcases h with h | h <;> simp [safetyStore, hc, h]
    · simp [safetyStore, hc, heq, hw, hs]
  · show execSafetyStoreComplete ok s = _
    rw [execSafetyStoreComplete, hn]
  · rw [exec_safetyStoreComplete ok hr, if_neg]
    rcases h with h | h | h | h <;> simp [h]
  · rw [exec_safetyStoreComplete ok hr, if_pos (by simp [hok, hp, hrd, hw])]
  · intro h0 h1; simp [olderReplaced, h0]
  · intro h0 h1; rcases h1 with h1 | h1 <;> simp [olderReplaced, h0, h1]
  · intro h1 h0; rcases h0 with h0 | h0
    · simp [olderReplaced, h0]
    · simp [olderReplaced, h1, h0]

end Sys2Proof.Machine
end

section
/-! ## The island: its cycle, faults, inputs and functions -/
namespace Sys2Proof.Machine

/-- The island after any change inside it: permits, outputs and stop request follow (R345, R352). -/
def islandAfter (i : IslandSt) : IslandSt := { refresh i with stopReq := stopWanted (refresh i), sat := [] }

theorem islandSettle_isl (s : State) : (islandSettle s).isl = islandAfter s.isl := upd_isl ..
theorem islandSettle_nodes (s : State) : (islandSettle s).nodes = s.nodes := upd_nodes ..

section
variable (i : IslandSt)
@[simp] theorem islandAfter_state : (islandAfter i).state = i.state := rfl
@[simp] theorem islandAfter_cause : (islandAfter i).cause = i.cause := rfl
@[simp] theorem islandAfter_block : (islandAfter i).block = i.block := rfl
@[simp] theorem islandAfter_check : (islandAfter i).check = i.check := rfl
@[simp] theorem islandAfter_conf : (islandAfter i).conf = i.conf := rfl
@[simp] theorem islandAfter_storing : (islandAfter i).storing = i.storing := rfl
@[simp] theorem islandAfter_insts : (islandAfter i).insts = i.insts := rfl
@[simp] theorem islandAfter_si : (islandAfter i).si = i.si := rfl
@[simp] theorem islandAfter_siFault : (islandAfter i).siFault = i.siFault := rfl
@[simp] theorem islandAfter_soFault : (islandAfter i).soFault = i.soFault := rfl
@[simp] theorem islandAfter_vso : (islandAfter i).vso = i.vso := rfl
@[simp] theorem islandAfter_mism : (islandAfter i).mism = i.mism := rfl
@[simp] theorem islandAfter_now : (islandAfter i).now = i.now := rfl
@[simp] theorem islandAfter_nodeIn : (islandAfter i).nodeIn = i.nodeIn := rfl
@[simp] theorem islandAfter_partner : (islandAfter i).partner = i.partner := rfl
@[simp] theorem islandAfter_counters : (islandAfter i).counters = i.counters := rfl
@[simp] theorem inst_islandAfter (f : Nat) : inst (islandAfter i) f = inst i f := rfl

/-- Outside Run every permit is 0, every output off, and the stop request up (R345, R352). -/
theorem islandAfter_off (h : i.state ≠ 4) : (islandAfter i).permits = 0 ∧ (islandAfter i).so = 0 ∧ (islandAfter i).stopReq = true := by
  obtain ⟨hp, ho⟩ := (outputsSafe_refresh i).1 h
  refine ⟨hp, ho, ?_⟩
  show stopWanted (refresh i) = true
  simp [stopWanted, show (refresh i).state = i.state from rfl, h]

/-- A function that is not in Run raises the stop request (R352). -/
theorem islandAfter_stopReq {f : Nat} (hf : f < blkFns i.block) (h : (inst i f).state ≠ 0) : (islandAfter i).stopReq = true := by
  show stopWanted (refresh i) = true
  rw [stopWanted, Bool.or_eq_true]
  exact .inr (List.any_eq_true.mpr ⟨f, List.mem_range.mpr hf, bne_iff_ne.mpr h⟩)

end

theorem bit_permitMap {i : IslandSt} {f : Nat} (h : (inst i f).permit = false) : bit (permitMap i) f = false := by
  have hkept : ∀ l m, bit m f = false → bit (List.foldl (fun m f => if (inst i f).permit then setBit m f true else m) m l) f = false := by
    intro l
    induction l with
    | nil => exact fun m hm => hm
    | cons a l ih =>
      intro m hm
      refine ih _ ?_
      beta_reduce
      split
      case isTrue ha =>
        have hne : f ≠ a := fun e => by rw [e, ha] at h; cases h
        rw [bit_setBit, if_neg hne]; exact hm
      case isFalse => exact hm
  exact hkept _ 0 (bit_zero f)

theorem bit_permits {i : IslandSt} {f : Nat} (h : (inst i f).permit = false) : bit (islandAfter i).permits f = false := by
  show bit (if i.state = 4 then permitMap i else 0) f = false
  split
  · exact bit_permitMap h
  · exact bit_zero f

theorem islandState_isl (s : State) (st : Nat) : (islandState s st).isl = { s.isl with state := st } := by
  unfold islandState
  split
  case isTrue h => rw [← h]
  case isFalse => rfl

theorem ibump_frame (i : IslandSt) (k : Nat) : ibump i k = { i with counters := (ibump i k).counters, sat := (ibump i k).sat } := by
  unfold ibump
  dsimp only
  split <;> rfl

theorem icount_ibump {i : IslandSt} {k : Nat} (h : icount i k < 0xFFFFFFFF) : icount (ibump i k) k = icount i k + 1 := by
  unfold ibump
  rw [if_neg (by omega)]
  exact tget_tput_same (fun _ => 0) i.counters k (icount i k + 1)

/-- What an island cycle leaves beside its functions, outputs and streams. -/
def cycleFrame (i : IslandSt) : Nat × Nat × Nat × Bytes × Nat := (i.state, i.mism, i.now, i.block, i.si)

theorem cycleFrame_ibump (i : IslandSt) (k : Nat) : cycleFrame (ibump i k) = cycleFrame i := by rw [ibump_frame]; rfl
theorem cycleFrame_instFault (i : IslandSt) (f c : Nat) : cycleFrame (instFault i f c) = cycleFrame i := by
  unfold instFault
  dsimp only
  split
  · rfl
  · exact cycleFrame_ibump ..
theorem cycleFrame_enterDemand (i : IslandSt) (f : Nat) (x : InstSt) (c : Bool) : cycleFrame (enterDemand i f x c) = cycleFrame i := by
  unfold enterDemand
  dsimp only
  split
  · exact cycleFrame_ibump ..
  · rfl

theorem cycleFrame_instStep (i : IslandSt) (f : Nat) : cycleFrame (instStep i f) = cycleFrame i := by
  have ite {p : Prop} [Decidable p] {a b : IslandSt} (ha : cycleFrame a = cycleFrame i) (hb : cycleFrame b = cycleFrame i) :
      cycleFrame (if p then a else b) = cycleFrame i := by split <;> assumption
  have fault {x : InstSt} {c : Nat} : cycleFrame (instFault (setInst i f x) f c) = cycleFrame i := cycleFrame_instFault ..
  have demand {x y : InstSt} {c : Bool} : cycleFrame (enterDemand (setInst i f x) f y c) = cycleFrame i := cycleFrame_enterDemand ..
  unfold instStep
  dsimp only
  exact ite fault (ite fault (ite (ite demand rfl) (ite (ite (ite rfl rfl) rfl) (ite (ite demand (ite rfl rfl))
    (ite (ite (ite rfl rfl) (ite rfl rfl)) (ite demand rfl))))))

/-- What an island cycle leaves beside outputs and streams. -/
def restFrame (i : IslandSt) : (Nat × Nat × Nat × Bytes × Nat) × Table InstSt := (cycleFrame i, i.insts)

theorem restFrame_ibump (i : IslandSt) (k : Nat) : restFrame (ibump i k) = restFrame i := by rw [ibump_frame]; rfl

theorem restFrame_soReadback (i : IslandSt) (read ovr : Nat) : restFrame (soReadback i read ovr) = restFrame i := by
  unfold soReadback
  dsimp only
  refine Eq.trans (foldl_leaves restFrame ?_ (List.range 4) _) ?_
  · intro j n
    split
    · exact restFrame_ibump ..
    · rfl
  · rfl

theorem restFrame_ageStreams (i : IslandSt) : restFrame (ageStreams i) = restFrame { i with now := i.now + 125 } := by
  have hrep (n : Nat) (j : IslandSt) : restFrame (Nat.repeat (fun i => ibump i 5) n j) = restFrame j := by
    induction n with
    | zero => rfl
    | succ n ih => exact (restFrame_ibump ..).trans ih
  exact (hrep ..).trans rfl

theorem restFrame_sendPdu (s : State) (c p : Nat) : restFrame (sendPdu s c p).isl = restFrame s.isl ∧ (sendPdu s c p).nodes = s.nodes := by
  refine ⟨?_, rfl⟩
  show restFrame (nextSeq s.isl c).2 = _
  unfold nextSeq
  dsimp only
  split <;> rfl

theorem restFrame_handover (s : State) : restFrame (handover s).isl = restFrame s.isl ∧ (handover s).nodes = s.nodes := by
  have hfold := foldl_leaves (fun s : State => (restFrame s.isl, s.nodes)) (f := fun s (p : Nat × Nat) => sendPdu s p.1 p.2)
    (fun t p => Prod.ext (restFrame_sendPdu t p.1 p.2).1 (restFrame_sendPdu t p.1 p.2).2) (pduList s) s
  obtain ⟨hisl, hnodes⟩ := Prod.mk.inj hfold
  unfold handover
  split
  · exact ⟨rfl, rfl⟩
  · dsimp only
    split
    · exact ⟨hisl, hnodes⟩
    · exact ⟨hisl, hnodes⟩

section
variable {dis clk mis sup : Bool} {read ovr : BitVec 8} {s : State}

/-- The island as a cycle begins: the disagreements in a row counted, the streams aged. -/
def aged (dis : Bool) (i : IslandSt) : IslandSt := ageStreams { i with mism := if dis then i.mism + 1 else 0 }

theorem aged_spec (dis : Bool) (i : IslandSt) : (aged dis i).state = i.state ∧ (aged dis i).mism = (if dis then i.mism + 1 else 0) ∧
    (aged dis i).now = i.now + 125 ∧ (aged dis i).block = i.block ∧ (aged dis i).si = i.si ∧ (aged dis i).insts = i.insts := by
  have h := restFrame_ageStreams { i with mism := if dis then i.mism + 1 else 0 }
  simp only [restFrame, cycleFrame, Prod.mk.injEq] at h
  obtain ⟨⟨hs, hm, hn, hb, hsi⟩, hi⟩ := h
  exact ⟨hs, hm, hn, hb, hsi, hi⟩

/-- The functions' part of a cycle (R350). -/
def stepped (i : IslandSt) : IslandSt := if i.state = 4 then (List.range (blkFns i.block)).foldl instStep i else i

theorem exec_islandCycle (dis clk mis sup : Bool) (read ovr : BitVec 8) (s : State) : exec (.islandCycle dis clk mis sup read ovr) s = .next (
    if s.isl.state = 0 || s.isl.state = 5 then s
    else if sup then islandSettle (freezePdus (islandFault { s with isl := aged dis s.isl } 4))
    else if clk then islandSettle (freezePdus (islandFault { s with isl := aged dis s.isl } 2))
    else if mis then islandSettle (freezePdus (islandFault { s with isl := aged dis s.isl } 3))
    else if 2 ≤ (aged dis s.isl).mism then islandSettle (freezePdus (islandFault { s with isl := aged dis s.isl } 1))
    else if dis then islandSettle { s with isl := soReadback (aged dis s.isl) read.toNat ovr.toNat }
    else islandSettle (handover { s with isl := refresh (stepped (soReadback (aged dis s.isl) read.toNat ovr.toNat)) })) := rfl

theorem islandCycle_idles (h : s.isl.state = 0 ∨ s.isl.state = 5) : Idles (.islandCycle dis clk mis sup read ovr) s := by
  rw [Idles, exec_islandCycle, if_pos (by simpa using h)]

/-- A cycle that finds a fault of the island (R344). -/
theorem islandCycle_faults {c : Nat} (h0 : s.isl.state ≠ 0) (h5 : s.isl.state ≠ 5)
    (hc : sup = true ∧ c = 4 ∨ sup = false ∧ clk = true ∧ c = 2 ∨ sup = false ∧ clk = false ∧ mis = true ∧ c = 3 ∨
      sup = false ∧ clk = false ∧ mis = false ∧ dis = true ∧ s.isl.mism = 1 ∧ c = 1) :
    ∃ t, exec (.islandCycle dis clk mis sup read ovr) s = .next t ∧ t.isl.state = 5 ∧ t.isl.cause = c ∧ t.isl.permits = 0 ∧ t.isl.so = 0 ∧
      t.isl.stopReq = true ∧ t.isl.block = s.isl.block := by
  obtain ⟨-, hmism, -, hblock, -, -⟩ := aged_spec dis s.isl
  refine ⟨islandSettle (freezePdus (islandFault { s with isl := aged dis s.isl } c)), ?_, ?_⟩
  · rw [exec_islandCycle, if_neg (by simp [h0, h5])]
    rcases hc with ⟨h1, rfl⟩ | ⟨h1, h2, rfl⟩ | ⟨h1, h2, h3, rfl⟩ | ⟨h1, h2, h3, h4, hm, rfl⟩
    · rw [if_pos h1]
    · rw [if_neg (by simp [h1]), if_pos h2]
    · rw [if_neg (by simp [h1]), if_neg (by simp [h2]), if_pos h3]
    · rw [if_neg (by simp [h1]), if_neg (by simp [h2]), if_neg (by simp [h3]), if_pos (by rw [hmism, h4, if_pos rfl, hm])]
  · have hisl : (islandSettle (freezePdus (islandFault { s with isl := aged dis s.isl } c))).isl =
        islandAfter { aged dis s.isl with cause := c, state := 5 } := by
      rw [islandSettle_isl]
      show islandAfter (islandFault { s with isl := aged dis s.isl } c).isl = _
      rw [islandFault, islandState_isl]
    obtain ⟨hp, ho, hr⟩ := islandAfter_off { aged dis s.isl with cause := c, state := 5 } (by simp)
    rw [hisl]
    exact ⟨rfl, rfl, hp, ho, hr, hblock⟩

theorem islandCycle_runs (h0 : s.isl.state ≠ 0) (h5 : s.isl.state ≠ 5) (hsup : sup = false) (hclk : clk = false) (hmis : mis = false)
    (hdis : dis = false) : ∃ t, exec (.islandCycle dis clk mis sup read ovr) s = .next t ∧ t.isl.state = s.isl.state ∧ t.isl.mism = 0 ∧
      t.isl.now = s.isl.now + 125 ∧ t.isl.block = s.isl.block ∧ t.isl.si = s.isl.si ∧ (s.isl.state ≠ 4 → t.isl.insts = s.isl.insts) ∧
      t.nodes = s.nodes := by
  obtain ⟨hs, hm, hn, hb, hsi, hi⟩ := aged_spec false s.isl
  obtain ⟨i, hi1⟩ : ∃ i, i = soReadback (aged false s.isl) read.toNat ovr.toNat := ⟨_, rfl⟩
  have hread : restFrame i = restFrame (aged false s.isl) := by rw [hi1]; exact restFrame_soReadback ..
  obtain ⟨j, hj⟩ : ∃ j, j = stepped i := ⟨_, rfl⟩
  have hstep : cycleFrame j = cycleFrame i := by
    rw [hj, stepped]; split
    · exact foldl_leaves cycleFrame cycleFrame_instStep _ _
    · rfl
  obtain ⟨hhand, hnodes⟩ := restFrame_handover { s with isl := refresh j }
  refine ⟨islandSettle (handover { s with isl := refresh j }), ?_, ?_⟩
  · subst hdis
    rw [exec_islandCycle, if_neg (by simp [h0, h5]), if_neg (by simp [hsup]), if_neg (by simp [hclk]), if_neg (by simp [hmis]),
      if_neg (by rw [hm]; simp), if_neg Bool.false_ne_true, hj, hi1]
  · rw [islandSettle_isl, islandSettle_nodes]
    simp only [restFrame, cycleFrame, Prod.mk.injEq] at hread hstep hhand
    obtain ⟨⟨rs, rm, rn, rb, rsi⟩, ri⟩ := hread
    obtain ⟨ss, sm, sn, sb, ssi⟩ := hstep
    obtain ⟨⟨ts, tm, tn, tb, tsi⟩, ti⟩ := hhand
    refine ⟨ts.trans (ss.trans (rs.trans hs)), tm.trans (sm.trans (rm.trans hm)), tn.trans (sn.trans (rn.trans hn)), tb.trans (sb.trans (rb.trans hb)),
      tsi.trans (ssi.trans (rsi.trans hsi)), fun h4 => ti.trans ?_, hnodes⟩
    show j.insts = _
    rw [hj, stepped, if_neg (by rw [rs, hs]; exact h4), ri, hi]

theorem islandSelfTestDone_fails (h1 : s.isl.state = 1) : ∃ t, exec (.islandSelfTestDone false) s = .next t ∧ t.isl.state = 5 ∧ t.isl.cause = 0 ∧
    t.isl.so = 0 := by
  refine ⟨islandSettle (islandFault { s with dev := osb s.dev 0x1011 0 5 true } 0), ?_, ?_⟩
  · show execIslandSelfTestDone false s = _
    rw [execIslandSelfTestDone, if_neg (by simp [h1])]
    rfl
  · rw [islandSettle_isl, islandFault, islandState_isl]
    exact ⟨rfl, rfl, (islandAfter_off _ (by simp)).2.1⟩

/-- The island as a passed self-test leaves it, with the key's record (R345, R370). -/
def islandTested (i : IslandSt) (r : SafetyRec) : IslandSt :=
  { i with block := r.block, check := if r.block.length = 0 then 0 else crc32c r.block, conf := r.conf, storedConf := r.conf, insts := [],
           stopReq := true, mism := 0, soFault := 0, soBad := [], siFault := 0, cause := 0, commissioned := false }

theorem exec_islandSelfTestDone_pass (h1 : s.isl.state = 1) : exec (.islandSelfTestDone true) s = .next (
    islandSettle (islandState { s with isl := islandTested s.isl (newestSafety s.dev.key), dev := osb (osb s.dev 0x1011 0 5 false) 0x1010 0 5 true }
      (if (newestSafety s.dev.key).block.length != 0 &&
        (if (newestSafety s.dev.key).block.length = 0 then 0 else crc32c (newestSafety s.dev.key).block) = (newestSafety s.dev.key).conf
        then 4 else 2))) := by
  show execIslandSelfTestDone true s = _
  rw [execIslandSelfTestDone, if_neg (by simp [h1])]
  rfl

theorem islandSelfTestDone_passes (h1 : s.isl.state = 1) (r : SafetyRec) (hr : r = newestSafety s.dev.key) :
    ∃ t, exec (.islandSelfTestDone true) s = .next t ∧ t.isl.block = r.block ∧ t.isl.conf = r.conf ∧
      t.isl.insts = [] ∧ (r.block = [] → t.isl.state = 2 ∧ t.isl.check = 0) ∧ (r.block ≠ [] → t.isl.check = crc32c r.block ∧
        t.isl.state = (if crc32c r.block = r.conf then 4 else 2)) := by
  refine ⟨_, exec_islandSelfTestDone_pass h1, ?_⟩
  rw [islandSettle_isl, islandState_isl, ← hr]
  refine ⟨rfl, rfl, rfl, fun hb => ?_, fun hb => ?_⟩
  · simp [islandTested, hb]
  · have hlen : r.block.length ≠ 0 := fun h => hb (List.length_eq_zero_iff.mp h)
    simp [islandTested, hlen]

/-- The island as its restart leaves it (R345). -/
def islandRestarted (i : IslandSt) (vso : Bool) : IslandSt :=
  { ibump i 6 with commissioned := true, soFault := 0, soBad := [], vso := vso, state := 1 }

theorem islandStart_isl (s : State) : (islandStart s true).isl = islandAfter (islandRestarted s.isl s.dev.power.vsoOk) := by
  rw [islandStart, islandSettle_isl, islandState_isl]
  rfl

theorem islandRestart_restarts (hr : ready s.dev 5 = true) : ∃ t, exec .islandRestart s = .next t ∧ t.isl.state = 1 ∧ t.isl.permits = 0 ∧
    t.isl.so = 0 ∧ t.isl.block = s.isl.block ∧ t.isl.storing = s.isl.storing ∧ (∃ m, t.dev.out = m ++ [said .ok]) := by
  refine ⟨{ islandStart s true with dev := answer (islandStart s true).dev .ok }, ?_, ?_⟩
  · show execIslandRestart s = _
    rw [execIslandRestart, hr]
    rfl
  · obtain ⟨hp, ho, -⟩ := islandAfter_off (islandRestarted s.isl s.dev.power.vsoOk) (by simp [islandRestarted])
    dsimp only
    rw [islandStart_isl]
    exact ⟨rfl, hp, ho, by rw [islandRestarted, ibump_frame]; rfl, by rw [islandRestarted, ibump_frame]; rfl, _, rfl⟩

theorem soOffPulse_faults {o : SoPair} {pinB low : Bool} (hon : bit s.isl.so (2 * o.val + b2n pinB) = true) (hl : low = false)
    (hf : bit s.isl.soFault o.val = false) : ∃ t, exec (.soOffPulse o pinB low) s = .next t ∧
      bit t.isl.soFault o.val = true ∧ bit t.isl.so (2 * o.val) = false ∧ bit t.isl.so (2 * o.val + 1) = false ∧
      (icount s.isl 4 < 0xFFFFFFFF → icount t.isl 4 = icount s.isl 4 + 1) := by
  obtain ⟨i, hi⟩ : ∃ i, i = ibump { s.isl with soFault := setBit s.isl.soFault o.val true } 4 := ⟨_, rfl⟩
  have hfault : bit i.soFault o.val = true := by rw [hi, ibump_frame]; exact setBit_self ..
  have hoff (b : Nat) (hb : b < 2) : bit (islandAfter i).so (2 * o.val + b) = false := by
    rw [Bool.eq_false_iff]
    intro h
    have hsafe := (outputsSafe_refresh i).2 o.val o.isLt (by
      obtain rfl | rfl : b = 0 ∨ b = 1 := by omega
      · exact .inl h
      · exact .inr h)
    exact absurd hfault (by rw [show i.soFault = (refresh i).soFault from rfl, hsafe.2]; simp)
  refine ⟨islandSettle { s with isl := i }, ?_, ?_⟩
  · show execSoOffPulse o pinB low s = _
    rw [execSoOffPulse, hi]
    exact congrArg _ (if_pos (by simp [hon, hl, hf]))
  · rw [islandSettle_isl]
    refine ⟨hfault, hoff 0 (by omega), hoff 1 (by omega), fun h => ?_⟩
    show icount i 4 = _
    rw [hi]
    exact icount_ibump (i := { s.isl with soFault := setBit s.isl.soFault o.val true }) h

theorem soOffPulse_idles {o : SoPair} {pinB low : Bool} (h : bit s.isl.so (2 * o.val + b2n pinB) = false ∨ low = true ∨ bit s.isl.soFault o.val = true) :
    Idles (.soOffPulse o pinB low) s := by
  refine congrArg _ (if_neg ?_)
  rcases h with h | h | h <;> simp [h]

theorem vsoRangeChange_follows (ok : Bool) : ∃ t, exec (.vsoRangeChange ok) s = .next t ∧ t.isl.vso = ok ∧ (ok = false → t.isl.so = 0) ∧
    t.isl.state = s.isl.state ∧ t.isl.block = s.isl.block := by
  refine ⟨_, rfl, ?_⟩
  rw [islandSettle_isl]
  refine ⟨rfl, fun h => ?_, rfl, rfl⟩
  refine soPins_none _ _ _ (fun n => ?_)
  rw [Bool.eq_false_iff]
  exact fun hn => absurd (soOn_imp hn).2.1 (by simp [h])

end

end Sys2Proof.Machine
end

section
namespace Sys2Proof.Machine

variable {s : State}

/-- An entry the log has room for is kept (R455). -/
theorem logEntry_open {d : Dev} (hw : commitWindow d = false) (hn : d.fc.waiting < 1024) (e : LogEntry) : logEntry d e = bufferEntry d e := by
  rw [logEntry, hw, if_neg Bool.false_ne_true, if_neg (by omega)]

theorem log_open {d : Dev} (hr : ready d 2 = true) (hs : sealed d = false) (hw : commitWindow d = false) (hn : d.fc.waiting < 1024)
    (b c v : Nat) : (log d b c v).fc.nextSeq = d.fc.nextSeq + 1 ∧ (log d b c v).fc.todo = d.fc.todo ∧ (log d b c v).power = d.power := by
  rw [log, event_logged (number_open hr hs)]
  dsimp only
  rw [logEntry_open (d := { d with fc := { d.fc with nextSeq := d.fc.nextSeq + 1 } }) hw hn]
  exact ⟨rfl, rfl, rfl⟩

theorem siChangeAccepted_changes {i : SIn} {level : Bool} (hs : Settled s) (h0 : s.isl.state ≠ 0) (hl : bit s.isl.si i.val ≠ level)
    (hr : ready s.dev 2 = true) (hseal : sealed s.dev = false) (hw : commitWindow s.dev = false) (hn : s.dev.fc.waiting < 1024) :
    ∃ t, exec (.siChangeAccepted i level) s = .next t ∧ bit t.isl.si i.val = level ∧ tget (fun _ => 0) t.isl.siT i.val = s.isl.now ∧
      t.isl = { s.isl with si := t.isl.si, siT := t.isl.siT } ∧ (∀ j : SIn, j ≠ i → bit t.isl.si j.val = bit s.isl.si j.val) ∧
      t.dev.fc.nextSeq = s.dev.fc.nextSeq + 1 := by
  obtain ⟨st, hst⟩ : ∃ st, st = { s.isl with si := setBit s.isl.si i.val level, siT := tput (fun _ => 0) s.isl.siT i.val s.isl.now } := ⟨_, rfl⟩
  obtain ⟨hseq, htodo, hpow⟩ := log_open hr hseal hw hn 5 1 (i.val + 256 * b2n level)
  refine ⟨{ s with isl := st, dev := log s.dev 5 1 (i.val + 256 * b2n level) }, ?_, ?_, ?_, ?_, fun j hj => ?_, hseq⟩
  · show execSiChangeAccepted i level s = _
    rw [execSiChangeAccepted, if_neg (by simp [h0, hl]), hst]
    exact congrArg _ (upd_settled _ _ (htodo.trans hs.1) ((congrArg (·.cleared) hpow).trans hs.2))
  · rw [hst]; simp [bit_setBit]
  · rw [hst]; exact tget_tput_same ..
  · rw [hst]
  · rw [hst]
    simp [bit_setBit, Fin.val_ne_of_ne hj]

/-- Bits set anew where a condition holds. -/
theorem bit_foldl_setBit (c v : Nat → Bool) (j : Nat) (l : List Nat) : ∀ m, bit (l.foldl (fun m p => if c p then setBit m p (v p) else m) m) j =
    if j ∈ l ∧ c j = true then v j else bit m j := by
  induction l with
  | nil => intro m; simp
  | cons a l ih =>
    intro m
    rw [List.foldl_cons, ih]
    by_cases hl : j ∈ l ∧ c j = true
    · rw [if_pos hl, if_pos ⟨List.mem_cons_of_mem _ hl.1, hl.2⟩]
    · rw [if_neg hl]
      by_cases hc : c a = true
      · rw [if_pos hc, bit_setBit]
        by_cases ha : j = a
        · rw [if_pos ha, if_pos (by rw [ha]; exact ⟨List.mem_cons_self, hc⟩), ha]
        · rw [if_neg ha, if_neg (fun h => hl ⟨(List.mem_cons.mp h.1).resolve_left ha, h.2⟩)]
      · have hne : ¬ (j ∈ a :: l ∧ c j = true) := fun h => by
          rcases List.mem_cons.mp h.1 with e | e
          · exact hc (by rw [← e]; exact h.2)
          · exact hl ⟨e, h.2⟩
        rw [if_neg hc, if_neg hne]

theorem inst_setInst (i : IslandSt) (f g : Nat) (x : InstSt) : inst (setInst i f x) g = if g = f then x else inst i g := tget_tput ..

/-- A function as a fault leaves it (R350). -/
def faulted (x : InstSt) (c : Nat) : InstSt :=
  if x.state = 3 then { x with seen := 0, seenT := 0 }
  else { x with state := 3, permit := false, cause := c, timer := none, seen := 0, seenT := 0 }

theorem faulted_spec (x : InstSt) (c : Nat) : (faulted x c).state = 3 ∧ (faulted x c).permit = (x.permit && decide (x.state = 3)) ∧
    (x.state ≠ 3 → (faulted x c).cause = c ∧ (faulted x c).permit = false) := by
  unfold faulted
  split
  case isTrue h => exact ⟨h, by simp [h], fun hn => absurd h hn⟩
  case isFalse h => exact ⟨rfl, by simp [h], fun _ => ⟨rfl, rfl⟩⟩

theorem instFault_frame (i : IslandSt) (f c : Nat) : instFault i f c =
    { setInst i f (faulted (inst i f) c) with counters := (instFault i f c).counters, sat := (instFault i f c).sat } := by
  unfold instFault faulted
  dsimp only
  split
  · rfl
  · rw [ibump_frame]; rfl

theorem inst_instFault (i : IslandSt) (f c g : Nat) : inst (instFault i f c) g = if g = f then faulted (inst i f) c else inst i g := by
  rw [instFault_frame]; exact inst_setInst ..

theorem testFault_congr {i j : IslandSt} (hf : j.siFault = i.siFault) (hb : j.block = i.block) (f : Nat) : testFault j f = testFault i f := by
  unfold testFault fnSrc
  rw [hf, hb]

/-- The faults a test pulse finds at the pins of its source (R348). -/
def pulseFaults (i : IslandSt) (srcB : Bool) (low : BitVec 16) : Nat :=
  (List.range 16).foldl (fun m p => if rd (blkPin i.block p) 2 1 = (if srcB then 2 else 1) then setBit m p (!bit low.toNat p) else m) i.siFault

theorem bit_pulseFaults (i : IslandSt) (srcB : Bool) (low : BitVec 16) (j : SIn) : bit (pulseFaults i srcB low) j.val =
    if rd (blkPin i.block j.val) 2 1 = (if srcB = true then 2 else 1) then !bit low.toNat j.val else bit i.siFault j.val := by
  have h := bit_foldl_setBit (fun p => decide (rd (blkPin i.block p) 2 1 = (if srcB then 2 else 1))) (fun p => !bit low.toNat p) j.val
    (List.range 16) i.siFault
  simp only [decide_eq_true_eq, List.mem_range.mpr j.isLt, true_and] at h
  exact h

/-- The functions take a test fault of a pin they use (R348). -/
def functionsTested (i : IslandSt) : IslandSt :=
  if i.state = 4 then (List.range (blkFns i.block)).foldl (fun (i : IslandSt) n => if testFault i n then instFault i n 1 else i) i else i

theorem exec_testPulse (srcB : Bool) (low : BitVec 16) (s : State) : exec (.testPulse srcB low) s = .next (
    if s.isl.state = 0 || s.isl.state = 5 then s
    else islandSettle { s with isl := functionsTested { s.isl with siFault := pulseFaults s.isl srcB low } }) := rfl

theorem testStep_frame (i : IslandSt) (n : Nat) : (if testFault i n then instFault i n 1 else i) =
    { i with insts := (if testFault i n then instFault i n 1 else i).insts, counters := (if testFault i n then instFault i n 1 else i).counters,
             sat := (if testFault i n then instFault i n 1 else i).sat } := by
  split
  · rw [instFault_frame]; rfl
  · rfl

theorem functionsTested_kept (i : IslandSt) : (functionsTested i).state = i.state ∧ (functionsTested i).siFault = i.siFault := by
  have h := foldl_leaves (fun j : IslandSt => (j.state, j.siFault)) (f := fun (i : IslandSt) n => if testFault i n then instFault i n 1 else i)
    (fun j n => by rw [testStep_frame]) (List.range (blkFns i.block)) i
  unfold functionsTested
  split
  · exact Prod.mk.inj h
  · exact ⟨rfl, rfl⟩

theorem functionsTested_faults {i : IslandSt} {f : Nat} (h4 : i.state = 4) (hf : f < blkFns i.block) (ht : testFault i f = true) :
    (inst (functionsTested i) f).state = 3 ∧ (inst (functionsTested i) f).permit = ((inst i f).permit && decide ((inst i f).state = 3)) := by
  rw [functionsTested, if_pos h4]
  refine foldl_establishes (I := fun j : IslandSt => j.siFault = i.siFault ∧ j.block = i.block ∧ (inst j f = inst i f ∨
      (inst j f).state = 3 ∧ (inst j f).permit = ((inst i f).permit && decide ((inst i f).state = 3))))
    (P := fun j => (inst j f).state = 3 ∧ (inst j f).permit = ((inst i f).permit && decide ((inst i f).state = 3))) (y := f)
    (fun j n hj => ?_) (fun j n hj hp => ?_) (fun j hj => ?_) (List.mem_range.mpr hf) ⟨rfl, rfl, .inl rfl⟩
  · obtain ⟨hsf, hb, hin⟩ := hj
    refine ⟨by rw [testStep_frame]; exact hsf, by rw [testStep_frame]; exact hb, ?_⟩
    split
    case isFalse => exact hin
    case isTrue =>
      rw [inst_instFault]
      split
      case isFalse => exact hin
      case isTrue hfn =>
        subst hfn
        obtain ⟨hs3, hperm, -⟩ := faulted_spec (inst j f) 1
        refine .inr ⟨hs3, hperm.trans ?_⟩
        rcases hin with hin | ⟨h3, hp⟩
        · rw [hin]
        · rw [hp, h3]; simp
  · split
    case isFalse => exact hp
    case isTrue =>
      rw [inst_instFault]
      split
      case isFalse => exact hp
      case isTrue hfn =>
        subst hfn
        obtain ⟨hs3, hperm, -⟩ := faulted_spec (inst j f) 1
        exact ⟨hs3, hperm.trans (by rw [hp.2, hp.1]; simp)⟩
  · obtain ⟨hsf, hb, hin⟩ := hj
    rw [if_pos (by rw [testFault_congr hsf hb]; exact ht), inst_instFault, if_pos rfl]
    obtain ⟨hs3, hperm, -⟩ := faulted_spec (inst j f) 1
    refine ⟨hs3, hperm.trans ?_⟩
    rcases hin with hin | ⟨h3, hp⟩
    · rw [hin]
    · rw [hp, h3]; simp

theorem testPulse_tests {srcB : Bool} {low : BitVec 16} {f : Fin 64} (h0 : s.isl.state ≠ 0) (h5 : s.isl.state ≠ 5) :
    ∃ t, exec (.testPulse srcB low) s = .next t ∧ t.isl.state = s.isl.state ∧
      (∀ j : SIn, bit t.isl.siFault j.val = if rd (blkPin s.isl.block j.val) 2 1 = (if srcB = true then 2 else 1) then !bit low.toNat j.val
        else bit s.isl.siFault j.val) ∧
      (s.isl.state = 4 → f.val < blkFns s.isl.block → testFault { s.isl with siFault := t.isl.siFault } f.val = true → (inst t.isl f.val).state = 3 ∧
        (inst t.isl f.val).permit = ((inst s.isl f.val).permit && decide ((inst s.isl f.val).state = 3))) := by
  refine ⟨_, (exec_testPulse srcB low s).trans (by rw [if_neg (by simp [h0, h5])]), ?_⟩
  obtain ⟨hst, hsf⟩ := functionsTested_kept { s.isl with siFault := pulseFaults s.isl srcB low }
  rw [islandSettle_isl]
  simp only [islandAfter_state, islandAfter_siFault, inst_islandAfter, hst, hsf]
  exact ⟨trivial, bit_pulseFaults s.isl srcB low, functionsTested_faults (i := { s.isl with siFault := pulseFaults s.isl srcB low })⟩

section
variable {f : Fin 64} (h4 : s.isl.state = 4) (hf : f.val < blkFns s.isl.block)
include h4 hf

theorem discrepancyTimeout_faults (hd : (discrepant s.isl f.val).1 = true ∨ (discrepant s.isl f.val).2 = true) (h3 : (inst s.isl f.val).state ≠ 3) :
    ∃ t, exec (.discrepancyTimeout f) s = .next t ∧ (inst t.isl f.val).state = 3 ∧ (inst t.isl f.val).cause = 2 ∧
      (inst t.isl f.val).permit = false ∧ bit t.isl.permits f.val = false ∧ t.isl.stopReq = true := by
  refine ⟨islandSettle { s with isl := instFault s.isl f.val 2 }, ?_, ?_⟩
  · refine congrArg _ (if_pos ?_)
    rcases hd with hd | hd <;> simp [h4, hf, hd]
  · obtain ⟨hs3, -, hnew⟩ := faulted_spec (inst s.isl f.val) 2
    have hinst : inst (instFault s.isl f.val 2) f.val = faulted (inst s.isl f.val) 2 := by rw [inst_instFault, if_pos rfl]
    rw [islandSettle_isl]
    simp only [inst_islandAfter, hinst]
    refine ⟨hs3, (hnew h3).1, (hnew h3).2, bit_permits (by rw [hinst]; exact (hnew h3).2), islandAfter_stopReq (f := f.val) _ ?_ ?_⟩
    · rw [instFault_frame]; exact hf
    · rw [hinst, hs3]; decide

theorem permitDelayEnd_ends (ht : (inst s.isl f.val).timer.isSome = true) : ∃ t, exec (.permitDelayEnd f) s = .next t ∧
    (inst t.isl f.val).permit = false ∧ (inst t.isl f.val).timer = none ∧ bit t.isl.permits f.val = false ∧
    (inst t.isl f.val).state = (inst s.isl f.val).state := by
  obtain ⟨x, hx⟩ : ∃ x, x = { inst s.isl f.val with permit := false, timer := none, unlockT := 0 } := ⟨_, rfl⟩
  have hinst : inst (setInst s.isl f.val x) f.val = x := by rw [inst_setInst, if_pos rfl]
  refine ⟨islandSettle { s with isl := setInst s.isl f.val x }, ?_, ?_⟩
  · rw [hx]; exact congrArg _ (if_pos (by simp [h4, hf, ht]))
  · rw [islandSettle_isl]
    simp only [inst_islandAfter, hinst]
    refine ⟨by rw [hx], by rw [hx], bit_permits (by rw [hinst, hx]), by rw [hx]⟩

theorem unlockRundownEnd_unlocks (hk : rd (blkFn s.isl.block f.val) 0 1 = 2) (hu : unlockReq s.isl f.val = true)
    (hp : (inst s.isl f.val).permit = false) : ∃ t, exec (.unlockRundownEnd f) s = .next t ∧
      inst t.isl f.val = { inst s.isl f.val with unlockOn := true } ∧ t.isl.state = 4 := by
  refine ⟨islandSettle { s with isl := setInst s.isl f.val { inst s.isl f.val with unlockOn := true } }, ?_, ?_⟩
  · exact congrArg _ (if_pos (by simp [h4, hf, hk, hu, hp]))
  · rw [islandSettle_isl]
    exact ⟨by rw [inst_islandAfter, inst_setInst, if_pos rfl], h4⟩

end

theorem upd_unchanged {f : Dev → Dev} (hs : Settled s) (hf : f s.dev = s.dev) : upd s f = s := by
  rw [upd_settled s f (by rw [hf]; exact hs.1) (by rw [hf]; exact hs.2), hf]

theorem countChars_zero (d : Dev) (g : Nat) (c : Chan) : countChars d g c 0 0 = d := rfl

/-- The PDU of a safety node in its frame, of an unbroken line that sends, in its cycle and its window (R216, R349). -/
theorem fieldFrameReceived_pdu {l : Line} {k : FNode} {cable : Chan} {dev : BitVec 32} {alarm waited : Bool} {p : Bytes} (hs : Settled s)
    (hsend : sending s.dev (lseg l.val) = true) (hpres : linePresent (mould s.dev (lseg l.val)) k.val = true) (hdev : dev.toInt.natAbs ≤ 800) :
    ∃ t, exec (.fieldFrameReceived l k 2 cable true 0 0 dev alarm waited (BitVec.ofNat 3 (segCycle s.dev (lseg l.val))) p) s = .next t ∧
      t.isl = islandAfter (islandNodePdu s.isl l.val k.val p) := by
  have hcount : upd s (fun d => if ready d (18 + lseg l.val) then countChars d (lseg l.val) cable 0 0 else d) = s :=
    upd_unchanged hs (by rw [countChars_zero, ite_self])
  have hcyc : (BitVec.ofNat 3 (segCycle s.dev (lseg l.val))).toNat = segCycle s.dev (lseg l.val) % 8 := BitVec.toNat_ofNat ..
  have hin : frameClass dev.toInt ≠ .out := by
    unfold frameClass
    split
    · decide
    · decide
  obtain ⟨t, ht⟩ : ∃ t, t = upd s (fun d => noteDeviation d (lseg l.val) k.val (receivingPair d l.val) dev.toInt waited) := ⟨_, rfl⟩
  have hisl : t.isl = s.isl := by rw [ht, upd_isl]
  refine ⟨islandSettle { t with isl := islandNodePdu t.isl l.val k.val p }, ?_, by rw [islandSettle_isl, hisl]⟩
  show execFieldFrameReceived .. = _
  rw [execFieldFrameReceived]
  dsimp only
  rw [show (0 : BitVec 8).toNat = 0 from rfl, hcount, if_neg (by simp [hsend, hpres]), if_neg (by simp), if_neg (by rw [hcyc]; simp),
    if_neg (by decide), if_neg (by decide), if_pos rfl, ← ht, if_neg hin]

theorem islandNodePdu_takes {i : IslandSt} {l k n : Nat} {p : Bytes} {x : SafeIn} (hn : n < blkIns i.block)
    (huniq : ∀ m, m < blkIns i.block → (rd (blkIn i.block m) 0 1 = l ∧ rd (blkIn i.block m) 1 2 = k ↔ m = n))
    (hx : x = tget (fun _ => SafeIn.reset) i.nodeIn n) (hgood : pduGood (blkDomain i.block) p = true) (hconn : rd p 0 2 = 0x4000 + 1024 * l + k) :
    (x.seq ≠ some (rd p 2 2) → tget (fun _ => SafeIn.reset) (islandNodePdu i l k p).nodeIn n = ⟨some (rd p 2 2), some 0, rd p 4 8⟩) ∧
    (x.seq = some (rd p 2 2) → tget (fun _ => SafeIn.reset) (islandNodePdu i l k p).nodeIn n = { x with bits := x.bits &&& rd p 4 8 }) := by
  have hfind : (List.range (blkIns i.block)).find? (fun n => rd (blkIn i.block n) 0 1 = l && rd (blkIn i.block n) 1 2 = k) = some n := by
    rw [List.find?_range_eq_some]
    refine ⟨by simpa using (huniq n hn).mpr rfl, List.mem_range.mpr hn, fun j hj => ?_⟩
    have hne : ¬ (rd (blkIn i.block j) 0 1 = l ∧ rd (blkIn i.block j) 1 2 = k) := fun h => by
      have := (huniq j (by omega)).mp h; omega
    rw [Bool.not_eq_true', Bool.eq_false_iff]
    simpa using hne
  unfold islandNodePdu
  rw [hfind]
  dsimp only
  rw [← hx, hgood, hconn]
  refine ⟨fun hseq => ?_, fun hseq => ?_⟩
  · rw [if_pos (by simpa using hseq)]
    simp only [tget_tput_same]
  · rw [if_neg (by simp [hseq]), if_pos (by simp)]
    simp only [tget_tput_same]

theorem islandPartnerPdu_takes {i : IslandSt} {p : Bytes} {x : SafeIn} (hx : x = tget (fun _ => SafeIn.reset) i.partner (rd p 0 2)) :
    (pduGood (blkDomain i.block) p = false → (islandPartnerPdu i p).partner = i.partner) ∧
    (pduGood (blkDomain i.block) p = true → x.seq ≠ some (rd p 2 2) →
      tget (fun _ => SafeIn.reset) (islandPartnerPdu i p).partner (rd p 0 2) = ⟨some (rd p 2 2), some 0, rd p 4 8⟩) := by
  unfold islandPartnerPdu
  dsimp only
  rw [← hx]
  refine ⟨fun h => ?_, fun h hseq => ?_⟩
  · rw [h, Bool.false_and, if_neg Bool.false_ne_true, if_neg Bool.false_ne_true]
  · rw [h, if_pos (by simpa using hseq)]
    simp only [tget_tput_same]

theorem pairSafetyMessage_bad {ps : List Bytes} (h9 : og s.dev 0x3C01 9 ≠ 0) (hc : og s.dev 0x3C02 8 < 0xFFFFFFFE) :
    Leaves (.pairSafetyMessage false ps) s (fun d => og d 0x3C02 8 = og s.dev 0x3C02 8 + 1 ∧ ObjsKept s.dev d [okey 0x3C02 8]) := by
  refine .of_upd (f := badMessage) rfl ?_
  rw [badMessage, if_neg h9, bump_counts hc]
  exact ⟨(og_later ..).trans (og_os_same ..), ((ObjsKept.refl s.dev _).os 0x3C02 8 (og s.dev 0x3C02 8 + 1) (by simp)).congr rfl⟩

theorem pairSafetyMessage_taken {ps : List Bytes} (hr : ready s.dev 31 = true) (h0 : s.isl.state ≠ 0) :
    ∃ t, exec (.pairSafetyMessage true ps) s = .next t ∧ t.isl = islandAfter (ps.foldl islandPartnerPdu s.isl) := by
  refine ⟨islandSettle { s with isl := ps.foldl islandPartnerPdu s.isl, dev := { s.dev with pair := { s.dev.pair with safety := ps } } },
    ?_, by rw [islandSettle_isl]⟩
  show execPairSafetyMessage true ps s = _
  rw [execPairSafetyMessage, if_neg (by simp), if_pos (by simp [hr, h0])]

/-- Settles O53: each command of the island by what it changes there, and what follows of every change. -/
theorem islandStartsFailsAndEvaluates : Obligations.IslandStartsFailsAndEvaluates := by
  unfold Obligations.IslandStartsFailsAndEvaluates
  refine ⟨fun dis clk mis sup pinB low read ovr o pass ok s => ⟨islandCycle_idles, fun c => islandCycle_faults, islandCycle_runs, fun h1 => ?_,
      fun h1 => ⟨islandSelfTestDone_fails h1, islandSelfTestDone_passes h1⟩, fun hr => ?_, islandRestart_restarts, soOffPulse_faults,
      soOffPulse_idles, vsoRangeChange_follows ok⟩,
    fun i level srcB low f l k cable dev alarm waited p s => ⟨fun h => ?_, siChangeAccepted_changes, fun h => ?_, testPulse_tests,
      fun h4 hf => ⟨discrepancyTimeout_faults h4 hf, permitDelayEnd_ends h4 hf, fun ht => ?_, unlockRundownEnd_unlocks h4 hf, fun hp => ?_⟩,
      fun h4 => ⟨?_, ?_, ?_⟩, fun n x hn huniq hsend hpres hs hdev hx hgood hconn => ?_, fun h => ?_, pairSafetyMessage_bad,
      fun x hr h0 hx => ?_⟩⟩
  · exact congrArg _ (if_pos (by simpa using h1))
  · exact congrArg _ (if_pos (by simp [hr]))
  · exact congrArg _ (if_pos (by simpa using h))
  · exact (exec_testPulse srcB low s).trans (by rw [if_pos (by simpa using h)])
  · exact congrArg _ (if_neg (by simp [ht]))
  · exact congrArg _ (if_neg (by simp [hp]))
  · exact congrArg _ (if_neg (by simp [h4]))
  · exact congrArg _ (if_neg (by simp [h4]))
  · exact congrArg _ (if_neg (by simp [h4]))
  · obtain ⟨t, hexec, hisl⟩ := fieldFrameReceived_pdu (cable := cable) (alarm := alarm) (waited := waited) (p := p) hs hsend hpres hdev
    obtain ⟨hnew, hold⟩ := islandNodePdu_takes hn huniq hx hgood hconn
    exact ⟨t, hexec, fun hseq => by rw [hisl]; exact hnew hseq, fun hseq => by rw [hisl]; exact hold hseq⟩
  · show execPairSafetyMessage true [p] s = _
    rw [execPairSafetyMessage, if_neg (by simp), if_neg (by rcases h with h | h <;> simp [h])]
  · obtain ⟨t, hexec, hisl⟩ := pairSafetyMessage_taken (ps := [p]) hr h0
    obtain ⟨hbad, hgood⟩ := islandPartnerPdu_takes (p := p) hx
    exact ⟨t, hexec, fun hb => by rw [hisl]; exact hbad hb, fun hg hseq => by rw [hisl]; exact hgood hg hseq⟩

end Sys2Proof.Machine
end

section
/-! ## The shared memory: the restore of a region corrects it -/
namespace Sys2Proof.Machine

/-- A background test has its region in the spare, and a single-bit error is in the region's first word. -/
def restoringWithError : State :=
  { State.reset with mem := { MemSt.reset with single := [0] }, dev := { Dev.reset with memt := { Dev.reset.memt with testing := true } } }

theorem regionRestore_copies {s : State} (h : s.dev.memt.testing = true) :
    ∃ u, exec .regionRestore s = .next (upd u id) ∧ u.mem = (copyRegion s (s.dev.memt.ms % 2048)).mem :=
  ⟨_, congrArg _ (if_neg (by simp [h])), rfl⟩

theorem copyRegion_corrects : (copyRegion restoringWithError 0).mem.single = [] := by
  have hin : 0 ∈ (testedBanks restoringWithError.dev).flatMap (fun b => (regionWords b 0).filter (fun w => restoringWithError.mem.single.contains w)) :=
    List.mem_flatMap.mpr ⟨0, by decide, by decide⟩
  unfold copyRegion
  exact List.filter_eq_nil_iff.mpr fun w hw => by
    obtain rfl : w = 0 := by simpa [restoringWithError] using hw
    simpa using hin

/-- Refutes O55: the words of a region go back into place through SECDED (R405), so that a single-bit error among them is corrected by the
restore and the memory does not stay as it was. -/
theorem not_memoryServesAndIsTested : ¬ Obligations.MemoryServesAndIsTested := by
  unfold Obligations.MemoryServesAndIsTested
  rintro ⟨-, h⟩
  have hs : Settled restoringWithError := by unfold Settled; decide
  obtain ⟨-, -, -, -, -, -, -, hrestore, -⟩ := h 0 0 [] 0 false 0 0 restoringWithError hs
  obtain ⟨t, hexec, hmem, -⟩ := hrestore rfl (by decide)
  obtain ⟨u, hu, hcopy⟩ := regionRestore_copies (s := restoringWithError) rfl
  have ht : t = upd u id := by rw [hu] at hexec; injection hexec with e; exact e.symm
  have hclean : t.mem.single = [] := by
    rw [ht]
    rcases upd_mem u id with e | e <;> rw [e]
    · rw [hcopy]; exact copyRegion_corrects
    · rfl
  rw [hmem] at hclean
  exact absurd hclean (by decide)

end Sys2Proof.Machine
end

section
/-! ## Nodes: a slot that is not four bytes long -/
namespace Sys2Proof.Machine

/-- An Integrated field node in its place that holds for the running field cycle a slot without bytes. -/
def emptySlotNode : NodeSt := { NodeSt.reset with addrA := some 0, lock := true, integrated := true, slots := [(0, [])] }

/-- The mould of a line with its one node present. -/
def oneNodeLine : Bytes := List.replicate 4 0 ++ [1] ++ List.replicate 35 0 ++ [1] ++ List.replicate 19 0

/-- A line with the node of the empty slot. -/
def emptySlotLine : State :=
  { State.reset with nodes := [(nkey 8 0, emptySlotNode)], dev := setSeg Dev.reset 8 { seg Dev.reset 8 with swap := some oneNodeLine } }

/-- Refutes O45: a node sends the slot it holds for the field cycle (R255) whatever its length, so that a state that holds one of no bytes
sends a frame of five. -/
theorem not_nodesSelectApplyAndSend : ¬ Obligations.NodesSelectApplyAndSend := by
  unfold Obligations.NodesSelectApplyAndSend
  rintro ⟨-, -, -, h⟩
  obtain ⟨hsend, -⟩ := h 0 0 0 .a 0 emptySlotLine (.line 0 0) emptySlotNode 0 rfl (by decide) (by decide +kernel)
  obtain ⟨-, hframe, -⟩ := hsend (by decide) (by decide) rfl rfl
  obtain ⟨t, f, m, hexec, hout, rfl, hlen, -⟩ := hframe rfl (by decide)
  have hdev : devOf (exec (.nodeSendInstant 0 0 0 .a 0) emptySlotLine) = t.dev := by rw [hexec]; rfl
  have hsent : (devOf (exec (.nodeSendInstant 0 0 0 .a 0) emptySlotLine)).out =
      [.node (.line 0 0) (fieldFrame 0 (frameHeader 0 true false 0) [])] := by decide +kernel
  rw [hdev, hout] at hsent
  obtain rfl : f = fieldFrame 0 (frameHeader 0 true false 0) [] := by injection hsent with e; injection e
  exact absurd hlen (by decide)

end Sys2Proof.Machine
end

section
/-! ## Nodes: windows, and what a change of a node leaves as it was -/
namespace Sys2Proof.Machine

@[simp] theorem nd_setNd_same (s : State) (n : NodeId) (x : NodeSt) : nd (setNd s n x) n = x := by
  rw [nd_setNd, if_pos rfl]

theorem nwin_setNwin (x : NodeSt) (i k : Nat) (w : WinSt) : nwin (setNwin x i w) k = if k = i then w else nwin x k :=
  tget_tput ..

/-- A node of which nothing but windows changed. -/
def WinsOnly (x y : NodeSt) : Prop := y = { x with wins := y.wins }

theorem WinsOnly.refl (x : NodeSt) : WinsOnly x x := rfl
theorem WinsOnly.setNwin {x y : NodeSt} (h : WinsOnly x y) (i : Nat) (w : WinSt) : WinsOnly x (setNwin y i w) := by
  unfold WinsOnly at *
  rw [h]; rfl

/-- A change of each of the first m windows of a node. -/
def winsChanged (f : Nat → WinSt → WinSt) (x : NodeSt) (m : Nat) : NodeSt :=
  (List.range m).foldl (fun x i => Sys2Proof.Machine.setNwin x i (f i (nwin x i))) x

theorem winsChanged_succ (f : Nat → WinSt → WinSt) (x : NodeSt) (m : Nat) :
    winsChanged f x (m + 1) = setNwin (winsChanged f x m) m (f m (nwin (winsChanged f x m) m)) := by
  unfold winsChanged
  rw [List.range_succ, List.foldl_append]; rfl

theorem winsChanged_frame (f : Nat → WinSt → WinSt) (x : NodeSt) (m : Nat) : WinsOnly x (winsChanged f x m) := by
  induction m with
  | zero => exact .refl x
  | succ m ih => rw [winsChanged_succ]; exact ih.setNwin _ _

theorem nwin_winsChanged (f : Nat → WinSt → WinSt) (x : NodeSt) (m k : Nat) :
    nwin (winsChanged f x m) k = if k < m then f k (nwin x k) else nwin x k := by
  induction m generalizing k with
  | zero => rfl
  | succ m ih =>
    rw [winsChanged_succ, nwin_setNwin, ih, ih]
    by_cases h : k = m
    · subst h; simp
    · rw [if_neg h]
      exact if_congr (by omega) rfl rfl

theorem nodeOff_eq (x : NodeSt) :
    nodeOff x = winsChanged (fun _ w => { w with gates := false, coilA := 0, coilB := 0 }) { x with outputs := false } 8 := rfl

theorem nodeOff_frame (x : NodeSt) : WinsOnly { x with outputs := false } (nodeOff x) := by
  rw [nodeOff_eq]; exact winsChanged_frame ..

theorem gates_nodeOff (x : NodeSt) {i : Nat} (h : i < 8) : (nwin (nodeOff x) i).gates = false := by
  rw [nodeOff_eq, nwin_winsChanged, if_pos h]

/-- The node at the start of a cycle, before its windows count it. -/
def cycleBegun (x : NodeSt) (half : Bool) : NodeSt :=
  { x with half := half, prev := x.best, best := none, bestClaim := 0, noCopy := x.best.isNone, up := none }

theorem beginCycle_frame (wins : Nat) (x : NodeSt) (half : Bool) : WinsOnly (cycleBegun x half) (beginCycle wins x half) :=
  winsChanged_frame (fun _ w => { w with owed := min 2 (w.owed + 1) }) (cycleBegun x half) wins

theorem nwin_beginCycle (wins : Nat) (x : NodeSt) (half : Bool) (i : Nat) :
    (nwin (beginCycle wins x half) i).word = (nwin x i).word ∧ (nwin (beginCycle wins x half) i).gates = (nwin x i).gates := by
  have h := nwin_winsChanged (fun _ w => { w with owed := min 2 (w.owed + 1) }) (cycleBegun x half) wins i
  change nwin (beginCycle wins x half) i = _ at h
  rw [h]
  split <;> exact ⟨rfl, rfl⟩

theorem beginHalf_self {b : Bytes} {n : NodeId} {x : NodeSt} (h : ringNode n = false ∨ mouldTight b = false ∨ x.half = true) :
    beginHalf b n x = x := by
  unfold beginHalf
  rw [if_neg (by rcases h with h | h | h <;> simp [h])]

theorem beginHalf_cases (b : Bytes) (n : NodeId) (x : NodeSt) :
    beginHalf b n x = x ∨ beginHalf b n x = beginCycle (applyCount b n) x true := by
  unfold beginHalf
  split
  · exact .inr rfl
  · exact .inl rfl

/-- What of a node the begin of its second half cycle leaves as it was. -/
structure HalfKept (x y : NodeSt) : Prop where
  counters : y.counters = x.counters
  timeCyc : y.timeCyc = x.timeCyc
  miss : y.miss = x.miss
  corr : y.corr = x.corr
  s1 : y.s1 = x.s1
  s2 : y.s2 = x.s2
  outputs : y.outputs = x.outputs
  lock : y.lock = x.lock
  wins : ∀ i, (nwin y i).word = (nwin x i).word ∧ (nwin y i).gates = (nwin x i).gates

theorem beginCycle_kept (wins : Nat) (x : NodeSt) (half : Bool) : HalfKept x (beginCycle wins x half) := by
  have h := beginCycle_frame wins x half
  unfold WinsOnly at h
  constructor <;> first | exact nwin_beginCycle wins x half | (rw [h]; rfl)

theorem beginHalf_kept (b : Bytes) (n : NodeId) (x : NodeSt) : HalfKept x (beginHalf b n x) := by
  rcases beginHalf_cases b n x with h | h <;> rw [h]
  · exact ⟨rfl, rfl, rfl, rfl, rfl, rfl, rfl, rfl, fun _ => ⟨rfl, rfl⟩⟩
  · exact beginCycle_kept ..

/-! Bytes of a sample. -/

theorem length_patch {b v : Bytes} {o : Nat} (h : o + v.length ≤ b.length) : (patch b o v).length = b.length := by
  simp [patch]; omega

theorem slice_patch_self {b v : Bytes} {o n : Nat} (hn : v.length = n) (h : o ≤ b.length) : slice (patch b o v) o n = v := by
  have htake : (b.take o).length = o := by simp; omega
  unfold patch
  rw [List.append_assoc, slice_append_right (by omega), htake, Nat.sub_self, slice_append_left (by omega), slice_all hn]

theorem slice_patch_other {b v : Bytes} {o p n : Nat} (h : o + v.length ≤ b.length) (hd : p + n ≤ o ∨ o + v.length ≤ p) :
    slice (patch b o v) p n = slice b p n := by
  have htake : (b.take o).length = o := by simp; omega
  unfold patch
  rcases hd with hd | hd
  · rw [List.append_assoc, slice_append_left (by omega)]
    unfold slice
    rw [List.drop_take, List.take_take, Nat.min_eq_left (by omega)]
  · rw [slice_append_right (by simp; omega)]
    unfold slice
    rw [List.drop_drop, List.length_append, htake, show o + v.length + (p - (o + v.length)) = p by omega]

theorem length_cleanSample {kind : Nat} (h : kind < 4) (w : Bytes) : (cleanSample kind w).length = winSize kind := by
  have hfull : ((w ++ List.replicate (winSize kind - w.length) 0).take (winSize kind)).length = winSize kind := by simp; omega
  have hsize : 16 ≤ winSize kind ∧ (kind = 3 → winSize kind = 24) := by interval_cases kind <;> decide
  obtain ⟨hmin, hthree⟩ := hsize
  unfold cleanSample
  dsimp only
  split
  · rw [length_patch (by rw [hfull, length_leBytes]; omega), hfull]
  · have hpatched := length_patch (o := 0) (v := leBytes 2 (rd ((w ++ List.replicate (winSize kind - w.length) 0).take (winSize kind)) 0 2 % 32))
      (b := (w ++ List.replicate (winSize kind - w.length) 0).take (winSize kind)) (by rw [hfull, length_leBytes]; omega)
    split
    next h3 => rw [length_patch (by rw [hpatched, hfull, hthree h3]; decide), hpatched, hfull]
    next => rw [hpatched, hfull]

/-- A window of a ring node's sample: what it measured, the stamp, and the position of a stepper. -/
def stampedWindow (kind : Nat) (stamp : Int) (pos : Nat) (raw : Bytes) : Bytes :=
  let w := patch (cleanSample kind raw) (stampOffset kind) (leBytes 4 (pat 32 stamp))
  if kind < 2 then w else patch w (if kind = 2 then 6 else 14) (leBytes 4 pos)

theorem stampedWindow_spec {kind : Nat} (h : kind < 4) (stamp : Int) (pos : Nat) (raw : Bytes) :
    (stampedWindow kind stamp pos raw).length = winSize kind ∧
      slice (stampedWindow kind stamp pos raw) (stampOffset kind) 4 = leBytes 4 (pat 32 stamp) := by
  have hclean := length_cleanSample h raw
  have hroom : stampOffset kind + 4 ≤ winSize kind := by interval_cases kind <;> decide
  have hlen : (patch (cleanSample kind raw) (stampOffset kind) (leBytes 4 (pat 32 stamp))).length = winSize kind := by
    rw [length_patch (by rw [length_leBytes, hclean]; exact hroom), hclean]
  have hstamp : slice (patch (cleanSample kind raw) (stampOffset kind) (leBytes 4 (pat 32 stamp))) (stampOffset kind) 4 = leBytes 4 (pat 32 stamp) :=
    slice_patch_self (length_leBytes ..) (by rw [hclean]; omega)
  unfold stampedWindow
  dsimp only
  split
  · exact ⟨hlen, hstamp⟩
  next h2 =>
    have hpos : (if kind = 2 then 6 else 14) + 4 ≤ winSize kind ∧ (if kind = 2 then 6 else 14) + 4 ≤ stampOffset kind := by
      obtain rfl | rfl : kind = 2 ∨ kind = 3 := by omega
      all_goals decide
    obtain ⟨hfit, hbefore⟩ := hpos
    refine ⟨by rw [length_patch (by rw [length_leBytes, hlen]; exact hfit), hlen], ?_⟩
    rw [slice_patch_other (by rw [length_leBytes, hlen]; exact hfit) (.inr (by rw [length_leBytes]; exact hbefore)), hstamp]

/-- Parts of known sizes one after another: what part i holds stands behind the parts before it. -/
theorem slice_flatMap_range {f : Nat → Bytes} {size : Nat → Nat} (hsize : ∀ i, (f i).length = size i) {n i o m : Nat} (hi : i < n) (hm : o + m ≤ size i) :
    slice ((List.range n).flatMap f) (((List.range i).map size).sum + o) m = slice (f i) o m := by
  have hlen : ∀ k, ((List.range k).flatMap f).length = ((List.range k).map size).sum := fun k => by
    rw [List.length_flatMap]
    simp only [hsize]
  induction n with
  | zero => omega
  | succ n ih =>
    rw [List.range_succ, List.flatMap_append]
    rcases Nat.lt_succ_iff_lt_or_eq.mp hi with h | rfl
    · have hfits : ((List.range i).map size).sum + size i ≤ ((List.range n).map size).sum := by
        obtain ⟨k, rfl⟩ : ∃ k, n = i + 1 + k := ⟨n - (i + 1), by omega⟩
        rw [List.range_add, List.map_append, List.sum_append, List.range_succ, List.map_append, List.sum_append]
        simp
      rw [slice_append_left (by rw [hlen]; omega), ih h]
    · rw [slice_append_right (by rw [hlen]; omega), hlen, Nat.add_sub_cancel_left, List.flatMap_cons, List.flatMap_nil, List.append_nil]

/-- What the stages and the latch of a window take from its sample. -/
def sampledWins (b : Bytes) (j : Nat) (t : Int) (w : Nat → Bytes) (y : NodeSt) (i : Nat) : NodeSt :=
  let st := nwin y i
  if 2 ≤ winKind b j i then setNwin y i (windCoils y st t)
  else if winKind b j i = 0 && st.latch.isNone && bit (rd st.word 0 2) 2 && bit (rd (w i) 12 1) 3 then
    setNwin y i { st with latch := some (servoCounts (w i) + sgn 24 (rd (w i) 13 3)) }
  else y

theorem sampledWins_frame {b : Bytes} {j : Nat} {t : Int} {w : Nat → Bytes} {x y : NodeSt} (i : Nat) (h : WinsOnly x y) :
    WinsOnly x (sampledWins b j t w y i) := by
  unfold sampledWins
  dsimp only
  split
  · exact h.setNwin _ _
  · split
    · exact h.setNwin _ _
    · exact h

/-- The windows of a ring node's sample. -/
def sampleWindow (b : Bytes) (j : Nat) (stamp t : Int) (data : Bytes) (x : NodeSt) (i : Nat) : Bytes :=
  stampedWindow (winKind b j i) stamp (stepperPos (nwin x i) t).toNat (slice data (winOffset b j i) (winSize (winKind b j i)))

theorem ringSample_frame (b : Bytes) (j : Nat) (stamp t : Int) (data : Bytes) (x : NodeSt) : ∃ e,
    WinsOnly { x with sample := (List.range (winCount b j)).flatMap (sampleWindow b j stamp t data x), err := e } (ringSample b j stamp t data x) :=
  ⟨_, foldl_invariant (fun _ i h => sampledWins_frame (w := sampleWindow b j stamp t data x) i h) _ _ (.refl _)⟩

theorem winKind_lt (b : Bytes) (j i : Nat) : winKind b j i < 4 := by
  unfold winKind bits
  omega

/-! The commands. -/

/-- The node after a cycle's start, before its corrections: a new cycle begun and the watchdogs run on. -/
def cycleStarted (s : State) (n : NodeId) (x : NodeSt) : NodeSt :=
  ageWatch (if ringNode n then 32 else 32 * mouldNb (nodeMould s n)) (if ringNode n then blkWdRing s.isl.block else blkWdLine s.isl.block)
    (beginCycle (applyCount (nodeMould s n) n) (beginHalf (nodeMould s n) n x) false)

/-- The corrections of pair p that a node has received. -/
def correctionSum (x : NodeSt) (p : Nat) : Int := ((x.corr.filter (fun c => c.1 = p)).map (·.2)).foldl (· + ·) 0

/-- The corrections of a cycle take effect and what was kept of cycles gone by is dropped. -/
def cycleTurned (x : NodeSt) (c1 c0 : Int) : NodeSt :=
  { x with copied := x.counters, timeCyc := x.timeCyc + 1, miss := x.miss + 1, s1 := x.s1 + c1, s2 := x.s2 + c0,
           corr := [], due := x.due.filter (fun q => x.timeCyc < q), recs := x.recs.drop (x.recs.length - 4),
           slots := x.slots.drop (x.slots.length - 4) }

theorem exec_nodeCycleStart (n : NodeId) (s : State) : ∃ y, HalfKept (nd s n) y ∧ y.best = none ∧ y.bestClaim = 0 ∧ y.half = false ∧
    (beginHalf (nodeMould s n) n (nd s n) = nd s n → y.prev = (nd s n).best ∧ y.noCopy = (nd s n).best.isNone) ∧
    exec (.nodeCycleStart n) s = .next (setNd s n (cycleTurned y (correctionSum (nd s n) 1) (correctionSum (nd s n) 0))) := by
  have hhalf := beginHalf_kept (nodeMould s n) n (nd s n)
  have hcycle := beginCycle_kept (applyCount (nodeMould s n) n) (beginHalf (nodeMould s n) n (nd s n)) false
  have hframe := beginCycle_frame (applyCount (nodeMould s n) n) (beginHalf (nodeMould s n) n (nd s n)) false
  unfold WinsOnly at hframe
  refine ⟨cycleStarted s n (nd s n), ?_, ?_, ?_, ?_, fun hb => ?_, ?_⟩
  · exact ⟨hcycle.counters.trans hhalf.counters, hcycle.timeCyc.trans hhalf.timeCyc, hcycle.miss.trans hhalf.miss, hcycle.corr.trans hhalf.corr,
      hcycle.s1.trans hhalf.s1, hcycle.s2.trans hhalf.s2, hcycle.outputs.trans hhalf.outputs, hcycle.lock.trans hhalf.lock,
      fun i => ⟨(hcycle.wins i).1.trans (hhalf.wins i).1, (hcycle.wins i).2.trans (hhalf.wins i).2⟩⟩
  · show (beginCycle _ _ _).best = none
    rw [hframe]; rfl
  · show (beginCycle _ _ _).bestClaim = 0
    rw [hframe]; rfl
  · show (beginCycle _ _ _).half = false
    rw [hframe]; rfl
  · show (beginCycle _ _ _).prev = _ ∧ (beginCycle _ _ _).noCopy = _
    rw [hframe, hb]; exact ⟨rfl, rfl⟩
  · rfl

/-- A node that has lost its place, its outputs still as they were. -/
def displaced (x : NodeSt) : NodeSt :=
  { x with lock := false, addrA := none, addrB := none, sched := none, integrated := false, spSync := false, best := none,
           prev := none, bestClaim := 0, up := none, foreign := 0 }

variable {n : NodeId} {r : Ring} {j : RNode} {l : Line} {k : FNode} {w : Win} {c : Chan} {count counter tag : BitVec 16} {off : BitVec 32}
  {data : Bytes} {s : State} {x : NodeSt}

theorem nodeCycleStart_turns (hx : x = nd s n) : ∃ t, exec (.nodeCycleStart n) s = .next t ∧ t.dev = s.dev ∧ (nd t n).copied = x.counters ∧
    (nd t n).timeCyc = x.timeCyc + 1 ∧ (nd t n).miss = x.miss + 1 ∧ (nd t n).best = none ∧ (nd t n).bestClaim = 0 ∧ (nd t n).half = false ∧
    (ringNode n = false ∨ mouldTight (nodeMould s n) = false ∨ x.half = true → (nd t n).prev = x.best ∧ (nd t n).noCopy = x.best.isNone) ∧
    (nd t n).corr = [] ∧ (x.corr = [] → (nd t n).s1 = x.s1 ∧ (nd t n).s2 = x.s2) ∧
    (∀ v, x.corr = [(1, v)] → (nd t n).s1 = x.s1 + v ∧ (nd t n).s2 = x.s2) ∧ (nd t n).outputs = x.outputs ∧
    (∀ i, (nwin (nd t n) i).word = (nwin x i).word ∧ (nwin (nd t n) i).gates = (nwin x i).gates) := by
  subst hx
  obtain ⟨y, hkept, hbest, hclaim, hhalf, hprev, hexec⟩ := exec_nodeCycleStart n s
  refine ⟨_, hexec, rfl, ?_⟩
  rw [nd_setNd_same]
  refine ⟨hkept.counters, by rw [cycleTurned, hkept.timeCyc], by rw [cycleTurned, hkept.miss], hbest, hclaim, hhalf,
    fun h => hprev (beginHalf_self h), rfl, fun h => ?_, fun v h => ?_, hkept.outputs, hkept.wins⟩
  · simp [cycleTurned, correctionSum, h, hkept.s1, hkept.s2]
  · simp [cycleTurned, correctionSum, h, hkept.s1, hkept.s2]

theorem nodeFrameLockLost_unlocks (hx : x = nd s n) (hl : x.lock = true)
    (h : (if ringNode n then 32 else 8) ≤ x.miss ∨ (if ringNode n then 8 else 4) ≤ x.foreign) :
    ∃ t, exec (.nodeFrameLockLost n) s = .next t ∧ t.dev = s.dev ∧ (nd t n).lock = false ∧ (nd t n).addrA = none ∧ (nd t n).addrB = none ∧
      (nd t n).sched = none ∧ (nd t n).integrated = false ∧ (nd t n).outputs = false ∧ (∀ i, i < 8 → (nwin (nd t n) i).gates = false) ∧
      (nd t n).sto = x.sto := by
  subst hx
  have hlost : lockMiss n ≤ (nd s n).miss ∨ lockRun n ≤ (nd s n).foreign := h
  refine ⟨setNd s n (unlockNode (nd s n)), congrArg _ (if_pos (by simpa [hl] using hlost)), rfl, ?_⟩
  rw [nd_setNd_same]
  have hframe := nodeOff_frame (displaced (nd s n))
  change WinsOnly _ (unlockNode (nd s n)) at hframe
  have hgates : ∀ i, i < 8 → (nwin (unlockNode (nd s n)) i).gates = false := fun i hi => gates_nodeOff _ hi
  unfold WinsOnly at hframe
  rw [hframe]
  exact ⟨rfl, rfl, rfl, rfl, rfl, rfl, fun i hi => hframe ▸ hgates i hi, rfl⟩

theorem safetyWatchdogExpiry_takesTorque (hx : x = nd s n) : ∃ t, exec (.safetyWatchdogExpiry n) s = .next t ∧ t.dev = s.dev ∧ (nd t n).watch = [] ∧
    (nd t n).sto = true ∧ (nd t n).outputs = false ∧ (∀ i, i < 8 → (nwin (nd t n) i).gates = false) ∧ (nd t n).lock = x.lock ∧
    (nd t n).integrated = x.integrated := by
  subst hx
  refine ⟨setNd s n (nodeOff { nd s n with watch := [], sto := true }), rfl, rfl, ?_⟩
  rw [nd_setNd_same]
  have hframe := nodeOff_frame { nd s n with watch := [], sto := true }
  unfold WinsOnly at hframe
  exact ⟨by rw [hframe], by rw [hframe], by rw [hframe], fun i hi => gates_nodeOff _ hi, by rw [hframe], by rw [hframe]⟩

/-- Whether a roll-call frame comes in on the open end of an unpaired line. -/
def rollOpen (s : State) (n : NodeId) (c : Chan) : Bool := !ringNode n && c = .b && !mouldPaired (nodeMould s n)

/-- The address that a roll-call frame of the counter m of N gives. -/
def rollAddress (s : State) (n : NodeId) (c : Chan) (N m : Nat) : Option Nat :=
  if ringNode n then (if c = .a then some (m + 1) else if m < N then some (N - m) else none)
  else if c = .a then some m else if !rollOpen s n c && m < N then some (N - 1 - m) else none

/-- A node that heard an address on a channel. -/
def addressed (x : NodeSt) (c : Chan) (a : Option Nat) : NodeSt :=
  if c = .a then { x with addrA := a, syncA := true } else { x with addrB := a, syncB := true }

/-- The counter that a node counts up in a roll-call frame. -/
def rollCounted (n : NodeId) (m : Nat) : Msg := .node n (leBytes 2 (m + 1) ++ leBytes 2 (crc16Node 0 (leBytes 2 (m + 1))))

theorem inputSync_addressed (x : NodeSt) (c : Chan) (a : Option Nat) :
    inputSync (if c = .a then { x with addrA := a } else { x with addrB := a }) c true = addressed x c a := by
  unfold inputSync addressed
  split <;> rfl

theorem exec_nodeRollCallFrame : exec (.nodeRollCallFrame n c count counter) s = .next (if rollOpen s n c then s
    else setNd { s with dev := emit s.dev (rollCounted n counter.toNat) } n (addressed (nd s n) c (rollAddress s n c count.toNat counter.toNat))) := by
  rw [← inputSync_addressed]; rfl

theorem rollAddress_spec {a : Option Nat} (h : ringNode n = true ∧ c = .a ∧ a = some (counter.toNat + 1) ∨
      ringNode n = true ∧ c = .b ∧ a = (if counter.toNat < count.toNat then some (count.toNat - counter.toNat) else none) ∨
      ringNode n = false ∧ c = .a ∧ a = some counter.toNat ∨
      ringNode n = false ∧ c = .b ∧ mouldPaired (nodeMould s n) = true ∧
        a = (if counter.toNat < count.toNat then some (count.toNat - 1 - counter.toNat) else none)) :
    rollOpen s n c = false ∧ rollAddress s n c count.toNat counter.toNat = a := by
  unfold rollAddress rollOpen
  rcases h with ⟨hr, rfl, rfl⟩ | ⟨hr, rfl, rfl⟩ | ⟨hr, rfl, rfl⟩ | ⟨hr, rfl, hp, rfl⟩
  · simp [hr]
  · simp [hr]
  · simp [hr]
  · simp [hr, hp]

theorem nodeSampleInstant_line (hx : x = nd s n) (hn : n = .line l k) (hd : data.length = 32) :
    ∃ t, exec (.nodeSampleInstant n off data) s = .next t ∧ t.dev = s.dev ∧ ∃ q, q = (if off.toInt < 0 then x.timeCyc + 1 else x.timeCyc) ∧
      nd t n = { x with sample := data, recs := x.recs.filter (fun p => p.1 != q) ++ [(q, data)] } := by
  subst hx hn
  have hrec : (data ++ List.replicate 32 0).take 32 = data := by rw [List.take_append_of_le_length (by omega), ← hd, List.take_length]
  refine ⟨_, rfl, rfl, _, rfl, ?_⟩
  show nd (setNd s _ _) _ = _
  rw [nd_setNd_same]
  simp only [hrec]

/-- The ring cycle a sample is for, counted in ring cycles. -/
def sampleCycle (b : Bytes) (o : Int) (x : NodeSt) : Nat := 2 * x.timeCyc + b2n x.half + (if o < 0 then (if mouldTight b then 1 else 2) else 0)

/-- The node when a ring sample begins its second half cycle, if it does. -/
def sampleTurn (b : Bytes) (n : NodeId) (o : Int) (x : NodeSt) : NodeSt := if x.sampT = sampleCycle b o x + 1 then beginHalf b n x else x

theorem sampleTurn_kept (b : Bytes) (n : NodeId) (o : Int) (x : NodeSt) : HalfKept x (sampleTurn b n o x) := by
  unfold sampleTurn
  split
  · exact beginHalf_kept ..
  · exact ⟨rfl, rfl, rfl, rfl, rfl, rfl, rfl, rfl, fun _ => ⟨rfl, rfl⟩⟩

/-- The sample of a ring node with the offset o from the start of its cycle. -/
def ringSampled (b : Bytes) (j : Nat) (o : Int) (data : Bytes) (x : NodeSt) : NodeSt :=
  ringSample b j o ((sampleCycle b o x : Nat) * (16000 * nsU) + o) data { x with sampT := sampleCycle b o x + 1 }

theorem exec_nodeSampleInstant_ring : exec (.nodeSampleInstant (.ring r j) off data) s = .next (setNd s (.ring r j)
    (ringSampled (nodeMould s (.ring r j)) (j.val + 1) off.toInt data (sampleTurn (nodeMould s (.ring r j)) (.ring r j) off.toInt (nd s (.ring r j))))) := rfl

theorem ringSampled_stamps (b : Bytes) (j : Nat) (o : Int) (data : Bytes) (x : NodeSt) {i : Nat} (hi : i < winCount b j) :
    slice (ringSampled b j o data x).sample (winOffset b j i + stampOffset (winKind b j i)) 4 = leBytes 4 (pat 32 o) := by
  obtain ⟨e, hframe⟩ := ringSample_frame b j o ((sampleCycle b o x : Nat) * (16000 * nsU) + o) data { x with sampT := sampleCycle b o x + 1 }
  unfold WinsOnly at hframe
  have hroom : stampOffset (winKind b j i) + 4 ≤ winSize (winKind b j i) := by
    have hkind := winKind_lt b j i
    interval_cases winKind b j i <;> decide
  rw [ringSampled, hframe]
  exact (slice_flatMap_range (fun k => (stampedWindow_spec (winKind_lt b j k) ..).1) hi hroom).trans (stampedWindow_spec (winKind_lt b j i) ..).2

theorem nodeSampleInstant_ring (hx : x = nd s n) (hn : n = .ring r j) :
    ∃ t, exec (.nodeSampleInstant n off data) s = .next t ∧ t.dev = s.dev ∧ (nd t n).outputs = x.outputs ∧ (nd t n).timeCyc = x.timeCyc ∧
      (nd t n).lock = x.lock ∧ ∀ i, i < winCount (nodeMould s n) (j.val + 1) →
        slice (nd t n).sample (winOffset (nodeMould s n) (j.val + 1) i + stampOffset (winKind (nodeMould s n) (j.val + 1) i)) 4 =
          leBytes 4 (pat 32 off.toInt) := by
  subst hx hn
  have hkept := sampleTurn_kept (nodeMould s (.ring r j)) (.ring r j) off.toInt (nd s (.ring r j))
  refine ⟨_, exec_nodeSampleInstant_ring, rfl, ?_⟩
  rw [nd_setNd_same]
  generalize sampleTurn (nodeMould s (.ring r j)) (.ring r j) off.toInt (nd s (.ring r j)) = y at hkept
  obtain ⟨e, hframe⟩ := ringSample_frame (nodeMould s (.ring r j)) (j.val + 1) off.toInt
    ((sampleCycle (nodeMould s (.ring r j)) off.toInt y : Nat) * (16000 * nsU) + off.toInt) data
    { y with sampT := sampleCycle (nodeMould s (.ring r j)) off.toInt y + 1 }
  change WinsOnly _ (ringSampled (nodeMould s (.ring r j)) (j.val + 1) off.toInt data y) at hframe
  unfold WinsOnly at hframe
  exact ⟨by rw [hframe]; exact hkept.outputs, by rw [hframe]; exact hkept.timeCyc, by rw [hframe]; exact hkept.lock,
    fun i hi => ringSampled_stamps _ _ _ _ _ hi⟩

end Sys2Proof.Machine
end

section
/-! ## Nodes: the place and the time of a node -/
namespace Sys2Proof.Machine

/-- Settles O44: each command by what it makes of its node. -/
theorem nodesTakeTheirPlaceAndTime : Obligations.NodesTakeTheirPlaceAndTime := by
  unfold Obligations.NodesTakeTheirPlaceAndTime
  intro n r j l k w c count counter tag off data s x hx
  refine ⟨fun ⟨hr, hc, hp⟩ => ?_, fun a h => ?_, fun hl hrun htag => ?_, fun h => ?_, nodeFrameLockLost_unlocks hx, fun h => ?_,
    nodeCycleStart_turns hx, nodeSampleInstant_line hx, nodeSampleInstant_ring hx, safetyWatchdogExpiry_takesTorque hx,
    fun hn => ⟨fun h => ?_, fun hp h => ?_, ?_, fun hw hk => ?_, fun hw => ?_⟩⟩
  · exact exec_nodeRollCallFrame.trans (by rw [if_pos (by simp [rollOpen, hr, hc, hp])])
  · obtain ⟨hopen, haddr⟩ := rollAddress_spec h
    refine ⟨_, exec_nodeRollCallFrame.trans (by rw [if_neg (by simp [hopen]), haddr]), ?_, rfl⟩
    rw [nd_setNd_same, hx]; rfl
  · subst hx
    have hrun' : lockRun n ≤ (nd s n).run := hrun
    refine ⟨setNd s n _, congrArg Host.Outcome.next (if_pos (by simp [hl, hrun', htag])), ?_, rfl⟩
    rw [nd_setNd_same]
  · have hfew : x.lock = true ∨ x.run < lockRun n ∨ x.runTag ≠ tag.toNat := h
    exact congrArg _ (if_neg (by rw [← hx]; rcases hfew with h | h | h <;> simp [h]))
  · have hfew : x.lock = false ∨ x.miss < lockMiss n ∧ x.foreign < lockRun n := h
    refine congrArg _ (if_neg ?_)
    rw [← hx]
    rcases hfew with h | ⟨h, h'⟩
    · simp [h]
    · simp [h, h']
  · subst hn hx
    refine ⟨_, rfl, rfl, ?_⟩
    simp only [updNode, nd_setNd_same, inputSync]
    rcases h with h | h <;> split <;> simp_all
  · subst hn hx
    refine ⟨_, rfl, rfl, ?_⟩
    simp only [updNode, nd_setNd_same, inputSync, hp, Bool.true_and]
    split <;> simp_all
  · subst hn hx
    refine ⟨_, rfl, rfl, ?_⟩
    simp only [updNode, nd_setNd_same, inputSync]
    split <;> rfl
  · subst hn hx
    refine ⟨updNode s (.ring r j) (fun x => setNwin x w.val { nwin x w.val with age := min 2 ((nwin x w.val).age + 1) }),
      congrArg Host.Outcome.next (if_pos (by simp [hw, hk])), rfl, ?_, ?_⟩
    · simp only [updNode, nd_setNd_same, nwin_setNwin, if_pos]
    · simp only [updNode, nd_setNd_same]; rfl
  · subst hn
    exact congrArg _ (if_neg (by simp [hw]))

end Sys2Proof.Machine
end

section
/-! ## The pair: its link, its state and the transfer -/
namespace Sys2Proof.Machine

/-! ### The link and the state -/

theorem linkClass_range (typ : Nat) (full : Bool) : 1 ≤ linkClass typ full ∧ linkClass typ full ≤ 6 := by
  unfold linkClass
  repeat' split
  all_goals decide

theorem linkOrder_one {m : LinkMsg} (hs : m.started = false) (hc : 1 ≤ m.cls ∧ m.cls ≤ 6) : linkOrder [m] = [m] := by
  have hclass : m.cls = 1 ∨ m.cls = 2 ∨ m.cls = 3 ∨ m.cls = 4 ∨ m.cls = 5 ∨ m.cls = 6 := by omega
  rcases hclass with h | h | h | h | h | h <;> simp [linkOrder, hs, h, List.range_succ]

/-- The device after a message of `size` bytes has left on a free link. -/
def linkSent (d : Dev) (typ size : Nat) (b : Bytes) : Dev :=
  { d with
    pair := { d.pair with used := d.pair.used + (14 + size), usedFwd := if linkClass typ false = 3 then d.pair.usedFwd + (14 + size) else d.pair.usedFwd }
    out := d.out ++ [.pair typ (d.time.k % 2 ^ 32) b] }

theorem serveOne_fits {d : Dev} {m : LinkMsg} (h : m.left ≤ linkBytes d - d.pair.used - (if m.cls = 3 then 0 else 2000 - d.pair.usedFwd)) :
    serveOne d m = { d with
      pair := { d.pair with used := d.pair.used + m.left, usedFwd := if m.cls = 3 then d.pair.usedFwd + m.left else d.pair.usedFwd }
      out := d.out ++ [.pair m.typ m.cycle m.data] } := by
  unfold serveOne
  dsimp only
  rw [Nat.min_eq_left h, if_pos rfl]; rfl

theorem link_free {d : Dev} (h : LinkFree d) {typ size : Nat} (b : Bytes) (hs : size ≤ 980) :
    servePair (queueLink d typ false size b) = linkSent d typ size b := by
  obtain ⟨hup, hqueue, hused⟩ := h
  have hq : queueLink d typ false size b =
      { d with pair := { d.pair with queue := [⟨linkClass typ false, typ, d.time.k % 2 ^ 32, 14 + size, false, b⟩] } } := by
    rw [queueLink, if_neg hup, hqueue]; rfl
  have hroom : 14 + size ≤ linkBytes d - d.pair.used - (if linkClass typ false = 3 then 0 else 2000 - d.pair.usedFwd) := by
    have hbytes : 8000 ≤ linkBytes d := by unfold linkBytes; split <;> omega
    split <;> omega
  rw [hq, servePair]
  dsimp only
  rw [linkOrder_one rfl (linkClass_range typ false), List.foldl_cons, List.foldl_nil, serveOne_fits hroom, linkSent]
  simp only [← hqueue]

theorem sendPair_free {d : Dev} (h : LinkFree d) {typ : Nat} {b : Bytes} (hs : b.length ≤ 980) : sendPair d typ b = linkSent d typ b.length b :=
  link_free h b hs

@[simp] theorem og_sendPair (d : Dev) (typ : Nat) (b : Bytes) (i c : Nat) : og (sendPair d typ b) i c = og d i c := by
  rw [sendPair_frame]; rfl

theorem bump_todo (d : Dev) (i c : Nat) {r : Report} (h : r ∈ d.fc.todo) : r ∈ (bump d i c).fc.todo := by
  unfold bump
  dsimp only
  split
  · exact h
  · split
    · exact List.mem_append_left _ h
    · exact h

theorem logEntry_todo (d : Dev) (e : LogEntry) {r : Report} (h : r ∈ d.fc.todo) : r ∈ (logEntry d e).fc.todo := by
  unfold logEntry
  split
  · split
    · exact bump_todo _ _ _ h
    · exact h
  · split
    · exact List.mem_append_left _ (bump_todo _ _ _ h)
    · exact h

theorem event_todo (d : Dev) (b c v : Nat) {r : Report} (h : r ∈ d.fc.todo) : r ∈ (event d b c v).1.fc.todo := by
  have hnumber : r ∈ (number d).1.fc.todo := by
    unfold number
    split
    · exact h
    · split
      · exact bump_todo _ _ _ h
      · exact h
  rcases event_cases d b c v with he | ⟨e, he⟩ <;> rw [he]
  · exact hnumber
  · exact logEntry_todo _ _ hnumber

theorem setPairState_noted (d : Dev) (st : Nat) : Noted d (setPairState d st) (okey 0x3C01 1 :: dropKeys) := by
  unfold setPairState
  split
  · exact .refl d _
  · exact Noted.trans (b := os d 0x3C01 1 st) ⟨rfl, (ObjsKept.refl d _).os _ _ _ (by simp), fun _ _ => rfl⟩ ((log_noted _ 4 1 st).mono (by simp))

theorem pairState_setPairState (d : Dev) (st : Nat) : pairState (setPairState d st) = st := by
  unfold setPairState
  split
  next h => exact h
  next => exact ((log_noted _ 4 1 st).og (by decide)).trans (og_os_same ..)

theorem pairState_os (d : Dev) {i c : Nat} (v : Nat) (h : okey 0x3C01 1 ≠ okey i c) : pairState (os d i c v) = pairState d := by
  rw [pairState, og_os, if_neg h]; rfl

theorem og_setPairState (d : Dev) (st : Nat) {c : Nat} (hc : c < 256) (h1 : c ≠ 1) : og (setPairState d st) 0x3C01 c = og d 0x3C01 c :=
  (setPairState_noted d st).og (by simp [dropKeys, okey]; omega)

theorem pair_setPairState (d : Dev) (st : Nat) : (setPairState d st).pair = d.pair := by rw [(setPairState_noted d st).frame]
theorem out_setPairState (d : Dev) (st : Nat) : (setPairState d st).out = d.out := by rw [(setPairState_noted d st).frame]
theorem time_setPairState (d : Dev) (st : Nat) : (setPairState d st).time = d.time := by rw [(setPairState_noted d st).frame]

theorem todo_setPairState (d : Dev) (st : Nat) {r : Report} (h : r ∈ d.fc.todo) : r ∈ (setPairState d st).fc.todo := by
  unfold setPairState
  split
  · exact h
  · exact event_todo _ _ _ _ h

/-- From `a` to `b` the collector logged and values of axes changed. -/
structure AxesNoted (a b : Dev) : Prop where
  frame : b = { a with objs := b.objs, host := b.host, fc := b.fc }
  og : ∀ i c, i < 0x8000 → okey i c ∉ dropKeys → c < 256 → Machine.og b i c = Machine.og a i c
  todo : ∀ r ∈ a.fc.todo, r ∈ b.fc.todo

theorem AxesNoted.refl (a : Dev) : AxesNoted a a := ⟨rfl, fun _ _ _ _ _ => rfl, fun _ h => h⟩
theorem AxesNoted.trans {a b c : Dev} (h : AxesNoted a b) (g : AxesNoted b c) : AxesNoted a c :=
  ⟨by rw [g.frame, h.frame], fun i j hi hj hc => (g.og i j hi hj hc).trans (h.og i j hi hj hc), fun r hr => g.todo r (h.todo r hr)⟩

theorem AxesNoted.of_event (d : Dev) (b c v : Nat) : AxesNoted d (event d b c v).1 :=
  ⟨by rw [event_frame], fun _ _ _ hk _ => (event_kept d b c v).og hk, fun _ h => event_todo _ _ _ _ h⟩

theorem AxesNoted.os {a b : Dev} (h : AxesNoted a b) (n o c v : Nat) (hc : c < 256) : AxesNoted a (Machine.os b (ax n o) c v) :=
  h.trans ⟨rfl, fun i j hi _ hj => by rw [og_os, if_neg (by unfold okey ax; omega)], fun _ h => h⟩

/-- What taking the drivers changes beside them (R322). -/
theorem takeOutputs_spec (d : Dev) : ∃ e, takeOutputs d = { e with pair := { e.pair with driving := true } } ∧ AxesNoted d e := by
  unfold takeOutputs
  split
  next h => exact ⟨d, by rw [← h], .refl d⟩
  next =>
    dsimp only
    have hfold : ∀ (l : List Nat) (e : Dev), AxesNoted e (l.foldl (fun d n => log (osb d (ax n 9) 4 0 false) (0x20 + cluster d n) 2 n) e) := by
      intro l e
      refine foldl_invariant (I := AxesNoted e) (fun f n hf => ?_) l e (.refl e)
      exact (hf.os n 9 4 _ (by decide)).trans (.of_event ..)
    generalize ((boundAxes _).filter _) = l
    have h := hfold l { d with pair := { d.pair with driving := true } }
    generalize l.foldl _ _ = e at h ⊢
    refine ⟨{ e with pair := { e.pair with driving := d.pair.driving } }, ?_, ?_, h.og, h.todo⟩
    · rw [h.frame]
    · rw [h.frame]

/-! ### Messages of the partner -/

theorem pairIn_taken {c : Instr} {s : State} {f : Dev → Dev} (h : exec c s = pairIn true s f) : exec c s = .next (upd s f) := h

/-- A command whose message has a bad CRC. -/
theorem badMessage_counts {c : Instr} {s : State} (hx : ∃ f, exec c s = pairIn false s f) (hs : Settled s) :
    (og s.dev 0x3C01 9 = 0 → Idles c s) ∧
    (og s.dev 0x3C01 9 ≠ 0 → og s.dev 0x3C02 8 < 0xFFFFFFFE → Leaves c s (fun d => og d 0x3C02 8 = og s.dev 0x3C02 8 + 1 ∧
      d.fc.todo = [rep 167 0 0 0] ∧ d.pair = s.dev.pair ∧ d.heads = s.dev.heads ∧ ObjsKept s.dev d [okey 0x3C02 8])) := by
  obtain ⟨f, hexec⟩ := hx
  refine ⟨fun h9 => .of_upd hs hexec (by simp [badMessage, h9]), fun h9 hc => .of_upd hexec ?_⟩
  rw [if_neg Bool.false_ne_true, badMessage, if_neg h9, bump_counts hc]
  exact ⟨(og_later ..).trans (og_os_same ..), by rw [later]; exact congrArg (· ++ [_]) hs.1, rfl, rfl,
    ((ObjsKept.refl s.dev _).os 0x3C02 8 (og s.dev 0x3C02 8 + 1) (by simp)).congr rfl⟩

end Sys2Proof.Machine
end

section
/-! ## The pair: the state transfer and the takeover -/
namespace Sys2Proof.Machine

/-! ### Units of the state -/

theorem putUnitObjs_frame (d : Dev) (lo hi : Nat) (l : List (Nat × Nat)) : ObjsOnly d (putUnitObjs d lo hi l) := rfl

theorem pairState_putUnitObjs (d : Dev) {lo hi : Nat} (h : 0x3C01 < lo ∨ hi ≤ 0x3C01) : pairState (putUnitObjs d lo hi []) = pairState d := by
  refine tget_filter objDefault (fun k => !(decide (lo ≤ k / 256) && decide (k / 256 < hi)) || isCounter (k / 256) (k % 256)) ?_ d.objs
  rw [show okey 0x3C01 1 / 256 = 0x3C01 from rfl]
  simp; omega

/-- The blocks of an axis with the state that a unit brings. -/
def axisBlocks (d : Dev) (n : Nat) (im : AxisImage) : Dev := setStp (setCur (setSrv (setMot d n im.motion) n im.servo) n im.current) n im.stepper

theorem axisBlocks_spec (d : Dev) (n : Nat) (im : AxisImage) : mot (axisBlocks d n im) n = im.motion ∧ srv (axisBlocks d n im) n = im.servo ∧
    cur (axisBlocks d n im) n = im.current ∧ stp (axisBlocks d n im) n = im.stepper :=
  ⟨tget_tput_same .., tget_tput_same .., tget_tput_same .., tget_tput_same ..⟩

theorem installUnit_axis (d : Dev) (n : Ax) (im : AxisImage) : ∃ e l, installUnit d (.axis n im) = { e with chans := l } ∧
    e = putUnitObjs (axisBlocks d n.val im) (ax n.val 0) (ax n.val 0x40) im.objs := by
  refine ⟨_, (installUnit d (.axis n im)).chans, ?_, rfl⟩
  simp only [installUnit, axisBlocks]
  split <;> rfl

theorem stateUnit_axis {s : State} (hs : Settled s) {n : Ax} {im : AxisImage} (h4 : pairState s.dev = 4) :
    Does (.stateUnit true (.axis n im)) s (fun d => mot d n.val = im.motion ∧ srv d n.val = im.servo ∧
      cur d n.val = im.current ∧ stp d n.val = im.stepper ∧ d.pair.differ = s.dev.pair.differ.filter (· != 13 + n.val) ∧
      og d 0x3C01 0x0D = d.pair.differ.length ∧ (im.objs = [] → pairState d = 4)) := by
  obtain ⟨e, l, hinst, he⟩ := installUnit_axis s.dev n im
  have hobjs : ObjsOnly (axisBlocks s.dev n.val im) e := by rw [he]; exact putUnitObjs_frame ..
  unfold ObjsOnly at hobjs
  obtain ⟨hmot, hsrv, hcur, hstp⟩ := axisBlocks_spec s.dev n.val im
  refine .of_eq (d := os { e with chans := l, pair := { e.pair with differ := e.pair.differ.filter (· != 13 + n.val) } } 0x3C01 0x0D
    (e.pair.differ.filter (· != 13 + n.val)).length) (pairIn_taken rfl) ?_ ?_ ?_ ⟨?_, ?_, ?_, ?_, ?_, og_os_same .., fun ho => ?_⟩
  · refine (if_neg (by simp [h4])).trans ?_
    rw [hinst]; rfl
  · rw [hobjs]; exact hs.1
  · rw [hobjs]; exact hs.2
  · rw [hobjs]; exact hmot
  · rw [hobjs]; exact hsrv
  · rw [hobjs]; exact hcur
  · rw [hobjs]; exact hstp
  · rw [hobjs]; rfl
  · have hstate := pairState_putUnitObjs (axisBlocks s.dev n.val im) (lo := ax n.val 0) (hi := ax n.val 0x40) (.inl (by unfold ax; omega))
    rw [← ho, ← he] at hstate
    rw [pairState_os _ _ (by decide)]
    exact hstate.trans h4

/-! ### A round of digests -/

/-- The units of a digest message whose digests differ from the own. -/
def digestsDiffer (d : Dev) (first : Nat) (ds : List (BitVec 64)) : List Nat :=
  ((ds.zipIdx).filter (fun p => Config.unitDigest (stateUnit d (first + p.2)) != p.1)).map (fun p => first + p.2)

theorem mem_digestsDiffer {d : Dev} {first : Nat} {ds : List (BitVec 64)} {u : Nat} : u ∈ digestsDiffer d first ds ↔
    ∃ i, i < ds.length ∧ u = first + i ∧ Config.unitDigest (stateUnit d u) ≠ ds.getD i 0 := by
  unfold digestsDiffer
  simp only [List.mem_map, List.mem_filter, bne_iff_ne, Prod.exists]
  constructor
  · rintro ⟨x, i, ⟨hin, hne⟩, rfl⟩
    have hget := List.mem_zipIdx_iff_getElem?.mp hin
    have hlt : i < ds.length := (List.getElem?_eq_some_iff.mp hget).1
    exact ⟨i, hlt, rfl, by rw [List.getD_eq_getElem?_getD, hget]; exact hne⟩
  · rintro ⟨i, hlt, rfl, hne⟩
    refine ⟨ds[i], i, ⟨List.mem_zipIdx_iff_getElem?.mpr (List.getElem?_eq_getElem hlt), ?_⟩, rfl⟩
    rwa [List.getD_eq_getElem?_getD, List.getElem?_eq_getElem hlt] at hne

/-- The device with the digests of a message compared. -/
def digestsCompared (d : Dev) (first : Nat) (ds : List (BitVec 64)) : Dev :=
  { d with pair := { d.pair with found := d.pair.found ++ digestsDiffer d first ds, checked := d.pair.checked + ds.length } }

theorem exec_stateDigests (first : BitVec 16) (ds : List (BitVec 64)) (s : State) : exec (.stateDigests true first ds) s = .next (upd s (fun d =>
    if !(pairState d = 4 || leadsTransfer d) || d.pair.differ.length != 0 then d
    else if unitCount ≤ d.pair.checked + ds.length then endRound (digestsCompared d first.toNat ds) else digestsCompared d first.toNat ds)) := rfl

/-- The device when a round of digests has found which units to transfer again. -/
def roundEnded (d : Dev) : Dev :=
  { d with pair := { d.pair with differ := d.pair.found, found := [], checked := 0, digestAt := if d.pair.found.length = 0 then unitCount else 0 } }

theorem endRound_spec {d : Dev} (hc : og d 0x3C02 4 < 0xFFFFFFFE) : (endRound d).pair = (roundEnded d).pair ∧
    (pairState d = 4 → d.pair.found ≠ [] → pairState (endRound d) = 4 ∧ og (endRound d) 0x3C01 0x0D = d.pair.found.length) ∧
    (pairState d = 4 → d.pair.found = [] → pairState (endRound d) = 5 ∧ og (endRound d) 0x3C01 7 = 0 ∧
      og (endRound d) 0x3C02 4 = og d 0x3C02 4 + 1) := by
  have hround : endRound d = if pairState d != 4 then roundEnded d
      else if d.pair.found.length = 0 then
        setPairState (os (bump (os (roundEnded d) 0x3C01 0x0D d.pair.found.length) 0x3C02 4) 0x3C01 7 0) 5
      else os (roundEnded d) 0x3C01 0x0D d.pair.found.length := rfl
  have hcount : og (os (roundEnded d) 0x3C01 0x0D d.pair.found.length) 0x3C02 4 = og d 0x3C02 4 := by
    rw [og_os, if_neg (by decide)]; rfl
  rw [hround]
  by_cases h4 : pairState d = 4
  · rw [if_neg (by simp [h4])]
    by_cases hf : d.pair.found = []
    · rw [if_pos (by simp [hf]), bump_counts (by rw [hcount]; exact hc), hcount]
      refine ⟨pair_setPairState .., fun _ h => absurd hf h, fun _ _ => ⟨pairState_setPairState .., ?_, ?_⟩⟩
      · rw [og_setPairState _ _ (by decide) (by decide), og_os_same]
      · rw [(setPairState_noted _ _).og (by decide), og_os, if_neg (by decide), og_os_same]
    · rw [if_neg (by simpa using hf)]
      refine ⟨rfl, fun _ _ => ⟨?_, og_os_same ..⟩, fun _ h => absurd h hf⟩
      rw [← h4, pairState, og_os, if_neg (by decide)]; rfl
  · rw [if_pos (by simp [h4])]
    exact ⟨rfl, fun h => absurd h h4, fun h => absurd h h4⟩

section
variable {first : BitVec 16} {ds : List (BitVec 64)} {s : State}

theorem stateDigests_compares (hs : Settled s) (hd : s.dev.pair.differ = []) (h4 : pairState s.dev = 4 ∨ leadsTransfer s.dev = true)
    (hfew : s.dev.pair.checked + ds.length < unitCount) : Does (.stateDigests true first ds) s (fun d =>
      d = { s.dev with pair := { s.dev.pair with found := d.pair.found, checked := s.dev.pair.checked + ds.length } } ∧
      ∀ u, u ∈ d.pair.found ↔ u ∈ s.dev.pair.found ∨
        ∃ i, i < ds.length ∧ u = first.toNat + i ∧ Config.unitDigest (stateUnit s.dev u) ≠ ds.getD i 0) := by
  refine .of_eq (d := digestsCompared s.dev first.toNat ds) (exec_stateDigests ..) ?_ hs.1 hs.2 ⟨rfl, fun u => ?_⟩
  · rw [if_neg (by simpa [hd, or_iff_not_imp_left] using h4), if_neg (by omega)]
  · exact List.mem_append.trans (or_congr_right mem_digestsDiffer)

theorem stateDigests_endsRound (hd : s.dev.pair.differ = []) (h4 : pairState s.dev = 4 ∨ leadsTransfer s.dev = true)
    (hall : unitCount ≤ s.dev.pair.checked + ds.length) (hc : og s.dev 0x3C02 4 < 0xFFFFFFFE) : Leaves (.stateDigests true first ds) s (fun d =>
      (∀ u, u ∈ d.pair.differ ↔ u ∈ s.dev.pair.found ∨
        ∃ i, i < ds.length ∧ u = first.toNat + i ∧ Config.unitDigest (stateUnit s.dev u) ≠ ds.getD i 0) ∧
      d.pair.found = [] ∧ d.pair.checked = 0 ∧
      (pairState s.dev = 4 → d.pair.differ ≠ [] → pairState d = 4 ∧ og d 0x3C01 0x0D = d.pair.differ.length) ∧
      (pairState s.dev = 4 → d.pair.differ = [] → pairState d = 5 ∧ og d 0x3C01 7 = 0 ∧ og d 0x3C02 4 = og s.dev 0x3C02 4 + 1)) := by
  obtain ⟨hpair, hagain, hdone⟩ := endRound_spec (d := digestsCompared s.dev first.toNat ds) hc
  have hdiffer : (endRound (digestsCompared s.dev first.toNat ds)).pair.differ = s.dev.pair.found ++ digestsDiffer s.dev first.toNat ds := by
    rw [hpair]; rfl
  refine .of_upd (exec_stateDigests ..) ?_
  rw [if_neg (by simpa [hd, or_iff_not_imp_left] using h4), if_pos hall]
  refine ⟨fun u => ?_, by rw [hpair]; rfl, by rw [hpair]; rfl, fun h hne => ?_, fun h he => hdone h (hdiffer.symm.trans he)⟩
  · rw [hdiffer]
    exact List.mem_append.trans (or_congr_right mem_digestsDiffer)
  · rw [hdiffer] at hne ⊢
    exact hagain h hne

theorem stateTransferTimeout_restarts (h4 : pairState s.dev = 4) (hlate : s.dev.pair.startedAt + 31250 ≤ s.dev.time.k)
    (hc : og s.dev 0x3C02 5 < 0xFFFFFFFE) : Leaves .stateTransferTimeout s (fun d =>
      pairState d = 3 ∧ og d 0x3C02 5 = og s.dev 0x3C02 5 + 1 ∧ rep 162 0 0 0 ∈ d.fc.todo) := by
  refine .of_upd rfl ?_
  rw [if_pos (by simp [h4, hlate]), bump_counts hc]
  refine ⟨pairState_setPairState .., ?_, ?_⟩
  · rw [(setPairState_noted _ _).og (by decide), og_later, og_os_same]
  · exact todo_setPairState _ _ (by simp [later, rep])
end

end Sys2Proof.Machine
end

section
/-! ## The pair: announcements and takeover -/
namespace Sys2Proof.Machine

section
variable {s : State}

theorem announceCycle_spec (d : Dev) (k claim : Nat) : (announceCycle d k claim).pair.announced = some (k, claim) ∧ og (announceCycle d k claim) 0x3C01 8 = k ∧
    ObjsKept d (announceCycle d k claim) [okey 0x3C01 8] ∧ (announceCycle d k claim).fc = d.fc ∧ (announceCycle d k claim).power = d.power ∧
    pairState (announceCycle d k claim) = pairState d ∧
    (LinkFree d → (announceCycle d k claim).out = d.out ++ [.pair 13 (d.time.k % 2 ^ 32) (leBytes 8 k ++ leBytes 1 claim)]) := by
  unfold announceCycle
  refine ⟨by rw [sendPair_frame]; rfl, by rw [og_sendPair, og_os_same], ?_, by rw [sendPair_frame]; rfl, by rw [sendPair_frame]; rfl, ?_, fun h => ?_⟩
  · refine ObjsKept.congr (b := os d 0x3C01 8 k) ((ObjsKept.refl d _).os _ _ _ (by simp)) ?_
    rw [sendPair_frame]; rfl
  · rw [pairState, og_sendPair, og_os, if_neg (by decide)]; rfl
  · have hfree : LinkFree (os { d with pair := { d.pair with announced := some (k, claim) } } 0x3C01 8 k) := by
      refine ⟨?_, h.2⟩
      rw [og_os, if_neg (by decide)]; exact h.1
    rw [sendPair_free hfree (by simp)]; rfl

theorem inStepCountReached_announces (h5 : pairState s.dev = 5) (hn : 1024 ≤ og s.dev 0x3C01 7) : Leaves .inStepCountReached s (fun d =>
    pairState d = 6 ∧ d.pair.announced = some (s.dev.time.k + 16, og s.dev 0x3C00 2) ∧ og d 0x3C01 8 = s.dev.time.k + 16 ∧
    (LinkFree s.dev → d.out = s.dev.out ++ [.pair 13 (s.dev.time.k % 2 ^ 32) (leBytes 8 (s.dev.time.k + 16) ++ leBytes 1 (og s.dev 0x3C00 2))])) := by
  obtain ⟨hann, hshown, -, -, -, hstate, hout⟩ := announceCycle_spec (setPairState s.dev 6) (s.dev.time.k + 16) (og s.dev 0x3C00 2)
  refine .of_upd (f := fun d => if pairState d = 5 && 1024 ≤ og d 0x3C01 7 then announceCycle (setPairState d 6) (d.time.k + 16) (baseClaim d) else d) rfl ?_
  rw [if_pos (by simp [h5, hn])]
  refine ⟨hstate.trans (pairState_setPairState ..), hann, hshown, fun h => ?_⟩
  refine (hout ?_).trans (by rw [out_setPairState, time_setPairState])
  exact ⟨by rw [og_setPairState _ _ (by decide) (by decide)]; exact h.1, by rw [pair_setPairState]; exact h.2⟩

theorem pair_bump (d : Dev) (i c : Nat) : (bump d i c).pair = d.pair := by
  unfold bump
  dsimp only
  split
  · rfl
  · split <;> rfl

theorem noAnnounce_spec (d : Dev) : (noAnnounce d).pair = { d.pair with announced := none } ∧ og (noAnnounce d) 0x3C01 8 = 0 ∧
    ObjsKept d (noAnnounce d) [okey 0x3C01 8] ∧ pairState (noAnnounce d) = pairState d :=
  ⟨rfl, og_os_same .., ((ObjsKept.refl d _).os 0x3C01 8 0 (by simp)).congr rfl, pairState_os _ _ (by decide)⟩

theorem exec_announce (cycle : BitVec 64) (claim : BitVec 8) (s : State) : exec (.announce true cycle claim) s = .next (upd s (fun d =>
    if pairState d = 0 || !pairUp d then d
    else if cycle = 0 then (if pairState d = 6 then d else noAnnounce d)
    else if pairState d = 2 || pairState d = 7 then
      os { d with pair := { d.pair with announced := some (cycle.toNat, claim.toNat + 256) } } 0x3C01 8 cycle.toNat
    else d)) := rfl

theorem exec_release (s : State) : exec .release s = .next (upd s (fun d => answer (pairCommand d 1).1 (pairCommand d 1).2)) := rfl

theorem release_announces (hs : Settled s) (hr : ready s.dev 31 = true) (h : pairState s.dev = 7 ∨ pairState s.dev = 2 ∧ og s.dev 0x3C01 6 = 7) :
    Does .release s (fun d => d.pair.announced = some (s.dev.time.k + 16, 0) ∧ og d 0x3C01 8 = s.dev.time.k + 16 ∧ said .ok ∈ d.out ∧
      ObjsKept s.dev d [okey 0x3C01 8]) := by
  obtain ⟨hann, hshown, hkept, hfc, hpower, -⟩ := announceCycle_spec s.dev (s.dev.time.k + 16) 0
  refine .answered hs (exec_release s) (g := fun d => pairCommand d 1) ?_ hfc hpower
    ⟨hann, hshown, List.mem_append_right _ (List.mem_singleton.mpr rfl), hkept⟩
  rw [pairCommand, if_neg (by simp [hr]), if_pos rfl, if_pos (by simpa using h)]

/-- What an announced cycle makes of the unit (R323, R335). -/
def takenOver (d : Dev) (c : Nat) : Dev :=
  if 256 ≤ c then
    (if c = 256 then os d 0x3C01 5 0 else setPairState (os d 0x3C01 5 (c - 256)) (if pairState d = 2 then 7 else pairState d))
  else if c = 0 then (if pairState d = 7 || pairState d = 2 then setPairState d 3 else d)
  else if pairState d = 6 then
    (if og (setPairState d 7) 0x3C01 4 < baseClaim (setPairState d 7) then bump (setPairState d 7) 0x3C02 3 else setPairState d 7)
  else d

theorem exec_takeoverCycle (s : State) : exec .takeoverCycle s = .next (upd s (fun d =>
    match d.pair.announced with
    | none => d
    | some (k, c) => if d.time.k + 1 < k then d else takenOver (noAnnounce d) c)) := rfl

/-- What of a unit a takeover leaves: the announcement is gone from the start. -/
theorem takenOver_frame (d : Dev) (c : Nat) : (takenOver d c).pair = d.pair ∧ og (takenOver d c) 0x3C01 8 = og d 0x3C01 8 := by
  unfold takenOver
  split
  · split
    · exact ⟨rfl, by rw [og_os, if_neg (by decide)]⟩
    · generalize c - 256 = v
      exact ⟨pair_setPairState .., by rw [og_setPairState _ _ (by decide) (by decide), og_os, if_neg (by decide)]⟩
  · split
    · split
      · exact ⟨pair_setPairState .., by rw [og_setPairState _ _ (by decide) (by decide)]⟩
      · exact ⟨rfl, rfl⟩
    · split
      · split
        · exact ⟨(pair_bump ..).trans (pair_setPairState ..), by rw [(bump_kept _ 0x3C02 3).og (by decide), og_setPairState _ _ (by decide) (by decide)]⟩
        · exact ⟨pair_setPairState .., by rw [og_setPairState _ _ (by decide) (by decide)]⟩
      · exact ⟨rfl, rfl⟩

theorem takenOver_ofOwn {d : Dev} {c : Nat} (h1 : 1 ≤ c) (h2 : c ≤ 255) (h6 : pairState d = 6) : pairState (takenOver d c) = 7 := by
  rw [takenOver, if_neg (by omega), if_neg (by omega), if_pos h6]
  split
  · exact ((bump_kept _ 0x3C02 3).og (by decide)).trans (pairState_setPairState d 7)
  · exact pairState_setPairState ..

theorem takenOver_ofPartner {d : Dev} {c : Nat} (h : 256 < c) : og (takenOver d c) 0x3C01 5 = c - 256 ∧ (pairState d = 2 → pairState (takenOver d c) = 7) := by
  rw [takenOver, if_pos (by omega), if_neg (by omega)]
  exact ⟨by rw [og_setPairState _ _ (by decide) (by decide), og_os_same], fun h2 => by rw [pairState_setPairState, if_pos h2]⟩

theorem takeoverCycle_takes {k cl : Nat} (ha : s.dev.pair.announced = some (k, cl)) (hk : k ≤ s.dev.time.k + 1) :
    Leaves .takeoverCycle s (fun d => d.pair.announced = none ∧ og d 0x3C01 8 = 0 ∧
      (1 ≤ cl → cl ≤ 255 → pairState s.dev = 6 → pairState d = 7) ∧ (cl = 0 → pairState s.dev = 7 → pairState d = 3) ∧
      (256 < cl → og d 0x3C01 5 = cl - 256 ∧ (pairState s.dev = 2 → pairState d = 7)) ∧
      (cl = 256 → og d 0x3C01 5 = 0 ∧ pairState d = pairState s.dev)) := by
  obtain ⟨hpair, hshown, -, hstate⟩ := noAnnounce_spec s.dev
  obtain ⟨hkept, hkept8⟩ := takenOver_frame (noAnnounce s.dev) cl
  refine .of_upd (exec_takeoverCycle s) ?_
  rw [ha]
  dsimp only
  rw [if_neg (by omega)]
  refine ⟨by rw [hkept, hpair], hkept8.trans hshown, fun h1 h2 h6 => takenOver_ofOwn h1 h2 (hstate.trans h6), fun h0 h7 => ?_,
    fun h => ⟨(takenOver_ofPartner h).1, fun h2 => (takenOver_ofPartner h).2 (hstate.trans h2)⟩, fun h => ?_⟩
  · rw [takenOver, if_neg (by omega), if_pos h0, if_pos (by rw [hstate]; simp [h7])]
    exact pairState_setPairState ..
  · rw [takenOver, if_pos (by omega), if_pos h]
    exact ⟨og_os_same .., (pairState_os _ _ (by decide)).trans hstate⟩
end

/-! ### The send decision -/

theorem opportunity_frame (d : Dev) (g : Nat) : (opportunity d g).1 = { d with segs := (opportunity d g).1.segs, heads := (opportunity d g).1.heads } := by
  unfold opportunity
  dsimp only
  split <;> rfl

/-- The mailbox exchange that a ring frame takes with it. -/
def ringExchange (d : Dev) (g : Nat) (second again : Bool) : Dev × Option Exchange :=
  if again then (d, if (seg d g).mailed then (seg d g).exchanges.find? (fun e => e.node = (seg d g).served) else none)
  else if originates d g && (second || !rollDue d g) then opportunity d g else (d, none)

/-- A ring's cyclic frame and what follows it leave. -/
def ringEmitted (d : Dev) (g : Nat) (second : Bool) (ch : Option Chan) (x : Option Exchange) : Dev :=
  let d := emit d (.segment g ch (ringFrame d g second (x.map Exchange.node)))
  match x with
  | some e => emit d (.segment g ch (ringMailbox d g e))
  | none => d

theorem sendRing_eq (d : Dev) (g : Nat) (second : Bool) (ch : Option Chan) (again : Bool) : ∃ l,
    sendRing d g second ch again = { ringEmitted (ringExchange d g second again).1 g second ch (ringExchange d g second again).2 with segs := l } :=
  ⟨(sendRing d g second ch again).segs, rfl⟩

theorem ringExchange_frame (d : Dev) (g : Nat) (second again : Bool) : ∃ l m, (ringExchange d g second again).1 = { d with segs := l, heads := m } := by
  unfold ringExchange
  split
  · exact ⟨d.segs, d.heads, rfl⟩
  · split
    · exact ⟨_, _, opportunity_frame d g⟩
    · exact ⟨d.segs, d.heads, rfl⟩

theorem ringEmitted_spec (d : Dev) (g : Nat) (second : Bool) (ch : Option Chan) (x : Option Exchange) : ∃ f m,
    ringEmitted d g second ch x = { d with out := d.out ++ .segment g ch f :: m } := by
  unfold ringEmitted
  cases x with
  | none => exact ⟨_, [], rfl⟩
  | some e => exact ⟨_, [_], by simp only [emit, List.append_assoc, List.cons_append, List.nil_append]; rfl⟩

/-- A ring frame goes out, what it changes of the segment and its nodes aside. -/
theorem sendRing_spec (d : Dev) (g : Nat) (second : Bool) (ch : Option Chan) (again : Bool) : ∃ l m f r,
    sendRing d g second ch again = { d with segs := l, heads := m, out := d.out ++ .segment g ch f :: r } := by
  obtain ⟨l, hsend⟩ := sendRing_eq d g second ch again
  obtain ⟨l', m, hex⟩ := ringExchange_frame d g second again
  obtain ⟨f, r, hout⟩ := ringEmitted_spec (ringExchange d g second again).1 g second ch (ringExchange d g second again).2
  exact ⟨l, m, f, r, by rw [hsend, hout, hex]⟩

/-- The claim that this unit's own frame carries on a ring, 0 when it sends none. -/
def ownClaim (d : Dev) (g : Nat) : Nat := if sending d g then frameClaim d g else 0

/-- The own frame goes out on a channel. -/
def ownSent (d : Dev) (g : Nat) (c : Chan) (key : Nat) : Dev :=
  takeOutputs (noteDecision (sendRing d g (d.time.kt = d.time.k) (some c) (sentInPlace d g)) key true)

/-- The arrival of a frame is kept. -/
def arrivalNoted (d : Dev) (key arrival : Nat) : Dev :=
  let l := tget (fun _ => []) d.pair.arrivals key ++ [arrival]
  { d with pair := { d.pair with arrivals := tput (fun _ => []) d.pair.arrivals key (l.drop (l.length - 16)) } }

/-- A frame of claim `cl` passes. -/
def framePassed (d : Dev) (g : Nat) (c : Chan) (key cl : Nat) : Dev :=
  let d := emit (noteDecision d key false) (.passed g c)
  if pairState d != 0 && frameClaim d g < cl then dropOutputs d else d

theorem framePassed_eq (d : Dev) (g : Nat) (c : Chan) (key cl : Nat) : framePassed d g c key cl = { d with
    pair := { d.pair with decided := d.pair.decided ++ [(key, false)]
                          driving := if pairState d ≠ 0 ∧ frameClaim d g < cl then false else d.pair.driving }
    out := d.out ++ [.passed g c] } := by
  have hpassed : framePassed d g c key cl = if pairState d != 0 && frameClaim d g < cl then dropOutputs (emit (noteDecision d key false) (.passed g c))
    else emit (noteDecision d key false) (.passed g c) := rfl
  rw [hpassed]
  by_cases h : pairState d ≠ 0 ∧ frameClaim d g < cl
  · rw [if_pos (by simpa using h), if_pos h]; rfl
  · rw [if_neg (by simpa using h), if_neg h]; rfl

section
variable {r : Ring} {c : Chan} {hdr : Option (BitVec 8)} {arrival : BitVec 32} {key own : Nat} {s : State}

theorem exec_partnerSendDecision (hkey : key = 2 * r.val + (if c = .b then 1 else 0)) : exec (.partnerSendDecision r c hdr arrival) s = .next (upd s (fun d =>
    if !pairedSeg d r.val || !ready d (18 + r.val) || (headPosition d r.val && ownClaim d r.val != 0) || d.pair.decided.any (fun p => p.1 = key) then d
    else match hdr with
      | some cl =>
        if ownClaim d r.val = 0 || ownClaim d r.val < cl.toNat then framePassed (arrivalNoted d key arrival.toNat) r.val c key cl.toNat
        else ownSent (arrivalNoted d key arrival.toNat) r.val c key
      | none => if ownClaim d r.val = 0 then d else ownSent d r.val c key)) := by
  subst hkey; rfl

theorem ownSent_spec (d : Dev) (g : Nat) (c : Chan) (key : Nat) : (ownSent d g c key).pair.driving = true ∧ (key, true) ∈ (ownSent d g c key).pair.decided ∧
    ∃ f, Msg.segment g (some c) f ∈ (ownSent d g c key).out := by
  obtain ⟨l, m, f, r, hsend⟩ := sendRing_spec d g (d.time.kt = d.time.k) (some c) (sentInPlace d g)
  obtain ⟨e, htake, hnoted⟩ := takeOutputs_spec (noteDecision (sendRing d g (d.time.kt = d.time.k) (some c) (sentInPlace d g)) key true)
  rw [ownSent, htake]
  refine ⟨rfl, ?_, f, ?_⟩
  · rw [hnoted.frame]
    exact List.mem_append_right _ (List.mem_singleton.mpr rfl)
  · rw [hnoted.frame, hsend]
    exact List.mem_append_right _ (List.mem_cons_self ..)

theorem ownClaim_paired (hown : own = (if sending s.dev r.val = true then og s.dev 0x3C01 3 else 0)) (hp : pairedSeg s.dev r.val = true) :
    ownClaim s.dev r.val = own := by
  rw [hown, ownClaim, frameClaim, if_pos hp]

/-- The unit decides the channel itself: the ring is paired and ready, and the unit does not originate from the head position. -/
theorem decides_iff (hp : pairedSeg s.dev r.val = true) (hr : ready s.dev (18 + r.val) = true) (ho : og s.dev 0x3C00 2 ≤ og s.dev 0x3C01 4 ∨ ownClaim s.dev r.val = 0)
    (hd : ∀ p ∈ s.dev.pair.decided, p.1 ≠ key) :
    (!pairedSeg s.dev r.val || !ready s.dev (18 + r.val) || (headPosition s.dev r.val && ownClaim s.dev r.val != 0) ||
      s.dev.pair.decided.any (fun p => p.1 = key)) = false := by
  have hnone : s.dev.pair.decided.any (fun p => p.1 = key) = false := by simpa using fun a b h => hd (a, b) h
  have hhead : (headPosition s.dev r.val && ownClaim s.dev r.val != 0) = false := by
    rcases ho with h | h
    · simp [headPosition, hp]; omega
    · simp [h]
  rw [hp, hr, hhead, hnone]; rfl

theorem partnerSendDecision_idles (hs : Settled s) (hkey : key = 2 * r.val + (if c = .b then 1 else 0))
    (hown : own = (if sending s.dev r.val = true then og s.dev 0x3C01 3 else 0))
    (h : pairedSeg s.dev r.val = false ∨ ready s.dev (18 + r.val) = false ∨ og s.dev 0x3C01 4 < og s.dev 0x3C00 2 ∧ own ≠ 0 ∨
      (∃ p ∈ s.dev.pair.decided, p.1 = key)) : Idles (.partnerSendDecision r c hdr arrival) s := by
  refine .of_upd hs (exec_partnerSendDecision hkey) (if_pos ?_)
  by_cases hp : pairedSeg s.dev r.val = true
  · have hclaim := ownClaim_paired hown hp
    rcases h with h | h | ⟨h, h0⟩ | ⟨p, hin, hpk⟩
    · simp [h]
    · simp [h]
    · have hhead : headPosition s.dev r.val = true := by simp [headPosition, h]
      simp [hhead, hclaim, h0]
    · have hany : s.dev.pair.decided.any (fun p => p.1 = key) = true := List.any_eq_true.mpr ⟨p, hin, by simp [hpk]⟩
      rw [hany, Bool.or_true]
  · simp [hp]

theorem partnerSendDecision_sends (hkey : key = 2 * r.val + (if c = .b then 1 else 0))
    (hown : own = (if sending s.dev r.val = true then og s.dev 0x3C01 3 else 0)) (hp : pairedSeg s.dev r.val = true)
    (hr : ready s.dev (18 + r.val) = true) (ho : og s.dev 0x3C00 2 ≤ og s.dev 0x3C01 4 ∨ own = 0) (hd : ∀ p ∈ s.dev.pair.decided, p.1 ≠ key)
    (hhdr : ∀ h, hdr = some h → h.toNat ≤ own) (h0 : own ≠ 0) : Leaves (.partnerSendDecision r c hdr arrival) s (fun d => d.pair.driving = true ∧
      (key, true) ∈ d.pair.decided ∧ ∃ f, Msg.segment r.val (some c) f ∈ d.out) := by
  have hclaim := ownClaim_paired hown hp
  refine .of_upd (exec_partnerSendDecision hkey) ?_
  rw [decides_iff hp hr (by rwa [hclaim]) hd, if_neg Bool.false_ne_true, hclaim]
  cases hdr with
  | none =>
    dsimp only
    rw [if_neg h0]
    exact ownSent_spec ..
  | some cl =>
    have hle := hhdr cl rfl
    dsimp only
    rw [if_neg (by simp [h0]; omega)]
    exact ownSent_spec ..

theorem partnerSendDecision_passes (hs : Settled s) (hkey : key = 2 * r.val + (if c = .b then 1 else 0))
    (hown : own = (if sending s.dev r.val = true then og s.dev 0x3C01 3 else 0)) (hp : pairedSeg s.dev r.val = true)
    (hr : ready s.dev (18 + r.val) = true) (ho : og s.dev 0x3C00 2 ≤ og s.dev 0x3C01 4 ∨ own = 0) (hd : ∀ p ∈ s.dev.pair.decided, p.1 ≠ key)
    (h : BitVec 8) (hhdr : hdr = some h) (hgt : own = 0 ∨ own < h.toNat) : Does (.partnerSendDecision r c hdr arrival) s (fun d =>
      d.out = s.dev.out ++ [.passed r.val c] ∧ d.objs = s.dev.objs ∧ (key, false) ∈ d.pair.decided ∧
      (og s.dev 0x3C01 3 < h.toNat → pairState s.dev ≠ 0 → d.pair.driving = false)) := by
  have hclaim := ownClaim_paired hown hp
  have hframe : frameClaim s.dev r.val = og s.dev 0x3C01 3 := by rw [frameClaim, if_pos hp]
  subst hhdr
  refine .of_eq (d := framePassed (arrivalNoted s.dev key arrival.toNat) r.val c key h.toNat) (exec_partnerSendDecision hkey) ?_ ?_ ?_ ?_
  · rw [decides_iff hp hr (by rwa [hclaim]) hd, if_neg Bool.false_ne_true, hclaim]
    exact if_pos (by simpa using hgt)
  · rw [framePassed_eq]; exact hs.1
  · rw [framePassed_eq]; exact hs.2
  · rw [framePassed_eq]
    refine ⟨rfl, rfl, List.mem_append_right _ (List.mem_singleton.mpr rfl), fun hlt hne => if_pos ⟨hne, ?_⟩⟩
    rw [← hframe] at hlt
    exact hlt
end

/-- Settles O52: each event and message of the transfer and of the takeover by what it changes of the unit. -/
theorem pairsTransferStateAndTakeOver : Obligations.PairsTransferStateAndTakeOver := by
  unfold Obligations.PairsTransferStateAndTakeOver
  intro n im un cycle claim r c hdr arrival first ds key s hs hkey
  refine ⟨fun h => ⟨.of_upd hs (pairIn_taken rfl) ?_, .of_upd hs rfl ?_, fun hl => .of_upd hs (exec_stateDigests ..) ?_⟩, fun h4 hun => ?_, fun hd => ?_,
    fun hd h4 => ⟨stateDigests_compares hs hd h4, stateDigests_endsRound hd h4⟩, fun _ hk => .of_upd hs rfl ?_,
    stateTransferTimeout_restarts, fun h => .of_upd hs rfl ?_, inStepCountReached_announces, fun h => ?_, fun h0 h9 => ⟨fun hc hst => ?_, fun hc h2 h7 => ?_, fun hc h6 => ?_⟩,
    fun cm hcm => ?_, fun hr => ⟨release_announces hs hr, fun h7 h2 => ?_⟩, fun ha => ?_, fun k cl ha => ⟨fun hk => ?_, fun hk _ => takeoverCycle_takes ha hk⟩,
    fun own hown => ⟨partnerSendDecision_idles hs hkey hown, fun hp hr ho hd => ⟨partnerSendDecision_sends hkey hown hp hr ho hd,
      partnerSendDecision_passes hs hkey hown hp hr ho hd, fun hh h0 => ?_⟩⟩⟩
  · exact if_pos (by simp [h])
  · exact if_neg (by simp [h])
  · exact if_pos (by simp [h, hl])
  · subst hun
    exact stateUnit_axis hs h4
  · exact .of_upd hs (exec_stateDigests ..) (if_pos (by simp [hd]))
  · exact if_neg (by simp; omega)
  · exact if_neg (by rcases h with h | h <;> simp [h])
  · exact .of_upd hs (exec_announce ..) (if_pos (by rcases h with h | h <;> simp [h, pairUp]))
  · refine .of_eq (d := os { s.dev with pair := { s.dev.pair with announced := some (cycle.toNat, claim.toNat + 256) } } 0x3C01 8 cycle.toNat)
      (exec_announce ..) ?_ hs.1 hs.2 ⟨rfl, og_os_same .., (ObjsKept.refl s.dev _).os 0x3C01 8 cycle.toNat (by simp)⟩
    rw [if_neg (by simp [h0, h9, pairUp]), if_neg hc, if_pos (by simpa using hst)]
  · refine .of_upd hs (exec_announce ..) ?_
    rw [if_neg (by simp [h0, h9, pairUp]), if_neg hc, if_neg (by simp [h2, h7])]
  · refine .of_eq (d := noAnnounce s.dev) (exec_announce ..) ?_ hs.1 hs.2 ⟨rfl, (noAnnounce_spec s.dev).2.1, (noAnnounce_spec s.dev).2.2.1⟩
    rw [if_neg (by simp [h0, h9, pairUp]), if_pos hc, if_neg h6]
  · have hbad : ∃ f, exec cm s = pairIn false s f := by
      rcases hcm with rfl | rfl | rfl
      all_goals exact ⟨_, rfl⟩
    obtain ⟨hidle, hcounts⟩ := badMessage_counts hbad hs
    refine ⟨hidle, fun h9 hc => ?_⟩
    obtain ⟨d, hexec, hcount, htodo, hpair, -, hkept⟩ := hcounts h9 hc
    exact ⟨d, hexec, hcount, htodo, hpair, hkept⟩
  · refine .answered hs (exec_release s) (g := fun d => pairCommand d 1) ?_
    rw [pairCommand, if_neg (by simp [hr]), if_pos rfl, if_neg (by simpa [h7, imp_iff_not_or] using h2)]
  · refine .of_upd hs (exec_takeoverCycle s) ?_
    rw [ha]
  · refine .of_upd hs (exec_takeoverCycle s) ?_
    rw [ha]
    exact if_pos hk
  · subst hh
    have hclaim := ownClaim_paired hown hp
    refine .of_upd hs (exec_partnerSendDecision hkey) ?_
    rw [decides_iff hp hr (by rwa [hclaim]) hd, if_neg Bool.false_ne_true, hclaim]
    exact if_pos h0

end Sys2Proof.Machine
end

section
/-! ## Axes: what an operation of one axis leaves as it was -/
namespace Sys2Proof.Machine

/-- From `a` to `b` axis n changed: its objects but for its command and the echo of the last one, its motion, loop, current and step state; reports may
wait. -/
structure AxisStep (n : Nat) (a b : Dev) : Prop where
  frame : b = { a with objs := b.objs, motion := b.motion, servo := b.servo, current := b.current, stepper := b.stepper,
                       fc := { a.fc with todo := b.fc.todo } }
  kept : ∀ k, k < okey (ax n 0) 0 ∨ okey (ax (n + 1) 0) 0 ≤ k → tget objDefault b.objs k = tget objDefault a.objs k
  echo : og b (ax n 9) 3 = og a (ax n 9) 3
  command : og b (ax n 8) 1 = og a (ax n 8) 1
  others : ∀ m, m ≠ n → mot b m = mot a m ∧ srv b m = srv a m ∧ cur b m = cur a m ∧ stp b m = stp a m

namespace AxisStep
theorem refl (n : Nat) (a : Dev) : AxisStep n a a := ⟨rfl, fun _ _ => rfl, rfl, rfl, fun _ _ => ⟨rfl, rfl, rfl, rfl⟩⟩

theorem trans {n : Nat} {a b c : Dev} (h : AxisStep n a b) (g : AxisStep n b c) : AxisStep n a c :=
  ⟨by rw [g.frame, h.frame], fun k hk => (g.kept k hk).trans (h.kept k hk), g.echo.trans h.echo, g.command.trans h.command, fun m hm => by
    obtain ⟨h1, h2, h3, h4⟩ := h.others m hm
    obtain ⟨g1, g2, g3, g4⟩ := g.others m hm
    exact ⟨g1.trans h1, g2.trans h2, g3.trans h3, g4.trans h4⟩⟩

theorem axisOnly {n : Nat} {a b : Dev} (h : AxisStep n a b) : AxisOnly a b n := ⟨h.frame, h.kept, h.others⟩

theorem os {n : Nat} {a b : Dev} (h : AxisStep n a b) {o c : Nat} (v : Nat) (ho : o < 0x40) (hc : c < 256) (hne : o * 256 + c ≠ 0x903 ∧ o * 256 + c ≠ 0x801) :
    AxisStep n a (Machine.os b (ax n o) c v) := by
  obtain ⟨hecho, hcommand⟩ := hne
  have hsum (p j x : Nat) (hx : p * 256 + j = x) : ∀ y, (y + p) * 256 + j = (y + o) * 256 + c → o * 256 + c = x := by omega
  exact h.trans ⟨rfl, fun k hk => os_other _ _ _ _ _ (by unfold okey ax at *; omega), os_other _ _ _ _ _ (fun he => hecho (hsum 9 3 _ rfl _ he)),
    os_other _ _ _ _ _ (fun he => hcommand (hsum 8 1 _ rfl _ he)), fun _ _ => ⟨rfl, rfl, rfl, rfl⟩⟩

theorem mot {n : Nat} {a b : Dev} (h : AxisStep n a b) (m : MotionSt) : AxisStep n a (setMot b n m) :=
  h.trans ⟨rfl, fun _ _ => rfl, rfl, rfl, fun k hk => ⟨by rw [mot_setMot, if_neg hk], rfl, rfl, rfl⟩⟩
theorem srv {n : Nat} {a b : Dev} (h : AxisStep n a b) (m : ServoSt) : AxisStep n a (setSrv b n m) :=
  h.trans ⟨rfl, fun _ _ => rfl, rfl, rfl, fun k hk => ⟨rfl, by rw [srv_setSrv, if_neg hk], rfl, rfl⟩⟩
theorem cur {n : Nat} {a b : Dev} (h : AxisStep n a b) (m : CurrentSt) : AxisStep n a (setCur b n m) :=
  h.trans ⟨rfl, fun _ _ => rfl, rfl, rfl, fun k hk => ⟨rfl, rfl, by rw [cur_setCur, if_neg hk], rfl⟩⟩
theorem stp {n : Nat} {a b : Dev} (h : AxisStep n a b) (m : StepperSt) : AxisStep n a (setStp b n m) :=
  h.trans ⟨rfl, fun _ _ => rfl, rfl, rfl, fun k hk => ⟨rfl, rfl, rfl, by rw [stp_setStp, if_neg hk]⟩⟩

theorem later {n : Nat} {a b : Dev} (h : AxisStep n a b) (x y z : Nat) : AxisStep n a (Machine.later b x y z) :=
  h.trans ⟨rfl, fun _ _ => rfl, rfl, rfl, fun _ _ => ⟨rfl, rfl, rfl, rfl⟩⟩
theorem laterStop {n : Nat} {a b : Dev} (h : AxisStep n a b) (x y z u : Nat) : AxisStep n a (Machine.laterStop b x y z u) :=
  h.trans ⟨rfl, fun _ _ => rfl, rfl, rfl, fun _ _ => ⟨rfl, rfl, rfl, rfl⟩⟩

theorem bump {n : Nat} {a b : Dev} (h : AxisStep n a b) {o c : Nat} (ho : o < 0x40) (hc : c < 256) (hne : o * 256 + c ≠ 0x903 ∧ o * 256 + c ≠ 0x801) :
    AxisStep n a (Machine.bump b (ax n o) c) := by
  unfold Machine.bump
  dsimp only
  split
  · exact h
  · split
    · exact (h.os _ ho hc hne).later _ _ _
    · exact h.os _ ho hc hne

theorem og {n : Nat} {a b : Dev} (h : AxisStep n a b) {i c : Nat} (hi : i < 0x8000) (hc : c < 256) : Machine.og b i c = Machine.og a i c :=
  h.kept _ (.inl (by unfold okey ax; omega))

theorem og_other {n m : Nat} {a b : Dev} (h : AxisStep n a b) (hm : m ≠ n) {o c : Nat} (ho : o < 0x40) (hc : c < 256) :
    Machine.og b (ax m o) c = Machine.og a (ax m o) c :=
  h.kept _ (by unfold okey ax; omega)

/-- The echo of the last command of any axis. -/
theorem echoes {n : Nat} {a b : Dev} (h : AxisStep n a b) (m : Nat) : Machine.og b (ax m 9) 3 = Machine.og a (ax m 9) 3 := by
  by_cases hm : m = n
  · rw [hm]; exact h.echo
  · exact h.og_other hm (by decide) (by decide)
end AxisStep

theorem retireBlend_step (d : Dev) (n : Nat) : AxisStep n d (retireBlend d n) := by
  unfold retireBlend
  split
  · exact ((AxisStep.refl n d).mot _).bump (by decide) (by decide) (by decide)
  · exact .refl n d

theorem homeAbort_step (d : Dev) (n r : Nat) : AxisStep n d (homeAbort d n r) := by
  unfold homeAbort
  split
  · exact (((AxisStep.refl n d).mot _).os _ (by decide) (by decide) (by decide)).bump (by decide) (by decide) (by decide)
  · exact .refl n d

theorem setCause_step (d : Dev) (n cause seq : Nat) : AxisStep n d (setCause d n cause seq) :=
  ((AxisStep.refl n d).os _ (by decide) (by decide) (by decide)).os _ (by decide) (by decide) (by decide)

theorem setRefs_step (d : Dev) (n : Nat) (r : Int × Rat × Rat) : AxisStep n d (setRefs d n r) :=
  (((AxisStep.refl n d).os _ (by decide) (by decide) (by decide)).os _ (by decide) (by decide) (by decide)).os _ (by decide) (by decide) (by decide)

theorem showAxis_step (d : Dev) (n : Nat) : AxisStep n d (showAxis d n) := by
  have h := (AxisStep.refl n d).os (o := 0x22) (c := 1) (mot d n).queue.length (by decide) (by decide) (by decide)
  unfold showAxis
  refine AxisStep.os (AxisStep.os ?_ _ (by decide) (by decide) (by decide)) _ (by decide) (by decide) (by decide)
  split
  · split
    · exact ((h.os _ (by decide) (by decide) (by decide)).os _ (by decide) (by decide) (by decide)).os _ (by decide) (by decide) (by decide)
    · exact ((h.os _ (by decide) (by decide) (by decide)).os _ (by decide) (by decide) (by decide)).os _ (by decide) (by decide) (by decide)
  · exact ((h.os _ (by decide) (by decide) (by decide)).os _ (by decide) (by decide) (by decide)).os _ (by decide) (by decide) (by decide)

theorem stepperOff_step (d : Dev) (n : Nat) : AxisStep n d (stepperOff d n) := by
  unfold stepperOff
  split
  · exact (((((AxisStep.refl n d).stp _).os _ (by decide) (by decide) (by decide)).os _ (by decide) (by decide) (by decide)).os _ (by decide)
      (by decide) (by decide)).os _ (by decide) (by decide) (by decide)
  · exact .refl n d

/-- The axis stands at state `st` with its references and torque 0, before its loops and its stepper are off. -/
def axisRested (d : Dev) (n st : Nat) : Dev :=
  os (os (os (os (os (os (setMot d n { mot d n with queue := (mot d n).queue.map QEntry.interrupt, prof := none, demands := [], stop := none })
    (ax n 9) 1 st) (ax n 0x24) 2 0) (ax n 0x24) 3 0) (ax n 0x1B) 4 0) (ax n 0x1B) 5 0) (ax n 0x1B) 6 0

/-- The loops of an axis give no torque. -/
def loopsZeroed (d : Dev) (n : Nat) : Dev :=
  let d := setSrv d n { srv d n with tIn := 0, tOut := 0, n1s1 := 0, n1s2 := 0, n2s1 := 0, n2s2 := 0 }
  setCur d n { cur d n with jd := 0, jq := 0, gates := false }

theorem axisOff_eq (d : Dev) (n st : Nat) :
    axisOff d n st = showAxis (stepperOff (loopsZeroed (axisRested (homeAbort (retireBlend d n) n 2) n st) n) n) n := rfl

theorem axisRested_step (d : Dev) (n st : Nat) : AxisStep n d (axisRested d n st) :=
  ((((((AxisStep.refl n d).mot _).os _ (by decide) (by decide) (by decide)).os _ (by decide) (by decide) (by decide)).os _ (by decide)
    (by decide) (by decide)).os _ (by decide) (by decide) (by decide)).os _ (by decide) (by decide) (by decide) |>.os _ (by decide) (by decide) (by decide)

theorem loopsZeroed_step (d : Dev) (n : Nat) : AxisStep n d (loopsZeroed d n) := ((AxisStep.refl n d).srv _).cur _

theorem axisOff_step (d : Dev) (n st : Nat) : AxisStep n d (axisOff d n st) := by
  rw [axisOff_eq]
  exact (retireBlend_step d n).trans ((homeAbort_step _ n 2).trans ((axisRested_step _ n st).trans ((loopsZeroed_step _ n).trans
    ((stepperOff_step _ n).trans (showAxis_step _ n)))))

theorem torqueOff_step (d : Dev) (n cause seq : Nat) : AxisStep n d (torqueOff d n cause seq) := by
  unfold torqueOff
  split
  · exact .refl n d
  · split
    · exact axisOff_step ..
    · exact (axisOff_step ..).trans (setCause_step ..)

theorem pushDemand_step (d : Dev) (n : Nat) (cat : StopCat) (cause seq : Nat) : AxisStep n d (pushDemand d n cat cause seq) := by
  unfold pushDemand
  split
  · exact (AxisStep.refl n d).mot _
  · exact .refl n d

/-! ### Reports before the collector is ready -/

/-- From `a` to `b` axes stopped and reports were held: nothing else changed, and no axis's echo. -/
structure HeldStep (a b : Dev) : Prop where
  frame : b = { a with objs := b.objs, motion := b.motion, servo := b.servo, current := b.current, stepper := b.stepper,
                       fc := { a.fc with todo := b.fc.todo, held := b.fc.held } }
  og : ∀ {i c : Nat}, i < 0x8000 → c < 256 → Machine.og b i c = Machine.og a i c
  echoes : ∀ n, Machine.og b (ax n 9) 3 = Machine.og a (ax n 9) 3

theorem HeldStep.refl (a : Dev) : HeldStep a a := ⟨rfl, fun _ _ => rfl, fun _ => rfl⟩
theorem HeldStep.trans {a b c : Dev} (h : HeldStep a b) (g : HeldStep b c) : HeldStep a c :=
  ⟨by rw [g.frame, h.frame], fun hi hj => (g.og hi hj).trans (h.og hi hj), fun n => (g.echoes n).trans (h.echoes n)⟩
theorem HeldStep.of_axis {n : Nat} {a b : Dev} (h : AxisStep n a b) : HeldStep a b :=
  ⟨by rw [h.frame], fun hi hj => h.og hi hj, h.echoes⟩

theorem HeldStep.ready {a b : Dev} (h : HeldStep a b) (n : Nat) : Machine.ready b n = Machine.ready a n := by
  unfold Machine.ready
  rw [h.og (by decide) (by decide)]

theorem stopOf_held (d : Dev) (r : Report) (q : Option Nat) : HeldStep d (stopOf d r q) := by
  unfold stopOf
  split
  · refine foldl_invariant (I := HeldStep d) (fun e n he => he.trans ?_) _ d (.refl d)
    exact .of_axis (((AxisStep.refl n e).os _ (by decide) (by decide) (by decide)).trans (pushDemand_step ..))
  · split
    · exact .of_axis (pushDemand_step ..)
    · split
      · exact .of_axis (torqueOff_step ..)
      · exact .refl d

theorem drain_held (n : Nat) : ∀ d : Dev, ready d 2 = false → HeldStep d (drain n d) := by
  induction n with
  | zero => exact fun d _ => .refl d
  | succ n ih =>
    intro d hr
    rw [drain_succ]
    split
    · exact .refl d
    next r rs _ =>
      have hassert : assertReport { d with fc := { d.fc with todo := rs } } r =
          ({ d with fc := { d.fc with todo := rs, held := d.fc.held ++ [r] } }, none) := if_pos (by
        have hr' : ready { d with fc := { d.fc with todo := rs } } 2 = false := hr
        rw [hr']; rfl)
      rw [hassert]
      have hstop := stopOf_held { d with fc := { d.fc with todo := rs, held := d.fc.held ++ [r] } } r none
      have hheld : HeldStep d { d with fc := { d.fc with todo := rs, held := d.fc.held ++ [r] } } := ⟨rfl, fun _ _ => rfl, fun _ => rfl⟩
      have hstep := hheld.trans hstop
      exact hstep.trans (ih _ ((hstep.ready 2).trans hr))

theorem finish_held {d : Dev} (hr : ready d 2 = false) : HeldStep d (finish d) := drain_held 4096 d hr

/-- The device after a step in which reports can only be held. -/
theorem dev_upd_held {s : State} {d : Dev} (hr : ready d 2 = false) (hc : d.power.cleared = false) : HeldStep d (upd s (fun _ => d)).dev := by
  have h := finish_held hr
  have hpower : (finish d).power.cleared = false := by rw [h.frame]; exact hc
  have hupd : (upd s (fun _ => d)).dev = finish d := by
    show (if (finish d).power.cleared then _ else _ : State).dev = _
    rw [hpower]; rfl
  rw [hupd]
  exact h

/-! ### Home while another axis runs its gear entry to rest -/

/-- A gear entry of axis 1 on axis 0 that has reached its end and brings its axis to rest. -/
def endingGearEntry : QEntry :=
  { typ := 4, tag := 1, target := 0, vel := 0, acc := 0, dec := 0, jerk := 0, fillet := 0, dur := 0, span := 1, mkind := 1, mnum := 0,
    num := 1, den := 1, anchor := 0, phi := 0, engage := 0, st := .active, resolved := none, durLeft := 0, reached := false,
    ending := true, started := false, since := 0 }

/-- Axis 0 stands still while axis 1, geared to it, comes to rest. -/
def masterAtStandstill : State :=
  let d := os (os (os (os (os Dev.reset 0x1010 0 0x40C0) 0x1020 1 3) (ax 0 9) 1 1) (ax 1 1) 1 3) (ax 1 9) 1 2
  { State.reset with dev := setMot (os d (ax 0 0x28) 1 1) 1 { mot d 1 with queue := [endingGearEntry] } }

/-- Refutes O32: the master of a gear entry that comes to rest does not home (R125), though that entry is no longer geared to it. -/
theorem not_stopResumeFlushAndHome : ¬ Obligations.StopResumeFlushAndHome := by
  unfold Obligations.StopResumeFlushAndHome
  intro h
  have hcmd : Commandable 0 1 masterAtStandstill := by unfold Commandable; decide
  obtain ⟨-, -, -, -, hhome⟩ := h 0 1 masterAtStandstill hcmd (by decide)
  obtain ⟨-, hother⟩ := hhome (by decide) (by decide) (by decide) (by decide +kernel) (by decide +kernel)
  obtain ⟨d, hexec, -, hecho, -, -, -, -, honly⟩ := hother (by decide)
  have hready : ready d 2 = false := by
    have hkept := honly.2.1 (okey 0x1010 0) (.inl (by decide))
    unfold ready
    rw [og, hkept]; decide
  have hpower : d.power.cleared = false := by rw [honly.1]; rfl
  have hreal : og (devOf (exec (.home 0 1) masterAtStandstill)) (ax 0 9) 3 = 0x102 := by decide +kernel
  have hfinal := (dev_upd_held (s := masterAtStandstill) hready hpower).echoes 0
  have hdev : devOf (exec (.home 0 1) masterAtStandstill) = (upd masterAtStandstill (fun _ => d)).dev := congrArg devOf hexec
  rw [hdev, hfinal] at hreal
  exact absurd (hecho.symm.trans hreal) (by decide)

end Sys2Proof.Machine
end

section
/-! ## Axis commands: how one is taken -/
namespace Sys2Proof.Machine

/-- Device `c` is device `d` with a new command of axis n in its object and a number taken (R101, R376). -/
structure CommandSeen (d c : Dev) (n : Nat) : Prop where
  frame : c = { d with objs := c.objs, fc := c.fc }
  others : ∀ k, k ≠ okey (ax n 8) 1 → k ∉ dropKeys → tget objDefault c.objs k = tget objDefault d.objs k
  only : AxisOnly (number d).1 c n

/-- The command object of axis n is set. -/
def commandSet (d : Dev) (n v : Nat) : Dev := os d (ax n 8) 1 v

theorem og_commandSet (d : Dev) (n v : Nat) {i c : Nat} (hi : i < 0x8000) (hc : c < 256) : og (commandSet d n v) i c = og d i c := by
  rw [commandSet, og_os, if_neg (by unfold okey ax; omega)]

theorem AxisOnly.trans {n : Nat} {a b c : Dev} (h : AxisOnly a b n) (g : AxisOnly b c n) : AxisOnly a c n := by
  obtain ⟨hframe, hkept, hothers⟩ := h
  obtain ⟨gframe, gkept, gothers⟩ := g
  refine ⟨by rw [gframe, hframe], fun k hk => (gkept k hk).trans (hkept k hk), fun m hm => ?_⟩
  obtain ⟨h1, h2, h3, h4⟩ := hothers m hm
  obtain ⟨g1, g2, g3, g4⟩ := gothers m hm
  exact ⟨g1.trans h1, g2.trans h2, g3.trans h3, g4.trans h4⟩

theorem AxisOnly.of_os (d : Dev) (n : Nat) {o c : Nat} (v : Nat) (ho : o < 0x40) (hc : c < 256) : AxisOnly d (os d (ax n o) c v) n :=
  ⟨rfl, fun k hk => os_other _ _ _ _ _ (by unfold okey ax at *; omega), fun _ _ => ⟨rfl, rfl, rfl, rfl⟩⟩

theorem bump_commandSet (d : Dev) (n v : Nat) : AxisOnly (bump d 0x3800 0x0A) (bump (commandSet d n v) 0x3800 0x0A) n := by
  have hcount := og_commandSet d n v (i := 0x3800) (c := 0x0A) (by decide) (by decide)
  obtain ⟨-, hset, -⟩ := AxisOnly.of_os d n (o := 8) (c := 1) v (by decide) (by decide)
  have hos : ∀ k, k < okey (ax n 0) 0 ∨ okey (ax (n + 1) 0) 0 ≤ k →
      tget objDefault (os (commandSet d n v) 0x3800 0x0A (og d 0x3800 0x0A + 1)).objs k = tget objDefault (os d 0x3800 0x0A (og d 0x3800 0x0A + 1)).objs k := by
    intro k hk
    by_cases h : k = okey 0x3800 0x0A
    · rw [h]; exact (og_os_same (commandSet d n v) 0x3800 0x0A _).trans (og_os_same d 0x3800 0x0A _).symm
    · rw [os_other _ _ _ _ _ h, os_other _ _ _ _ _ h]
      exact hset k hk
  unfold bump
  dsimp only
  rw [hcount]
  split
  · exact AxisOnly.of_os d n v (by decide) (by decide)
  · split
    · exact ⟨rfl, hos, fun _ _ => ⟨rfl, rfl, rfl, rfl⟩⟩
    · exact ⟨rfl, hos, fun _ _ => ⟨rfl, rfl, rfl, rfl⟩⟩

theorem sealed_commandSet (d : Dev) (n v : Nat) : sealed (commandSet d n v) = sealed d := by
  unfold sealed
  rw [og_commandSet _ _ _ (by decide) (by decide)]

theorem number_commandSet (d : Dev) (n v : Nat) :
    AxisOnly (number d).1 (number (commandSet d n v)).1 n ∧ (number (commandSet d n v)).2 = (number d).2 := by
  have hfc : (commandSet d n v).fc = d.fc := rfl
  have hset : AxisOnly d (commandSet d n v) n := .of_os d n v (by decide) (by decide)
  unfold number
  rw [og_commandSet _ _ _ (by decide) (by decide), sealed_commandSet, hfc]
  split
  · exact ⟨hset, rfl⟩
  · split
    · exact ⟨bump_commandSet d n v, rfl⟩
    · exact ⟨⟨rfl, hset.2.1, hset.2.2⟩, rfl⟩

theorem commandSeen (d : Dev) (n v : Nat) : CommandSeen d (number (commandSet d n v)).1 n := by
  refine ⟨?_, fun k hk hd => ?_, (number_commandSet d n v).1⟩
  · rw [number_frame]; rfl
  · exact (number_kept (commandSet d n v) k hd).trans (os_other _ _ _ _ _ hk)

namespace CommandSeen
variable {d c : Dev} {n : Nat}

theorem mot (h : CommandSeen d c n) (m : Nat) : Machine.mot c m = Machine.mot d m := by rw [h.frame]; rfl
theorem srv (h : CommandSeen d c n) (m : Nat) : Machine.srv c m = Machine.srv d m := by rw [h.frame]; rfl
theorem cur (h : CommandSeen d c n) (m : Nat) : Machine.cur c m = Machine.cur d m := by rw [h.frame]; rfl
theorem stp (h : CommandSeen d c n) (m : Nat) : Machine.stp c m = Machine.stp d m := by rw [h.frame]; rfl
theorem hd (h : CommandSeen d c n) (g j : Nat) : Machine.hd c g j = Machine.hd d g j := by rw [h.frame]; rfl
theorem chan (h : CommandSeen d c n) (g : Nat) : Machine.chan c g = Machine.chan d g := by rw [h.frame]; rfl
theorem cg (h : CommandSeen d c n) (i j : Nat) : Machine.cg c i j = Machine.cg d i j := by rw [h.frame]; rfl

/-- An object of the axis other than the command. -/
theorem og (h : CommandSeen d c n) {o j : Nat} (ho : o < 0x40) (hj : j < 256) (hne : o * 256 + j ≠ 0x801) :
    Machine.og c (ax n o) j = Machine.og d (ax n o) j := by
  refine h.others _ (fun he => hne ?_) ?_
  · have hsum : ∀ a, (a + o) * 256 + j = (a + 8) * 256 + 1 → o * 256 + j = 0x801 := by omega
    exact hsum _ he
  · simp [dropKeys, okey, ax]; omega

theorem og_low (h : CommandSeen d c n) {i j : Nat} (hi : i < 0x8000) (hj : j < 256) (hk : okey i j ∉ dropKeys) : Machine.og c i j = Machine.og d i j :=
  h.others _ (by unfold okey ax; omega) hk

theorem axState (h : CommandSeen d c n) : Machine.axState c n = Machine.axState d n := h.og (by decide) (by decide) (by decide)
theorem axEnabled (h : CommandSeen d c n) : Machine.axEnabled c n = Machine.axEnabled d n := by rw [Machine.axEnabled, h.axState]; rfl
theorem mode (h : CommandSeen d c n) : Machine.mode c = Machine.mode d := h.og_low (by decide) (by decide) (by decide)
theorem ready (h : CommandSeen d c n) (b : Nat) : Machine.ready c b = Machine.ready d b := by
  unfold Machine.ready
  rw [h.og_low (by decide) (by decide) (by decide)]
theorem pRef (h : CommandSeen d c n) : Machine.pRef c n = Machine.pRef d n := by
  unfold Machine.pRef ogi
  rw [h.og (by decide) (by decide) (by decide)]
theorem fbInput (h : CommandSeen d c n) : Machine.fbInput c n = Machine.fbInput d n := by
  unfold Machine.fbInput
  rw [h.og (by decide) (by decide) (by decide), h.og (by decide) (by decide) (by decide)]
end CommandSeen

/-- The device when command `code` of axis n is done: the number that the arbiter gave is `q`. -/
def commandNumbered (d : Dev) (n : Nat) (seq : BitVec 8) (code : Nat) : Dev := (number (commandSet d n (seq.toNat * 256 + code))).1

theorem exec_axisCmd (n : Ax) (seq : BitVec 8) (s : State) {code : Nat} (hc : code < 10) :
    exec (axisCmd code n seq) s = .next (upd s (fun d => axisCommand d n seq code)) := by
  interval_cases code <;> rfl

theorem axisCommand_taken {n : Ax} {seq : BitVec 8} {s : State} {code : Nat} (h : Commandable n seq s) (hc : code < 10) :
    axisCommand s.dev n seq code = os (doCommand (commandNumbered s.dev n.val seq code) n.val s.dev.time.kc code ((number s.dev).2.getD 0)).1 (ax n.val 9) 3
      (seq.toNat * 256 + (doCommand (commandNumbered s.dev n.val seq code) n.val s.dev.time.kc code ((number s.dev).2.getD 0)).2) := by
  obtain ⟨hpair, hseq, hready⟩ := h
  have hother (o j : Nat) (ho : o < 0x40) (hj : j < 256) (hne : o * 256 + j ≠ 0x801) :
      og (commandSet s.dev n.val (seq.toNat * 256 + code)) (ax n.val o) j = og s.dev (ax n.val o) j := by
    refine os_other _ _ _ _ _ (fun he => hne ?_)
    have hsum : ∀ a, (a + o) * 256 + j = (a + 8) * 256 + 1 → o * 256 + j = 0x801 := by omega
    exact hsum _ he
  have hreadyb (b : Nat) : ready (commandSet s.dev n.val (seq.toNat * 256 + code)) b = ready s.dev b := by
    unfold ready; rw [og_commandSet _ _ _ (by decide) (by decide)]
  have hready' : axisReady (commandSet s.dev n.val (seq.toNat * 256 + code)) n.val = true := by
    unfold axisReady cluster at *
    rw [hreadyb, hreadyb, hreadyb, hother 0x1D 1 (by decide) (by decide) (by decide), hother 1 1 (by decide) (by decide) (by decide)]
    exact hready
  obtain ⟨-, hq⟩ := number_commandSet s.dev n.val (seq.toNat * 256 + code)
  have hdiv : (seq.toNat * 256 + code) / 256 = seq.toNat := by omega
  have hmod : (seq.toNat * 256 + code) % 256 = code := by omega
  have hc : og (commandSet s.dev n.val (seq.toNat * 256 + code)) (ax n.val 8) 1 = seq.toNat * 256 + code := og_os_same ..
  unfold axisCommand
  dsimp only
  rw [hpair, if_neg Bool.false_ne_true]
  change takeCommand (commandSet s.dev n.val (seq.toNat * 256 + code)) n.val s.dev.time.kc = _
  unfold takeCommand
  dsimp only
  rw [hc, hdiv, hmod, if_neg (by rw [hother 9 3 (by decide) (by decide) (by decide)]; exact hseq), if_neg (by simp [hready']), hq]
  rfl

theorem og_commandNumbered (d : Dev) (n : Nat) (seq : BitVec 8) (code : Nat) : og (commandNumbered d n seq code) (ax n 8) 1 = seq.toNat * 256 + code :=
  ((number_kept (commandSet d n (seq.toNat * 256 + code))).og (by simp [dropKeys, okey, ax]; omega)).trans (og_os_same ..)

/-- A command that was taken, by what it does once its number is given. -/
theorem Taken.of_done {code : Nat} {n : Ax} {seq : BitVec 8} {s : State} {r : Nat} {P : Dev → Prop} {c e : Dev} (h : Commandable n seq s)
    (hcode : code < 10) (hcdef : c = commandNumbered s.dev n.val seq code)
    (hdo : doCommand c n.val s.dev.time.kc code ((number s.dev).2.getD 0) = (e, r)) (hstep : og e (ax n.val 8) 1 = og c (ax n.val 8) 1)
    (hp : P (os e (ax n.val 9) 3 (seq.toNat * 256 + r))) : Taken code n seq s r P := by
  subst hcdef
  refine .of_upd (exec_axisCmd n seq s hcode) ?_
  rw [axisCommand_taken h hcode, hdo]
  refine ⟨?_, og_os_same .., hp⟩
  have hne : okey (ax n.val 8) 1 ≠ okey (ax n.val 9) 3 := by unfold okey ax; omega
  rw [og_os, if_neg hne, hstep, og_commandNumbered]

/-! ### Objects of an axis -/

theorem og_ax_other (d : Dev) (n : Nat) {o c p j : Nat} (v : Nat) (h : p * 256 + j ≠ o * 256 + c) : og (os d (ax n o) c v) (ax n p) j = og d (ax n p) j := by
  refine os_other _ _ _ _ _ (fun he => h ?_)
  have hsum : ∀ a, (a + p) * 256 + j = (a + o) * 256 + c → p * 256 + j = o * 256 + c := by omega
  exact hsum _ he

theorem osb_ax_other (d : Dev) (n : Nat) {o c p j : Nat} (b : Nat) (v : Bool) (h : p * 256 + j ≠ o * 256 + c) :
    og (osb d (ax n o) c b v) (ax n p) j = og d (ax n p) j := og_ax_other d n _ h

theorem showAxis_objs (d : Dev) (n : Nat) : ObjsOnly d (showAxis d n) := by
  unfold showAxis
  refine ObjsOnly.os (ObjsOnly.os ?_ _ _ _) _ _ _
  split
  · split
    · exact (((((ObjsOnly.refl d).os _ _ _).os _ _ _).os _ _ _).os _ _ _)
    · exact (((((ObjsOnly.refl d).os _ _ _).os _ _ _).os _ _ _).os _ _ _)
  · exact (((((ObjsOnly.refl d).os _ _ _).os _ _ _).os _ _ _).os _ _ _)

theorem mot_showAxis (d : Dev) (n m : Nat) : mot (showAxis d n) m = mot d m := by rw [showAxis_objs]; rfl
theorem srv_showAxis (d : Dev) (n m : Nat) : srv (showAxis d n) m = srv d m := by rw [showAxis_objs]; rfl

/-- The objects that show the queue, the homing phase and the status of an axis. -/
def shownSubs : List Nat := [0x2201, 0x2202, 0x2203, 0x2204, 0x2901, 0x904]

theorem og_showAxis (d : Dev) (n : Nat) {p j : Nat} (h : p * 256 + j ∉ shownSubs) : og (showAxis d n) (ax n p) j = og d (ax n p) j := by
  simp only [shownSubs, List.mem_cons, List.not_mem_nil, or_false, not_or] at h
  obtain ⟨h1, h2, h3, h4, h5, h6⟩ := h
  unfold showAxis
  rw [og_ax_other _ _ _ h6, og_ax_other _ _ _ h5]
  split
  · split
    · rw [og_ax_other _ _ _ h4, og_ax_other _ _ _ h3, og_ax_other _ _ _ h2, og_ax_other _ _ _ h1]
    · rw [osi, og_ax_other _ _ _ h4, og_ax_other _ _ _ h3, og_ax_other _ _ _ h2, og_ax_other _ _ _ h1]
  · rw [og_ax_other _ _ _ h4, og_ax_other _ _ _ h3, og_ax_other _ _ _ h2, og_ax_other _ _ _ h1]

theorem og_showAxis_queue (d : Dev) (n : Nat) : og (showAxis d n) (ax n 0x22) 1 = (mot d n).queue.length := by
  unfold showAxis
  rw [og_ax_other _ _ _ (by decide), og_ax_other _ _ _ (by decide)]
  split
  · split
    · rw [og_ax_other _ _ _ (by decide), og_ax_other _ _ _ (by decide), og_ax_other _ _ _ (by decide), og_os_same]
    · rw [osi, og_ax_other _ _ _ (by decide), og_ax_other _ _ _ (by decide), og_ax_other _ _ _ (by decide), og_os_same]
  · rw [og_ax_other _ _ _ (by decide), og_ax_other _ _ _ (by decide), og_ax_other _ _ _ (by decide), og_os_same]

/-- The bits of an axis's status that are not shown anew: referenced, suspect, clamped fillet, chatter and software limit. -/
theorem bit_showAxis (d : Dev) (n : Nat) {i : Nat} (h : i ∉ [2, 3, 4, 6, 7]) : bit (og (showAxis d n) (ax n 9) 4) i = bit (og d (ax n 9) 4) i := by
  simp only [List.mem_cons, List.not_mem_nil, or_false, not_or] at h
  obtain ⟨h2, h3, h4, h6, h7⟩ := h
  unfold showAxis
  dsimp only
  rw [og_os_same]
  simp only [bit_setBit, h2, h3, h4, h6, h7, if_false]
  rw [og_ax_other _ _ _ (by decide)]
  split
  · split
    · rw [og_ax_other _ _ _ (by decide), og_ax_other _ _ _ (by decide), og_ax_other _ _ _ (by decide), og_ax_other _ _ _ (by decide)]
    · rw [osi, og_ax_other _ _ _ (by decide), og_ax_other _ _ _ (by decide), og_ax_other _ _ _ (by decide), og_ax_other _ _ _ (by decide)]
  · rw [og_ax_other _ _ _ (by decide), og_ax_other _ _ _ (by decide), og_ax_other _ _ _ (by decide), og_ax_other _ _ _ (by decide)]

theorem pRef_os (d : Dev) (n : Nat) {o c : Nat} (v : Nat) (h : 0x2401 ≠ o * 256 + c) : pRef (os d (ax n o) c v) n = pRef d n := by
  unfold pRef ogi
  rw [og_ax_other _ _ _ h]

theorem axState_os (d : Dev) (n : Nat) {o c : Nat} (v : Nat) (h : 0x901 ≠ o * 256 + c) : axState (os d (ax n o) c v) n = axState d n :=
  og_ax_other _ _ _ h

theorem pRef_showAxis (d : Dev) (n : Nat) : pRef (showAxis d n) n = pRef d n := by
  unfold pRef ogi
  rw [og_showAxis _ _ (by decide)]

theorem axState_showAxis (d : Dev) (n : Nat) : axState (showAxis d n) n = axState d n := og_showAxis _ _ (by decide)

/-! ### Enable -/

/-- The references of an axis that is enabled stand at its position, its demands are gone and its causes cleared. -/
def enableSet (d : Dev) (n : Nat) : Dev :=
  let d := setRefs d n (axisPos d n, 0, 0)
  let d := setCause (setMot d n { mot d n with demands := [], stop := none }) n 0 0
  osb (osb (osb d (ax n 0x1B) 7 4 false) (ax n 0x1F) 0x13 1 false) (ax n 0x36) 5 7 false

/-- The loops of an axis that is enabled start anew. -/
def enableLoops (d : Dev) (n : Nat) : Dev :=
  let d := setCur d n { cur d n with jd := 0, jq := 0, clear := true }
  let d := setStp d n { stp d n with stall := 0, energise := true, clear := true }
  if kind d n = 3 || kind d n = 4 then osf d (ax n 0x36) 1 (ogf d (ax n 0x34) 1) else d

/-- An axis that is enabled. -/
def enabled (d : Dev) (n : Nat) : Dev :=
  showAxis (os (enableLoops (enableSet d n) n) (ax n 9) 1 (if (mot d n).queue.isEmpty then 1 else 4)) n

theorem enableAxis_ok {d : Dev} {n : Nat} (h0 : axState d n = 0) (hfb : ((fbInput d n).isSome && !ready d 16) = false) (hok : enableOk d n = true) :
    enableAxis d n = (enabled d n, 0) := by
  unfold enableAxis
  rw [if_neg (by simp [h0]), if_neg (by simp [hfb]), if_neg (by simp [hok])]
  rfl

theorem enableSet_step (d : Dev) (n : Nat) : AxisStep n d (enableSet d n) :=
  ((((setRefs_step d n _).mot _).trans (setCause_step ..)).os _ (by decide) (by decide) (by decide) |>.os _ (by decide) (by decide) (by decide)).os _
    (by decide) (by decide) (by decide)

theorem enableLoops_step (d : Dev) (n : Nat) : AxisStep n d (enableLoops d n) := by
  have h := ((AxisStep.refl n d).cur { cur d n with jd := 0, jq := 0, clear := true }).stp
    { stp (setCur d n { cur d n with jd := 0, jq := 0, clear := true }) n with stall := 0, energise := true, clear := true }
  unfold enableLoops
  dsimp only
  split
  · exact h.os _ (by decide) (by decide) (by decide)
  · exact h

theorem enabled_step (d : Dev) (n : Nat) : AxisStep n d (enabled d n) :=
  (((enableSet_step d n).trans (enableLoops_step _ n)).os _ (by decide) (by decide) (by decide)).trans (showAxis_step ..)

theorem og_enableLoops (d : Dev) (n : Nat) {p j : Nat} (h : p * 256 + j ≠ 0x3601) : og (enableLoops d n) (ax n p) j = og d (ax n p) j := by
  unfold enableLoops
  dsimp only
  split
  · exact og_ax_other _ _ _ h
  · rfl

theorem mot_enableLoops (d : Dev) (n m : Nat) : mot (enableLoops d n) m = mot d m := by
  unfold enableLoops
  dsimp only
  split <;> rfl

theorem enableSet_values (d : Dev) (n : Nat) : og (enableSet d n) (ax n 0x24) 1 = pat 64 (axisPos d n) ∧
    og (enableSet d n) (ax n 0x24) 2 = (f32OfRat 0).toNat ∧ og (enableSet d n) (ax n 9) 2 = 0 ∧
    mot (enableSet d n) n = { mot d n with demands := [], stop := none } := by
  refine ⟨?_, ?_, ?_, ?_⟩
  · simp (disch := decide) only [enableSet, osb, setCause, setRefs, osf, osi, og_ax_other, og_os_same, og_setMot]
  · simp (disch := decide) only [enableSet, osb, setCause, setRefs, osf, osi, og_ax_other, og_os_same, og_setMot]
  · simp (disch := decide) only [enableSet, osb, setCause, og_ax_other, og_os_same]
  · show mot (setMot _ n _) n = _
    rw [mot_setMot, if_pos rfl]; rfl

theorem enabled_values (d : Dev) (n : Nat) : axState (enabled d n) n = (if (mot d n).queue = [] then 1 else 4) ∧
    pRef (enabled d n) n = wrap 64 (axisPos d n) ∧ ogf (enabled d n) (ax n 0x24) 2 = f32OfRat 0 ∧ og (enabled d n) (ax n 9) 2 = 0 ∧
    mot (enabled d n) n = { mot d n with demands := [], stop := none } := by
  obtain ⟨hpos, hvel, hcause, hmot⟩ := enableSet_values d n
  have hog (p j : Nat) (h1 : p * 256 + j ∉ shownSubs) (h2 : p * 256 + j ≠ 9 * 256 + 1) (h3 : p * 256 + j ≠ 0x3601) :
      og (enabled d n) (ax n p) j = og (enableSet d n) (ax n p) j := by
    rw [enabled, og_showAxis _ _ h1, og_ax_other _ _ _ h2, og_enableLoops _ _ h3]
  refine ⟨?_, ?_, ?_, ?_, ?_⟩
  · rw [enabled, axState_showAxis, axState, og_os_same]
    simp only [List.isEmpty_iff]
  · rw [pRef, ogi, hog _ _ (by decide) (by decide) (by decide), hpos]; rfl
  · rw [ogf, hog _ _ (by decide) (by decide) (by decide), hvel, BitVec.ofNat_toNat, BitVec.setWidth_eq]
  · rw [hog _ _ (by decide) (by decide) (by decide), hcause]
  · rw [enabled, mot_showAxis]
    show mot (enableLoops (enableSet d n) n) n = _
    rw [mot_enableLoops, hmot]

end Sys2Proof.Machine
end

section
/-! ## Enable, Disable, Acknowledge and Append -/
namespace Sys2Proof.Machine

/-! ### What a new command leaves to be read -/

theorem bump_commandSet_writes (d : Dev) (n v : Nat) : Writes (bump d 0x3800 0x0A) (bump (commandSet d n v) 0x3800 0x0A) [okey (ax n 8) 1] [] := by
  have hcount := og_commandSet d n v (i := 0x3800) (c := 0x0A) (by decide) (by decide)
  have hkept (w : Nat) : ObjsKept (os d 0x3800 0x0A w) (os (commandSet d n v) 0x3800 0x0A w) [okey (ax n 8) 1] := by
    intro k hk
    by_cases h : k = okey 0x3800 0x0A
    · rw [h]; exact (og_os_same (commandSet d n v) 0x3800 0x0A _).trans (og_os_same d 0x3800 0x0A _).symm
    · rw [os_other _ _ _ _ _ h, os_other _ _ _ _ _ h]
      exact os_other _ _ _ _ _ (by simpa using hk)
  unfold bump
  dsimp only
  rw [hcount]
  split
  · exact ⟨by simp [commandSet, os], fun k hk => os_other _ _ _ _ _ (by simpa using hk)⟩
  · split
    · exact ⟨by simp [commandSet, os, later], hkept (og d 0x3800 0x0A + 1)⟩
    · exact ⟨by simp [commandSet, os], hkept _⟩

theorem number_commandSet_writes (d : Dev) (n v : Nat) : Writes (number d).1 (number (commandSet d n v)).1 [okey (ax n 8) 1] [] := by
  have hfc : (commandSet d n v).fc = d.fc := rfl
  have hset : ObjsKept d (commandSet d n v) [okey (ax n 8) 1] := fun k hk => os_other _ _ _ _ _ (by simpa using hk)
  unfold number
  rw [og_commandSet _ _ _ (by decide) (by decide), sealed_commandSet, hfc]
  split
  · exact ⟨by simp [commandSet, os], hset⟩
  · split
    · exact bump_commandSet_writes d n v
    · exact ⟨by simp [commandSet, os], hset⟩

/-- Only the command and its echo are written when a command does nothing. -/
theorem commandRefused (d : Dev) (n : Nat) (seq : BitVec 8) (code v : Nat) :
    Writes (number d).1 (os (commandNumbered d n seq code) (ax n 9) 3 v) [okey (ax n 8) 1, okey (ax n 9) 3] [] := by
  obtain ⟨hframe, hkept⟩ := number_commandSet_writes d n (seq.toNat * 256 + code)
  refine ⟨?_, fun k hk => ?_⟩
  · show os (number _).1 _ _ _ = _
    rw [hframe]; rfl
  · simp only [List.mem_cons, List.not_mem_nil, or_false, not_or] at hk
    exact (os_other _ _ _ _ _ hk.2).trans (hkept k (by simpa using hk.1))

namespace CommandSeen
variable {d c : Dev} {n : Nat}

/-- An object by its sub-index alone: neither the command's nor a drop counter's. -/
theorem og_sub (h : CommandSeen d c n) (i : Nat) {j : Nat} (hj : j < 256) (hne : j ∉ [1, 6, 7, 0x0A]) : Machine.og c i j = Machine.og d i j := by
  simp only [List.mem_cons, List.not_mem_nil, or_false, not_or] at hne
  refine h.others _ (by unfold okey ax; omega) ?_
  simp [dropKeys, okey]
  omega

theorem kind (h : CommandSeen d c n) (m : Nat) : Machine.kind c m = Machine.kind d m := h.cg _ _
theorem bound (h : CommandSeen d c n) : Machine.og c (ax n 1) 1 = Machine.og d (ax n 1) 1 := h.og (by decide) (by decide) (by decide)
theorem ogi (h : CommandSeen d c n) {w o j : Nat} (ho : o < 0x40) (hj : j < 256) (hne : o * 256 + j ≠ 0x801) :
    Machine.ogi w c (ax n o) j = Machine.ogi w d (ax n o) j := by rw [Machine.ogi, Machine.ogi, h.og ho hj hne]
theorem ogf (h : CommandSeen d c n) {o j : Nat} (ho : o < 0x40) (hj : j < 256) (hne : o * 256 + j ≠ 0x801) :
    Machine.ogf c (ax n o) j = Machine.ogf d (ax n o) j := by rw [Machine.ogf, Machine.ogf, h.og ho hj hne]
theorem ogq (h : CommandSeen d c n) {o j : Nat} (ho : o < 0x40) (hj : j < 256) (hne : o * 256 + j ≠ 0x801) :
    Machine.ogq c (ax n o) j = Machine.ogq d (ax n o) j := by rw [Machine.ogq, Machine.ogq, h.ogf ho hj hne]

theorem axisPos (h : CommandSeen d c n) : Machine.axisPos c n = Machine.axisPos d n := by
  unfold Machine.axisPos stepNow offsetFraction
  rw [h.kind, h.srv, h.stp, h.chan, h.cg, h.ogi (by decide) (by decide) (by decide), h.pRef]

theorem enableOk (h : CommandSeen d c n) : Machine.enableOk c n = Machine.enableOk d n := by
  unfold Machine.enableOk segState
  rw [h.mode, h.bound, h.og (o := 1) (j := 2) (by decide) (by decide) (by decide), h.og (o := 1) (j := 3) (by decide) (by decide) (by decide), h.hd,
    h.og_sub _ (by decide) (by decide)]

theorem causePresent (h : CommandSeen d c n) : Machine.causePresent c n = Machine.causePresent d n := by
  unfold Machine.causePresent
  rw [h.bound, h.fbInput, h.srv, h.cur, h.stp, h.og (o := 0x16) (j := 2) (by decide) (by decide) (by decide),
    h.og (o := 0x1F) (j := 7) (by decide) (by decide) (by decide)]
  simp only [h.og_sub _ (j := 4) (by decide) (by decide)]

/-- Beside the number taken only the axis changed, when the command's work is of the axis and its echo is written. -/
theorem done (h : CommandSeen d c n) {e : Dev} (hstep : AxisStep n c e) (v : Nat) : AxisOnly (number d).1 (os e (ax n 9) 3 v) n :=
  h.only.trans (hstep.axisOnly.trans (.of_os e n v (by decide) (by decide)))

end CommandSeen

theorem commandNumbered_seen (d : Dev) (n : Nat) (seq : BitVec 8) (code : Nat) : CommandSeen d (commandNumbered d n seq code) n := commandSeen ..

/-! ### Disable -/

theorem og_bump_other {d : Dev} {n o c p j : Nat} (h : p * 256 + j ≠ o * 256 + c) : og (bump d (ax n o) c) (ax n p) j = og d (ax n p) j := by
  unfold bump
  dsimp only
  split
  · rfl
  · split
    · exact og_ax_other _ _ _ h
    · exact og_ax_other _ _ _ h

theorem mot_bump (d : Dev) (i c m : Nat) : mot (bump d i c) m = mot d m := by
  unfold bump
  dsimp only
  split
  · rfl
  · split <;> rfl

theorem queue_retireBlend (d : Dev) (n : Nat) : (mot (retireBlend d n) n).queue = (mot d n).queue := by
  unfold retireBlend
  split
  · rw [mot_bump, mot_setMot, if_pos rfl]
  · rfl

theorem queue_homeAbort (d : Dev) (n r : Nat) : (mot (homeAbort d n r) n).queue = (mot d n).queue := by
  unfold homeAbort
  split
  · rw [mot_bump]
    show (mot (setMot _ n _) n).queue = _
    rw [mot_setMot, if_pos rfl]
  · rfl

/-- The objects of a stepper axis that its torque off sets. -/
theorem og_stepperOff (d : Dev) (n : Nat) {p j : Nat} (h : p * 256 + j ≠ 0x3601 ∧ p * 256 + j ≠ 0x3605) :
    og (stepperOff d n) (ax n p) j = og d (ax n p) j := by
  obtain ⟨h1, h5⟩ := h
  unfold stepperOff
  split
  · dsimp only
    rw [osb_ax_other _ _ _ _ h5, osb_ax_other _ _ _ _ h5, osb_ax_other _ _ _ _ h5, og_ax_other _ _ _ h1]
    rfl
  · rfl

theorem mot_stepperOff (d : Dev) (n m : Nat) : mot (stepperOff d n) m = mot d m := by
  unfold stepperOff
  split <;> rfl

theorem srv_stepperOff (d : Dev) (n m : Nat) : srv (stepperOff d n) m = srv d m := by
  unfold stepperOff
  split <;> rfl

theorem og_loopsZeroed (d : Dev) (n i c : Nat) : og (loopsZeroed d n) i c = og d i c := rfl
theorem mot_loopsZeroed (d : Dev) (n m : Nat) : mot (loopsZeroed d n) m = mot d m := rfl

theorem tOut_loopsZeroed (d : Dev) (n : Nat) : (srv (loopsZeroed d n) n).tOut = 0 := by
  show (srv (setSrv _ n _) n).tOut = 0
  rw [srv_setSrv, if_pos rfl]

theorem queue_axisRested (d : Dev) (n st : Nat) : (mot (axisRested d n st) n).queue = (mot d n).queue.map QEntry.interrupt := by
  show (mot (setMot _ n _) n).queue = _
  rw [mot_setMot, if_pos rfl]

/-- An axis whose torque is off: its state, its torque and its queue. -/
theorem axisOff_values (d : Dev) (n st : Nat) : axState (axisOff d n st) n = st ∧ og (axisOff d n st) (ax n 0x1B) 4 = 0 ∧
    og (axisOff d n st) (ax n 0x1B) 5 = 0 ∧ (srv (axisOff d n st) n).tOut = 0 ∧
    (mot (axisOff d n st) n).queue = (mot d n).queue.map QEntry.interrupt := by
  have hog (p j : Nat) (h1 : p * 256 + j ∉ shownSubs) (h2 : p * 256 + j ≠ 0x3601 ∧ p * 256 + j ≠ 0x3605) :
      og (axisOff d n st) (ax n p) j = og (axisRested (homeAbort (retireBlend d n) n 2) n st) (ax n p) j := by
    rw [axisOff_eq, og_showAxis _ _ h1, og_stepperOff _ _ h2, og_loopsZeroed]
  refine ⟨?_, ?_, ?_, ?_, ?_⟩
  · rw [axState, hog _ _ (by decide) (by decide)]
    simp (disch := decide) only [axisRested, og_ax_other, og_os_same]
  · rw [hog _ _ (by decide) (by decide)]
    simp (disch := decide) only [axisRested, og_ax_other, og_os_same]
  · rw [hog _ _ (by decide) (by decide)]
    simp (disch := decide) only [axisRested, og_ax_other, og_os_same]
  · rw [axisOff_eq, srv_showAxis, srv_stepperOff]
    exact tOut_loopsZeroed ..
  · rw [axisOff_eq, mot_showAxis, mot_stepperOff, mot_loopsZeroed, queue_axisRested, queue_homeAbort, queue_retireBlend]

theorem tag_interrupt (e : QEntry) : e.interrupt.tag = e.tag := by
  unfold QEntry.interrupt
  split <;> rfl

theorem st_interrupt (e : QEntry) : (e.interrupt.st != .active) = true := by
  unfold QEntry.interrupt
  split
  · rfl
  next h => simpa using h

theorem tags_interrupt (q : List QEntry) : (q.map QEntry.interrupt).map QEntry.tag = q.map QEntry.tag := by
  rw [List.map_map]
  exact List.map_congr_left fun e _ => tag_interrupt e

theorem interrupted_notActive (q : List QEntry) : (q.map QEntry.interrupt).all (fun e => e.st != .active) = true := by
  rw [List.all_map, List.all_eq_true]
  exact fun e _ => st_interrupt e

/-! ### Acknowledge -/

/-- A level input no longer latched. -/
def unlatched (i : InputSt) : InputSt := { i with latched := false, changes := if i.latched then [] else i.changes }

/-- The latched inputs of the axis are released. -/
def acknowledged (d : Dev) (n : Nat) : Dev :=
  osb (setMot d n { mot d n with inPos := unlatched (mot d n).inPos, inNeg := unlatched (mot d n).inNeg, inRef := unlatched (mot d n).inRef }) (ax n 9) 4 8 false

theorem acknowledgeAxis_faulted {d : Dev} {n : Nat} (h : axState d n = 6) :
    acknowledgeAxis d n = if causePresent d n then (acknowledged d n, 7) else (os (acknowledged d n) (ax n 9) 1 0, 0) := by
  unfold acknowledgeAxis
  dsimp only
  rw [if_pos h]
  rfl

theorem acknowledged_step (d : Dev) (n : Nat) : AxisStep n d (acknowledged d n) :=
  ((AxisStep.refl n d).mot _).os _ (by decide) (by decide) (by decide)

theorem mot_acknowledged (d : Dev) (n : Nat) : (mot (acknowledged d n) n).inPos.latched = false ∧ (mot (acknowledged d n) n).queue = (mot d n).queue := by
  have h : mot (acknowledged d n) n =
      { mot d n with inPos := unlatched (mot d n).inPos, inNeg := unlatched (mot d n).inNeg, inRef := unlatched (mot d n).inRef } := by
    show mot (setMot _ n _) n = _
    rw [mot_setMot, if_pos rfl]
  rw [h]
  exact ⟨rfl, rfl⟩

theorem status_acknowledged (d : Dev) (n : Nat) : bit (og (acknowledged d n) (ax n 9) 4) 8 = false := by
  rw [acknowledged, osb, og_os_same, bit_setBit, if_pos rfl]

/-! ### The obligation -/

theorem doCommand_enable {d : Dev} {n k q : Nat} (h : mode d ≠ 4) : doCommand d n k 1 q = enableAxis d n := by
  unfold doCommand
  rw [if_neg (by simp [h])]
  rfl

theorem doCommand_disable (d : Dev) (n k q : Nat) : doCommand d n k 2 q = disableCmd d n := by
  unfold doCommand
  rw [if_neg (by simp)]
  rfl

theorem doCommand_acknowledge (d : Dev) (n k q : Nat) : doCommand d n k 9 q = acknowledgeAxis d n := by
  unfold doCommand
  rw [if_neg (by simp)]
  rfl

/-- An Enable whose conditions fail answers "state". -/
theorem doCommand_enable_refused {d : Dev} {n k q : Nat} (h0 : axState d n = 0) (hfb : ((fbInput d n).isSome && !ready d 16) = false)
    (hok : enableOk d n = false) : doCommand d n k 1 q = (d, 2) := by
  unfold doCommand
  split
  · rfl
  · show enableAxis d n = (d, 2)
    unfold enableAxis
    rw [if_neg (by simp [h0]), if_neg (by simp [hfb]), if_pos (by simp [hok])]

section
variable {n : Ax} {seq : BitVec 8} {s : State} (h : Commandable n seq s)
include h

theorem enable_taken (h0 : axState s.dev n.val = 0) (hok : enableOk s.dev n.val = true) (hfb : ((fbInput s.dev n.val).isSome && !ready s.dev 16) = false) :
    Taken 1 n seq s 0 (fun d =>
      axState d n.val = (if (mot s.dev n.val).queue = [] then 1 else 4) ∧ pRef d n.val = wrap 64 (axisPos s.dev n.val) ∧
      ogf d (ax n.val 0x24) 2 = f32OfRat 0 ∧ og d (ax n.val 9) 2 = 0 ∧ (mot d n.val).queue = (mot s.dev n.val).queue ∧
      (mot d n.val).demands = [] ∧ AxisOnly (number s.dev).1 d n.val) := by
  have hseen := commandNumbered_seen s.dev n.val seq 1
  have hmode : mode s.dev ≠ 4 := by
    intro hm
    simp [enableOk, hm] at hok
  generalize hc : commandNumbered s.dev n.val seq 1 = c at hseen
  have hstep := enabled_step c n.val
  obtain ⟨hstate, hpos, hvel, hcause, hmot⟩ := enabled_values c n.val
  rw [hseen.mot] at hstate hmot
  rw [hseen.axisPos] at hpos
  have hdo : doCommand c n.val s.dev.time.kc 1 ((number s.dev).2.getD 0) = (enabled c n.val, 0) := by
    rw [doCommand_enable (by rw [hseen.mode]; exact hmode), enableAxis_ok (by rw [hseen.axState]; exact h0) (by rw [hseen.fbInput, hseen.ready]; exact hfb)
      (by rw [hseen.enableOk]; exact hok)]
  refine .of_done h (by decide) hc.symm hdo hstep.command ⟨?_, ?_, ?_, ?_, ?_, ?_, hseen.done hstep _⟩
  · rw [axState_os _ _ _ (by decide), hstate]
  · rw [pRef_os _ _ _ (by decide), hpos]
  · rw [ogf, og_ax_other _ _ _ (by decide)]; exact hvel
  · rw [og_ax_other _ _ _ (by decide), hcause]
  · show (mot (enabled c n.val) n.val).queue = _
    rw [hmot]
  · show (mot (enabled c n.val) n.val).demands = _
    rw [hmot]

theorem enable_refused (h0 : axState s.dev n.val = 0) (hok : enableOk s.dev n.val = false) (hfb : ((fbInput s.dev n.val).isSome && !ready s.dev 16) = false) :
    Taken 1 n seq s 2 (fun d => axState d n.val = 0 ∧ Writes (number s.dev).1 d [okey (ax n.val 8) 1, okey (ax n.val 9) 3] []) := by
  have hseen := commandNumbered_seen s.dev n.val seq 1
  have hwrites := commandRefused s.dev n.val seq 1 (seq.toNat * 256 + 2)
  generalize hc : commandNumbered s.dev n.val seq 1 = c at hseen hwrites
  have hdo : doCommand c n.val s.dev.time.kc 1 ((number s.dev).2.getD 0) = (c, 2) :=
    doCommand_enable_refused (by rw [hseen.axState]; exact h0) (by rw [hseen.fbInput, hseen.ready]; exact hfb) (by rw [hseen.enableOk]; exact hok)
  refine .of_done h (by decide) hc.symm hdo rfl ⟨?_, hwrites⟩
  rw [axState_os _ _ _ (by decide), hseen.axState, h0]

theorem disable_taken (hen : axEnabled s.dev n.val = true) : Taken 2 n seq s 0 (fun d =>
      axState d n.val = 0 ∧ og d (ax n.val 0x1B) 4 = 0 ∧ og d (ax n.val 0x1B) 5 = 0 ∧ (srv d n.val).tOut = 0 ∧
      (mot d n.val).queue.map QEntry.tag = (mot s.dev n.val).queue.map QEntry.tag ∧
      (mot d n.val).queue.all (fun e => e.st != .active) = true ∧ AxisOnly (number s.dev).1 d n.val) := by
  have hseen := commandNumbered_seen s.dev n.val seq 2
  generalize hc : commandNumbered s.dev n.val seq 2 = c at hseen
  have hstep := axisOff_step c n.val 0
  obtain ⟨hstate, hiq, hid, htorque, hqueue⟩ := axisOff_values c n.val 0
  rw [hseen.mot] at hqueue
  have hdo : doCommand c n.val s.dev.time.kc 2 ((number s.dev).2.getD 0) = (axisOff c n.val 0, 0) := by
    rw [doCommand_disable, disableCmd, if_pos (by rw [hseen.axEnabled]; exact hen)]
  refine .of_done h (by decide) hc.symm hdo hstep.command ⟨?_, ?_, ?_, htorque, ?_, ?_, hseen.done hstep _⟩
  · rw [axState_os _ _ _ (by decide), hstate]
  · rw [og_ax_other _ _ _ (by decide), hiq]
  · rw [og_ax_other _ _ _ (by decide), hid]
  · show (mot (axisOff c n.val 0) n.val).queue.map _ = _
    rw [hqueue, tags_interrupt]
  · show (mot (axisOff c n.val 0) n.val).queue.all _ = _
    rw [hqueue, interrupted_notActive]

theorem acknowledge_taken (h6 : axState s.dev n.val = 6) (hcause : causePresent s.dev n.val = false) : Taken 9 n seq s 0 (fun d =>
      axState d n.val = 0 ∧ (mot d n.val).inPos.latched = false ∧ bit (og d (ax n.val 9) 4) 8 = false ∧
      (mot d n.val).queue = (mot s.dev n.val).queue ∧ AxisOnly (number s.dev).1 d n.val) := by
  have hseen := commandNumbered_seen s.dev n.val seq 9
  generalize hc : commandNumbered s.dev n.val seq 9 = c at hseen
  have hstep : AxisStep n.val c (os (acknowledged c n.val) (ax n.val 9) 1 0) := (acknowledged_step c n.val).os _ (by decide) (by decide) (by decide)
  obtain ⟨hlatched, hqueue⟩ := mot_acknowledged c n.val
  have hdo : doCommand c n.val s.dev.time.kc 9 ((number s.dev).2.getD 0) = (os (acknowledged c n.val) (ax n.val 9) 1 0, 0) := by
    rw [doCommand_acknowledge, acknowledgeAxis_faulted (by rw [hseen.axState]; exact h6), hseen.causePresent, hcause]
    rfl
  refine .of_done h (by decide) hc.symm hdo hstep.command ⟨?_, hlatched, ?_, hqueue.trans (by rw [hseen.mot]), hseen.done hstep _⟩
  · rw [axState_os _ _ _ (by decide), axState, og_os_same]
  · rw [og_ax_other _ _ _ (by decide), og_ax_other _ _ _ (by decide), status_acknowledged]

theorem acknowledge_refused (h6 : axState s.dev n.val = 6) (hcause : causePresent s.dev n.val = true) : Taken 9 n seq s 7 (fun d =>
      axState d n.val = 6 ∧ AxisOnly (number s.dev).1 d n.val) := by
  have hseen := commandNumbered_seen s.dev n.val seq 9
  generalize hc : commandNumbered s.dev n.val seq 9 = c at hseen
  have hstep := acknowledged_step c n.val
  have hdo : doCommand c n.val s.dev.time.kc 9 ((number s.dev).2.getD 0) = (acknowledged c n.val, 7) := by
    rw [doCommand_acknowledge, acknowledgeAxis_faulted (by rw [hseen.axState]; exact h6), hseen.causePresent, hcause]
    rfl
  refine .of_done h (by decide) hc.symm hdo hstep.command ⟨?_, hseen.done hstep _⟩
  rw [axState_os _ _ _ (by decide), acknowledged, axState, osb, og_ax_other _ _ _ (by decide)]
  exact hseen.axState.trans h6
end

/-- Settles O30: each command's work on the axis as it stands once the command object is set and the number taken. -/
theorem enableDisableAndAcknowledge : Obligations.EnableDisableAndAcknowledge := by
  unfold Obligations.EnableDisableAndAcknowledge
  intro n seq s h
  have hfeed (hfb : (fbInput s.dev n.val).isSome = true → ready s.dev 16 = true) : ((fbInput s.dev n.val).isSome && !ready s.dev 16) = false := by
    cases hs : (fbInput s.dev n.val).isSome
    · rfl
    · simp [hfb hs]
  exact ⟨fun h0 hok hfb => enable_taken h h0 hok (hfeed hfb), fun h0 hok hfb => enable_refused h h0 hok (hfeed hfb), disable_taken h,
    acknowledge_taken h, acknowledge_refused h⟩

end Sys2Proof.Machine
end

section
/-! ## Append -/
namespace Sys2Proof.Machine

theorem CommandSeen.staged {d c : Dev} {n : Nat} (h : CommandSeen d c n) : Machine.staged c n = Machine.staged d n := by
  unfold Machine.staged
  simp (disch := decide) only [h.og, h.ogi, h.ogf]

theorem CommandSeen.fieldsOk {d c : Dev} {n : Nat} (h : CommandSeen d c n) (e : QEntry) : Machine.fieldsOk c n e = Machine.fieldsOk d n e := by
  unfold Machine.fieldsOk
  simp (disch := decide) only [h.ogq]

theorem CommandSeen.intoLimit {d c : Dev} {n : Nat} (h : CommandSeen d c n) (dir : Int) : Machine.intoLimit c n dir = Machine.intoLimit d n dir := by
  unfold Machine.intoLimit
  rw [h.mot]

/-- Inputs at rest keep no direction closed. -/
theorem intoLimit_reset {d : Dev} {n : Nat} (hpos : (mot d n).inPos = .reset) (hneg : (mot d n).inNeg = .reset) (dir : Int) : intoLimit d n dir = false := by
  unfold intoLimit
  simp [hpos, hneg, InputSt.reset]

/-- The entry that Append queues: a target is resolved by the one before it (R109). -/
def appendedEntry (d : Dev) (n : Nat) : QEntry :=
  let e := staged d n
  if e.typ = 1 then { e with resolved := some e.target }
  else if e.typ = 2 then (match lastTarget (mot d n).queue with
    | some (some x) => { e with resolved := some (wrap 64 (x + e.target)) }
    | _ => e)
  else e

theorem appendedEntry_eq (d : Dev) (n : Nat) : appendedEntry d n = { staged d n with resolved := (appendedEntry d n).resolved } := by
  unfold appendedEntry
  dsimp only
  split
  · rfl
  · split
    · split <;> rfl
    · rfl

/-- The staged entry stands behind the others. -/
def appended (d : Dev) (n : Nat) : Dev := setMot d n { mot d n with queue := (mot d n).queue ++ [appendedEntry d n] }

theorem doCommand_append (d : Dev) (n k q : Nat) : doCommand d n k 3 q = appendEntry d n k := by
  unfold doCommand
  rw [if_neg (by simp)]
  rfl

theorem appendEntry_state {d : Dev} {n : Nat} (k : Nat) (h : axState d n = 5 ∨ axState d n = 6 ∨ mode d = 4) :
    appendEntry d n k = (bump d (ax n 0x2D) 1, 2) := by
  unfold appendEntry
  dsimp only
  rw [if_pos (by simpa [or_assoc] using h)]

theorem appendEntry_full {d : Dev} {n : Nat} (k : Nat) (h : axState d n < 5) (hm : mode d ≠ 4) (hq : 16 ≤ (mot d n).queue.length) :
    appendEntry d n k = (bump d (ax n 0x2D) 1, 3) := by
  unfold appendEntry
  dsimp only
  rw [if_neg (by simp [hm]; omega), if_pos hq]

theorem appendEntry_taken {d : Dev} {n : Nat} (k : Nat) (h : axState d n < 5) (hm : mode d ≠ 4) (hq : (mot d n).queue.length < 16)
    (hf : fieldsOk d n (staged d n) = true) (hw : og d (ax n 0x23) 4 ≠ 1) (hpos : (mot d n).inPos = .reset) (hneg : (mot d n).inNeg = .reset) :
    appendEntry d n k =
      if axState d n = 1 then (showAxis (activate (osb (appended d n) (ax n 9) 4 9 false) n k none) n, chainResult (appended d n) n (appendedEntry d n))
      else (showAxis (appended d n) n, 0) := by
  unfold appendEntry
  dsimp only
  rw [if_neg (by simp [hm]; omega), if_neg (by omega), if_neg (by simp [hf]), if_neg (by simp [hw]), intoLimit_reset hpos hneg,
    if_neg Bool.false_ne_true]
  rfl

/-- The axis moves, with this motion. -/
def moving (d : Dev) (n : Nat) (m : MotionSt) : Dev := setMot (os d (ax n 9) 1 2) n m

theorem moving_values (d : Dev) (n : Nat) {m : MotionSt} {e f : QEntry} (hq : m.queue = [f]) (hst : f.st = .active) (ht : f.typ = e.typ) (htag : f.tag = e.tag) :
    AxisStep n d (moving d n m) ∧ axState (moving d n m) n = 2 ∧
    ∃ f, (mot (moving d n m) n).queue = [f] ∧ f.st = .active ∧ f.typ = e.typ ∧ f.tag = e.tag :=
  ⟨((AxisStep.refl n d).os _ (by decide) (by decide) (by decide)).mot _, og_os_same .., f, by rw [moving, mot_setMot, if_pos rfl, hq], hst, ht, htag⟩

/-- A profile entry at the front is active from then on, and its axis moves. -/
theorem activate_values {d : Dev} {n : Nat} {e : QEntry} (k : Nat) (hq : (mot d n).queue = [e]) (ht : e.typ ≠ 4) :
    AxisStep n d (activate d n k none) ∧ axState (activate d n k none) n = 2 ∧
    ∃ f, (mot (activate d n k none) n).queue = [f] ∧ f.st = .active ∧ f.typ = e.typ ∧ f.tag = e.tag := by
  unfold activate
  rw [hq]
  dsimp only
  split
  · exact moving_values d n rfl rfl rfl rfl
  · split
    · exact moving_values d n rfl rfl rfl rfl
    · split
      · exact moving_values d n rfl rfl rfl rfl
      · exact moving_values d n rfl rfl rfl rfl

theorem appended_step (d : Dev) (n : Nat) : AxisStep n d (appended d n) := (AxisStep.refl n d).mot _

theorem mot_appended (d : Dev) (n : Nat) : mot (appended d n) n = { mot d n with queue := (mot d n).queue ++ [appendedEntry d n] } := by
  rw [appended, mot_setMot, if_pos rfl]

theorem appendedEntry_st (d : Dev) (n : Nat) : (appendedEntry d n).st = .queued := by rw [appendedEntry_eq]; rfl
theorem appendedEntry_typ (d : Dev) (n : Nat) : (appendedEntry d n).typ = og d (ax n 0x20) 1 := by rw [appendedEntry_eq]; rfl
theorem appendedEntry_tag (d : Dev) (n : Nat) : (appendedEntry d n).tag = og d (ax n 0x20) 2 := by rw [appendedEntry_eq]; rfl

section
variable {n : Ax} {seq : BitVec 8} {s : State} (h : Commandable n seq s)
include h

/-- An Append refused with result `r` is counted, and nothing else of the axis changes. -/
theorem append_refused {r : Nat} (hcount : og s.dev (ax n.val 0x2D) 1 < 0xFFFFFFFF)
    (hno : ∀ c, CommandSeen s.dev c n.val → appendEntry c n.val s.dev.time.kc = (bump c (ax n.val 0x2D) 1, r)) :
    Taken 3 n seq s r (fun d => og d (ax n.val 0x2D) 1 = og s.dev (ax n.val 0x2D) 1 + 1 ∧ mot d n.val = mot s.dev n.val ∧
      AxisOnly (number s.dev).1 d n.val) := by
  have hseen := commandNumbered_seen s.dev n.val seq 3
  generalize hc : commandNumbered s.dev n.val seq 3 = c at hseen
  have hstep : AxisStep n.val c (bump c (ax n.val 0x2D) 1) := (AxisStep.refl n.val c).bump (by decide) (by decide) (by decide)
  refine .of_done h (by decide) hc.symm (by rw [doCommand_append, hno c hseen]) hstep.command ⟨?_, ?_, hseen.done hstep _⟩
  · have hold : og c (ax n.val 0x2D) 1 = og s.dev (ax n.val 0x2D) 1 := hseen.og (by decide) (by decide) (by decide)
    rw [og_ax_other _ _ _ (by decide), og_bump_same (by rw [hold]; exact hcount), hold]
  · exact (mot_bump _ _ _ _).trans (hseen.mot _)

theorem append_queued (h5 : axState s.dev n.val < 5) (hm : mode s.dev ≠ 4) (hq : (mot s.dev n.val).queue.length < 16)
    (hf : fieldsOk s.dev n.val (staged s.dev n.val) = true) (hw : og s.dev (ax n.val 0x23) 4 ≠ 1) (hpos : (mot s.dev n.val).inPos = .reset)
    (hneg : (mot s.dev n.val).inNeg = .reset) (h1 : axState s.dev n.val ≠ 1) : Taken 3 n seq s 0 (fun d =>
        (∃ e, (mot d n.val).queue = (mot s.dev n.val).queue ++ [e] ∧ e.st = .queued ∧ e = { staged s.dev n.val with resolved := e.resolved }) ∧
        axState d n.val = axState s.dev n.val ∧ pRef d n.val = pRef s.dev n.val ∧
        og d (ax n.val 0x22) 1 = (mot s.dev n.val).queue.length + 1 ∧ AxisOnly (number s.dev).1 d n.val) := by
  have hseen := commandNumbered_seen s.dev n.val seq 3
  generalize hc : commandNumbered s.dev n.val seq 3 = c at hseen
  have hstep := (appended_step c n.val).trans (showAxis_step _ n.val)
  have hqueue : (mot (appended c n.val) n.val).queue = (mot s.dev n.val).queue ++ [appendedEntry c n.val] := by rw [mot_appended, hseen.mot]
  have hdo : doCommand c n.val s.dev.time.kc 3 ((number s.dev).2.getD 0) = (showAxis (appended c n.val) n.val, 0) := by
    rw [doCommand_append, appendEntry_taken _ (by rw [hseen.axState]; exact h5) (by rw [hseen.mode]; exact hm) (by rw [hseen.mot]; exact hq)
      (by rw [hseen.staged, hseen.fieldsOk]; exact hf) (by rw [hseen.og (by decide) (by decide) (by decide)]; exact hw) (by rw [hseen.mot]; exact hpos)
      (by rw [hseen.mot]; exact hneg), if_neg (by rw [hseen.axState]; exact h1)]
  refine .of_done h (by decide) hc.symm hdo hstep.command ⟨⟨appendedEntry c n.val, ?_, appendedEntry_st .., ?_⟩, ?_, ?_, ?_, hseen.done hstep _⟩
  · show (mot (showAxis _ _) n.val).queue = _
    rw [mot_showAxis, hqueue]
  · rw [← hseen.staged]; exact appendedEntry_eq ..
  · rw [axState_os _ _ _ (by decide), axState_showAxis]
    exact hseen.axState
  · rw [pRef_os _ _ _ (by decide), pRef_showAxis]
    exact hseen.pRef
  · rw [og_ax_other _ _ _ (by decide), og_showAxis_queue, hqueue, List.length_append, List.length_singleton]

theorem append_activated (hm : mode s.dev ≠ 4) (hf : fieldsOk s.dev n.val (staged s.dev n.val) = true) (hw : og s.dev (ax n.val 0x23) 4 ≠ 1)
    (hpos : (mot s.dev n.val).inPos = .reset) (hneg : (mot s.dev n.val).inNeg = .reset) (h1 : axState s.dev n.val = 1) (hq : (mot s.dev n.val).queue = [])
    (ht : og s.dev (ax n.val 0x20) 1 ≠ 4) : Taken 3 n seq s 0 (fun d =>
        (∃ e, (mot d n.val).queue = [e] ∧ e.st = .active ∧ e.typ = og s.dev (ax n.val 0x20) 1 ∧ e.tag = og s.dev (ax n.val 0x20) 2) ∧
        axState d n.val = 2 ∧ AxisOnly (number s.dev).1 d n.val) := by
  have hseen := commandNumbered_seen s.dev n.val seq 3
  generalize hc : commandNumbered s.dev n.val seq 3 = c at hseen
  have htyp : (appendedEntry c n.val).typ = og s.dev (ax n.val 0x20) 1 := (appendedEntry_typ ..).trans (hseen.og (by decide) (by decide) (by decide))
  have htag : (appendedEntry c n.val).tag = og s.dev (ax n.val 0x20) 2 := (appendedEntry_tag ..).trans (hseen.og (by decide) (by decide) (by decide))
  have hqueue : (mot (osb (appended c n.val) (ax n.val 9) 4 9 false) n.val).queue = [appendedEntry c n.val] := by
    show (mot (appended c n.val) n.val).queue = _
    rw [mot_appended, hseen.mot, hq]
    rfl
  obtain ⟨hact, hstate, f, hf1, hst, hft, hftag⟩ := activate_values s.dev.time.kc hqueue (by rw [htyp]; exact ht)
  have hstep := (((appended_step c n.val).os (o := 9) (c := 4) _ (by decide) (by decide) (by decide)).trans hact).trans (showAxis_step _ n.val)
  have hchain : chainResult (appended c n.val) n.val (appendedEntry c n.val) = 0 := by
    unfold chainResult
    rw [if_neg (by simp [htyp, ht])]
  have hdo : doCommand c n.val s.dev.time.kc 3 ((number s.dev).2.getD 0) =
      (showAxis (activate (osb (appended c n.val) (ax n.val 9) 4 9 false) n.val s.dev.time.kc none) n.val, 0) := by
    rw [doCommand_append, appendEntry_taken _ (by rw [hseen.axState]; omega) (by rw [hseen.mode]; exact hm) (by rw [hseen.mot, hq]; decide)
      (by rw [hseen.staged, hseen.fieldsOk]; exact hf) (by rw [hseen.og (by decide) (by decide) (by decide)]; exact hw) (by rw [hseen.mot]; exact hpos)
      (by rw [hseen.mot]; exact hneg), if_pos (by rw [hseen.axState]; exact h1), hchain]
  refine .of_done h (by decide) hc.symm hdo hstep.command ⟨⟨f, ?_, hst, hft.trans htyp, hftag.trans htag⟩, ?_, hseen.done hstep _⟩
  · show (mot (showAxis _ _) n.val).queue = _
    rw [mot_showAxis, hf1]
  · rw [axState_os _ _ _ (by decide), axState_showAxis, hstate]
end

/-- Settles O31: the refusals in their order, then the staged entry behind the others or active at once. -/
theorem appendQueuesTheStagedEntry : Obligations.AppendQueuesTheStagedEntry := by
  unfold Obligations.AppendQueuesTheStagedEntry
  intro n seq s h
  refine ⟨fun hst hcount => append_refused h hcount fun c hc => appendEntry_state _ (by rw [hc.axState, hc.mode]; exact hst),
    fun h5 hm hq hcount => append_refused h hcount fun c hc =>
      appendEntry_full _ (by rw [hc.axState]; exact h5) (by rw [hc.mode]; exact hm) (by rw [hc.mot]; exact hq), ?_⟩
  intro h5 hm hq hf hw hpos hneg
  exact ⟨append_queued h h5 hm hq hf hw hpos hneg, append_activated h hm hf hw hpos hneg⟩

end Sys2Proof.Machine
end

section
/-! ## Losses of an axis and its torque off -/
namespace Sys2Proof.Machine

variable {n : Ax} {s : State}

theorem exec_axisFeedbackLoss (n : Ax) (s : State) : exec (.axisFeedbackLoss n) s = .next (upd s (fun d =>
    if (kind d n.val = 1 || kind d n.val = 2) && (fbInput d n.val).isNone && decide (cg d (ax n.val 0x16) 2 ≤ (srv d n.val).stale) &&
      (!bit (og d (ax n.val 0x1B) 7) 4 || !(srv d n.val).lost) then feedbackLoss d n.val else d)) := rfl

theorem exec_axisCurrentFeedbackLoss (n : Ax) (s : State) : exec (.axisCurrentFeedbackLoss n) s = .next (upd s (fun d =>
    if kind d n.val = 2 && axEnabled d n.val && decide (cg d (ax n.val 0x1F) 7 ≤ (cur d n.val).missing) then currentLoss d n.val else d)) := rfl

theorem exec_axisStall (n : Ax) (s : State) : exec (.axisStall n) s = .next (upd s (fun d =>
    if (kind d n.val = 3 || kind d n.val = 4) && axEnabled d n.val && decide (cg d (ax n.val 0x35) 4 ≤ (stp d n.val).stall) &&
      !bit (og d (ax n.val 0x36) 5) 7 then stallNow d n.val else d)) := rfl

/-- A stepper axis without window contents: its coils are off and it reports the loss. -/
def windowsLost (d : Dev) (n : Nat) : Dev :=
  laterStop (osb (setStp d n { stp d n with energise := false, lost := true }) (ax n 0x36) 5 2 false) (50 + 4 * cluster d n) 1 n 2

theorem exec_stepperFeedbackLoss (n : Ax) (s : State) : exec (.stepperFeedbackLoss n) s = .next (upd s (fun d =>
    if (kind d n.val = 3 || kind d n.val = 4) && decide (cg d (ax n.val 0x16) 2 ≤ (stp d n.val).missing) && (axEnabled d n.val || !(stp d n.val).lost) then
      windowsLost d n.val else d)) := rfl

/-! ### The losses and what they report -/

theorem feedbackLoss_step (d : Dev) (n : Nat) : AxisStep n d (feedbackLoss d n) :=
  (((AxisStep.refl n d).srv _).os _ (by decide) (by decide) (by decide)).laterStop _ _ _ _

theorem feedbackLoss_taken (hk : kind s.dev n.val = 1 ∨ kind s.dev n.val = 2) (hf : fbInput s.dev n.val = none)
    (hb : bit (og s.dev (ax n.val 0x1B) 7) 4 = false) (hst : cg s.dev (ax n.val 0x16) 2 ≤ (srv s.dev n.val).stale) :
    exec (.axisFeedbackLoss n) s = .next (upd s (fun _ => feedbackLoss s.dev n.val)) :=
  congrArg (fun d => Host.Outcome.next (upd s (fun _ => d))) (if_pos (by simpa [hf, hst, hb] using hk))

theorem feedbackLoss_leaves (hk : kind s.dev n.val = 1 ∨ kind s.dev n.val = 2) (hf : fbInput s.dev n.val = none)
    (hb : bit (og s.dev (ax n.val 0x1B) 7) 4 = false) (hst : cg s.dev (ax n.val 0x16) 2 ≤ (srv s.dev n.val).stale) :
    Leaves (.axisFeedbackLoss n) s (fun d =>
          bit (og d (ax n.val 0x1B) 7) 4 = true ∧ d.fc.todo = s.dev.fc.todo ++ [rep (50 + 4 * cluster s.dev n.val) 1 n.val 2] ∧
          AxisOnly s.dev d n.val) := by
  refine ⟨_, feedbackLoss_taken hk hf hb hst, ?_, rfl, (feedbackLoss_step ..).axisOnly⟩
  show bit (og (osb _ _ _ _ _) _ _) 4 = true
  rw [osb, og_os_same, bit_setBit, if_pos rfl]

theorem currentLoss_leaves (hk : kind s.dev n.val = 2) (hen : axEnabled s.dev n.val = true) (hm : cg s.dev (ax n.val 0x1F) 7 ≤ (cur s.dev n.val).missing) :
    Leaves (.axisCurrentFeedbackLoss n) s (fun d =>
          (cur d n.val).gates = false ∧ bit (og d (ax n.val 0x1F) 0x13) 5 = false ∧
          d.fc.todo = s.dev.fc.todo ++ [rep (50 + 4 * cluster s.dev n.val) 2 n.val 2] ∧ AxisOnly s.dev d n.val) := by
  refine ⟨currentLoss s.dev n.val, congrArg (fun d => Host.Outcome.next (upd s (fun _ => d))) (if_pos (by simp [hk, hen, hm])), ?_, ?_, rfl, ?_⟩
  · show (cur (setCur _ n.val _) n.val).gates = false
    rw [cur_setCur, if_pos rfl]
  · show bit (og (osb _ _ _ _ _) _ _) 5 = false
    rw [osb, og_os_same, bit_setBit, if_pos rfl]
  · exact ((((AxisStep.refl n.val s.dev).cur _).os _ (by decide) (by decide) (by decide)).laterStop _ _ _ _).axisOnly

/-- The stall is counted and shown. -/
def stallCounted (d : Dev) (n : Nat) : Dev := bump (osb d (ax n 0x36) 5 7 true) (ax n 0x3B) 1

/-- A stalled axis whose stop category is torque off: its coils are off. -/
def stallCoils (d : Dev) (n : Nat) : Dev :=
  if stopCat (og d (ax n 0x0A) 1) = .torqueOff then osb (setStp d n { stp d n with energise := false }) (ax n 0x36) 5 2 false else d

/-- The stall has taken the reference. -/
def stallShown (d : Dev) (n : Nat) : Dev := osb (stallCoils (stallCounted d n) n) (ax n 9) 4 0 false

theorem stallNow_eq (d : Dev) (n : Nat) : stallNow d n = laterStop (stallShown d n) (49 + 4 * cluster (stallCoils (stallCounted d n) n) n) 4 n 1 := rfl

theorem stallCounted_eq {d : Dev} {n : Nat} (h : og d (ax n 0x3B) 1 < 0xFFFFFFFE) :
    stallCounted d n = os (osb d (ax n 0x36) 5 7 true) (ax n 0x3B) 1 (og d (ax n 0x3B) 1 + 1) := by
  have hog : og (osb d (ax n 0x36) 5 7 true) (ax n 0x3B) 1 = og d (ax n 0x3B) 1 := osb_ax_other _ _ _ _ (by decide)
  rw [stallCounted, bump_counts (by rw [hog]; exact h), hog]

theorem stallCoils_step (d : Dev) (n : Nat) : AxisStep n d (stallCoils d n) := by
  unfold stallCoils
  split
  · exact ((AxisStep.refl n d).stp _).os _ (by decide) (by decide) (by decide)
  · exact .refl n d

theorem og_stallCoils (d : Dev) (n : Nat) {p j : Nat} (h : p * 256 + j ≠ 0x3605) : og (stallCoils d n) (ax n p) j = og d (ax n p) j := by
  unfold stallCoils
  split
  · rw [osb_ax_other _ _ _ _ h]; rfl
  · rfl

theorem stalled_stallCoils (d : Dev) (n : Nat) : bit (og (stallCoils d n) (ax n 0x36) 5) 7 = bit (og d (ax n 0x36) 5) 7 := by
  unfold stallCoils
  split
  · rw [osb, og_os_same, bit_setBit, if_neg (by decide)]; rfl
  · rfl

theorem stall_stallCoils (d : Dev) (n : Nat) : (stp (stallCoils d n) n).stall = (stp d n).stall ∧ (stallCoils d n).fc = d.fc := by
  unfold stallCoils
  split
  · refine ⟨?_, rfl⟩
    show (stp (setStp _ n _) n).stall = _
    rw [stp_setStp, if_pos rfl]
  · exact ⟨rfl, rfl⟩

theorem stp_osb (d : Dev) (i c b : Nat) (v : Bool) (m : Nat) : stp (osb d i c b v) m = stp d m := rfl
theorem fc_osb (d : Dev) (i c b : Nat) (v : Bool) : (osb d i c b v).fc = d.fc := rfl

theorem stallShown_step {d : Dev} {n : Nat} (h : AxisStep n d (stallCounted d n)) : AxisStep n d (stallShown d n) :=
  (h.trans (stallCoils_step _ n)).os _ (by decide) (by decide) (by decide)

theorem stall_leaves (hk : kind s.dev n.val = 3 ∨ kind s.dev n.val = 4) (hen : axEnabled s.dev n.val = true)
    (hst : cg s.dev (ax n.val 0x35) 4 ≤ (stp s.dev n.val).stall) (hb : bit (og s.dev (ax n.val 0x36) 5) 7 = false)
    (hcount : og s.dev (ax n.val 0x3B) 1 < 0xFFFFFFFE) : Leaves (.axisStall n) s (fun d =>
          (stp d n.val).stall = (stp s.dev n.val).stall ∧ bit (og d (ax n.val 0x36) 5) 7 = true ∧ og d (ax n.val 0x3B) 1 = og s.dev (ax n.val 0x3B) 1 + 1 ∧
          bit (og d (ax n.val 9) 4) 0 = false ∧ d.fc.todo = s.dev.fc.todo ++ [rep (49 + 4 * cluster s.dev n.val) 4 n.val 1] ∧
          AxisOnly s.dev d n.val) := by
  have hcounted := stallCounted_eq hcount
  have hstep : AxisStep n.val s.dev (stallCounted s.dev n.val) := by
    rw [hcounted]
    exact ((AxisStep.refl n.val s.dev).os _ (by decide) (by decide) (by decide)).os _ (by decide) (by decide) (by decide)
  obtain ⟨hstall, hfc⟩ := stall_stallCoils (stallCounted s.dev n.val) n.val
  have hcluster : cluster (stallCoils (stallCounted s.dev n.val) n.val) n.val = cluster s.dev n.val := by
    unfold cluster
    rw [og_stallCoils _ _ (by decide), hcounted, og_ax_other _ _ _ (by decide), osb_ax_other _ _ _ _ (by decide)]
  refine ⟨stallNow s.dev n.val, congrArg (fun d => Host.Outcome.next (upd s (fun _ => d))) (if_pos (by simpa [hen, hst, hb] using hk)), ?_⟩
  rw [stallNow_eq, hcluster]
  have hshown := stallShown_step hstep
  have hcoils : bit (og (stallShown s.dev n.val) (ax n.val 0x36) 5) 7 = true := by
    rw [stallShown, osb_ax_other _ _ _ _ (by decide), stalled_stallCoils, hcounted, og_ax_other _ _ _ (by decide), osb, og_os_same, bit_setBit, if_pos rfl]
  have hnum : og (stallShown s.dev n.val) (ax n.val 0x3B) 1 = og s.dev (ax n.val 0x3B) 1 + 1 := by
    rw [stallShown, osb_ax_other _ _ _ _ (by decide), og_stallCoils _ _ (by decide), hcounted, og_os_same]
  have href : bit (og (stallShown s.dev n.val) (ax n.val 9) 4) 0 = false := by
    rw [stallShown, osb, og_os_same, bit_setBit, if_pos rfl]
  have hstall' : (stp (stallShown s.dev n.val) n.val).stall = (stp s.dev n.val).stall := by
    rw [stallShown, stp_osb, hstall, hcounted]; rfl
  have hfc' : (stallShown s.dev n.val).fc = s.dev.fc := by
    rw [stallShown, fc_osb, hfc, hcounted]; rfl
  generalize stallShown s.dev n.val = e at *
  refine ⟨hstall', hcoils, hnum, href, ?_, (hshown.laterStop _ _ _ _).axisOnly⟩
  rw [← hfc']; rfl

theorem windowsLost_leaves (hk : kind s.dev n.val = 3 ∨ kind s.dev n.val = 4) (hen : axEnabled s.dev n.val = true ∨ (stp s.dev n.val).lost = false)
    (hm : cg s.dev (ax n.val 0x16) 2 ≤ (stp s.dev n.val).missing) : Leaves (.stepperFeedbackLoss n) s (fun d =>
          (stp d n.val).energise = false ∧ (stp d n.val).lost = true ∧ bit (og d (ax n.val 0x36) 5) 2 = false ∧
          d.fc.todo = s.dev.fc.todo ++ [rep (50 + 4 * cluster s.dev n.val) 1 n.val 2] ∧ AxisOnly s.dev d n.val) := by
  have hstp : stp (windowsLost s.dev n.val) n.val = { stp s.dev n.val with energise := false, lost := true } := by
    show stp (setStp _ n.val _) n.val = _
    rw [stp_setStp, if_pos rfl]
  have hcond : ((kind s.dev n.val = 3 || kind s.dev n.val = 4) && decide (cg s.dev (ax n.val 0x16) 2 ≤ (stp s.dev n.val).missing) &&
      (axEnabled s.dev n.val || !(stp s.dev n.val).lost)) = true := by simpa [hm] using ⟨hk, hen⟩
  refine ⟨windowsLost s.dev n.val, congrArg (fun d => Host.Outcome.next (upd s (fun _ => d))) (if_pos hcond), ?_, ?_, ?_, rfl, ?_⟩
  · rw [hstp]
  · rw [hstp]
  · show bit (og (osb _ _ _ _ _) _ _) 2 = false
    rw [osb, og_os_same, bit_setBit, if_pos rfl]
  · exact ((((AxisStep.refl n.val s.dev).stp _).os _ (by decide) (by decide) (by decide)).laterStop _ _ _ _).axisOnly

theorem losses_idle (hs : Settled s) (hen : axEnabled s.dev n.val = false) :
    Idles (.axisCurrentFeedbackLoss n) s ∧ Idles (.axisStall n) s ∧ ((stp s.dev n.val).lost = true → Idles (.stepperFeedbackLoss n) s) := by
  refine ⟨.of_upd hs (exec_axisCurrentFeedbackLoss n s) (if_neg (by simp [hen])), .of_upd hs (exec_axisStall n s) (if_neg (by simp [hen])), fun hl => ?_⟩
  exact .of_upd hs (exec_stepperFeedbackLoss n s) (if_neg (by simp [hen, hl]))

/-! ### A torque-off report of an axis that nothing else follows -/

/-- One report that waits is taken, and the axis it stops is stopped. -/
theorem finish_one {d : Dev} {r : Report} (h : d.fc.todo = [r])
    (hafter : (stopOf (assertReport { d with fc := { d.fc with todo := [] } } r).1 r (assertReport { d with fc := { d.fc with todo := [] } } r).2).fc.todo = []) :
    finish d = stopOf (assertReport { d with fc := { d.fc with todo := [] } } r).1 r (assertReport { d with fc := { d.fc with todo := [] } } r).2 := by
  unfold finish
  rw [drain_succ, h]
  exact drain_settled _ _ hafter

/-- An axis with no homing run and no blend in progress reports nothing as its torque goes off. -/
theorem axisOff_simple {d : Dev} {n : Nat} (st : Nat) (hh : (mot d n).homing = none) (hb : (mot d n).blend = none) :
    axisOff d n st = showAxis (stepperOff (loopsZeroed (axisRested d n st) n) n) n := by
  have hblend : retireBlend d n = d := by
    unfold retireBlend
    rw [if_neg (by simp [hb])]
  have hhome : homeAbort d n 2 = d := by
    unfold homeAbort
    rw [hh]
  rw [axisOff_eq, hblend, hhome]

theorem fc_stepperOff (d : Dev) (n : Nat) : (stepperOff d n).fc = d.fc := by
  unfold stepperOff
  split <;> rfl

theorem axisOff_silent {d : Dev} {n : Nat} (st : Nat) (hh : (mot d n).homing = none) (hb : (mot d n).blend = none) : (axisOff d n st).fc = d.fc := by
  rw [axisOff_simple st hh hb, showAxis_objs]
  exact (fc_stepperOff ..).trans rfl

/-- The cause of a stop and its number stay. -/
theorem og_axisOff_cause (d : Dev) (n st : Nat) {j : Nat} (hh : (mot d n).homing = none) (hb : (mot d n).blend = none) (hj : j = 2 ∨ j = 5) :
    og (axisOff d n st) (ax n 9) j = og d (ax n 9) j := by
  rw [axisOff_simple st hh hb]
  obtain rfl | rfl := hj
  · rw [og_showAxis _ _ (by decide), og_stepperOff _ _ (by decide), og_loopsZeroed]
    simp (disch := decide) only [axisRested, og_ax_other, og_setMot]
  · rw [og_showAxis _ _ (by decide), og_stepperOff _ _ (by decide), og_loopsZeroed]
    simp (disch := decide) only [axisRested, og_ax_other, og_setMot]

/-- The reason of an axis whose torque goes off: its stop's, when it is already stopping. -/
theorem torqueOff_values {d : Dev} {n : Nat} (cause seq : Nat) (hen : axEnabled d n = true) (hh : (mot d n).homing = none) (hb : (mot d n).blend = none) :
    axState (torqueOff d n cause seq) n = 6 ∧ og (torqueOff d n cause seq) (ax n 9) 2 = (if axState d n = 3 then og d (ax n 9) 2 else cause) ∧
    og (torqueOff d n cause seq) (ax n 9) 5 = (if axState d n = 3 then og d (ax n 9) 5 else seq) ∧ og (torqueOff d n cause seq) (ax n 0x1B) 4 = 0 ∧
    (torqueOff d n cause seq).fc = d.fc ∧ (mot (torqueOff d n cause seq) n).queue = (mot d n).queue.map QEntry.interrupt := by
  obtain ⟨hstate, hiq, -, -, hqueue⟩ := axisOff_values d n 6
  have hfc := axisOff_silent 6 hh hb
  unfold torqueOff
  rw [if_neg (by simp [hen])]
  split
  next h3 => exact ⟨hstate, og_axisOff_cause d n 6 hh hb (.inl rfl), og_axisOff_cause d n 6 hh hb (.inr rfl), hiq, hfc, hqueue⟩
  next h3 =>
    refine ⟨?_, ?_, ?_, ?_, hfc, hqueue⟩
    · rw [setCause, axState_os _ _ _ (by decide), axState_os _ _ _ (by decide), hstate]
    · rw [setCause, og_ax_other _ _ _ (by decide), og_os_same]
    · rw [setCause, og_os_same]
    · rw [setCause, og_ax_other _ _ _ (by decide), og_ax_other _ _ _ (by decide), hiq]

theorem calmKeys_low {c k : Nat} (hc : c < 8) (hk : k ∈ calmKeys (50 + 4 * c)) : k < 0x8000 * 256 := by
  simp only [calmKeys, okey, List.mem_cons, List.not_mem_nil, or_false] at hk
  omega

theorem reportKeys_low {c i j : Nat} (hc : c < 8) (hi : 0x8000 ≤ i) (hj : j < 256) : okey i j ∉ reportKeys (50 + 4 * c) := by
  intro hm
  simp [reportKeys, okey, List.range_succ] at hm
  omega

/-- The state after a step whose reports are done. -/
theorem upd_finished {s : State} {d e : Dev} (h : finish d = e) (hc : e.power.cleared = false) : upd s (fun _ => d) = { s with dev := e } := by
  unfold upd
  dsimp only
  rw [h, hc]
  rfl

theorem torqueOff_follows {s : State} {n : Ax} (hs : Settled s) (hcalm : Calm s.dev (50 + 4 * cluster s.dev n.val)) (hen : axEnabled s.dev n.val = true)
    (hcl : cluster s.dev n.val < 8) (hk : kind s.dev n.val = 1 ∨ kind s.dev n.val = 2) (hf' : fbInput s.dev n.val = none)
    (hb : bit (og s.dev (ax n.val 0x1B) 7) 4 = false) (hst : cg s.dev (ax n.val 0x16) 2 ≤ (srv s.dev n.val).stale)
    (hhome : (mot s.dev n.val).homing = none) (hblend : (mot s.dev n.val).blend = none) : Does (.axisFeedbackLoss n) s (fun d =>
        axState d n.val = 6 ∧ og d (ax n.val 9) 2 = (if axState s.dev n.val = 3 then og s.dev (ax n.val 9) 2 else 4) ∧
        og d (ax n.val 9) 5 = (if axState s.dev n.val = 3 then og s.dev (ax n.val 9) 5 else s.dev.fc.nextSeq) ∧ og d (ax n.val 0x1B) 4 = 0 ∧
        d.fc.nextSeq = s.dev.fc.nextSeq + 1 ∧ (mot d n.val).queue.map QEntry.tag = (mot s.dev n.val).queue.map QEntry.tag ∧
        ∀ m : Ax, m ≠ n → axState d m.val = axState s.dev m.val) := by
  obtain ⟨e, he⟩ : ∃ e, e = feedbackLoss s.dev n.val := ⟨_, rfl⟩
  have hstep : AxisStep n.val s.dev e := by rw [he]; exact feedbackLoss_step ..
  have htodo : e.fc.todo = [rep (50 + 4 * cluster s.dev n.val) 1 n.val 2] := by
    rw [he]
    show s.dev.fc.todo ++ _ = _
    rw [hs.1]; rfl
  have hog {p j : Nat} (h : p * 256 + j ≠ 0x1B07) : og e (ax n.val p) j = og s.dev (ax n.val p) j := by
    rw [he]
    exact osb_ax_other (setSrv s.dev n.val _) n.val _ _ h
  have hmot : mot e n.val = mot s.dev n.val := by rw [he]; rfl
  have hcalm' : Calm { e with fc := { e.fc with todo := [] } } (50 + 4 * cluster s.dev n.val) := by
    refine hcalm.of_kept (l := [okey (ax n.val 0x1B) 7]) (fun k hk => ?_) ?_ ?_ (fun k hk => ?_)
    · rw [he]
      exact os_other _ _ _ _ _ (by simpa using hk)
    · show { e.fc with todo := [] } = s.dev.fc
      rw [he]
      show { s.dev.fc with todo := [] } = s.dev.fc
      rw [← hs.1]
    · rw [he]; rfl
    · have hlow := calmKeys_low hcl hk
      simp [okey, ax]
      omega
  obtain ⟨hq, hrep⟩ := assertReport_calm (r := rep (50 + 4 * cluster s.dev n.val) 1 n.val 2) hcalm'
  generalize hf : (assertReport { e with fc := { e.fc with todo := [] } } (rep (50 + 4 * cluster s.dev n.val) 1 n.val 2)).1 = f at hrep
  have hfog (m : Nat) {p j : Nat} (hj : j < 256) : og f (ax m p) j = og e (ax m p) j :=
    hrep.kept.og (reportKeys_low hcl (by unfold ax; omega) hj)
  have hnext : e.fc.nextSeq = s.dev.fc.nextSeq := by rw [hstep.frame]
  have hfmot (m : Nat) : mot f m = mot e m := by rw [hrep.frame]; rfl
  have hfstate (m : Nat) : axState f m = axState e m := hfog m (by decide)
  have hestate : axState e n.val = axState s.dev n.val := hog (by decide)
  obtain ⟨hstate, hcause, hseq, hiq, hfc, hqueue⟩ := torqueOff_values (d := f) (n := n.val) 4 s.dev.fc.nextSeq
    (by unfold axEnabled; rw [hfstate, hestate]; exact hen) (by rw [hfmot, hmot]; exact hhome) (by rw [hfmot, hmot]; exact hblend)
  have hstop : stopOf f (rep (50 + 4 * cluster s.dev n.val) 1 n.val 2) (some e.fc.nextSeq) = torqueOff f n.val 4 s.dev.fc.nextSeq := by
    rw [hnext]; rfl
  have hftodo : f.fc.todo = [] := by rw [hrep.fc]
  have hfin : finish e = torqueOff f n.val 4 s.dev.fc.nextSeq := by
    have h := finish_one htodo
    rw [hf, hq] at h
    exact (h (by rw [show some _ = some e.fc.nextSeq from rfl, hstop, hfc]; exact hftodo)).trans hstop
  have hoff := torqueOff_step f n.val 4 s.dev.fc.nextSeq
  have hcleared : (torqueOff f n.val 4 s.dev.fc.nextSeq).power.cleared = false := by
    rw [hoff.frame, hrep.frame, hstep.frame]
    exact hs.2
  refine ⟨torqueOff f n.val 4 s.dev.fc.nextSeq, ?_, hstate, ?_, ?_, hiq, ?_, ?_, fun m hm => ?_⟩
  · rw [feedbackLoss_taken hk hf' hb hst, ← he]
    exact congrArg Host.Outcome.next (upd_finished hfin hcleared)
  · rw [hcause, hfstate, hestate, hfog _ (by decide), hog (by decide)]
  · rw [hseq, hfstate, hestate, hfog _ (by decide), hog (by decide)]
  · rw [hfc, hrep.fc]
    show e.fc.nextSeq + 1 = _
    rw [hnext]
  · rw [hqueue, tags_interrupt, hfmot, hmot]
  · have hne : m.val ≠ n.val := fun h => hm (Fin.ext h)
    exact (hoff.og_other hne (by decide) (by decide)).trans ((hfstate m.val).trans (hstep.og_other hne (by decide) (by decide)))

/-- Settles O34: what each loss leaves for the collector, and the torque-off report as the collector takes it. -/
theorem axisLossesAreReported : Obligations.AxisLossesAreReported := by
  unfold Obligations.AxisLossesAreReported
  refine ⟨fun n s => ⟨feedbackLoss_leaves, currentLoss_leaves, stall_leaves, windowsLost_leaves, losses_idle, fun hs hst => ?_⟩, fun n s => torqueOff_follows⟩
  exact .of_upd hs (exec_axisFeedbackLoss n s) (if_neg (by simp [hst]))

end Sys2Proof.Machine
end

section
/-! ## Field frames of a line that its unit does not count alone -/
namespace Sys2Proof.Machine

/-- The line's node 0 is Integrated and its slot of this field cycle stands. -/
def slotTaken : HeadNode := { HeadNode.reset with state := 3, slot := some [1, 0, 0, 0] }

/-- An unpaired line that sends, of a unit whose role is that of a follower. -/
def followersLine : State :=
  let d := os (os (os Dev.reset 0x1010 0 0x4000000) 0x3C01 2 2) (sgb 8) 2 3
  { State.reset with dev := setHd (setSeg d 8 { seg d 8 with swap := some oneNodeLine }) 8 0 slotTaken }

/-- What the head keeps of its nodes stays while reports can only be held. -/
theorem heads_upd {s : State} {d : Dev} (hr : ready d 2 = false) : (upd s (fun _ => d)).dev.heads = d.heads := by
  have hheads : (finish d).heads = d.heads := by rw [(finish_held hr).frame]
  unfold upd
  dsimp only
  split
  · exact hheads
  · exact hheads

/-- Refutes O43: a unit of role 2 keeps the slot that stands, on an unpaired line too, where the statement has the node's own slot taken. -/
theorem not_framesAreReceivedAndClassified : ¬ Obligations.FramesAreReceivedAndClassified := by
  unfold Obligations.FramesAreReceivedAndClassified
  rintro ⟨-, h, -⟩
  have hs : Settled followersLine := by unfold Settled; decide
  obtain ⟨-, hgood⟩ := h 0 0 0 .a true 0 0 0 false 0 [2, 0, 0, 0] followersLine 8 0 (sgb 8 + 0x32) slotTaken hs rfl rfl rfl (by decide +kernel)
    (by decide +kernel) (by decide +kernel) (by decide +kernel) rfl (by decide +kernel) (by decide +kernel) (by decide +kernel)
  obtain ⟨-, hslot, -⟩ := hgood rfl rfl rfl
  obtain ⟨hontime, -⟩ := hslot (by decide +kernel) rfl rfl (by decide)
  obtain ⟨d, hexec, hhead, hobjs, -⟩ := hontime (by decide)
  have hready : ready d 2 = false := by
    unfold ready og
    rw [hobjs]
    decide
  have hreal : (hd (devOf (exec (.fieldFrameReceived 0 0 0 .a true 0 0 0 false false 0 [2, 0, 0, 0]) followersLine)) 8 0).slot = some [1, 0, 0, 0] := by
    decide +kernel
  rw [show devOf (exec _ followersLine) = (upd followersLine (fun _ => d)).dev from congrArg devOf hexec, hd, heads_upd hready] at hreal
  have hslot : (hd d 8 0).slot = some [2, 0, 0, 0] := by
    rw [show hd d 8 0 = _ from hhead]
  exact absurd (hslot.symm.trans hreal) (by decide)

end Sys2Proof.Machine
end

section
/-! ## The start of a part with a report that waits -/
namespace Sys2Proof.Machine

/-- A supply warning is shown, or domain D0 is not in its window: no report and no reset ends the one without the other. -/
def WarnedOrOff (d : Dev) : Prop := warning d = true ∨ bit (og d 0x2010 2) 0 = false

namespace WarnedOrOff
variable {a b : Dev}

theorem of_og (h : WarnedOrOff a) (hw : bit (og b 0x2000 1) 0 = bit (og a 0x2000 1) 0) (hd : bit (og b 0x2010 2) 0 = true → bit (og a 0x2010 2) 0 = true) :
    WarnedOrOff b := by
  obtain h | h := h
  · exact .inl (hw.trans h)
  · refine .inr ?_
    cases hb : bit (og b 0x2010 2) 0
    · rfl
    · rw [hd hb] at h
      exact absurd h (by decide)

theorem of_low (h : WarnedOrOff a) (hl : LowKept a b) : WarnedOrOff b :=
  h.of_og (by rw [hl.og (by decide) (by decide)]) (by rw [hl.og (by decide) (by decide)]; exact id)

theorem of_objs (h : WarnedOrOff a) (ho : b.objs = a.objs) : WarnedOrOff b := h.of_low (.of_objs ho)

theorem of_kept (h : WarnedOrOff a) {l : List Nat} (hk : ObjsKept a b l) (hl : ∀ k ∈ l, 0x210000 ≤ k) : WarnedOrOff b := h.of_low (.of_kept hk hl)

theorem foldl {α : Type} {g : Dev → α → Dev} (hg : ∀ d x, WarnedOrOff d → WarnedOrOff (g d x)) (l : List α) (h : WarnedOrOff a) :
    WarnedOrOff (l.foldl g a) :=
  foldl_invariant (I := WarnedOrOff) (fun e x he => hg e x he) l a h
end WarnedOrOff

/-! ### What a report does -/

variable {d : Dev}

theorem forwardItem_low (d : Dev) (it : FwdItem) : LowKept d (forwardItem d it) := by
  have hsend (e : Dev) (typ : Nat) (b : Bytes) : (sendPair e typ b).objs = e.objs := by rw [sendPair_frame]
  unfold forwardItem
  dsimp only
  split
  · exact .of_objs (hsend _ _ _)
  · exact .of_objs (hsend _ _ _)

theorem safeHoldNow_low (d : Dev) (cause seq : Nat) : LowKept d (safeHoldNow d cause seq) := by
  have hset (e : Dev) : LowKept e (if e.power.safeHold.isNone then { e with power := { e.power with safeHold := some ⟨cause, seq, og e 0x1021 2 = 1⟩ } } else e) := by
    split
    · exact .of_objs rfl
    · exact .refl e
  unfold safeHoldNow
  dsimp only
  split
  · split
    · exact (hset d).trans (LowKept.foldl (fun e n => pushDemand_low e n _ 5 seq) _ _)
    · exact hset d
  · exact .refl d

theorem safeHoldEntry_low (d : Dev) (cause seq : Nat) : LowKept d (safeHoldEntry d cause seq) := by
  unfold safeHoldEntry
  split
  · exact (LowKept.of_objs (a := d) (b := { d with pair := { d.pair with holdSeq := seq } }) rfl).trans (forwardItem_low ..)
  · exact safeHoldNow_low ..

theorem trapStep_low (d : Dev) (st seq : Nat) : LowKept d (trapStep d st seq) := by
  unfold trapStep
  dsimp only
  split
  · exact safeHoldEntry_low ..
  split
  · exact LowKept.foldl (fun e n => pushDemand_low e n _ 4 seq) _ _
  split
  · exact LowKept.foldl (fun e n => pushDemand_low e n _ 4 seq) _ _
  split
  · split
    · exact .of_objs rfl
    · exact .refl d
  split
  · exact .of_objs rfl
  · exact .refl d

theorem trapSteps_low (seq : Nat) (l : List Nat) : ∀ d : Dev, LowKept d (trapSteps d seq l) := by
  induction l with
  | nil => exact .refl
  | cons st rest ih =>
    intro d
    unfold trapSteps
    split
    · exact .refl d
    · exact (trapStep_low d st seq).trans (ih _)

theorem faultLog_low (d : Dev) (r : Report) (q : Option Nat) : LowKept d (faultLog d r q) := by
  unfold faultLog
  split
  · exact .refl d
  · exact .of_kept (logEntry_kept _ _) (by decide)

theorem blockReset_warned (bs : List Nat) (h : WarnedOrOff d) : WarnedOrOff (blockReset d bs) := by
  obtain ⟨-, hog⟩ := clearReady_spec (os d 0x1011 0 (clearBits (og d 0x1011 0) bs)) bs
  unfold blockReset
  refine h.of_og ?_ ?_
  · rw [hog _ _ (by decide) (by decide) (by decide), og_os, if_neg (by decide)]
  · rw [hog _ _ (by decide) (by decide) (by decide), og_os, if_neg (by decide)]
    exact id

theorem chipReset_warned (d : Dev) : WarnedOrOff (chipReset d) := by
  refine .inr ?_
  have h : og (chipReset d) 0x2010 2 = objDefault (okey 0x2010 2) := (tget_restart _ 3 (okey 0x2010 2)).trans (by simp [okey])
  rw [h]
  decide

theorem react_warned (r : Report) (q : Option Nat) (h : WarnedOrOff d) : WarnedOrOff (react d r q) := by
  unfold react
  dsimp only
  have hpins : WarnedOrOff (if bit (og d (0x3900 + r.src) 1) 4 then { d with fc := { d.fc with errPins := true } } else d) := by
    split
    · exact h.of_objs rfl
    · exact h
  generalize (if bit (og d (0x3900 + r.src) 1) 4 then { d with fc := { d.fc with errPins := true } } else d) = e at hpins
  have htrap : WarnedOrOff (if bit (og d (0x3900 + r.src) 1) 1 then trapPlan e (og e (0x3900 + r.src) 2) (q.getD 0) else e) := by
    split
    · exact hpins.of_low (trapSteps_low ..)
    · exact hpins
  generalize (if bit (og d (0x3900 + r.src) 1) 1 then trapPlan e (og e (0x3900 + r.src) 2) (q.getD 0) else e) = f at htrap
  have hlog : WarnedOrOff (if bit (og d (0x3900 + r.src) 1) 0 then faultLog f r q else f) := by
    split
    · exact htrap.of_low (faultLog_low ..)
    · exact htrap
  generalize (if bit (og d (0x3900 + r.src) 1) 0 then faultLog f r q else f) = g at hlog
  split
  · exact chipReset_warned _
  · split
    · exact blockReset_warned _ hlog
    · exact hlog

theorem sourceStatus_warned (src datum : Nat) (h : WarnedOrOff d) : WarnedOrOff (sourceStatus d src datum) := by
  unfold sourceStatus
  split
  · refine h.of_og ?_ ?_
    · rw [osb, og_os_same, bit_setBit, if_neg (by decide)]
    · rw [osb, og_os, if_neg (by decide)]; exact id
  split
  · exact h.of_og (by rw [(bump_kept _ _ _).og (by decide), osb, og_os, if_neg (by decide)]) (by rw [(bump_kept _ _ _).og (by decide), osb, og_os, if_neg (by decide)]; exact id)
  split
  · exact h.of_og (by rw [(bump_kept _ _ _).og (by decide), osb, og_os, if_neg (by decide)]) (by rw [(bump_kept _ _ _).og (by decide), osb, og_os, if_neg (by decide)]; exact id)
  split
  · dsimp only
    split
    · refine h.of_og ?_ fun hb => ?_
      · rw [osb, og_os, if_neg (by decide), osb, og_os, if_neg (by decide)]
      · rw [osb, og_os_same, bit_setBit] at hb
        split at hb
        · exact absurd hb (by decide)
        · rwa [osb, og_os, if_neg (by decide)] at hb
    · exact h.of_og (by rw [osb, og_os, if_neg (by decide)]) (by rw [osb, og_os, if_neg (by decide)]; exact id)
  · exact h

theorem latch_low (d : Dev) (r : Report) (q : Nat) : LowKept d (latch d r q) := .of_kept (latch_kept d r q) (by decide)

theorem noteFault_low (d : Dev) (n : Nat) (q : Option Nat) : LowKept d (noteFault d n q) := .of_objs (by rw [noteFault_frame])

theorem assertReport_warned (r : Report) (h : WarnedOrOff d) : WarnedOrOff (assertReport d r).1 := by
  unfold assertReport
  split
  · exact h.of_objs rfl
  split
  · exact h
  dsimp only
  have hlit : WarnedOrOff (if levelSource r.src && !r.wire && !r.force then
      sourceStatus { d with fc := { d.fc with cond := setBit d.fc.cond r.src true } } r.src r.datum else d) := by
    split
    · exact sourceStatus_warned _ _ (h.of_objs rfl)
    · exact h
  generalize (if levelSource r.src && !r.wire && !r.force then
    sourceStatus { d with fc := { d.fc with cond := setBit d.fc.cond r.src true } } r.src r.datum else d) = e at hlit
  have hbump : WarnedOrOff (bump e (0x3840 + r.src) 0) := hlit.of_low (bump_low _ _ _ (by omega))
  have hnumber (x : Dev) (hx : WarnedOrOff x) : WarnedOrOff (number x).1 := hx.of_kept (number_kept x) (by decide)
  split
  · split
    · exact hbump
    · split
      · exact (hnumber _ hlit).of_low (faultLog_low ..)
      · exact hlit
  · exact react_warned _ _ (((hnumber _ hbump).of_low (latch_low ..)).of_low (noteFault_low ..))

theorem stopOf_warned (r : Report) (q : Option Nat) (h : WarnedOrOff d) : WarnedOrOff (stopOf d r q) := by
  have hs := stopOf_held d r q
  exact h.of_og (by rw [hs.og (by decide) (by decide)]) (by rw [hs.og (by decide) (by decide)]; exact id)

theorem drain_warned (n : Nat) : ∀ d : Dev, WarnedOrOff d → WarnedOrOff (drain n d) := by
  induction n with
  | zero => exact fun _ h => h
  | succ n ih =>
    intro d h
    rw [drain_succ]
    split
    · exact h
    · exact ih _ (stopOf_warned _ _ (assertReport_warned _ (h.of_objs rfl)))

theorem upd_warned {s : State} {f : Dev → Dev} (h : WarnedOrOff (f s.dev)) : WarnedOrOff (upd s f).dev := by
  have hfin : WarnedOrOff (finish (f s.dev)) := drain_warned 4096 _ h
  unfold upd
  dsimp only
  split
  · exact hfin.of_objs rfl
  · exact hfin

theorem deassert_warned {n : Nat} (hn : 144 ≤ n) (h : WarnedOrOff d) : WarnedOrOff (deassert d n) := by
  unfold deassert
  split
  · unfold sourceEnded
    rw [if_neg (by omega), if_neg (by omega), if_neg (by omega), if_neg (by simp; omega)]
    exact h.of_objs rfl
  · exact h.of_objs rfl

theorem islandReports_warned {s : State} (h : WarnedOrOff s.dev) : WarnedOrOff (islandReports s).dev := by
  have hlevels : WarnedOrOff ((List.range 16).foldl (fun (d : Dev) n =>
      if bit (islandLevels s.isl (paired s.dev) s.isl.commissioned) n && !bit s.dev.fc.island n then
        let (d1, q) := raise d (144 + n) (if n = 0 then s.isl.cause else 0) (if n = 0 then s.isl.cause else 0)
        if n = 9 && mode d1 = 3 then safeHoldEntry d1 3 (q.getD 0) else d1
      else if !bit (islandLevels s.isl (paired s.dev) s.isl.commissioned) n && bit s.dev.fc.island n then deassert d (144 + n)
      else d) s.dev) := by
    refine WarnedOrOff.foldl (fun e n he => ?_) _ h
    dsimp only
    generalize (if n = 0 then s.isl.cause else 0) = c
    have hraise : WarnedOrOff (raise e (144 + n) c c).1 := assertReport_warned _ he
    split
    · split
      · exact hraise.of_low (safeHoldEntry_low ..)
      · exact hraise
    · split
      · exact deassert_warned (by omega) he
      · exact he
  exact (WarnedOrOff.foldl (g := fun e n => later e 183 0 (0x3A30 * 65536 + n * 256)) (fun e n he => he.of_objs rfl) s.isl.sat hlevels).of_objs rfl

theorem islandSettle_warned {s : State} (h : WarnedOrOff s.dev) : WarnedOrOff (islandSettle s).dev :=
  upd_warned (islandReports_warned h)

/-! ### The start of a part without a pattern key whose self-tests fail -/

/-- A restarted device without a pattern key. -/
def unstarted (d : Dev) : Dev := { d with key := { d.key with present := false }, power := { d.power with powered := true, d0Valid := false } }

/-- Its start before its blocks are tested. -/
def keylessHead (d : Dev) : Dev :=
  let d := { d with key := { d.key with readable := false } }
  let d := os (os (os d 0x2000 7 d.power.restart) 0x2041 1 0) 0x2010 2 0x47
  let d := os { d with time := { d.time with local_ := 0 } } 0x2E30 9 2
  let d := os { d with fc := { d.fc with nextSeq := 0, sSeal := 0 } } 0x2E30 5 0
  { d with power := { d.power with powered := true, booted := true, d0Valid := true, testEn := false, vbakOk := true, belowClear := false,
                                   recovery := true },
           mgmt := { d.mgmt with imgTrial := false } }

/-- Its blocks when each self-test fails, and what its start reports. -/
def keylessReports (d : Dev) : Dev :=
  let d := os (os d 0x2E00 0x0D 1) 0x1002 4 (rollbackCounter d)
  let d := osb (supplyBit d 4 d.power.vsoOk) 0x1010 0 0 true
  let d := report (osb d 0x1011 0 3 true) 186 0 3
  let d := report (osb d 0x1011 0 4 true) 186 0 4
  let d := report (osb d 0x1011 0 2 true) 186 0 2
  report d 177 0 0

/-- What follows of its start. -/
def keylessTail (d : Dev) (cause : Nat) : Dev :=
  restorePositions (startSegTime (portsUp (loadParameters (log (if d.key.present then d else report d 179 0 0) 1 8 cause) false))) .blank

theorem bringUp_keyless (d : Dev) : bringUp (unstarted d) 0 false false true =
    keylessTail (keylessReports (keylessHead (unstarted d))) d.power.restart := rfl

/-- No supply warning is shown, D0 is in its window, and the collector is not ready. -/
structure Quiet (d : Dev) : Prop where
  supply : bit (og d 0x2000 1) 0 = false
  window : bit (og d 0x2010 2) 0 = true
  waits : ready d 2 = false

namespace Quiet
variable {a b : Dev}

theorem of_low (h : Quiet a) (hl : LowKept a b) : Quiet b :=
  ⟨by rw [hl.og (by decide) (by decide)]; exact h.supply, by rw [hl.og (by decide) (by decide)]; exact h.window, by
    have hr := h.waits
    unfold ready at *
    rwa [hl.og (by decide) (by decide)]⟩

theorem of_objs (h : Quiet a) (ho : b.objs = a.objs) : Quiet b := h.of_low (.of_objs ho)

theorem os (h : Quiet a) {i c : Nat} (v : Nat) (hs : okey 0x2000 1 ≠ okey i c) (hw : okey 0x2010 2 ≠ okey i c) (hr : okey 0x1010 0 ≠ okey i c) :
    Quiet (Machine.os a i c v) :=
  ⟨by rw [og_os, if_neg hs]; exact h.supply, by rw [og_os, if_neg hw]; exact h.window, by
    have hwaits := h.waits
    unfold ready at *
    rwa [og_os, if_neg hr]⟩

/-- A report waits. -/
theorem report (h : Quiet a) (n cause datum : Nat) : Quiet (Machine.report a n cause datum) := by
  have hheld : Machine.report a n cause datum = { a with fc := { a.fc with held := a.fc.held ++ [⟨n, cause, datum, false, false, 0⟩] } } := by
    have hw := h.waits
    unfold Machine.report raise assertReport
    rw [if_pos (by simp [hw])]
  rw [hheld]
  exact h.of_objs rfl

theorem foldl {α : Type} {g : Dev → α → Dev} (hg : ∀ d x, Quiet d → Quiet (g d x)) (l : List α) (h : Quiet a) : Quiet (l.foldl g a) :=
  foldl_invariant (I := Quiet) (fun e x he => hg e x he) l a h

theorem held (h : Quiet a) (hh : HeldStep a b) : Quiet b :=
  ⟨by rw [hh.og (by decide) (by decide)]; exact h.supply, by rw [hh.og (by decide) (by decide)]; exact h.window, by rw [hh.ready]; exact h.waits⟩

theorem upd {s : State} {f : Dev → Dev} (h : Quiet (f s.dev)) : Quiet (Machine.upd s f).dev := by
  have hfin := h.held (finish_held h.waits)
  unfold Machine.upd
  dsimp only
  split
  · exact hfin.of_objs rfl
  · exact hfin

theorem deassert (h : Quiet a) {n : Nat} (hn : 144 ≤ n) : Quiet (Machine.deassert a n) := by
  unfold Machine.deassert
  split
  · unfold sourceEnded
    rw [if_neg (by omega), if_neg (by omega), if_neg (by omega), if_neg (by simp; omega)]
    exact h.of_objs rfl
  · exact h.of_objs rfl
end Quiet

theorem keylessHead_quiet {d : Dev} (hs : bit (og d 0x2000 1) 0 = false) (hr : ready d 2 = false) : Quiet (keylessHead d) := by
  have hshown : Quiet (os (os (os { d with key := { d.key with readable := false } } 0x2000 7 d.power.restart) 0x2041 1 0) 0x2010 2 0x47) := by
    refine ⟨?_, ?_, ?_⟩
    · rw [og_os, if_neg (by decide), og_os, if_neg (by decide), og_os, if_neg (by decide)]; exact hs
    · rw [og_os_same]; decide
    · unfold ready at *
      rw [og_os, if_neg (by decide), og_os, if_neg (by decide), og_os, if_neg (by decide)]; exact hr
  have htime := (hshown.of_objs (b := { os (os (os { d with key := { d.key with readable := false } } 0x2000 7 d.power.restart) 0x2041 1 0) 0x2010 2 0x47 with
    time := { d.time with local_ := 0 } }) rfl).os (i := 0x2E30) (c := 9) 2 (by decide) (by decide) (by decide)
  exact (htime.os (i := 0x2E30) (c := 5) 0 (by decide) (by decide) (by decide)).of_objs rfl

theorem ready_osb {d : Dev} {i c b : Nat} {v : Bool} (n : Nat) (h : okey 0x1010 0 ≠ okey i c) : ready (osb d i c b v) n = ready d n := by
  unfold ready
  rw [osb, og_os, if_neg h]

theorem keylessReports_quiet {d : Dev} (h : Quiet d) : Quiet (keylessReports d) := by
  have hcounter := (h.os (i := 0x2E00) (c := 0x0D) 1 (by decide) (by decide) (by decide)).os (i := 0x1002) (c := 4) (rollbackCounter d)
    (by decide) (by decide) (by decide)
  generalize he : os (os d 0x2E00 0x0D 1) 0x1002 4 (rollbackCounter d) = e at hcounter
  have hready : Quiet (osb (supplyBit e 4 e.power.vsoOk) 0x1010 0 0 true) := by
    refine ⟨?_, ?_, ?_⟩
    · rw [osb, og_os, if_neg (by decide), supplyBit, osb, og_os_same, bit_setBit, if_neg (by decide)]; exact hcounter.supply
    · rw [osb, og_os, if_neg (by decide), supplyBit, osb, og_os, if_neg (by decide)]; exact hcounter.window
    · rw [ready, osb, og_os_same, bit_setBit, if_neg (by decide)]
      exact (ready_osb 2 (by decide)).trans hcounter.waits
  have hfails (f : Dev) (hf : Quiet f) (b : Nat) : Quiet (report (osb f 0x1011 0 b true) 186 0 b) :=
    (hf.os (i := 0x1011) (c := 0) _ (by decide) (by decide) (by decide)).report ..
  unfold keylessReports
  rw [he]
  exact (hfails _ (hfails _ (hfails _ hready 3) 4) 2).report ..

theorem loadParameters_quiet {d : Dev} (h : Quiet d) : Quiet (loadParameters d false) := by
  have hshown := h.os (i := 0x2E00) (c := 1) (b2n d.key.present) (by decide) (by decide) (by decide)
  unfold loadParameters
  dsimp only
  split
  · exact (hshown.os _ (by decide) (by decide) (by decide)).os _ (by decide) (by decide) (by decide)
  · exact (((hshown.of_low (bump_low _ _ _ (by decide))).report ..).os _ (by decide) (by decide) (by decide)).os _ (by decide) (by decide) (by decide)

theorem portsUp_low (d : Dev) : LowKept d (portsUp d) := by
  unfold portsUp
  dsimp only
  refine LowKept.trans ?_ (LowKept.foldl (fun e p => ?_) _ _)
  · exact .of_objs rfl
  split
  · exact .refl e
  · split
    · exact (LowKept.refl e).os _ _ _ (by omega)
    · exact (((LowKept.refl e).os _ _ _ (by omega)).os _ _ _ (by omega)).os _ _ _ (by omega)

theorem startSegTime_low (d : Dev) : LowKept d (startSegTime d) := by
  unfold startSegTime
  dsimp only
  split
  · exact segStatus_low (segStatus_low (segStatus_low (((LowKept.refl d).time _).os _ _ _ (by decide)) _ _) _ _) _ _
  · exact segStatus_low (segStatus_low (((LowKept.refl d).time _).os _ _ _ (by decide)) _ _) _ _

theorem keylessTail_quiet {d : Dev} (cause : Nat) (h : Quiet d) : Quiet (keylessTail d cause) := by
  have hkey : Quiet (if d.key.present then d else report d 179 0 0) := by
    split
    · exact h
    · exact h.report ..
  have hup := (loadParameters_quiet (hkey.of_low (log_low _ 1 8 cause))).of_low ((portsUp_low _).trans (startSegTime_low _))
  exact (hup.os (i := 0x2E30) (c := 4) 0 (by decide) (by decide) (by decide))

theorem islandReports_quiet {s : State} (h : Quiet s.dev) : Quiet (islandReports s).dev := by
  have hlevels : Quiet ((List.range 16).foldl (fun (d : Dev) n =>
      if bit (islandLevels s.isl (paired s.dev) s.isl.commissioned) n && !bit s.dev.fc.island n then
        let (d1, q) := raise d (144 + n) (if n = 0 then s.isl.cause else 0) (if n = 0 then s.isl.cause else 0)
        if n = 9 && mode d1 = 3 then safeHoldEntry d1 3 (q.getD 0) else d1
      else if !bit (islandLevels s.isl (paired s.dev) s.isl.commissioned) n && bit s.dev.fc.island n then deassert d (144 + n)
      else d) s.dev) := by
    refine Quiet.foldl (fun e n he => ?_) _ h
    dsimp only
    generalize (if n = 0 then s.isl.cause else 0) = c
    have hraise : Quiet (raise e (144 + n) c c).1 := he.report ..
    split
    · split
      · exact hraise.of_low (safeHoldEntry_low ..)
      · exact hraise
    · split
      · exact he.deassert (by omega)
      · exact he
  exact (Quiet.foldl (g := fun e n => later e 183 0 (0x3A30 * 65536 + n * 256)) (fun e n he => he.of_objs rfl) s.isl.sat hlevels).of_objs rfl

theorem islandSettle_quiet {s : State} (h : Quiet s.dev) : Quiet (islandSettle s).dev := Quiet.upd (islandReports_quiet h)

/-- No reaction of the device's sources but the log. -/
def noReactions (d : Dev) : Dev := (List.range 192).foldl (fun d n => os d (0x3900 + n) 1 1) d

/-- A part that has not started, in a supply warning, whose collector is ready: a report of source 192 waits, whose reaction is C. -/
def warnedPart : State :=
  let d := os (os (os (noReactions Dev.reset) 0x1010 0 4) 0x2000 1 1) 0x39C0 1 8
  { State.reset with dev := { d with fc := { d.fc with todo := [⟨192, 0, 0, false, false, 0⟩] } } }

/-- Its island's start, with which the report is taken. -/
theorem warnedPart_started : bit (og (islandStart warnedPart false).dev 0x2000 1) 0 = false ∧ ready (islandStart warnedPart false).dev 2 = false ∧
    unstarted (islandStart warnedPart false).dev = (islandStart warnedPart false).dev := by
  decide +kernel

theorem exec_bringUp {hw : BitVec 4} {testEn below vbak : Bool} {s : State} (hb : s.dev.power.booted = false) (hi : s.isl.state = 0) :
    exec (.bringUp hw testEn below vbak) s = .next (islandSettle (upd (islandStart s false) (fun d => bringUp d hw.toNat testEn below vbak))) := by
  have h : exec (.bringUp hw testEn below vbak) s = .next (if s.dev.power.booted then s else
      islandSettle (upd (if s.isl.state = 0 then islandStart s false else s) (fun d => bringUp d hw.toNat testEn below vbak))) := rfl
  rw [h, hb, if_neg Bool.false_ne_true, if_pos hi]

theorem warnedPart_quiet : Quiet (devOf (exec (.bringUp 0 false false true) warnedPart)) := by
  obtain ⟨hs, hr, hun⟩ := warnedPart_started
  rw [exec_bringUp rfl rfl]
  refine islandSettle_quiet (Quiet.upd ?_)
  show Quiet (bringUp (islandStart warnedPart false).dev 0 false false true)
  generalize (islandStart warnedPart false).dev = d at hs hr hun
  rw [← hun, bringUp_keyless]
  exact keylessTail_quiet _ (keylessReports_quiet (keylessHead_quiet (by rw [hun]; exact hs) (by rw [hun]; exact hr)))

/-- Refutes O18: as the island starts, the report that waits resets the chip, and the warning that the statement has shown is gone. -/
theorem not_bringUpStartsThePart : ¬ Obligations.BringUpStartsThePart := by
  unfold Obligations.BringUpStartsThePart
  intro h
  obtain ⟨-, hstart⟩ := h 0 false false true warnedPart
  obtain ⟨u, d, hexec, -, -, -, -, -, -, -, -, -, -, -, -, -, hwarn⟩ := hstart rfl (by decide) (by decide +kernel)
  have hd : WarnedOrOff d := .inl (hwarn.trans (by decide +kernel))
  have hfinal : WarnedOrOff (islandSettle (upd u (fun _ => d))).dev := islandSettle_warned (upd_warned hd)
  have hreal := warnedPart_quiet
  rw [show devOf (exec (.bringUp 0 false false true) warnedPart) = (islandSettle (upd u (fun _ => d))).dev from congrArg devOf hexec] at hreal
  obtain hw | ho := hfinal
  · exact absurd (hw.symm.trans hreal.supply) (by decide)
  · exact absurd (ho.symm.trans hreal.window) (by decide)

end Sys2Proof.Machine
end

section
/-! ## Pulse inputs: a tooth event and its processing, standstill and losses -/
namespace Sys2Proof.Machine

/-! ### Objects of a pulse input -/

theorem og_pulse_other (d : Dev) (i : Nat) {a b : Nat} (v : Nat) (h : b ≠ a) : og (os d (0x3D10 + i) a v) (0x3D10 + i) b = og d (0x3D10 + i) b := by
  rw [og_os, if_neg (by unfold okey; omega)]

theorem og_pulseBit_other (d : Dev) (i n : Nat) (v : Bool) {b : Nat} (h : b ≠ 4) : og (pulseBit d i n v) (0x3D10 + i) b = og d (0x3D10 + i) b :=
  og_pulse_other d i _ h

theorem bit_pulseBit (d : Dev) (i n m : Nat) (v : Bool) :
    bit (og (pulseBit d i n v) (0x3D10 + i) 4) m = if m = n then v else bit (og d (0x3D10 + i) 4) m := by
  rw [pulseBit, osb, og_os_same, bit_setBit]

theorem og_pulseCount (d : Dev) (i : Nat) {a b : Nat} (ha : a < 256) (hb : b < 256) : og (bump d (0x3D20 + i) a) (0x3D10 + i) b = og d (0x3D10 + i) b :=
  (bump_kept _ _ _).og (by simp [okey]; omega)

theorem og_showIndex (d : Dev) (i : Nat) {b : Nat} (h : b ≠ 5) : og (showIndex d i) (0x3D10 + i) b = og d (0x3D10 + i) b := og_pulse_other d i _ h

theorem pls_bump (d : Dev) (i c j : Nat) : pls (bump d i c) j = pls d j := by rw [bump_frame]; rfl

theorem pls_deassert (d : Dev) (n j : Nat) (hn : ∀ e, sourceEnded e n = e) : pls (deassert d n) j = pls d j := by
  unfold deassert
  rw [hn]
  split <;> rfl

/-- The loss of an input is over. -/
theorem lossOver_spec (d : Dev) (i : Nat) : ObjsKept d (lossOver d i) [okey (0x3D10 + i) 4] ∧ bit (og (lossOver d i) (0x3D10 + i) 4) 9 = false ∧
    (∀ j, pls (lossOver d i) j = pls d j) ∧ (lossOver d i).inForce = d.inForce := by
  have hended (e : Dev) : (deassert e 131).objs = e.objs ∧ (∀ j, pls (deassert e 131) j = pls e j) ∧ (deassert e 131).inForce = e.inForce := by
    refine ⟨?_, fun j => pls_deassert e 131 j fun _ => rfl, ?_⟩
    · rw [(deassert_plain (d := e) (src := 131) fun _ => rfl).1]
    · rw [(deassert_plain (d := e) (src := 131) fun _ => rfl).1]
  have hbit : bit (og (pulseBit d i 9 false) (0x3D10 + i) 4) 9 = false := by rw [bit_pulseBit, if_pos rfl]
  have hkept : ObjsKept d (pulseBit d i 9 false) [okey (0x3D10 + i) 4] := fun k hk => os_other _ _ _ _ _ (by simpa using hk)
  unfold lossOver
  split
  · dsimp only
    split
    · exact ⟨hkept, hbit, fun _ => rfl, rfl⟩
    · obtain ⟨hobjs, hpls, hforce⟩ := hended (pulseBit d i 9 false)
      exact ⟨hkept.congr hobjs, by rw [og_congr hobjs]; exact hbit, hpls, hforce⟩
  next h => exact ⟨.refl _ _, by simpa using h, fun _ => rfl, rfl⟩

/-! ### An edge and its tooth -/

/-- An edge of input i waits for its instant. -/
def edgeTaken (d : Dev) (i width : Nat) : Dev :=
  let t := pulseTime d.time.seg
  let wide : Int := if cg d (0x3D00 + i) 0x0D = 1 then ((width * 5 + 3) / 4 : Nat) else 0
  setPls d i { pls d i with waiting := (pls d i).waiting ++ [(t, t + wide + (cg d (0x3D00 + i) 4 : Int) + 20, width, (pls d i).cmdNeg)] }

theorem exec_toothEvent (i : PIn) (dg width : BitVec 32) (s : State) : exec (.toothEvent i dg width) s = .next (upd s (fun d =>
    if pulseOn (advance d dg.toNat) i.val then
      processEdges (edgeTaken (advance d dg.toNat) i.val width.toNat) i.val (pulseInstantAt ((advance d dg.toNat).time.kc + 1))
    else advance d dg.toNat)) := rfl

/-- Device `e` is device `d` with the states of its pulse inputs stored anew. -/
structure PulsesSame (d e : Dev) : Prop where
  frame : e = { d with pulse := e.pulse }
  pulses : ∀ j, pls e j = pls d j

/-- An edge with none before it, of an input without coded direction, is processed at once when its instant is to come. -/
theorem edge_processed {d : Dev} {i width : Nat} {tc : Int} (hw : (pls d i).waiting = []) (hc : cg d (0x3D00 + i) 0x0D ≠ 1)
    (ht : pulseTime d.time.seg + cg d (0x3D00 + i) 4 + 20 < tc) :
    ∃ e, PulsesSame d e ∧ processEdges (edgeTaken d i width) i tc = toothAt e i (pulseTime d.time.seg) (pls d i).cmdNeg := by
  have hpls : pls (edgeTaken d i width) i = { pls d i with waiting := [(pulseTime d.time.seg, pulseTime d.time.seg + 0 + (cg d (0x3D00 + i) 4 : Int) + 20, width, (pls d i).cmdNeg)] } := by
    unfold edgeTaken
    rw [pls_setPls, if_pos rfl, hw, if_neg hc]
    rfl
  have hdue : decide (pulseTime d.time.seg + 0 + (cg d (0x3D00 + i) 4 : Int) + 20 < tc) = true := by simpa using ht
  refine ⟨setPls (edgeTaken d i width) i (pls d i), ⟨rfl, fun j => ?_⟩, ?_⟩
  · rw [pls_setPls]
    split
    next h => rw [h]
    next h =>
      unfold edgeTaken
      rw [pls_setPls, if_neg h]
  · unfold processEdges
    rw [hpls]
    simp only [List.filter_cons, hdue, List.filter_nil, if_true, Bool.not_true, Bool.false_eq_true, if_false, List.foldl_cons, List.foldl_nil]
    have hcg (m : PulseSt) : cg (setPls (edgeTaken d i width) i m) (0x3D00 + i) 0x0D = cg d (0x3D00 + i) 0x0D := rfl
    rw [hcg, if_neg hc, ← hw]

/-! ### The processing of a tooth -/

/-- An edge that comes too early (R154). -/
def tooEarly (d : Dev) (i : Nat) (t : Int) : Bool :=
  match (pls d i).lastEdge with
  | some l => decide (t - l < (cg d (0x3D00 + i) 5 * 5 + 3) / 4)
  | none => false

/-- The direction's sign. -/
def signOf (neg : Bool) : Int := if neg then -1 else 1

/-- What the input remembers of an edge that was taken. -/
def edgeSeen (d : Dev) (i : Nat) (t : Int) : PulseSt := { pls d i with lastEdge := some t, watch := 0 }

/-- The first tooth after a restart, or one in the other direction. -/
def toothFirst (d : Dev) (i : Nat) (t : Int) (neg : Bool) : Dev :=
  let rev := neg != (pls d i).sNeg
  let e := setPos (lossOver d i) i (wrap 64 (pulsePos (lossOver d i) i + signOf neg * pitch d i))
  let e := bump (if rev then bump e (0x3D20 + i) 6 else e) (0x3D20 + i) 7
  let e := setPls e i { edgeSeen d i t with te := t, ta := t, tp := none, v := 0, invalid := true, restart := false, sNeg := neg, toothNow := true }
  let e := os (os e (0x3D10 + i) 2 (pulseTime112 t)) (0x3D10 + i) 9 0
  showIndex (pulseBit (pulseBit (bump e (0x3D20 + i) 1) i 1 neg) i 3 false) i

/-- A tooth at one pitch from the last one. -/
def toothNext (d : Dev) (i : Nat) (t : Int) (neg : Bool) : Dev :=
  let dt := t - (pls d i).ta
  let T := f64OfRat (mkRat dt 1)
  let v := f32OfRat (f64ToRat (f64OfRat (signOf neg * (1 : Nat) * (cg d (0x3D00 + i) 6 : Int) * 1250000000 / (dt : Rat))))
  let e := setPos (lossOver d i) i (wrap 64 (pulsePos (lossOver d i) i + signOf neg * (1 : Nat) * pitch d i))
  let e := setPls e i { edgeSeen d i t with te := t, ta := t, tp := some T, v := v, invalid := false, toothNow := true, refPending := false }
  let e := osf (os e (0x3D10 + i) 2 (pulseTime112 t)) (0x3D10 + i) 9 (f32OfRat (f64ToRat T * 8 / 10000000000))
  showIndex (pulseBit (bump e (0x3D20 + i) 1) i 3 false) i

theorem toothAt_early {d : Dev} {i : Nat} {t : Int} {neg : Bool} (h : tooEarly d i t = true) :
    toothAt d i t neg = later (bump d (0x3D20 + i) 2) 128 0 i := by
  unfold toothAt
  exact if_pos h

theorem toothAt_first {d : Dev} {i : Nat} {t : Int} {neg : Bool} (h : tooEarly d i t = false) (hx : (pls d i).restart = true ∨ neg ≠ (pls d i).sNeg) :
    toothAt d i t neg = toothFirst d i t neg := by
  have hcond : ((edgeSeen d i t).restart || neg != (edgeSeen d i t).sNeg) = true := by
    simpa [edgeSeen] using hx
  unfold toothAt
  exact (if_neg (ne_true_of_eq_false h)).trans (if_pos hcond)

theorem toothAt_next {d : Dev} {i : Nat} {t : Int} {neg : Bool} (h : tooEarly d i t = false) (hr : (pls d i).restart = false) (hs : neg = (pls d i).sNeg)
    (h1 : cg d (0x3D00 + i) 8 ≠ 1) (h2 : cg d (0x3D00 + i) 8 ≠ 2) (hp : (pls d i).refPending = false) :
    toothAt d i t neg = toothNext d i t neg := by
  have hforce (c : Nat) : cg (lossOver d i) (0x3D00 + i) c = cg d (0x3D00 + i) c := by
    unfold cg
    rw [(lossOver_spec d i).2.2.2]
  have hcond : ((edgeSeen d i t).restart || neg != (edgeSeen d i t).sNeg) = false := by
    simp [edgeSeen, hr, hs]
  unfold toothAt
  refine (if_neg (ne_true_of_eq_false h)).trans ((if_neg (ne_true_of_eq_false hcond)).trans ?_)
  dsimp only
  rw [if_neg (by simp [hforce, h2])]
  simp only [hforce, h1, decide_false, Bool.false_and, Bool.false_eq_true, if_false, hp]
  rfl

theorem wrap_wrap (v : Int) : wrap 64 (wrap 64 v) = wrap 64 v := by
  unfold wrap sgn pat
  norm_num
  omega

theorem pulsePos_setPos (d : Dev) (i : Nat) (v : Int) : pulsePos (setPos d i (wrap 64 v)) i = wrap 64 v := by
  rw [pulsePos, ogi, setPos, osi, og_os_same]
  exact wrap_wrap v

theorem pulsePos_congr {a b : Dev} {i : Nat} (h : og b (0x3D10 + i) 1 = og a (0x3D10 + i) 1) : pulsePos b i = pulsePos a i := by
  unfold pulsePos ogi
  rw [h]

/-- The position before and after the loss is over. -/
theorem pulsePos_lossOver (d : Dev) (i : Nat) : pulsePos (lossOver d i) i = pulsePos d i :=
  pulsePos_congr ((lossOver_spec d i).1.og (by simp [okey]))

/-- What the keys of another input's position are not. -/
theorem pulseKeys_other {i j a b : Nat} (hi : i < 16) (hj : j < 16) (h : j ≠ i) (hb : b < 256) (ha : a < 256) :
    okey (0x3D10 + j) a ≠ okey (0x3D10 + i) b ∧ okey (0x3D10 + j) a ≠ okey (0x3D20 + i) b := by
  unfold okey
  omega

theorem toothFirst_spec (d : Dev) (i : Nat) (t : Int) (neg : Bool) :
    pulsePos (toothFirst d i t neg) i = wrap 64 (pulsePos d i + signOf neg * pitch d i) ∧
    pls (toothFirst d i t neg) i = { edgeSeen d i t with te := t, ta := t, tp := none, v := 0, invalid := true, restart := false, sNeg := neg, toothNow := true } ∧
    bit (og (toothFirst d i t neg) (0x3D10 + i) 4) 3 = false ∧ bit (og (toothFirst d i t neg) (0x3D10 + i) 4) 9 = false ∧
    (∀ j, j ≠ i → pls (toothFirst d i t neg) j = pls d j) ∧
    ObjsKept d (toothFirst d i t neg) ([1, 2, 4, 5, 9].map (okey (0x3D10 + i)) ++ [1, 6, 7].map (okey (0x3D20 + i))) := by
  obtain ⟨hkept, hloss, hpls, -⟩ := lossOver_spec d i
  obtain ⟨e, he⟩ : ∃ e, e = setPos (lossOver d i) i (wrap 64 (pulsePos (lossOver d i) i + signOf neg * pitch d i)) := ⟨_, rfl⟩
  obtain ⟨f, hf⟩ : ∃ f, f = bump (if neg != (pls d i).sNeg then bump e (0x3D20 + i) 6 else e) (0x3D20 + i) 7 := ⟨_, rfl⟩
  have hcount {b : Nat} (hb : b < 256) : og f (0x3D10 + i) b = og e (0x3D10 + i) b := by
    rw [hf, og_pulseCount _ _ (by decide) hb]
    split
    · exact og_pulseCount _ _ (by decide) hb
    · rfl
  have hfpls (j : Nat) : pls f j = pls d j := by
    rw [hf, pls_bump]
    have hepls : pls e j = pls d j := by rw [he]; exact hpls j
    split
    · rw [pls_bump, hepls]
    · exact hepls
  obtain ⟨x, hx⟩ : ∃ x, x = { edgeSeen d i t with te := t, ta := t, tp := none, v := 0, invalid := true, restart := false, sNeg := neg, toothNow := true } := ⟨_, rfl⟩
  have hfinal : toothFirst d i t neg = showIndex (pulseBit (pulseBit (bump (os (os (setPls f i x) (0x3D10 + i) 2 (pulseTime112 t)) (0x3D10 + i) 9 0) (0x3D20 + i) 1)
      i 1 neg) i 3 false) i := by
    rw [hf, he, hx]; rfl
  rw [hfinal, ← hx]
  have hpls' (j : Nat) : pls (showIndex (pulseBit (pulseBit (bump (os (os (setPls f i x) (0x3D10 + i) 2 (pulseTime112 t)) (0x3D10 + i) 9 0) (0x3D20 + i) 1)
      i 1 neg) i 3 false) i) j = if j = i then x else pls d j := by
    refine (pls_bump _ _ _ _).trans ((pls_setPls f i j x).trans ?_)
    rw [hfpls]
  refine ⟨?_, ?_, ?_, ?_, fun j hj => ?_, ?_⟩
  · rw [← pulsePos_lossOver d i]
    refine (pulsePos_congr ?_).trans (he ▸ pulsePos_setPos (lossOver d i) i _)
    rw [og_showIndex _ _ (by decide), og_pulseBit_other _ _ _ _ (by decide), og_pulseBit_other _ _ _ _ (by decide), og_pulseCount _ _ (by decide) (by decide),
      og_pulse_other _ _ _ (by decide), og_pulse_other _ _ _ (by decide)]
    exact hcount (by decide)
  · rw [hpls', if_pos rfl]
  · rw [og_showIndex _ _ (by decide), bit_pulseBit, if_pos rfl]
  · rw [og_showIndex _ _ (by decide), bit_pulseBit, if_neg (by decide), bit_pulseBit, if_neg (by decide), og_pulseCount _ _ (by decide) (by decide),
      og_pulse_other _ _ _ (by decide), og_pulse_other _ _ _ (by decide)]
    refine Eq.trans (congrArg (bit · 9) (hcount (b := 4) (by decide))) ?_
    rw [he, setPos, osi, og_pulse_other _ _ _ (by decide)]
    exact hloss
  · rw [hpls', if_neg hj]
  · generalize hl : [1, 2, 4, 5, 9].map (okey (0x3D10 + i)) ++ [1, 6, 7].map (okey (0x3D20 + i)) = l
    have hin (b : Nat) (hb : b ∈ [1, 2, 4, 5, 9]) : okey (0x3D10 + i) b ∈ l := by
      rw [← hl]; exact List.mem_append_left _ (List.mem_map_of_mem hb)
    have hcnt (b : Nat) (hb : b ∈ [1, 6, 7]) : okey (0x3D20 + i) b ∈ l := by
      rw [← hl]; exact List.mem_append_right _ (List.mem_map_of_mem hb)
    have hbump (g : Dev) (b : Nat) (hb : b ∈ [1, 6, 7]) : ObjsKept g (bump g (0x3D20 + i) b) l := (bump_kept _ _ _).mono (by simpa using hcnt b hb)
    have hke : ObjsKept d e l := by
      rw [he]
      exact (hkept.mono (by simpa using hin 4 (by decide))).os _ _ _ (hin 1 (by decide))
    have hkf : ObjsKept d f l := by
      rw [hf]
      split
      · exact (hke.trans (hbump _ 6 (by decide))).trans (hbump _ 7 (by decide))
      · exact hke.trans (hbump _ 7 (by decide))
    have hset : ObjsKept d (setPls f i x) l := hkf.congr rfl
    have hg := ((hset.os (0x3D10 + i) 2 (pulseTime112 t) (hin 2 (by decide))).os (0x3D10 + i) 9 0 (hin 9 (by decide))).trans (hbump _ 1 (by decide))
    exact ((hg.os _ _ _ (hin 4 (by decide))).os _ _ _ (hin 4 (by decide))).os _ _ _ (hin 5 (by decide))

theorem toothNext_spec (d : Dev) (i : Nat) (t : Int) (neg : Bool) :
    pulsePos (toothNext d i t neg) i = wrap 64 (pulsePos d i + signOf neg * pitch d i) ∧
    (pls (toothNext d i t neg) i).te = t ∧ (pls (toothNext d i t neg) i).tp = some (f64OfRat (t - (pls d i).ta : Int)) ∧
    (pls (toothNext d i t neg) i).invalid = false ∧ og (toothNext d i t neg) (0x3D10 + i) 2 = pulseTime112 t ∧
    bit (og (toothNext d i t neg) (0x3D10 + i) 4) 3 = false := by
  obtain ⟨e, he⟩ : ∃ e, e = setPos (lossOver d i) i (wrap 64 (pulsePos (lossOver d i) i + signOf neg * (1 : Nat) * pitch d i)) := ⟨_, rfl⟩
  obtain ⟨v, w, hfinal⟩ : ∃ v w, toothNext d i t neg = showIndex (pulseBit (bump (osf (os (setPls e i { edgeSeen d i t with
        te := t, ta := t, tp := some (f64OfRat (mkRat (t - (pls d i).ta) 1)), v := v, invalid := false, toothNow := true, refPending := false })
      (0x3D10 + i) 2 (pulseTime112 t)) (0x3D10 + i) 9 w) (0x3D20 + i) 1) i 3 false) i := ⟨_, _, by rw [he]; rfl⟩
  obtain ⟨x, hx⟩ : ∃ x, x = { edgeSeen d i t with
    te := t, ta := t, tp := some (f64OfRat (mkRat (t - (pls d i).ta) 1)), v := v, invalid := false, toothNow := true, refPending := false } := ⟨_, rfl⟩
  rw [← hx] at hfinal
  have hpls : pls (toothNext d i t neg) i = x := by
    rw [hfinal]
    refine (pls_bump _ _ _ _).trans ((pls_setPls e i i x).trans (if_pos rfl))
  have hog {b : Nat} (hb : b < 256) (h4 : b ≠ 4) (h5 : b ≠ 5) (h9 : b ≠ 9) :
      og (toothNext d i t neg) (0x3D10 + i) b = og (os (setPls e i x) (0x3D10 + i) 2 (pulseTime112 t)) (0x3D10 + i) b := by
    rw [hfinal, og_showIndex _ _ h5, og_pulseBit_other _ _ _ _ h4, og_pulseCount _ _ (by decide) hb, osf, og_pulse_other _ _ _ h9]
  refine ⟨?_, by rw [hpls, hx], ?_, by rw [hpls, hx], ?_, ?_⟩
  · rw [← pulsePos_lossOver d i]
    refine (pulsePos_congr (b := toothNext d i t neg) (a := e) ?_).trans ?_
    · rw [hog (by decide) (by decide) (by decide) (by decide), og_pulse_other _ _ _ (by decide)]
      rfl
    · rw [he, pulsePos_setPos, Nat.cast_one, mul_one]
  · rw [hpls, hx, Rat.mkRat_one]
  · rw [hog (by decide) (by decide) (by decide) (by decide), og_os_same]
  · rw [hfinal, og_showIndex _ _ (by decide), bit_pulseBit, if_pos rfl]

/-! ### Tooth events -/

section
variable {i : PIn} {dg width : BitVec 32} {s : State}

/-- An edge of an input that counts, with none before it, is processed at once. -/
theorem toothEvent_processed (hon : pulseOn s.dev i.val = true) (hw : (pls s.dev i.val).waiting = []) (hc : cg s.dev (0x3D00 + i.val) 0x0D ≠ 1)
    (ht : pulseTime (advance s.dev dg.toNat).time.seg + cg s.dev (0x3D00 + i.val) 4 + 20 < pulseInstantAt (s.dev.time.kc + 1)) :
    ∃ e, PulsesSame (advance s.dev dg.toNat) e ∧ exec (.toothEvent i dg width) s =
      .next (upd s (fun _ => toothAt e i.val (pulseTime (advance s.dev dg.toNat).time.seg) (pls s.dev i.val).cmdNeg)) := by
  have hkc : (advance s.dev dg.toNat).time.kc = s.dev.time.kc := by
    unfold advance
    split <;> rfl
  have hpls (j : Nat) : pls (advance s.dev dg.toNat) j = pls s.dev j := by rw [advance_frame]; rfl
  have hcg (a b : Nat) : cg (advance s.dev dg.toNat) a b = cg s.dev a b := by rw [advance_frame]; rfl
  have hon' : pulseOn (advance s.dev dg.toNat) i.val = true := by
    unfold pulseOn ready
    rw [hcg, og_advance]
    exact hon
  obtain ⟨e, hsame, hedge⟩ := edge_processed (d := advance s.dev dg.toNat) (i := i.val) (width := width.toNat)
    (tc := pulseInstantAt ((advance s.dev dg.toNat).time.kc + 1)) (by rw [hpls]; exact hw) (by rw [hcg]; exact hc) (by rw [hcg, hkc]; exact ht)
  refine ⟨e, hsame, (exec_toothEvent i dg width s).trans ?_⟩
  rw [hpls] at hedge
  exact congrArg (fun d => Host.Outcome.next (upd s (fun _ => d))) ((if_pos hon').trans hedge)
end

/-- What a device with the same pulse states after time went on reads. -/
theorem PulsesSame.reads {d e : Dev} {g : Nat} (h : PulsesSame (advance d g) e) :
    (∀ j, pls e j = pls d j) ∧ e.objs = d.objs ∧ e.inForce = d.inForce ∧ e.fc = d.fc := by
  obtain ⟨hframe, hpls⟩ := h
  refine ⟨fun j => (hpls j).trans (by rw [advance_frame]; rfl), ?_, ?_, ?_⟩
  · rw [hframe, advance_frame]
  · rw [hframe, advance_frame]
  · rw [hframe, advance_frame]

/-- An edge that does not come too early. -/
theorem tooEarly_of_late {d e : Dev} {i : Nat} {t : Int} (hpls : ∀ j, pls e j = pls d j) (hforce : e.inForce = d.inForce)
    (hlate : ∀ l, (pls d i).lastEdge = some l → (cg d (0x3D00 + i) 5 * 5 + 3) / 4 ≤ t - l) : tooEarly e i t = false := by
  unfold tooEarly cg
  rw [hpls, hforce]
  split
  next l hl => exact decide_eq_false (not_lt.mpr (hlate l hl))
  · rfl

theorem signOf_mul (neg : Bool) (p : Int) : signOf neg * p = if neg then -p else p := by
  cases neg
  · exact one_mul p
  · exact neg_one_mul p

theorem toothEvent_off {i : PIn} {dg width : BitVec 32} {s : State} (hs : Settled s) (hon : pulseOn s.dev i.val = false) :
    Does (.toothEvent i dg width) s (fun d => d = advance s.dev dg.toNat) := by
  refine .of_advance hs (exec_toothEvent i dg width s) (if_neg ?_)
  have hon' : pulseOn (advance s.dev dg.toNat) i.val = pulseOn s.dev i.val := by
    unfold pulseOn ready
    rw [og_advance, show cg (advance s.dev dg.toNat) (0x3D00 + i.val) 1 = cg s.dev (0x3D00 + i.val) 1 from by rw [advance_frame]; rfl]
  rw [hon', hon]
  exact Bool.false_ne_true

section
variable {i : PIn} {dg width : BitVec 32} {s : State} {t P : Int} {x : PulseSt}
variable (hon : pulseOn s.dev i.val = true) (hw : (pls s.dev i.val).waiting = []) (hc : cg s.dev (0x3D00 + i.val) 0x0D ≠ 1)
  (ht : pulseTime (advance s.dev dg.toNat).time.seg + cg s.dev (0x3D00 + i.val) 4 + 20 < pulseInstantAt (s.dev.time.kc + 1))
include hon hw hc ht

theorem toothEvent_early {l : Int} (hl : (pls s.dev i.val).lastEdge = some l)
    (hearly : pulseTime (advance s.dev dg.toNat).time.seg - l < (cg s.dev (0x3D00 + i.val) 5 * 5 + 3) / 4) (hcount : og s.dev (0x3D20 + i.val) 2 < 0xFFFFFFFE) :
    Leaves (.toothEvent i dg width) s (fun d => og d (0x3D20 + i.val) 2 = og s.dev (0x3D20 + i.val) 2 + 1 ∧ pls d i.val = pls s.dev i.val ∧
      pulsePos d i.val = pulsePos s.dev i.val ∧ d.fc.todo = s.dev.fc.todo ++ [rep 128 0 i.val 0]) := by
  obtain ⟨e, hsame, hexec⟩ := toothEvent_processed (width := width) hon hw hc ht
  obtain ⟨hpls, hobjs, hforce, hfc⟩ := hsame.reads
  have htoo : tooEarly e i.val (pulseTime (advance s.dev dg.toNat).time.seg) = true := by
    unfold tooEarly cg
    rw [hpls, hl, hforce]
    exact decide_eq_true hearly
  have hog (a b : Nat) : og e a b = og s.dev a b := og_congr hobjs a b
  have hbump := bump_counts (d := e) (i := 0x3D20 + i.val) (c := 2) (by rw [hog]; exact hcount)
  rw [toothAt_early htoo, hbump] at hexec
  refine ⟨_, hexec, ?_, hpls i.val, ?_, ?_⟩
  · show og (os e _ _ _) _ _ = _
    rw [og_os_same, hog]
  · refine pulsePos_congr ?_
    show og (os e _ _ _) _ _ = _
    rw [og_os, if_neg (by unfold okey; omega), hog]
  · show e.fc.todo ++ _ = _
    rw [hfc]; rfl

theorem toothEvent_first (hlate : ∀ l, (pls s.dev i.val).lastEdge = some l →
      (cg s.dev (0x3D00 + i.val) 5 * 5 + 3) / 4 ≤ pulseTime (advance s.dev dg.toNat).time.seg - l)
    (hfirst : (pls s.dev i.val).restart = true ∨ (pls s.dev i.val).sNeg ≠ (pls s.dev i.val).cmdNeg) : Leaves (.toothEvent i dg width) s (fun d =>
            pulsePos d i.val = wrap 64 (pulsePos s.dev i.val + if (pls s.dev i.val).cmdNeg then -pitch s.dev i.val else pitch s.dev i.val) ∧
            (pls d i.val).te = pulseTime (advance s.dev dg.toNat).time.seg ∧
            (pls d i.val).tp = none ∧ (pls d i.val).restart = false ∧ (pls d i.val).sNeg = (pls s.dev i.val).cmdNeg ∧
            bit (og d (0x3D10 + i.val) 4) 3 = false ∧ bit (og d (0x3D10 + i.val) 4) 9 = false ∧
            ∀ j : PIn, j ≠ i → pls d j.val = pls s.dev j.val ∧ pulsePos d j.val = pulsePos s.dev j.val) := by
  obtain ⟨e, hsame, hexec⟩ := toothEvent_processed (width := width) hon hw hc ht
  obtain ⟨hpls, hobjs, hforce, hfc⟩ := hsame.reads
  have htoo : tooEarly e i.val (pulseTime (advance s.dev dg.toNat).time.seg) = false := tooEarly_of_late hsame.reads.1 hforce hlate
  rw [toothAt_first htoo (by rw [hpls]; exact hfirst.imp id Ne.symm)] at hexec
  obtain ⟨hpos, hx, h3, h9, hothers, hkept⟩ := toothFirst_spec e i.val (pulseTime (advance s.dev dg.toNat).time.seg) (pls s.dev i.val).cmdNeg
  have hpitch : pitch e i.val = pitch s.dev i.val := by
    unfold pitch cg
    rw [hforce]
  refine ⟨_, hexec, ?_, by rw [hx], by rw [hx], by rw [hx], by rw [hx], h3, h9, fun j hj => ?_⟩
  · rw [hpos, signOf_mul, hpitch, pulsePos_congr (og_congr hobjs _ _)]
  · have hne : j.val ≠ i.val := fun h => hj (Fin.ext h)
    refine ⟨(hothers j.val hne).trans (hpls j.val), (pulsePos_congr (hkept.og ?_)).trans (pulsePos_congr (og_congr hobjs _ _))⟩
    simp [okey]
    omega

theorem toothEvent_next (hlate : ∀ l, (pls s.dev i.val).lastEdge = some l →
      (cg s.dev (0x3D00 + i.val) 5 * 5 + 3) / 4 ≤ pulseTime (advance s.dev dg.toNat).time.seg - l)
    (hr : (pls s.dev i.val).restart = false) (hn : (pls s.dev i.val).sNeg = (pls s.dev i.val).cmdNeg)
    (h1 : cg s.dev (0x3D00 + i.val) 8 ≠ 1) (h2 : cg s.dev (0x3D00 + i.val) 8 ≠ 2) (hp : (pls s.dev i.val).refPending = false) :
    Leaves (.toothEvent i dg width) s (fun d =>
              pulsePos d i.val = wrap 64 (pulsePos s.dev i.val + if (pls s.dev i.val).cmdNeg then -pitch s.dev i.val else pitch s.dev i.val) ∧
              (pls d i.val).te = pulseTime (advance s.dev dg.toNat).time.seg ∧
              (pls d i.val).tp = some (f64OfRat (pulseTime (advance s.dev dg.toNat).time.seg - (pls s.dev i.val).ta : Int)) ∧ (pls d i.val).invalid = false ∧
              og d (0x3D10 + i.val) 2 = pulseTime112 (pulseTime (advance s.dev dg.toNat).time.seg) ∧ bit (og d (0x3D10 + i.val) 4) 3 = false) := by
  obtain ⟨e, hsame, hexec⟩ := toothEvent_processed (width := width) hon hw hc ht
  obtain ⟨hpls, hobjs, hforce, hfc⟩ := hsame.reads
  have htoo : tooEarly e i.val (pulseTime (advance s.dev dg.toNat).time.seg) = false := tooEarly_of_late hsame.reads.1 hforce hlate
  have hcg (c : Nat) : cg e (0x3D00 + i.val) c = cg s.dev (0x3D00 + i.val) c := by
    unfold cg
    rw [hforce]
  rw [toothAt_next htoo (by rw [hpls]; exact hr) (by rw [hpls]; exact hn.symm) (by rw [hcg]; exact h1) (by rw [hcg]; exact h2) (by rw [hpls]; exact hp)] at hexec
  obtain ⟨hpos, hte, htp, hinv, htime, h3⟩ := toothNext_spec e i.val (pulseTime (advance s.dev dg.toNat).time.seg) (pls s.dev i.val).cmdNeg
  have hpitch : pitch e i.val = pitch s.dev i.val := by
    unfold pitch
    rw [hcg]
  refine ⟨_, hexec, ?_, hte, ?_, hinv, htime, h3⟩
  · rw [hpos, signOf_mul, hpitch, pulsePos_congr (og_congr hobjs _ _)]
  · rw [htp, hpls]
end

/-! ### Standstill and losses (R60, R162, R163) -/

theorem exec_standstillTimeout (i : PIn) (s : State) : exec (.standstillTimeout i) s = .next (upd s (fun d =>
    if pulseOn d i.val && decide (standstillTime d i.val ≤ ((pulseTime d.time.seg - (pls d i.val).te : Int) : Rat)) then standstill d i.val else d)) := rfl

/-- A low level is shown, counted and reported. -/
def signalFault (d : Dev) (i : Nat) : Dev := later (pulseBit (bump d (0x3D20 + i) 8) i 8 true) 130 0 i

theorem exec_pulseInputSignalFault (i : PIn) (s : State) : exec (.pulseInputSignalFault i) s = .next (upd s (fun d =>
    if pulseOn d i.val && cg d (0x3D00 + i.val) 2 = 0 && !bit (og d (0x3D10 + i.val) 4) 8 then fedLoss (signalFault d i.val) i.val else d)) := rfl

/-- A watch time without a tooth is shown and reported. -/
def watchLoss (d : Dev) (i : Nat) : Dev := later (pulseBit d i 9 true) 131 0 i

theorem exec_pulseInputLoss (i : PIn) (s : State) : exec (.pulseInputLoss i) s = .next (upd s (fun d =>
    if pulseOn d i.val && f32ToRat (ogf d (0x3D00 + i.val) 0x12) != 0 && !bit (og d (0x3D10 + i.val) 4) 9 &&
      decide (instants (og d (0x3D00 + i.val) 0x13) ≤ (pls d i.val).watch) then fedLoss (watchLoss d i.val) i.val else d)) := rfl

theorem exec_pulseInputSignalRestored (i : PIn) (s : State) : exec (.pulseInputSignalRestored i) s = .next (upd s (fun d =>
    if (List.range 16).any (fun j => bit (og (pulseBit d i.val 8 false) (0x3D10 + j) 4) 8) then pulseBit d i.val 8 false
    else deassert (pulseBit d i.val 8 false) 130)) := rfl

/-- An axis whose feedback is lost stays so. -/
theorem feedbackLoss_lost (d : Dev) (n m : Nat) (h : n = m ∨ bit (og d (ax m 0x1B) 7) 4 = true) : bit (og (feedbackLoss d n) (ax m 0x1B) 7) 4 = true := by
  by_cases hm : m = n
  · subst hm
    show bit (og (osb _ _ _ _ _) _ _) 4 = true
    rw [osb, og_os_same, bit_setBit, if_pos rfl]
  · rw [(feedbackLoss_step d n).og_other hm (by decide) (by decide)]
    exact h.resolve_left fun e => hm e.symm

theorem lostAxes_spec (l : List Nat) : ∀ d : Dev,
    (∀ i c, i < 0x8000 → c < 256 → og (l.foldl (fun d n => if bit (og d (ax n 0x1B) 7) 4 then d else feedbackLoss d n) d) i c = og d i c) ∧
    (∃ r, (l.foldl (fun d n => if bit (og d (ax n 0x1B) 7) 4 then d else feedbackLoss d n) d).fc.todo = d.fc.todo ++ r) ∧
    ∀ m, m ∈ l ∨ bit (og d (ax m 0x1B) 7) 4 = true →
      bit (og (l.foldl (fun d n => if bit (og d (ax n 0x1B) 7) 4 then d else feedbackLoss d n) d) (ax m 0x1B) 7) 4 = true := by
  induction l with
  | nil => exact fun d => ⟨fun _ _ _ _ => rfl, ⟨[], (List.append_nil _).symm⟩, fun m hm => hm.resolve_left List.not_mem_nil⟩
  | cons n l ih =>
    intro d
    obtain ⟨hog, ⟨r, hr⟩, hlost⟩ := ih (if bit (og d (ax n 0x1B) 7) 4 then d else feedbackLoss d n)
    rw [List.foldl_cons]
    refine ⟨fun i c hi hc => (hog i c hi hc).trans ?_, ?_, fun m hm => hlost m ?_⟩
    · split
      · rfl
      · exact (feedbackLoss_step d n).og hi hc
    · rw [hr]
      split
      · exact ⟨r, rfl⟩
      · exact ⟨_, List.append_assoc ..⟩
    · rw [List.mem_cons] at hm
      obtain (rfl | hm) | hm := hm
      · right
        split
        · assumption
        · exact feedbackLoss_lost d m m (.inl rfl)
      · exact .inl hm
      · right
        split
        · exact hm
        · exact feedbackLoss_lost d n m (.inr hm)

/-- The axes an input feeds lose their feedback. -/
theorem fedLoss_spec (d : Dev) (i : Nat) : (∀ j c, j < 0x8000 → c < 256 → og (fedLoss d i) j c = og d j c) ∧
    (∃ r, (fedLoss d i).fc.todo = d.fc.todo ++ r) ∧ ∀ n ∈ fedAxes d i, bit (og (fedLoss d i) (ax n 0x1B) 7) 4 = true := by
  obtain ⟨hog, hr, hlost⟩ := lostAxes_spec (fedAxes d i) d
  exact ⟨hog, hr, fun n hn => hlost n (.inl hn)⟩

/-- The bound axes do not depend on an object that is no axis's. -/
theorem boundAxes_tdel {k : Nat} (hk : k < 0x800000) (t : Table Nat) : boundAxes (tdel k t) = boundAxes t := by
  induction t with
  | nil => rfl
  | cons p t ih =>
    unfold boundAxes at ih ⊢
    unfold tdel
    split
    next h =>
      rw [List.filterMap_cons_none (by simp [h]; omega)]
      exact ih
    · simp only [List.filterMap_cons, ih]

theorem boundAxes_tinsert {k : Nat} (v : Nat) (hk : k < 0x800000) (t : Table Nat) : boundAxes (tinsert k v t) = boundAxes t := by
  induction t with
  | nil =>
    unfold boundAxes tinsert
    rw [List.filterMap_cons_none (by simp; omega)]
  | cons p t ih =>
    unfold boundAxes at ih ⊢
    unfold tinsert
    split
    · rw [List.filterMap_cons_none (by simp; omega)]
    · simp only [List.filterMap_cons, ih]

theorem boundAxes_os (d : Dev) {i c : Nat} (v : Nat) (hc : c < 256) (hi : i < 0x8000) : boundAxes (os d i c v).objs = boundAxes d.objs := by
  have hk : okey i c < 0x800000 := by unfold okey; omega
  unfold os tput
  dsimp only
  split
  · exact boundAxes_tdel hk _
  · rw [boundAxes_tinsert v hk, boundAxes_tdel hk]

/-- The axes an input feeds are those of its device before the fault is shown. -/
theorem fedAxes_congr {d e : Dev} {i : Nat} (hax : ∀ n o c, c < 256 → og e (ax n o) c = og d (ax n o) c) (hb : boundAxes e.objs = boundAxes d.objs) :
    fedAxes e i = fedAxes d i := by
  unfold fedAxes
  rw [hb]
  congr 1
  funext n
  unfold fbInput
  rw [hax _ _ _ (by decide), hax _ _ _ (by decide)]

section
variable {i : PIn} {s : State}

theorem standstill_does (hon : pulseOn s.dev i.val = true)
    (ht : standstillTime s.dev i.val ≤ ((pulseTime s.dev.time.seg - (pls s.dev i.val).te : Int) : Rat)) (hs : Settled s) :
    Does (.standstillTimeout i) s (fun d => bit (og d (0x3D10 + i.val) 4) 3 = true ∧ bit (og d (0x3D10 + i.val) 4) 2 = true ∧
            og d (0x3D10 + i.val) 3 = 0 ∧ pls d i.val = { pls s.dev i.val with restart := true } ∧
            ObjsKept s.dev d [okey (0x3D10 + i.val) 3, okey (0x3D10 + i.val) 4]) := by
  obtain ⟨e, he⟩ : ∃ e, e = setPls s.dev i.val { pls s.dev i.val with restart := true } := ⟨_, rfl⟩
  have hstand : standstill s.dev i.val = osf (pulseBit (pulseBit e i.val 3 true) i.val 2 true) (0x3D10 + i.val) 3 0 := by rw [he]; rfl
  have hbit (n : Nat) : bit (og (standstill s.dev i.val) (0x3D10 + i.val) 4) n = if n = 2 then true else if n = 3 then true else bit (og e (0x3D10 + i.val) 4) n := by
    rw [hstand, osf, og_pulse_other _ _ _ (by decide), bit_pulseBit, bit_pulseBit]
  refine .of_eq (d := standstill s.dev i.val) (exec_standstillTimeout i s) (if_pos (by simpa [hon] using ht)) ?_ ?_ ⟨?_, ?_, ?_, ?_, ?_⟩
  · rw [hstand, he]; exact hs.1
  · rw [hstand, he]; exact hs.2
  · rw [hbit, if_neg (by decide), if_pos rfl]
  · rw [hbit, if_pos rfl]
  · rw [hstand, osf, og_os_same]; rfl
  · rw [hstand]
    show pls e i.val = _
    rw [he, pls_setPls, if_pos rfl]
  · rw [hstand]
    have hset : ObjsKept s.dev e [okey (0x3D10 + i.val) 3, okey (0x3D10 + i.val) 4] := by
      rw [he]
      exact (ObjsKept.refl _ _).congr rfl
    exact ((hset.os _ _ _ (by simp)).os _ _ _ (by simp)).os _ _ _ (by simp)

theorem signalFault_leaves (hon : pulseOn s.dev i.val = true) (hd : cg s.dev (0x3D00 + i.val) 2 = 0) (hb : bit (og s.dev (0x3D10 + i.val) 4) 8 = false)
    (hcount : og s.dev (0x3D20 + i.val) 8 < 0xFFFFFFFE) : Leaves (.pulseInputSignalFault i) s (fun d => bit (og d (0x3D10 + i.val) 4) 8 = true ∧
            og d (0x3D20 + i.val) 8 = og s.dev (0x3D20 + i.val) 8 + 1 ∧ (∃ r, d.fc.todo = s.dev.fc.todo ++ rep 130 0 i.val 0 :: r) ∧
            ∀ n ∈ fedAxes s.dev i.val, bit (og d (ax n 0x1B) 7) 4 = true) := by
  have hfault : signalFault s.dev i.val =
      later (pulseBit (os s.dev (0x3D20 + i.val) 8 (og s.dev (0x3D20 + i.val) 8 + 1)) i.val 8 true) 130 0 i.val := by
    rw [signalFault, bump_counts hcount]
  obtain ⟨hog, ⟨r, hr⟩, hlost⟩ := fedLoss_spec (signalFault s.dev i.val) i.val
  refine .of_upd (exec_pulseInputSignalFault i s) ?_
  rw [if_pos (by simp [hon, hd, hb])]
  refine ⟨?_, ?_, ⟨r, ?_⟩, ?_⟩
  · rw [hog _ _ (by omega) (by decide), hfault]
    show bit (og (pulseBit _ _ _ _) _ _) 8 = true
    rw [bit_pulseBit, if_pos rfl]
  · rw [hog _ _ (by omega) (by decide), hfault]
    show og (osb _ _ _ _ _) _ _ = _
    rw [osb, og_os, if_neg (by unfold okey; omega), og_os_same]
  · rw [hr, hfault]
    exact List.append_assoc ..
  · have hfed : fedAxes (signalFault s.dev i.val) i.val = fedAxes s.dev i.val := by
      refine fedAxes_congr (fun n o c hc => ?_) ?_
      · rw [hfault]
        show og (osb _ _ _ _ _) _ _ = _
        rw [osb, og_os, if_neg (by unfold okey ax; omega), og_os, if_neg (by unfold okey ax; omega)]
      · rw [hfault]
        exact (boundAxes_os _ _ (by decide) (by omega)).trans (boundAxes_os _ _ (by decide) (by omega))
    rw [← hfed]
    exact hlost

theorem watchLoss_leaves (hon : pulseOn s.dev i.val = true) (hw : f32ToRat (ogf s.dev (0x3D00 + i.val) 0x12) ≠ 0)
    (hb : bit (og s.dev (0x3D10 + i.val) 4) 9 = false) (ht : instants (og s.dev (0x3D00 + i.val) 0x13) ≤ (pls s.dev i.val).watch) :
    Leaves (.pulseInputLoss i) s (fun d =>
            bit (og d (0x3D10 + i.val) 4) 9 = true ∧ (∃ r, d.fc.todo = s.dev.fc.todo ++ rep 131 0 i.val 0 :: r) ∧
            ∀ n ∈ fedAxes s.dev i.val, bit (og d (ax n 0x1B) 7) 4 = true) := by
  obtain ⟨hog, ⟨r, hr⟩, hlost⟩ := fedLoss_spec (watchLoss s.dev i.val) i.val
  refine .of_upd (exec_pulseInputLoss i s) ?_
  rw [if_pos (by simp [hon, hw, hb, ht])]
  refine ⟨?_, ⟨r, ?_⟩, ?_⟩
  · rw [hog _ _ (by omega) (by decide)]
    show bit (og (pulseBit _ _ _ _) _ _) 9 = true
    rw [bit_pulseBit, if_pos rfl]
  · rw [hr]
    exact List.append_assoc ..
  · have hfed : fedAxes (watchLoss s.dev i.val) i.val = fedAxes s.dev i.val := by
      refine fedAxes_congr (fun n o c hc => ?_) (boundAxes_os _ _ (by decide) (by omega))
      show og (osb _ _ _ _ _) _ _ = _
      rw [osb, og_os, if_neg (by unfold okey ax; omega)]
    rw [← hfed]
    exact hlost

theorem signalRestored_does (hs : Settled s) : Does (.pulseInputSignalRestored i) s (fun d => bit (og d (0x3D10 + i.val) 4) 8 = false ∧
        ((∀ j : PIn, j ≠ i → bit (og s.dev (0x3D10 + j.val) 4) 8 = false) → bit d.fc.cond 130 = false) ∧
        ((∃ j : PIn, j ≠ i ∧ bit (og s.dev (0x3D10 + j.val) 4) 8 = true) → d.fc.cond = s.dev.fc.cond) ∧
        ObjsKept s.dev d [okey (0x3D10 + i.val) 4]) := by
  obtain ⟨e, he⟩ : ∃ e, e = pulseBit s.dev i.val 8 false := ⟨_, rfl⟩
  have hbit : bit (og e (0x3D10 + i.val) 4) 8 = false := by rw [he, bit_pulseBit, if_pos rfl]
  have hother (j : Nat) (hj : j ≠ i.val) : og e (0x3D10 + j) 4 = og s.dev (0x3D10 + j) 4 := by
    rw [he, pulseBit, osb, og_os, if_neg (by unfold okey; omega)]
  have hkept : ObjsKept s.dev e [okey (0x3D10 + i.val) 4] := by
    rw [he]
    exact (ObjsKept.refl _ _).os _ _ _ (by simp)
  have hexec := exec_pulseInputSignalRestored i s
  by_cases hany : (List.range 16).any (fun j => bit (og e (0x3D10 + j) 4) 8) = true
  · refine .of_eq (d := e) hexec ?_ (by rw [he]; exact hs.1) (by rw [he]; exact hs.2) ⟨hbit, fun hall => ?_, fun _ => by rw [he]; rfl, hkept⟩
    · rw [← he, if_pos hany]
    · obtain ⟨j, hj, hlow⟩ := List.any_eq_true.mp hany
      rw [List.mem_range] at hj
      by_cases hji : j = i.val
      · rw [hji, hbit] at hlow
        exact absurd hlow (by decide)
      · rw [hother j hji, hall ⟨j, hj⟩ fun h => hji (congrArg Fin.val h)] at hlow
        exact absurd hlow (by decide)
  · obtain ⟨hframe, hcond, -⟩ := deassert_plain (d := e) (src := 130) fun _ => rfl
    have hobjs : (deassert e 130).objs = e.objs := by rw [hframe]
    refine .of_eq (d := deassert e 130) hexec ?_ ?_ ?_ ⟨?_, fun _ => hcond, ?_, ?_⟩
    · rw [← he, if_neg hany]
    · rw [hframe, he]; exact hs.1
    · rw [hframe, he]; exact hs.2
    · rw [og_congr hobjs]; exact hbit
    · rintro ⟨j, hji, hlow⟩
      refine absurd (List.any_eq_true.mpr ⟨j.val, List.mem_range.mpr j.isLt, ?_⟩) hany
      rw [hother j.val fun h => hji (Fin.ext h)]
      exact hlow
    · exact hkept.congr hobjs

theorem pulse_idles (hs : Settled s) (hon : pulseOn s.dev i.val = false) :
    Idles (.standstillTimeout i) s ∧ Idles (.pulseInputSignalFault i) s ∧ Idles (.pulseInputLoss i) s :=
  ⟨.of_upd hs (exec_standstillTimeout i s) (if_neg (by simp [hon])), .of_upd hs (exec_pulseInputSignalFault i s) (if_neg (by simp [hon])),
    .of_upd hs (exec_pulseInputLoss i s) (if_neg (by simp [hon]))⟩
end

/-- Settles O38: a tooth by whether it comes early, first or next; standstill, a low level and a watch time by what they show and report. -/
theorem pulseInputsCountAndShowTheirLosses : Obligations.PulseInputsCountAndShowTheirLosses := by
  unfold Obligations.PulseInputsCountAndShowTheirLosses
  refine ⟨fun i dg width s => ⟨toothEvent_off, ?_⟩, fun i s =>
    ⟨fun hon => ⟨standstill_does hon, signalFault_leaves hon, watchLoss_leaves hon⟩, signalRestored_does, pulse_idles⟩⟩
  rintro t x P hon rfl rfl rfl hw hc ht
  exact ⟨fun l hl => toothEvent_early hon hw hc ht hl, fun hlate => ⟨toothEvent_first hon hw hc ht hlate, toothEvent_next hon hw hc ht hlate⟩⟩

end Sys2Proof.Machine
end

section
/-! ## Mailbox exchanges and the chill -/
namespace Sys2Proof.Machine

theorem ob_obs_same (d : Dev) (i c : Nat) (v : Bytes) : ob (obs d i c v) i c = v := tget_tput_same ..

/-! ### Host requests (R244) -/

theorem agreed_unpaired {d : Dev} (hp : paired d = false) (idx sub : Nat) (val : Bytes) (r : Dev × Status) : agreed d idx sub val r = r := by
  unfold agreed
  rw [hp, if_neg (by simp)]

theorem exec_hostMailboxRequest (g : Seg) (p : Bytes) (s : State) : exec (.hostMailboxRequest g p) s = .next (upd s (fun d =>
    answer (agreed d (sgb g.val + 0x0A) 2 p (hostMailbox d g.val p)).1 (agreed d (sgb g.val + 0x0A) 2 p (hostMailbox d g.val p)).2)) := rfl

/-- The services that a host may ask of a node. -/
def openService (v : Nat) : Bool := v = 0 || v = 1 || v = 5 || v = 6 || 0x80 ≤ v

/-- The request waits for its node. -/
def mailboxAsked (d : Dev) (g : Nat) (p : Bytes) : Dev :=
  setSeg (os (obs d (sgb g + 0x0A) 2 p) (sgb g + 0x0A) 4 1) g { seg d g with hostReq := some (og d (sgb g + 0x0A) 1, p) }

theorem hostMailbox_eq (d : Dev) (g : Nat) (p : Bytes) : hostMailbox d g p =
    if ready d (18 + g) = false then (d, .notReady)
    else if p = [] then (d, .length)
    else if mouldP g (mould d g) < p.length then (d, .range)
    else if openService (rd p 0 1) = false then (d, .reserved)
    else if og d (sgb g + 0x0A) 4 = 1 then (d, .busy) else (mailboxAsked d g p, .ok) := by
  unfold hostMailbox
  simp only [Bool.not_eq_true', List.length_eq_zero_iff]
  rfl

section
variable {sg : Seg} {p : Bytes} {s : State} (hs : Settled s) (hp : paired s.dev = false)
include hs hp

theorem hostMailbox_answers {st : Status} (h : hostMailbox s.dev sg.val p = (s.dev, st)) : Answers (.hostMailboxRequest sg p) s st :=
  .answered hs (exec_hostMailboxRequest sg p s) (by rw [agreed_unpaired hp, h])

theorem hostMailbox_asks (hr : ready s.dev (18 + sg.val) = true) (hne : p ≠ []) (hl : p.length ≤ mouldP sg.val (mould s.dev sg.val))
    (hsvc : openService (rd p 0 1) = true) (hst : og s.dev (sgb sg.val + 0x0A) 4 ≠ 1) : Does (.hostMailboxRequest sg p) s (fun d =>
          ob d (sgb sg.val + 0x0A) 2 = p ∧ og d (sgb sg.val + 0x0A) 4 = 1 ∧ (seg d sg.val).hostReq = some (og s.dev (sgb sg.val + 0x0A) 1, p) ∧
          d.out = s.dev.out ++ [said .ok] ∧ ObjsKept s.dev d [okey (sgb sg.val + 0x0A) 4]) := by
  have heq : hostMailbox s.dev sg.val p = (mailboxAsked s.dev sg.val p, .ok) := by
    rw [hostMailbox_eq, if_neg (by simp [hr]), if_neg hne, if_neg (by omega), if_neg (by simp [hsvc]), if_neg hst]
  refine .answered (e := mailboxAsked s.dev sg.val p) (st := .ok) hs (exec_hostMailboxRequest sg p s) (by rw [agreed_unpaired hp, heq]) rfl rfl
    ⟨?_, ?_, ?_, rfl, ?_⟩
  · show ob (obs s.dev _ _ p) _ _ = p
    exact ob_obs_same ..
  · show og (os _ _ _ _) _ _ = 1
    rw [og_os_same]
  · show (seg (setSeg _ sg.val _) sg.val).hostReq = _
    rw [seg_setSeg, if_pos rfl]
  · have hset : ObjsKept s.dev (obs s.dev (sgb sg.val + 0x0A) 2 p) [okey (sgb sg.val + 0x0A) 4] := (ObjsKept.refl s.dev _).congr rfl
    exact (hset.os (sgb sg.val + 0x0A) 4 1 (by simp)).congr rfl
theorem hostMailbox_refuses (hr : ready s.dev (18 + sg.val) = true) :
    (p = [] → Answers (.hostMailboxRequest sg p) s .length) ∧
    (p ≠ [] → mouldP sg.val (mould s.dev sg.val) < p.length → Answers (.hostMailboxRequest sg p) s .range) ∧
    (p ≠ [] → p.length ≤ mouldP sg.val (mould s.dev sg.val) → 2 ≤ rd p 0 1 → rd p 0 1 < 0x80 → rd p 0 1 ≠ 5 → rd p 0 1 ≠ 6 →
          Answers (.hostMailboxRequest sg p) s .reserved) := by
  refine ⟨fun h => hostMailbox_answers hs hp ?_, fun hne hl => hostMailbox_answers hs hp ?_, fun hne hl h2 h8 h5 h6 => hostMailbox_answers hs hp ?_⟩
  · rw [hostMailbox_eq, if_neg (by simp [hr]), if_pos h]
  · rw [hostMailbox_eq, if_neg (by simp [hr]), if_neg hne, if_pos hl]
  · have hclosed : openService (rd p 0 1) = false := by
      simp only [openService, Bool.or_eq_false_iff, decide_eq_false_iff_not]
      omega
    rw [hostMailbox_eq, if_neg (by simp [hr]), if_neg hne, if_neg (by omega), if_pos hclosed]

theorem hostMailbox_busy (hr : ready s.dev (18 + sg.val) = true) (hne : p ≠ []) (hl : p.length ≤ mouldP sg.val (mould s.dev sg.val))
    (hsvc : openService (rd p 0 1) = true) (hst : og s.dev (sgb sg.val + 0x0A) 4 = 1) : Answers (.hostMailboxRequest sg p) s .busy := by
  refine hostMailbox_answers hs hp ?_
  rw [hostMailbox_eq, if_neg (by simp [hr]), if_neg hne, if_neg (by omega), if_neg (by simp [hsvc]), if_pos hst]

theorem hostMailbox_notReady (hr : ready s.dev (18 + sg.val) = false) : Answers (.hostMailboxRequest sg p) s .notReady :=
  hostMailbox_answers hs hp (by rw [hostMailbox_eq, if_pos hr])
end

/-! ### Replies and timeouts (R241) -/

/-- A segment without the exchanges of node j. -/
def exchangesEnded (d : Dev) (g j : Nat) : Dev := setSeg d g { seg d g with exchanges := (seg d g).exchanges.filter (fun f => f.node != j) }

theorem exec_nodeMailboxTimeout (n : NodeId) (s : State) : exec (.nodeMailboxTimeout n) s = .next (upd s (fun d =>
    match (seg d (nodeSeg n)).exchanges.find? (fun e => e.node = nodeNum n && 16 ≤ e.used) with
    | none => d
    | some e => exchangeFailed (exchangesEnded d (nodeSeg n) e.node) (nodeSeg n) e)) := rfl

/-- What a completed exchange does. -/
def exchangeDone (d : Dev) (n : NodeId) (seq : BitVec 8) (payload : Bytes) (e : Exchange) : Dev :=
  let g := nodeSeg n
  let j := nodeNum n
  let d := exchangesEnded d g j
  let h := hd d g j
  if e.cls = 3 then
    (if rd e.payload 1 1 = 4 then d else relayReply d j (rd e.payload 1 1) (rd payload 1 1) (rd payload 2 4))
  else if e.cls = 5 then setHd d g j { h with alarm := false }
  else if paired d && pairedSeg d g then
    let h := if e.cls = 1 then { h with step := h.step + 16 } else if e.cls = 2 && h.chillSt = 3 then { h with chillSt := 6 } else h
    forwardItem (setHd d g j h) (.mailbox n seq payload)
  else replyEffect d g j e.cls payload

theorem exec_mailboxReply (n : NodeId) (seq : BitVec 8) (payload : Bytes) (s : State) : exec (.mailboxReply n seq payload) s = .next (upd s (fun d =>
    match (seg d (nodeSeg n)).exchanges.find? (fun e => e.node = nodeNum n && 0 < e.used && e.seq = seq.toNat) with
    | none => d
    | some e => exchangeDone d n seq payload e)) := rfl

section
variable {n : NodeId} {q : BitVec 8} {p : Bytes} {e : Exchange} {s : State}

/-- The one exchange that waits has its reply. -/
theorem mailboxReply_done (hx : (seg s.dev (nodeSeg n)).exchanges = [e]) (hn : e.node = nodeNum n) (hu : e.used ≠ 0) (hq : e.seq = q.toNat) :
    exec (.mailboxReply n q p) s = .next (upd s (fun _ => exchangeDone s.dev n q p e)) := by
  refine (exec_mailboxReply n q p s).trans (congrArg (fun d => Host.Outcome.next (upd s (fun _ => d))) ?_)
  rw [hx, List.find?_cons_of_pos (by simp [hn, hq]; omega)]

theorem exchangesEnded_one (hx : (seg s.dev (nodeSeg n)).exchanges = [e]) (hn : e.node = nodeNum n) :
    exchangesEnded s.dev (nodeSeg n) (nodeNum n) = setSeg s.dev (nodeSeg n) { seg s.dev (nodeSeg n) with exchanges := [] } := by
  unfold exchangesEnded
  rw [hx]
  simp [hn]

theorem hostReply_shown (hs : Settled s) (hp : paired s.dev = false) (hx : (seg s.dev (nodeSeg n)).exchanges = [e]) (hn : e.node = nodeNum n)
    (hc : e.cls = 4) (hu : e.used ≠ 0) (hq : e.seq = q.toNat) : Does (.mailboxReply n q p) s (fun d =>
          (seg d (nodeSeg n)).exchanges = [] ∧ ob d (sgb (nodeSeg n) + 0x0A) 3 = p ∧ og d (sgb (nodeSeg n) + 0x0A) 4 = 2 ∧
          ObjsKept s.dev d [okey (sgb (nodeSeg n) + 0x0A) 4]) := by
  have hdone : exchangeDone s.dev n q p e = hostReply (setSeg s.dev (nodeSeg n) { seg s.dev (nodeSeg n) with exchanges := [] }) (nodeSeg n) p := by
    unfold exchangeDone
    dsimp only
    rw [exchangesEnded_one hx hn, if_neg (by omega), if_neg (by omega), if_neg]
    · unfold replyEffect
      rw [if_neg (by omega), if_neg (by omega), if_pos hc]
    · show ¬ (paired s.dev && pairedSeg s.dev _) = true
      rw [hp, Bool.false_and]
      exact Bool.false_ne_true
  refine .of_eq (d := exchangeDone s.dev n q p e) (mailboxReply_done hx hn hu hq) rfl ?_ ?_ ?_
  · rw [hdone]; exact hs.1
  · rw [hdone]; exact hs.2
  · rw [hdone]
    refine ⟨?_, ob_obs_same .., og_os_same .., ?_⟩
    · show (seg (setSeg s.dev (nodeSeg n) _) (nodeSeg n)).exchanges = []
      rw [seg_setSeg, if_pos rfl]
    · exact ObjsKept.os (b := obs (setSeg s.dev (nodeSeg n) _) (sgb (nodeSeg n) + 0x0A) 3 p) ((ObjsKept.refl s.dev _).congr rfl) _ _ _ (by simp)

theorem mailboxReply_idles (hs : Settled s) (h : (seg s.dev (nodeSeg n)).exchanges = [] ∨ (seg s.dev (nodeSeg n)).exchanges = [e] ∧ e.seq ≠ q.toNat) :
    Idles (.mailboxReply n q p) s := by
  refine .of_upd hs (exec_mailboxReply n q p s) ?_
  obtain h | ⟨h, hq⟩ := h
  · rw [h]; rfl
  · rw [h, List.find?_cons_of_neg (by simp [hq])]; rfl

theorem nodeMailboxTimeout_idles (hs : Settled s) (h : (seg s.dev (nodeSeg n)).exchanges = [] ∨ (seg s.dev (nodeSeg n)).exchanges = [e] ∧ e.used < 16) :
    Idles (.nodeMailboxTimeout n) s := by
  refine .of_upd hs (exec_nodeMailboxTimeout n s) ?_
  obtain h | ⟨h, hu⟩ := h
  · rw [h]; rfl
  · rw [h, List.find?_cons_of_neg (by simp; omega)]; rfl

theorem nodeMailboxTimeout_fails (hs : Settled s) (hx : (seg s.dev (nodeSeg n)).exchanges = [e]) (hn : e.node = nodeNum n) (hc : e.cls = 4)
    (hu : 16 ≤ e.used) (hcount : og s.dev (sgb (nodeSeg n) + 0x0A) 5 < 0xFFFFFFFE) : Leaves (.nodeMailboxTimeout n) s (fun d =>
          (seg d (nodeSeg n)).exchanges = [] ∧ og d (sgb (nodeSeg n) + 0x0A) 4 = 3 ∧
          og d (sgb (nodeSeg n) + 0x0A) 5 = og s.dev (sgb (nodeSeg n) + 0x0A) 5 + 1 ∧
          d.fc.todo = [rep (82 + 4 * nodeSeg n) 3 (nodeNum n) 0]) := by
  obtain ⟨f, hf⟩ : ∃ f, f = setSeg s.dev (nodeSeg n) { seg s.dev (nodeSeg n) with exchanges := [] } := ⟨_, rfl⟩
  have hended : exchangesEnded s.dev (nodeSeg n) e.node = f := by rw [hn, exchangesEnded_one hx hn, hf]
  have hog : og f (sgb (nodeSeg n) + 0x0A) 5 = og s.dev (sgb (nodeSeg n) + 0x0A) 5 := by rw [hf]; rfl
  have hfail : exchangeFailed f (nodeSeg n) e =
      os (later (os f (sgb (nodeSeg n) + 0x0A) 5 (og s.dev (sgb (nodeSeg n) + 0x0A) 5 + 1)) (82 + 4 * nodeSeg n) 3 (nodeNum n)) (sgb (nodeSeg n) + 0x0A) 4 3 := by
    unfold exchangeFailed
    dsimp only
    rw [if_neg (by omega), if_neg (by omega), if_neg (by omega), if_pos hc, bump_counts (by rw [hog]; exact hcount), hog, hn]
  refine .of_upd (exec_nodeMailboxTimeout n s) ?_
  rw [hx, List.find?_cons_of_pos (by simp [hn]; omega)]
  dsimp only
  rw [hended, hfail]
  refine ⟨?_, og_os_same .., ?_, ?_⟩
  · rw [hf]
    show (seg (setSeg s.dev (nodeSeg n) _) (nodeSeg n)).exchanges = []
    rw [seg_setSeg, if_pos rfl]
  · rw [og_os, if_neg (by unfold okey; omega)]
    exact og_os_same ..
  · rw [hf]
    show s.dev.fc.todo ++ _ = _
    rw [hs.1]; rfl
end

end Sys2Proof.Machine
end

section
/-! ## The chill -/
namespace Sys2Proof.Machine

/-! ### Statistics counters (R388) -/

/-- Whether a row of the dictionary has the form of a statistics counter. -/
def counterRow (r : Row) : Bool := decide (r.ty = .u32) && decide (r.acc = .rw) && !r.key && !r.pm

/-- Every row of a list that has a counter's form has the default 0. -/
def countersFromZero (l : List Row) : Bool := l.all (fun r => !counterRow r || decide (r.dfl = .num 0))

theorem countersFromZero_ite {c : Prop} [Decidable c] {a b : List Row} (ha : countersFromZero a = true) (hb : countersFromZero b = true) :
    countersFromZero (if c then a else b) = true := by
  split
  · exact ha
  · exact hb

theorem rowsFor_countersFromZero (idx : Nat) : countersFromZero (rowsFor idx) = true := by
  unfold rowsFor
  dsimp only
  repeat' apply countersFromZero_ite
  all_goals decide +kernel

theorem counter_default {idx sub : Nat} (hsub : sub < 256) (h : isCounter idx sub = true) : objDefault (okey idx sub) = 0 := by
  have hi : okey idx sub / 256 = idx := by unfold okey; omega
  have hj : okey idx sub % 256 = sub := by unfold okey; omega
  unfold objDefault
  rw [hi, hj]
  unfold isCounter at h
  cases hrow : findRow idx sub with
  | none => rfl
  | some r =>
    rw [hrow] at h
    have hform : counterRow r = true := by
      simp only [Bool.and_eq_true] at h
      simp only [counterRow, Bool.and_eq_true]
      tauto
    have hz := List.all_eq_true.1 (rowsFor_countersFromZero idx) r (List.mem_of_find?_eq_some hrow)
    rw [hform] at hz
    have hd : r.dfl = .num 0 := by simpa using hz
    simp only [hd]

theorem tget_default {α : Type} {d e : Nat → α} {k : Nat} (h : d k = e k) : ∀ t : Table α, tget d t k = tget e t k
  | [] => h
  | p :: t => by
    unfold tget
    rw [tget_default h t]

/-! ### Cycle points that an occurrence may make due (R249) -/

/-- Two times that differ in the cycle points' counts only. -/
def PointTimes (t u : TimeSt) : Prop := u = { t with ptCount := u.ptCount, ptDue := u.ptDue }

theorem PointTimes.ite {c : Prop} [Decidable c] {t a b : TimeSt} (ha : PointTimes t a) (hb : PointTimes t b) : PointTimes t (if c then a else b) := by
  split
  · exact ha
  · exact hb

/-- From device a to device b only the cycle points' counts change. -/
def PointsOnly (a b : Dev) : Prop := ∃ t, b = { a with time := t } ∧ PointTimes a.time t

theorem PointsOnly.refl (d : Dev) : PointsOnly d d := ⟨d.time, rfl, rfl⟩

theorem PointsOnly.trans {a b c : Dev} (h : PointsOnly a b) (h' : PointsOnly b c) : PointsOnly a c := by
  obtain ⟨t, rfl, ht⟩ := h
  obtain ⟨u, rfl, hu⟩ := h'
  refine ⟨u, rfl, hu.trans ?_⟩
  show ({ t with ptCount := u.ptCount, ptDue := u.ptDue } : TimeSt) = _
  rw [ht]

theorem occur_points (d : Dev) (kind g : Nat) : PointsOnly d (occur d kind g) := by
  unfold occur
  split
  · exact .refl d
  · refine foldl_invariant (I := PointsOnly d) (fun e i he => he.trans ?_) _ d (.refl d)
    dsimp only
    split
    · exact ⟨_, rfl, .ite rfl rfl⟩
    · exact .refl e

/-! ### The request (R246) -/

theorem exec_chillRequest (cyc : BitVec 64) (s : State) :
    exec (.chillRequest cyc) s = .next (upd s (fun d => answer (chillWrite d cyc.toNat).1 (chillWrite d cyc.toNat).2)) := rfl

/-- The cycle that a request names: the next one that is possible for 0. -/
def chillCycle (d : Dev) (c : Nat) : Nat :=
  if c = 0 then (d.time.kc + 1 + chillLead d + chillGrid d - 1) / chillGrid d * chillGrid d else c

theorem chillWrite_eq (d : Dev) (c : Nat) : chillWrite d c =
    if ready d 4 = false then (d, .notReady)
    else if og d 0x3510 2 = 1 ∨ og d 0x3510 2 = 2 then (d, .busy)
    else if chillCycle d c < d.time.kc + 1 + chillLead d ∨ chillCycle d c % chillGrid d ≠ 0 then (d, .range)
    else if paired d = true then (forwardItem (os d 0x3510 2 1) (.chill (BitVec.ofNat 64 (chillCycle d c))), .ok)
    else (chillPend d (chillCycle d c), .ok) := by
  unfold chillWrite
  simp only [Bool.not_eq_true', Bool.or_eq_true, decide_eq_true_eq, bne_iff_ne]
  rfl

theorem lcm_foldl_pos {f : Nat → Nat} (hf : ∀ g, 0 < f g) (l : List Nat) : ∀ m, 0 < m → 0 < l.foldl (fun m g => Nat.lcm m (f g)) m := by
  induction l with
  | nil => exact fun _ h => h
  | cons x l ih => exact fun m hm => ih _ (Nat.lcm_pos hm (hf x))

theorem chillGrid_pos (d : Dev) : 0 < chillGrid d :=
  lcm_foldl_pos (f := fun g => mouldNb (mould d g)) (fun g => by unfold mouldNb; split <;> omega) _ 1 Nat.one_pos

/-- The least multiple of m that is not below e. -/
theorem roundUp_spec (e : Nat) {m : Nat} (hm : 0 < m) : e ≤ (e + m - 1) / m * m ∧ (e + m - 1) / m * m < e + m ∧ (e + m - 1) / m * m % m = 0 := by
  have hdiv := Nat.div_add_mod' (e + m - 1) m
  have hlt := Nat.mod_lt (e + m - 1) hm
  exact ⟨by omega, by omega, Nat.mul_mod_left ..⟩

theorem chillPend_writes (d : Dev) (c : Nat) :
    Writes { d with time := { d.time with chillAt := some c } } (answer (chillPend d c) .ok) [okey 0x3510 1, okey 0x3510 2] [said .ok] := by
  refine ⟨rfl, ?_⟩
  have h : ObjsKept { d with time := { d.time with chillAt := some c } } (chillPend d c) [okey 0x3510 1, okey 0x3510 2] :=
    ((ObjsKept.refl _ _).os 0x3510 1 c (by simp)).os 0x3510 2 1 (by simp)
  exact h

theorem chillPend_shown (d : Dev) (c : Nat) : og (chillPend d c) 0x3510 1 = c ∧ og (chillPend d c) 0x3510 2 = 1 := by
  unfold chillPend
  refine ⟨?_, og_os_same ..⟩
  rw [og_os, if_neg (by decide), og_os_same]

section
variable {cyc : BitVec 64} {s : State} (hs : Settled s)
include hs

theorem chillRequest_answers {st : Status} (h : chillWrite s.dev cyc.toNat = (s.dev, st)) : Answers (.chillRequest cyc) s st :=
  .answered hs (exec_chillRequest cyc s) h

theorem chillRequest_notReady (hr : ready s.dev 4 = false) : Answers (.chillRequest cyc) s .notReady :=
  chillRequest_answers hs (by rw [chillWrite_eq, if_pos hr])

variable (hr : ready s.dev 4 = true)
include hr

theorem chillRequest_busy (hst : og s.dev 0x3510 2 = 1 ∨ og s.dev 0x3510 2 = 2) : Answers (.chillRequest cyc) s .busy :=
  chillRequest_answers hs (by rw [chillWrite_eq, if_neg (by simp [hr]), if_pos hst])

variable (h1 : og s.dev 0x3510 2 ≠ 1) (h2 : og s.dev 0x3510 2 ≠ 2)
include h1 h2

theorem chillRequest_range (hcyc : cyc ≠ 0)
    (hout : cyc.toNat < s.dev.time.kc + 1 + chillLead s.dev ∨ cyc.toNat % chillGrid s.dev ≠ 0) : Answers (.chillRequest cyc) s .range := by
  have hc : chillCycle s.dev cyc.toNat = cyc.toNat := if_neg (fun h => hcyc (BitVec.eq_of_toNat_eq h))
  exact chillRequest_answers hs (by rw [chillWrite_eq, if_neg (by simp [hr]), if_neg (by omega), hc, if_pos hout])

/-- A request for a cycle that is possible is pending. -/
theorem chillRequest_pends (hp : paired s.dev = false) {c : Nat} (hc : chillCycle s.dev cyc.toNat = c)
    (hlead : s.dev.time.kc + 1 + chillLead s.dev ≤ c) (hgrid : c % chillGrid s.dev = 0) :
    Does (.chillRequest cyc) s (fun d => d = answer (chillPend s.dev c) .ok) := by
  have heq : chillWrite s.dev cyc.toNat = (chillPend s.dev c, .ok) := by
    rw [chillWrite_eq, if_neg (by simp [hr]), if_neg (by omega), hc, if_neg (by omega), if_neg (by simp [hp])]
  exact .answered (e := chillPend s.dev c) (st := .ok) hs (exec_chillRequest cyc s) heq rfl rfl rfl

theorem chillRequest_named (hcyc : cyc ≠ 0) (hlead : s.dev.time.kc + 1 + chillLead s.dev ≤ cyc.toNat) (hgrid : cyc.toNat % chillGrid s.dev = 0)
    (hp : paired s.dev = false) :
    Does (.chillRequest cyc) s (fun d => og d 0x3510 1 = cyc.toNat ∧ og d 0x3510 2 = 1 ∧ d.time = { s.dev.time with chillAt := some cyc.toNat } ∧
            Writes { s.dev with time := d.time } d [okey 0x3510 1, okey 0x3510 2] [said .ok]) := by
  have hc : chillCycle s.dev cyc.toNat = cyc.toNat := if_neg (fun h => hcyc (BitVec.eq_of_toNat_eq h))
  obtain ⟨d, hd, rfl⟩ := chillRequest_pends hs hr h1 h2 hp hc hlead hgrid
  exact ⟨_, hd, (chillPend_shown s.dev _).1, (chillPend_shown s.dev _).2, rfl, chillPend_writes s.dev _⟩

theorem chillRequest_first (hcyc : cyc = 0) (hp : paired s.dev = false) : Does (.chillRequest cyc) s (fun d =>
        s.dev.time.kc + 1 + chillLead s.dev ≤ og d 0x3510 1 ∧ og d 0x3510 1 < s.dev.time.kc + 1 + chillLead s.dev + chillGrid s.dev ∧
        og d 0x3510 1 % chillGrid s.dev = 0 ∧ og d 0x3510 2 = 1 ∧ d.time.chillAt = some (og d 0x3510 1)) := by
  have hc : chillCycle s.dev cyc.toNat = _ := if_pos (by rw [hcyc]; rfl)
  obtain ⟨hlo, hhi, hgrid⟩ := roundUp_spec (s.dev.time.kc + 1 + chillLead s.dev) (chillGrid_pos s.dev)
  obtain ⟨d, hd, rfl⟩ := chillRequest_pends hs hr h1 h2 hp hc hlo hgrid
  obtain ⟨hcycle, hstate⟩ := chillPend_shown s.dev ((s.dev.time.kc + 1 + chillLead s.dev + chillGrid s.dev - 1) / chillGrid s.dev * chillGrid s.dev)
  have hshown := og_answer (chillPend s.dev ((s.dev.time.kc + 1 + chillLead s.dev + chillGrid s.dev - 1) / chillGrid s.dev * chillGrid s.dev)) .ok 0x3510 1
  rw [hcycle] at hshown
  exact ⟨_, hd, by rw [hshown]; exact hlo, by rw [hshown]; exact hhi, by rw [hshown]; exact hgrid, hstate, by rw [hshown]; rfl⟩
end

/-! ### The latch (R247) -/

/-- The shadow that a chill takes of every ready block's counters. -/
def chillShadow (i : IslandSt) (d : Dev) : Table Nat :=
  let sh := d.objs.filter (fun p => isCounter (p.1 / 256) (p.1 % 256) && ready d (ownerBit d (p.1 / 256)))
  if ready d 5 then i.counters.foldl (fun t p => tput (fun _ => 0) t (okey 0x3A30 p.1) p.2) sh else sh

/-- Every integrated node's record is to be collected. -/
def recordsAsked (d : Dev) : Dev := d.heads.foldl (fun d p =>
  setHd d (p.1 / 1024) (p.1 % 1024) { p.2 with chillSt := if p.2.state = 3 then 3 else 0, chillCnt := [], chillHeld := 0, chillCyc := 0 }) d

/-- A chill of number q. -/
def chillTaken (i : IslandSt) (d : Dev) (q : Nat) : Dev :=
  occur (recordsAsked (os (os { d with shadow := chillShadow i d } 0x3510 2 2) 0x3510 4 q)) 6 0

theorem exec_chillLatch (s : State) : exec .chillLatch s = .next (upd s (fun d =>
    if og d 0x3510 2 = 1 && d.time.chillAt = some d.time.k then chillTaken s.isl (number d).1 ((number d).2.getD 0) else d)) := rfl

theorem recordsAsked_heads (d : Dev) : ∃ h, recordsAsked d = { d with heads := h } := by
  unfold recordsAsked
  refine foldl_invariant (I := fun e => ∃ h, e = { d with heads := h }) ?_ _ d ⟨_, rfl⟩
  rintro _ p ⟨h, rfl⟩
  exact ⟨_, rfl⟩

theorem chillTaken_frame (i : IslandSt) (d : Dev) (q : Nat) : ∃ h t, chillTaken i d q =
    { os (os { d with shadow := chillShadow i d } 0x3510 2 2) 0x3510 4 q with heads := h, time := t } := by
  unfold chillTaken
  obtain ⟨h, hh⟩ := recordsAsked_heads (os (os { d with shadow := chillShadow i d } 0x3510 2 2) 0x3510 4 q)
  obtain ⟨t, ht, -⟩ := occur_points (recordsAsked (os (os { d with shadow := chillShadow i d } 0x3510 2 2) 0x3510 4 q)) 6 0
  exact ⟨h, t, by rw [ht, hh]⟩

theorem chillShadow_reads {i : IslandSt} {d : Dev} {idx sub : Nat} (hi : ∀ p ∈ i.counters, p.1 < 256) (hsub : sub < 256)
    (hc : isCounter idx sub = true) (hr : ready d (ownerBit d idx) = true) (hisl : ¬ (0x3A00 ≤ idx ∧ idx < 0x3B00)) :
    tget (fun _ => 0) (chillShadow i d) (okey idx sub) = og d idx sub := by
  have hrow : okey idx sub / 256 = idx := by unfold okey; omega
  have hcol : okey idx sub % 256 = sub := by unfold okey; omega
  have hcopied : tget (fun _ => 0) (d.objs.filter (fun p => isCounter (p.1 / 256) (p.1 % 256) && ready d (ownerBit d (p.1 / 256)))) (okey idx sub) =
      og d idx sub := by
    rw [tget_filter (fun _ => 0) (fun k => isCounter (k / 256) (k % 256) && ready d (ownerBit d (k / 256))) (by rw [hrow, hcol, hc, hr]; rfl)]
    exact tget_default (counter_default hsub hc).symm d.objs
  have hother : ∀ (l : List (Nat × Nat)) (t : Table Nat), (∀ p ∈ l, p.1 < 256) →
      tget (fun _ => 0) (l.foldl (fun t p => tput (fun _ => 0) t (okey 0x3A30 p.1) p.2) t) (okey idx sub) = tget (fun _ => 0) t (okey idx sub) := by
    intro l
    induction l with
    | nil => exact fun _ _ => rfl
    | cons p l ih =>
      intro t hl
      have hp : p.1 < 256 := hl p (by simp)
      rw [List.foldl_cons, ih _ (fun q hq => hl q (by simp [hq])), tget_tput, if_neg (by unfold okey; omega)]
  unfold chillShadow
  dsimp only
  split
  · rw [hother _ _ hi, hcopied]
  · exact hcopied

theorem chillLatch_taken {s : State} (hs : Settled s) (h1 : og s.dev 0x3510 2 = 1) (hk : s.dev.time.chillAt = some s.dev.time.k)
    (hr : ready s.dev 2 = true) (hseal : sealed s.dev = false) : Does .chillLatch s (fun d =>
        og d 0x3510 2 = 2 ∧ og d 0x3510 4 = s.dev.fc.nextSeq ∧ d.fc.nextSeq = s.dev.fc.nextSeq + 1 ∧
        ((∀ p ∈ s.isl.counters, p.1 < 256) → ∀ idx sub, sub < 256 → isCounter idx sub = true → ready s.dev (ownerBit s.dev idx) = true →
          ¬ (0x3A00 ≤ idx ∧ idx < 0x3B00) → tget (fun _ => 0) d.shadow (okey idx sub) = og s.dev idx sub) ∧
        ObjsKept s.dev d [okey 0x3510 2, okey 0x3510 4]) := by
  obtain ⟨n, hn⟩ : ∃ n : Dev, n = { s.dev with fc := { s.dev.fc with nextSeq := s.dev.fc.nextSeq + 1 } } := ⟨_, rfl⟩
  have hobjs : n.objs = s.dev.objs := by rw [hn]
  have hseq : n.fc.nextSeq = s.dev.fc.nextSeq + 1 := by rw [hn]
  have hog : ∀ i c, og n i c = og s.dev i c := fun i c => by rw [hn]; rfl
  obtain ⟨h, t, htaken⟩ := chillTaken_frame s.isl n s.dev.fc.nextSeq
  refine .of_eq (d := chillTaken s.isl n s.dev.fc.nextSeq) (exec_chillLatch s) ?_ ?_ ?_ ?_
  · rw [if_pos (by rw [h1, hk]; simp), number_open hr hseal, hn]; rfl
  · rw [htaken, hn]; exact hs.1
  · rw [htaken, hn]; exact hs.2
  · rw [htaken]
    refine ⟨?_, og_os_same .., hseq, fun hi idx sub hsub hc hready hisl => ?_, ?_⟩
    · show og (os (os _ _ _ _) _ _ _) _ _ = 2
      rw [og_os, if_neg (by decide), og_os_same]
    · have hown : ownerBit n idx = ownerBit s.dev idx := by rw [hn]; rfl
      exact (chillShadow_reads hi hsub hc (by unfold ready; rw [hog, hown]; exact hready) hisl).trans (hog idx sub)
    · exact (((ObjsKept.refl s.dev _).congr (c := { n with shadow := chillShadow s.isl n }) hobjs).os 0x3510 2 2 (by simp)).os 0x3510 4 _ (by simp)

theorem chillLatch_idles {s : State} (hs : Settled s) (h1 : og s.dev 0x3510 2 ≠ 1) : Idles .chillLatch s :=
  .of_upd hs (exec_chillLatch s) (if_neg (by simp [h1]))

/-! ### The end of the collection (R248) -/

/-- The number of nodes whose record failed. -/
def recordsMissed (d : Dev) : Nat := (d.heads.filter (fun p => p.2.chillSt = 2 || p.2.chillSt = 5)).length

/-- The collection is over. -/
def collectionEnded (d : Dev) : Dev :=
  os (os { d with time := { d.time with chillAt := none } } 0x3510 3 (recordsMissed d)) 0x3510 2 (if recordsMissed d = 0 then 3 else 4)

theorem exec_chillCollectionEnd (s : State) : exec .chillCollectionEnd s = .next (upd s (fun d =>
    if og d 0x3510 2 = 2 && d.heads.all (fun p => !(3 ≤ p.2.chillSt && p.2.chillSt ≤ 4 || p.2.chillSt = 6)) then occur (collectionEnded d) 7 0 else d)) := rfl

theorem chillCollectionEnd_idles {s : State} (hs : Settled s) (h2 : og s.dev 0x3510 2 ≠ 2) : Idles .chillCollectionEnd s :=
  .of_upd hs (exec_chillCollectionEnd s) (if_neg (by simp [h2]))

theorem collectionEnded_shown (d : Dev) : og (collectionEnded d) 0x3510 3 = recordsMissed d ∧
    og (collectionEnded d) 0x3510 2 = (if recordsMissed d = 0 then 3 else 4) ∧ ObjsKept d (collectionEnded d) [okey 0x3510 2, okey 0x3510 3] := by
  unfold collectionEnded
  refine ⟨?_, og_os_same .., ?_⟩
  · rw [og_os, if_neg (by decide), og_os_same]
  · exact (((ObjsKept.refl d _).congr (c := { d with time := { d.time with chillAt := none } }) rfl).os 0x3510 3 _ (by simp)).os 0x3510 2 _ (by simp)

theorem chillCollectionEnd_ends {s : State} (hs : Settled s) (h2 : og s.dev 0x3510 2 = 2)
    (hh : ∀ p ∈ s.dev.heads, p.2.chillSt = 0 ∨ p.2.chillSt = 1 ∨ p.2.chillSt = 2 ∨ p.2.chillSt = 5) : Does .chillCollectionEnd s (fun d =>
        (∀ m, m = (s.dev.heads.filter (fun p => p.2.chillSt = 2 || p.2.chillSt = 5)).length →
          og d 0x3510 3 = m ∧ og d 0x3510 2 = if m = 0 then 3 else 4) ∧ d.time.chillAt = none ∧
        ObjsKept s.dev d [okey 0x3510 2, okey 0x3510 3]) := by
  have hnone : s.dev.heads.all (fun p => !(3 ≤ p.2.chillSt && p.2.chillSt ≤ 4 || p.2.chillSt = 6)) = true := by
    refine List.all_eq_true.2 fun p hp => ?_
    obtain h | h | h | h := hh p hp <;> rw [h] <;> decide
  obtain ⟨hmiss, hstate, hkept⟩ := collectionEnded_shown s.dev
  obtain ⟨t, ht, hpoints⟩ := occur_points (collectionEnded s.dev) 7 0
  refine .of_eq (d := occur (collectionEnded s.dev) 7 0) (exec_chillCollectionEnd s) (if_pos (by rw [h2, hnone]; rfl)) ?_ ?_ ?_
  · rw [ht]; exact hs.1
  · rw [ht]; exact hs.2
  · rw [ht]
    exact ⟨fun m hm => hm ▸ ⟨hmiss, hstate⟩, congrArg (·.chillAt) hpoints, hkept⟩

/-- Settles O42: an exchange changes the host mailbox as its one waiting request says, and a chill passes from pending to collecting to its end,
its shadow being the counters at its cycle. -/
theorem mailboxesAreExchangedAndChilled : Obligations.MailboxesAreExchangedAndChilled := by
  unfold Obligations.MailboxesAreExchangedAndChilled
  refine ⟨fun sg nd q p e s hs hp => ⟨fun hr hne hl hsvc => ?_, fun hr => hostMailbox_refuses hs hp hr, fun hr => hostMailbox_notReady hs hp hr,
    fun hx hn hc => ⟨fun hu hq => hostReply_shown hs hp hx hn hc hu hq, fun hq => mailboxReply_idles hs (.inr ⟨hx, hq⟩),
      fun hu hcount => nodeMailboxTimeout_fails hs hx hn hc hu hcount, fun hu => nodeMailboxTimeout_idles hs (.inr ⟨hx, hu⟩)⟩,
    fun hx => ⟨mailboxReply_idles (e := e) hs (.inl hx), nodeMailboxTimeout_idles (e := e) hs (.inl hx)⟩⟩,
    fun cyc s hs => ⟨fun hr => chillRequest_notReady hs hr, fun hr hst => chillRequest_busy hs hr hst, fun hr h1 h2 hcyc =>
      ⟨fun hout => chillRequest_range hs hr h1 h2 hcyc hout, fun hlead hgrid hp => chillRequest_named hs hr h1 h2 hcyc hlead hgrid hp⟩,
      fun hr h1 h2 hcyc hp => chillRequest_first hs hr h1 h2 hcyc hp, fun h1 hk hr hseal => chillLatch_taken hs h1 hk hr hseal,
      fun h1 => chillLatch_idles hs h1, fun h2 hh => chillCollectionEnd_ends hs h2 hh, fun h2 => chillCollectionEnd_idles hs h2⟩⟩
  have hopen : openService (rd p 0 1) = true := by
    simp only [openService, Bool.or_eq_true, decide_eq_true_eq]
    omega
  exact ⟨fun hst => hostMailbox_asks hs hp hr hne hl hopen hst, fun hst => hostMailbox_busy hs hp hr hne hl hopen hst⟩

end Sys2Proof.Machine
end

section
/-! ## Roll calls, identity replies, absent and excluded nodes -/
namespace Sys2Proof.Machine

/-! ### What a new state of a node changes (R228) -/

/-- From device a to device b only objects, the head's records of nodes, the relay, free values and what was logged change. -/
structure NodeNoted (a b : Dev) : Prop where
  frame : b = { a with objs := b.objs, heads := b.heads, host := b.host, acq := b.acq, fc := b.fc, mgmt := b.mgmt, free := b.free }

namespace NodeNoted
theorem refl (a : Dev) : NodeNoted a a := ⟨rfl⟩

theorem trans {a b c : Dev} (h : NodeNoted a b) (h' : NodeNoted b c) : NodeNoted a c :=
  ⟨by rw [h'.frame, h.frame]⟩

theorem of_noted {a b : Dev} {l : List Nat} (h : Noted a b l) : NodeNoted a b := ⟨by rw [h.frame]⟩

theorem segs {a b : Dev} (h : NodeNoted a b) : b.segs = a.segs := by rw [h.frame]
theorem out {a b : Dev} (h : NodeNoted a b) : b.out = a.out := by rw [h.frame]
theorem blobs {a b : Dev} (h : NodeNoted a b) : b.blobs = a.blobs := by rw [h.frame]
theorem time {a b : Dev} (h : NodeNoted a b) : b.time = a.time := by rw [h.frame]
theorem seg {a b : Dev} (h : NodeNoted a b) (g : Nat) : Machine.seg b g = Machine.seg a g := by unfold Machine.seg; rw [h.segs]
end NodeNoted

/-- The objects that the end of a node's relay writes. -/
def relayKeys : List Nat := [okey 0x2E60 5, okey 0x2E60 6, okey 0x2E60 7, okey 0x2E60 8] ++ dropKeys

theorem relayCounts_kept (d : Dev) (x y z : Nat) : ObjsKept d (relayCounts d x y z) relayKeys :=
  (((ObjsKept.refl d _).os 0x2E60 6 _ (by decide)).os 0x2E60 7 _ (by decide)).os 0x2E60 8 _ (by decide)

/-- A node is no longer served by the relay. -/
def relayLeft (d : Dev) (j : Nat) (ok : Bool) : Dev :=
  { d with mgmt := { d.mgmt with relayList := d.mgmt.relayList.filter (fun p => p.1 != j),
                                 relayDone := if ok then d.mgmt.relayDone ++ [j] else d.mgmt.relayDone }, free := d.free + 1 }

theorem relayNodeEnd_noted (d : Dev) (j : Nat) (ok : Bool) :
    NodeNoted d (relayNodeEnd d j ok) ∧ ObjsKept d (relayNodeEnd d j ok) relayKeys ∧ (relayNodeEnd d j ok).heads = d.heads := by
  obtain ⟨v, hv⟩ : ∃ v, v = j % 1024 + d.mgmt.relaySeg * 65536 + (freeVal d 8).1 * 2 ^ 24 := ⟨_, rfl⟩
  have hlog : Noted (relayLeft d j ok) (log (relayLeft d j ok) 1 9 v) dropKeys := log_noted _ _ _ _
  obtain ⟨e, he⟩ : ∃ e, e = log (relayLeft d j ok) 1 9 v := ⟨_, rfl⟩
  rw [← he] at hlog
  have hfirst : NodeNoted d e ∧ ObjsKept d e relayKeys ∧ e.heads = d.heads :=
    ⟨(NodeNoted.mk (a := d) (b := relayLeft d j ok) rfl).trans (.of_noted hlog), (((ObjsKept.refl d _).congr rfl).trans hlog.kept).mono (by decide),
      by rw [hlog.frame]; rfl⟩
  obtain ⟨hn, hk, hh⟩ := hfirst
  have hend : relayNodeEnd d j ok =
      let failed := og e 0x2E60 7 + b2n (!ok)
      let r := relayCounts e e.mgmt.relayDone.length failed e.mgmt.relayList.length
      if r.mgmt.relayList.isEmpty then os r 0x2E60 5 (if failed = 0 then 2 else 3) else r := by
    rw [he, hv]; rfl
  rw [hend]
  have hr := relayCounts_kept e e.mgmt.relayDone.length (og e 0x2E60 7 + b2n (!ok)) e.mgmt.relayList.length
  dsimp only
  split
  · exact ⟨hn.trans ⟨rfl⟩, (hk.trans hr).os 0x2E60 5 _ (by decide), hh⟩
  · exact ⟨hn.trans ⟨rfl⟩, hk.trans hr, hh⟩

/-- The objects that a new state of a node of segment g writes beside the node's own. -/
def nodeKeys (g : Nat) : List Nat := okey (sgb g) 7 :: okey (sgb g) 0x0A :: relayKeys

/-- A node's record with another state, integrated anew for state 3. -/
def nodeShown (h : HeadNode) (st : Nat) : HeadNode :=
  if st = 3 then { h with state := 3, step := 0, addressed := false, missing := 0, dev := 0, needAbs := true, synced := false,
                          approx := false, resync := none, asked := none, flags := 0 }
  else { h with state := st }

/-- The node's record and the objects that show its state. -/
def nodePut (d : Dev) (g j st : Nat) : Dev :=
  let d := setHd d g j (nodeShown (hd d g j) st)
  let d := os d (sgb g) 7 ((headsOf d g).filter (fun p => p.2.state = 3)).length
  if g < 8 then d else os d (fnx (g - 8) j 0) 1 st

theorem nodeStateNow_eq (d : Dev) (g j st : Nat) : nodeStateNow d g j st =
    if (hd d g j).state = st then d
    else
      let e := if st = 3 && segState d g = 3 then bump (nodePut d g j st) (sgb g) 0x0A else nodePut d g j st
      if st != 3 && relaying e g j then relayNodeEnd e j false else e := by
  unfold nodeStateNow nodePut nodeShown
  by_cases h3 : st = 3
  · subst h3; rfl
  · simp only [if_neg h3]

theorem nodePut_noted (d : Dev) (g j st : Nat) :
    NodeNoted d (nodePut d g j st) ∧ ObjsKept d (nodePut d g j st) (okey (fnx (g - 8) j 0) 1 :: nodeKeys g) ∧
    (nodePut d g j st).heads = (setHd d g j (nodeShown (hd d g j) st)).heads := by
  have hshown : ObjsKept d (os (setHd d g j (nodeShown (hd d g j) st)) (sgb g) 7
      ((headsOf (setHd d g j (nodeShown (hd d g j) st)) g).filter (fun p => p.2.state = 3)).length) (okey (fnx (g - 8) j 0) 1 :: nodeKeys g) :=
    (((ObjsKept.refl d _).congr (c := setHd d g j (nodeShown (hd d g j) st)) rfl).os (sgb g) 7 _ (by simp [nodeKeys]))
  unfold nodePut
  dsimp only
  split
  · exact ⟨⟨rfl⟩, hshown, rfl⟩
  · exact ⟨⟨rfl⟩, hshown.os _ _ _ (by simp), rfl⟩

theorem nodeStateNow_noted (d : Dev) (g j st : Nat) :
    NodeNoted d (nodeStateNow d g j st) ∧ ObjsKept d (nodeStateNow d g j st) (okey (fnx (g - 8) j 0) 1 :: nodeKeys g) ∧
    (nodeStateNow d g j st).heads = if (hd d g j).state = st then d.heads else (setHd d g j (nodeShown (hd d g j) st)).heads := by
  rw [nodeStateNow_eq]
  split
  · exact ⟨.refl d, .refl d _, rfl⟩
  obtain ⟨hn, hk, hh⟩ := nodePut_noted d g j st
  obtain ⟨e, he⟩ : ∃ e, e = if st = 3 && segState d g = 3 then bump (nodePut d g j st) (sgb g) 0x0A else nodePut d g j st := ⟨_, rfl⟩
  have hput : NodeNoted d e ∧ ObjsKept d e (okey (fnx (g - 8) j 0) 1 :: nodeKeys g) ∧ e.heads = (setHd d g j (nodeShown (hd d g j) st)).heads := by
    rw [he]
    split
    · have hb := bump_noted (nodePut d g j st) (sgb g) 0x0A
      exact ⟨hn.trans (.of_noted hb), hk.trans (hb.kept.mono (by simp [nodeKeys])), by rw [hb.frame]; exact hh⟩
    · exact ⟨hn, hk, hh⟩
  rw [← he]
  obtain ⟨hn, hk, hh⟩ := hput
  dsimp only
  split
  · obtain ⟨hn', hk', hh'⟩ := relayNodeEnd_noted e j false
    exact ⟨hn.trans hn', hk.trans (hk'.mono (fun k hk => by simp [nodeKeys, hk])), hh'.trans hh⟩
  · exact ⟨hn, hk, hh⟩

theorem nodeShown_same (h : HeadNode) {st : Nat} (h3 : st ≠ 3) (hst : h.state = st) : nodeShown h st = h := by
  rw [nodeShown, if_neg h3, ← hst]

theorem nkey_eq {g i j : Nat} : nkey g i = nkey g j ↔ i = j := by unfold nkey; omega

/-- The record of a node and the others' after a new state other than Integrated. -/
theorem hd_nodeStateNow (d : Dev) (g j i : Nat) {st : Nat} (h3 : st ≠ 3) :
    hd (nodeStateNow d g j st) g i = if i = j then { hd d g j with state := st } else hd d g i := by
  have hput : hd (setHd d g j (nodeShown (hd d g j) st)) g i = if i = j then { hd d g j with state := st } else hd d g i := by
    simp only [hd_setHd, nkey_eq, nodeShown, if_neg h3]
  obtain ⟨-, -, hh⟩ := nodeStateNow_noted d g j st
  unfold hd at hput ⊢
  rw [hh]
  split
  · next hst =>
    by_cases hij : i = j
    · subst hij
      rw [if_pos rfl]
      show hd d g i = { hd d g i with state := st }
      rw [← hst]
    · rw [if_neg hij]
  · exact hput

theorem nodeStateSet_now {d : Dev} {g : Nat} (hp : pairedSeg d g = false) (j st : Nat) : nodeStateSet d g j st = nodeStateNow d g j st := by
  unfold nodeStateSet
  rw [hp, Bool.and_false, if_neg Bool.false_ne_true]

theorem originates_unpaired {d : Dev} {g : Nat} (hp : pairedSeg d g = false) : originates d g = true := by
  unfold originates
  rw [hp]; rfl

/-! ### Absent and excluded nodes (R221, R530) -/

theorem exec_nodeAbsent (n : NodeId) (s : State) : exec (.nodeAbsent n) s = .next (upd s (fun d =>
    if (hd d (nodeSeg n) (nodeNum n)).state = 3 && (if nodeSeg n < 8 then 32 else 8) ≤ (hd d (nodeSeg n) (nodeNum n)).missing && originates d (nodeSeg n) then
      nodeStateSet (setHd d (nodeSeg n) (nodeNum n) { hd d (nodeSeg n) (nodeNum n) with step := 0, addressed := false }) (nodeSeg n) (nodeNum n) 0
    else d)) := rfl

theorem nodeAbsent_leaves {n : NodeId} {s : State} (hp : pairedSeg s.dev (nodeSeg n) = false) (h3 : (hd s.dev (nodeSeg n) (nodeNum n)).state = 3)
    (hm : (if nodeSeg n < 8 then 32 else 8) ≤ (hd s.dev (nodeSeg n) (nodeNum n)).missing) : Leaves (.nodeAbsent n) s (fun d =>
      (hd d (nodeSeg n) (nodeNum n)).state = 0 ∧ (hd d (nodeSeg n) (nodeNum n)).step = 0 ∧ d.out = s.dev.out ∧
      ∀ i, i ≠ nodeNum n → hd d (nodeSeg n) i = hd s.dev (nodeSeg n) i) := by
  refine .of_upd (exec_nodeAbsent n s) ?_
  rw [if_pos (by simp [h3, hm, originates_unpaired hp]), nodeStateSet_now (by exact hp)]
  refine ⟨?_, ?_, (nodeStateNow_noted _ _ _ _).1.out, fun i hi => ?_⟩
  · rw [hd_nodeStateNow _ _ _ _ (by decide), if_pos rfl]
  · rw [hd_nodeStateNow _ _ _ _ (by decide), if_pos rfl, hd_setHd, if_pos rfl]
  · rw [hd_nodeStateNow _ _ _ _ (by decide), if_neg hi, hd_setHd, if_neg (mt nkey_eq.1 hi)]

theorem nodeAbsent_idles {n : NodeId} {s : State} (hs : Settled s)
    (h : (hd s.dev (nodeSeg n) (nodeNum n)).state ≠ 3 ∨ (hd s.dev (nodeSeg n) (nodeNum n)).missing < 8) : Idles (.nodeAbsent n) s := by
  refine .of_upd hs (exec_nodeAbsent n s) (if_neg ?_)
  simp only [Bool.and_eq_true, decide_eq_true_eq]
  split <;> omega

/-- A node whose slots stayed out of their window, as the head leaves it. -/
def outOfWindow (d : Dev) (g j : Nat) : Dev :=
  setHd (setSeg d g { seg d g with corrections := (seg d g).corrections ++ [(j, 2, 0)] }) g j
    { hd d g j with dev := 0, exclAt := segCycle (setSeg d g { seg d g with corrections := (seg d g).corrections ++ [(j, 2, 0)] }) g,
                    step := 0, addressed := false }

theorem exec_nodeExcluded (l : Line) (k : FNode) (s : State) : exec (.nodeExcluded l k) s = .next (upd s (fun d =>
    if (hd d (lseg l.val) k.val).state = 3 && 8 ≤ (hd d (lseg l.val) k.val).dev then
      later (bump (nodeStateSet (outOfWindow d (lseg l.val) k.val) (lseg l.val) k.val 5) (fnx l.val k.val 3) 5) (82 + 4 * lseg l.val) 4 k.val
    else d)) := rfl

/-- The counter of a field node's slots is none of the objects that show its state. -/
theorem slotCount_apart {l k : Nat} (hl : l < 4) : okey (fnx l k 3) 5 ∉ okey (fnx (lseg l - 8) k 0) 1 :: nodeKeys (lseg l) := by
  have hb : sgb (lseg l) < 0x3300 := by unfold sgb lseg; split <;> omega
  have hl : lseg l - 8 = l := by unfold lseg; omega
  rw [hl]
  simp only [nodeKeys, relayKeys, dropKeys, okey, fnx, List.mem_cons, List.mem_append, List.not_mem_nil, not_or, not_false_eq_true, and_true]
  omega

theorem nodeExcluded_leaves {l : Line} {k : FNode} {s : State} (hp : pairedSeg s.dev (lseg l.val) = false) (h3 : (hd s.dev (lseg l.val) k.val).state = 3)
    (h8 : 8 ≤ (hd s.dev (lseg l.val) k.val).dev) (hc : og s.dev (fnx l.val k.val 3) 5 < 0xFFFFFFFE) : Leaves (.nodeExcluded l k) s (fun d =>
      (hd d (lseg l.val) k.val).state = 5 ∧ (hd d (lseg l.val) k.val).dev = 0 ∧
      (seg d (lseg l.val)).corrections = (seg s.dev (lseg l.val)).corrections ++ [(k.val, 2, 0)] ∧
      og d (fnx l.val k.val 3) 5 = og s.dev (fnx l.val k.val 3) 5 + 1 ∧ rep (82 + 4 * lseg l.val) 4 k.val 0 ∈ d.fc.todo) := by
  obtain ⟨hn, hkept, -⟩ := nodeStateNow_noted (outOfWindow s.dev (lseg l.val) k.val) (lseg l.val) k.val 5
  have hcount : og (nodeStateNow (outOfWindow s.dev (lseg l.val) k.val) (lseg l.val) k.val 5) (fnx l.val k.val 3) 5 = og s.dev (fnx l.val k.val 3) 5 :=
    hkept.og (slotCount_apart l.isLt)
  have hshown : hd (nodeStateNow (outOfWindow s.dev (lseg l.val) k.val) (lseg l.val) k.val 5) (lseg l.val) k.val =
      { hd (outOfWindow s.dev (lseg l.val) k.val) (lseg l.val) k.val with state := 5 } := by rw [hd_nodeStateNow _ _ _ _ (by decide), if_pos rfl]
  have hseg := hn.seg (lseg l.val)
  refine .of_upd (exec_nodeExcluded l k s) ?_
  rw [if_pos (by simp [h3, h8]), nodeStateSet_now (by exact hp)]
  generalize nodeStateNow (outOfWindow s.dev (lseg l.val) k.val) (lseg l.val) k.val 5 = e at hcount hshown hseg
  rw [bump_counts (by rw [hcount]; exact hc), hcount]
  refine ⟨?_, ?_, ?_, og_os_same .., by simp [later, rep]⟩
  · show (hd e _ _).state = 5
    rw [hshown]
  · show (hd e _ _).dev = 0
    rw [hshown, outOfWindow, hd_setHd, if_pos rfl]
  · show (seg e _).corrections = _
    rw [hseg]
    show (seg (setSeg s.dev _ _) _).corrections = _
    rw [seg_setSeg, if_pos rfl]

end Sys2Proof.Machine
end

section
/-! ## Identity replies and the roll call -/
namespace Sys2Proof.Machine

/-! ### An identity reply (R239) -/

/-- Every object below the field nodes' and not listed reads as before. -/
def BelowNodesKept (a b : Dev) (l : List Nat) : Prop := ∀ k, k < 0x400000 → k ∉ l → tget objDefault b.objs k = tget objDefault a.objs k

namespace BelowNodesKept
theorem refl (a : Dev) (l : List Nat) : BelowNodesKept a a l := fun _ _ _ => rfl

theorem trans {a b c : Dev} {l : List Nat} (h : BelowNodesKept a b l) (h' : BelowNodesKept b c l) : BelowNodesKept a c l :=
  fun k hk hl => (h' k hk hl).trans (h k hk hl)

theorem og {a b : Dev} {l : List Nat} (h : BelowNodesKept a b l) {i c : Nat} (hk : okey i c < 0x400000) (hl : okey i c ∉ l) :
    Machine.og b i c = Machine.og a i c := h _ hk hl

theorem os {a b : Dev} {l : List Nat} (h : BelowNodesKept a b l) (i c v : Nat) (hi : 0x4000 ≤ i) : BelowNodesKept a (Machine.os b i c v) l := by
  intro k hk hl
  refine (os_other _ _ _ _ _ ?_).trans (h k hk hl)
  unfold okey; omega
end BelowNodesKept

theorem fnx_high (l k o : Nat) : 0x4000 ≤ fnx l k o := by unfold fnx; omega

theorem nodeStateNow_below (d : Dev) (g j st : Nat) : BelowNodesKept d (nodeStateNow d g j st) (nodeKeys g) := by
  intro k hk hl
  refine (nodeStateNow_noted d g j st).2.1 k ?_
  have hfield := fnx_high (g - 8) j 0
  rw [List.mem_cons, not_or]
  exact ⟨by unfold okey; omega, hl⟩

theorem nodeKeys_apart {g c : Nat} : okey 0x3C00 c ∉ nodeKeys g ∨ 12 ≤ g ∨ 256 ≤ c := by
  by_cases h : g < 12 ∧ c < 256
  · left
    have hb : sgb g < 0x3300 := by unfold sgb; split <;> omega
    simp only [nodeKeys, relayKeys, dropKeys, okey, List.mem_cons, List.mem_append, List.not_mem_nil, not_or, not_false_eq_true, and_true]
    omega
  · right; omega

theorem pairedSeg_below {a b : Dev} {g : Nat} (hg : g < 12) (h : BelowNodesKept a b (nodeKeys g)) : pairedSeg b g = pairedSeg a g := by
  unfold pairedSeg
  rw [h.og (by decide) (nodeKeys_apart.resolve_right (by omega))]

theorem nodeSeg_lt (n : NodeId) : nodeSeg n < 12 := by
  cases n with
  | ring r j => exact Nat.lt_of_lt_of_le r.isLt (by decide)
  | line l k => exact Nat.add_lt_add_left l.isLt 8

theorem noteIdentity_spec (d : Dev) (g j : Nat) (p : Bytes) (l : List Nat) :
    (∃ o, noteIdentity d g j p = { setHd d g j { hd d g j with ntype := rd p 6 2, latency := rd p 8 2 } with objs := o }) ∧
    BelowNodesKept d (noteIdentity d g j p) l := by
  have hshown : BelowNodesKept d (setHd d g j { hd d g j with ntype := rd p 6 2, latency := rd p 8 2 }) l := .refl d l
  unfold noteIdentity
  dsimp only
  split
  · exact ⟨⟨_, rfl⟩, hshown⟩
  · have hf := fnx_high (g - 8) j 0
    exact ⟨⟨_, rfl⟩, (((((hshown.os _ _ _ hf).os _ _ _ hf).os _ _ _ hf).os _ _ _ hf).os _ _ _ hf).os _ _ _ hf⟩

/-- A good identity reply to a node that was asked for it. -/
theorem integrationReply_identity {d : Dev} {g j : Nat} {p : Bytes} (ha : (hd (noteIdentity d g j p) g j).addressed = true)
    (h1 : (hd d g j).step = 1) (hlen : 2 ≤ p.length) (hsvc : rd p 0 1 = 1) (hst : rd p 1 1 = 0) :
    integrationReply d g j p =
      if identityOk (mould d g) g j p then
        nodeStateSet (setHd (noteIdentity d g j p) g j { hd (noteIdentity d g j p) g j with step := 2 }) g j 2
      else later (nodeStateSet (setHd (noteIdentity d g j p) g j { hd (noteIdentity d g j p) g j with step := 0, addressed := false }) g j 4)
        (82 + 4 * g) 2 j := by
  unfold integrationReply
  dsimp only
  have hnoted : (if (decide (rd p 0 1 = 1) && (decide (rd p 1 1 = 0) && decide (2 ≤ p.length))) = true then noteIdentity d g j p else d) =
      noteIdentity d g j p := if_pos (by simp [hsvc, hst, hlen])
  rw [hnoted]
  generalize noteIdentity d g j p = e at ha
  rw [if_neg (by simp [ha]), if_pos (by simp [h1, hsvc, hst, hlen])]

section
variable {n : NodeId} {q : BitVec 8} {p : Bytes} {e : Exchange} {s : State} (hx : (seg s.dev (nodeSeg n)).exchanges = [e]) (hn : e.node = nodeNum n)
  (hp : paired s.dev = false) (hc : e.cls = 1)
include hx hn hp hc

/-- A reply that an integration waits for, on a segment that is not paired. -/
theorem exchangeDone_integration : exchangeDone s.dev n q p e =
    integrationReply (setSeg s.dev (nodeSeg n) { seg s.dev (nodeSeg n) with exchanges := [] }) (nodeSeg n) (nodeNum n) p := by
  unfold exchangeDone
  dsimp only
  rw [exchangesEnded_one hx hn, if_neg (by omega), if_neg (by omega), if_neg, replyEffect, if_pos hc]
  show ¬ (paired s.dev && pairedSeg s.dev _) = true
  rw [hp, Bool.false_and]
  exact Bool.false_ne_true

variable (hps : pairedSeg s.dev (nodeSeg n) = false) (hu : e.used ≠ 0) (hq : e.seq = q.toNat)
  (ha : (hd s.dev (nodeSeg n) (nodeNum n)).addressed = true) (h1 : (hd s.dev (nodeSeg n) (nodeNum n)).step = 1)
  (hlen : 2 ≤ p.length) (hsvc : rd p 0 1 = 1) (hst : rd p 1 1 = 0)
include hps hu hq ha h1 hlen hsvc hst

/-- The device with the node's identity noted and the exchange over, and what the integration makes of it. -/
theorem identity_replied : ∃ d, (seg d (nodeSeg n)).exchanges = [] ∧ pairedSeg d (nodeSeg n) = false ∧
    hd d (nodeSeg n) (nodeNum n) = { hd s.dev (nodeSeg n) (nodeNum n) with ntype := rd p 6 2, latency := rd p 8 2 } ∧
    exec (.mailboxReply n q p) s = .next (upd s (fun _ =>
      if identityOk (mould s.dev (nodeSeg n)) (nodeSeg n) (nodeNum n) p then
        nodeStateSet (setHd d (nodeSeg n) (nodeNum n) { hd d (nodeSeg n) (nodeNum n) with step := 2 }) (nodeSeg n) (nodeNum n) 2
      else later (nodeStateSet (setHd d (nodeSeg n) (nodeNum n) { hd d (nodeSeg n) (nodeNum n) with step := 0, addressed := false })
        (nodeSeg n) (nodeNum n) 4) (82 + 4 * nodeSeg n) 2 (nodeNum n))) := by
  obtain ⟨f, hf⟩ : ∃ f, f = setSeg s.dev (nodeSeg n) { seg s.dev (nodeSeg n) with exchanges := [] } := ⟨_, rfl⟩
  have hseg : seg f (nodeSeg n) = { seg s.dev (nodeSeg n) with exchanges := [] } := by rw [hf, seg_setSeg, if_pos rfl]
  have hmould : mould f (nodeSeg n) = mould s.dev (nodeSeg n) := by unfold mould; rw [hseg, hf]; rfl
  have hhd : hd f (nodeSeg n) (nodeNum n) = hd s.dev (nodeSeg n) (nodeNum n) := by rw [hf]; rfl
  have hpf : pairedSeg f (nodeSeg n) = false := by rw [hf]; exact hps
  obtain ⟨d, hd'⟩ : ∃ d, d = noteIdentity f (nodeSeg n) (nodeNum n) p := ⟨_, rfl⟩
  obtain ⟨⟨o, ho⟩, hlow⟩ := noteIdentity_spec f (nodeSeg n) (nodeNum n) p (nodeKeys (nodeSeg n))
  rw [← hd'] at ho hlow
  have hnode : hd d (nodeSeg n) (nodeNum n) = { hd s.dev (nodeSeg n) (nodeNum n) with ntype := rd p 6 2, latency := rd p 8 2 } := by
    rw [ho]
    show hd (setHd f _ _ _) _ _ = _
    rw [hd_setHd, if_pos rfl, hhd]
  refine ⟨d, ?_, (pairedSeg_below (nodeSeg_lt n) hlow).trans hpf, hnode, ?_⟩
  · rw [ho]
    show (seg f _).exchanges = []
    rw [hseg]
  · rw [mailboxReply_done hx hn hu hq, exchangeDone_integration hx hn hp hc, ← hf]
    rw [integrationReply_identity (by rw [← hd', hnode]; exact ha) (by rw [hhd]; exact h1) hlen hsvc hst, ← hd', hmould]

theorem identity_agrees (hok : identityOk (mould s.dev (nodeSeg n)) (nodeSeg n) (nodeNum n) p = true) : Leaves (.mailboxReply n q p) s (fun d =>
        (seg d (nodeSeg n)).exchanges = [] ∧ (hd d (nodeSeg n) (nodeNum n)).state = 2 ∧ (hd d (nodeSeg n) (nodeNum n)).step = 2 ∧
        (hd d (nodeSeg n) (nodeNum n)).ntype = rd p 6 2 ∧ (hd d (nodeSeg n) (nodeNum n)).latency = rd p 8 2) := by
  obtain ⟨d, hended, hpd, hnode, hexec⟩ := identity_replied hx hn hp hc hps hu hq ha h1 hlen hsvc hst
  refine .of_upd hexec ?_
  obtain ⟨f, hf⟩ : ∃ f, f = setHd d (nodeSeg n) (nodeNum n) { hd d (nodeSeg n) (nodeNum n) with step := 2 } := ⟨_, rfl⟩
  have hpf : pairedSeg f (nodeSeg n) = false := by rw [hf]; exact hpd
  have hsame : seg f (nodeSeg n) = seg d (nodeSeg n) := by rw [hf]; rfl
  have hset : hd f (nodeSeg n) (nodeNum n) = { hd d (nodeSeg n) (nodeNum n) with step := 2 } := by rw [hf, hd_setHd, if_pos rfl]
  rw [if_pos hok, ← hf, nodeStateSet_now hpf, (nodeStateNow_noted ..).1.seg, hd_nodeStateNow _ _ _ _ (by decide), if_pos rfl, hsame, hset, hnode]
  exact ⟨hended, rfl, rfl, rfl, rfl⟩

theorem identity_differs (hok : identityOk (mould s.dev (nodeSeg n)) (nodeSeg n) (nodeNum n) p = false) : Leaves (.mailboxReply n q p) s (fun d =>
        (seg d (nodeSeg n)).exchanges = [] ∧ (hd d (nodeSeg n) (nodeNum n)).state = 4 ∧ (hd d (nodeSeg n) (nodeNum n)).addressed = false ∧
        rep (82 + 4 * nodeSeg n) 2 (nodeNum n) 0 ∈ d.fc.todo) := by
  obtain ⟨d, hended, hpd, hnode, hexec⟩ := identity_replied hx hn hp hc hps hu hq ha h1 hlen hsvc hst
  refine .of_upd hexec ?_
  obtain ⟨f, hf⟩ : ∃ f, f = setHd d (nodeSeg n) (nodeNum n) { hd d (nodeSeg n) (nodeNum n) with step := 0, addressed := false } := ⟨_, rfl⟩
  have hpf : pairedSeg f (nodeSeg n) = false := by rw [hf]; exact hpd
  have hsame : seg f (nodeSeg n) = seg d (nodeSeg n) := by rw [hf]; rfl
  have hset : hd f (nodeSeg n) (nodeNum n) = { hd d (nodeSeg n) (nodeNum n) with step := 0, addressed := false } := by rw [hf, hd_setHd, if_pos rfl]
  have hseg := (nodeStateNow_noted f (nodeSeg n) (nodeNum n) 4).1.seg (nodeSeg n)
  have hshown : hd (nodeStateNow f (nodeSeg n) (nodeNum n) 4) (nodeSeg n) (nodeNum n) = { hd f (nodeSeg n) (nodeNum n) with state := 4 } := by
    rw [hd_nodeStateNow _ _ _ _ (by decide), if_pos rfl]
  rw [if_neg (ne_true_of_eq_false hok), ← hf, nodeStateSet_now hpf]
  generalize nodeStateNow f (nodeSeg n) (nodeNum n) 4 = e at hseg hshown
  refine ⟨?_, ?_, ?_, by simp [later, rep]⟩
  · show (seg e _).exchanges = []
    rw [hseg, hsame, hended]
  · show (hd e _ _).state = 4
    rw [hshown]
  · show (hd e _ _).addressed = false
    rw [hshown, hset]
end

/-! ### The roll call (R235, R240) -/

/-- What a ring shows of the counters that came back. -/
def countsShown (d : Dev) (g a c : Nat) : Dev :=
  if 8 ≤ g then d
  else if a != mouldN g (mould d g) || c != mouldN g (mould d g) then
    later (log (os (os d (sgb g) 5 a) (sgb g) 6 c) (0x10 + g) 2 (a + c * 65536)) (82 + 4 * g) 5 0
  else os (os d (sgb g) 5 a) (sgb g) 6 c

/-- The segment has made its roll call. -/
def segRolled (d : Dev) (g : Nat) : Dev := setSeg d g { seg d g with rolled := true }

theorem exec_rollCall (g : Seg) (a c : BitVec 16) (s : State) : exec (.rollCall g a c) s = .next (upd s (fun d =>
    if sending d g.val && originates d g.val && frameClaim d g.val != 0 && rollDue d g.val && !(g.val < 8 && (seg d g.val).mailed) then
      (mouldNodes g.val (mould d g.val)).foldl (fun d j => rollNode d g.val j)
        (segRolled (countsShown (emit d (.segment g.val none (startFrame d g.val 0))) g.val a.toNat c.toNat) g.val)
    else d)) := rfl

theorem rollCall_idles {g : Seg} {a c : BitVec 16} {s : State} (hs : Settled s) (h : sending s.dev g.val = false) : Idles (.rollCall g a c) s :=
  .of_upd hs (exec_rollCall g a c s) (if_neg (by simp [h]))

/-- What a roll call leaves of the nodes' records it does not reach. -/
structure Rolled (g : Nat) (a b : Dev) : Prop where
  noted : NodeNoted a b
  kept : BelowNodesKept a b (nodeKeys g)

theorem Rolled.refl (g : Nat) (a : Dev) : Rolled g a a := ⟨.refl a, .refl a _⟩
theorem Rolled.trans {g : Nat} {a b c : Dev} (h : Rolled g a b) (h' : Rolled g b c) : Rolled g a c :=
  ⟨h.noted.trans h'.noted, h.kept.trans h'.kept⟩
theorem Rolled.setHd (g j : Nat) (a : Dev) (m : HeadNode) : Rolled g a (Machine.setHd a g j m) := ⟨⟨rfl⟩, .refl a _⟩

theorem nodeStateNow_rolled (g j st : Nat) (d : Dev) : Rolled g d (nodeStateNow d g j st) :=
  ⟨(nodeStateNow_noted d g j st).1, nodeStateNow_below d g j st⟩

theorem hd_setHd_other {g i j : Nat} (d : Dev) (m : HeadNode) (h : i ≠ j) : hd (setHd d g j m) g i = hd d g i := by
  rw [hd_setHd, if_neg (mt nkey_eq.1 h)]

theorem rollNode_spec {d : Dev} {g : Nat} (hp : pairedSeg d g = false) (j : Nat) :
    Rolled g d (rollNode d g j) ∧ (∀ i, i ≠ j → hd (rollNode d g j) g i = hd d g i) := by
  have hset : ∀ (m : HeadNode) (st : Nat), st ≠ 3 → Rolled g d (nodeStateSet (setHd d g j m) g j st) ∧
      ∀ i, i ≠ j → hd (nodeStateSet (setHd d g j m) g j st) g i = hd d g i := by
    intro m st h3
    rw [nodeStateSet_now (by exact hp)]
    exact ⟨(Rolled.setHd g j d m).trans (nodeStateNow_rolled ..), fun i hi => by rw [hd_nodeStateNow _ _ _ _ h3, if_neg hi, hd_setHd_other _ _ hi]⟩
  unfold rollNode
  dsimp only
  split
  · exact ⟨.refl g d, fun _ _ => rfl⟩
  · split
    · exact hset _ 2 (by decide)
    · split
      · exact ⟨.setHd g j d _, fun i hi => hd_setHd_other _ _ hi⟩
      · exact hset _ 1 (by decide)

theorem rollNode_held {d : Dev} {g j : Nat} (h : (hd d g j).state = 3 ∨ (hd d g j).addressed = true) : rollNode d g j = d := by
  unfold rollNode
  dsimp only
  rw [if_pos]
  obtain h | h := h <;> simp [h]

/-- A node asked for its identity. -/
def Asked (g j : Nat) (d : Dev) : Prop := (hd d g j).state = 1 ∧ (hd d g j).addressed = true ∧ (hd d g j).step = 1

theorem rollNode_asks {d : Dev} {g j : Nat} (hp : pairedSeg d g = false) (h0 : (hd d g j).state = 0) (ha : (hd d g j).addressed = false)
    (hx : ∀ x ∈ (seg d g).exchanges, x.node ≠ j) : Asked g j (rollNode d g j) := by
  have hnone : (seg d g).exchanges.any (fun e => e.node = j) = false := by
    simpa [List.any_eq_false] using hx
  unfold rollNode
  dsimp only
  rw [if_neg (by simp [h0, ha, hnone]), if_neg (by simp [h0]), if_neg (by simp [h0]), nodeStateSet_now (by exact hp)]
  unfold Asked
  rw [hd_nodeStateNow _ _ _ _ (by decide), if_pos rfl, hd_setHd, if_pos rfl]
  exact ⟨rfl, rfl, rfl⟩

section
variable {f : Dev} {g : Nat} (hg : g < 12) (hp : pairedSeg f g = false)
include hg hp

theorem roll_rolled (l : List Nat) : Rolled g f (l.foldl (fun d j => rollNode d g j) f) :=
  foldl_invariant (I := Rolled g f) (fun _ j hd => hd.trans (rollNode_spec ((pairedSeg_below hg hd.kept).trans hp) j).1) l f (.refl g f)

/-- An Integrated node's record stays. -/
theorem roll_integrated {j : Nat} (h3 : (hd f g j).state = 3) (l : List Nat) : hd (l.foldl (fun d j => rollNode d g j) f) g j = hd f g j := by
  refine (foldl_invariant (I := fun d => Rolled g f d ∧ hd d g j = hd f g j) (fun d i h => ?_) l f ⟨.refl g f, rfl⟩).2
  obtain ⟨hr, hj⟩ := h
  obtain ⟨hstep, hother⟩ := rollNode_spec ((pairedSeg_below hg hr.kept).trans hp) i
  refine ⟨hr.trans hstep, ?_⟩
  by_cases hij : i = j
  · subst hij
    rw [rollNode_held (.inl (by rw [hj]; exact h3)), hj]
  · rw [hother j (Ne.symm hij), hj]

/-- A node that is not known is asked for its identity, once. -/
theorem roll_asks {j : Nat} (h0 : (hd f g j).state = 0) (ha : (hd f g j).addressed = false) (hx : ∀ x ∈ (seg f g).exchanges, x.node ≠ j)
    {l : List Nat} (hl : j ∈ l) : Asked g j (l.foldl (fun d j => rollNode d g j) f) := by
  have hself : ∀ d, Rolled g f d → hd d g j = hd f g j ∨ Asked g j d → Asked g j (rollNode d g j) := by
    intro d hr h
    obtain h | h := h
    · exact rollNode_asks ((pairedSeg_below hg hr.kept).trans hp) (by rw [h]; exact h0) (by rw [h]; exact ha) (by rw [hr.noted.seg]; exact hx)
    · rw [rollNode_held (.inr h.2.1)]; exact h
  have hkeep : ∀ d i, Rolled g f d → Asked g j d → Asked g j (rollNode d g i) := by
    intro d i hr h
    by_cases hij : i = j
    · subst hij; exact hself d hr (.inr h)
    · unfold Asked
      rw [(rollNode_spec ((pairedSeg_below hg hr.kept).trans hp) i).2 j (Ne.symm hij)]
      exact h
  refine foldl_establishes (I := fun d => Rolled g f d ∧ (hd d g j = hd f g j ∨ Asked g j d)) (P := Asked g j) (fun d i h => ?_)
    (fun d i h ha => hkeep d i h.1 ha) (y := j) (fun d h => hself d h.1 h.2) hl ⟨.refl g f, .inl rfl⟩
  obtain ⟨hr, h⟩ := h
  obtain ⟨hstep, hother⟩ := rollNode_spec ((pairedSeg_below hg hr.kept).trans hp) i
  refine ⟨hr.trans hstep, ?_⟩
  by_cases hij : i = j
  · subst hij; exact .inr (hself d hr h)
  · obtain h | h := h
    · exact .inl ((hother j (Ne.symm hij)).trans h)
    · exact .inr (hkeep d i hr h)
end

/-! ### The call itself -/

theorem countsShown_spec (d : Dev) {g : Nat} (hg : g < 12) (a c : Nat) : NodeNoted d (countsShown d g a c) ∧
    pairedSeg (countsShown d g a c) g = pairedSeg d g ∧ (countsShown d g a c).heads = d.heads ∧
    (g < 8 → og (countsShown d g a c) (sgb g) 5 = a ∧ og (countsShown d g a c) (sgb g) 6 = c) := by
  obtain ⟨e, he⟩ : ∃ e, e = os (os d (sgb g) 5 a) (sgb g) 6 c := ⟨_, rfl⟩
  have hb : sgb g < 0x3300 := by unfold sgb; split <;> omega
  have hpair : pairedSeg e g = pairedSeg d g := by
    unfold pairedSeg
    rw [he, og_os, if_neg (by unfold okey; omega), og_os, if_neg (by unfold okey; omega)]
  have h5 : og e (sgb g) 5 = a := by rw [he, og_os, if_neg (by unfold okey; omega), og_os_same]
  have h6 : og e (sgb g) 6 = c := by rw [he, og_os_same]
  have hn : NodeNoted d e := by rw [he]; exact ⟨rfl⟩
  have hheads : e.heads = d.heads := by rw [he]; rfl
  have hlog := log_noted e (0x10 + g) 2 (a + c * 65536)
  have hlow : ∀ i x, (0x3000 ≤ i ∧ i < 0x3300 ∨ 0x3C00 = i) → x < 256 → og (log e (0x10 + g) 2 (a + c * 65536)) i x = og e i x := by
    intro i x hi hx
    refine hlog.kept.og ?_
    simp only [dropKeys, okey, List.mem_cons, List.not_mem_nil, not_or, not_false_eq_true, and_true]
    omega
  have hb' : 0x3000 ≤ sgb g := by unfold sgb; split <;> omega
  unfold countsShown
  rw [← he]
  split
  · exact ⟨.refl d, rfl, rfl, fun h => absurd h (by omega)⟩
  · split
    · refine ⟨hn.trans ((NodeNoted.of_noted hlog).trans ⟨rfl⟩), ?_, ?_, fun _ => ⟨?_, ?_⟩⟩
      · exact (congrArg (fun v => bit v g) (hlow 0x3C00 4 (.inr rfl) (by decide))).trans hpair
      · show (log e _ _ _).heads = _
        rw [hlog.frame]; exact hheads
      · exact (hlow (sgb g) 5 (.inl ⟨hb', hb⟩) (by decide)).trans h5
      · exact (hlow (sgb g) 6 (.inl ⟨hb', hb⟩) (by decide)).trans h6
    · exact ⟨hn, hpair, hheads, fun _ => ⟨h5, h6⟩⟩

theorem sgb_apart {g c : Nat} (hg : g < 12) (hc : c = 5 ∨ c = 6) : okey (sgb g) c < 0x400000 ∧ okey (sgb g) c ∉ nodeKeys g := by
  have hb : sgb g < 0x3300 ∧ 0x3000 ≤ sgb g := by unfold sgb; split <;> omega
  simp only [nodeKeys, relayKeys, dropKeys, okey, List.mem_cons, List.mem_append, List.not_mem_nil, not_or, not_false_eq_true, and_true]
  omega

theorem rollCall_calls {g : Seg} {a c : BitVec 16} {s : State} {j : Nat} (hps : pairedSeg s.dev g.val = false) (hsend : sending s.dev g.val = true)
    (hclaim : og s.dev 0x3C00 2 ≠ 0) (hdue : rollDue s.dev g.val = true) (hmail : g.val < 8 → (seg s.dev g.val).mailed = false) :
    Leaves (.rollCall g a c) s (fun d =>
        d.out = s.dev.out ++ [.segment g.val none (startFrame s.dev g.val 0)] ∧ (seg d g.val).rolled = true ∧
        (g.val < 8 → og d (sgb g.val) 5 = a.toNat ∧ og d (sgb g.val) 6 = c.toNat) ∧
        (j ∈ mouldNodes g.val (mould s.dev g.val) → (hd s.dev g.val j).state = 0 → (hd s.dev g.val j).addressed = false →
          (∀ x ∈ (seg s.dev g.val).exchanges, x.node ≠ j) → (hd d g.val j).state = 1 ∧ (hd d g.val j).addressed = true ∧ (hd d g.val j).step = 1) ∧
        ((hd s.dev g.val j).state = 3 → hd d g.val j = hd s.dev g.val j)) := by
  have hg : g.val < 12 := g.isLt
  have hcall : (sending s.dev g.val && originates s.dev g.val && frameClaim s.dev g.val != 0 && rollDue s.dev g.val &&
      !(g.val < 8 && (seg s.dev g.val).mailed)) = true := by
    have hframe : frameClaim s.dev g.val = og s.dev 0x3C00 2 := by unfold frameClaim; rw [hps]; rfl
    have hm : (decide (g.val < 8) && (seg s.dev g.val).mailed) = false := by
      by_cases h8 : g.val < 8
      · rw [hmail h8, Bool.and_false]
      · rw [decide_eq_false h8, Bool.false_and]
    rw [hsend, originates_unpaired hps, hframe, hdue, hm]
    simpa using hclaim
  obtain ⟨f, hf⟩ : ∃ f, f = countsShown (emit s.dev (.segment g.val none (startFrame s.dev g.val 0))) g.val a.toNat c.toNat := ⟨_, rfl⟩
  obtain ⟨hn, hpair, hheads, hcounts⟩ := countsShown_spec (emit s.dev (.segment g.val none (startFrame s.dev g.val 0))) hg a.toNat c.toNat
  rw [← hf] at hn hpair hheads hcounts
  obtain ⟨e, he⟩ : ∃ e, e = segRolled f g.val := ⟨_, rfl⟩
  have hpe : pairedSeg e g.val = false := by rw [he]; exact hpair.trans hps
  have hseg : seg e g.val = { seg s.dev g.val with rolled := true } := by
    rw [he, segRolled, seg_setSeg, if_pos rfl, hn.seg]; rfl
  have hhd : hd e g.val j = hd s.dev g.val j := by
    rw [he]
    show tget _ f.heads _ = _
    rw [hheads]; rfl
  have hroll := roll_rolled hg hpe (mouldNodes g.val (mould s.dev g.val))
  refine .of_upd (exec_rollCall g a c s) ?_
  rw [if_pos hcall, ← hf, ← he]
  refine ⟨?_, ?_, fun h8 => ?_, fun hj h0 ha hx => ?_, fun h3 => ?_⟩
  · rw [hroll.noted.out, he]
    exact hn.out
  · rw [hroll.noted.seg, hseg]
  · obtain ⟨h5, h6⟩ := hcounts h8
    obtain ⟨hl5, hk5⟩ := sgb_apart hg (c := 5) (.inl rfl)
    obtain ⟨hl6, hk6⟩ := sgb_apart hg (c := 6) (.inr rfl)
    rw [hroll.kept.og hl5 hk5, hroll.kept.og hl6 hk6, he]
    exact ⟨h5, h6⟩
  · exact roll_asks hg hpe (by rw [hhd]; exact h0) (by rw [hhd]; exact ha) (by rw [hseg]; exact hx) hj
  · rw [roll_integrated hg hpe (by rw [hhd]; exact h3), hhd]

/-- Settles O41: a state set by the head changes that node's record only, so a roll call begins the integration of each node not yet known and
leaves every Integrated one, and replies, absence and exclusion set the state of their node. -/
theorem nodesAreCalledIntegratedAndLost : Obligations.NodesAreCalledIntegratedAndLost := by
  unfold Obligations.NodesAreCalledIntegratedAndLost
  rintro n _ _ a c q p e s rfl rfl hp hps
  refine ⟨?_, ?_, fun hx hn hu hq hc ha h1 hlen hsvc hst => ⟨fun hok => ?_, fun hok => ?_⟩, fun h3 hm => nodeAbsent_leaves hps h3 hm,
    fun hs h => nodeAbsent_idles hs h, ?_⟩
  · intro sg hsg hsend hclaim hdue hmail
    rw [← hsg] at hps hsend hdue hmail ⊢
    exact rollCall_calls hps hsend hclaim hdue hmail
  · intro sg hsg hs hsend
    rw [← hsg] at hsend
    exact rollCall_idles hs hsend
  · exact identity_agrees hx hn hp hc hps hu hq ha h1 hlen hsvc hst hok
  · exact identity_differs hx hn hp hc hps hu hq ha h1 hlen hsvc hst hok
  · rintro l k rfl h3 h8 hcount
    exact nodeExcluded_leaves hps h3 h8 hcount

end Sys2Proof.Machine
end

section
/-! ## What a segment's state and a step of segment time change -/
namespace Sys2Proof.Machine

/-- Whether an index is that of a segment's own record. -/
def SegIndex (i : Nat) : Prop := 0x3000 ≤ i ∧ i < 0x3300 ∧ i % 64 = 0

theorem sgb_index {g : Nat} (hg : g < 12) : SegIndex (sgb g) := by
  unfold SegIndex sgb
  split <;> omega

theorem sgb_inj {g h : Nat} (hg : g < 12) (hh : h < 12) (he : sgb g = sgb h) : g = h := by
  unfold sgb at he
  split at he <;> split at he <;> omega

/-- The objects of the segments' own records but the listed read as before, segment time and its cycle are as they were, and so are the
byte strings and the pair. -/
structure SegFrame (a b : Dev) (l : List Nat) : Prop where
  k : b.time.k = a.time.k
  time : b.time.seg = a.time.seg
  blobs : b.blobs = a.blobs
  pair : b.pair = a.pair
  kept : ∀ i c, SegIndex i → c < 256 → okey i c ∉ l → og b i c = og a i c

namespace SegFrame
theorem refl (a : Dev) (l : List Nat) : SegFrame a a l := ⟨rfl, rfl, rfl, rfl, fun _ _ _ _ _ => rfl⟩

theorem trans {a b c : Dev} {l : List Nat} (h : SegFrame a b l) (h' : SegFrame b c l) : SegFrame a c l :=
  ⟨h'.k.trans h.k, h'.time.trans h.time, h'.blobs.trans h.blobs, h'.pair.trans h.pair,
    fun i x hi hx hl => (h'.kept i x hi hx hl).trans (h.kept i x hi hx hl)⟩

theorem mono {a b : Dev} {l m : List Nat} (h : SegFrame a b l) (hm : ∀ k ∈ l, k ∈ m) : SegFrame a b m :=
  ⟨h.k, h.time, h.blobs, h.pair, fun i c hi hc hl => h.kept i c hi hc (fun hk => hl (hm _ hk))⟩

theorem of_objs {a b : Dev} (l : List Nat) (ho : b.objs = a.objs) (hk : b.time.k = a.time.k) (ht : b.time.seg = a.time.seg)
    (hb : b.blobs = a.blobs) (hp : b.pair = a.pair) : SegFrame a b l :=
  ⟨hk, ht, hb, hp, fun i c _ _ _ => by unfold Machine.og; rw [ho]⟩

theorem os (a : Dev) (l : List Nat) {i c : Nat} (v : Nat) (hc : c < 256) (hi : ¬ SegIndex i ∨ okey i c ∈ l) : SegFrame a (Machine.os a i c v) l := by
  refine ⟨rfl, rfl, rfl, rfl, fun j x hj hx hl => ?_⟩
  rw [og_os, if_neg]
  intro he
  obtain hi | hi := hi
  · have hij : j = i := by unfold okey at he; omega
    exact hi (hij ▸ hj)
  · rw [he] at hl
    exact hl hi

theorem of_noted {a b : Dev} {k : List Nat} (h : Noted a b k) (l : List Nat) (hk : ∀ i c, SegIndex i → c < 256 → okey i c ∉ k) : SegFrame a b l :=
  ⟨by rw [h.frame], by rw [h.frame], by rw [h.frame], by rw [h.frame], fun i c hi hc _ => h.kept.og (hk i c hi hc)⟩

theorem foldl {α : Type} {f : Dev → α → Dev} {l : List Nat} {xs : List α} (hf : ∀ d, ∀ x ∈ xs, SegFrame d (f d x) l) :
    ∀ d, SegFrame d (xs.foldl f d) l := by
  induction xs with
  | nil => exact fun d => refl d l
  | cons x xs ih => exact fun d => (hf d x (by simp)).trans (ih (fun d y hy => hf d y (by simp [hy])) _)
end SegFrame

theorem dropKeys_apart {i c : Nat} (hi : SegIndex i) (hc : c < 256) : okey i c ∉ dropKeys := by
  unfold SegIndex at hi
  simp only [dropKeys, okey, List.mem_cons, List.not_mem_nil, not_or, not_false_eq_true, and_true]
  omega

theorem log_segFrame (d : Dev) (b c v : Nat) (l : List Nat) : SegFrame d (log d b c v) l :=
  .of_noted (log_noted d b c v) l fun _ _ => dropKeys_apart

theorem occur_segFrame (d : Dev) (kind g : Nat) (l : List Nat) : SegFrame d (occur d kind g) l := by
  obtain ⟨t, ht, hp⟩ := occur_points d kind g
  rw [ht]
  exact .of_objs l rfl (congrArg (·.k) hp) (congrArg (·.seg) hp) rfl rfl

/-! ### Moulds -/

theorem segIndex_add {g o : Nat} (hg : g < 12) (ho : 0 < o) (ho' : o < 64) : ¬ SegIndex (sgb g + o) := by
  have := sgb_index hg
  unfold SegIndex at this ⊢
  omega

/-- Only objects outside the segments' own records change. -/
def AsideOnly (a b : Dev) : Prop := SegFrame a b [] ∧ ObjsOnly a b

namespace AsideOnly
theorem refl (a : Dev) : AsideOnly a a := ⟨.refl a [], .refl a⟩
theorem trans {a b c : Dev} (h : AsideOnly a b) (h' : AsideOnly b c) : AsideOnly a c := ⟨h.1.trans h'.1, h.2.trans h'.2⟩
theorem os {a b : Dev} (h : AsideOnly a b) {i c : Nat} (v : Nat) (hi : ¬ SegIndex i) (hc : c < 256) : AsideOnly a (Machine.os b i c v) :=
  h.trans ⟨.os b [] v hc (.inl hi), (ObjsOnly.refl b).os _ _ _⟩
theorem foldl {α : Type} {f : Dev → α → Dev} {xs : List α} (hf : ∀ d, ∀ x ∈ xs, AsideOnly d (f d x)) (d : Dev) : AsideOnly d (xs.foldl f d) := by
  induction xs generalizing d with
  | nil => exact refl d
  | cons x xs ih => exact (hf d x (by simp)).trans (ih (fun d y hy => hf d y (by simp [hy])) _)
theorem segs {a b : Dev} (h : AsideOnly a b) : b.segs = a.segs := by rw [h.2]
theorem out {a b : Dev} (h : AsideOnly a b) : b.out = a.out := by rw [h.2]
end AsideOnly

theorem mouldStatus_aside (d : Dev) {g : Nat} (hg : g < 12) : AsideOnly d (mouldStatus d g) := by
  have h8 : ¬ SegIndex (sgb g + 8) := segIndex_add hg (by decide) (by decide)
  have hC : ¬ SegIndex (sgb g + 0x0C) := segIndex_add hg (by decide) (by decide)
  have three (x y z : Nat) : AsideOnly d (os (os (os d (sgb g + 8) 3 x) (sgb g + 8) 4 y) (sgb g + 8) 5 z) :=
    (((AsideOnly.refl d).os _ h8 (by decide)).os _ h8 (by decide)).os _ h8 (by decide)
  unfold mouldStatus
  dsimp only
  split
  · refine AsideOnly.trans ?_ (.foldl (fun e i hi => (AsideOnly.refl e).os _ h8 ?_) _)
    · split
      · exact .refl d
      · exact (AsideOnly.refl d).os _ hC (by decide)
    · have := List.mem_range.1 hi; omega
  · split
    · exact (((three ..).os _ h8 (by decide)).os _ h8 (by decide)).os _ h8 (by decide)
    · exact ((((three ..).os _ h8 (by decide)).os _ h8 (by decide)).os _ h8 (by decide)).os _ hC (by decide)

theorem syncMoulds_aside (d : Dev) : AsideOnly d (syncMoulds d) := by
  unfold syncMoulds
  refine (AsideOnly.foldl (fun e g hg => mouldStatus_aside e (List.mem_range.1 hg)) d).os _ ?_ (by decide)
  unfold SegIndex
  decide

theorem takeMould_spec (d : Dev) (g : Nat) : SegFrame d (takeMould d g) [] ∧ (takeMould d g).out = d.out ∧
    (seg (takeMould d g) g).rolled = (seg d g).rolled ∧ (seg (takeMould d g) g).pend = (seg d g).pend := by
  unfold takeMould
  split
  · obtain ⟨e, he⟩ : ∃ e, e = setSeg d g { seg d g with swap := none } := ⟨_, rfl⟩
    have hfirst : SegFrame d e [] ∧ e.out = d.out ∧ seg e g = { seg d g with swap := none } := by
      rw [he]
      exact ⟨.of_objs [] rfl rfl rfl rfl rfl, rfl, (seg_setSeg d g g _).trans (if_pos rfl)⟩
    obtain ⟨hf, ho, hs⟩ := hfirst
    have haside := syncMoulds_aside e
    have hseg : seg (syncMoulds e) g = seg e g := by unfold seg; rw [haside.segs]
    rw [← he, hseg, hs, haside.out, ho]
    exact ⟨hf.trans haside.1, rfl, rfl, rfl⟩
  · exact ⟨.refl d [], rfl, rfl, rfl⟩

/-! ### A segment's state (R231, R240) -/

/-- The nodes of a segment are forgotten one by one. -/
def nodesForgotten (d : Dev) (g : Nat) : Dev := (d.heads.filter (fun p => p.1 / 1024 = g)).foldl (fun d p =>
  if g < 8 then setHd d g (p.1 % 1024) p.2.forget else os (setHd d g (p.1 % 1024) p.2.forget) (fnx (g - 8) (p.1 % 1024) 0) 1 0) d

/-- A segment's part without what it had of its nodes. -/
def segForgotten (x : SegSt) : SegSt :=
  { x with exchanges := x.exchanges.filter (fun e => 3 ≤ e.cls), corrections := [], rolled := false, pend := 0, missNow := false, served := 0 }

theorem forgetNodes_eq (d : Dev) (g : Nat) : forgetNodes d g =
    takeMould (os (setSeg (nodesForgotten d g) g (segForgotten (seg (nodesForgotten d g) g))) (sgb g) 7 0) g := rfl

theorem nodesForgotten_segFrame (d : Dev) (g : Nat) (l : List Nat) : SegFrame d (nodesForgotten d g) l ∧ (nodesForgotten d g).out = d.out := by
  unfold nodesForgotten
  refine ⟨.foldl (fun e p _ => ?_) d, foldl_leaves (·.out) (fun e p => ?_) _ d⟩
  · split
    · exact .of_objs l rfl rfl rfl rfl rfl
    · have hi : ¬ SegIndex (fnx (g - 8) (p.1 % 1024) 0) := by unfold SegIndex fnx; omega
      exact (SegFrame.of_objs (a := e) (b := setHd e g (p.1 % 1024) p.2.forget) l rfl rfl rfl rfl rfl).trans (.os _ l (c := 1) 0 (by decide) (.inl hi))
  · split <;> rfl

theorem forgetNodes_spec (d : Dev) {g : Nat} (hg : g < 12) : SegFrame d (forgetNodes d g) [okey (sgb g) 7] ∧ (forgetNodes d g).out = d.out ∧
    og (forgetNodes d g) (sgb g) 7 = 0 ∧ (seg (forgetNodes d g) g).rolled = false ∧ (seg (forgetNodes d g) g).pend = 0 := by
  rw [forgetNodes_eq]
  obtain ⟨hf, ho⟩ := nodesForgotten_segFrame d g [okey (sgb g) 7]
  obtain ⟨e, he⟩ : ∃ e, e = os (setSeg (nodesForgotten d g) g (segForgotten (seg (nodesForgotten d g) g))) (sgb g) 7 0 := ⟨_, rfl⟩
  have hset : SegFrame (nodesForgotten d g) e [okey (sgb g) 7] := by
    rw [he]
    exact (SegFrame.of_objs (a := nodesForgotten d g) (b := setSeg (nodesForgotten d g) g (segForgotten (seg (nodesForgotten d g) g))) _ rfl rfl rfl rfl rfl).trans
      (.os _ _ (i := sgb g) (c := 7) 0 (by decide) (.inr (List.mem_singleton_self _)))
  have h7 : og e (sgb g) 7 = 0 := by rw [he, og_os_same]
  have hout : e.out = d.out := by rw [he]; exact ho
  have hseg : seg e g = segForgotten (seg (nodesForgotten d g) g) := by
    rw [he]
    exact (seg_setSeg _ g g _).trans (if_pos rfl)
  rw [← he]
  obtain ⟨hf0, ho', hr, hp⟩ := takeMould_spec e g
  refine ⟨(hf.trans hset).trans (hf0.mono (by simp)), ho'.trans hout, ?_, ?_, ?_⟩
  · rw [hf0.kept _ _ (sgb_index hg) (by decide) (by simp), h7]
  · rw [hr, hseg]; rfl
  · rw [hp, hseg]; rfl

/-- A new state shown and logged. -/
def stateShown (d : Dev) (g st : Nat) : Dev := occur (log (os (os d (sgb g) 2 st) (sgb g) 4 d.time.k) (0x10 + g) 1 st) 5 g

theorem stateShown_spec (d : Dev) {g : Nat} (hg : g < 12) (st : Nat) : SegFrame d (stateShown d g st) [okey (sgb g) 2, okey (sgb g) 4] ∧
    segState (stateShown d g st) g = st ∧ (stateShown d g st).out = d.out ∧ (stateShown d g st).segs = d.segs ∧ (stateShown d g st).heads = d.heads := by
  obtain ⟨e, he⟩ : ∃ e, e = os (os d (sgb g) 2 st) (sgb g) 4 d.time.k := ⟨_, rfl⟩
  have hset : SegFrame d e [okey (sgb g) 2, okey (sgb g) 4] := by
    rw [he]
    exact (SegFrame.os d _ _ (by decide) (.inr (by simp))).trans (.os _ _ _ (by decide) (.inr (by simp)))
  have h2 : og e (sgb g) 2 = st := by
    rw [he, og_os, if_neg (by unfold okey; omega), og_os_same]
  have hfields : e.out = d.out ∧ e.segs = d.segs ∧ e.heads = d.heads := by rw [he]; exact ⟨rfl, rfl, rfl⟩
  obtain ⟨ho, hs, hh⟩ := hfields
  unfold stateShown
  rw [← he]
  have hlog := log_noted e (0x10 + g) 1 st
  obtain ⟨t, ht, -⟩ := occur_points (log e (0x10 + g) 1 st) 5 g
  refine ⟨hset.trans ((log_segFrame _ _ _ _ _).trans (occur_segFrame _ _ _ _)), ?_, ?_, ?_, ?_⟩
  · unfold segState
    rw [(occur_segFrame _ 5 g []).kept _ _ (sgb_index hg) (by decide) (by simp), (log_segFrame e _ _ _ []).kept _ _ (sgb_index hg) (by decide) (by simp), h2]
  · rw [ht, hlog.frame]; exact ho
  · rw [ht, hlog.frame]; exact hs
  · rw [ht, hlog.frame]; exact hh

/-- The objects that a new state of segment g writes in the segments' records. -/
def stateKeys (g : Nat) : List Nat := [okey (sgb g) 2, okey (sgb g) 4, okey (sgb g) 7]

/-- A segment that leaves Cold-start for Integrating. -/
theorem setSegState_integrating (d : Dev) {g : Nat} (hg : g < 12) (h : segState d g ≠ 2) : SegFrame d (setSegState d g 2) (stateKeys g) ∧
    segState (setSegState d g 2) g = 2 ∧ (setSegState d g 2).out = d.out ∧ og (setSegState d g 2) (sgb g) 7 = 0 ∧
    (seg (setSegState d g 2) g).rolled = false := by
  have heq : setSegState d g 2 = forgetNodes (stateShown d g 2) g := (if_neg h).trans rfl
  obtain ⟨hf, h2, ho, -⟩ := stateShown_spec d hg 2
  obtain ⟨hff, hfo, h7, hr, -⟩ := forgetNodes_spec (stateShown d g 2) hg
  rw [heq]
  refine ⟨(hf.mono (by simp [stateKeys])).trans (hff.mono (by simp [stateKeys])), ?_, hfo.trans ho, h7, hr⟩
  refine (hff.kept _ _ (sgb_index hg) (by decide) ?_).trans h2
  simp only [List.mem_singleton]
  unfold okey; omega

theorem setSegState_stopped (d : Dev) {g : Nat} (hg : g < 12) : SegFrame d (setSegState d g 4) (stateKeys g) ∧
    segState (setSegState d g 4) g = 4 ∧ (setSegState d g 4).out = d.out ∧ (setSegState d g 4).heads = d.heads := by
  by_cases h : segState d g = 4
  · have heq : setSegState d g 4 = d := if_pos h
    rw [heq]
    exact ⟨.refl d _, h, rfl, rfl⟩
  · have heq : setSegState d g 4 = stateShown d g 4 := (if_neg h).trans rfl
    obtain ⟨hf, h4, ho, -, hh⟩ := stateShown_spec d hg 4
    rw [heq]
    exact ⟨hf.mono (by simp [stateKeys]), h4, ho, hh⟩

/-- The other segments' states are not among the objects that a new state of one writes. -/
theorem SegFrame.segState_other {a b : Dev} {g h : Nat} (hf : SegFrame a b (okey (sgb g) 3 :: stateKeys g)) (hg : g < 12) (hh : h < 12) (hne : h ≠ g) :
    segState b h = segState a h := by
  refine hf.kept _ _ (sgb_index hh) (by decide) ?_
  have hs : sgb h ≠ sgb g := fun he => hne (sgb_inj hh hg he)
  simp only [stateKeys, okey, List.mem_cons, List.not_mem_nil, not_or, not_false_eq_true, and_true]
  omega

/-! ### A step of segment time (R274, R290) -/

theorem bump_segFrame (d : Dev) {i c : Nat} (hi : ¬ SegIndex i) (hc : c < 256) (l : List Nat) : SegFrame d (bump d i c) l ∧ (bump d i c).segs = d.segs := by
  have hb := bump_noted d i c
  refine ⟨.of_noted hb l fun j x hj hx => ?_, by rw [hb.frame]⟩
  simp only [List.mem_singleton]
  intro he
  have hij : j = i := by unfold okey at he; omega
  exact hi (hij ▸ hj)

/-- Nothing of the segments changes. -/
def SegsKept (a b : Dev) : Prop := SegFrame a b [] ∧ b.segs = a.segs

namespace SegsKept
theorem refl (a : Dev) : SegsKept a a := ⟨.refl a [], rfl⟩
theorem trans {a b c : Dev} (h : SegsKept a b) (h' : SegsKept b c) : SegsKept a c := ⟨h.1.trans h'.1, h'.2.trans h.2⟩
theorem foldl {α : Type} {f : Dev → α → Dev} (hf : ∀ d x, SegsKept d (f d x)) (xs : List α) (d : Dev) : SegsKept d (xs.foldl f d) :=
  foldl_invariant (I := SegsKept d) (fun e x he => he.trans (hf e x)) xs d (refl d)
theorem ite {c : Prop} [Decidable c] {a b b' : Dev} (h : SegsKept a b) (h' : SegsKept a b') : SegsKept a (if c then b else b') := by
  split
  · exact h
  · exact h'
theorem os (a : Dev) {i c : Nat} (v : Nat) (hi : ¬ SegIndex i) (hc : c < 256) : SegsKept a (Machine.os a i c v) := ⟨.os a [] v hc (.inl hi), rfl⟩
theorem bump (a : Dev) {i c : Nat} (hi : ¬ SegIndex i) (hc : c < 256) : SegsKept a (Machine.bump a i c) := bump_segFrame a hi hc []
end SegsKept

theorem pointNotify_segs (d : Dev) (kind segm k time unit pk : Nat) : SegsKept d (pointNotify d kind segm k time unit pk) := by
  have hn := number_noted d
  have hnum : SegsKept d (number d).1 := ⟨.of_noted hn [] fun _ _ => dropKeys_apart, by rw [hn.frame]⟩
  unfold pointNotify
  exact hnum.trans ⟨.of_objs [] rfl rfl rfl rfl rfl, rfl⟩

theorem tapPulse_segs (d : Dev) (l : Nat) : SegsKept d (tapPulse d l) := by
  unfold tapPulse
  dsimp only
  refine .ite (.bump d (by unfold SegIndex; omega) (by decide)) ⟨.of_objs [] rfl rfl rfl rfl rfl, rfl⟩

theorem setTrigNext_segs (d : Dev) {u : Nat} (hi : ¬ SegIndex (0x3450 + u)) (v : Nat) : SegsKept d (setTrigNext d u v) := by
  have ht : SegsKept d { d with time := { d.time with trigNext := tput (fun _ => 0) d.time.trigNext u v } } := ⟨.of_objs [] rfl rfl rfl rfl rfl, rfl⟩
  exact ht.trans (.os _ _ hi (by decide))

theorem trigFire_segs (d : Dev) {u : Nat} (hu : u < 4) (now : Nat) (late : Bool) : SegsKept d (trigFire d u now late) := by
  have hi : ¬ SegIndex (0x3450 + u) := by unfold SegIndex; omega
  unfold trigFire
  dsimp only
  refine SegsKept.trans ?_ (SegsKept.ite (.os _ 0 hi (by decide)) ?_)
  · refine SegsKept.trans ?_ (.ite ?_ (.refl _))
    · refine SegsKept.trans ?_ (.ite ?_ (.refl _))
      · refine SegsKept.trans ?_ (.ite ?_ (.refl _))
        · exact SegsKept.trans (.bump d hi (by decide)) (.ite (.bump _ hi (by decide)) (.refl _))
        · exact pointNotify_segs ..
      · exact tapPulse_segs ..
    · refine .foldl (fun e a => ?_) _ _
      split
      · exact .refl e
      · exact ⟨.of_objs [] rfl rfl rfl rfl rfl, rfl⟩
  · exact setTrigNext_segs _ hi _

theorem baseStepped_segs (d : Dev) (b : Nat) : SegsKept d (baseStepped d b) := by
  unfold baseStepped
  refine .ite (.refl d) ?_
  have hrange : ∀ u ∈ List.range 4, u < 4 := fun u hu => List.mem_range.1 hu
  generalize List.range 4 = xs at hrange
  induction xs generalizing d with
  | nil => exact .refl d
  | cons u xs ih =>
    refine SegsKept.trans ?_ (ih _ fun w hw => hrange w (by simp [hw]))
    refine .ite ?_ (.refl d)
    split
    · exact .ite (trigFire_segs d (hrange u (by simp)) _ true) (.refl d)
    · exact .refl d

end Sys2Proof.Machine
end

section
/-! ## Cold start, other heads and the end of integration -/
namespace Sys2Proof.Machine

/-! ### Entering Integrating (R232) -/

/-- Segment g is Integrating in a role, as it is on entering. -/
structure Integrating (g role : Nat) (a b : Dev) : Prop where
  frame : SegFrame a b (okey (sgb g) 3 :: stateKeys g)
  out : b.out = a.out
  state : segState b g = 2
  role : og b (sgb g) 3 = role
  nodes : og b (sgb g) 7 = 0
  cold : (seg b g).cold = .idle
  rolled : (seg b g).rolled = false

theorem integrate_spec (d : Dev) {g : Nat} (hg : g < 12) (role : Nat) (h : segState d g ≠ 2) : Integrating g role d (integrate d g role) := by
  obtain ⟨hf, h2, ho, h7, hr⟩ := setSegState_integrating d hg h
  have hsame : ∀ c, c ≠ 3 → og (os (setSegState d g 2) (sgb g) 3 role) (sgb g) c = og (setSegState d g 2) (sgb g) c := by
    intro c hc
    rw [og_os, if_neg (by unfold okey; omega)]
  have hframe : SegFrame d (os (setSegState d g 2) (sgb g) 3 role) (okey (sgb g) 3 :: stateKeys g) :=
    (hf.mono (fun k hk => List.mem_cons_of_mem _ hk)).trans (.os _ _ (i := sgb g) (c := 3) role (by decide) (.inr (List.mem_cons_self ..)))
  have hseg : seg (integrate d g role) g = { seg (setSegState d g 2) g with
      cold := .idle, start := segCycle (os (setSegState d g 2) (sgb g) 3 role) g } := (seg_setSeg _ g g _).trans (if_pos rfl)
  exact ⟨hframe.trans (.of_objs _ rfl rfl rfl rfl rfl), ho, (hsame 2 (by decide)).trans h2, og_os_same .., (hsame 7 (by decide)).trans h7,
    by rw [hseg], by rw [hseg]; exact hr⟩

/-- Whether a change of segment g's state takes effect at once. -/
def atBoundary (d : Dev) (g : Nat) : Prop := g < 8 ∨ d.time.k % mouldNb (mould d g) = 0

/-- A segment in Cold-start integrates at once at its boundary and waits for it otherwise. -/
theorem integrateAt_spec {d : Dev} {g : Nat} (hg : g < 12) (role : Nat) (h : segState d g = 1) :
    (atBoundary d g → Integrating g role d (integrateAt d g role)) ∧
    (¬ atBoundary d g → integrateAt d g role = setSeg d g { seg d g with pend := role }) := by
  have hb : (g < 8 || d.time.k % mouldNb (mould d g) = 0) = true ↔ atBoundary d g := by
    unfold atBoundary
    simp
  refine ⟨fun hat => ?_, fun hat => ?_⟩
  · have heq : integrateAt d g role = integrate d g role := if_pos (hb.2 hat)
    rw [heq]
    exact integrate_spec d hg role (by omega)
  · exact if_neg (mt hb.1 hat)

theorem integrateAt_frame {d : Dev} {g : Nat} (hg : g < 12) (role : Nat) (h : segState d g = 1) :
    SegFrame d (integrateAt d g role) (okey (sgb g) 3 :: stateKeys g) ∧ (integrateAt d g role).out = d.out := by
  obtain ⟨hat, hwait⟩ := integrateAt_spec hg role h
  by_cases hb : atBoundary d g
  · exact ⟨(hat hb).frame, (hat hb).out⟩
  · rw [hwait hb]
    exact ⟨.of_objs _ rfl rfl rfl rfl rfl, rfl⟩

/-! ### The unit's own cold start (R236, R237) -/

/-- The segment sends a cold-start frame of a round. -/
def coldSent (d : Dev) (g round : Nat) (x : SegSt) : Dev :=
  emit (setSeg (setSeg d g x) g { x with cold := .sending, start := d.time.k }) (.segment g none (startFrame d g round))

theorem sendCold_eq {d : Dev} {g : Nat} {x : SegSt} (hx : x.swap = (seg d g).swap) :
    sendCold (setSeg d g x) g = coldSent d g (og d (sgb g) 8) x := by
  have hseg : seg (setSeg d g x) g = x := (seg_setSeg d g g x).trans (if_pos rfl)
  have hframe : ∀ r, startFrame (setSeg d g x) g r = startFrame d g r := by
    intro r
    have hm : mould (setSeg d g x) g = mould d g := by
      unfold mould
      rw [hseg, hx]
      rfl
    unfold startFrame
    rw [hm]
    rfl
  unfold sendCold
  dsimp only
  rw [hseg, hframe]
  rfl

theorem startFrame_os (d : Dev) (g r : Nat) {c : Nat} (v : Nat) (hg : g < 12) (hc : c < 256) : startFrame (os d (sgb g) c v) g r = startFrame d g r := by
  have hb := sgb_index hg
  unfold SegIndex at hb
  have hclaim : og (os d (sgb g) c v) 0x3C00 2 = og d 0x3C00 2 := by rw [og_os, if_neg (by unfold okey; omega)]
  have hm : mould (os d (sgb g) c v) g = mould d g := rfl
  unfold startFrame
  rw [hm, hclaim]

theorem coldSent_sends (d : Dev) (g round : Nat) (x : SegSt) (keys : List Nat) : seg (coldSent d g round x) g = { x with cold := .sending, start := d.time.k } ∧
    Writes d { coldSent d g round x with segs := d.segs } keys [.segment g none (startFrame d g round)] := by
  refine ⟨(seg_setSeg (setSeg d g x) g g _).trans (if_pos rfl), ?_, ?_⟩
  · unfold coldSent emit setSeg
    dsimp only
  · exact (ObjsKept.refl d keys).congr rfl

/-- A new round: its number shown, its first frame sent. -/
theorem roundBegun {d : Dev} {g v : Nat} {x : SegSt} (hg : g < 12) (hx : x.swap = (seg d g).swap) :
    seg (sendCold (setSeg (os d (sgb g) 8 v) g x) g) g = { x with cold := .sending, start := d.time.k } ∧
    og (sendCold (setSeg (os d (sgb g) 8 v) g x) g) (sgb g) 8 = v ∧
    Writes d { sendCold (setSeg (os d (sgb g) 8 v) g x) g with segs := d.segs } [okey (sgb g) 8] [.segment g none (startFrame d g v)] ∧
    (sendCold (setSeg (os d (sgb g) 8 v) g x) g).fc = d.fc ∧ (sendCold (setSeg (os d (sgb g) 8 v) g x) g).power = d.power := by
  have heq : sendCold (setSeg (os d (sgb g) 8 v) g x) g = coldSent (os d (sgb g) 8 v) g v x := by
    rw [sendCold_eq (d := os d (sgb g) 8 v) hx, og_os_same]
  rw [heq]
  obtain ⟨hseg, -⟩ := coldSent_sends (os d (sgb g) 8 v) g v x []
  refine ⟨hseg, og_os_same .., ⟨?_, ?_⟩, rfl, rfl⟩
  · rw [← startFrame_os d g v v hg (c := 8) (by decide)]
    rfl
  · exact ((ObjsKept.refl d _).os (sgb g) 8 v (by simp)).congr rfl

section
variable {g : Seg} {s : State}

theorem exec_coldStartListenEnd (g : Seg) (s : State) : exec (.coldStartListenEnd g) s = .next (upd s (fun d =>
    if segState d g.val = 1 && (seg d g.val).cold = .listening && (seg d g.val).start + 4 * slotCycles g.val ≤ d.time.k then
      (if (seg d g.val).heard then setSeg d g.val { seg d g.val with heard := false, start := d.time.k }
       else sendCold (setSeg (os d (sgb g.val) 8 1) g.val { seg d g.val with sent := 0 }) g.val)
    else d)) := rfl

/-- What the end of a slot does: contention, success or the next frame. -/
def slotEnded (d : Dev) (g : Nat) (returned contention : Bool) : Dev :=
  if contention || (seg d g).heard || (g < 8 && !returned) then
    bump (setSeg d g { seg d g with cold := .backoff, start := d.time.k, sent := 0, heard := false }) (sgb g) 9
  else if 2 ≤ (seg d g).sent + 1 then coldSuccess d g
  else sendCold (setSeg d g { seg d g with sent := (seg d g).sent + 1 }) g

theorem exec_coldStartSlotEnd (g : Seg) (returned contention : Bool) (s : State) : exec (.coldStartSlotEnd g returned contention) s = .next (upd s (fun d =>
    if segState d g.val = 1 && (seg d g.val).cold = .sending && (seg d g.val).start + slotCycles g.val ≤ d.time.k then
      slotEnded d g.val returned contention else d)) := rfl

theorem exec_coldStartBackoffEnd (g : Seg) (s : State) : exec (.coldStartBackoffEnd g) s = .next (upd s (fun d =>
    if segState d g.val = 1 && (seg d g.val).cold = .backoff && (seg d g.val).start + (255 - og d 0x3C00 2) * slotCycles g.val ≤ d.time.k then
      sendCold (setSeg (os d (sgb g.val) 8 (min 255 (og d (sgb g.val) 8 + 1))) g.val { seg d g.val with sent := 0 }) g.val
    else d)) := rfl

theorem coldStart_idles (hs : Settled s) (h : segState s.dev g.val ≠ 1) (returned contention : Bool) :
    Idles (.coldStartListenEnd g) s ∧ Idles (.coldStartSlotEnd g returned contention) s ∧ Idles (.coldStartBackoffEnd g) s :=
  ⟨.of_upd hs (exec_coldStartListenEnd g s) (if_neg (by simp [h])), .of_upd hs (exec_coldStartSlotEnd g returned contention s) (if_neg (by simp [h])),
    .of_upd hs (exec_coldStartBackoffEnd g s) (if_neg (by simp [h]))⟩

variable (hs : Settled s) (h1 : segState s.dev g.val = 1)
include hs h1

theorem listenEnd_heard (hc : (seg s.dev g.val).cold = .listening) (ht : (seg s.dev g.val).start + 4 * slotCycles g.val ≤ s.dev.time.k)
    (hh : (seg s.dev g.val).heard = true) : Does (.coldStartListenEnd g) s (fun d =>
          seg d g.val = { seg s.dev g.val with heard := false, start := s.dev.time.k } ∧ Writes s.dev { d with segs := s.dev.segs } [] []) := by
  refine .of_eq (d := setSeg s.dev g.val { seg s.dev g.val with heard := false, start := s.dev.time.k }) (exec_coldStartListenEnd g s) ?_ hs.1 hs.2 ?_
  · rw [if_pos (by simp [h1, hc, ht]), if_pos hh]
  · exact ⟨(seg_setSeg _ _ _ _).trans (if_pos rfl), by rw [List.append_nil]; rfl, .congr (.refl s.dev _) rfl⟩

theorem listenEnd_sends (hc : (seg s.dev g.val).cold = .listening) (ht : (seg s.dev g.val).start + 4 * slotCycles g.val ≤ s.dev.time.k)
    (hh : (seg s.dev g.val).heard = false) : Does (.coldStartListenEnd g) s (fun d =>
          seg d g.val = { seg s.dev g.val with sent := 0, cold := .sending, start := s.dev.time.k } ∧ og d (sgb g.val) 8 = 1 ∧
          Writes s.dev { d with segs := s.dev.segs } [okey (sgb g.val) 8] [.segment g.val none (startFrame s.dev g.val 1)]) := by
  obtain ⟨hseg, h8, hw, hfc, hpw⟩ := roundBegun (d := s.dev) (v := 1) (x := { seg s.dev g.val with sent := 0 }) g.isLt rfl
  refine .of_eq (d := sendCold (setSeg (os s.dev (sgb g.val) 8 1) g.val { seg s.dev g.val with sent := 0 }) g.val) (exec_coldStartListenEnd g s) ?_
    (by rw [hfc]; exact hs.1) (by rw [hpw]; exact hs.2) ⟨hseg, h8, hw⟩
  rw [if_pos (by simp [h1, hc, ht]), if_neg (by simp [hh])]

theorem backoffEnd_sends (hc : (seg s.dev g.val).cold = .backoff)
    (ht : (seg s.dev g.val).start + (255 - og s.dev 0x3C00 2) * slotCycles g.val ≤ s.dev.time.k) : Does (.coldStartBackoffEnd g) s (fun d =>
          seg d g.val = { seg s.dev g.val with sent := 0, cold := .sending, start := s.dev.time.k } ∧
          og d (sgb g.val) 8 = min 255 (og s.dev (sgb g.val) 8 + 1) ∧
          Writes s.dev { d with segs := s.dev.segs } [okey (sgb g.val) 8]
            [.segment g.val none (startFrame s.dev g.val (min 255 (og s.dev (sgb g.val) 8 + 1)))]) := by
  obtain ⟨hseg, h8, hw, hfc, hpw⟩ :=
    roundBegun (d := s.dev) (v := min 255 (og s.dev (sgb g.val) 8 + 1)) (x := { seg s.dev g.val with sent := 0 }) g.isLt rfl
  refine .of_eq (d := sendCold (setSeg (os s.dev (sgb g.val) 8 (min 255 (og s.dev (sgb g.val) 8 + 1))) g.val { seg s.dev g.val with sent := 0 }) g.val)
    (exec_coldStartBackoffEnd g s) ?_ (by rw [hfc]; exact hs.1) (by rw [hpw]; exact hs.2) ⟨hseg, h8, hw⟩
  rw [if_pos (by simp [h1, hc, ht])]

variable (hc : (seg s.dev g.val).cold = .sending) (ht : (seg s.dev g.val).start + slotCycles g.val ≤ s.dev.time.k) {returned contention : Bool}
include hc ht

theorem slotEnd_contended (hx : contention = true ∨ (seg s.dev g.val).heard = true ∨ g.val < 8 ∧ returned = false)
    (hn : og s.dev (sgb g.val) 9 < 0xFFFFFFFE) : Does (.coldStartSlotEnd g returned contention) s (fun d =>
            seg d g.val = { seg s.dev g.val with cold := .backoff, start := s.dev.time.k, sent := 0, heard := false } ∧
            og d (sgb g.val) 9 = og s.dev (sgb g.val) 9 + 1 ∧ Writes s.dev { d with segs := s.dev.segs } [okey (sgb g.val) 9] []) := by
  obtain ⟨e, he⟩ : ∃ e, e = setSeg s.dev g.val { seg s.dev g.val with cold := .backoff, start := s.dev.time.k, sent := 0, heard := false } := ⟨_, rfl⟩
  have hog : og e (sgb g.val) 9 = og s.dev (sgb g.val) 9 := by rw [he]; rfl
  refine .of_eq (d := os e (sgb g.val) 9 (og s.dev (sgb g.val) 9 + 1)) (exec_coldStartSlotEnd g returned contention s) ?_ ?_ ?_ ?_
  · have hslot : (contention || (seg s.dev g.val).heard || (decide (g.val < 8) && !returned)) = true := by
      obtain hx | hx | ⟨h8, hx⟩ := hx <;> simp [hx]
      exact .inr h8
    rw [if_pos (by simp [h1, hc, ht]), slotEnded, if_pos hslot, ← he, bump_counts (by rw [hog]; exact hn), hog]
  · rw [he]; exact hs.1
  · rw [he]; exact hs.2
  · refine ⟨?_, og_os_same .., ?_, ?_⟩
    · rw [he]
      exact (seg_setSeg _ _ _ _).trans (if_pos rfl)
    · rw [he, List.append_nil]; rfl
    · rw [he]
      exact ((ObjsKept.refl s.dev _).os (sgb g.val) 9 (og s.dev (sgb g.val) 9 + 1) (by simp)).congr rfl

theorem slotEnd_sends (hx : contention = false) (hh : (seg s.dev g.val).heard = false) (hr : 8 ≤ g.val ∨ returned = true)
    (h0 : (seg s.dev g.val).sent = 0) : Does (.coldStartSlotEnd g returned contention) s (fun d =>
            seg d g.val = { seg s.dev g.val with sent := 1, cold := .sending, start := s.dev.time.k } ∧
            Writes s.dev { d with segs := s.dev.segs } [] [.segment g.val none (startFrame s.dev g.val (og s.dev (sgb g.val) 8))]) := by
  obtain ⟨hseg, hw⟩ := coldSent_sends s.dev g.val (og s.dev (sgb g.val) 8) { seg s.dev g.val with sent := 1 } []
  refine .of_eq (d := coldSent s.dev g.val (og s.dev (sgb g.val) 8) { seg s.dev g.val with sent := 1 })
    (exec_coldStartSlotEnd g returned contention s) ?_ hs.1 hs.2 ⟨hseg, hw⟩
  have hquiet : ¬ (contention || (seg s.dev g.val).heard || (decide (g.val < 8) && !returned)) = true := by
    obtain hr | hr := hr <;> simp [hx, hh, hr]
  rw [if_pos (by simp [h1, hc, ht]), slotEnded, if_neg hquiet, if_neg (by omega), h0]
  exact sendCold_eq (x := { seg s.dev g.val with sent := 1 }) rfl
end

section
variable {g : Seg} {s : State} {returned contention : Bool}

theorem setPairState_segFrame (d : Dev) (st : Nat) (l : List Nat) : SegFrame d (setPairState d st) l ∧ (setPairState d st).segs = d.segs := by
  have hn := setPairState_noted d st
  refine ⟨.of_noted hn l fun i c hi hc => ?_, by rw [hn.frame]⟩
  have := dropKeys_apart hi hc
  unfold SegIndex at hi
  simp only [List.mem_cons, not_or]
  exact ⟨by unfold okey; omega, this⟩

theorem slotEnd_succeeds (h1 : segState s.dev g.val = 1) (hc : (seg s.dev g.val).cold = .sending)
    (ht : (seg s.dev g.val).start + slotCycles g.val ≤ s.dev.time.k) (hx : contention = false) (hh : (seg s.dev g.val).heard = false)
    (hr : 8 ≤ g.val ∨ returned = true) (h0 : (seg s.dev g.val).sent ≠ 0) : Leaves (.coldStartSlotEnd g returned contention) s (fun d =>
            ((g.val < 8 ∨ s.dev.time.k % mouldNb (mould s.dev g.val) = 0) → segState d g.val = 2 ∧ og d (sgb g.val) 3 = 1 ∧ og d (sgb g.val) 7 = 0 ∧
              (seg d g.val).cold = .idle ∧ (seg d g.val).rolled = false) ∧
            (8 ≤ g.val → s.dev.time.k % mouldNb (mould s.dev g.val) ≠ 0 → seg d g.val = { seg s.dev g.val with pend := 1 } ∧ segState d g.val = 1) ∧
            d.out = s.dev.out ∧ ∀ h : Seg, h ≠ g → segState d h.val = segState s.dev h.val) := by
  have hg : g.val < 12 := g.isLt
  refine .of_upd (exec_coldStartSlotEnd g returned contention s) ?_
  have hquiet : ¬ (contention || (seg s.dev g.val).heard || (decide (g.val < 8) && !returned)) = true := by
    obtain hr | hr := hr <;> simp [hx, hh, hr]
  rw [if_pos (by simp [h1, hc, ht]), slotEnded, if_neg hquiet, if_pos (by omega)]
  obtain ⟨hat, hwait⟩ := integrateAt_spec hg 1 h1
  obtain ⟨hframe, hout⟩ := integrateAt_frame hg 1 h1
  obtain ⟨e, he⟩ : ∃ e, e = integrateAt s.dev g.val 1 := ⟨_, rfl⟩
  rw [← he] at hat hwait hframe hout
  obtain ⟨f, hf⟩ : ∃ f, f = coldSuccess s.dev g.val := ⟨_, rfl⟩
  have hpair : (∀ l, SegFrame e f l) ∧ f.segs = e.segs ∧ f.out = e.out := by
    have hdef : f = if pairedSeg e g.val && og e 0x3C01 1 = 1 then setPairState e 2 else e := by rw [hf, he]; rfl
    rw [hdef]
    split
    · exact ⟨fun l => (setPairState_segFrame e 2 l).1, (setPairState_segFrame e 2 []).2, out_setPairState e 2⟩
    · exact ⟨fun l => .refl e l, rfl, rfl⟩
  obtain ⟨hkept, hsegs, hfout⟩ := hpair
  have hseg : seg f g.val = seg e g.val := by unfold seg; rw [hsegs]
  have hog : ∀ c, c < 256 → og f (sgb g.val) c = og e (sgb g.val) c := fun c hc => (hkept []).kept _ _ (sgb_index hg) hc (by simp)
  rw [← hf]
  refine ⟨fun hb => ?_, fun h8 hb => ?_, hfout.trans hout, fun h hne => ?_⟩
  · have hi := hat hb
    unfold segState
    rw [hog 2 (by decide), hog 3 (by decide), hog 7 (by decide), hseg]
    exact ⟨hi.state, hi.role, hi.nodes, hi.cold, hi.rolled⟩
  · have hw := hwait (fun hb' => hb'.elim (fun h => absurd h (by omega)) hb)
    unfold segState
    rw [hseg, hog 2 (by decide), hw]
    exact ⟨(seg_setSeg _ _ _ _).trans (if_pos rfl), h1⟩
  · exact (hframe.trans (hkept _)).segState_other hg h.isLt (fun he => hne (Fin.ext he))
end

/-! ### The end of integration (R232) -/

theorem exec_integrationEnd (g : Seg) (s : State) : exec (.integrationEnd g) s = .next (upd s (fun d =>
    if segState d g.val = 2 && og d (sgb g.val) 3 = 1 && integrated d g.val && (g.val < 8 || d.time.k % mouldNb (mould d g.val) = 0) then
      setSegState d g.val 4 else d)) := rfl

theorem integrationEnd_stops {g : Seg} {s : State} (h2 : segState s.dev g.val = 2) (h3 : og s.dev (sgb g.val) 3 = 1) (hr : (seg s.dev g.val).rolled = true)
    (hn : ∀ p ∈ headsOf s.dev g.val, p.2.state ≠ 1 ∧ p.2.state ≠ 2) (hb : g.val < 8 ∨ s.dev.time.k % mouldNb (mould s.dev g.val) = 0) :
    Leaves (.integrationEnd g) s (fun d =>
          segState d g.val = 4 ∧ d.heads = s.dev.heads ∧ d.out = s.dev.out ∧ ∀ h : Seg, h ≠ g → segState d h.val = segState s.dev h.val) := by
  have hi : integrated s.dev g.val = true := by
    have hall : (headsOf s.dev g.val).all (fun p => p.2.state != 1 && p.2.state != 2) = true := List.all_eq_true.2 fun p hp => by simp [hn p hp]
    unfold integrated
    rw [hr, hall]
    rfl
  have hg : g.val < 12 := g.isLt
  obtain ⟨hf, h4, ho, hh⟩ := setSegState_stopped s.dev hg
  refine .of_upd (exec_integrationEnd g s) ?_
  rw [if_pos (by simpa [h2, h3, hi] using hb)]
  exact ⟨h4, hh, ho, fun h hne =>
    (hf.mono (fun k hk => List.mem_cons_of_mem _ hk)).segState_other hg h.isLt (fun he => hne (Fin.ext he))⟩

theorem integrationEnd_idles {g : Seg} {s : State} (hs : Settled s) (h2 : segState s.dev g.val ≠ 2) : Idles (.integrationEnd g) s :=
  .of_upd hs (exec_integrationEnd g s) (if_neg (by simp [h2]))

end Sys2Proof.Machine
end

section
/-! ## Frames of another head -/
namespace Sys2Proof.Machine

/-- A partner's summation frame on a paired line that sends (R322). -/
def lineHeard (d : Dev) (g claim : Nat) : Dev :=
  { d with pair := { d.pair with
      heardLines := d.pair.heardLines.filter (· != g) ++ [g]
      driving := d.pair.driving && !(og d 0x3C01 1 != 0 && decide (frameClaim d g < claim)) } }

/-- A segment in Cold-start notes that it was heard. -/
def coldHeard (d : Dev) (g : Nat) : Dev := if segState d g = 1 then setSeg d g { seg d g with heard := true } else d

/-- What a valid frame of another head does. -/
def otherHead (d : Dev) (g : Nat) (c : Chan) (kind : Fin 3) (claim tag counter cycle : Nat) : Dev :=
  if kind = 2 then coldHeard (rollCallHeard d g c counter) g
  else if segState d g = 1 then headHeard d g c (kind = 1) tag cycle
  else if kind = 0 && 8 ≤ g && pairedSeg d g then lineHeard d g claim
  else d

theorem exec_otherHeadHeard (g : Seg) (c : Chan) (crcOk : Bool) (kind : Fin 3) (claim : BitVec 8) (tag counter : BitVec 16) (cycle : BitVec 32)
    (s : State) : exec (.otherHeadHeard g c crcOk kind claim tag counter cycle) s = .next (upd s (fun d =>
    if !crcOk then (if 8 ≤ g.val && kind = 0 && ready d (18 + g.val) then bump d (sgb g.val + 9) (if c = .a then 1 else 2) else d)
    else if !(1 ≤ claim.toNat && claim.toNat ≤ 254) then d
    else otherHead d g.val c kind claim.toNat tag.toNat counter.toNat cycle.toNat)) := rfl

/-! ### Segment time from another head (R277) -/

theorem nearest_mod {own low : Nat} (hl : low < 2 ^ 32) : ∃ c, c % 2 ^ 32 = low ∧
    c = (let near := (own + 2 ^ 31 - (own + 2 ^ 31) % 2 ^ 32) + low
         if own + 2 ^ 31 < near ∧ 2 ^ 32 ≤ near then near - 2 ^ 32 else near) := by
  refine ⟨_, ?_, rfl⟩
  dsimp only
  split <;> omega

theorem takeSegTime_spec (d : Dev) {low : Nat} (nb late : Nat) (hl : low < 2 ^ 32) : ∃ e c, takeSegTime d low nb late = e ∧ c % 2 ^ 32 = low ∧
    e.time.k = c * nb ∧ e.time.k * unitCycle ≤ e.time.seg ∧ e.segs = d.segs ∧ e.blobs = d.blobs ∧ e.pair = d.pair ∧
    ∀ i x, SegIndex i → x < 256 → og e i x = og d i x := by
  obtain ⟨c, hc, hcdef⟩ := nearest_mod (own := d.time.k / nb) hl
  obtain ⟨f, hf⟩ : ∃ f : Dev, f = { d with time := { d.time with seg := c * nb * unitCycle + late, k := c * nb } } := ⟨_, rfl⟩
  have htake : takeSegTime d low nb late = baseStepped f 1 := by rw [hf, hcdef]; rfl
  obtain ⟨hkept, hsegs⟩ := baseStepped_segs f 1
  refine ⟨baseStepped f 1, c, htake, hc, ?_, ?_, ?_, ?_, ?_, fun i x hi hx => ?_⟩
  · rw [hkept.k, hf]
  · rw [hkept.k, hkept.time, hf]
    exact Nat.le_add_right ..
  · rw [hsegs, hf]
  · rw [hkept.blobs, hf]
  · rw [hkept.pair, hf]
  · rw [hkept.kept i x hi hx (by simp), hf]
    rfl

/-- The far head of a paired line takes the counter of a roll call. -/
theorem rollCallHeard_line {d : Dev} {g : Nat} (c : Chan) {seen : Nat} (hg : g < 12) (h8 : 8 ≤ g) (hm : mouldPaired (mould d g) = true)
    (hr : ready d (18 + g) = true) : og (rollCallHeard d g c seen) (sgb g) (if og d (sgb g + 0x30) 1 = 1 then 5 else 6) = seen ∧
      (seen ≠ mouldN g (mould d g) → rep (82 + 4 * g) 5 0 0 ∈ (rollCallHeard d g c seen).fc.todo) := by
  obtain ⟨i, hi⟩ : ∃ i, i = if og d (sgb g + 0x30) 1 = 1 then 5 else 6 := ⟨_, rfl⟩
  have hi256 : i < 256 := by rw [hi]; split <;> decide
  have heq : rollCallHeard d g c seen =
      if seen = mouldN g (mould d g) then os d (sgb g) i seen
      else later (log (os d (sgb g) i seen) (0x10 + g) 2 (og (os d (sgb g) i seen) (sgb g) 5 + og (os d (sgb g) i seen) (sgb g) 6 * 65536)) (82 + 4 * g) 5 0 := by
    unfold rollCallHeard
    dsimp only
    rw [if_neg (by simp; omega), if_neg (by simp [hm, hr]; omega), ← hi]
  obtain ⟨v, hv⟩ : ∃ v, v = og (os d (sgb g) i seen) (sgb g) 5 + og (os d (sgb g) i seen) (sgb g) 6 * 65536 := ⟨_, rfl⟩
  have h5 : og (os d (sgb g) i seen) (sgb g) i = seen := og_os_same ..
  rw [heq, ← hv, ← hi]
  generalize os d (sgb g) i seen = e at h5
  split
  · next hN => exact ⟨h5, fun h => absurd hN h⟩
  · refine ⟨?_, fun _ => ?_⟩
    · show og (log e _ _ _) _ _ = _
      rw [(log_segFrame e _ _ _ []).kept _ _ (sgb_index hg) hi256 (by simp), h5]
    · unfold later rep
      simp

section
variable {g : Seg} {c : Chan} {kind : Fin 3} {claim : BitVec 8} {tag counter : BitVec 16} {cycle : BitVec 32} {s : State}

theorem otherHead_badCrc (hs : Settled s) (h : g.val < 8 ∨ kind ≠ 0 ∨ ready s.dev (18 + g.val) = false) :
    Idles (.otherHeadHeard g c false kind claim tag counter cycle) s := by
  refine .of_upd hs (exec_otherHeadHeard g c false kind claim tag counter cycle s) ?_
  have hnot : ¬ (8 ≤ g.val && kind = 0 && ready s.dev (18 + g.val)) = true := by
    obtain h | h | h := h <;> simp [h]
  exact (if_pos rfl).trans (if_neg hnot)

theorem otherHead_badCrcCounts (hs : Settled s) {i : Nat} (hi : i = if c = .a then 1 else 2) (hg : 8 ≤ g.val) (hk : kind = 0)
    (hr : ready s.dev (18 + g.val) = true) (hn : og s.dev (sgb g.val + 9) i < 0xFFFFFFFE) :
    Does (.otherHeadHeard g c false kind claim tag counter cycle) s (fun d => og d (sgb g.val + 9) i = og s.dev (sgb g.val + 9) i + 1 ∧
      Writes s.dev d [okey (sgb g.val + 9) i] []) := by
  refine .of_eq (d := os s.dev (sgb g.val + 9) i (og s.dev (sgb g.val + 9) i + 1)) (exec_otherHeadHeard g c false kind claim tag counter cycle s) ?_
    hs.1 hs.2 ⟨og_os_same .., .of_objs ((ObjsOnly.refl s.dev).os ..) ((ObjsKept.refl s.dev _).os _ _ _ (by simp))⟩
  rw [if_pos (by rfl), if_pos (by simp [hg, hk, hr]), ← hi, bump_counts hn]

theorem otherHead_noClaim (hs : Settled s) (h : claim.toNat = 255 ∨ claim.toNat = 0) :
    Idles (.otherHeadHeard g c true kind claim tag counter cycle) s := by
  refine .of_upd hs (exec_otherHeadHeard g c true kind claim tag counter cycle s) ?_
  have hnot : (!(1 ≤ claim.toNat && claim.toNat ≤ 254)) = true := by obtain h | h := h <;> simp [h]
  exact (if_neg (by simp)).trans (if_pos hnot)

variable (hlo : 1 ≤ claim.toNat) (hhi : claim.toNat ≤ 254)
include hlo hhi

/-- The effect of a valid frame. -/
theorem exec_validHead : exec (.otherHeadHeard g c true kind claim tag counter cycle) s =
    .next (upd s (fun _ => otherHead s.dev g.val c kind claim.toNat tag.toNat counter.toNat cycle.toNat)) := by
  refine (exec_otherHeadHeard g c true kind claim tag counter cycle s).trans (congrArg (fun d => Host.Outcome.next (upd s (fun _ => d))) ?_)
  exact (if_neg (by simp)).trans (if_neg (by simp [hlo, hhi]))

/-! #### In Cold-start -/

theorem otherHead_followed (h1 : segState s.dev g.val = 1) (hk : kind = 0)
    (hf : (seg s.dev g.val).cold = .backoff ∨ tag.toNat = mouldTag (mould s.dev g.val)) :
    Leaves (.otherHeadHeard g c true kind claim tag counter cycle) s (fun d =>
            segState d g.val = 2 ∧ og d (sgb g.val) 3 = 2 ∧ (seg d g.val).cold = .idle ∧ d.pair.heardHead = true ∧
            (g.val < 8 → d.time.k % 2 ^ 32 = cycle.toNat) ∧ d.time.k * unitCycle ≤ d.time.seg ∧
            ∀ h : Seg, h ≠ g → segState d h.val = segState s.dev h.val) := by
  have hg : g.val < 12 := g.isLt
  obtain ⟨f, hfd⟩ : ∃ f : Dev, f = { s.dev with pair := { s.dev.pair with heardHead := true } } := ⟨_, rfl⟩
  have hf1 : segState f g.val = 1 := by rw [hfd]; exact h1
  have hmould : mould f g.val = mould s.dev g.val := by rw [hfd]; rfl
  obtain ⟨e, n, he, hn, hek, hseg, hsegs, hblobs, hpair, hog⟩ := takeSegTime_spec f
    (if g.val < 8 then 1 else mouldNb (mould s.dev g.val)) (headDelay f g.val c * (unitNs / 2)) cycle.isLt
  have hother : otherHead s.dev g.val c kind claim.toNat tag.toNat counter.toNat cycle.toNat = integrateAt e g.val 2 := by
    have hfollow : ((seg s.dev g.val).cold = .backoff || (!decide (kind = 1) && tag.toNat = mouldTag (mould s.dev g.val))) = true := by
      obtain h | h := hf <;> simp [h, hk]
    unfold otherHead
    rw [if_neg (by simp [hk]), if_pos h1]
    unfold headHeard
    dsimp only
    rw [if_pos hfollow, if_neg (by simp [hk]), ← hfd, he]
  have he1 : segState e g.val = 1 := (hog _ 2 (sgb_index hg) (by decide)).trans hf1
  have hemould : mould e g.val = mould s.dev g.val := by
    rw [← hmould]
    unfold mould ob seg
    rw [hsegs, hblobs]
  have hb : atBoundary e g.val := by
    unfold atBoundary
    rw [hek, hemould]
    by_cases h8 : g.val < 8
    · exact .inl h8
    · rw [if_neg h8]
      exact .inr (Nat.mul_mod_left ..)
  have hi := (integrateAt_spec hg 2 he1).1 hb
  refine .of_upd (exec_validHead hlo hhi) ?_
  rw [hother]
  refine ⟨hi.state, hi.role, hi.cold, ?_, fun h8 => ?_, ?_, fun h hne => ?_⟩
  · rw [hi.frame.pair, hpair, hfd]
  · rw [hi.frame.k, hek, if_pos h8, Nat.mul_one, hn]
  · rw [hi.frame.k, hi.frame.time]
    exact hseg
  · rw [hi.frame.segState_other hg h.isLt (fun he => hne (Fin.ext he))]
    exact (hog _ 2 (sgb_index h.isLt) (by decide)).trans (by rw [hfd]; rfl)

theorem otherHead_coldFollowed (h1 : segState s.dev g.val = 1) (hk : kind = 1) (hf : (seg s.dev g.val).cold = .backoff) :
    Leaves (.otherHeadHeard g c true kind claim tag counter cycle) s (fun d =>
            ((g.val < 8 ∨ s.dev.time.k % mouldNb (mould s.dev g.val) = 0) → segState d g.val = 2 ∧ og d (sgb g.val) 3 = 2 ∧ (seg d g.val).cold = .idle) ∧
            (8 ≤ g.val → s.dev.time.k % mouldNb (mould s.dev g.val) ≠ 0 → seg d g.val = { seg s.dev g.val with pend := 2 } ∧ segState d g.val = 1) ∧
            d.pair.heardHead = true ∧ ∀ h : Seg, h ≠ g → segState d h.val = segState s.dev h.val) := by
  have hg : g.val < 12 := g.isLt
  obtain ⟨f, hfd⟩ : ∃ f : Dev, f = { s.dev with pair := { s.dev.pair with heardHead := true } } := ⟨_, rfl⟩
  have hf1 : segState f g.val = 1 := by rw [hfd]; exact h1
  have hother : otherHead s.dev g.val c kind claim.toNat tag.toNat counter.toNat cycle.toNat = integrateAt f g.val 2 := by
    unfold otherHead
    rw [if_neg (by simp [hk]), if_pos h1]
    unfold headHeard
    dsimp only
    rw [if_pos (by simp [hf]), if_pos (by simp [hk]), hfd]
  obtain ⟨hat, hwait⟩ := integrateAt_spec hg 2 hf1
  obtain ⟨hframe, -⟩ := integrateAt_frame hg 2 hf1
  have hbound : atBoundary f g.val ↔ (g.val < 8 ∨ s.dev.time.k % mouldNb (mould s.dev g.val) = 0) := by rw [hfd]; rfl
  have hseg : seg f g.val = seg s.dev g.val := by rw [hfd]; rfl
  refine .of_upd (exec_validHead hlo hhi) ?_
  rw [hother]
  refine ⟨fun hb => ?_, fun h8 hb => ?_, ?_, fun h hne => ?_⟩
  · have hi := hat (hbound.2 hb)
    exact ⟨hi.state, hi.role, hi.cold⟩
  · have hw := hwait (fun hb' => (hbound.1 hb').elim (fun h => absurd h (by omega)) hb)
    rw [hw, ← hseg]
    exact ⟨(seg_setSeg _ _ _ _).trans (if_pos rfl), hf1⟩
  · rw [hframe.pair, hfd]
  · rw [hframe.segState_other hg h.isLt (fun he => hne (Fin.ext he)), hfd]
    rfl

theorem otherHead_noted (hs : Settled s) (h1 : segState s.dev g.val = 1) (hk : kind ≠ 2) (hc : (seg s.dev g.val).cold ≠ .backoff)
    (ht : kind = 1 ∨ tag.toNat ≠ mouldTag (mould s.dev g.val)) :
    Does (.otherHeadHeard g c true kind claim tag counter cycle) s (fun d =>
            seg d g.val = { seg s.dev g.val with heard := true } ∧ d = { s.dev with segs := d.segs, pair := { s.dev.pair with heardHead := true } }) := by
  obtain ⟨f, hfd⟩ : ∃ f : Dev, f = { s.dev with pair := { s.dev.pair with heardHead := true } } := ⟨_, rfl⟩
  refine .of_eq (d := setSeg f g.val { seg s.dev g.val with heard := true }) (exec_validHead hlo hhi) ?_ (by rw [hfd]; exact hs.1) (by rw [hfd]; exact hs.2) ?_
  · have hnot : ¬ ((seg s.dev g.val).cold = .backoff || (!decide (kind = 1) && tag.toNat = mouldTag (mould s.dev g.val))) = true := by
      obtain ht | ht := ht <;> simp [hc, ht]
    unfold otherHead
    rw [if_neg hk, if_pos h1]
    unfold headHeard
    dsimp only
    rw [if_neg hnot, hfd]
  · refine ⟨(seg_setSeg _ _ _ _).trans (if_pos rfl), ?_⟩
    rw [hfd]
    rfl

/-! #### Roll calls -/

theorem otherHead_rollNoted (hs : Settled s) (h1 : segState s.dev g.val = 1) (hk : kind = 2) (hp : pairedSeg s.dev g.val = false)
    (hm : mouldPaired (mould s.dev g.val) = false) : Does (.otherHeadHeard g c true kind claim tag counter cycle) s (fun d =>
            seg d g.val = { seg s.dev g.val with heard := true } ∧ d = { s.dev with segs := d.segs }) := by
  refine .of_eq (d := setSeg s.dev g.val { seg s.dev g.val with heard := true }) (exec_validHead hlo hhi) ?_ hs.1 hs.2
    ⟨(seg_setSeg _ _ _ _).trans (if_pos rfl), rfl⟩
  have hroll : rollCallHeard s.dev g.val c counter.toNat = s.dev := by
    unfold rollCallHeard
    dsimp only
    rw [if_neg (by simp [hp]), if_pos (by simp [hm])]
  unfold otherHead coldHeard
  rw [if_pos hk, hroll, if_pos h1]

theorem otherHead_counted (hs : Settled s) (h1 : segState s.dev g.val ≠ 1) (hk : kind = 2) (h8 : g.val < 8) (hc : c = .a)
    (hp : pairedSeg s.dev g.val = true) : Does (.otherHeadHeard g c true kind claim tag counter cycle) s (fun d =>
          d = { s.dev with pair := { s.dev.pair with counted := d.pair.counted } } ∧ tget (fun _ => none) d.pair.counted g.val = some counter.toNat) := by
  obtain ⟨f, hfd⟩ : ∃ f : Dev, f = { s.dev with pair := { s.dev.pair with counted := tput (fun _ => none) s.dev.pair.counted g.val (some counter.toNat) } } :=
    ⟨_, rfl⟩
  have hf1 : segState f g.val ≠ 1 := by rw [hfd]; exact h1
  refine .of_eq (d := f) (exec_validHead hlo hhi) ?_ (by rw [hfd]; exact hs.1) (by rw [hfd]; exact hs.2) ?_
  · have hroll : rollCallHeard s.dev g.val c counter.toNat = f := by
      unfold rollCallHeard
      dsimp only
      rw [if_pos (by simp [h8, hc, hp]), hfd]
    unfold otherHead coldHeard
    rw [if_pos hk, hroll, if_neg hf1]
  · have hcount : f.pair.counted = tput (fun _ => none) s.dev.pair.counted g.val (some counter.toNat) := by rw [hfd]
    exact ⟨by rw [hfd], by rw [hcount]; exact tget_tput_same ..⟩

theorem otherHead_lineCounter (hk : kind = 2) (h8 : 8 ≤ g.val) (hm : mouldPaired (mould s.dev g.val) = true) (hr : ready s.dev (18 + g.val) = true) :
    Leaves (.otherHeadHeard g c true kind claim tag counter cycle) s (fun d =>
          og d (sgb g.val) (if og s.dev (sgb g.val + 0x30) 1 = 1 then 5 else 6) = counter.toNat ∧
          (counter.toNat ≠ mouldN g.val (mould s.dev g.val) → rep (82 + 4 * g.val) 5 0 0 ∈ d.fc.todo)) := by
  refine .of_upd (exec_validHead hlo hhi) ?_
  have hroll := rollCallHeard_line (d := s.dev) c (seen := counter.toNat) g.isLt h8 hm hr
  unfold otherHead coldHeard
  rw [if_pos hk]
  generalize rollCallHeard s.dev g.val c counter.toNat = e at hroll
  split <;> exact hroll

/-! #### Outside Cold-start -/

theorem otherHead_line (hs : Settled s) (h1 : segState s.dev g.val ≠ 1) (hk : kind = 0) (h8 : 8 ≤ g.val) (hp : pairedSeg s.dev g.val = true) :
    Does (.otherHeadHeard g c true kind claim tag counter cycle) s (fun d =>
          g.val ∈ d.pair.heardLines ∧ (s.dev.pair.driving = false → d.pair.driving = false) ∧
          d = { s.dev with pair := { s.dev.pair with heardLines := d.pair.heardLines, driving := d.pair.driving } }) := by
  refine .of_eq (d := lineHeard s.dev g.val claim.toNat) (exec_validHead hlo hhi) ?_ hs.1 hs.2 ⟨?_, fun hd => ?_, rfl⟩
  · unfold otherHead
    rw [if_neg (by simp [hk]), if_neg h1, if_pos (by simp [hk, h8, hp])]
  · simp [lineHeard]
  · simp [lineHeard, hd]

theorem otherHead_ignored (hs : Settled s) (h1 : segState s.dev g.val ≠ 1)
    (hk : kind = 1 ∨ kind = 0 ∧ (g.val < 8 ∨ pairedSeg s.dev g.val = false)) : Idles (.otherHeadHeard g c true kind claim tag counter cycle) s := by
  refine .of_upd hs (exec_validHead hlo hhi) ?_
  unfold otherHead
  rw [if_neg (by obtain h | ⟨h, -⟩ := hk <;> simp [h]), if_neg h1, if_neg]
  obtain h | ⟨h, h8 | hp⟩ := hk
  · simp [h]
  · simp [h]; omega
  · simp [hp]
end

/-- Settles O40: a start goes from listening to slots to Integrating or backoff, and a frame of another head is followed, noted or ignored by its
kind and the segment's state; every change of state keeps the other segments' states. -/
theorem segmentsStartAndIntegrate : Obligations.SegmentsStartAndIntegrate := by
  unfold Obligations.SegmentsStartAndIntegrate
  refine ⟨fun g returned contention s hs => ⟨fun h1 => coldStart_idles hs h1 returned contention,
      fun h1 hc ht => ⟨listenEnd_heard hs h1 hc ht, listenEnd_sends hs h1 hc ht⟩,
      fun h1 hc ht => ⟨slotEnd_contended hs h1 hc ht, fun hx hh hr =>
        ⟨slotEnd_sends hs h1 hc ht hx hh hr, slotEnd_succeeds h1 hc ht hx hh hr⟩⟩,
      fun h1 hc ht => backoffEnd_sends hs h1 hc ht⟩,
    fun g c kind claim tag counter cycle s => ⟨fun hs => ⟨otherHead_badCrc hs, fun i hi h8 hk hr hn => otherHead_badCrcCounts hs hi h8 hk hr hn,
        otherHead_noClaim hs⟩,
      fun hlo hhi => ⟨fun h1 => ⟨fun hk hf => otherHead_followed hlo hhi h1 hk hf, fun hk hf => otherHead_coldFollowed hlo hhi h1 hk hf,
          fun hs hk hc ht => otherHead_noted hlo hhi hs h1 hk hc ht, fun hs hk hp hm => otherHead_rollNoted hlo hhi hs h1 hk hp hm⟩,
        fun hk h8 hm hr => otherHead_lineCounter hlo hhi hk h8 hm hr, fun hs hk h8 hc hp h1 => otherHead_counted hlo hhi hs h1 hk h8 hc hp,
        fun hs h1 hk h8 hp => otherHead_line hlo hhi hs h1 hk h8 hp, fun hs h1 hk => otherHead_ignored hlo hhi hs h1 hk⟩⟩,
    fun g s => ⟨fun h2 h3 hr hn hb => integrationEnd_stops h2 h3 hr hn hb, fun hs h2 => integrationEnd_idles hs h2⟩⟩

end Sys2Proof.Machine
end

section
/-! ## The pair's part of the device and the loss of the partner -/
namespace Sys2Proof.Machine

/-- What the unit knows of its pair is as before, and no report is lost. -/
structure PairKept (a b : Dev) : Prop where
  pair : b.pair = a.pair
  og : ∀ i c, i = 0x3C01 ∨ i = 0x3C02 → c < 256 → Machine.og b i c = Machine.og a i c
  todo : ∀ r ∈ a.fc.todo, r ∈ b.fc.todo

namespace PairKept
theorem refl (a : Dev) : PairKept a a := ⟨rfl, fun _ _ _ _ => rfl, fun _ h => h⟩

theorem trans {a b c : Dev} (h : PairKept a b) (h' : PairKept b c) : PairKept a c :=
  ⟨h'.pair.trans h.pair, fun i x hi hx => (h'.og i x hi hx).trans (h.og i x hi hx), fun r hr => h'.todo r (h.todo r hr)⟩

theorem of_objs {a b : Dev} (ho : b.objs = a.objs) (hp : b.pair = a.pair) (hf : b.fc = a.fc) : PairKept a b :=
  ⟨hp, fun i c _ _ => by unfold Machine.og; rw [ho], fun r hr => by rw [hf]; exact hr⟩

theorem os (a : Dev) {i c : Nat} (v : Nat) (hi : i ≠ 0x3C01 ∧ i ≠ 0x3C02) (hc : c < 256) : PairKept a (Machine.os a i c v) := by
  refine ⟨rfl, fun j x hj hx => ?_, fun _ h => h⟩
  rw [og_os, if_neg (by unfold okey; omega)]

theorem foldl {α : Type} {f : Dev → α → Dev} {xs : List α} (hf : ∀ d, ∀ x ∈ xs, PairKept d (f d x)) (d : Dev) : PairKept d (xs.foldl f d) := by
  induction xs generalizing d with
  | nil => exact refl d
  | cons x xs ih => exact (hf d x (by simp)).trans (ih (fun d y hy => hf d y (by simp [hy])) _)

theorem state {a b : Dev} (h : PairKept a b) : pairState b = pairState a := h.og _ 1 (.inl rfl) (by decide)
end PairKept

theorem bump_pairKept (d : Dev) {i c : Nat} (hi : i ≠ 0x3C01 ∧ i ≠ 0x3C02) (hc : c < 256) : PairKept d (bump d i c) :=
  ⟨pair_bump d i c, fun j x hj hx => (bump_kept d i c).og (by simp only [List.mem_singleton]; unfold okey; omega), fun _ h => bump_todo _ _ _ h⟩

theorem log_pairKept (d : Dev) (b c v : Nat) : PairKept d (log d b c v) :=
  ⟨by rw [(log_noted d b c v).frame], fun i x hi hx => (log_noted d b c v).kept.og (by simp [dropKeys, okey]; omega), fun _ h => event_todo _ _ _ _ h⟩

theorem later_pairKept (d : Dev) (src cause datum : Nat) : PairKept d (later d src cause datum) :=
  ⟨rfl, fun _ _ _ _ => rfl, fun _ h => List.mem_append_left _ h⟩

/-! ### A segment that leaves the cycle -/

theorem sgb_lt {g : Nat} (hg : g < 12) : sgb g < 0x3300 := (sgb_index hg).2.1

theorem mouldStatus_pairKept (d : Dev) {g : Nat} (hg : g < 12) : PairKept d (mouldStatus d g) := by
  have hs := sgb_lt hg
  have h8 : sgb g + 8 ≠ 0x3C01 ∧ sgb g + 8 ≠ 0x3C02 := by omega
  have hC : sgb g + 0x0C ≠ 0x3C01 ∧ sgb g + 0x0C ≠ 0x3C02 := by omega
  have next {a b : Dev} (h : PairKept a b) (c v : Nat) (hc : c < 256) : PairKept a (os b (sgb g + 8) c v) := h.trans (.os b v h8 hc)
  have three (x y z : Nat) : PairKept d (os (os (os d (sgb g + 8) 3 x) (sgb g + 8) 4 y) (sgb g + 8) 5 z) :=
    next (next (next (.refl d) _ _ (by decide)) _ _ (by decide)) _ _ (by decide)
  unfold mouldStatus
  dsimp only
  split
  · refine PairKept.trans ?_ (.foldl (fun e i hi => next (.refl e) _ _ ?_) _)
    · split
      · exact .refl d
      · exact .os d _ hC (by decide)
    · have := List.mem_range.1 hi; omega
  · split
    · exact next (next (next (three ..) _ _ (by decide)) _ _ (by decide)) _ _ (by decide)
    · exact (next (next (next (three ..) _ _ (by decide)) _ _ (by decide)) _ _ (by decide)).trans (.os _ _ hC (by decide))

theorem syncMoulds_pairKept (d : Dev) : PairKept d (syncMoulds d) := by
  unfold syncMoulds
  exact (PairKept.foldl (fun e g hg => mouldStatus_pairKept e (List.mem_range.1 hg)) d).trans (.os _ _ (by decide) (by decide))

theorem takeMould_pairKept (d : Dev) (g : Nat) : PairKept d (takeMould d g) := by
  unfold takeMould
  split
  · exact PairKept.trans (b := setSeg d g { seg d g with swap := none }) (.of_objs rfl rfl rfl) (syncMoulds_pairKept _)
  · exact .refl d

theorem nodesForgotten_pairKept (d : Dev) (g : Nat) : PairKept d (nodesForgotten d g) := by
  unfold nodesForgotten
  refine .foldl (fun e p _ => ?_) d
  split
  · exact .of_objs rfl rfl rfl
  · exact PairKept.trans (b := setHd e g (p.1 % 1024) p.2.forget) (.of_objs rfl rfl rfl) (.os _ _ (by unfold fnx; omega) (by decide))

theorem forgetNodes_pairKept (d : Dev) {g : Nat} (hg : g < 12) : PairKept d (forgetNodes d g) := by
  have hs := sgb_lt hg
  rw [forgetNodes_eq]
  exact (nodesForgotten_pairKept d g).trans (PairKept.trans (b := setSeg (nodesForgotten d g) g (segForgotten (seg (nodesForgotten d g) g)))
    (.of_objs rfl rfl rfl) (PairKept.trans (.os _ 0 (by omega) (by decide)) (takeMould_pairKept _ g)))

theorem stateShown_pairKept (d : Dev) {g : Nat} (hg : g < 12) (st : Nat) : PairKept d (stateShown d g st) := by
  have hs := sgb_lt hg
  unfold stateShown
  obtain ⟨t, ht, -⟩ := occur_points (log (os (os d (sgb g) 2 st) (sgb g) 4 d.time.k) (0x10 + g) 1 st) 5 g
  rw [ht]
  exact ((PairKept.os d _ (by omega) (by decide)).trans (.os _ _ (by omega) (by decide))).trans ((log_pairKept ..).trans (.of_objs rfl rfl rfl))

theorem relayInterrupt_pairKept (d : Dev) : PairKept d (relayInterrupt d) := by
  unfold relayInterrupt
  split
  · exact PairKept.trans (b := { d with mgmt := { d.mgmt with relayList := [], relayOld := d.mgmt.relayList } }) (.of_objs rfl rfl rfl)
      (.os _ _ (by decide) (by decide))
  · exact .refl d

/-- A segment that is Off or in Cold-start begins anew and relays no firmware. -/
def segIdled (d : Dev) (g : Nat) : Dev :=
  let e := os (setSeg d g { seg d g with forced := false, quietExit := false, cold := .idle, sent := 0, heard := false }) (sgb g) 3 0
  if e.mgmt.relaySeg = g then relayInterrupt e else e

theorem setSegState_toIdle (d : Dev) (g : Nat) {st : Nat} (h : st ≤ 1) :
    setSegState d g st = if segState d g = st then d else segIdled (forgetNodes (stateShown d g st) g) g := by
  have h2 : st ≤ 2 := by omega
  unfold setSegState
  simp only [if_pos h, if_pos h2]
  rfl

theorem setSegState_toActive (d : Dev) (g : Nat) {st : Nat} (h : 2 ≤ st) :
    setSegState d g st = if segState d g = st then d else if st = 2 then forgetNodes (stateShown d g st) g else stateShown d g st := by
  have h1 : ¬ st ≤ 1 := by omega
  unfold setSegState
  simp only [if_neg h1]
  by_cases h2 : st = 2
  · subst h2; rfl
  · have h2' : ¬ st ≤ 2 := by omega
    simp only [if_neg h2, if_neg h2']
    rfl

theorem segIdled_pairKept (d : Dev) {g : Nat} (hg : g < 12) : PairKept d (segIdled d g) := by
  have hs := sgb_lt hg
  have hleft : PairKept d (os (setSeg d g { seg d g with forced := false, quietExit := false, cold := .idle, sent := 0, heard := false }) (sgb g) 3 0) :=
    PairKept.trans (b := setSeg d g { seg d g with forced := false, quietExit := false, cold := .idle, sent := 0, heard := false })
      (.of_objs rfl rfl rfl) (.os _ _ (by omega) (by decide))
  unfold segIdled
  dsimp only
  split
  · exact hleft.trans (relayInterrupt_pairKept _)
  · exact hleft

theorem setSegState_pairKept (d : Dev) {g : Nat} (hg : g < 12) (st : Nat) : PairKept d (setSegState d g st) := by
  have hforgot := (stateShown_pairKept d hg st).trans (forgetNodes_pairKept _ hg)
  by_cases h : st ≤ 1
  · rw [setSegState_toIdle d g h]
    split
    · exact .refl d
    · exact hforgot.trans (segIdled_pairKept _ hg)
  · rw [setSegState_toActive d g (by omega)]
    split
    · exact .refl d
    · split
      · exact hforgot
      · exact stateShown_pairKept d hg st

/-! ### An axis that is taken to rest -/

theorem AxisStep.pairKept {n : Nat} {a b : Dev} (h : AxisStep n a b) (ht : ∀ r ∈ a.fc.todo, r ∈ b.fc.todo) : PairKept a b := by
  refine ⟨by rw [h.frame], fun i c hi hc => h.kept _ (.inl ?_), ht⟩
  unfold okey ax
  omega

theorem fc_showAxis (d : Dev) (n : Nat) : (showAxis d n).fc = d.fc := by rw [showAxis_objs]

theorem axisOff_todo (d : Dev) (n st : Nat) {r : Report} (h : r ∈ d.fc.todo) : r ∈ (axisOff d n st).fc.todo := by
  have hblend : r ∈ (retireBlend d n).fc.todo := by
    unfold retireBlend
    split
    · exact bump_todo _ _ _ h
    · exact h
  have hhome : r ∈ (homeAbort (retireBlend d n) n 2).fc.todo := by
    unfold homeAbort
    split
    · exact bump_todo _ _ _ hblend
    · exact hblend
  rw [axisOff_eq, fc_showAxis, fc_stepperOff]
  exact hhome

theorem disableAxis_pairKept (d : Dev) (n cause seq : Nat) : PairKept d (disableAxis d n cause seq) := by
  unfold disableAxis
  split
  · exact ((axisOff_step d n 0).trans (setCause_step _ n cause seq)).pairKept fun r hr => axisOff_todo d n 0 hr
  · exact .refl d

theorem segLeave_pairKept (d : Dev) {g : Nat} (hg : g < 12) (st : Nat) (report : Bool) : PairKept d (segLeave d g st report) := by
  unfold segLeave
  dsimp only
  split
  · have haxes : PairKept d ((segAxes (setSegState d g st) g).foldl (fun d n => disableAxis d n 7 0) (setSegState d g st)) :=
      (setSegState_pairKept d hg st).trans (.foldl (fun e n _ => disableAxis_pairKept e n 7 0) _)
    split
    · exact haxes.trans (later_pairKept ..)
    · exact haxes
  · exact setSegState_pairKept d hg st

/-! ### The loss of the partner (R323, R334) -/

theorem sendPair_down {d : Dev} {typ : Nat} {b : Bytes} (h9 : og d 0x3C01 9 = 0) (hq : d.pair.queue = []) : sendPair d typ b = d := by
  have hnone : queueLink d typ false b.length b = d := if_pos h9
  unfold sendPair
  rw [hnone]
  unfold servePair
  rw [hq]
  show { d with pair := { d.pair with queue := [] } } = d
  rw [← hq]

/-- Whatever the link does with a message, the unit's states and what it knows of its partner stay. -/
structure LinkOnly (a b : Dev) : Prop where
  pair : ∃ q u f, b.pair = { a.pair with queue := q, used := u, usedFwd := f }
  objs : b.objs = a.objs
  fc : b.fc = a.fc

theorem LinkOnly.refl (a : Dev) : LinkOnly a a := ⟨⟨_, _, _, rfl⟩, rfl, rfl⟩

theorem LinkOnly.og {a b : Dev} (h : LinkOnly a b) (i c : Nat) : Machine.og b i c = Machine.og a i c := by unfold Machine.og; rw [h.objs]

theorem sendPair_linkOnly (d : Dev) (typ : Nat) (b : Bytes) : LinkOnly d (sendPair d typ b) := by
  have hframe := sendPair_frame d typ b
  generalize sendPair d typ b = e at hframe
  exact ⟨⟨e.pair.queue, e.pair.used, e.pair.usedFwd, by rw [hframe]⟩, by rw [hframe], by rw [hframe]⟩

theorem enterLinking_linkOnly (d : Dev) (st : Nat) : LinkOnly d (enterLinking d st) := by
  unfold enterLinking
  split
  · exact sendPair_linkOnly ..
  · exact .refl d

theorem enterLinking_down {d : Dev} (st : Nat) (h9 : og d 0x3C01 9 = 0) (hq : d.pair.queue = []) : (enterLinking d st).pair.queue = [] := by
  unfold enterLinking
  split
  · rw [sendPair_down h9 hq]
    exact hq
  · exact hq

/-- What is no longer known of a partner that was lost. -/
structure PartnerForgotten (a b : Dev) : Prop where
  last : b.pair.last = none
  missed : b.pair.missed = a.pair.missed
  claim : og b 0x3C01 5 = 0
  state : og b 0x3C01 6 = 0
  link : og b 0x3C01 9 = og a 0x3C01 9
  todo : ∀ r ∈ a.fc.todo, r ∈ b.fc.todo
  queue : og a 0x3C01 9 = 0 → b.pair.queue = []

theorem PartnerForgotten.kept {a b c : Dev} (h : PartnerForgotten a b) (h' : PairKept b c) : PartnerForgotten a c :=
  ⟨by rw [h'.pair]; exact h.last, by rw [h'.pair]; exact h.missed, (h'.og _ 5 (.inl rfl) (by decide)).trans h.claim,
    (h'.og _ 6 (.inl rfl) (by decide)).trans h.state, (h'.og _ 9 (.inl rfl) (by decide)).trans h.link, fun r hr => h'.todo r (h.todo r hr),
    fun h9 => by rw [h'.pair]; exact h.queue h9⟩

theorem PartnerForgotten.linked {a b c : Dev} (h : PartnerForgotten a b) (h' : LinkOnly b c)
    (hdown : og b 0x3C01 9 = 0 → b.pair.queue = [] → c.pair.queue = []) : PartnerForgotten a c := by
  obtain ⟨q, u, f, hp⟩ := h'.pair
  exact ⟨by rw [hp]; exact h.last, by rw [hp]; exact h.missed, (h'.og _ 5).trans h.claim, (h'.og _ 6).trans h.state, (h'.og _ 9).trans h.link,
    fun r hr => by rw [h'.fc]; exact h.todo r hr, fun h9 => hdown (h.link.trans h9) (h.queue h9)⟩

theorem PartnerForgotten.setPairState {a b : Dev} (h : PartnerForgotten a b) (st : Nat) : PartnerForgotten a (setPairState b st) :=
  ⟨by rw [pair_setPairState]; exact h.last, by rw [pair_setPairState]; exact h.missed, (og_setPairState _ _ (by decide) (by decide)).trans h.claim,
    (og_setPairState _ _ (by decide) (by decide)).trans h.state, (og_setPairState _ _ (by decide) (by decide)).trans h.link,
    fun r hr => todo_setPairState _ _ (h.todo r hr), fun h9 => by rw [pair_setPairState]; exact h.queue h9⟩

/-- The messages that wait for a link that is down are dropped. -/
def linkDropped (d : Dev) : Dev := if pairUp d then d else { d with pair := { d.pair with queue := [] } }

theorem linkDropped_spec (d : Dev) : (∃ q, (linkDropped d).pair = { d.pair with queue := q }) ∧ (linkDropped d).objs = d.objs ∧ (linkDropped d).fc = d.fc ∧
    (linkDropped d).time = d.time ∧ (og d 0x3C01 9 = 0 → (linkDropped d).pair.queue = []) := by
  unfold linkDropped
  split
  · next hup =>
    refine ⟨⟨_, rfl⟩, rfl, rfl, rfl, fun h9 => absurd hup ?_⟩
    simp [pairUp, h9]
  · exact ⟨⟨_, rfl⟩, rfl, rfl, rfl, fun _ => rfl⟩

/-- The partner that was known is reported. -/
def lossReported (d : Dev) : Dev := if d.pair.last.isSome then later (linkDropped d) 165 0 0 else linkDropped d

theorem forgetPartner_forgets {a b : Dev} (hm : b.pair.missed = a.pair.missed) (h9 : og b 0x3C01 9 = og a 0x3C01 9)
    (ht : ∀ r ∈ a.fc.todo, r ∈ b.fc.todo) (hq : og a 0x3C01 9 = 0 → b.pair.queue = []) : PartnerForgotten a (forgetPartner b) := by
  have h6 : og (os (os b 0x3C01 5 0) 0x3C01 6 0) 0x3C01 6 = 0 := og_os_same ..
  have h5 : og (os (os b 0x3C01 5 0) 0x3C01 6 0) 0x3C01 5 = 0 := by rw [og_os, if_neg (by decide), og_os_same]
  have hlink : og (os (os b 0x3C01 5 0) 0x3C01 6 0) 0x3C01 9 = og a 0x3C01 9 := by rw [og_os, if_neg (by decide), og_os, if_neg (by decide), h9]
  exact ⟨rfl, hm, h5, h6, hlink, ht, hq⟩

theorem noAnnounce_forgotten {a b : Dev} (h : PartnerForgotten a b) : PartnerForgotten a (noAnnounce b) := by
  obtain ⟨hpair, -, hkept, -⟩ := noAnnounce_spec b
  exact ⟨by rw [hpair]; exact h.last, by rw [hpair]; exact h.missed, (hkept.og (by decide)).trans h.claim, (hkept.og (by decide)).trans h.state,
    (hkept.og (by decide)).trans h.link, h.todo, fun h9 => by rw [hpair]; exact h.queue h9⟩

/-- A partner is lost in Unpaired and Linking. -/
theorem partnerLost_linking {d : Dev} (h : pairState d ≤ 1) : PartnerForgotten d (partnerLost d) ∧ pairState (partnerLost d) = pairState d ∧
    og (partnerLost d) 0x3C02 9 = og d 0x3C02 9 := by
  have heq : partnerLost d = enterLinking (linkDropped (forgetPartner d)) (pairState d) := by
    have hst : (pairState d = 0 || pairState d = 1) = true := by simp; omega
    exact if_pos hst
  obtain ⟨e, he⟩ : ∃ e, e = forgetPartner d := ⟨_, rfl⟩
  have hother : ∀ c i, okey i c ≠ okey 0x3C01 5 → okey i c ≠ okey 0x3C01 6 → og e i c = og d i c := by
    intro c i h5 h6
    rw [he]
    show og (os (os d 0x3C01 5 0) 0x3C01 6 0) i c = _
    rw [og_os, if_neg h6, og_os, if_neg h5]
  have hlast : e.pair.last = none := by rw [he]; rfl
  have hmissed : e.pair.missed = d.pair.missed := by rw [he]; rfl
  have h6 : og e 0x3C01 6 = 0 := by
    rw [he]
    show og (os (os d 0x3C01 5 0) 0x3C01 6 0) 0x3C01 6 = 0
    exact og_os_same ..
  have h5 : og e 0x3C01 5 = 0 := by
    rw [he]
    show og (os (os d 0x3C01 5 0) 0x3C01 6 0) 0x3C01 5 = 0
    rw [og_os, if_neg (by decide), og_os_same]
  have hfc : e.fc = d.fc := by rw [he]; rfl
  rw [heq, ← he]
  obtain ⟨⟨q, hq⟩, hobjs, hfc', -, hdown⟩ := linkDropped_spec e
  have hog : ∀ i c, og (linkDropped e) i c = og e i c := fun i c => by unfold og; rw [hobjs]
  have hforgot : PartnerForgotten d (linkDropped e) :=
    ⟨by rw [hq]; exact hlast, by rw [hq]; exact hmissed, (hog _ _).trans h5, (hog _ _).trans h6,
      (hog _ _).trans (hother 9 0x3C01 (by decide) (by decide)), fun r hr => by rw [hfc', hfc]; exact hr,
      fun h9 => hdown ((hother 9 0x3C01 (by decide) (by decide)).trans h9)⟩
  have hlink := enterLinking_linkOnly (linkDropped e) (pairState d)
  exact ⟨hforgot.linked hlink (enterLinking_down _), (hlink.og _ _).trans ((hog _ _).trans (hother 1 0x3C01 (by decide) (by decide))),
    (hlink.og _ _).trans ((hog _ _).trans (hother 9 0x3C02 (by decide) (by decide)))⟩

/-- What the loss of a partner leaves until it is forgotten. -/
theorem lossReported_spec (d : Dev) : (∃ q, (lossReported d).pair = { d.pair with queue := q }) ∧ (lossReported d).objs = d.objs ∧
    (∀ r ∈ d.fc.todo, r ∈ (lossReported d).fc.todo) ∧ (d.pair.last ≠ none → rep 165 0 0 0 ∈ (lossReported d).fc.todo) ∧
    (og d 0x3C01 9 = 0 → (lossReported d).pair.queue = []) := by
  obtain ⟨⟨q, hq⟩, hobjs, hfc, -, hdown⟩ := linkDropped_spec d
  unfold lossReported
  split
  · refine ⟨⟨q, hq⟩, hobjs, fun r hr => ?_, fun _ => ?_, hdown⟩
    · show r ∈ (linkDropped d).fc.todo ++ _
      rw [hfc]
      exact List.mem_append_left _ hr
    · unfold later rep
      simp
  · next hn => exact ⟨⟨q, hq⟩, hobjs, fun r hr => by rw [hfc]; exact hr, fun hl => absurd (Option.isSome_iff_ne_none.2 hl) hn, hdown⟩

/-- A partner is lost when the unit is Sole or In step: it goes on alone. -/
theorem partnerLost_sole {d : Dev} (h : pairState d = 2 ∨ pairState d = 7) : PartnerForgotten d (partnerLost d) ∧ pairState (partnerLost d) = 2 ∧
    (d.pair.last ≠ none → rep 165 0 0 0 ∈ (partnerLost d).fc.todo) ∧ og (partnerLost d) 0x3C02 9 = og d 0x3C02 9 := by
  have heq : partnerLost d = setPairState (noAnnounce (forgetPartner
      (if pairState d = 7 && pairRole (lossReported d) = 2 then later (bump (lossReported d) 0x3C02 2) 166 0 0 else lossReported d))) 2 := by
    have hfirst : ¬ (pairState d = 0 || pairState d = 1) = true := by simp; omega
    have hsecond : (pairState d = 2 || pairState d = 7) = true := by simp; omega
    exact (if_neg hfirst).trans (if_pos hsecond)
  obtain ⟨⟨q, hq⟩, hobjs, htodo, hrep, hdown⟩ := lossReported_spec d
  obtain ⟨e, he⟩ : ∃ e, e = lossReported d := ⟨_, rfl⟩
  rw [← he] at heq hq hobjs htodo hrep hdown
  obtain ⟨f, hf⟩ : ∃ f, f = if pairState d = 7 && pairRole e = 2 then later (bump e 0x3C02 2) 166 0 0 else e := ⟨_, rfl⟩
  have hog : ∀ i c, og e i c = og d i c := fun i c => by unfold og; rw [hobjs]
  have hcounted : f.pair = e.pair ∧ (∀ i c, okey i c ≠ okey 0x3C02 2 → og f i c = og e i c) ∧ ∀ r ∈ e.fc.todo, r ∈ f.fc.todo := by
    rw [hf]
    split
    · refine ⟨pair_bump .., fun i c hk => (bump_kept e 0x3C02 2).og (by simpa using hk), fun r hr => ?_⟩
      exact List.mem_append_left _ (bump_todo _ _ _ hr)
    · exact ⟨rfl, fun _ _ _ => rfl, fun _ h => h⟩
  obtain ⟨hfp, hfog, hft⟩ := hcounted
  rw [heq, ← hf]
  have hforgot : PartnerForgotten d (forgetPartner f) :=
    forgetPartner_forgets (by rw [hfp, hq]) ((hfog _ _ (by decide)).trans (hog _ _)) (fun r hr => hft r (htodo r hr)) (fun h9 => by rw [hfp]; exact hdown h9)
  refine ⟨(noAnnounce_forgotten hforgot).setPairState 2, pairState_setPairState .., fun hl => ?_, ?_⟩
  · exact todo_setPairState _ _ (hft _ (hrep hl))
  · rw [((setPairState_noted _ 2).kept.og (by decide) : og (setPairState (noAnnounce (forgetPartner f)) 2) 0x3C02 9 = _)]
    show og (os (os (os f 0x3C01 5 0) 0x3C01 6 0) 0x3C01 8 0) 0x3C02 9 = _
    rw [og_os, if_neg (by decide), og_os, if_neg (by decide), og_os, if_neg (by decide), hfog _ _ (by decide), hog]

/-- A partner is lost while the unit joins it: its paired segments leave and Linking begins again. -/
theorem partnerLost_joining {d : Dev} (h : 3 ≤ pairState d) (h' : pairState d ≠ 7) : PartnerForgotten d (partnerLost d) ∧ pairState (partnerLost d) = 1 ∧
    (d.pair.last ≠ none → rep 165 0 0 0 ∈ (partnerLost d).fc.todo) ∧ og (partnerLost d) 0x3C02 9 = og d 0x3C02 9 := by
  obtain ⟨e, he⟩ : ∃ e, e = enterLinking (setPairState (noAnnounce (forgetPartner (lossReported d))) 1) 1 := ⟨_, rfl⟩
  obtain ⟨f, hf⟩ : ∃ f : Dev, f = { e with pair := { e.pair with linkAt := e.time.local_, heardHead := false } } := ⟨_, rfl⟩
  have heq : partnerLost d = ((pairedSegs f).filter (fun g => segState f g != 0)).foldl (fun d g => segLeave d g 0 true) f := by
    have hfirst : ¬ (pairState d = 0 || pairState d = 1) = true := by simp; omega
    have hsecond : ¬ (pairState d = 2 || pairState d = 7) = true := by simp; omega
    have hreported : (if d.pair.last.isSome then later (if pairUp d then d else { d with pair := { d.pair with queue := [] } }) 165 0 0
        else if pairUp d then d else { d with pair := { d.pair with queue := [] } }) = lossReported d := rfl
    unfold partnerLost
    dsimp only
    rw [if_neg hfirst, if_neg hsecond, hreported, ← he, ← hf]
  obtain ⟨⟨q, hq⟩, hobjs, htodo, hrep, hdown⟩ := lossReported_spec d
  have hog : ∀ i c, og (lossReported d) i c = og d i c := fun i c => by unfold og; rw [hobjs]
  have hforgot : PartnerForgotten d (forgetPartner (lossReported d)) := forgetPartner_forgets (by rw [hq]) (hog _ _) htodo hdown
  have hlinking := (noAnnounce_forgotten hforgot).setPairState 1
  have hlink := enterLinking_linkOnly (setPairState (noAnnounce (forgetPartner (lossReported d))) 1) 1
  have hdown' := enterLinking_down (d := setPairState (noAnnounce (forgetPartner (lossReported d))) 1) 1
  rw [← he] at hlink hdown'
  have hstate : pairState e = 1 := (hlink.og _ _).trans (pairState_setPairState ..)
  have hlosses : og e 0x3C02 9 = og d 0x3C02 9 := by
    rw [hlink.og, ((setPairState_noted _ 1).kept.og (by decide) : og (setPairState (noAnnounce (forgetPartner (lossReported d))) 1) 0x3C02 9 = _)]
    show og (os (os (os (lossReported d) 0x3C01 5 0) 0x3C01 6 0) 0x3C01 8 0) 0x3C02 9 = _
    rw [og_os, if_neg (by decide), og_os, if_neg (by decide), og_os, if_neg (by decide), hog]
  have hle := hlinking.linked hlink hdown'
  have hfforgot : PartnerForgotten d f := by rw [hf]; exact ⟨hle.last, hle.missed, hle.claim, hle.state, hle.link, hle.todo, hle.queue⟩
  have hfog : ∀ i c, og f i c = og e i c := fun i c => by rw [hf]; rfl
  have hrest : PairKept f (partnerLost d) := by
    rw [heq]
    refine .foldl (fun a g hg => segLeave_pairKept a ?_ 0 true) f
    exact List.mem_range.1 (List.mem_filter.1 (List.mem_filter.1 hg).1).1
  refine ⟨hfforgot.kept hrest, hrest.state.trans ((hfog _ _).trans hstate), fun hl => hrest.todo _ ?_,
    (hrest.og _ 9 (.inr rfl) (by decide)).trans ((hfog _ _).trans hlosses)⟩
  have hle' : rep 165 0 0 0 ∈ e.fc.todo := by
    rw [hlink.fc]
    exact todo_setPairState _ _ (hrep hl)
  rw [hf]
  exact hle'

/-- The loss of the partner, in whatever state. -/
theorem partnerLost_forgets (d : Dev) : PartnerForgotten d (partnerLost d) ∧ og (partnerLost d) 0x3C02 9 = og d 0x3C02 9 := by
  by_cases h1 : pairState d ≤ 1
  · obtain ⟨hf, -, hc⟩ := partnerLost_linking h1
    exact ⟨hf, hc⟩
  · by_cases hs : pairState d = 2 ∨ pairState d = 7
    · obtain ⟨hf, -, -, hc⟩ := partnerLost_sole hs
      exact ⟨hf, hc⟩
    · obtain ⟨hf, -, -, hc⟩ := partnerLost_joining (d := d) (by omega) (by omega)
      exact ⟨hf, hc⟩

end Sys2Proof.Machine
end

section
/-! ## The pair link and the pairing checks -/
namespace Sys2Proof.Machine

/-! ### Reports of the link that end -/

/-- From device a to device b a condition is no longer there, and nothing else changes. -/
structure Ended (src : Nat) (a b : Dev) : Prop where
  frame : ∃ f, b = { a with fc := f } ∧ f.todo = a.fc.todo
  cond : bit b.fc.cond src = false
  others : ∀ n, n ≠ src → bit b.fc.cond n = bit a.fc.cond n

theorem deassert_ended (d : Dev) {src : Nat} (hs : src = 163 ∨ src = 164) : Ended src d (deassert d src) := by
  have hplain : ∀ e : Dev, sourceEnded e src = e := by
    intro e
    unfold sourceEnded
    rw [if_neg (by omega), if_neg (by omega), if_neg (by omega), if_neg (by simp; omega)]
  obtain ⟨hframe, hcond, hothers⟩ := deassert_plain (d := d) hplain
  exact ⟨⟨_, hframe, rfl⟩, hcond, hothers⟩

theorem Ended.og {src : Nat} {a b : Dev} (h : Ended src a b) (i c : Nat) : Machine.og b i c = Machine.og a i c := by
  obtain ⟨f, hf, -⟩ := h.frame
  rw [hf]; rfl

theorem Ended.todo {src : Nat} {a b : Dev} (h : Ended src a b) : b.fc.todo = a.fc.todo := by
  obtain ⟨f, hf, ht⟩ := h.frame
  rw [hf]; exact ht

theorem Ended.pair {src : Nat} {a b : Dev} (h : Ended src a b) : b.pair = a.pair := by
  obtain ⟨f, hf, -⟩ := h.frame
  rw [hf]

theorem Ended.out {src : Nat} {a b : Dev} (h : Ended src a b) : b.out = a.out := by
  obtain ⟨f, hf, -⟩ := h.frame
  rw [hf]

theorem Ended.time {src : Nat} {a b : Dev} (h : Ended src a b) : b.time = a.time := by
  obtain ⟨f, hf, -⟩ := h.frame
  rw [hf]

/-! ### Pair enable (R323, R339) -/

theorem exec_pairEnableWrite (on : Bool) (s : State) : exec (.pairEnableWrite on) s =
    .next (upd s (fun d => answer (pairEnable d (b2n on)).1 (pairEnable d (b2n on)).2)) := rfl

/-- Linking begins. -/
def linkingBegun (d : Dev) : Dev :=
  dropOutputs (setPairState { d with pair := { d.pair with linkAt := d.time.local_, heardHead := false, dropped := false } } 1)

/-- The unit is Unpaired again. -/
def unpaired (d : Dev) : Dev :=
  takeOutputs (os (os (os (os (deassert (deassert (setPairState (noAnnounce (forgetPartner d)) 0) 163) 164) 0x3C01 9 0) 0x3C01 2 0) 0x3C01 3 0) 0x3C01 4 0)

theorem pairEnable_refused {d : Dev} {v : Nat} (h : writeStatus d 0x3C00 1 v ≠ .ok) : pairEnable d v = (d, writeStatus d 0x3C00 1 v) := by
  unfold pairEnable
  rw [writeNum_refused h]
  split
  · next heq => exact absurd (Prod.mk.inj heq).2 h
  · rfl

theorem pairEnable_on {d : Dev} (h : writeStatus d 0x3C00 1 1 = .ok) (h0 : pairState d = 0) : pairEnable d 1 = (linkingBegun (os d 0x3C00 1 1), .ok) := by
  have hstate : pairState (os d 0x3C00 1 1) = 0 := (pairState_os _ _ (by decide)).trans h0
  unfold pairEnable
  rw [writeNum_taken h]
  dsimp only
  rw [if_pos rfl, if_pos hstate]
  rfl

theorem pairEnable_off {d : Dev} (h : writeStatus d 0x3C00 1 0 = .ok) (h0 : pairState d ≠ 0) : pairEnable d 0 = (unpaired (os d 0x3C00 1 0), .ok) := by
  have hstate : pairState (os d 0x3C00 1 0) ≠ 0 := by rw [pairState_os _ _ (by decide)]; exact h0
  unfold pairEnable
  rw [writeNum_taken h]
  dsimp only
  rw [if_neg (by decide), if_neg hstate]
  rfl

/-- What an Unpaired unit shows. -/
theorem unpaired_spec (d : Dev) : pairState (unpaired d) = 0 ∧ og (unpaired d) 0x3C00 1 = og d 0x3C00 1 ∧ pairRole (unpaired d) = 0 ∧
    og (unpaired d) 0x3C01 3 = 0 ∧ og (unpaired d) 0x3C01 9 = 0 ∧ (unpaired d).pair.driving = true := by
  obtain ⟨a, ha⟩ : ∃ a, a = setPairState (noAnnounce (forgetPartner d)) 0 := ⟨_, rfl⟩
  have hstate : og a 0x3C01 1 = 0 := by rw [ha]; exact pairState_setPairState ..
  have henable : og a 0x3C00 1 = og d 0x3C00 1 := by
    rw [ha, ((setPairState_noted _ 0).kept.og (by decide) : og (setPairState (noAnnounce (forgetPartner d)) 0) 0x3C00 1 = _)]
    show og (os (os (os d 0x3C01 5 0) 0x3C01 6 0) 0x3C01 8 0) 0x3C00 1 = _
    rw [og_os, if_neg (by decide), og_os, if_neg (by decide), og_os, if_neg (by decide)]
  have h163 := deassert_ended a (src := 163) (.inl rfl)
  have h164 := deassert_ended (deassert a 163) (src := 164) (.inr rfl)
  have hog : ∀ i c, og (deassert (deassert a 163) 164) i c = og a i c := fun i c => (h164.og i c).trans (h163.og i c)
  have heq : unpaired d = takeOutputs (os (os (os (os (deassert (deassert a 163) 164) 0x3C01 9 0) 0x3C01 2 0) 0x3C01 3 0) 0x3C01 4 0) := by rw [ha]; rfl
  generalize deassert (deassert a 163) 164 = b at hog heq
  obtain ⟨e, he, hnoted⟩ := takeOutputs_spec (os (os (os (os b 0x3C01 9 0) 0x3C01 2 0) 0x3C01 3 0) 0x3C01 4 0)
  have hog' : ∀ i c, i < 0x8000 → okey i c ∉ dropKeys → c < 256 →
      og (unpaired d) i c = og (os (os (os (os b 0x3C01 9 0) 0x3C01 2 0) 0x3C01 3 0) 0x3C01 4 0) i c := by
    intro i c hi hk hc
    rw [heq, he]
    exact hnoted.og i c hi hk hc
  unfold pairState pairRole
  rw [hog' 0x3C01 1 (by decide) (by decide) (by decide), hog' 0x3C00 1 (by decide) (by decide) (by decide), hog' 0x3C01 2 (by decide) (by decide) (by decide),
    hog' 0x3C01 3 (by decide) (by decide) (by decide), hog' 0x3C01 9 (by decide) (by decide) (by decide)]
  simp (disch := decide) only [og_os, if_neg, if_true]
  exact ⟨(hog _ _).trans hstate, (hog _ _).trans henable, trivial, trivial, trivial, by rw [heq, he]⟩

section
variable {s : State} (hs : Settled s)

theorem pairEnable_enables (hw : writeStatus s.dev 0x3C00 1 1 = .ok) (h0 : pairState s.dev = 0) : Leaves (.pairEnableWrite true) s (fun d =>
        pairState d = 1 ∧ og d 0x3C00 1 = 1 ∧ d.pair.driving = false ∧ d.pair.linkAt = s.dev.time.local_ ∧ d.out = s.dev.out ++ [said .ok]) := by
  obtain ⟨a, ha⟩ : ∃ a : Dev, a = { os s.dev 0x3C00 1 1 with
      pair := { (os s.dev 0x3C00 1 1).pair with linkAt := (os s.dev 0x3C00 1 1).time.local_, heardHead := false, dropped := false } } := ⟨_, rfl⟩
  have hpair : a.pair.linkAt = s.dev.time.local_ := by rw [ha]; rfl
  have hout : a.out = s.dev.out := by rw [ha]; rfl
  have henable : og a 0x3C00 1 = 1 := by
    rw [ha]
    show og (os s.dev 0x3C00 1 1) 0x3C00 1 = 1
    exact og_os_same ..
  have heq : linkingBegun (os s.dev 0x3C00 1 1) = dropOutputs (setPairState a 1) := by rw [ha]; rfl
  have hon : pairEnable s.dev (b2n true) = _ := pairEnable_on hw h0
  refine .of_upd (exec_pairEnableWrite true s) ?_
  rw [hon]
  dsimp only
  rw [heq]
  refine ⟨pairState_setPairState a 1, ((setPairState_noted a 1).kept.og (by decide)).trans henable, rfl, ?_, ?_⟩
  · show (setPairState a 1).pair.linkAt = _
    rw [pair_setPairState, hpair]
  · show (setPairState a 1).out ++ _ = _
    rw [out_setPairState, hout]
    rfl

theorem pairEnable_disables (hw : writeStatus s.dev 0x3C00 1 0 = .ok) (h0 : pairState s.dev ≠ 0) : Leaves (.pairEnableWrite false) s (fun d =>
        pairState d = 0 ∧ og d 0x3C00 1 = 0 ∧ pairRole d = 0 ∧ og d 0x3C01 3 = 0 ∧ og d 0x3C01 9 = 0 ∧ d.pair.driving = true ∧ said .ok ∈ d.out) := by
  have hoff : pairEnable s.dev (b2n false) = _ := pairEnable_off hw h0
  obtain ⟨hstate, henable, hrole, h3, h9, hdriving⟩ := unpaired_spec (os s.dev 0x3C00 1 0)
  refine .of_upd (exec_pairEnableWrite false s) ?_
  rw [hoff]
  exact ⟨hstate, henable.trans (og_os_same ..), hrole, h3, h9, hdriving, List.mem_append_right _ (List.mem_singleton.2 rfl)⟩

include hs in
theorem pairEnable_answers (on : Bool) (hw : writeStatus s.dev 0x3C00 1 (b2n on) ≠ .ok) :
    Answers (.pairEnableWrite on) s (writeStatus s.dev 0x3C00 1 (b2n on)) :=
  .answered hs (exec_pairEnableWrite on s) (pairEnable_refused hw)
end

/-! ### The pairing checks (R324) -/

/-- What the checks write beside the pair state's cause. -/
def checkKeys : List Nat := okey 0x3C01 1 :: okey 0x3C01 0x0B :: dropKeys

/-- From device a to device b the pairing was checked: the pair state, the cause and what was logged. -/
structure PairChecked (a b : Dev) : Prop where
  pair : b.pair = a.pair
  out : b.out = a.out
  time : b.time = a.time
  kept : ObjsKept a b checkKeys
  todo : ∀ r ∈ a.fc.todo, r ∈ b.fc.todo
  cond : ∀ n, n ≠ 185 → bit b.fc.cond n = bit a.fc.cond n

namespace PairChecked
theorem refl (a : Dev) : PairChecked a a := ⟨rfl, rfl, rfl, .refl a _, fun _ h => h, fun _ _ => rfl⟩
theorem trans {a b c : Dev} (h : PairChecked a b) (h' : PairChecked b c) : PairChecked a c :=
  ⟨h'.pair.trans h.pair, h'.out.trans h.out, h'.time.trans h.time, h.kept.trans h'.kept, fun r hr => h'.todo r (h.todo r hr),
    fun n hn => (h'.cond n hn).trans (h.cond n hn)⟩
theorem cause (a : Dev) (v : Nat) : PairChecked a (os a 0x3C01 0x0B v) :=
  ⟨rfl, rfl, rfl, (ObjsKept.refl a _).os _ _ _ (by decide), fun _ h => h, fun _ _ => rfl⟩
theorem reported (a : Dev) (src cause datum : Nat) : PairChecked a (later a src cause datum) :=
  ⟨rfl, rfl, rfl, (ObjsKept.refl a _).congr rfl, fun _ h => List.mem_append_left _ h, fun _ _ => rfl⟩
theorem state (a : Dev) (st : Nat) : PairChecked a (setPairState a st) := by
  have hn := setPairState_noted a st
  exact ⟨pair_setPairState .., out_setPairState .., time_setPairState .., hn.kept.mono (by decide), fun r hr => todo_setPairState _ _ hr, hn.cond⟩
end PairChecked

theorem decideLinking_checked (d : Dev) : PairChecked d (decideLinking d) ∧ (pairState d ≠ 1 → decideLinking d = d) := by
  unfold decideLinking
  split
  · split
    · next h =>
      refine ⟨?_, fun hne => absurd h (by simp [hne])⟩
      split
      · exact .state d 2
      · exact .state d 3
    · exact ⟨.refl d, fun _ => rfl⟩
  · exact ⟨.refl d, fun _ => rfl⟩

theorem checkPairing_checked (d : Dev) : PairChecked d (checkPairing d) := by
  unfold checkPairing
  split
  · exact .refl d
  · dsimp only
    split
    · exact (PairChecked.cause d _).trans (decideLinking_checked _).1
    · split
      · exact (PairChecked.cause d _).trans (.reported ..)
      · exact .cause d _

/-- A check that fails in Linking. -/
theorem checkPairing_fails {d : Dev} {m : PairingMsg} {c : Nat} (hm : d.pair.partner = some m) (h1 : pairState d = 1) (hc : pairingCheck d m = c) (h0 : c ≠ 0) :
    checkPairing d = later (os d 0x3C01 0x0B c) 161 0 c := by
  have hstate : pairState (os d 0x3C01 0x0B c) = 1 := (pairState_os _ _ (by decide)).trans h1
  unfold checkPairing
  rw [hm]
  dsimp only
  rw [hc, if_neg h0, if_pos hstate]

theorem length_pairingBytes (d : Dev) : (pairingBytes d).length = 42 := by
  have htags : ((List.range 12).flatMap (fun g => leBytes 2 (mouldTag (mould d g)))).length = 24 := by
    generalize (fun g => mouldTag (mould d g)) = f
    simp [List.range_succ]
  unfold pairingBytes
  simp only [List.length_append, length_leBytes, htags]

/-- The unit's pairing message leaves on a free link. -/
theorem sendPairing_free {d : Dev} (h : LinkFree d) : sendPair d 0x0E (pairingBytes d) = linkSent d 0x0E 42 (pairingBytes d) := by
  rw [sendPair_free h (by rw [length_pairingBytes]; decide), length_pairingBytes]

theorem linkSent_out (d : Dev) (typ size : Nat) (b : Bytes) : ∃ c, Msg.pair typ (d.time.k % 2 ^ 32) c ∈ (linkSent d typ size b).out :=
  ⟨b, List.mem_append_right _ (List.mem_singleton.2 rfl)⟩

/-! ### The lanes (R325) -/

/-- The lanes shown, with the reports that their state gives. -/
def lanesShown (d : Dev) (n : Nat) : Dev :=
  if n = 15 then deassert (deassert (os d 0x3C01 9 n) 164) 163 else later (deassert (os d 0x3C01 9 n) 164) 163 0 n

theorem exec_pairLinkUp (lanes : BitVec 4) (s : State) : exec (.pairLinkUp lanes) s = .next (upd s (fun d =>
    if pairState d = 0 || !ready d 31 || !(lanes.toNat = 15 || lanes.toNat = 3 || lanes.toNat = 12) then d
    else if pairState (lanesShown d lanes.toNat) = 1 then checkPairing (enterLinking (lanesShown d lanes.toNat) 1) else lanesShown d lanes.toNat)) := rfl

theorem lanesShown_spec (d : Dev) (n : Nat) : og (lanesShown d n) 0x3C01 9 = n ∧ pairState (lanesShown d n) = pairState d ∧
    (lanesShown d n).pair = d.pair ∧ (lanesShown d n).out = d.out ∧ (lanesShown d n).time = d.time ∧ bit (lanesShown d n).fc.cond 164 = false ∧
    (n = 15 → bit (lanesShown d n).fc.cond 163 = false) ∧ (n ≠ 15 → rep 163 0 n 0 ∈ (lanesShown d n).fc.todo) := by
  have h164 := deassert_ended (os d 0x3C01 9 n) (src := 164) (.inr rfl)
  obtain ⟨e, he⟩ : ∃ e, e = deassert (os d 0x3C01 9 n) 164 := ⟨_, rfl⟩
  rw [← he] at h164
  have h9 : og e 0x3C01 9 = n := (h164.og _ _).trans (og_os_same ..)
  have hstate : pairState e = pairState d := (h164.og _ _).trans (pairState_os _ _ (by decide))
  unfold lanesShown
  rw [← he]
  split
  · have h163 := deassert_ended e (src := 163) (.inl rfl)
    exact ⟨(h163.og _ _).trans h9, (h163.og _ _).trans hstate, h163.pair.trans h164.pair, h163.out.trans h164.out, h163.time.trans h164.time,
      (h163.others 164 (by decide)).trans h164.cond, fun _ => h163.cond, fun h => absurd ‹_› h⟩
  · exact ⟨h9, hstate, h164.pair, h164.out, h164.time, h164.cond, fun h => absurd h ‹_›, fun _ => List.mem_append_right _ (List.mem_singleton.2 rfl)⟩

section
variable {lanes : BitVec 4} {lane : Fin 4} {s : State}

theorem pairLinkUp_idles (hs : Settled s) (h : pairState s.dev = 0 ∨ ready s.dev 31 = false ∨ lanes ≠ 15 ∧ lanes ≠ 3 ∧ lanes ≠ 12) :
    Idles (.pairLinkUp lanes) s := by
  refine .of_upd hs (exec_pairLinkUp lanes s) (if_pos ?_)
  obtain h | h | ⟨h1, h2, h3⟩ := h
  · simp [h]
  · simp [h]
  · have h1' : lanes.toNat ≠ 15 := fun he => h1 (BitVec.eq_of_toNat_eq he)
    have h2' : lanes.toNat ≠ 3 := fun he => h2 (BitVec.eq_of_toNat_eq he)
    have h3' : lanes.toNat ≠ 12 := fun he => h3 (BitVec.eq_of_toNat_eq he)
    simp [h1', h2', h3']

theorem pairLinkUp_trains (h0 : pairState s.dev ≠ 0) (hr : ready s.dev 31 = true) (hl : lanes = 15 ∨ lanes = 3 ∨ lanes = 12) :
    Leaves (.pairLinkUp lanes) s (fun d =>
        og d 0x3C01 9 = lanes.toNat ∧ bit d.fc.cond 164 = false ∧ (lanes = 15 → bit d.fc.cond 163 = false) ∧
        (lanes ≠ 15 → rep 163 0 lanes.toNat 0 ∈ d.fc.todo) ∧
        (pairState s.dev = 1 → s.dev.pair.queue = [] → s.dev.pair.used ≤ 5000 → ∃ b, .pair 0x0E (s.dev.time.k % 2 ^ 32) b ∈ d.out) ∧
        (pairState s.dev ≠ 1 → pairState d = pairState s.dev ∧ d.out = s.dev.out)) := by
  obtain ⟨h9, hstate, hpair, hout, htime, h164, h163, hrep⟩ := lanesShown_spec s.dev lanes.toNat
  have hne : lanes.toNat ≠ 0 := by obtain rfl | rfl | rfl := hl <;> decide
  have h15 : lanes = 15 ↔ lanes.toNat = 15 := ⟨fun h => by rw [h]; rfl, fun h => BitVec.eq_of_toNat_eq h⟩
  refine .of_upd (exec_pairLinkUp lanes s) ?_
  rw [if_neg (by obtain rfl | rfl | rfl := hl <;> simp [h0, hr])]
  generalize lanesShown s.dev lanes.toNat = e at h9 hstate hpair hout htime h164 h163 hrep
  split
  · next h1 =>
    have hent := enterLinking_linkOnly e 1
    have hchk := checkPairing_checked (enterLinking e 1)
    refine ⟨?_, ?_, fun h => ?_, fun h => ?_, fun _ hq hu => ?_, fun h => absurd (hstate.symm.trans h1) h⟩
    · rw [hchk.kept.og (by decide), hent.og, h9]
    · rw [hchk.cond _ (by decide), hent.fc, h164]
    · rw [hchk.cond _ (by decide), hent.fc, h163 (h15.1 h)]
    · exact hchk.todo _ (by rw [hent.fc]; exact hrep (mt h15.2 h))
    · have hfree : LinkFree e := ⟨by rw [h9]; exact hne, by rw [hpair]; exact hq, by rw [hpair]; exact hu⟩
      have hsent : enterLinking e 1 = linkSent e 0x0E 42 (pairingBytes e) := (if_pos rfl).trans (sendPairing_free hfree)
      rw [hchk.out, hsent, ← htime]
      exact linkSent_out ..
  · next h1 =>
    exact ⟨h9, h164, fun h => h163 (h15.1 h), fun h => hrep (mt h15.2 h), fun h => absurd (hstate.trans h) h1, fun _ => ⟨hstate, hout⟩⟩

theorem exec_pairLaneLoss (lane : Fin 4) (s : State) : exec (.pairLaneLoss lane) s = .next (upd s (fun d =>
    if !bit (og d 0x3C01 9) lane.val then d
    else if og d 0x3C01 9 = 15 then later (os d 0x3C01 9 (if lane.val < 2 then 12 else 3)) 163 0 lane.val
    else partnerLost (later (deassert (os d 0x3C01 9 0) 163) 164 0 lane.val))) := rfl

theorem pairLaneLoss_idles (hs : Settled s) (h : bit (og s.dev 0x3C01 9) lane.val = false) : Idles (.pairLaneLoss lane) s :=
  .of_upd hs (exec_pairLaneLoss lane s) (if_pos (by simp [h]))

theorem pairLaneLoss_half (hs : Settled s) (h : og s.dev 0x3C01 9 = 15) : Leaves (.pairLaneLoss lane) s (fun d =>
    og d 0x3C01 9 = (if lane.val < 2 then 12 else 3) ∧ d.fc.todo = [rep 163 0 lane.val 0] ∧ pairState d = pairState s.dev) := by
  have hbit : bit 15 lane.val = true := by
    revert lane
    decide
  refine .of_upd (exec_pairLaneLoss lane s) ?_
  rw [if_neg (by rw [h, hbit]; simp), if_pos h]
  refine ⟨og_os_same .., ?_, pairState_os _ _ (by decide)⟩
  show s.dev.fc.todo ++ _ = _
  rw [hs.1]
  rfl

theorem pairLaneLoss_down (hb : bit (og s.dev 0x3C01 9) lane.val = true) (h : og s.dev 0x3C01 9 ≠ 15) : Leaves (.pairLaneLoss lane) s (fun d =>
        og d 0x3C01 9 = 0 ∧ og d 0x3C01 5 = 0 ∧ og d 0x3C01 6 = 0 ∧ d.pair.last = none ∧ d.pair.queue = [] ∧ rep 164 0 lane.val 0 ∈ d.fc.todo ∧
        (2 ≤ pairState s.dev → s.dev.pair.last ≠ none → rep 165 0 0 0 ∈ d.fc.todo) ∧ (pairState s.dev = 2 ∨ pairState s.dev = 7 → pairState d = 2) ∧
        (3 ≤ pairState s.dev → pairState s.dev ≤ 6 → pairState d = 1) ∧ (pairState s.dev ≤ 1 → pairState d = pairState s.dev)) := by
  have h163 := deassert_ended (os s.dev 0x3C01 9 0) (src := 163) (.inl rfl)
  obtain ⟨e, he⟩ : ∃ e, e = later (deassert (os s.dev 0x3C01 9 0) 163) 164 0 lane.val := ⟨_, rfl⟩
  have h9 : og e 0x3C01 9 = 0 := by
    rw [he]
    exact (h163.og _ _).trans (og_os_same ..)
  have hstate : pairState e = pairState s.dev := by
    rw [he]
    exact (h163.og _ _).trans (pairState_os _ _ (by decide))
  have hpair : e.pair = s.dev.pair := by
    rw [he]
    exact h163.pair
  have hrep : rep 164 0 lane.val 0 ∈ e.fc.todo := by
    rw [he]
    exact List.mem_append_right _ (List.mem_singleton.2 rfl)
  refine .of_upd (exec_pairLaneLoss lane s) ?_
  rw [if_neg (by rw [hb]; simp), if_neg h, ← he]
  obtain ⟨hf, -⟩ := partnerLost_forgets e
  refine ⟨hf.link.trans h9, hf.claim, hf.state, hf.last, hf.queue h9, hf.todo _ hrep, fun h2 hl => ?_, fun h27 => ?_, fun h3 h6 => ?_, fun h1 => ?_⟩
  · rw [← hpair] at hl
    by_cases hsole : pairState e = 2 ∨ pairState e = 7
    · exact (partnerLost_sole hsole).2.2.1 hl
    · exact (partnerLost_joining (by omega) (by omega)).2.2.1 hl
  · exact (partnerLost_sole (by rw [hstate]; exact h27)).2.1
  · exact (partnerLost_joining (by omega) (by omega)).2.1
  · exact (partnerLost_linking (by omega)).2.1.trans hstate

/-! ### Linking without a partner (R323) -/

theorem exec_linkingTimeout (s : State) : exec .linkingTimeout s = .next (upd s (fun d =>
    if pairState d = 1 && !pairUp d && !d.pair.heardHead && d.pair.linkAt + 1000000000 * unitNs ≤ d.time.local_ then setPairState d 2 else d)) := rfl

theorem linkingTimeout_sole (h1 : pairState s.dev = 1) (h9 : og s.dev 0x3C01 9 = 0) (hh : s.dev.pair.heardHead = false)
    (ht : s.dev.pair.linkAt + 1000000000 * unitNs ≤ s.dev.time.local_) :
    Leaves .linkingTimeout s (fun d => pairState d = 2 ∧ d.pair = s.dev.pair ∧ d.out = s.dev.out) := by
  refine .of_upd (exec_linkingTimeout s) ?_
  rw [if_pos (by simp [h1, pairUp, h9, hh, ht])]
  exact ⟨pairState_setPairState .., pair_setPairState .., out_setPairState ..⟩

theorem linkingTimeout_idles (hs : Settled s) (h : pairState s.dev ≠ 1 ∨ og s.dev 0x3C01 9 ≠ 0 ∨ s.dev.pair.heardHead = true) :
    Idles .linkingTimeout s := by
  refine .of_upd hs (exec_linkingTimeout s) (if_neg ?_)
  obtain h | h | h := h <;> simp [h, pairUp]
end

end Sys2Proof.Machine
end

section
/-! ## Messages of the pairing: pairing messages, beacons, delays and adopted values -/
namespace Sys2Proof.Machine

section
variable {s : State}

/-! ### The pairing message (R324) -/

/-- The partner's pairing message as it is kept. -/
def partnerNoted (d : Dev) (m : PairingMsg) : Dev :=
  os (os { d with pair := { d.pair with partner := some m } } 0x3C00 5 m.serial.toNat) 0x3C01 4 m.claim.toNat

/-- What a pairing message does. -/
def messageTaken (d : Dev) (m : PairingMsg) : Dev :=
  if pairState d = 0 || !pairUp d then d
  else if pairState (partnerNoted d m) = 1 then checkPairing (partnerNoted d m)
  else sendPair (os (partnerNoted d m) 0x3C01 0x0B (pairingCheck (partnerNoted d m) m)) 0x0E (pairingBytes (partnerNoted d m))

theorem exec_pairingMessage (m : PairingMsg) (s : State) : exec (.pairingMessage true m) s = .next (upd s (fun d => messageTaken d m)) := rfl

theorem partnerNoted_spec (d : Dev) (m : PairingMsg) : (partnerNoted d m).pair = { d.pair with partner := some m } ∧
    og (partnerNoted d m) 0x3C00 5 = m.serial.toNat ∧ og (partnerNoted d m) 0x3C01 4 = m.claim.toNat ∧ (partnerNoted d m).fc = d.fc ∧
    (∀ i c, okey i c ≠ okey 0x3C00 5 → okey i c ≠ okey 0x3C01 4 → og (partnerNoted d m) i c = og d i c) ∧ (partnerNoted d m).time = d.time := by
  have hkept : ∀ i c, okey i c ≠ okey 0x3C00 5 → okey i c ≠ okey 0x3C01 4 → og (partnerNoted d m) i c = og d i c := by
    intro i c h5 h4
    unfold partnerNoted
    rw [og_os, if_neg h4, og_os, if_neg h5]
    rfl
  refine ⟨rfl, ?_, og_os_same .., rfl, hkept, rfl⟩
  unfold partnerNoted
  rw [og_os, if_neg (by decide), og_os_same]

/-- The first two checks. -/
theorem pairingCheck_first (d : Dev) (m : PairingMsg) : (m.claim.toNat = og d 0x3C00 2 → pairingCheck d m = 1) ∧
    (m.claim.toNat ≠ og d 0x3C00 2 → m.version.toNat ≠ og d 0x3C00 3 → pairingCheck d m = 2) := by
  unfold pairingCheck baseClaim
  dsimp only
  exact ⟨fun h => if_pos h, fun h hv => (if_neg h).trans (if_pos (by simpa using hv))⟩

/-- What is left by a check of the message whose cause is c. -/
theorem checked_message {e : Dev} {m : PairingMsg} (hm : e.pair.partner = some m) :
    ∃ f, PairChecked e f ∧ f = (if pairState e = 1 then checkPairing e else os e 0x3C01 0x0B (pairingCheck e m)) ∧
    (pairingCheck e m ≠ 0 → og f 0x3C01 0x0B = pairingCheck e m ∧ pairState f = pairState e ∧
      (pairState e = 1 → f.fc.todo = e.fc.todo ++ [rep 161 0 (pairingCheck e m) 0])) := by
  refine ⟨_, ?_, rfl, fun h0 => ?_⟩
  · split
    · exact checkPairing_checked e
    · exact .cause e _
  · split
    · next h1 =>
      rw [checkPairing_fails hm h1 rfl h0]
      exact ⟨og_os_same .., pairState_os _ _ (by decide), fun _ => rfl⟩
    · next h1 => exact ⟨og_os_same .., pairState_os _ _ (by decide), fun h => absurd h h1⟩

theorem pairingMessage_checks {m : PairingMsg} (hs : Settled s) (h0 : pairState s.dev ≠ 0) (h9 : og s.dev 0x3C01 9 ≠ 0) :
    Leaves (.pairingMessage true m) s (fun d => d.pair.partner = some m ∧ og d 0x3C00 5 = m.serial.toNat ∧ og d 0x3C01 4 = m.claim.toNat ∧
          (m.claim.toNat = og s.dev 0x3C00 2 → og d 0x3C01 0x0B = 1 ∧ pairState d = pairState s.dev ∧ (pairState s.dev = 1 → d.fc.todo = [rep 161 0 1 0])) ∧
          (m.claim.toNat ≠ og s.dev 0x3C00 2 → m.version.toNat ≠ og s.dev 0x3C00 3 → og d 0x3C01 0x0B = 2 ∧ pairState d = pairState s.dev) ∧
          (pairState s.dev ≠ 1 → LinkFree s.dev → ∃ b, .pair 0x0E (s.dev.time.k % 2 ^ 32) b ∈ d.out)) := by
  obtain ⟨hpair, h5, h4, hfc, hkept, htime⟩ := partnerNoted_spec s.dev m
  obtain ⟨e, he⟩ : ∃ e, e = partnerNoted s.dev m := ⟨_, rfl⟩
  rw [← he] at hpair h5 h4 hfc hkept htime
  have hstate : pairState e = pairState s.dev := hkept _ _ (by decide) (by decide)
  obtain ⟨hclaim, hversion⟩ := pairingCheck_first e m
  rw [hkept 0x3C00 2 (by decide) (by decide)] at hclaim hversion
  rw [hkept 0x3C00 3 (by decide) (by decide)] at hversion
  obtain ⟨f, hchk, hf, hfails⟩ := checked_message (e := e) (m := m) (by rw [hpair])
  obtain ⟨g, hg⟩ : ∃ g, g = if pairState e = 1 then f else sendPair f 0x0E (pairingBytes e) := ⟨_, rfl⟩
  have hsent : (∃ q u w, g.pair = { f.pair with queue := q, used := u, usedFwd := w }) ∧ (∀ i c, og g i c = og f i c) ∧ g.fc = f.fc := by
    rw [hg]
    split
    · exact ⟨⟨_, _, _, rfl⟩, fun _ _ => rfl, rfl⟩
    · have hl := sendPair_linkOnly f 0x0E (pairingBytes e)
      exact ⟨hl.pair, hl.og, hl.fc⟩
  obtain ⟨⟨q, u, w, hgp⟩, hgog, hgfc⟩ := hsent
  have htaken : messageTaken s.dev m = g := by
    unfold messageTaken
    rw [if_neg (by simp [h0, pairUp, h9]), ← he, hg, hf]
    by_cases h1 : pairState e = 1
    · rw [if_pos h1, if_pos h1, if_pos h1]
    · rw [if_neg h1, if_neg h1, if_neg h1]
  refine .of_upd (exec_pairingMessage m s) ?_
  rw [htaken]
  refine ⟨?_, ?_, ?_, fun hc => ?_, fun hc hv => ?_, fun h1 hfree => ?_⟩
  · rw [hgp, hchk.pair, hpair]
  · rw [hgog, hchk.kept.og (by decide), h5]
  · rw [hgog, hchk.kept.og (by decide), h4]
  · obtain ⟨hB, hst, htodo⟩ := hfails (by rw [hclaim hc]; decide)
    rw [hclaim hc] at hB htodo
    refine ⟨(hgog _ _).trans hB, ((hgog _ _).trans hst).trans hstate, fun h1 => ?_⟩
    rw [hgfc, htodo (hstate.trans h1), hfc, hs.1]
    rfl
  · obtain ⟨hB, hst, -⟩ := hfails (by rw [hversion hc hv]; decide)
    rw [hversion hc hv] at hB
    exact ⟨(hgog _ _).trans hB, ((hgog _ _).trans hst).trans hstate⟩
  · obtain ⟨hup, hqueue, hused⟩ := hfree
    have hffree : LinkFree f := ⟨by rw [hchk.kept.og (by decide), hkept _ _ (by decide) (by decide)]; exact hup, by rw [hchk.pair, hpair]; exact hqueue,
      by rw [hchk.pair, hpair]; exact hused⟩
    rw [hg, if_neg (by rw [hstate]; exact h1), sendPair_free hffree (by rw [length_pairingBytes]; decide), ← htime, ← hchk.time]
    exact linkSent_out ..

/-! ### Beacons (R317, R326) -/

/-- The beacon as it is kept, with what begins anew at a change of the partner's state. -/
def beaconNoted (d : Dev) (k : BitVec 64) (t0 : BitVec 112) (claim st mode : BitVec 8) : Dev :=
  let was := og d 0x3C01 6
  let d := os (os d 0x3C01 5 claim.toNat) 0x3C01 6 st.toNat
  let d := { d with pair := { d.pair with last := some ⟨k.toNat, t0.toNat, claim.toNat, st.toNat, mode.toNat⟩, beaconIn := true, missed := 0 } }
  let d := if st.toNat = 4 && was != 4 then { d with pair := { d.pair with differ := List.range unitCount, found := [], checked := 0, digestAt := 0, debt := 0 } } else d
  if st.toNat != was then { d with pair := { d.pair with fullServe := [] } } else d

theorem exec_beacon (k : BitVec 64) (t0 : BitVec 112) (claim st mode : BitVec 8) (s : State) : exec (.beacon true k t0 claim st mode) s =
    .next (upd s (fun d =>
      if pairState d = 0 || !pairUp d then d
      else
        let e := decideLinking (beaconNoted d k t0 claim st mode)
        if pairRole e = 2 && (pairedSegs e).length != 0 then steerFollower e else e)) := rfl

theorem beaconNoted_spec (d : Dev) (k : BitVec 64) (t0 : BitVec 112) (claim st mode : BitVec 8) :
    (∀ i c, og (beaconNoted d k t0 claim st mode) i c = og (os (os d 0x3C01 5 claim.toNat) 0x3C01 6 st.toNat) i c) ∧
    (beaconNoted d k t0 claim st mode).pair.missed = 0 ∧ (beaconNoted d k t0 claim st mode).pair.beaconIn = true ∧
    (beaconNoted d k t0 claim st mode).pair.last = some ⟨k.toNat, t0.toNat, claim.toNat, st.toNat, mode.toNat⟩ := by
  unfold beaconNoted
  dsimp only
  split <;> split <;> exact ⟨fun _ _ => rfl, rfl, rfl, rfl⟩

theorem steerFollower_free (d : Dev) : ∃ v, steerFollower d = os { d with free := d.free + 1 } 0x3410 0x0B v := ⟨_, rfl⟩

theorem beacon_taken {k : BitVec 64} {t0 : BitVec 112} {claim pst pmode : BitVec 8} (h0 : pairState s.dev ≠ 0) (h9 : og s.dev 0x3C01 9 ≠ 0) :
    Leaves (.beacon true k t0 claim pst pmode) s (fun d => og d 0x3C01 5 = claim.toNat ∧ og d 0x3C01 6 = pst.toNat ∧ d.pair.missed = 0 ∧
          d.pair.beaconIn = true ∧ d.pair.last = some ⟨k.toNat, t0.toNat, claim.toNat, pst.toNat, pmode.toNat⟩ ∧
          (pairState s.dev ≠ 1 → pairState d = pairState s.dev)) := by
  obtain ⟨hog, hmissed, hin, hlast⟩ := beaconNoted_spec s.dev k t0 claim pst pmode
  obtain ⟨e, he⟩ : ∃ e, e = beaconNoted s.dev k t0 claim pst pmode := ⟨_, rfl⟩
  rw [← he] at hog hmissed hin hlast
  have h5 : og e 0x3C01 5 = claim.toNat := by rw [hog, og_os, if_neg (by decide), og_os_same]
  have h6 : og e 0x3C01 6 = pst.toNat := by rw [hog, og_os_same]
  have hstate : pairState e = pairState s.dev := by
    unfold pairState
    rw [hog, og_os, if_neg (by decide), og_os, if_neg (by decide)]
  obtain ⟨hchk, hstay⟩ := decideLinking_checked e
  refine .of_upd (exec_beacon k t0 claim pst pmode s) ?_
  rw [if_neg (by simp [h0, pairUp, h9]), ← he]
  dsimp only
  obtain ⟨f, hf⟩ : ∃ f, f = decideLinking e := ⟨_, rfl⟩
  rw [← hf] at hchk hstay ⊢
  have hshown : og f 0x3C01 5 = claim.toNat ∧ og f 0x3C01 6 = pst.toNat ∧ f.pair.missed = 0 ∧ f.pair.beaconIn = true ∧
      f.pair.last = some ⟨k.toNat, t0.toNat, claim.toNat, pst.toNat, pmode.toNat⟩ ∧ (pairState s.dev ≠ 1 → pairState f = pairState s.dev) := by
    refine ⟨(hchk.kept.og (by decide)).trans h5, (hchk.kept.og (by decide)).trans h6, ?_, ?_, ?_, fun h1 => ?_⟩
    · rw [hchk.pair, hmissed]
    · rw [hchk.pair, hin]
    · rw [hchk.pair, hlast]
    · rw [hstay (by rw [hstate]; exact h1), hstate]
  split
  · obtain ⟨v, hv⟩ := steerFollower_free f
    have hkept : ∀ c, og (os { f with free := f.free + 1 } 0x3410 0x0B v) 0x3C01 c = og f 0x3C01 c := by
      intro c
      rw [og_os, if_neg (by unfold okey; omega)]
      rfl
    rw [hv]
    unfold pairState
    rw [hkept, hkept, hkept]
    exact hshown
  · exact hshown

/-! ### The link delay (R336) -/

theorem exec_pairDelay (response : Bool) (t a : BitVec 112) (s : State) : exec (.pairDelay true response t a) s = .next (upd s (fun d =>
    if pairState d = 0 || !pairUp d then d
    else if !response then sendPair d 0x0F (leBytes 1 1 ++ leBytes 14 t.toNat)
    else match d.pair.delayT with
      | none => d
      | some sent => os { d with pair := { d.pair with delayT := none } } 0x3C01 0x0A (min 1000 ((timeUnits a.toNat - sent) / 2 / 65536)))) := rfl

theorem pairMessages_idle (hs : Settled s) (h : pairState s.dev = 0 ∨ og s.dev 0x3C01 9 = 0) (m : PairingMsg) (k : BitVec 64) (t0 t1 : BitVec 112)
    (claim pst pmode : BitVec 8) (on : Bool) :
    Idles (.pairingMessage true m) s ∧ Idles (.beacon true k t0 claim pst pmode) s ∧ Idles (.pairDelay true on t0 t1) s := by
  have hoff : (pairState s.dev = 0 || !pairUp s.dev) = true := by
    obtain h | h := h <;> simp [h, pairUp]
  exact ⟨.of_upd hs (exec_pairingMessage m s) (if_pos hoff), .of_upd hs (exec_beacon k t0 claim pst pmode s) (if_pos hoff),
    .of_upd hs (exec_pairDelay on t0 t1 s) (if_pos hoff)⟩

section
variable (hs : Settled s) (h0 : pairState s.dev ≠ 0) (h9 : og s.dev 0x3C01 9 ≠ 0) {t0 t1 : BitVec 112}
include hs h0 h9

theorem pairDelay_answers (hfree : LinkFree s.dev) : Does (.pairDelay true false t0 t1) s (fun d =>
    d.out = s.dev.out ++ [.pair 15 (s.dev.time.k % 2 ^ 32) (leBytes 1 1 ++ leBytes 14 t0.toNat)] ∧
    d = { s.dev with pair := { s.dev.pair with used := s.dev.pair.used + 29 }, out := d.out }) := by
  have hlen : (leBytes 1 1 ++ leBytes 14 t0.toNat).length = 15 := by simp
  refine .of_eq (d := linkSent s.dev 15 15 (leBytes 1 1 ++ leBytes 14 t0.toNat)) (exec_pairDelay false t0 t1 s) ?_ hs.1 hs.2 ⟨rfl, rfl⟩
  rw [if_neg (by simp [h0, pairUp, h9]), if_pos (by rfl), sendPair_free hfree (by rw [hlen]; decide), hlen]

theorem pairDelay_measures {sent : Nat} (hd : s.dev.pair.delayT = some sent) : Does (.pairDelay true true t0 t1) s (fun d =>
    og d 0x3C01 0x0A = min 1000 ((timeUnits t1.toNat - sent) / 2 / 65536) ∧
    d.pair = { s.dev.pair with delayT := none } ∧ ObjsKept s.dev d [okey 0x3C01 0x0A]) := by
  obtain ⟨v, hv⟩ : ∃ v, v = min 1000 ((timeUnits t1.toNat - sent) / 2 / 65536) := ⟨_, rfl⟩
  rw [← hv]
  refine .of_eq (d := os { s.dev with pair := { s.dev.pair with delayT := none } } 0x3C01 0x0A v) (exec_pairDelay true t0 t1 s) ?_ hs.1 hs.2
    ⟨og_os_same .., rfl, ?_⟩
  · rw [if_neg (by simp [h0, pairUp, h9]), if_neg (by simp), hd, hv]
  · exact ObjsKept.os (b := { s.dev with pair := { s.dev.pair with delayT := none } }) ((ObjsKept.refl s.dev _).congr rfl) _ _ _ (by simp)

theorem pairDelay_idles (hd : s.dev.pair.delayT = none) : Idles (.pairDelay true true t0 t1) s := by
  refine .of_upd hs (exec_pairDelay true t0 t1 s) ?_
  rw [if_neg (by simp [h0, pairUp, h9]), if_neg (by simp), hd]
end

/-! ### Missing beacons (R322, R323) -/

/-- One more beacon is missing. -/
def oneMissed (d : Dev) : Dev := bump { d with pair := { d.pair with missed := d.pair.missed + 1 } } 0x3C02 9

/-- The drivers are taken when nobody else may drive. -/
def missNoted (d : Dev) : Dev :=
  if 2 ≤ d.pair.missed + 1 && (oneMissed d).pair.heardLines.length = 0 && og (oneMissed d) 0x3C01 3 != 0 then takeOutputs (oneMissed d) else oneMissed d

theorem exec_beaconMissing (s : State) : exec .beaconMissing s = .next (upd s (fun d =>
    if pairState d = 0 || d.pair.last.isNone || d.pair.beaconIn then d
    else if 4 ≤ d.pair.missed + 1 then partnerLost (missNoted d) else missNoted d)) := rfl

theorem beaconMissing_idles (hs : Settled s) (h : pairState s.dev = 0 ∨ s.dev.pair.last = none ∨ s.dev.pair.beaconIn = true) : Idles .beaconMissing s := by
  refine .of_upd hs (exec_beaconMissing s) (if_pos ?_)
  obtain h | h | h := h <;> simp [h]

theorem missNoted_spec {d : Dev} (hc : og d 0x3C02 9 < 0xFFFFFFFE) : og (missNoted d) 0x3C02 9 = og d 0x3C02 9 + 1 ∧
    (missNoted d).pair.missed = d.pair.missed + 1 ∧ (missNoted d).pair.last = d.pair.last ∧ pairState (missNoted d) = pairState d := by
  have hone : oneMissed d = os { d with pair := { d.pair with missed := d.pair.missed + 1 } } 0x3C02 9 (og d 0x3C02 9 + 1) := bump_counts hc
  have hstate : pairState (oneMissed d) = pairState d := by
    rw [hone]
    exact pairState_os _ _ (by decide)
  have hcount : og (oneMissed d) 0x3C02 9 = og d 0x3C02 9 + 1 := by rw [hone, og_os_same]
  have hpair : (oneMissed d).pair = { d.pair with missed := d.pair.missed + 1 } := by rw [hone]; rfl
  unfold missNoted
  split
  · obtain ⟨e, he, hn⟩ := takeOutputs_spec (oneMissed d)
    have hpe : e.pair = (oneMissed d).pair := by rw [hn.frame]
    rw [he]
    refine ⟨(hn.og 0x3C02 9 (by decide) (by decide) (by decide)).trans hcount, ?_, ?_, (hn.og 0x3C01 1 (by decide) (by decide) (by decide)).trans hstate⟩
    · show e.pair.missed = _
      rw [hpe, hpair]
    · show e.pair.last = _
      rw [hpe, hpair]
  · exact ⟨hcount, by rw [hpair], by rw [hpair], hstate⟩

theorem beaconMissing_counts {b : Beacon} (h0 : pairState s.dev ≠ 0) (hl : s.dev.pair.last = some b) (hin : s.dev.pair.beaconIn = false)
    (hc : og s.dev 0x3C02 9 < 0xFFFFFFFE) : Leaves .beaconMissing s (fun d =>
        og d 0x3C02 9 = og s.dev 0x3C02 9 + 1 ∧ d.pair.missed = s.dev.pair.missed + 1 ∧
        (s.dev.pair.missed < 3 → pairState d = pairState s.dev ∧ d.pair.last = some b) ∧
        (3 ≤ s.dev.pair.missed → d.pair.last = none ∧ (pairState s.dev = 2 ∨ pairState s.dev = 7 → pairState d = 2 ∧ rep 165 0 0 0 ∈ d.fc.todo))) := by
  obtain ⟨hcount, hmissed, hlast, hstate⟩ := missNoted_spec hc
  refine .of_upd (exec_beaconMissing s) ?_
  rw [if_neg (by simp [h0, hl, hin])]
  generalize missNoted s.dev = e at hcount hmissed hlast hstate
  split
  · obtain ⟨hf, hkept⟩ := partnerLost_forgets e
    refine ⟨hkept.trans hcount, hf.missed.trans hmissed, fun h => absurd h (by omega), fun _ => ⟨hf.last, fun h => ?_⟩⟩
    obtain ⟨-, h2, hrep, -⟩ := partnerLost_sole (d := e) (by rw [hstate]; exact h)
    exact ⟨h2, hrep (by rw [hlast, hl]; simp)⟩
  · exact ⟨hcount, hmissed, fun _ => ⟨hstate, hlast.trans hl⟩, fun h => absurd h (by omega)⟩

/-! ### Pair commands (R324, R342) -/

theorem exec_repeatPairingChecks (s : State) : exec .repeatPairingChecks s = .next (upd s (fun d => answer (pairCommand d 2).1 (pairCommand d 2).2)) := rfl

theorem exec_adoptConfiguration (vals : List WrItem) (s : State) : exec (.adoptConfiguration vals) s = .next (upd s (fun d =>
    if !ready d 31 then answer d .notReady
    else if pairState d = 1 && mode d = 2 then answer (vals.foldl adoptValue d) .ok
    else answer d .state)) := rfl

section
variable (hs : Settled s) {vals : List WrItem}
include hs

theorem pairCommands_notReady (hr : ready s.dev 31 = false) :
    Answers (.adoptConfiguration vals) s .notReady ∧ Answers .repeatPairingChecks s .notReady ∧ Answers .release s .notReady := by
  have hn : (!ready s.dev 31) = true := by simp [hr]
  have hcommand : ∀ v, pairCommand s.dev v = (s.dev, .notReady) := fun v => if_pos hn
  exact ⟨.of_upd hs (exec_adoptConfiguration vals s) (if_pos hn), .answered hs (exec_repeatPairingChecks s) (hcommand 2),
    .answered hs (exec_release s) (hcommand 1)⟩

theorem adopt_state (hr : ready s.dev 31 = true) (h : pairState s.dev ≠ 1 ∨ mode s.dev ≠ 2) : Answers (.adoptConfiguration vals) s .state := by
  refine .of_upd hs (exec_adoptConfiguration vals s) ?_
  rw [if_neg (by simp [hr]), if_neg (by obtain h | h := h <;> simp [h])]

theorem repeat_state (hr : ready s.dev 31 = true) (h1 : pairState s.dev ≠ 1) : Answers .repeatPairingChecks s .state := by
  refine .answered hs (exec_repeatPairingChecks s) (g := fun d => pairCommand d 2) ?_
  unfold pairCommand
  dsimp only
  rw [if_neg (by simp [hr]), if_neg (by decide), if_pos rfl, if_neg h1]

variable (hr : ready s.dev 31 = true) (h1 : pairState s.dev = 1)
include hr h1

omit hs in
theorem adopt_one (hm : mode s.dev = 2) (v : WrItem) : exec (.adoptConfiguration [v]) s = .next (upd s (fun _ => answer (adoptValue s.dev v) .ok)) := by
  refine (exec_adoptConfiguration [v] s).trans (congrArg (fun d => Host.Outcome.next (upd s (fun _ => d))) ?_)
  rw [if_neg (by simp [hr]), if_pos (by simp [h1, hm])]
  rfl

theorem adopt_value (hm : mode s.dev = 2) {v : WrItem} {r : Row} (hrow : findRow v.idx.toNat v.sub.toNat = some r) (hb : r.ty.isBlob = false)
    (ha : adopts v.idx.toNat v.sub.toNat = true) (hmould : isMould (okey v.idx.toNat v.sub.toNat) = false) :
    Does (.adoptConfiguration [v]) s (fun d => og d v.idx.toNat v.sub.toNat = ofLe v.val ∧
            Writes s.dev d [okey v.idx.toNat v.sub.toNat] [said .ok]) := by
  have hadopt : adoptValue s.dev v = os s.dev v.idx.toNat v.sub.toNat (ofLe v.val) := by
    unfold adoptValue
    dsimp only
    rw [if_neg (by simp [ha]), if_neg (ne_true_of_eq_false hmould), hrow]
    exact if_neg (ne_true_of_eq_false hb)
  refine .of_eq (d := answer (os s.dev v.idx.toNat v.sub.toNat (ofLe v.val)) .ok) (adopt_one hr h1 hm v) (by rw [hadopt]) hs.1 hs.2
    ⟨og_os_same .., rfl, ?_⟩
  have hk : ObjsKept s.dev (os s.dev v.idx.toNat v.sub.toNat (ofLe v.val)) [okey v.idx.toNat v.sub.toNat] := (ObjsKept.refl s.dev _).os _ _ _ (by simp)
  exact hk

theorem adopt_none (hm : mode s.dev = 2) {v : WrItem} (ha : adopts v.idx.toNat v.sub.toNat = false) : Answers (.adoptConfiguration [v]) s .ok := by
  refine .of_upd hs (adopt_one hr h1 hm v) ?_
  unfold adoptValue
  dsimp only
  rw [if_pos (by simp [ha])]

omit hs in
theorem repeat_checks (hfree : LinkFree s.dev) :
    Leaves .repeatPairingChecks s (fun d => said .ok ∈ d.out ∧ ∃ b, .pair 0x0E (s.dev.time.k % 2 ^ 32) b ∈ d.out) := by
  have hcommand : pairCommand s.dev 2 = (checkPairing (sendPair s.dev 0x0E (pairingBytes s.dev)), .ok) := by
    unfold pairCommand
    dsimp only
    rw [if_neg (by simp [hr]), if_neg (by decide), if_pos rfl, if_pos h1]
  have hchk := checkPairing_checked (sendPair s.dev 0x0E (pairingBytes s.dev))
  refine .of_upd (exec_repeatPairingChecks s) ?_
  rw [hcommand]
  obtain ⟨b, hb⟩ := linkSent_out s.dev 0x0E 42 (pairingBytes s.dev)
  refine ⟨List.mem_append_right _ (List.mem_singleton.2 rfl), b, List.mem_append_left _ ?_⟩
  rw [hchk.out, sendPairing_free hfree]
  exact hb
end
end

end Sys2Proof.Machine
end

section
/-! ## How a pair agrees on its inputs -/
namespace Sys2Proof.Machine

section
variable {s : State}

/-! ### Fingerprints and blocks (R328) -/

/-- A fingerprint of the leader. -/
def printTaken (d : Dev) (e : BitVec 8 × BitVec 8 × BitVec 32) : Dev :=
  if 8 ≤ e.1.toNat || !pairedSeg d e.1.toNat then d
  else blockCheck { d with pair := { d.pair with
    prints := tput (fun _ => 2 ^ 32) d.pair.prints (blockKey e.1.toNat e.2.1.toNat) e.2.2.toNat } } e.1.toNat e.2.1.toNat

theorem exec_fingerprint (es : List (BitVec 8 × BitVec 8 × BitVec 32)) (s : State) : exec (.fingerprint true es) s = .next (upd s (fun d =>
    if pairRole d != 2 then d else es.foldl printTaken d)) := rfl

/-- What a block request is answered with. -/
def requestServed (d : Dev) (e : BitVec 8 × BitVec 8) : Dev :=
  if e.2.toNat = 0 then
    (if og d 0x3C01 9 = 15 && d.pair.fullServe.length < 2 && !d.pair.fullServe.contains e.1.toNat && e.1.toNat < 8 then
       { d with pair := { d.pair with fullServe := d.pair.fullServe ++ [e.1.toNat] } } else d)
  else match (hd d e.1.toNat e.2.toNat).rx with
    | some b => sendBlock d e.1.toNat e.2.toNat false b
    | none => d

theorem exec_blockRequest (es : List (BitVec 8 × BitVec 8)) (s : State) : exec (.blockRequest true es) s = .next (upd s (fun d =>
    if pairRole d != 1 then d else es.foldl requestServed d)) := rfl

theorem exec_exclusions (inTime : Bool) (es : List (BitVec 8 × BitVec 8)) (s : State) : exec (.exclusions true inTime es) s = .next (upd s (fun d =>
    if pairRole d = 1 && inTime then { d with pair := { d.pair with excl := some (es.map (fun e => (e.1.toNat, e.2.toNat))) } } else d)) := rfl

/-- A block of the running cycle. -/
def blockTaken (d : Dev) (g j : Nat) (data : Bytes) : Dev :=
  setHd { d with pair := { d.pair with prints := tput (fun _ => 2 ^ 32) d.pair.prints (blockKey g j) (crc32c data) } } g j
    { hd d g j with rx := some data, replyReady := bit (rd data 0 2) 4, flags := rd data 0 2 }

theorem exec_block (g : Seg) (j : BitVec 8) (cyc : BitVec 32) (data : Bytes) (s : State) : exec (.block true g j cyc data) s = .next (upd s (fun d =>
    if pairRole d != 2 || 8 ≤ g.val || !pairedSeg d g.val || cyc.toNat != d.time.k % 2 ^ 32 || d.time.kc = d.time.k ||
        data.length != 2 + nodeWinBytes (mould d g.val) j.toNat then d
    else blockTaken d g.val j.toNat data)) := rfl

/-- The leader's state of a pulse input. -/
def pulseTaken (d : Dev) (e : PulseImage) : Dev :=
  os (os (os (os (os (setPls d e.num.val e.st) (0x3D10 + e.num.val) 1 e.pe.toNat) (0x3D10 + e.num.val) 2 e.te.toNat) (0x3D10 + e.num.val) 3 e.vrep.toNat)
    (0x3D10 + e.num.val) 4 e.status.toNat) (0x3D10 + e.num.val) 5 e.tooth.toNat

theorem exec_localInputs (es : List PulseImage) (s : State) : exec (.localInputs true es) s = .next (upd s (fun d =>
    if pairRole d != 2 then d else es.foldl pulseTaken d)) := rfl

theorem follower_idles (hs : Settled s) (h : pairRole s.dev ≠ 2) (ps : List (BitVec 8 × BitVec 8 × BitVec 32)) (g : Seg) (j : BitVec 8) (cyc : BitVec 32)
    (data : Bytes) (pis : List PulseImage) :
    Idles (.fingerprint true ps) s ∧ Idles (.block true g j cyc data) s ∧ Idles (.localInputs true pis) s :=
  ⟨.of_upd hs (exec_fingerprint ps s) (if_pos (by simp [h])), .of_upd hs (exec_block g j cyc data s) (if_pos (by simp [h])),
    .of_upd hs (exec_localInputs pis s) (if_pos (by simp [h]))⟩

theorem leader_idles (hs : Settled s) (h : pairRole s.dev ≠ 1) (es : List (BitVec 8 × BitVec 8)) (inTime : Bool) :
    Idles (.blockRequest true es) s ∧ Idles (.exclusions true inTime es) s :=
  ⟨.of_upd hs (exec_blockRequest es s) (if_pos (by simp [h])), .of_upd hs (exec_exclusions inTime es s) (if_neg (by simp [h]))⟩

/-- An entry of a table that is not the default is found. -/
theorem tget_some_map {d : Nat → Nat} {k : Nat} : ∀ {t : Table Nat}, tget d t k ≠ d k →
    tget (fun _ => none) (t.map (fun p => (p.1, some p.2))) k = some (tget d t k)
  | [], h => absurd rfl h
  | p :: t, h => by
    rw [List.map_cons]
    unfold tget at h ⊢
    by_cases hp : p.1 = k
    · rw [if_pos hp, if_pos hp]
    · rw [if_neg hp] at h
      rw [if_neg hp, if_neg hp]
      exact tget_some_map h

section
variable (hs : Settled s) {g : Seg} {j : BitVec 8} {fp : BitVec 32}

theorem segByte (g : Seg) : (BitVec.ofNat 8 g.val).toNat = g.val := by
  have := g.isLt
  simp
  omega

/-- The device with the leader's fingerprint of a block. -/
def printNoted (d : Dev) (g j fp : Nat) : Dev :=
  { d with pair := { d.pair with prints := tput (fun _ => 2 ^ 32) d.pair.prints (blockKey g j) fp } }

theorem fingerprint_one (hr : pairRole s.dev = 2) (hg : g.val < 8) (hp : pairedSeg s.dev g.val = true) :
    (if pairRole s.dev != 2 then s.dev else [(BitVec.ofNat 8 g.val, j, fp)].foldl printTaken s.dev) =
      blockCheck (printNoted s.dev g.val j.toNat fp.toNat) g.val j.toNat := by
  rw [if_neg (by simp [hr])]
  show printTaken s.dev (BitVec.ofNat 8 g.val, j, fp) = _
  unfold printTaken
  dsimp only
  rw [segByte, if_neg (by simp [hp]; omega)]
  rfl

theorem printNoted_print (d : Dev) (g j : Nat) (fp : BitVec 32) :
    tget (fun _ => 2 ^ 32) (printNoted d g j fp.toNat).pair.prints (blockKey g j) = fp.toNat := tget_tput_same ..

theorem blockCheck_noted (d : Dev) (g j : Nat) (fp : BitVec 32) : blockCheck (printNoted d g j fp.toNat) g j =
    if (hd d g j).rx.map crc32c = some fp.toNat || d.pair.requested.contains (blockKey g j) then printNoted d g j fp.toNat
    else sendPair (bump { printNoted d g j fp.toNat with
      pair := { (printNoted d g j fp.toNat).pair with requested := d.pair.requested ++ [blockKey g j] } } 0x3C02 6) 3 (leBytes 1 g ++ leBytes 1 j) := by
  have hlt : fp.toNat < 2 ^ 32 := fp.isLt
  have hfound := tget_some_map (t := (printNoted d g j fp.toNat).pair.prints) (d := fun _ => 2 ^ 32) (k := blockKey g j)
    (by rw [printNoted_print]; exact Nat.ne_of_lt hlt)
  rw [printNoted_print] at hfound
  unfold blockCheck
  rw [hfound]
  rfl

include hs
variable (hr : pairRole s.dev = 2) (hg : g.val < 8) (hp : pairedSeg s.dev g.val = true)
include hr hg hp

theorem fingerprint_agrees (hx : (hd s.dev g.val j.toNat).rx.map crc32c = some fp.toNat) :
    Does (.fingerprint true [(BitVec.ofNat 8 g.val, j, fp)]) s (fun d =>
          tget (fun _ => 2 ^ 32) d.pair.prints (blockKey g.val j.toNat) = fp.toNat ∧ Writes { s.dev with pair := { s.dev.pair with prints := d.pair.prints } } d [] []) := by
  have hnoted : blockCheck (printNoted s.dev g.val j.toNat fp.toNat) g.val j.toNat = printNoted s.dev g.val j.toNat fp.toNat := by
    rw [blockCheck_noted, if_pos (by simp [hx])]
  refine .of_eq (d := printNoted s.dev g.val j.toNat fp.toNat) (exec_fingerprint _ s) ?_ hs.1 hs.2
    ⟨printNoted_print .., ?_, fun _ _ => rfl⟩
  · rw [fingerprint_one hr hg hp, hnoted]
  · rw [List.append_nil]
    rfl

theorem fingerprint_requests (hx : (hd s.dev g.val j.toNat).rx.map crc32c ≠ some fp.toNat)
    (hq : s.dev.pair.requested.contains (blockKey g.val j.toNat) = false) (hc : og s.dev 0x3C02 6 < 0xFFFFFFFE) (hfree : LinkFree s.dev) :
    Does (.fingerprint true [(BitVec.ofNat 8 g.val, j, fp)]) s (fun d => tget (fun _ => 2 ^ 32) d.pair.prints (blockKey g.val j.toNat) = fp.toNat ∧
            d.pair.requested = s.dev.pair.requested ++ [blockKey g.val j.toNat] ∧ og d 0x3C02 6 = og s.dev 0x3C02 6 + 1 ∧
            d.out = s.dev.out ++ [.pair 3 (s.dev.time.k % 2 ^ 32) (leBytes 1 g.val ++ leBytes 1 j.toNat)]) := by
  obtain ⟨e, he⟩ : ∃ e : Dev, e = { printNoted s.dev g.val j.toNat fp.toNat with
    pair := { (printNoted s.dev g.val j.toNat fp.toNat).pair with requested := s.dev.pair.requested ++ [blockKey g.val j.toNat] } } := ⟨_, rfl⟩
  have hog : ∀ i c, og e i c = og s.dev i c := fun i c => by rw [he]; rfl
  have hprints : tget (fun _ => 2 ^ 32) e.pair.prints (blockKey g.val j.toNat) = fp.toNat := by rw [he]; exact printNoted_print ..
  have hreq : e.pair.requested = s.dev.pair.requested ++ [blockKey g.val j.toNat] := by rw [he]
  have hrest : e.fc = s.dev.fc ∧ e.power = s.dev.power ∧ e.out = s.dev.out ∧ e.time = s.dev.time ∧ e.pair.queue = s.dev.pair.queue ∧
      e.pair.used = s.dev.pair.used := by rw [he]; exact ⟨rfl, rfl, rfl, rfl, rfl, rfl⟩
  obtain ⟨hfc, hpw, hout, htime, hqueue, hused⟩ := hrest
  obtain ⟨f, hf⟩ : ∃ f, f = os e 0x3C02 6 (og s.dev 0x3C02 6 + 1) := ⟨_, rfl⟩
  have hbump : bump e 0x3C02 6 = f := by rw [bump_counts (by rw [hog]; exact hc), hog, hf]
  have hffree : LinkFree f := by
    obtain ⟨hup, hempty, hroom⟩ := hfree
    refine ⟨?_, ?_, ?_⟩
    · rw [hf, og_os, if_neg (by decide), hog]
      exact hup
    · rw [hf]
      exact hqueue.trans hempty
    · rw [hf]
      exact hused.le.trans hroom
  have hsent : blockCheck (printNoted s.dev g.val j.toNat fp.toNat) g.val j.toNat = linkSent f 3 2 (leBytes 1 g.val ++ leBytes 1 j.toNat) := by
    rw [blockCheck_noted, if_neg (by simp only [Bool.or_eq_true, decide_eq_true_eq, hq]; simpa using hx), ← he, hbump, sendPair_free hffree (by simp)]
    rfl
  refine .of_eq (d := linkSent f 3 2 (leBytes 1 g.val ++ leBytes 1 j.toNat)) (exec_fingerprint _ s) ?_ ?_ ?_ ⟨?_, ?_, ?_, ?_⟩
  · rw [fingerprint_one hr hg hp, hsent]
  · rw [hf]
    exact (congrArg (·.todo) hfc).trans hs.1
  · rw [hf]
    exact (congrArg (·.cleared) hpw).trans hs.2
  · rw [hf]
    exact hprints
  · rw [hf]
    exact hreq
  · show og f 0x3C02 6 = _
    rw [hf, og_os_same]
  · rw [hf, ← hout, ← htime]
    rfl
end

section
variable (hs : Settled s) {g : Seg} {j : BitVec 8}

theorem byte_ne_zero (h : j ≠ 0) : j.toNat ≠ 0 := fun he => h (BitVec.eq_of_toNat_eq he)

include hs

/-! #### The leader -/

theorem blockRequest_sends (hr : pairRole s.dev = 1) (hj : j ≠ 0) {data : Bytes} (hx : (hd s.dev g.val j.toNat).rx = some data) (hlen : data.length ≤ 900)
    (hfree : LinkFree s.dev) : Does (.blockRequest true [(BitVec.ofNat 8 g.val, j)]) s (fun d =>
            d.out = s.dev.out ++ [.pair 4 (s.dev.time.k % 2 ^ 32) (leBytes 1 g.val ++ leBytes 1 j.toNat ++ leBytes 2 data.length ++ data)] ∧
            d = { s.dev with pair := { s.dev.pair with used := s.dev.pair.used + (18 + data.length) }, out := d.out }) := by
  obtain ⟨b, hb⟩ : ∃ b, b = leBytes 1 g.val ++ leBytes 1 j.toNat ++ leBytes 2 data.length ++ data := ⟨_, rfl⟩
  have hserved : requestServed s.dev (BitVec.ofNat 8 g.val, j) = linkSent s.dev 4 (4 + data.length) b := by
    unfold requestServed
    dsimp only
    rw [if_neg (byte_ne_zero hj), segByte, hx]
    dsimp only
    rw [sendBlock, ← hb, link_free hfree b (by omega)]
  have hused : s.dev.pair.used + (14 + (4 + data.length)) = s.dev.pair.used + (18 + data.length) := by omega
  rw [← hb]
  refine .of_eq (d := linkSent s.dev 4 (4 + data.length) b) (exec_blockRequest _ s) ?_ hs.1 hs.2 ⟨rfl, ?_⟩
  · rw [if_neg (by simp [hr])]
    exact hserved
  · unfold linkSent
    rw [hused]
    rfl

theorem blockRequest_idles (hr : pairRole s.dev = 1) (hj : j ≠ 0) (hx : (hd s.dev g.val j.toNat).rx = none) :
    Idles (.blockRequest true [(BitVec.ofNat 8 g.val, j)]) s := by
  have hserved : requestServed s.dev (BitVec.ofNat 8 g.val, j) = s.dev := by
    unfold requestServed
    dsimp only
    rw [if_neg (byte_ne_zero hj), segByte, hx]
  refine .of_upd hs (exec_blockRequest _ s) ?_
  rw [if_neg (by simp [hr])]
  exact hserved

theorem blockRequest_full (hr : pairRole s.dev = 1) (hg : g.val < 8) (h9 : og s.dev 0x3C01 9 = 15) (hf : s.dev.pair.fullServe = []) :
    Does (.blockRequest true [(BitVec.ofNat 8 g.val, 0)]) s (fun d => d = { s.dev with pair := { s.dev.pair with fullServe := [g.val] } }) := by
  have hserved : requestServed s.dev (BitVec.ofNat 8 g.val, 0) = { s.dev with pair := { s.dev.pair with fullServe := [g.val] } } := by
    unfold requestServed
    dsimp only
    rw [if_pos (by rfl), segByte, hf, if_pos (by simp [h9, hg])]
    rfl
  refine .of_eq (d := { s.dev with pair := { s.dev.pair with fullServe := [g.val] } }) (exec_blockRequest _ s) ?_ hs.1 hs.2 rfl
  rw [if_neg (by simp [hr])]
  exact hserved

theorem exclusions_taken (hr : pairRole s.dev = 1) (es : List (BitVec 8 × BitVec 8)) : Does (.exclusions true true es) s (fun d =>
          d = { s.dev with pair := { s.dev.pair with excl := some (es.map (fun e => (e.1.toNat, e.2.toNat))) } }) := by
  refine .of_eq (d := { s.dev with pair := { s.dev.pair with excl := some (es.map (fun e => (e.1.toNat, e.2.toNat))) } }) (exec_exclusions true es s) ?_
    hs.1 hs.2 rfl
  rw [if_pos (by simp [hr])]

theorem exclusions_late (es : List (BitVec 8 × BitVec 8)) : Idles (.exclusions true false es) s :=
  .of_upd hs (exec_exclusions false es s) (if_neg (by simp))

/-! #### The follower -/

theorem block_enters (hr : pairRole s.dev = 2) (hg : g.val < 8) (hp : pairedSeg s.dev g.val = true) {cyc : BitVec 32} {data : Bytes}
    (hk : cyc.toNat = s.dev.time.k % 2 ^ 32) (hkc : s.dev.time.kc ≠ s.dev.time.k) (hlen : data.length = 2 + nodeWinBytes (mould s.dev g.val) j.toNat) :
    Does (.block true g j cyc data) s (fun d =>
          hd d g.val j.toNat = { hd s.dev g.val j.toNat with rx := some data, replyReady := bit (rd data 0 2) 4, flags := rd data 0 2 } ∧
          tget (fun _ => 2 ^ 32) d.pair.prints (blockKey g.val j.toNat) = crc32c data ∧ d.objs = s.dev.objs ∧ d.out = s.dev.out) := by
  refine .of_eq (d := blockTaken s.dev g.val j.toNat data) (exec_block g j cyc data s) ?_ hs.1 hs.2 ⟨?_, tget_tput_same .., rfl, rfl⟩
  · rw [if_neg]
    simp only [Bool.or_eq_true, not_or, bne_iff_ne, decide_eq_true_eq, Bool.not_eq_true']
    simp [hr, hp, hk, hkc, hlen]
    exact hg
  · unfold blockTaken
    rw [hd_setHd, if_pos rfl]

theorem block_late {cyc : BitVec 32} (data : Bytes) (h : cyc.toNat ≠ s.dev.time.k % 2 ^ 32 ∨ s.dev.time.kc = s.dev.time.k) :
    Idles (.block true g j cyc data) s := by
  refine .of_upd hs (exec_block g j cyc data s) (if_pos ?_)
  obtain h | h := h
  · have hk : (cyc.toNat != s.dev.time.k % 2 ^ 32) = true := bne_iff_ne.2 h
    rw [hk]
    simp
  · simp [h]

theorem localInputs_taken (hr : pairRole s.dev = 2) (pi : PulseImage) : Does (.localInputs true [pi]) s (fun d =>
        pls d pi.num.val = pi.st ∧ og d (0x3D10 + pi.num.val) 1 = pi.pe.toNat ∧
        og d (0x3D10 + pi.num.val) 2 = pi.te.toNat ∧ og d (0x3D10 + pi.num.val) 3 = pi.vrep.toNat ∧ og d (0x3D10 + pi.num.val) 4 = pi.status.toNat ∧
        og d (0x3D10 + pi.num.val) 5 = pi.tooth.toNat ∧ ObjsKept s.dev d ((List.range 5).map (fun i => okey (0x3D10 + pi.num.val) (i + 1)))) := by
  refine .of_eq (d := pulseTaken s.dev pi) (exec_localInputs [pi] s) ?_ hs.1 hs.2 ?_
  · rw [if_neg (by simp [hr])]
    rfl
  obtain ⟨e, he⟩ : ∃ e, e = setPls s.dev pi.num.val pi.st := ⟨_, rfl⟩
  have hpls : pls e pi.num.val = pi.st := by rw [he, pls_setPls, if_pos rfl]
  have hkept : ObjsKept s.dev e ((List.range 5).map (fun i => okey (0x3D10 + pi.num.val) (i + 1))) := by
    rw [he]
    exact (ObjsKept.refl s.dev _).congr rfl
  unfold pulseTaken
  rw [← he]
  generalize 0x3D10 + pi.num.val = o at hkept ⊢
  refine ⟨hpls, ?_, ?_, ?_, ?_, og_os_same .., ?_⟩
  · rw [og_os, if_neg (by unfold okey; omega), og_os, if_neg (by unfold okey; omega), og_os, if_neg (by unfold okey; omega), og_os,
      if_neg (by unfold okey; omega), og_os_same]
  · rw [og_os, if_neg (by unfold okey; omega), og_os, if_neg (by unfold okey; omega), og_os, if_neg (by unfold okey; omega), og_os_same]
  · rw [og_os, if_neg (by unfold okey; omega), og_os, if_neg (by unfold okey; omega), og_os_same]
  · rw [og_os, if_neg (by unfold okey; omega), og_os_same]
  · exact ((((hkept.os o 1 _ (by simp [List.range_succ])).os o 2 _ (by simp [List.range_succ])).os o 3 _ (by simp [List.range_succ])).os o 4 _
      (by simp [List.range_succ])).os o 5 _ (by simp [List.range_succ])
end
end

end Sys2Proof.Machine
end

section
/-! ## Field frames, forwarded items and digests of the partner -/
namespace Sys2Proof.Machine

section
variable {s : State}

/-! ### The partner's copy of a field frame (R329) -/

/-- What the partner's copy of a node frame does. -/
def fieldTaken (d : Dev) (l k : Nat) (hdr : Nat) (dev : Int) (body : Bytes) : Dev :=
  let g := lseg l
  let h := hd d g k
  if pairState d = 0 || !pairedSeg d g || !sending d g || !linePresent (mould d g) k || hdr % 8 != segCycle d g % 8 then d
  else
    let d := noteDeviation d g k (3 - receivingPair d l) dev (bit hdr 3)
    if frameClass dev = .out then d
    else if bits hdr 5 2 = 0 then
      (if body.length = 4 && (h.slot.isNone || pairRole d = 2) then takeSlot d g k (bit hdr 4) body else d)
    else if bits hdr 5 2 = 1 && body.length = 32 && (h.riser.isNone || pairRole d = 2) then
      setHd d g k { hd d g k with riser := some body }
    else d

theorem exec_fieldFrameMessage (l : Line) (k : FNode) (hdr : BitVec 8) (dev : BitVec 16) (body : Bytes) (s : State) :
    exec (.fieldFrameMessage true l k hdr dev body) s = .next (upd s (fun d => fieldTaken d l.val k.val hdr.toNat dev.toInt body)) := rfl

section
variable {l : Line} {kn : FNode} {hdr : BitVec 8} {dev : BitVec 16} {body : Bytes}

/-- The node's frame was on time. -/
def onTimeNoted (d : Dev) (g k : Nat) : Dev := setHd d g k { hd d g k with onTime := true }

variable (h0 : pairState s.dev ≠ 0) (hp : pairedSeg s.dev (lseg l.val) = true) (hsend : sending s.dev (lseg l.val) = true)
  (hpres : linePresent (mould s.dev (lseg l.val)) kn.val = true) (hcyc : hdr.toNat % 8 = segCycle s.dev (lseg l.val) % 8)
  (hkind : bits hdr.toNat 5 2 = 0) (hdev : dev.toInt.natAbs ≤ 320) (hbody : body.length = 4)
include h0 hp hsend hpres hcyc hkind hdev hbody

theorem fieldTaken_slot : fieldTaken s.dev l.val kn.val hdr.toNat dev.toInt body =
    if (hd s.dev (lseg l.val) kn.val).slot.isNone || pairRole s.dev = 2 then
      takeSlot (onTimeNoted s.dev (lseg l.val) kn.val) (lseg l.val) kn.val (bit hdr.toNat 4) body
    else onTimeNoted s.dev (lseg l.val) kn.val := by
  have hclass : frameClass dev.toInt = .onTime := if_pos hdev
  have hnote : ∀ p w, noteDeviation s.dev (lseg l.val) kn.val p dev.toInt w = onTimeNoted s.dev (lseg l.val) kn.val := fun p w => if_pos hclass
  have hrole : pairRole (onTimeNoted s.dev (lseg l.val) kn.val) = pairRole s.dev := rfl
  unfold fieldTaken
  dsimp only
  rw [if_neg (by simp [h0, hp, hsend, hpres, hcyc]), hnote, if_neg (by rw [hclass]; decide), if_pos hkind, hrole]
  simp only [hbody, decide_true, Bool.true_and]

theorem fieldFrame_enters (hs : Settled s) (hslot : (hd s.dev (lseg l.val) kn.val).slot = none ∨ pairRole s.dev = 2) :
    Does (.fieldFrameMessage true l kn hdr dev body) s (fun d =>
          (hd d (lseg l.val) kn.val).slot = some body ∧ (hd d (lseg l.val) kn.val).alarm = bit hdr.toNat 4 ∧ (hd d (lseg l.val) kn.val).onTime = true ∧
          d.objs = s.dev.objs ∧ d.segs = s.dev.segs) := by
  obtain ⟨e, he⟩ : ∃ e, e = onTimeNoted s.dev (lseg l.val) kn.val := ⟨_, rfl⟩
  have hon : (hd e (lseg l.val) kn.val).onTime = true := by rw [he, onTimeNoted, hd_setHd, if_pos rfl]
  have hrest : e.fc = s.dev.fc ∧ e.power = s.dev.power ∧ e.objs = s.dev.objs ∧ e.segs = s.dev.segs := by rw [he]; exact ⟨rfl, rfl, rfl, rfl⟩
  obtain ⟨hfc, hpw, hobjs, hsegs⟩ := hrest
  have htaken := fieldTaken_slot h0 hp hsend hpres hcyc hkind hdev hbody
  rw [if_pos (by obtain h | h := hslot <;> simp [h]), ← he] at htaken
  refine .of_eq (d := takeSlot e (lseg l.val) kn.val (bit hdr.toNat 4) body) (exec_fieldFrameMessage l kn hdr dev body s) htaken
    ((congrArg (·.todo) hfc).trans hs.1) ((congrArg (·.cleared) hpw).trans hs.2) ?_
  have hshown : hd (takeSlot e (lseg l.val) kn.val (bit hdr.toNat 4) body) (lseg l.val) kn.val = { hd e (lseg l.val) kn.val with
      slot := some body, alarm := bit hdr.toNat 4, needAbs := (hd e (lseg l.val) kn.val).needAbs || bit hdr.toNat 4 } := by
    rw [takeSlot, hd_setHd, if_pos rfl]
  rw [hshown]
  exact ⟨rfl, rfl, hon, hobjs, hsegs⟩

theorem fieldFrame_notes (hs : Settled s) (hslot : (hd s.dev (lseg l.val) kn.val).slot ≠ none) (hr : pairRole s.dev ≠ 2) :
    Does (.fieldFrameMessage true l kn hdr dev body) s (fun d =>
          hd d (lseg l.val) kn.val = { hd s.dev (lseg l.val) kn.val with onTime := true } ∧ d = { s.dev with heads := d.heads }) := by
  have htaken := fieldTaken_slot h0 hp hsend hpres hcyc hkind hdev hbody
  rw [if_neg (by simp [hslot, hr])] at htaken
  exact .of_eq (d := onTimeNoted s.dev (lseg l.val) kn.val) (exec_fieldFrameMessage l kn hdr dev body s) htaken hs.1 hs.2
    ⟨by rw [onTimeNoted, hd_setHd, if_pos rfl], rfl⟩
end

/-! ### Forwarded items (R330) -/

/-- What the partner's item does. -/
def itemTaken (d : Dev) (it : FwdItem) (len : Nat) (ke : Option (BitVec 64)) : Dev :=
  if pairState d = 0 || !pairUp d then d
  else match ke with
    | some k => { d with pair := { d.pair with items := d.pair.items ++ [(k.toNat, it)] } }
    | none =>
      if pairRole d = 1 then
        sendPair { d with pair := { d.pair with items := d.pair.items ++ [(forwardCycle d len, it)] } } 9 (leBytes 8 (forwardCycle d len) ++ it.encode)
      else d

theorem exec_forward (it : FwdItem) (len : BitVec 32) (ke : Option (BitVec 64)) (s : State) : exec (.forward true it len ke) s =
    .next (upd s (fun d => itemTaken d it len.toNat ke)) := rfl

section
variable (hs : Settled s) {it : FwdItem} {len : BitVec 32} (h0 : pairState s.dev ≠ 0) (h9 : og s.dev 0x3C01 9 ≠ 0)
include hs h0 h9

theorem forward_kept (ke : BitVec 64) : Does (.forward true it len (some ke)) s (fun d =>
    d = { s.dev with pair := { s.dev.pair with items := s.dev.pair.items ++ [(ke.toNat, it)] } }) :=
  .of_eq (d := { s.dev with pair := { s.dev.pair with items := s.dev.pair.items ++ [(ke.toNat, it)] } }) (exec_forward it len (some ke) s)
    (if_neg (by simp [h0, pairUp, h9])) hs.1 hs.2 rfl

theorem forward_assigned (hr : pairRole s.dev = 1) (hfree : LinkFree s.dev) (hlen : it.encode.length ≤ 900) : Does (.forward true it len none) s (fun d =>
          d.pair.items = s.dev.pair.items ++ [(forwardCycle s.dev len.toNat, it)] ∧ d.objs = s.dev.objs ∧
          d.out = s.dev.out ++ [.pair 9 (s.dev.time.k % 2 ^ 32) (leBytes 8 (forwardCycle s.dev len.toNat) ++ it.encode)]) := by
  obtain ⟨k, hk⟩ : ∃ k, k = forwardCycle s.dev len.toNat := ⟨_, rfl⟩
  obtain ⟨b, hb⟩ : ∃ b, b = leBytes 8 k ++ it.encode := ⟨_, rfl⟩
  obtain ⟨e, he⟩ : ∃ e : Dev, e = { s.dev with pair := { s.dev.pair with items := s.dev.pair.items ++ [(k, it)] } } := ⟨_, rfl⟩
  have hefree : LinkFree e := by rw [he]; exact hfree
  have htaken : itemTaken s.dev it len.toNat none = linkSent e 9 b.length b := by
    unfold itemTaken
    rw [if_neg (by simp [h0, pairUp, h9])]
    dsimp only
    rw [if_pos hr, ← hk, ← hb, ← he, sendPair_free hefree (by rw [hb, List.length_append, length_leBytes]; omega)]
  rw [← hk, ← hb]
  refine .of_eq (d := linkSent e 9 b.length b) (exec_forward it len none s) htaken ?_ ?_ ⟨?_, ?_, ?_⟩
  · rw [he]; exact hs.1
  · rw [he]; exact hs.2
  · rw [he]; rfl
  · rw [he]; rfl
  · rw [he]; rfl

theorem forward_idles (hr : pairRole s.dev ≠ 1) : Idles (.forward true it len none) s := by
  refine .of_upd hs (exec_forward it len none s) ?_
  unfold itemTaken
  rw [if_neg (by simp [h0, pairUp, h9])]
  exact if_neg hr
end

/-- The state with the items that are due taken off. -/
def itemsTaken (s : State) : State :=
  { s with dev := { s.dev with pair := { s.dev.pair with
      items := s.dev.pair.items.filter (fun i => s.dev.time.k < i.1)
      applied := s.dev.pair.applied ++ (s.dev.pair.items.filter (fun i => i.1 ≤ s.dev.time.k)).flatMap (fun i => i.2.encode) } } }

theorem exec_forwardedItemApply (s : State) : exec .forwardedItemApply s = .next
    ((s.dev.pair.items.filter (fun i => i.1 ≤ s.dev.time.k)).foldl (fun s i => applyItem s i.2) (itemsTaken s)) := rfl

section
variable {it : FwdItem} {k : Nat} (hi : s.dev.pair.items = [(k, it)])
include hi

theorem forwardedItem_waits (hk : s.dev.time.k < k) : Idles .forwardedItemApply s := by
  have hdue : s.dev.pair.items.filter (fun i => i.1 ≤ s.dev.time.k) = [] := by rw [hi]; simp; omega
  have hrest : s.dev.pair.items.filter (fun i => s.dev.time.k < i.1) = s.dev.pair.items := by rw [hi]; simp [hk]
  unfold Idles
  rw [exec_forwardedItemApply]
  unfold itemsTaken
  rw [hdue, hrest]
  simp only [List.flatMap_nil, List.append_nil, List.foldl_nil]

theorem forwardedItem_chills (hs : Settled s) {c : BitVec 64} (hk : k ≤ s.dev.time.k) (hc : it = .chill c) : Does .forwardedItemApply s (fun d =>
    d.pair.items = [] ∧ og d 0x3510 1 = c.toNat ∧ og d 0x3510 2 = 1 ∧ d.time.chillAt = some c.toNat ∧ d.pair.applied = s.dev.pair.applied ++ it.encode) := by
  have hdue : s.dev.pair.items.filter (fun i => i.1 ≤ s.dev.time.k) = [(k, it)] := by rw [hi]; simp [hk]
  have hrest : s.dev.pair.items.filter (fun i => s.dev.time.k < i.1) = [] := by rw [hi]; simp; omega
  obtain ⟨t, ht⟩ : ∃ t, t = itemsTaken s := ⟨_, rfl⟩
  have hpair : t.dev.pair.items = [] ∧ t.dev.pair.applied = s.dev.pair.applied ++ it.encode := by
    rw [ht]
    refine ⟨hrest, ?_⟩
    show s.dev.pair.applied ++ _ = _
    rw [hdue]
    simp
  have hts : Settled t := by rw [ht]; exact hs
  have hsame : ∀ d : Dev, ({ t with dev := d } : State) = { s with dev := d } := fun d => by rw [ht]; rfl
  have hexec : exec .forwardedItemApply s = .next (upd t (fun d => chillPend d c.toNat)) := by
    rw [exec_forwardedItemApply, hdue, ← ht, hc]
    rfl
  refine ⟨chillPend t.dev c.toNat, hexec.trans ?_, hpair.1, (chillPend_shown ..).1, (chillPend_shown ..).2, rfl, hpair.2⟩
  rw [upd_settled t _ (by exact hts.1) (by exact hts.2), hsame]
end

/-! ### Digests (R331, R332) -/

/-- What the partner's digests do. -/
def digestsTaken (d : Dev) (cyc inp outp : Nat) : Dev :=
  if pairState d = 0 then d
  else compareDigests { d with pair := { d.pair with
    theirs := (d.pair.theirs ++ [(d.time.k / 2 ^ 32 * 2 ^ 32 + cyc, inp, outp)]).drop (d.pair.theirs.length - 3) } } (d.time.k / 2 ^ 32 * 2 ^ 32 + cyc)

theorem exec_digests (cyc : BitVec 32) (inp outp : BitVec 64) (s : State) : exec (.digests true cyc inp outp) s =
    .next (upd s (fun d => digestsTaken d cyc.toNat inp.toNat outp.toNat)) := rfl

theorem partner_idles (hs : Settled s) (h0 : pairState s.dev = 0) (l : Line) (kn : FNode) (hdr : BitVec 8) (dev : BitVec 16) (body : Bytes) (it : FwdItem)
    (len cyc : BitVec 32) (inp outp : BitVec 64) :
    Idles (.fieldFrameMessage true l kn hdr dev body) s ∧ Idles (.forward true it len none) s ∧ Idles (.digests true cyc inp outp) s :=
  ⟨.of_upd hs (exec_fieldFrameMessage l kn hdr dev body s) (if_pos (by simp [h0])), .of_upd hs (exec_forward it len none s) (if_pos (by simp [h0])),
    .of_upd hs (exec_digests cyc inp outp s) (if_pos h0)⟩

/-- The device with the partner's digests of one cycle and no older ones. -/
def theirsNoted (d : Dev) (k i o : Nat) : Dev := { d with pair := { d.pair with theirs := [(k, i, o)] } }

/-- The device with the digests of cycle k compared. -/
def digestsDone (d : Dev) : Dev := { d with pair := { d.pair with mine := [], theirs := [] } }

theorem compareDigests_none {d : Dev} {k i o : Nat} (hm : d.pair.mine = []) : compareDigests (theirsNoted d k i o) k = theirsNoted d k i o := by
  have hmine : (theirsNoted d k i o).pair.mine = [] := hm
  unfold compareDigests
  rw [hmine]
  rfl

theorem compareDigests_one {d : Dev} {k i o a b : Nat} (hm : d.pair.mine = [(k, a, b)]) : compareDigests (theirsNoted d k i o) k =
    if !compares (pairState d) then digestsDone d
    else if a = i ∧ b = o then (if pairState d = 5 then os (digestsDone d) 0x3C01 7 (min 1024 (og d 0x3C01 7 + 1)) else digestsDone d)
    else diverge (digestsDone d) k := by
  have hmine : (theirsNoted d k i o).pair.mine = [(k, a, b)] := hm
  have htheirs : (theirsNoted d k i o).pair.theirs = [(k, i, o)] := rfl
  unfold compareDigests
  rw [hmine, htheirs]
  have hfind : ∀ x y, List.find? (fun p : Nat × Nat × Nat => decide (p.1 = k)) [(k, x, y)] = some (k, x, y) := fun x y => by simp
  have hrest : ∀ x y, List.filter (fun p : Nat × Nat × Nat => decide (k < p.1)) [(k, x, y)] = [] := fun x y => by simp
  rw [hfind, hfind]
  dsimp only
  rw [hrest, hrest]
  simp only [Prod.mk.injEq]
  rfl

section
variable (hs : Settled s) {cyc : BitVec 32} {inp outp : BitVec 64} {k : Nat} (h0 : pairState s.dev ≠ 0)
  (hk : k = s.dev.time.k / 2 ^ 32 * 2 ^ 32 + cyc.toNat) (ht : s.dev.pair.theirs = [])
include h0 hk ht

theorem digestsTaken_first : digestsTaken s.dev cyc.toNat inp.toNat outp.toNat = compareDigests (theirsNoted s.dev k inp.toNat outp.toNat) k := by
  unfold digestsTaken
  rw [if_neg h0, ← hk, ht]
  rfl

include hs

theorem digests_wait (hm : s.dev.pair.mine = []) : Does (.digests true cyc inp outp) s (fun d =>
    d.pair.theirs = [(k, inp.toNat, outp.toNat)] ∧ Writes { s.dev with pair := d.pair } d [] []) := by
  refine .of_eq (d := theirsNoted s.dev k inp.toNat outp.toNat) (exec_digests cyc inp outp s) ?_ hs.1 hs.2 ⟨rfl, ?_, fun _ _ => rfl⟩
  · rw [digestsTaken_first h0 hk ht, compareDigests_none hm]
  · rw [List.append_nil]
    rfl

theorem digests_count (hm : s.dev.pair.mine = [(k, inp.toNat, outp.toNat)]) (h5 : pairState s.dev = 5) : Does (.digests true cyc inp outp) s (fun d =>
          og d 0x3C01 7 = min 1024 (og s.dev 0x3C01 7 + 1) ∧ d.pair.mine = [] ∧ d.pair.theirs = [] ∧ pairState d = 5) := by
  refine .of_eq (d := os (digestsDone s.dev) 0x3C01 7 (min 1024 (og s.dev 0x3C01 7 + 1))) (exec_digests cyc inp outp s) ?_ hs.1 hs.2
    ⟨og_os_same .., rfl, rfl, ?_⟩
  · rw [digestsTaken_first h0 hk ht, compareDigests_one hm, if_neg (by rw [h5]; decide), if_pos ⟨rfl, rfl⟩, if_pos h5]
  · rw [pairState_os _ _ (by decide)]
    exact h5

theorem digests_diverge {a b : Nat} (hm : s.dev.pair.mine = [(k, a, b)]) (hne : a ≠ inp.toNat ∨ b ≠ outp.toNat) (h7 : pairState s.dev = 7)
    (hcl : og s.dev 0x3C01 3 < og s.dev 0x3C01 5) (hc : og s.dev 0x3C02 1 < 0xFFFFFFFE) : Leaves (.digests true cyc inp outp) s (fun d =>
            og d 0x3C02 1 = og s.dev 0x3C02 1 + 1 ∧ og d 0x3C01 0x0C = k ∧
            d.pair.dropAt = some (k + 2) ∧ d.pair.dropTo = 4 ∧ d.fc.todo = [rep 160 0 (k % 2 ^ 32) 0] ∧ pairState d = 7) := by
  obtain ⟨e, he⟩ : ∃ e, e = os (os (digestsDone s.dev) 0x3C02 1 (og s.dev 0x3C02 1 + 1)) 0x3C01 0x0C k := ⟨_, rfl⟩
  have hdone : ∀ i c, og (digestsDone s.dev) i c = og s.dev i c := fun _ _ => rfl
  have hother : ∀ i c, okey i c ≠ okey 0x3C02 1 → okey i c ≠ okey 0x3C01 0x0C → og e i c = og s.dev i c := by
    intro i c h1 hC
    rw [he, og_os, if_neg hC, og_os, if_neg h1, hdone]
  have hcount : og e 0x3C02 1 = og s.dev 0x3C02 1 + 1 := by rw [he, og_os, if_neg (by decide), og_os_same]
  have hshown : og e 0x3C01 0x0C = k := by rw [he, og_os_same]
  have htodo : e.fc.todo = [] := by rw [he]; exact hs.1
  have hstate : pairState e = 7 := (hother _ _ (by decide) (by decide)).trans h7
  have hdiv : diverge (digestsDone s.dev) k = { later e 160 0 (k % 2 ^ 32) with
      pair := { (later e 160 0 (k % 2 ^ 32)).pair with dropAt := some (k + 2), dropTo := 4 } } := by
    unfold diverge
    rw [bump_counts (by rw [hdone]; exact hc), hdone, ← he]
    have hlater : ∀ i c, og (later e 160 0 (k % 2 ^ 32)) i c = og e i c := fun _ _ => rfl
    have hstate' : pairState (later e 160 0 (k % 2 ^ 32)) = 7 := hstate
    dsimp only
    rw [hstate', hlater, hlater, if_neg (by decide), if_pos]
    rw [hother _ _ (by decide) (by decide), hother _ _ (by decide) (by decide)]
    simp [hcl]
  refine .of_upd (exec_digests cyc inp outp s) ?_
  rw [digestsTaken_first h0 hk ht, compareDigests_one hm, if_neg (by rw [h7]; decide), if_neg (by omega), hdiv]
  refine ⟨hcount, hshown, rfl, rfl, ?_, hstate⟩
  show e.fc.todo ++ _ = _
  rw [htodo]
  rfl
end
end

/-- Settles O51: the link, the pairing checks, the beacons and every message of the agreement act as their rule says on the states it names. -/
theorem pairsLinkAndAgree : Obligations.PairsLinkAndAgree := by
  unfold Obligations.PairsLinkAndAgree
  constructor
  · intro on lanes lane m k t0 t1 claim pst pmode vals s hs
    refine ⟨pairEnable_answers hs on, pairEnable_enables, pairEnable_disables, pairLinkUp_idles hs, pairLinkUp_trains, pairLaneLoss_idles hs,
      pairLaneLoss_half hs, pairLaneLoss_down, linkingTimeout_sole, linkingTimeout_idles hs,
      fun h => pairMessages_idle hs h m k t0 t1 claim pst pmode on, fun h0 h9 => ⟨pairingMessage_checks hs h0 h9, beacon_taken h0 h9,
        fun hf => pairDelay_answers hs h0 h9 hf, fun sent hd => pairDelay_measures hs h0 h9 hd, fun hd => pairDelay_idles hs h0 h9 hd⟩,
      beaconMissing_idles hs, fun b h0 hl hin hc => beaconMissing_counts h0 hl hin hc, fun hr => pairCommands_notReady hs hr,
      fun hr h1 => ⟨adopt_state hs hr (.inl h1), repeat_state hs hr h1⟩, fun hr h1 => ⟨fun hm => adopt_state hs hr (.inr hm), ?_, ?_,
        fun hf => repeat_checks hr h1 hf⟩⟩
    · rintro v r hm rfl hrow hb ha hmould
      exact adopt_value hs hr h1 hm hrow hb ha hmould
    · rintro v hm rfl ha
      exact adopt_none hs hr h1 hm ha
  · intro g j fp cyc len data body inTime es ps l kn hdr dev pi pis it ke inp outp k s hs
    refine ⟨fun h => follower_idles hs h ps g j cyc data pis, fun h => leader_idles hs h es inTime, ?_, ?_, ?_, ?_, ?_,
      fun h0 => partner_idles hs h0 l kn hdr dev body it len cyc inp outp,
      fun h0 hp hsend hpres hcyc hkind hdev hbody => ⟨fieldFrame_enters h0 hp hsend hpres hcyc hkind hdev hbody hs,
        fieldFrame_notes h0 hp hsend hpres hcyc hkind hdev hbody hs⟩,
      fun h0 h9 => ⟨forward_kept hs h0 h9 ke, forward_assigned hs h0 h9, forward_idles hs h0 h9⟩,
      fun hi => ⟨forwardedItem_waits hi, fun c hk hc => forwardedItem_chills hi hs hk hc⟩,
      fun h0 hk ht => ⟨digests_wait hs h0 hk ht, digests_count hs h0 hk ht, fun a b hm hne h7 hcl hc => digests_diverge hs h0 hk ht hm hne h7 hcl hc⟩⟩
    · intro c hc
      refine badMessage_counts ?_ hs
      rcases hc with rfl | rfl | rfl | rfl | rfl | rfl | rfl | rfl <;> exact ⟨_, rfl⟩
    · rintro hr rfl hg hp
      exact ⟨fingerprint_agrees hs hr hg hp, fingerprint_requests hs hr hg hp⟩
    · intro hr
      refine ⟨?_, ?_, ?_, ?_⟩
      · rintro rfl hj
        exact ⟨blockRequest_sends hs hr hj, blockRequest_idles hs hr hj⟩
      · rintro rfl hg h9 hf
        exact blockRequest_full hs hr hg h9 hf
      · rintro rfl
        exact exclusions_taken hs hr es
      · rintro rfl
        exact exclusions_late hs es
    · exact fun hr hg hp => ⟨block_enters hs hr hg hp, block_late hs data⟩
    · rintro hr rfl
      exact localInputs_taken hs hr pi

end Sys2Proof.Machine
end

section
/-! ## What stays when values are loaded and blocks lose their readiness -/
namespace Sys2Proof.Machine

/-- The objects of the fault reactions and of the host link. -/
def StayIndex (i : Nat) : Prop := i = 0x2F00 ∨ 0x3900 ≤ i ∧ i < 0x39C0

/-- The byte-string objects of the moulds and of the session key. -/
def StayBlob (i : Nat) : Prop := i = 0x2F10 ∨ 0x3300 ≤ i ∧ i < 0x330C

/-- Reactions, moulds, host objects, the key and the course of a store or reload are as before, and no segment keeps a mould aside
that it did not keep before. -/
structure LoadKept (a b : Dev) : Prop where
  og : ∀ i c, StayIndex i → c < 256 → Machine.og b i c = Machine.og a i c
  ob : ∀ i c, StayBlob i → c < 256 → Machine.ob b i c = Machine.ob a i c
  key : b.key = a.key
  storing : b.mgmt.storing = a.mgmt.storing
  reloading : b.mgmt.reloading = a.mgmt.reloading
  swap : ∀ g, (seg b g).swap = none ∨ (seg b g).swap = (seg a g).swap

namespace LoadKept
theorem refl (a : Dev) : LoadKept a a := ⟨fun _ _ _ _ => rfl, fun _ _ _ _ => rfl, rfl, rfl, rfl, fun _ => .inr rfl⟩

theorem trans {a b c : Dev} (h : LoadKept a b) (h' : LoadKept b c) : LoadKept a c :=
  ⟨fun i x hi hx => (h'.og i x hi hx).trans (h.og i x hi hx), fun i x hi hx => (h'.ob i x hi hx).trans (h.ob i x hi hx), h'.key.trans h.key,
    h'.storing.trans h.storing, h'.reloading.trans h.reloading, fun g => (h'.swap g).elim .inl fun e => e ▸ h.swap g⟩

theorem of_fields {a b : Dev} (ho : ∀ i c, StayIndex i → c < 256 → Machine.og b i c = Machine.og a i c) (hb : b.blobs = a.blobs)
    (hk : b.key = a.key) (hm : b.mgmt = a.mgmt) (hs : b.segs = a.segs) : LoadKept a b :=
  ⟨ho, fun i c _ _ => by unfold Machine.ob; rw [hb], hk, by rw [hm], by rw [hm], fun g => .inr (by unfold seg; rw [hs])⟩

theorem of_objs {a b : Dev} (ho : b.objs = a.objs) (hb : b.blobs = a.blobs) (hk : b.key = a.key) (hm : b.mgmt = a.mgmt)
    (hs : b.segs = a.segs) : LoadKept a b :=
  .of_fields (fun i c _ _ => by unfold Machine.og; rw [ho]) hb hk hm hs

theorem os {a b : Dev} (h : LoadKept a b) {i c : Nat} (v : Nat) (hi : ¬ StayIndex i) (hc : c < 256) : LoadKept a (Machine.os b i c v) := by
  refine h.trans (.of_fields (fun j x hj hx => ?_) rfl rfl rfl rfl)
  have hne : j ≠ i := fun e => hi (e ▸ hj)
  rw [og_os, if_neg (by unfold okey; omega)]

theorem obs {a b : Dev} (h : LoadKept a b) {i c : Nat} (v : Bytes) (hi : ¬ StayBlob i) (hc : c < 256) : LoadKept a (Machine.obs b i c v) := by
  refine h.trans ⟨fun _ _ _ _ => rfl, fun j x hj hx => ?_, rfl, rfl, rfl, fun _ => .inr rfl⟩
  have hne : j ≠ i := fun e => hi (e ▸ hj)
  show tget blobDefault (tput blobDefault b.blobs (okey i c) v) (okey j x) = _
  rw [tget_tput, if_neg (by unfold okey; omega)]
  rfl

theorem foldl {α : Type} {f : Dev → α → Dev} {xs : List α} (hf : ∀ d, ∀ x ∈ xs, LoadKept d (f d x)) (d : Dev) : LoadKept d (xs.foldl f d) := by
  induction xs generalizing d with
  | nil => exact refl d
  | cons x xs ih => exact (hf d x (by simp)).trans (ih (fun d y hy => hf d y (by simp [hy])) _)

/-- A segment's part is replaced by one that keeps no other mould aside. -/
theorem setSeg (d : Dev) (g : Nat) {m : SegSt} (hm : m.swap = none ∨ m.swap = (seg d g).swap) : LoadKept d (Machine.setSeg d g m) := by
  refine ⟨fun _ _ _ _ => rfl, fun _ _ _ _ => rfl, rfl, rfl, rfl, fun h => ?_⟩
  rw [seg_setSeg]
  split
  · next e => rw [e]; exact hm
  · exact .inr rfl
end LoadKept

theorem not_stayIndex_seg {g : Nat} (hg : g < 12) {o : Nat} (ho : o < 64) : ¬ StayIndex (sgb g + o) := by
  obtain ⟨h1, h2, -⟩ := sgb_index hg
  unfold StayIndex
  omega

theorem not_stayIndex_axis (n o : Nat) : ¬ StayIndex (ax n o) := by unfold StayIndex ax; omega

theorem not_stayIndex_node (l k o : Nat) : ¬ StayIndex (fnx l k o) := by unfold StayIndex fnx; omega

theorem bump_loadKept (d : Dev) {i c : Nat} (hi : ¬ StayIndex i) (hc : c < 256) : LoadKept d (bump d i c) := by
  refine .of_fields (fun j x hj hx => (bump_kept d i c).og ?_) ?_ ?_ ?_ ?_
  · have hne : j ≠ i := fun e => hi (e ▸ hj)
    simp only [List.mem_singleton]
    unfold okey
    omega
  all_goals rw [bump_frame]

theorem log_loadKept (d : Dev) (b c v : Nat) : LoadKept d (log d b c v) := by
  have hlog := log_noted d b c v
  refine .of_fields (fun i x hi hx => hlog.kept.og ?_) ?_ ?_ ?_ ?_
  · unfold StayIndex at hi
    simp only [dropKeys, okey, List.mem_cons, List.not_mem_nil, not_or, not_false_eq_true, and_true]
    omega
  all_goals rw [hlog.frame]

theorem later_loadKept (d : Dev) (src cause datum : Nat) : LoadKept d (later d src cause datum) := .of_objs rfl rfl rfl rfl rfl

/-! ### Segments -/

theorem mouldStatus_loadKept (d : Dev) {g : Nat} (hg : g < 12) : LoadKept d (mouldStatus d g) := by
  have h8 : ¬ StayIndex (sgb g + 8) := not_stayIndex_seg hg (by decide)
  have hC : ¬ StayIndex (sgb g + 0x0C) := not_stayIndex_seg hg (by decide)
  have three (x y z : Nat) : LoadKept d (os (os (os d (sgb g + 8) 3 x) (sgb g + 8) 4 y) (sgb g + 8) 5 z) :=
    (((LoadKept.refl d).os _ h8 (by decide)).os _ h8 (by decide)).os _ h8 (by decide)
  unfold mouldStatus
  dsimp only
  split
  · refine LoadKept.trans ?_ (.foldl (fun e i hi => (LoadKept.refl e).os _ h8 ?_) _)
    · split
      · exact .refl d
      · exact (LoadKept.refl d).os _ hC (by decide)
    · have := List.mem_range.1 hi; omega
  · split
    · exact (((three ..).os _ h8 (by decide)).os _ h8 (by decide)).os _ h8 (by decide)
    · exact ((((three ..).os _ h8 (by decide)).os _ h8 (by decide)).os _ h8 (by decide)).os _ hC (by decide)

theorem syncMoulds_loadKept (d : Dev) : LoadKept d (syncMoulds d) := by
  unfold syncMoulds
  refine (LoadKept.foldl (fun e g hg => mouldStatus_loadKept e (List.mem_range.1 hg)) d).os _ ?_ (by decide)
  unfold StayIndex
  decide

theorem takeMould_loadKept (d : Dev) (g : Nat) : LoadKept d (takeMould d g) := by
  unfold takeMould
  split
  · exact (LoadKept.setSeg d g (.inl rfl)).trans (syncMoulds_loadKept _)
  · exact .refl d

theorem nodesForgotten_loadKept (d : Dev) (g : Nat) : LoadKept d (nodesForgotten d g) := by
  unfold nodesForgotten
  refine .foldl (fun e p _ => ?_) d
  have hhead : LoadKept e (setHd e g (p.1 % 1024) p.2.forget) := .of_objs rfl rfl rfl rfl rfl
  split
  · exact hhead
  · exact hhead.os _ (not_stayIndex_node _ _ _) (by decide)

theorem forgetNodes_loadKept (d : Dev) {g : Nat} (hg : g < 12) : LoadKept d (forgetNodes d g) := by
  have hbase : ¬ StayIndex (sgb g) := not_stayIndex_seg hg (o := 0) (by decide)
  rw [forgetNodes_eq]
  exact (((nodesForgotten_loadKept d g).trans (.setSeg (m := segForgotten (seg (nodesForgotten d g) g)) _ g (.inr rfl))).os (c := 7) 0 hbase (by decide)).trans
    (takeMould_loadKept _ g)

theorem stateShown_loadKept (d : Dev) {g : Nat} (hg : g < 12) (st : Nat) : LoadKept d (stateShown d g st) := by
  have hbase : ¬ StayIndex (sgb g) := not_stayIndex_seg hg (o := 0) (by decide)
  unfold stateShown
  obtain ⟨t, ht, -⟩ := occur_points (log (os (os d (sgb g) 2 st) (sgb g) 4 d.time.k) (0x10 + g) 1 st) 5 g
  rw [ht]
  exact (((LoadKept.refl d).os _ hbase (by decide)).os _ hbase (by decide)).trans ((log_loadKept ..).trans (.of_objs rfl rfl rfl rfl rfl))

theorem relayInterrupt_loadKept (d : Dev) : LoadKept d (relayInterrupt d) := by
  have hlist : LoadKept d { d with mgmt := { d.mgmt with relayList := [], relayOld := d.mgmt.relayList } } :=
    ⟨fun _ _ _ _ => rfl, fun _ _ _ _ => rfl, rfl, rfl, rfl, fun _ => .inr rfl⟩
  unfold relayInterrupt
  split
  · exact hlist.os _ (by unfold StayIndex; decide) (by decide)
  · exact .refl d

theorem segIdled_loadKept (d : Dev) {g : Nat} (hg : g < 12) : LoadKept d (segIdled d g) := by
  have hleft : LoadKept d (os (setSeg d g { seg d g with forced := false, quietExit := false, cold := .idle, sent := 0, heard := false }) (sgb g) 3 0) :=
    (LoadKept.setSeg (m := { seg d g with forced := false, quietExit := false, cold := .idle, sent := 0, heard := false }) d g (.inr rfl)).os (c := 3) 0
      (not_stayIndex_seg hg (o := 0) (by decide)) (by decide)
  unfold segIdled
  dsimp only
  split
  · exact hleft.trans (relayInterrupt_loadKept _)
  · exact hleft

theorem setSegState_loadKept (d : Dev) {g : Nat} (hg : g < 12) (st : Nat) : LoadKept d (setSegState d g st) := by
  have hforgot := (stateShown_loadKept d hg st).trans (forgetNodes_loadKept _ hg)
  by_cases h : st ≤ 1
  · rw [setSegState_toIdle d g h]
    split
    · exact .refl d
    · exact hforgot.trans (segIdled_loadKept _ hg)
  · rw [setSegState_toActive d g (by omega)]
    split
    · exact .refl d
    · split
      · exact hforgot
      · exact stateShown_loadKept d hg st

theorem AxisStep.loadKept {n : Nat} {a b : Dev} (h : AxisStep n a b) : LoadKept a b := by
  refine .of_fields (fun i c hi hc => h.kept _ (.inl ?_)) ?_ ?_ ?_ ?_
  · unfold StayIndex at hi
    unfold okey ax
    omega
  all_goals rw [h.frame]

theorem disableAxis_loadKept (d : Dev) (n cause seq : Nat) : LoadKept d (disableAxis d n cause seq) := by
  unfold disableAxis
  split
  · exact ((axisOff_step d n 0).trans (setCause_step _ n cause seq)).loadKept
  · exact .refl d

theorem segLeave_loadKept (d : Dev) {g : Nat} (hg : g < 12) (st : Nat) (report : Bool) : LoadKept d (segLeave d g st report) := by
  unfold segLeave
  dsimp only
  split
  · have haxes : LoadKept d ((segAxes (setSegState d g st) g).foldl (fun d n => disableAxis d n 7 0) (setSegState d g st)) :=
      (setSegState_loadKept d hg st).trans (.foldl (fun e n _ => disableAxis_loadKept e n 7 0) _)
    split
    · exact haxes.trans (later_loadKept ..)
    · exact haxes
  · exact setSegState_loadKept d hg st

/-! ### PTP domains -/

theorem segStatus_loadKept {a b : Dev} (h : LoadKept a b) (n : Nat) (v : Bool) : LoadKept a (segStatus b n v) :=
  h.os _ (by unfold StayIndex; decide) (by decide)

theorem switchSource_loadKept (d : Dev) (src : Nat) : LoadKept d (switchSource d src) := by
  have hi : ¬ StayIndex 0x3410 := by unfold StayIndex; decide
  have hlog : LoadKept d (log (bump (os d 0x3410 6 src) 0x3410 0x0A) 2 1 src) :=
    (((LoadKept.refl d).os src hi (by decide)).trans (bump_loadKept _ hi (by decide))).trans (log_loadKept ..)
  have hshown := segStatus_loadKept (segStatus_loadKept (segStatus_loadKept (hlog.os (c := 8) (0 : F32).toNat hi (by decide)) 2 false) 1 false) 3 (src = 0)
  obtain ⟨e, he⟩ : ∃ e, e = segStatus (segStatus (segStatus (osf (log (bump (os d 0x3410 6 src) 0x3410 0x0A) 2 1 src) 0x3410 8 0) 2 false) 1 false)
    3 (src = 0) := ⟨_, rfl⟩
  unfold switchSource
  dsimp only
  rw [← he]
  replace hshown : LoadKept d e := he ▸ hshown
  split
  · exact segStatus_loadKept ((hshown.trans (LoadKept.of_objs (a := e) (b := { e with time := { e.time with ySrc := 0 } }) rfl rfl rfl rfl rfl)).os
      (i := 0x3410) (c := 0x0B) (0 : F32).toNat hi (by decide)) 7 false
  · exact hshown

theorem leftLocked_loadKept (d : Dev) (n : Nat) : LoadKept d (leftLocked d n) := by
  have hi : ¬ StayIndex 0x3410 := by unfold StayIndex; decide
  unfold leftLocked
  split
  · exact .refl d
  · split
    · exact switchSource_loadKept ..
    · exact segStatus_loadKept (segStatus_loadKept ((((LoadKept.refl d).os (c := 6) 3 hi (by decide)).os (c := 8) (0 : F32).toNat hi (by decide)).os
        (c := 0x0B) d.time.ySrc.toNat hi (by decide)) 2 true) 1 false

theorem setDomState_loadKept (d : Dev) {n : Nat} (hn : n < 2) (st : Nat) : LoadKept d (setDomState d n st) := by
  have h := (LoadKept.refl d).os (i := 0x3428 + n) (c := 1) st (by unfold StayIndex; omega) (by decide)
  unfold setDomState
  dsimp only
  split
  · exact h.trans (leftLocked_loadKept ..)
  · exact h

theorem setDom_loadKept (d : Dev) (n : Nat) (x : DomainSt) : LoadKept d (setDom d n x) := .of_objs rfl rfl rfl rfl rfl

theorem domHoldover_loadKept (d : Dev) {n : Nat} (hn : n < 2) : LoadKept d (domHoldover d n) := by
  unfold domHoldover
  split
  · exact (setDom_loadKept ..).trans (setDomState_loadKept _ hn 4)
  · exact .refl d

theorem domDisable_loadKept (d : Dev) {n : Nat} (hn : n < 2) : LoadKept d (domDisable d n) := by
  have hi : ¬ StayIndex (0x3428 + n) := by unfold StayIndex; omega
  have hb : ¬ StayBlob (0x3428 + n) := by unfold StayBlob; omega
  have hoff := (setDomState_loadKept d hn 0).trans (setDom_loadKept _ n DomainSt.reset)
  unfold domDisable
  exact (((((((hoff.obs _ hb (by decide)).os _ hi (by decide)).os _ hi (by decide)).os _ hi (by decide)).os _ hi (by decide)).os _ hi (by decide)).os _ hi
    (by decide)).os _ hi (by decide)

theorem domEnable_loadKept (d : Dev) {n : Nat} (hn : n < 2) : LoadKept d (domEnable d n) := by
  unfold domEnable
  split
  · exact setDomState_loadKept d hn _
  · exact .refl d

/-! ### Blocks that lose their readiness -/

theorem chanStopped_loadKept (d : Dev) (c t : Nat) : LoadKept d (chanStop (chanRun d c t) c) := by
  have hrun : LoadKept d (chanRun d c t) := by
    unfold chanRun
    dsimp only
    split
    · exact .of_objs rfl rfl rfl rfl rfl
    · exact .of_objs rfl rfl rfl rfl rfl
  exact hrun.trans (b := chanRun d c t) (.of_objs rfl rfl rfl rfl rfl)

theorem storeLost_loadKept (d : Dev) : LoadKept d (storeLost d) := by
  have hidle : LoadKept d ((List.range 4).foldl (fun d s => os d (0x3613 + 0x10 * s) 1 0) d) :=
    .foldl (fun e n hn => (LoadKept.refl e).os 0 (by have := List.mem_range.1 hn; unfold StayIndex; omega) (by decide)) d
  obtain ⟨e, he⟩ : ∃ e, e = (List.range 4).foldl (fun d s => os d (0x3613 + 0x10 * s) 1 0) d := ⟨_, rfl⟩
  unfold storeLost
  rw [← he]
  replace hidle : LoadKept d e := he ▸ hidle
  exact (hidle.trans (LoadKept.of_objs (b := { e with acq := { e.acq with sets := [], recs := [], upload := none, streams := [] } }) rfl rfl rfl rfl rfl)).os 0
    (by unfold StayIndex; decide) (by decide)

theorem padLost_loadKept (d : Dev) (c : Nat) :
    LoadKept d ((clusterAxes (setPad d c Pad.clear) c).foldl (fun d n => disableAxis d n 4 0) (setPad d c Pad.clear)) :=
  LoadKept.trans (b := setPad d c Pad.clear) (.of_objs rfl rfl rfl rfl rfl) (.foldl (fun e n _ => disableAxis_loadKept e n 4 0) _)

theorem emuLost_loadKept (d : Dev) : LoadKept d (lostBit d 16) := by
  refine LoadKept.trans (b := (List.range 8).foldl (fun e m => emuStop e m (fabricTicks d)) d)
    (.foldl (f := fun e m => emuStop e m (fabricTicks d)) (fun e m _ => .of_objs rfl rfl rfl rfl rfl) _) (.foldl (fun e n _ => ?_) _)
  split
  · have hbit : LoadKept e (osb e (ax n 0x1B) 7 4 true) := (LoadKept.refl e).os _ (not_stayIndex_axis n 0x1B) (by decide)
    exact hbit.trans (.of_objs rfl rfl rfl rfl rfl)
  · exact .refl e

theorem lostBit_loadKept (d : Dev) (b : Nat) : LoadKept d (lostBit d b) := by
  by_cases h16 : b = 16
  · rw [h16]; exact emuLost_loadKept d
  unfold lostBit
  split
  · have h := padLost_loadKept d (b - 6)
    dsimp only
    split
    · exact h.trans (later_loadKept ..)
    · exact h
  split
  · next hb =>
    have hg : b - 18 < 12 := by simp only [Bool.and_eq_true, decide_eq_true_eq] at hb; omega
    have ho : ¬ StayIndex (phyStatus (b - 18)) := by
      unfold phyStatus
      split
      · exact not_stayIndex_seg hg (by decide)
      · exact not_stayIndex_seg hg (by decide)
    exact (((LoadKept.refl d).os 0 ho (by decide)).os 0 ho (by decide)).trans (segLeave_loadKept _ hg _ _)
  split
  · exact storeLost_loadKept d
  split
  · exact .foldl (f := fun e c => chanStop (chanRun e c (stepTicks d)) c) (fun e c _ => chanStopped_loadKept e c _) (xs := List.range 16) d
  split
  · exact (domHoldover_loadKept d (by decide)).trans (domHoldover_loadKept _ (by decide))
  split
  · refine LoadKept.os (i := 0x3C01) (c := 9) ?_ 0 (by unfold StayIndex; decide) (by decide)
    exact .of_objs rfl rfl rfl rfl rfl
  · exact .refl d

theorem clearReady_loadKept (d : Dev) (bs : List Nat) : LoadKept d (clearReady d bs) :=
  LoadKept.trans (b := os d 0x1010 0 (closeReady d (clearBits (og d 0x1010 0) bs)))
    ((LoadKept.refl d).os (i := 0x1010) (c := 0) _ (by unfold StayIndex; decide) (by decide)) (.foldl (fun e b _ => lostBit_loadKept e b) _)

/-! ### The enable mask -/

theorem sourceEnded_loadKept (d : Dev) (n : Nat) : LoadKept d (sourceEnded d (8 + n)) := by
  have hi : ∀ i ∈ [0x2000, 0x2010, 0x2020], ¬ StayIndex i := by unfold StayIndex; decide
  have one {a : Dev} {i : Nat} (h : LoadKept d a) (c b : Nat) (v : Bool) (hm : i ∈ [0x2000, 0x2010, 0x2020]) (hc : c < 256) :
      LoadKept d (osb a i c b v) := h.os _ (hi i hm) hc
  unfold sourceEnded
  split
  · exact one (.refl d) _ _ _ (by simp) (by decide)
  split
  · exact one (.refl d) _ _ _ (by simp) (by decide)
  split
  · exact one (one (.refl d) _ _ _ (by simp) (by decide)) _ _ _ (by simp) (by decide)
  split
  · have h3 := one (.refl d) 3 (8 + n - 8) false (i := 0x2010) (by simp) (by decide)
    dsimp only
    split
    · exact one h3 _ _ _ (by simp) (by decide)
    · exact h3
  · exact .refl d

theorem maskStep_loadKept (old new : Nat) (d : Dev) (n : Nat) : LoadKept d (maskStep old new d n) := by
  have hwin : LoadKept d (clearReady (osb d 0x2010 2 n false) (domainBlocks n)) :=
    ((LoadKept.refl d).os (i := 0x2010) (c := 2) _ (by unfold StayIndex; decide) (by decide)).trans (clearReady_loadKept ..)
  unfold maskStep
  split
  · refine hwin.trans ?_
    generalize clearReady (osb d 0x2010 2 n false) (domainBlocks n) = e
    unfold deassert
    split
    · exact LoadKept.trans (b := { e with fc := { e.fc with cond := setBit e.fc.cond (8 + n) false } }) (.of_objs rfl rfl rfl rfl rfl)
        (sourceEnded_loadKept _ n)
    · exact .of_objs rfl rfl rfl rfl rfl
  · split
    · exact (LoadKept.refl d).os _ (by unfold StayIndex; decide) (by decide)
    · exact .refl d

theorem applyMask_loadKept (d : Dev) (old new : Nat) : LoadKept d (applyMask d old new) := by
  rw [applyMask_eq]
  exact .foldl (fun e n _ => maskStep_loadKept old new e n) d

end Sys2Proof.Machine
end

section
/-! ## Store, restore and reload of the parameters -/
namespace Sys2Proof.Machine

/-! ### Values that are loaded (R40, R42) -/

/-- The working values of every "key" object replaced, but for those in `keep`. -/
def keysLoaded (d : Dev) (keep : Nat → Bool) (nums : List (Nat × Nat)) (strs : List (Nat × Bytes)) : Dev :=
  { d with
    objs := nums.foldl (fun t p => if keep p.1 then t else tput objDefault t p.1 p.2) (d.objs.filter (fun p => !isKey p.1 || keep p.1))
    blobs := strs.foldl (fun t p => if keep p.1 then t else tput blobDefault t p.1 p.2) (d.blobs.filter (fun p => !isKey p.1 || keep p.1)) }

/-- A cyclic segment whose mould changed keeps the old one aside until its next boundary (R245). -/
def swapsKept (olds : List Bytes) (d : Dev) : Dev := (List.range 12).foldl (fun d g =>
  if olds.getD g [] != ob d (0x3300 + g) 0 && segState d g = 4 then setSeg d g { seg d g with swap := some (olds.getD g []) } else d) d

/-- A PTP domain whose configuration changed passes through Disabled (R287). -/
def domainsRestarted (doms : List (List Nat)) (d : Dev) : Dev := (List.range 2).foldl (fun d n =>
  if doms.getD n [] = domConfig d n then d else domEnable (domDisable d n) n) d

/-- What follows the loading of the values. -/
def loadFollowed (old : Nat) (doms : List (List Nat)) (d : Dev) : Dev :=
  let d := domainsRestarted doms (os d 0x2F10 2 (b2n ((ob d 0x2F10 1).length != 0)))
  if bit (og d 0x1010 0) 0 then applyMask d old (og d 0x2010 1) else d

theorem loadKeys_eq (d : Dev) (keep : Nat → Bool) (nums : List (Nat × Nat)) (strs : List (Nat × Bytes)) :
    loadKeys d keep nums strs = loadFollowed (og d 0x2010 1) ((List.range 2).map (domConfig d))
      (swapsKept ((List.range 12).map (mould d)) (syncMoulds (keysLoaded d keep nums strs))) := rfl

theorem domainsRestarted_loadKept (doms : List (List Nat)) (d : Dev) : LoadKept d (domainsRestarted doms d) := by
  unfold domainsRestarted
  refine .foldl (fun e n hn => ?_) d
  have hn2 := List.mem_range.1 hn
  split
  · exact .refl e
  · exact (domDisable_loadKept e hn2).trans (domEnable_loadKept _ hn2)

theorem loadFollowed_loadKept (old : Nat) (doms : List (List Nat)) (d : Dev) : LoadKept d (loadFollowed old doms d) := by
  have hflag : LoadKept d (os d 0x2F10 2 (b2n ((ob d 0x2F10 1).length != 0))) := (LoadKept.refl d).os _ (by unfold StayIndex; decide) (by decide)
  have hdom := hflag.trans (domainsRestarted_loadKept doms _)
  unfold loadFollowed
  dsimp only
  split
  · exact hdom.trans (applyMask_loadKept ..)
  · exact hdom

/-- Only what segments in state 4 keep aside changes. -/
structure SwapsOnly (a b : Dev) : Prop where
  frame : b = { a with segs := b.segs }
  swap : ∀ g, segState a g ≠ 4 → seg b g = seg a g

theorem swapsKept_only (olds : List Bytes) (d : Dev) : SwapsOnly d (swapsKept olds d) := by
  refine foldl_invariant (I := SwapsOnly d) (fun e g he => ?_) _ d ⟨rfl, fun _ _ => rfl⟩
  have hstate (h : Nat) : segState e h = segState d h := by unfold segState og; rw [he.frame]
  split
  · next hc =>
    refine ⟨?_, fun h hh => ?_⟩
    · rw [he.frame]; rfl
    · have hne : g ≠ h := by
        rintro rfl
        simp only [Bool.and_eq_true, decide_eq_true_eq] at hc
        exact hh ((hstate g) ▸ hc.2)
      rw [seg_setSeg, if_neg (fun e => hne e.symm), he.swap h hh]
  · exact he

/-- What loading values leaves of the reactions, the moulds, the host's objects and the key. -/
theorem loadKeys_loaded (d : Dev) (keep : Nat → Bool) (nums : List (Nat × Nat)) (strs : List (Nat × Bytes)) :
    ∃ e, e = keysLoaded d keep nums strs ∧
      (∀ i c, StayIndex i → c < 256 → og (loadKeys d keep nums strs) i c = og e i c) ∧
      (∀ i c, StayBlob i → c < 256 → ob (loadKeys d keep nums strs) i c = ob e i c) ∧
      (loadKeys d keep nums strs).key = d.key ∧ (loadKeys d keep nums strs).mgmt.reloading = d.mgmt.reloading ∧
      ∀ g, g < 12 → segState e g ≠ 4 → (seg d g).swap = none → (seg (loadKeys d keep nums strs) g).swap = none := by
  obtain ⟨e, he⟩ : ∃ e, e = keysLoaded d keep nums strs := ⟨_, rfl⟩
  have hfields : e.key = d.key ∧ e.mgmt = d.mgmt ∧ e.segs = d.segs := by rw [he]; exact ⟨rfl, rfl, rfl⟩
  obtain ⟨hkey, hmgmt, hsegs⟩ := hfields
  refine ⟨e, he, ?_⟩
  rw [loadKeys_eq, ← he]
  have hsync := syncMoulds_loadKept e
  have haside := syncMoulds_aside e
  generalize syncMoulds e = f at hsync haside
  have hswap := swapsKept_only ((List.range 12).map (mould d)) f
  generalize swapsKept ((List.range 12).map (mould d)) f = h at hswap
  have hrest := loadFollowed_loadKept (og d 0x2010 1) ((List.range 2).map (domConfig d)) h
  generalize loadFollowed (og d 0x2010 1) ((List.range 2).map (domConfig d)) h = r at hrest
  have hog (i c : Nat) : og h i c = og f i c := by unfold og; rw [hswap.frame]
  have hob (i c : Nat) : ob h i c = ob f i c := by unfold ob; rw [hswap.frame]
  refine ⟨fun i c hi hc => ?_, fun i c hi hc => ?_, ?_, ?_, fun g hg hst hnone => ?_⟩
  · rw [hrest.og i c hi hc, hog, hsync.og i c hi hc]
  · rw [hrest.ob i c hi hc, hob, hsync.ob i c hi hc]
  · rw [hrest.key, hswap.frame]
    exact hsync.key.trans hkey
  · rw [hrest.reloading, hswap.frame]
    exact hsync.reloading.trans (by rw [hmgmt])
  · have hstate : segState f g = segState e g := haside.1.kept _ _ (sgb_index hg) (by decide) (by simp)
    have hseg : seg h g = seg d g := by
      rw [hswap.swap g (by rw [hstate]; exact hst)]
      unfold seg
      rw [haside.segs, hsegs]
    rcases hrest.swap g with hn | hn
    · exact hn
    · rw [hn, hseg, hnone]

/-! ### Which objects are stored, and their defaults -/

theorem isKey_reactions : ∀ n, n < 192 → isKey (okey (0x3900 + n) 1) = true ∧ hostKept (okey (0x3900 + n) 1) = false ∧
    objDefault (okey (0x3900 + n) 1) = defaultReactions n := by decide +kernel

theorem isKey_moulds : ∀ g, g < 12 → isKey (okey (0x3300 + g) 0) = true ∧ hostKept (okey (0x3300 + g) 0) = false ∧
    isKey (okey (sgb g) 2) = false := by decide +kernel

theorem blobDefault_mould : ∀ g, g < 12 → blobDefault (okey (0x3300 + g) 0) = [] := by decide +kernel

theorem og_keysLoaded_left {d : Dev} {keep : Nat → Bool} {i c : Nat} (strs : List (Nat × Bytes)) (h : (!isKey (okey i c) || keep (okey i c)) = true) :
    og (keysLoaded d keep [] strs) i c = og d i c := tget_filter objDefault (fun k => !isKey k || keep k) h d.objs

theorem og_keysLoaded_default {d : Dev} {keep : Nat → Bool} {i c : Nat} (strs : List (Nat × Bytes)) (h : (!isKey (okey i c) || keep (okey i c)) = false) :
    og (keysLoaded d keep [] strs) i c = objDefault (okey i c) := tget_filter_out objDefault (fun k => !isKey k || keep k) h d.objs

theorem ob_keysLoaded_left {d : Dev} {keep : Nat → Bool} {i c : Nat} (nums : List (Nat × Nat)) (h : (!isKey (okey i c) || keep (okey i c)) = true) :
    ob (keysLoaded d keep nums []) i c = ob d i c := tget_filter blobDefault (fun k => !isKey k || keep k) h d.blobs

theorem ob_keysLoaded_default {d : Dev} {keep : Nat → Bool} {i c : Nat} (nums : List (Nat × Nat)) (h : (!isKey (okey i c) || keep (okey i c)) = false) :
    ob (keysLoaded d keep nums []) i c = blobDefault (okey i c) := tget_filter_out blobDefault (fun k => !isKey k || keep k) h d.blobs

theorem tget_foldl_tput_apart {k : Nat} (xs : List (Nat × Nat)) (t : Table Nat) (h : k ∉ xs.map Prod.fst) :
    tget objDefault (xs.foldl (fun t p => tput objDefault t p.1 p.2) t) k = tget objDefault t k := by
  induction xs generalizing t with
  | nil => rfl
  | cons p xs ih =>
    simp only [List.map_cons, List.mem_cons, not_or] at h
    rw [List.foldl_cons, ih _ h.2, tget_tput, if_neg h.1]

/-- A value of a set with one value per object is the one its object reads after the set is loaded. -/
theorem tget_foldl_tput {k v : Nat} (xs : List (Nat × Nat)) (t : Table Nat) (hn : (xs.map Prod.fst).Nodup) (h : (k, v) ∈ xs) :
    tget objDefault (xs.foldl (fun t p => tput objDefault t p.1 p.2) t) k = v := by
  induction xs generalizing t with
  | nil => simp at h
  | cons p xs ih =>
    obtain ⟨hp, hxs⟩ := List.nodup_cons.1 hn
    rw [List.foldl_cons]
    rcases List.mem_cons.1 h with rfl | h
    · rw [tget_foldl_tput_apart xs _ hp, tget_tput, if_pos rfl]
    · exact ih _ hxs h

theorem og_keysLoaded_listed {d : Dev} {nums : List (Nat × Nat)} {i c v : Nat} (strs : List (Nat × Bytes)) (hn : (nums.map Prod.fst).Nodup)
    (h : (okey i c, v) ∈ nums) : og (keysLoaded d (fun _ => false) nums strs) i c = v :=
  tget_foldl_tput nums (d.objs.filter (fun p => !isKey p.1 || false)) hn h

/-! ### The store (R40, R41) -/

theorem exec_storeParameters (s : State) : exec .storeParameters s = .next (upd s (fun d => answer (storeParams d).1 (storeParams d).2)) := rfl
theorem exec_storeComplete (ok : Bool) (s : State) : exec (.storeComplete ok) s = .next (upd s (fun d => storeEnd d ok)) := rfl
theorem exec_restoreDefaults (s : State) : exec .restoreDefaults s = .next (upd s (fun d => answer (restoreDefaults d).1 (restoreDefaults d).2)) := rfl
theorem exec_reloadStored (s : State) : exec .reloadStored s = .next (upd s (fun d => answer (reloadStored d).1 (reloadStored d).2)) := rfl
theorem exec_reloadComplete (s : State) : exec .reloadComplete s = .next (upd s reloadEnd) := rfl

theorem storeBusy_notReady {d : Dev} (h : ready d 0 = false) : storeBusy d = some .notReady := by simp [storeBusy, h]

theorem storeBusy_warned {d : Dev} (h : ready d 0 = true) (hw : warning d = true) : storeBusy d = some .state := by simp [storeBusy, h, hw]

theorem storeBusy_busy {d : Dev} (h : ready d 0 = true) (hw : warning d = false) (hb : (d.mgmt.storing || d.mgmt.reloading) = true) :
    storeBusy d = some .busy := by
  simp only [storeBusy, h, hw, hb]
  rfl

theorem storeBusy_free {d : Dev} (h : ready d 0 = true) (hw : warning d = false) (hs : d.mgmt.storing = false) (hr : d.mgmt.reloading = false) :
    storeBusy d = none := by simp [storeBusy, h, hw, hs, hr]

theorem storeParams_held {d : Dev} {st : Status} (h : storeBusy d = some st) : storeParams d = (d, st) := by simp only [storeParams, h]
theorem restoreDefaults_held {d : Dev} {st : Status} (h : storeBusy d = some st) : restoreDefaults d = (d, st) := by simp only [restoreDefaults, h]
theorem reloadStored_held {d : Dev} {st : Status} (h : storeBusy d = some st) : reloadStored d = (d, st) := by simp only [reloadStored, h]

/-- The set a store would write (R439, R440). -/
def setTaken (d : Dev) : ParamSet :=
  { format := 1, seq := match newestParams d.key with | some p => (p.seq + 1) % 2 ^ 32 | none => 1, cycle := d.time.k,
    bytes := entryBytes (keyValues d).1 (keyValues d).2, fw := og (os d 0x2E10 4 d.time.k) 0x1002 2, serial := Config.serial.toNat, sums := true,
    nums := (keyValues d).1, strs := (keyValues d).2 }

/-- Whether a store would replace set B (R440). -/
def replacesB (d : Dev) : Bool := match newestSet d.key with | some b => !b | none => false

/-- The key with the set a store replaces no longer valid. -/
def keyHalved (d : Dev) : KeySt :=
  if replacesB d then { d.key with setB := { ParamSet.blank with format := 2 } } else { d.key with setA := { ParamSet.blank with format := 2 } }

/-- Management with a store in progress. -/
def mgmtStoring (d : Dev) : MgmtSt := { d.mgmt with storing := true, storeB := replacesB d, storeSet := setTaken d }

/-- A store that began. -/
def storeBegun (d : Dev) : Dev :=
  syncSets (os { os d 0x2E10 4 d.time.k with key := keyHalved d, mgmt := mgmtStoring d } 0x2E10 2 1)

theorem storeParams_begins {d : Dev} (hb : storeBusy d = none) (h5 : mode d ≠ 5) (h0 : mode d ≠ 0)
    (hsize : entryBytes (keyValues d).1 (keyValues d).2 ≤ 262096) (hk : keyUsable d = true) : storeParams d = (storeBegun d, .ok) := by
  have hm : (mode d = 5 || mode d = 0) = false := by simp [h5, h0]
  have hu : keyUsable { os d 0x2E10 4 d.time.k with mgmt := mgmtStoring d } = true := hk
  unfold storeParams
  rw [hb]
  dsimp only
  rw [hm, if_neg Bool.false_ne_true, if_neg (Nat.not_lt.2 hsize)]
  show (if !keyUsable { os d 0x2E10 4 d.time.k with mgmt := mgmtStoring d } then _ else _) = _
  rw [hu]
  rfl

theorem newestSet_replaced (d : Dev) : newestSet d.key ≠ some (replacesB d) := by
  unfold replacesB
  cases newestSet d.key with
  | none => exact fun h => nomatch h
  | some b => cases b <;> decide

theorem og_syncSets_status (d : Dev) : og (syncSets d) 0x2E10 2 = og d 0x2E10 2 := by
  unfold syncSets
  dsimp only
  split
  · simp [og_os, okey]
  · simp [og_os, okey]

theorem storeBegun_spec (d : Dev) : (storeBegun d).mgmt = mgmtStoring d ∧
    (storeBegun d).key = keyHalved d ∧ og (storeBegun d) 0x2E10 2 = 1 ∧ og (storeBegun d) 0x2E10 4 = d.time.k ∧
    storeBegun d = { d with objs := (storeBegun d).objs, key := (storeBegun d).key, mgmt := (storeBegun d).mgmt } := by
  obtain ⟨e, he⟩ : ∃ e, e = os { os d 0x2E10 4 d.time.k with key := keyHalved d, mgmt := mgmtStoring d } 0x2E10 2 1 := ⟨_, rfl⟩
  have h2 : og e 0x2E10 2 = 1 := by rw [he, og_os_same]
  have h4 : og e 0x2E10 4 = d.time.k := by
    rw [he, og_os, if_neg (by decide)]
    exact og_os_same ..
  have hframe : e = { d with objs := e.objs, key := keyHalved d, mgmt := mgmtStoring d } := by rw [he]; rfl
  have heq : storeBegun d = syncSets e := by rw [he]; rfl
  obtain ⟨honly, hkept⟩ := syncSets_spec e
  have hstatus := og_syncSets_status e
  rw [heq]
  generalize syncSets e = f at honly hkept hstatus
  refine ⟨?_, ?_, ?_, ?_, ?_⟩
  · rw [honly, hframe]
  · rw [honly, hframe]
  · rw [hstatus, h2]
  · rw [hkept.og (by decide), h4]
  · rw [honly, hframe]

theorem storeParameters_begins {s : State} (hs : Settled s) (hb : storeBusy s.dev = none) (h5 : mode s.dev ≠ 5) (h0 : mode s.dev ≠ 0)
    (hsize : entryBytes (keyValues s.dev).1 (keyValues s.dev).2 ≤ 262096) (hk : keyUsable s.dev = true) : Does .storeParameters s (fun d =>
      d.mgmt.storing = true ∧ og d 0x2E10 2 = 1 ∧ og d 0x2E10 4 = s.dev.time.k ∧
      d.mgmt.storeSet.nums = (keyValues s.dev).1 ∧ d.mgmt.storeSet.strs = (keyValues s.dev).2 ∧
      setValid (if d.mgmt.storeB then d.key.setB else d.key.setA) = false ∧
      newestSet s.dev.key ≠ some d.mgmt.storeB ∧
      (if d.mgmt.storeB then d.key.setA = s.dev.key.setA else d.key.setB = s.dev.key.setB) ∧
      d = { s.dev with objs := d.objs, key := d.key, mgmt := d.mgmt, out := s.dev.out ++ [said .ok] }) := by
  obtain ⟨hmgmt, hkey, h2, h4, hframe⟩ := storeBegun_spec s.dev
  have hnew := newestSet_replaced s.dev
  refine .answered (e := storeBegun s.dev) (st := .ok) hs (exec_storeParameters s) (storeParams_begins hb h5 h0 hsize hk) (by rw [hframe]) (by rw [hframe]) ?_
  generalize storeBegun s.dev = e at hmgmt hkey h2 h4 hframe
  have hfields : (answer e .ok).mgmt = mgmtStoring s.dev ∧ (answer e .ok).key = keyHalved s.dev := ⟨hmgmt, hkey⟩
  obtain ⟨hm, hk'⟩ := hfields
  refine ⟨by rw [hm]; rfl, h2, h4, by rw [hm]; rfl, by rw [hm]; rfl, ?_, by rw [hm]; exact hnew, ?_, ?_⟩
  · rw [hm, hk']
    show setValid (if replacesB s.dev then (keyHalved s.dev).setB else (keyHalved s.dev).setA) = false
    unfold keyHalved
    cases replacesB s.dev <;> rfl
  · rw [hm, hk']
    show if replacesB s.dev then (keyHalved s.dev).setA = s.dev.key.setA else (keyHalved s.dev).setB = s.dev.key.setB
    unfold keyHalved
    cases replacesB s.dev <;> rfl
  · show emit e _ = _
    rw [hframe]
    rfl

/-! ### The end of a store -/

/-- A store whose set was written. -/
def storeEnded (d : Dev) : Dev :=
  { d with
    key := { (if d.mgmt.storeB then { d.key with setB := d.mgmt.storeSet } else { d.key with setA := d.mgmt.storeSet }) with
      writer := Config.serial.toNat }
    mgmt := { d.mgmt with storing := false } }

theorem storeEnd_written {d : Dev} (hs : d.mgmt.storing = true) (hk : keyUsable d = true) (hw : warning d = false) :
    storeEnd d true = os (os (syncSets (storeEnded d)) 0x2E10 2 2) 0x2E00 0x0B Config.serial.toNat := by
  simp only [storeEnd, hs, hk, hw, storeEnded]
  rfl

theorem storeEnd_failed {d : Dev} (hs : d.mgmt.storing = true) : ∃ e, storeEnd d false = storeFail e ∧ e.key = d.key := by
  unfold storeEnd
  rw [hs]
  simp only [Bool.not_true, Bool.false_and, if_neg Bool.false_ne_true]
  refine ⟨_, rfl, ?_⟩
  split
  · show (bump d 0x2E00 0x0C).key = d.key
    rw [bump_frame]
  · rfl

theorem storeComplete_written {s : State} (hs : Settled s) (hst : s.dev.mgmt.storing = true) (hk : keyUsable s.dev = true)
    (hw : warning s.dev = false) : Does (.storeComplete true) s (fun d =>
      d.mgmt = { s.dev.mgmt with storing := false } ∧ og d 0x2E10 2 = 2 ∧
      (if s.dev.mgmt.storeB then d.key.setB = s.dev.mgmt.storeSet ∧ d.key.setA = s.dev.key.setA
       else d.key.setA = s.dev.mgmt.storeSet ∧ d.key.setB = s.dev.key.setB) ∧
      d = { s.dev with objs := d.objs, key := d.key, mgmt := d.mgmt }) := by
  obtain ⟨honly, -⟩ := syncSets_spec (storeEnded s.dev)
  generalize hf : syncSets (storeEnded s.dev) = f at honly
  have hframe : os (os f 0x2E10 2 2) 0x2E00 0x0B Config.serial.toNat =
      { storeEnded s.dev with objs := (os (os f 0x2E10 2 2) 0x2E00 0x0B Config.serial.toNat).objs } := (honly.os 0x2E10 2 2).os 0x2E00 0x0B _
  have h2 : og (os (os f 0x2E10 2 2) 0x2E00 0x0B Config.serial.toNat) 0x2E10 2 = 2 := by rw [og_os, if_neg (by decide), og_os_same]
  have heq : storeEnd s.dev true = os (os f 0x2E10 2 2) 0x2E00 0x0B Config.serial.toNat := by rw [storeEnd_written hst hk hw, hf]
  generalize os (os f 0x2E10 2 2) 0x2E00 0x0B Config.serial.toNat = e at hframe h2 heq
  refine .of_eq (exec_storeComplete true s) heq (by rw [hframe]; exact hs.1) (by rw [hframe]; exact hs.2) ⟨by rw [hframe]; rfl, h2, ?_, by rw [hframe]; rfl⟩
  rw [hframe]
  show if s.dev.mgmt.storeB then (storeEnded s.dev).key.setB = s.dev.mgmt.storeSet ∧ (storeEnded s.dev).key.setA = s.dev.key.setA
    else (storeEnded s.dev).key.setA = s.dev.mgmt.storeSet ∧ (storeEnded s.dev).key.setB = s.dev.key.setB
  unfold storeEnded
  cases s.dev.mgmt.storeB
  · exact ⟨rfl, rfl⟩
  · exact ⟨rfl, rfl⟩

theorem storeComplete_failed {s : State} (hst : s.dev.mgmt.storing = true) : Leaves (.storeComplete false) s (fun d =>
    d.mgmt.storing = false ∧ og d 0x2E10 2 = 3 ∧ d.key = s.dev.key) := by
  obtain ⟨e, he, hkey⟩ := storeEnd_failed hst
  refine .of_upd (exec_storeComplete false s) ?_
  rw [he]
  obtain ⟨h1, h2, h3, -⟩ := storeFail_spec e
  exact ⟨h1, h3, h2.trans hkey⟩

theorem storeComplete_idle {s : State} (hs : Settled s) (hst : s.dev.mgmt.storing = false) (ok : Bool) : Idles (.storeComplete ok) s := by
  refine .of_upd hs (exec_storeComplete ok s) ?_
  unfold storeEnd
  rw [hst]
  rfl

end Sys2Proof.Machine
end

section
/-! ## Restore defaults and Reload stored (R40, R42) -/
namespace Sys2Proof.Machine

theorem loadKeys_restored (d : Dev) : (∀ n, n < 192 → og (loadKeys d hostKept [] []) (0x3900 + n) 1 = defaultReactions n) ∧
    (∀ g, g < 12 → ob (loadKeys d hostKept [] []) (0x3300 + g) 0 = [] ∧
      (segState d g = 0 → (seg d g).swap = none → mould (loadKeys d hostKept [] []) g = [])) ∧
    og (loadKeys d hostKept [] []) 0x2F00 4 = og d 0x2F00 4 ∧ ob (loadKeys d hostKept [] []) 0x2F10 1 = ob d 0x2F10 1 ∧
    (loadKeys d hostKept [] []).key = d.key := by
  obtain ⟨e, he, hog, hob, hkey, -, hswap⟩ := loadKeys_loaded d hostKept [] []
  have hmould (g : Nat) (hg : g < 12) : ob (loadKeys d hostKept [] []) (0x3300 + g) 0 = [] := by
    obtain ⟨hk, hh, -⟩ := isKey_moulds g hg
    rw [hob _ 0 (by unfold StayBlob; omega) (by decide), he, ob_keysLoaded_default [] (by rw [hk, hh]; rfl), blobDefault_mould g hg]
  refine ⟨fun n hn => ?_, fun g hg => ⟨hmould g hg, fun hst hnone => ?_⟩, ?_, ?_, hkey⟩
  · obtain ⟨hk, hh, hdef⟩ := isKey_reactions n hn
    rw [hog _ 1 (by unfold StayIndex; omega) (by decide), he, og_keysLoaded_default [] (by rw [hk, hh]; rfl), hdef]
  · have hstate : segState e g = segState d g := by
      rw [he]
      exact og_keysLoaded_left [] (by rw [(isKey_moulds g hg).2.2]; rfl)
    unfold mould
    rw [hswap g hg (by rw [hstate, hst]; decide) hnone]
    exact hmould g hg
  · rw [hog _ 4 (.inl rfl) (by decide), he, og_keysLoaded_left [] (by decide +kernel)]
  · rw [hob _ 1 (.inl rfl) (by decide), he, ob_keysLoaded_left [] (by decide +kernel)]

theorem restoreDefaults_done {d : Dev} (hb : storeBusy d = none) (hm : mode d = 2) :
    restoreDefaults d = (os (loadKeys d hostKept [] []) 0x2E11 3 2, .ok) := by
  simp only [restoreDefaults, hb, hm]
  rfl

theorem restoreDefaults_refused {d : Dev} (hb : storeBusy d = none) (hm : mode d ≠ 2) : restoreDefaults d = (d, .state) := by
  simp [restoreDefaults, hb, hm]

theorem reloadStored_refused {d : Dev} (hb : storeBusy d = none) (hm : mode d ≠ 2) : reloadStored d = (d, .state) := by
  simp [reloadStored, hb, hm]

theorem reloadStored_begins {d : Dev} (hb : storeBusy d = none) (hm : mode d = 2) :
    reloadStored d = (os { d with mgmt := { d.mgmt with reloading := true } } 0x2E11 3 1, .ok) := by
  simp only [reloadStored, hb, hm]
  rfl

theorem restoreDefaults_restores {s : State} (hb : storeBusy s.dev = none) (hm : mode s.dev = 2) : Leaves .restoreDefaults s (fun d =>
    (∀ n, n < 192 → og d (0x3900 + n) 1 = defaultReactions n) ∧
    (∀ g, g < 12 → ob d (0x3300 + g) 0 = [] ∧ (segState s.dev g = 0 → (seg s.dev g).swap = none → mould d g = [])) ∧ og d 0x2E11 3 = 2 ∧
    og d 0x2F00 4 = og s.dev 0x2F00 4 ∧ ob d 0x2F10 1 = ob s.dev 0x2F10 1 ∧ d.key = s.dev.key) := by
  obtain ⟨hreact, hmould, hhost, hses, hkey⟩ := loadKeys_restored s.dev
  refine .of_upd (exec_restoreDefaults s) ?_
  rw [restoreDefaults_done hb hm]
  generalize loadKeys s.dev hostKept [] [] = e at hreact hmould hhost hses hkey
  have hog {i c : Nat} (h : okey i c ≠ okey 0x2E11 3) : og (answer (os e 0x2E11 3 2) .ok) i c = og e i c := by
    show og (os e 0x2E11 3 2) i c = _
    rw [og_os, if_neg h]
  exact ⟨fun n hn => (hog (by unfold okey; omega)).trans (hreact n hn), hmould, og_os_same e 0x2E11 3 2, (hog (by decide)).trans hhost, hses, hkey⟩

theorem reloadStored_runs {s : State} (hs : Settled s) (hb : storeBusy s.dev = none) (hm : mode s.dev = 2) : Does .reloadStored s (fun d =>
    d.mgmt = { s.dev.mgmt with reloading := true } ∧ og d 0x2E11 3 = 1 ∧
    d = { s.dev with objs := d.objs, mgmt := d.mgmt, out := s.dev.out ++ [said .ok] } ∧ ObjsKept s.dev d [okey 0x2E11 3]) := by
  have hset : og (os { s.dev with mgmt := { s.dev.mgmt with reloading := true } } 0x2E11 3 1) 0x2E11 3 = 1 := og_os_same ..
  have hkept : ObjsKept s.dev (os { s.dev with mgmt := { s.dev.mgmt with reloading := true } } 0x2E11 3 1) [okey 0x2E11 3] :=
    ((ObjsKept.refl s.dev [okey 0x2E11 3]).os 0x2E11 3 1 (by simp)).congr rfl
  refine .answered (e := os { s.dev with mgmt := { s.dev.mgmt with reloading := true } } 0x2E11 3 1) (st := .ok) hs (exec_reloadStored s)
    (reloadStored_begins hb hm) rfl rfl ⟨rfl, hset, rfl, hkept⟩

theorem reloadEnd_unread {d : Dev} (hr : d.mgmt.reloading = true) (hk : keyUsable d = false) :
    reloadEnd d = os { d with mgmt := { d.mgmt with reloading := false } } 0x2E11 3 3 := by
  have hk' : keyUsable { d with mgmt := { d.mgmt with reloading := false } } = false := hk
  unfold reloadEnd
  rw [hr]
  dsimp only
  rw [hk']
  rfl

theorem reloadEnd_loads {d : Dev} {q : ParamSet} (hr : d.mgmt.reloading = true) (hk : keyUsable d = true) (hq : newestParams d.key = some q) :
    reloadEnd d = os (loadKeys { d with mgmt := { d.mgmt with reloading := false } } (fun _ => false) q.nums q.strs) 0x2E11 3 2 := by
  have hk' : keyUsable { d with mgmt := { d.mgmt with reloading := false } } = true := hk
  unfold reloadEnd
  rw [hr]
  dsimp only
  rw [hk', if_pos rfl, hq]
  rfl

theorem reloadComplete_unread {s : State} (hs : Settled s) (hr : s.dev.mgmt.reloading = true) (hk : keyUsable s.dev = false) :
    Does .reloadComplete s (fun d => d.mgmt = { s.dev.mgmt with reloading := false } ∧ og d 0x2E11 3 = 3 ∧
      d = { s.dev with objs := d.objs, mgmt := d.mgmt } ∧ ObjsKept s.dev d [okey 0x2E11 3]) := by
  have hset : og (os { s.dev with mgmt := { s.dev.mgmt with reloading := false } } 0x2E11 3 3) 0x2E11 3 = 3 := og_os_same ..
  have hkept : ObjsKept s.dev (os { s.dev with mgmt := { s.dev.mgmt with reloading := false } } 0x2E11 3 3) [okey 0x2E11 3] :=
    ((ObjsKept.refl s.dev [okey 0x2E11 3]).os 0x2E11 3 3 (by simp)).congr rfl
  exact .of_eq (exec_reloadComplete s) (reloadEnd_unread hr hk) hs.1 hs.2 ⟨rfl, hset, rfl, hkept⟩

theorem reloadComplete_loads {s : State} {q : ParamSet} (hr : s.dev.mgmt.reloading = true) (hk : keyUsable s.dev = true)
    (hq : newestParams s.dev.key = some q) (hn : (q.nums.map Prod.fst).Nodup) : Leaves .reloadComplete s (fun d =>
      d.mgmt.reloading = false ∧ og d 0x2E11 3 = 2 ∧
      ∀ n v, n < 192 → (okey (0x3900 + n) 1, v) ∈ q.nums → og d (0x3900 + n) 1 = v) := by
  refine .of_upd (exec_reloadComplete s) ?_
  rw [reloadEnd_loads hr hk hq]
  obtain ⟨a, ha⟩ : ∃ a, a = ({ s.dev with mgmt := { s.dev.mgmt with reloading := false } } : Dev) := ⟨_, rfl⟩
  have hoff : a.mgmt.reloading = false := by rw [ha]
  rw [← ha]
  obtain ⟨e, he, hog, -, -, hrel, -⟩ := loadKeys_loaded a (fun _ => false) q.nums q.strs
  generalize loadKeys a (fun _ => false) q.nums q.strs = f at hog hrel
  refine ⟨hrel.trans hoff, og_os_same f 0x2E11 3 2, fun n v hlt hmem => ?_⟩
  rw [og_os, if_neg (by unfold okey; omega), hog _ 1 (by unfold StayIndex; omega) (by decide), he]
  exact og_keysLoaded_listed q.strs hn hmem

theorem reloadComplete_idle {s : State} (hs : Settled s) (hr : s.dev.mgmt.reloading = false) : Idles .reloadComplete s := by
  refine .of_upd hs (exec_reloadComplete s) ?_
  unfold reloadEnd
  rw [hr]
  rfl

/-- Settles O20: the store by the sets of the key, restore and reload by what stays while the values that were loaded take effect. -/
theorem parametersAreStoredAndReset : Obligations.ParametersAreStoredAndReset := by
  unfold Obligations.ParametersAreStoredAndReset
  refine ⟨fun s => ⟨fun hs hr => ?_, fun hs hr hw => ?_, fun hs hr hw hb => ?_, fun hs hr hw hst hre h5 => ?_, fun hs hr hw hst hre h5 h0 hsize hk => ?_,
    fun hs hst hk hw => storeComplete_written hs hst hk hw, storeComplete_failed, fun hs hst => storeComplete_idle hs hst⟩,
    fun s hw hst => ⟨fun hs hr hre hm => ?_, fun hr hre hm => ?_, fun hs hr hre hm => ?_, fun hs hre hk => reloadComplete_unread hs hre hk,
      fun q hre hk hq hn => reloadComplete_loads hre hk hq hn, fun hs hre => reloadComplete_idle hs hre⟩⟩
  · have hb := storeBusy_notReady hr
    exact ⟨.answered hs (exec_storeParameters s) (storeParams_held hb), .answered hs (exec_restoreDefaults s) (restoreDefaults_held hb),
      .answered hs (exec_reloadStored s) (reloadStored_held hb)⟩
  · exact .answered hs (exec_storeParameters s) (storeParams_held (storeBusy_warned hr hw))
  · exact .answered hs (exec_storeParameters s) (storeParams_held (storeBusy_busy hr hw hb))
  · exact .answered hs (exec_storeParameters s) (by simp [storeParams, storeBusy_free hr hw hst hre, h5])
  · exact storeParameters_begins hs (storeBusy_free hr hw hst hre) h5 h0 hsize hk
  · have hb := storeBusy_free hr hw hst hre
    exact ⟨.answered hs (exec_restoreDefaults s) (restoreDefaults_refused hb hm), .answered hs (exec_reloadStored s) (reloadStored_refused hb hm)⟩
  · exact restoreDefaults_restores (storeBusy_free hr hw hst hre) hm
  · exact reloadStored_runs hs (storeBusy_free hr hw hst hre) hm

end Sys2Proof.Machine
end

section
/-! ## What a control instant leaves as it was

The control phase runs through two hundred functions of the device. What the statement of the instants needs of them is one view of the
device: the counters of the instants, the values in force, some objects, and that no report names a source the reactions do not know. Each
function leaves the view as it is, and says so once, as a rewriting rule. -/
namespace Sys2Proof.Machine

/-- The objects that are watched: the reactions and the axes' clusters, and for a tight instant the axes' states and references. -/
def watched (t : Bool) (key : Nat) : Bool :=
  key % 256 == 1 && (decide (0x3900 ≤ key / 256) && decide (key / 256 < 0x3A00) ||
    decide (0x8000 ≤ key / 256) && (key / 256 % 64 == 0x1D || t && (key / 256 % 64 == 0x24 || key / 256 % 64 == 9)))

/-- An object that is not watched. -/
def Spared (t : Bool) (i c : Nat) : Prop := watched t (okey i c) = false

/-- The values of the watched objects. -/
def watchedValues (t : Bool) (d : Dev) (key : Nat) : Nat := if watched t key then tget objDefault d.objs key else 0

/-- A source that is none of the collector's and none of a cluster's (R379). -/
def OddSource (t : Bool) (d : Dev) (src : Nat) : Prop :=
  256 ≤ src ∧ ∀ n j, j < 4 → src ≠ 48 + j + 4 * watchedValues t d (okey (ax n 0x1D) 1)

/-- What is looked at of the device. -/
structure View where
  k : Nat
  kc : Nat
  kt : Nat
  inForce : Table Nat
  values : Nat → Nat
  odd : Report → Prop

def view (t : Bool) (d : Dev) : View :=
  ⟨d.time.k, d.time.kc, d.time.kt, d.inForce, watchedValues t d, fun r => r ∈ d.fc.todo ∧ OddSource t d r.src⟩

/-! ### Objects that are not watched -/

section
variable {t : Bool}

@[simp] theorem spared_sub (i : Nat) {c : Nat} (h : c ≠ 1) (hc : c < 256) : Spared t i c := by
  unfold Spared watched okey
  have h1 : ((i * 256 + c) % 256 == 1) = false := by simp; omega
  rw [h1, Bool.false_and]

@[simp] theorem spared_below {i : Nat} (h : i < 0x3900) : Spared t i 1 := by
  unfold Spared watched okey
  simp
  omega

@[simp] theorem spared_between {i : Nat} (h : 0x3A00 ≤ i) (h' : i < 0x8000) : Spared t i 1 := by
  unfold Spared watched okey
  simp
  omega

@[simp] theorem spared_axis (n : Nat) {o : Nat} (ho : o < 64) (h : o ≠ 0x1D) (ht : t = true → o ≠ 0x24 ∧ o ≠ 9) : Spared t (ax n o) 1 := by
  unfold Spared watched okey ax
  cases t
  · simp
    omega
  · have := ht rfl
    simp
    omega

theorem watchedValues_os (d : Dev) {i c : Nat} (v : Nat) (h : Spared t i c) : watchedValues t (os d i c v) = watchedValues t d := by
  funext key
  unfold watchedValues
  split
  · next hk =>
    have hne : key ≠ okey i c := by
      rintro rfl
      rw [h] at hk
      exact absurd hk (by decide)
    show tget objDefault (tput objDefault d.objs (okey i c) v) key = _
    rw [tget_tput, if_neg hne]
  · rfl

/-- Devices of the same clock, objects and values in force differ in the view only by odd reports. -/
theorem view_eq {a b : Dev} (hk : b.time.k = a.time.k) (hkc : b.time.kc = a.time.kc) (hkt : b.time.kt = a.time.kt) (hf : b.inForce = a.inForce)
    (hv : watchedValues t b = watchedValues t a) (ho : ∀ r, OddSource t a r.src → (r ∈ b.fc.todo ↔ r ∈ a.fc.todo)) : view t b = view t a := by
  have hodd (src : Nat) : OddSource t b src ↔ OddSource t a src := by unfold OddSource; rw [hv]
  unfold view
  rw [hk, hkc, hkt, hf, hv]
  congr 1
  funext r
  refine propext ⟨fun h => ?_, fun h => ?_⟩
  · have hr := (hodd r.src).1 h.2
    exact ⟨(ho r hr).1 h.1, hr⟩
  · exact ⟨(ho r h.2).2 h.1, (hodd r.src).2 h.2⟩

@[simp] theorem view_os (d : Dev) {i c : Nat} (v : Nat) (h : Spared t i c) : view t (os d i c v) = view t d :=
  view_eq rfl rfl rfl rfl (watchedValues_os d v h) fun _ _ => .rfl

@[simp] theorem view_osb (d : Dev) {i c : Nat} (b : Nat) (v : Bool) (h : Spared t i c) : view t (osb d i c b v) = view t d := view_os d _ h
@[simp] theorem view_osf (d : Dev) {i c : Nat} (v : F32) (h : Spared t i c) : view t (osf d i c v) = view t d := view_os d _ h
@[simp] theorem view_osi (w : Nat) (d : Dev) {i c : Nat} (v : Int) (h : Spared t i c) : view t (osi w d i c v) = view t d := view_os d _ h

theorem view_report (d : Dev) (r : Report) (h : ¬ OddSource t d r.src) : view t { d with fc := { d.fc with todo := d.fc.todo ++ [r] } } = view t d := by
  refine view_eq rfl rfl rfl rfl rfl fun x hx => ?_
  have hne : x ≠ r := fun e => h (e ▸ hx)
  simp [hne]

@[simp] theorem view_later (d : Dev) {src : Nat} (cause datum : Nat) (h : src < 256) : view t (later d src cause datum) = view t d :=
  view_report d _ fun ho => absurd ho.1 (by simp only; omega)

/-- A report of an axis names a source of its cluster. -/
theorem cluster_notOdd (d : Dev) (n : Nat) {j : Nat} (hj : j < 4) : ¬ OddSource t d (48 + j + 4 * cluster d n) := by
  rintro ⟨-, h⟩
  refine h n j hj ?_
  have hw : watched t (okey (ax n 0x1D) 1) = true := by
    unfold watched okey ax
    simp
    omega
  unfold watchedValues
  rw [if_pos hw]
  rfl

@[simp] theorem view_laterStop (d : Dev) (j : Nat) (m n cause stop : Nat) (hj : j < 4) :
    view t (laterStop d (48 + j + 4 * cluster d m) cause n stop) = view t d := view_report d _ (cluster_notOdd d m hj)

@[simp] theorem view_laterStop_low (d : Dev) {src : Nat} (cause n stop : Nat) (h : src < 256) : view t (laterStop d src cause n stop) = view t d :=
  view_report d _ fun ho => absurd ho.1 (by simp only; omega)

@[simp] theorem view_bump (d : Dev) {i c : Nat} (h : Spared t i c) : view t (bump d i c) = view t d := by
  unfold bump
  dsimp only
  split
  · rfl
  · split
    · simp [h]
    · simp [h]

@[simp] theorem view_bumpBy (d : Dev) {i c : Nat} (n : Nat) (h : Spared t i c) : view t (bumpBy d i c n) = view t d := by
  unfold bumpBy
  dsimp only
  split
  · rfl
  · split
    · simp [h]
    · simp [h]

theorem view_foldl {α : Type} {f : Dev → α → Dev} (xs : List α) (hf : ∀ d, ∀ x ∈ xs, view t (f d x) = view t d) (d : Dev) :
    view t (xs.foldl f d) = view t d := by
  induction xs generalizing d with
  | nil => rfl
  | cons x xs ih => exact (ih (fun d y hy => hf d y (by simp [hy])) _).trans (hf d x (by simp))

/-! ### Parts of the device that are not looked at -/

@[simp] theorem view_setMot (d : Dev) (n : Nat) (m : MotionSt) : view t (setMot d n m) = view t d := rfl
@[simp] theorem view_setSrv (d : Dev) (n : Nat) (m : ServoSt) : view t (setSrv d n m) = view t d := rfl
@[simp] theorem view_setCur (d : Dev) (n : Nat) (m : CurrentSt) : view t (setCur d n m) = view t d := rfl
@[simp] theorem view_setStp (d : Dev) (n : Nat) (m : StepperSt) : view t (setStp d n m) = view t d := rfl
@[simp] theorem view_setPls (d : Dev) (i : Nat) (m : PulseSt) : view t (setPls d i m) = view t d := rfl
@[simp] theorem view_setEmu (d : Dev) (i : Nat) (m : EmuSt) : view t (setEmu d i m) = view t d := rfl
@[simp] theorem view_setChan (d : Dev) (i : Nat) (m : ChanSt) : view t (setChan d i m) = view t d := rfl
@[simp] theorem view_setSeg (d : Dev) (g : Nat) (m : SegSt) : view t (setSeg d g m) = view t d := rfl
@[simp] theorem view_setHd (d : Dev) (g j : Nat) (m : HeadNode) : view t (setHd d g j m) = view t d := rfl
@[simp] theorem view_padWrite (d : Dev) (c a : Nat) (b : Bytes) : view t (padWrite d c a b) = view t d := rfl
@[simp] theorem view_emit (d : Dev) (m : Msg) : view t (emit d m) = view t d := rfl
@[simp] theorem view_setAset (d : Dev) (a : Nat) (m : SetSt) : view t (setAset d a m) = view t d := rfl
@[simp] theorem view_setDom (d : Dev) (n : Nat) (x : DomainSt) : view t (setDom d n x) = view t d := by unfold setDom; split <;> rfl

/-! ### The log -/

@[simp] theorem view_number (d : Dev) : view t (number d).1 = view t d := by
  unfold number
  split
  · rfl
  · split
    · simp
    · rfl

@[simp] theorem view_bufferEntry (d : Dev) (e : LogEntry) : view t (bufferEntry d e) = view t d := rfl

@[simp] theorem view_logEntry (d : Dev) (e : LogEntry) : view t (logEntry d e) = view t d := by
  unfold logEntry
  split
  · split
    · simp
    · simp only [view_bufferEntry]; rfl
  · split
    · simp
    · simp

@[simp] theorem view_event (d : Dev) (b c v : Nat) : view t (event d b c v).1 = view t d := by
  have hn := view_number (t := t) d
  unfold event
  split
  · next h => rw [h] at hn; exact hn
  · next h => rw [h] at hn; simpa using hn

@[simp] theorem view_log (d : Dev) (b c v : Nat) : view t (log d b c v) = view t d := view_event d b c v

@[simp] theorem view_occur (d : Dev) (kind g : Nat) : view t (occur d kind g) = view t d := by
  obtain ⟨u, hu, hp⟩ := occur_points d kind g
  rw [hu]
  exact view_eq (congrArg (·.k) hp) (congrArg (·.kc) hp) (congrArg (·.kt) hp) rfl rfl fun _ _ => .rfl
end

/-! ### An axis at rest -/

@[simp] theorem view_showAxis (t : Bool) (d : Dev) (n : Nat) : view t (showAxis d n) = view t d := by
  unfold showAxis
  dsimp only
  split
  · split
    · simp
    · simp
  · simp

@[simp] theorem view_retireBlend (t : Bool) (d : Dev) (n : Nat) : view t (retireBlend d n) = view t d := by
  unfold retireBlend
  split
  · simp
  · rfl

@[simp] theorem view_homeAbort (t : Bool) (d : Dev) (n result : Nat) : view t (homeAbort d n result) = view t d := by
  unfold homeAbort
  split
  · simp
  · rfl

@[simp] theorem view_stepperOff (t : Bool) (d : Dev) (n : Nat) : view t (stepperOff d n) = view t d := by
  unfold stepperOff
  split
  · simp
  · rfl

@[simp] theorem view_axisOff (d : Dev) (n st : Nat) : view false (axisOff d n st) = view false d := by simp [axisOff]

@[simp] theorem view_setCause (t : Bool) (d : Dev) (n cause seq : Nat) : view t (setCause d n cause seq) = view t d := by simp [setCause]

end Sys2Proof.Machine
end

section
/-! ## What a report leaves as it was -/
namespace Sys2Proof.Machine

section
variable {t : Bool}

@[simp] theorem view_sendPair (d : Dev) (typ : Nat) (b : Bytes) : view t (sendPair d typ b) = view t d := by
  rw [sendPair_frame]
  rfl

@[simp] theorem view_forwardItem (d : Dev) (it : FwdItem) : view t (forwardItem d it) = view t d := by
  unfold forwardItem
  dsimp only
  split
  · simp
  · simp only [view_sendPair]
    rfl

@[simp] theorem view_pushDemand (d : Dev) (n : Nat) (cat : StopCat) (cause seq : Nat) : view t (pushDemand d n cat cause seq) = view t d := by
  unfold pushDemand
  split
  · rfl
  · rfl

@[simp] theorem view_safeHoldNow (d : Dev) (cause seq : Nat) : view t (safeHoldNow d cause seq) = view t d := by
  have hset (e : Dev) :
      view t (if e.power.safeHold.isNone then { e with power := { e.power with safeHold := some ⟨cause, seq, og e 0x1021 2 = 1⟩ } } else e) = view t e := by
    split
    · rfl
    · rfl
  unfold safeHoldNow
  dsimp only
  split
  · split
    · rw [view_foldl _ fun e n _ => view_pushDemand e n _ 5 seq, hset]
    · exact hset d
  · rfl

@[simp] theorem view_safeHoldEntry (d : Dev) (cause seq : Nat) : view t (safeHoldEntry d cause seq) = view t d := by
  unfold safeHoldEntry
  split
  · simp only [view_forwardItem]
    rfl
  · simp

@[simp] theorem view_trapStep (d : Dev) (step seq : Nat) : view t (trapStep d step seq) = view t d := by
  unfold trapStep
  dsimp only
  split
  · simp
  split
  · exact view_foldl _ (fun e n _ => view_pushDemand e n _ 4 seq) d
  split
  · exact view_foldl _ (fun e n _ => view_pushDemand e n _ 4 seq) d
  split
  · split
    · rfl
    · rfl
  split
  · rfl
  · rfl

@[simp] theorem view_trapSteps (seq : Nat) (l : List Nat) : ∀ d : Dev, view t (trapSteps d seq l) = view t d := by
  induction l with
  | nil => exact fun _ => rfl
  | cons st rest ih =>
    intro d
    unfold trapSteps
    split
    · rfl
    · rw [ih, view_trapStep]

@[simp] theorem view_trapPlan (d : Dev) (p seq : Nat) : view t (trapPlan d p seq) = view t d := view_trapSteps ..

@[simp] theorem view_faultLog (d : Dev) (r : Report) (seq : Option Nat) : view t (faultLog d r seq) = view t d := by
  unfold faultLog
  split
  · rfl
  · simp

@[simp] theorem view_noteFault (d : Dev) (src : Nat) (seq : Option Nat) : view t (noteFault d src seq) = view t d := by
  unfold noteFault
  refine view_foldl _ (fun e a _ => ?_) d
  split
  · rfl
  · simp

@[simp] theorem view_latch (d : Dev) (r : Report) (seq : Nat) : view t (latch d r seq) = view t d := by
  unfold latch
  split
  · simp
  · simp

@[simp] theorem view_sourceStatus (d : Dev) (src datum : Nat) : view t (sourceStatus d src datum) = view t d := by
  unfold sourceStatus
  split
  · simp
  split
  · simp
  split
  · simp
  split
  · dsimp only
    split
    · simp
    · simp
  · rfl

@[simp] theorem view_sourceEnded (d : Dev) (src : Nat) : view t (sourceEnded d src) = view t d := by
  unfold sourceEnded
  split
  · simp
  split
  · simp
  split
  · simp
  split
  · dsimp only
    split
    · simp
    · simp
  · rfl

@[simp] theorem view_deassert (d : Dev) (src : Nat) : view t (deassert d src) = view t d := by
  unfold deassert
  split
  · simp only [view_sourceEnded]
    rfl
  · rfl

/-! ### Segments -/

theorem spared_node (l k o : Nat) (h : fnx l k o < 0x8000) : Spared t (fnx l k o) 1 := by
  refine spared_between ?_ h
  unfold fnx
  omega

@[simp] theorem view_mouldStatus (d : Dev) (g : Nat) : view t (mouldStatus d g) = view t d := by
  unfold mouldStatus
  dsimp only
  split
  · rw [view_foldl]
    · split
      · rfl
      · simp
    · intro e i hi
      have := List.mem_range.1 hi
      exact view_os e 0 (spared_sub _ (by omega) (by omega))
  · split
    · simp
    · simp

@[simp] theorem view_syncMoulds (d : Dev) : view t (syncMoulds d) = view t d := by
  unfold syncMoulds
  dsimp only
  rw [view_os _ _ (by simp), view_foldl _ fun e g _ => view_mouldStatus e g]

@[simp] theorem view_takeMould (d : Dev) (g : Nat) : view t (takeMould d g) = view t d := by
  unfold takeMould
  split
  · simp
  · rfl

theorem view_nodesForgotten (d : Dev) {g : Nat} (hg : g < 12) : view t (nodesForgotten d g) = view t d := by
  unfold nodesForgotten
  refine view_foldl _ (fun e p _ => ?_) d
  split
  · simp
  · rw [view_os _ _ (spared_node _ _ _ (by unfold fnx; omega)), view_setHd]

theorem view_forgetNodes (d : Dev) {g : Nat} (hg : g < 12) : view t (forgetNodes d g) = view t d := by
  rw [forgetNodes_eq, view_takeMould, view_os _ _ (by simp), view_setSeg, view_nodesForgotten d hg]

@[simp] theorem view_stateShown (d : Dev) (g st : Nat) : view t (stateShown d g st) = view t d := by simp [stateShown]

@[simp] theorem view_relayInterrupt (d : Dev) : view t (relayInterrupt d) = view t d := by
  unfold relayInterrupt
  split
  · rw [view_os _ _ (by simp)]
    rfl
  · rfl

@[simp] theorem view_segIdled (d : Dev) (g : Nat) : view t (segIdled d g) = view t d := by
  unfold segIdled
  dsimp only
  split
  · simp
  · simp

theorem view_setSegState (d : Dev) {g : Nat} (hg : g < 12) (st : Nat) : view t (setSegState d g st) = view t d := by
  by_cases h : st ≤ 1
  · rw [setSegState_toIdle d g h]
    split
    · rfl
    · rw [view_segIdled, view_forgetNodes _ hg, view_stateShown]
  · rw [setSegState_toActive d g (by omega)]
    split
    · rfl
    · split
      · rw [view_forgetNodes _ hg, view_stateShown]
      · simp

@[simp] theorem view_disableAxis (d : Dev) (n cause seq : Nat) : view false (disableAxis d n cause seq) = view false d := by
  unfold disableAxis
  split
  · simp
  · rfl

theorem view_segLeave (d : Dev) {g : Nat} (hg : g < 12) (st : Nat) (report : Bool) : view false (segLeave d g st report) = view false d := by
  have haxes : view false ((segAxes (setSegState d g st) g).foldl (fun d n => disableAxis d n 7 0) (setSegState d g st)) = view false d := by
    rw [view_foldl _ fun e n _ => view_disableAxis e n 7 0, view_setSegState d hg]
  unfold segLeave
  dsimp only
  split
  · split
    · rw [view_later _ _ _ (by omega), haxes]
    · exact haxes
  · exact view_setSegState d hg st

/-! ### PTP domains and channels -/

@[simp] theorem view_segStatus (d : Dev) (b : Nat) (v : Bool) : view t (segStatus d b v) = view t d := by simp [segStatus]

@[simp] theorem view_switchSource (d : Dev) (src : Nat) : view t (switchSource d src) = view t d := by
  unfold switchSource
  dsimp only
  split
  · rw [view_segStatus, view_osf _ _ (by simp)]
    refine Eq.trans (b := view t (segStatus (segStatus (segStatus (osf (log (bump (os d 0x3410 6 src) 0x3410 0x0A) 2 1 src) 0x3410 8 0) 2 false) 1 false)
      3 (src = 0))) rfl ?_
    simp
  · simp

@[simp] theorem view_leftLocked (d : Dev) (n : Nat) : view t (leftLocked d n) = view t d := by
  unfold leftLocked
  split
  · rfl
  · split
    · simp
    · simp

theorem view_setDomState (d : Dev) {n : Nat} (hn : n < 2) (st : Nat) : view t (setDomState d n st) = view t d := by
  have h : view t (os d (0x3428 + n) 1 st) = view t d := view_os d st (spared_below (by omega))
  unfold setDomState
  dsimp only
  split
  · rw [view_leftLocked, h]
  · exact h

theorem view_domHoldover (d : Dev) {n : Nat} (hn : n < 2) : view t (domHoldover d n) = view t d := by
  unfold domHoldover
  split
  · rw [view_setDomState _ hn, view_setDom]
  · rfl

@[simp] theorem view_emuStop (d : Dev) (m ticks : Nat) : view t (emuStop d m ticks) = view t d := rfl
@[simp] theorem view_chanStop (d : Dev) (c : Nat) : view t (chanStop d c) = view t d := rfl

@[simp] theorem view_chanRun (d : Dev) (c ticks : Nat) : view t (chanRun d c ticks) = view t d := by
  unfold chanRun
  dsimp only
  split
  · simp
  · simp

@[simp] theorem view_storeLost (d : Dev) : view t (storeLost d) = view t d := by
  have hidle : view t ((List.range 4).foldl (fun d s => os d (0x3613 + 0x10 * s) 1 0) d) = view t d :=
    view_foldl _ (fun e s hs => view_os e 0 (spared_below (by have := List.mem_range.1 hs; omega))) d
  unfold storeLost
  dsimp only
  rw [view_os _ _ (by simp), ← hidle]
  rfl
end

/-! ### Blocks that lose their readiness -/

theorem view_emuLost (d : Dev) : view false (lostBit d 16) = view false d := by
  have hstops : view false ((List.range 8).foldl (fun e m => emuStop e m (fabricTicks d)) d) = view false d :=
    view_foldl _ (fun e m _ => view_emuStop e m _) d
  refine Eq.trans (view_foldl _ (fun e n _ => ?_) _) hstops
  split
  · rw [show 50 + 4 * cluster e n = 48 + 2 + 4 * cluster e n from rfl]
    have hc : cluster (osb e (ax n 0x1B) 7 4 true) n = cluster e n := by
      unfold cluster osb
      rw [og_os, if_neg (by unfold okey ax; omega)]
    rw [← hc, view_laterStop _ 2 n n 1 2 (by decide), view_osb _ _ _ (by simp)]
  · rfl

theorem view_chansLost (d : Dev) (ticks : Nat) :
    view false ((List.range 16).foldl (fun d c => chanStop (chanRun d c ticks) c) d) = view false d :=
  view_foldl _ (fun e c _ => (view_chanStop _ c).trans (view_chanRun e c ticks)) d

theorem view_queueDropped (d : Dev) : view false { d with pair := { d.pair with queue := [] } } = view false d := rfl

theorem view_lostBit (d : Dev) {b : Nat} (hb : b < 32) : view false (lostBit d b) = view false d := by
  by_cases h16 : b = 16
  · rw [h16]; exact view_emuLost d
  unfold lostBit
  split
  · next hr =>
    have h : view false ((clusterAxes (setPad d (b - 6) Pad.clear) (b - 6)).foldl (fun d n => disableAxis d n 4 0) (setPad d (b - 6) Pad.clear)) = view false d :=
      view_foldl _ (fun e n _ => view_disableAxis e n 4 0) _
    dsimp only
    split
    · rw [view_later _ _ _ (by omega), h]
    · exact h
  split
  · next hg =>
    have hg' : b - 18 < 12 := by simp only [Bool.and_eq_true, decide_eq_true_eq] at hg; omega
    have ho : phyStatus (b - 18) < 0x3900 := by
      have := (sgb_index hg').2.1
      unfold phyStatus
      split <;> omega
    dsimp only
    rw [view_segLeave _ hg', view_os _ _ (by simp), view_os _ _ (spared_below ho)]
  split
  · simp
  split
  · exact view_chansLost d (stepTicks d)
  split
  · rw [view_domHoldover _ (by decide), view_domHoldover _ (by decide)]
  split
  · exact (view_os _ 0 (by simp)).trans (view_queueDropped d)
  · rfl

theorem view_clearReady (d : Dev) (bs : List Nat) : view false (clearReady d bs) = view false d := by
  refine Eq.trans (view_foldl _ (fun e b hb => view_lostBit e ?_) _) (view_os d _ (by simp))
  exact List.mem_range.1 (List.mem_filter.1 hb).1

theorem view_blockReset (d : Dev) (bs : List Nat) : view false (blockReset d bs) = view false d := by
  unfold blockReset
  rw [view_clearReady, view_os _ _ (by simp)]

end Sys2Proof.Machine
end

section
/-! ## Reports where no source resets the chip -/
namespace Sys2Proof.Machine

/-- No source resets the chip, and each axis is in a cluster. -/
structure Benign (v : View) : Prop where
  reset : ∀ src, src < 256 → bit (v.values (okey (0x3900 + src) 1)) 3 = false
  clusters : ∀ n, v.values (okey (ax n 0x1D) 1) < 8

theorem values_reaction (t : Bool) (d : Dev) {src : Nat} (h : src < 256) : (view t d).values (okey (0x3900 + src) 1) = og d (0x3900 + src) 1 := by
  have hw : watched t (okey (0x3900 + src) 1) = true := by
    unfold watched okey
    simp
    omega
  exact if_pos hw

theorem values_cluster (t : Bool) (d : Dev) (n : Nat) : (view t d).values (okey (ax n 0x1D) 1) = cluster d n := by
  have hw : watched t (okey (ax n 0x1D) 1) = true := by
    unfold watched okey ax
    simp
    omega
  exact if_pos hw

theorem Benign.reaction {d : Dev} (h : Benign (view false d)) {src : Nat} (hs : src < 256) : bit (og d (0x3900 + src) 1) 3 = false := by
  rw [← values_reaction false d hs]
  exact h.reset src hs

theorem Benign.cluster {d : Dev} (h : Benign (view false d)) (n : Nat) : Machine.cluster d n < 8 := by
  rw [← values_cluster false d n]
  exact h.clusters n

theorem view_react {d : Dev} (r : Report) (seq : Option Nat) (h : bit (og d (0x3900 + r.src) 1) 3 = false) : view false (react d r seq) = view false d := by
  unfold react
  dsimp only
  rw [h, if_neg Bool.false_ne_true]
  have hpins : view false (if bit (og d (0x3900 + r.src) 1) 4 then { d with fc := { d.fc with errPins := true } } else d) = view false d := by
    split
    · rfl
    · rfl
  generalize (if bit (og d (0x3900 + r.src) 1) 4 then { d with fc := { d.fc with errPins := true } } else d) = e at hpins
  have htrap : view false (if bit (og d (0x3900 + r.src) 1) 1 then trapPlan e (og e (0x3900 + r.src) 2) (seq.getD 0) else e) = view false d := by
    split
    · rw [view_trapPlan, hpins]
    · exact hpins
  generalize (if bit (og d (0x3900 + r.src) 1) 1 then trapPlan e (og e (0x3900 + r.src) 2) (seq.getD 0) else e) = f at htrap
  have hlog : view false (if bit (og d (0x3900 + r.src) 1) 0 then faultLog f r seq else f) = view false d := by
    split
    · rw [view_faultLog, htrap]
    · exact htrap
  split
  · rw [view_blockReset, hlog]
  · exact hlog

theorem view_assertReport {d : Dev} (hb : Benign (view false d)) (r : Report) (h : r.src < 256) : view false (assertReport d r).1 = view false d := by
  unfold assertReport
  split
  · rfl
  split
  · rfl
  dsimp only
  have hlit : view false (if levelSource r.src && !r.wire && !r.force then
      sourceStatus { d with fc := { d.fc with cond := setBit d.fc.cond r.src true } } r.src r.datum else d) = view false d := by
    split
    · exact view_sourceStatus ..
    · rfl
  generalize (if levelSource r.src && !r.wire && !r.force then
    sourceStatus { d with fc := { d.fc with cond := setBit d.fc.cond r.src true } } r.src r.datum else d) = e at hlit
  have hbump : view false (bump e (0x3840 + r.src) 0) = view false d := by rw [view_bump _ (by simp), hlit]
  split
  · split
    · exact hbump
    · split
      · rw [view_faultLog, view_number, hlit]
      · exact hlit
  · have hnoted : view false (noteFault (latch (number (bump e (0x3840 + r.src) 0)).1 r ((number (bump e (0x3840 + r.src) 0)).2.getD 0)) r.src
        (number (bump e (0x3840 + r.src) 0)).2) = view false d := by rw [view_noteFault, view_latch, view_number, hbump]
    rw [view_react r _ ((hnoted.symm ▸ hb : Benign _).reaction h), hnoted]

theorem view_raise {d : Dev} (hb : Benign (view false d)) {src : Nat} (cause datum : Nat) (h : src < 256) :
    view false (raise d src cause datum).1 = view false d := view_assertReport hb _ h

theorem view_foldl_of {t : Bool} {α : Type} {f : Dev → α → Dev} {P : View → Prop} (xs : List α)
    (hf : ∀ d, P (view t d) → ∀ x ∈ xs, view t (f d x) = view t d) {d : Dev} (hd : P (view t d)) : view t (xs.foldl f d) = view t d := by
  induction xs generalizing d with
  | nil => rfl
  | cons x xs ih =>
    have hx := hf d hd x (by simp)
    exact (ih (fun e he y hy => hf e he y (by simp [hy])) (by rw [hx]; exact hd)).trans hx

@[simp] theorem view_torqueOff (d : Dev) (n cause seq : Nat) : view false (torqueOff d n cause seq) = view false d := by
  unfold torqueOff
  split
  · rfl
  · split
    · simp
    · simp

@[simp] theorem view_faultStop (t : Bool) (d : Dev) (n : Nat) (seq : Option Nat) : view t (faultStop d n seq) = view t d := view_pushDemand ..

theorem view_stopOf (d : Dev) (r : Report) (q : Option Nat) : view false (stopOf d r q) = view false d := by
  unfold stopOf
  split
  · exact view_foldl _ (fun e n _ => by simp) d
  split
  · simp
  split
  · simp
  · rfl

/-! ### The reports of a step -/

/-- The device looks as `v`, and its reports name sources of the collector. -/
structure Steady (v : View) (d : Dev) : Prop where
  k : d.time.k = v.k
  kc : d.time.kc = v.kc
  kt : d.time.kt = v.kt
  inForce : d.inForce = v.inForce
  values : watchedValues false d = v.values
  known : ∀ r ∈ d.fc.todo, r.src < 256

theorem Steady.benign {v : View} {d : Dev} (h : Steady v d) (hb : Benign v) : Benign (view false d) :=
  ⟨fun src hs => by rw [show (view false d).values = v.values from h.values]; exact hb.reset src hs,
    fun n => by rw [show (view false d).values = v.values from h.values]; exact hb.clusters n⟩

theorem Steady.of_view {v : View} {a b : Dev} (h : Steady v a) (hb : Benign v) (e : view false b = view false a) : Steady v b := by
  have hvalues : watchedValues false b = v.values := (congrArg View.values e).trans h.values
  refine ⟨(congrArg View.k e).trans h.k, (congrArg View.kc e).trans h.kc, (congrArg View.kt e).trans h.kt,
    (congrArg View.inForce e).trans h.inForce, hvalues, fun r hr => ?_⟩
  by_contra hlarge
  have hodd : OddSource false b r.src := by
    refine ⟨by omega, fun n j hj hsrc => ?_⟩
    have hc := hb.clusters n
    rw [hvalues] at hsrc
    omega
  have hb' : (view false b).odd r := ⟨hr, hodd⟩
  rw [e] at hb'
  exact hlarge (h.known r hb'.1)

theorem drain_steady {v : View} (hb : Benign v) (n : Nat) : ∀ d : Dev, Steady v d → Steady v (drain n d) := by
  induction n with
  | zero => exact fun _ h => h
  | succ n ih =>
    intro d h
    rw [drain_succ]
    split
    · exact h
    · next r rs htodo =>
      have hpop : Steady v { d with fc := { d.fc with todo := rs } } :=
        ⟨h.k, h.kc, h.kt, h.inForce, h.values, fun x hx => h.known x (by rw [htodo]; exact List.mem_cons_of_mem r hx)⟩
      have hr : r.src < 256 := h.known r (by rw [htodo]; exact List.mem_cons_self ..)
      exact ih _ (hpop.of_view hb ((view_stopOf ..).trans (view_assertReport (hpop.benign hb) r hr)))

theorem upd_steady {v : View} (hb : Benign v) {s : State} {f : Dev → Dev} (h : Steady v (f s.dev)) : Steady v (upd s f).dev := by
  have hfin : Steady v (finish (f s.dev)) := drain_steady hb 4096 _ h
  unfold upd
  dsimp only
  split
  · exact ⟨hfin.k, hfin.kc, hfin.kt, hfin.inForce, hfin.values, hfin.known⟩
  · exact hfin

end Sys2Proof.Machine
end

section
/-! ## What the inputs of a control instant leave as it was -/
namespace Sys2Proof.Machine

section
variable {β : Type} {φ : Dev → β}

theorem same_ite {c : Prop} [Decidable c] {a b d : Dev} (ha : φ a = φ d) (hb : φ b = φ d) : φ (if c then a else b) = φ d := by
  split
  · exact ha
  · exact hb

theorem same_ite_fst {α : Type} {c : Prop} [Decidable c] {a b : Dev × α} {d : Dev} (ha : φ a.1 = φ d) (hb : φ b.1 = φ d) :
    φ (if c then a else b).1 = φ d := by
  split
  · exact ha
  · exact hb

theorem same_step {c : Prop} [Decidable c] {a b d : Dev} (ha : φ a = φ b) (hb : φ b = φ d) : φ (if c then a else b) = φ d := same_ite (ha.trans hb) hb

theorem same_skip {c : Prop} [Decidable c] {a b d : Dev} (hb : φ b = φ a) (ha : φ a = φ d) : φ (if c then a else b) = φ d := same_ite ha (hb.trans ha)
end

theorem same_foldl {β : Type} {φ : Dev → β} {α : Type} {f : Dev → α → Dev} (xs : List α) (hf : ∀ d, ∀ x ∈ xs, φ (f d x) = φ d) (d : Dev) :
    φ (xs.foldl f d) = φ d := by
  induction xs generalizing d with
  | nil => rfl
  | cons x xs ih => exact (ih (fun d y hy => hf d y (by simp [hy])) _).trans (hf d x (by simp))

/-- A look at the device that the windows of a ring do not change, as long as their primitives do not. -/
structure RingApart {β : Type} (φ : Dev → β) : Prop where
  pair : ∀ d p, φ { d with pair := p } = φ d
  send : ∀ d typ b, φ (sendPair d typ b) = φ d
  emit : ∀ d x, φ (emit d x) = φ d
  seg : ∀ d g x, φ (setSeg d g x) = φ d
  head : ∀ d g j x, φ (setHd d g j x) = φ d
  ungiven : ∀ d, φ (bump d 0x3C02 7) = φ d
  missed : ∀ d {g : Nat} n, g < 8 → φ (bumpBy d (sgb g + 9) 5 n) = φ d
  report : ∀ d {g : Nat} j, g < 8 → φ (later d (81 + 4 * g) 0 j) = φ d

namespace RingApart
section
variable {β : Type} {φ : Dev → β} (h : RingApart φ)
include h

theorem excludeBlock (d : Dev) (g j : Nat) : φ (excludeBlock d g j) = φ d := (h.head ..).trans (h.ungiven d)

theorem agreeBlocks (d : Dev) (rings : List Nat) : φ (agreeBlocks d rings) = φ d := by
  unfold Machine.agreeBlocks
  dsimp only
  refine same_ite ?_ (same_ite ?_ rfl)
  · exact (h.send ..).trans (same_foldl _ (fun e p _ => same_ite (h.excludeBlock ..) (h.ungiven e)) d)
  · split
    · exact same_foldl _ (fun e p _ => same_step (h.excludeBlock ..) rfl) d
    · rfl

theorem forgetBlocks (d : Dev) (rings : List Nat) : φ (forgetBlocks d rings) = φ d := h.pair ..

theorem segFault (d : Dev) {g : Nat} (hg : g < 8) (j : Nat) : φ (segFault d g j) = φ d := by
  unfold Machine.segFault
  exact same_ite rfl ((h.report _ j hg).trans (h.seg ..))

theorem closeRing (d : Dev) {g : Nat} (hg : g < 8) (half : Bool) : φ (closeRing d g half) = φ d := by
  unfold Machine.closeRing
  refine same_ite rfl (same_foldl _ (fun e j _ => ?_) d)
  have hfault : φ (Machine.segFault (bumpBy e (sgb g + 9) 5 (winCount (mould e g) j)) g j) = φ e :=
    (h.segFault _ hg j).trans (h.missed e _ hg)
  dsimp only
  exact same_ite rfl (same_ite (same_ite rfl (h.head ..)) (same_ite hfault ((h.head ..).trans hfault)))

theorem clearWindows (d : Dev) (g : Nat) (half : Bool) : φ (clearWindows d g half) = φ d := same_foldl _ (fun e _ _ => h.head e ..) d

theorem opportunity (d : Dev) (g : Nat) : φ (opportunity d g).1 = φ d := by
  unfold Machine.opportunity
  dsimp only
  split
  · exact h.seg ..
  · exact (h.seg ..).trans ((h.head ..).trans (h.seg ..))

theorem sendRing (d : Dev) (g : Nat) (second : Bool) (ch : Option Chan) (again : Bool) : φ (sendRing d g second ch again) = φ d := by
  unfold Machine.sendRing
  extract_lets r begun sent mailed
  have hbegun : φ begun = φ d := same_ite_fst rfl (same_ite_fst (h.opportunity ..) rfl)
  have hsent : φ sent = φ d := (h.emit ..).trans hbegun
  have hmailed : φ mailed = φ d := by
    unfold mailed
    split
    · exact (h.emit ..).trans hsent
    · exact hsent
  exact (h.seg ..).trans hmailed
end
end RingApart

section
variable {t : Bool}

@[simp] theorem spared_pulse {b i : Nat} (hi : i < 16) (h : 0x3A00 ≤ b) (h' : b + 16 ≤ 0x8000) : Spared t (b + i) 1 :=
  spared_between (by omega) (by omega)

theorem view_ite {c : Prop} [Decidable c] {a b d : Dev} (ha : view t a = view t d) (hb : view t b = view t d) :
    view t (if c then a else b) = view t d := same_ite ha hb

theorem view_step {c : Prop} [Decidable c] {a b d : Dev} (ha : view t a = view t b) (hb : view t b = view t d) :
    view t (if c then a else b) = view t d := same_ite (ha.trans hb) hb

theorem view_skip {c : Prop} [Decidable c] {a b d : Dev} (hb : view t b = view t a) (ha : view t a = view t d) :
    view t (if c then a else b) = view t d := same_ite ha (hb.trans ha)

theorem view_ite_fst {α : Type} {c : Prop} [Decidable c] {a b : Dev × α} {d : Dev} (ha : view t a.1 = view t d) (hb : view t b.1 = view t d) :
    view t (if c then a else b).1 = view t d := same_ite_fst ha hb

theorem cluster_of_view {d e : Dev} (h : view t e = view t d) (n : Nat) : cluster e n = cluster d n := by
  rw [← values_cluster t e n, ← values_cluster t d n, h]

theorem view_laterStop_cluster {d e : Dev} (h : view t e = view t d) (j m n cause stop : Nat) (hj : j < 4) :
    view t (laterStop e (48 + j + 4 * cluster d m) cause n stop) = view t e := by
  rw [← cluster_of_view h m, view_laterStop e j m n cause stop hj]

@[simp] theorem view_laterStop_49 {d e : Dev} (m n cause stop : Nat) (h : view t e = view t d) :
    view t (laterStop e (49 + 4 * cluster d m) cause n stop) = view t e := view_laterStop_cluster h 1 m n cause stop (by decide)

/-! ### The inputs of the rings and lines -/

theorem view_ringApart (t : Bool) : RingApart (view t) where
  pair _ _ := rfl
  send d typ b := view_sendPair d typ b
  emit _ _ := rfl
  seg _ _ _ := rfl
  head _ _ _ _ := rfl
  ungiven d := view_bump d (by simp)
  missed d _ n _ := view_bumpBy d n (by simp)
  report d _ j hg := view_later d 0 j (by omega)

@[simp] theorem view_agreeBlocks (d : Dev) (rings : List Nat) : view t (agreeBlocks d rings) = view t d := (view_ringApart t).agreeBlocks d rings
theorem view_closeRing (d : Dev) {g : Nat} (hg : g < 8) (half : Bool) : view t (closeRing d g half) = view t d := (view_ringApart t).closeRing d hg half

theorem view_publishLine (d : Dev) {l : Nat} (hl : l < 4) : view t (publishLine d l) = view t d := by
  unfold publishLine
  refine view_foldl _ (fun e p hp => ?_) d
  have hp' : p.1 < 1024 := by
    obtain ⟨q, -, rfl⟩ := List.mem_map.1 hp
    exact Nat.mod_lt _ (by decide)
  have hwords : view t ((List.range 16).foldl (fun d i => os d (fnx l p.1 2) (i + 1) (wordAt p.2 i)) e) = view t e := by
    refine view_foldl _ (fun e i hi => view_os e _ ?_) e
    have hi' := List.mem_range.1 hi
    by_cases h : i = 0
    · rw [h]
      exact spared_node _ _ _ (by unfold fnx; omega)
    · exact spared_sub _ (by omega) (by omega)
  dsimp only
  rw [view_os _ _ (by simp), view_os _ _ (by simp), hwords]

@[simp] theorem view_keepLast (d : Dev) : view t (keepLast d) = view t d := by
  have hmot : view t ((boundAxes d.objs).foldl (fun d n =>
      setMot d n { mot d n with pPrev := if kind d n = 5 then ogi 64 d (ax n 0x36) 7 else axisPos d n, vPrev := axisVel d n }) d) = view t d :=
    view_foldl _ (fun e n _ => view_setMot e n _) d
  unfold keepLast
  dsimp only
  rw [view_foldl _ fun e i _ => ?_, hmot]
  split
  · simp
  · rfl

@[simp] theorem view_rebind (d : Dev) (n : Nat) : view t (rebind d n) = view t d := by
  unfold rebind
  dsimp only
  rw [view_os _ _ (by simp), view_os _ _ (by simp), view_os _ _ (by simp), view_os _ _ (by simp), view_osb _ _ _ (by simp)]
  rfl

@[simp] theorem view_followSource (d : Dev) (old : Nat) : view t (followSource d old) = view t d := by
  unfold followSource
  dsimp only
  split
  · simp only [view_switchSource]
    rfl
  · rfl

/-! ### Pulse inputs -/

@[simp] theorem view_pulseBit (d : Dev) (i b : Nat) (v : Bool) : view t (pulseBit d i b v) = view t d := by simp [pulseBit]

@[simp] theorem view_lossOver (d : Dev) (i : Nat) : view t (lossOver d i) = view t d := by
  unfold lossOver
  split
  · dsimp only
    split
    · simp
    · simp
  · rfl

theorem view_setPos (d : Dev) {i : Nat} (hi : i < 16) (p : Int) : view t (setPos d i p) = view t d :=
  view_osi 64 d p (spared_between (by omega) (by omega))

@[simp] theorem view_showIndex (d : Dev) (i : Nat) : view t (showIndex d i) = view t d := by simp [showIndex]

theorem view_reference (d : Dev) {i : Nat} (hi : i < 16) (neg : Bool) (back : Nat) : view t (reference d i neg back) = view t d := by
  unfold reference
  dsimp only
  split
  · simp
  · refine view_ite (by simp) (view_ite ?_ (view_ite (by simp) (by simp)))
    simp [view_setPos _ hi]

theorem view_toothAt (d : Dev) {i : Nat} (hi : i < 16) (τ : Int) (neg : Bool) : view t (toothAt d i τ neg) = view t d := by
  unfold toothAt
  dsimp only
  refine view_ite (by simp) (view_ite ?_ (view_ite (by simp) ?_))
  · rw [view_showIndex, view_pulseBit, view_pulseBit, view_bump _ (by simp [hi]), view_os _ _ (by simp), view_os _ _ (by simp), view_setPls,
      view_bump _ (by simp)]
    exact view_ite (by simp [view_setPos _ hi]) (by simp [view_setPos _ hi])
  · rw [view_showIndex, view_pulseBit]
    refine view_ite ?_ (view_ite ?_ ?_)
    · simp [view_setPos _ hi, view_reference _ hi, hi]
    · simp [view_setPos _ hi, view_reference _ hi, hi]
    · simp [view_setPos _ hi, hi]

theorem view_processEdges (d : Dev) {i : Nat} (hi : i < 16) (tc : Int) : view t (processEdges d i tc) = view t d := by
  unfold processEdges
  dsimp only
  rw [view_foldl _ fun e x _ => view_toothAt e hi _ _, view_setPls]

@[simp] theorem view_standstill (d : Dev) (i : Nat) : view t (standstill d i) = view t d := by simp [standstill]

@[simp] theorem view_pulseSpeed (d : Dev) (i : Nat) (τ : Int) : view t (pulseSpeed d i τ) = view t d := by
  unfold pulseSpeed
  dsimp only
  split
  · simp
  split
  · simp
  · simp

theorem view_pulseInstant (d : Dev) {i : Nat} (hi : i < 16) (k : Nat) : view t (pulseInstant d i k) = view t d := by
  unfold pulseInstant
  split
  · rfl
  · dsimp only
    rw [view_setPls, view_pulseBit, view_pulseBit, view_pulseSpeed, view_processEdges _ hi]

@[simp] theorem view_sendLocal (d : Dev) : view t (sendLocal d) = view t d := by
  unfold sendLocal
  split
  · rfl
  · dsimp only
    split
    · rfl
    · simp
end

end Sys2Proof.Machine
end

section
/-! ## What the loops of the axes leave as it was -/
namespace Sys2Proof.Machine

/-! ### An axis in its own part

Feedback and current loop of axis n run at both instants. What they leave alone is stated for any look at the device: for the view, and for the
parts of the other axes. -/

/-- A look at the device that no loop of axis n changes, as long as its primitives do not. -/
structure AxisApart {β : Type} (n : Nat) (φ : Dev → β) : Prop where
  os : ∀ d {o c : Nat} v, o < 64 ∧ c < 256 ∧ (c ≠ 1 ∨ o ≠ 0x1D ∧ o ≠ 0x24 ∧ o ≠ 9) → φ (Machine.os d (ax n o) c v) = φ d
  bump : ∀ d {o c : Nat}, o < 64 ∧ c < 256 ∧ (c ≠ 1 ∨ o ≠ 0x1D ∧ o ≠ 0x24 ∧ o ≠ 9) → φ (Machine.bump d (ax n o) c) = φ d
  mot : ∀ d x, φ (setMot d n x) = φ d
  srv : ∀ d x, φ (setSrv d n x) = φ d
  cur : ∀ d x, φ (setCur d n x) = φ d
  stp : ∀ d x, φ (setStp d n x) = φ d
  trip : ∀ d e j cause stop, j < 4 → φ e = φ d → φ (laterStop e (48 + j + 4 * cluster d n) cause n stop) = φ e
  free : ∀ d w, φ (freeVal d w).2 = φ d
  frames : ∀ d x, φ { d with frames := x } = φ d

theorem view_axisApart (t : Bool) (n : Nat) : AxisApart n (view t) := by
  have hspared {o c : Nat} (h : o < 64 ∧ c < 256 ∧ (c ≠ 1 ∨ o ≠ 0x1D ∧ o ≠ 0x24 ∧ o ≠ 9)) : Spared t (ax n o) c := by
    obtain ⟨ho, hc, h1 | ⟨hD, h24, h9⟩⟩ := h
    · exact spared_sub _ h1 hc
    · by_cases h1 : c = 1
      · rw [h1]
        exact spared_axis n ho hD fun _ => ⟨h24, h9⟩
      · exact spared_sub _ h1 hc
  exact
    { os := fun d _ _ v h => view_os d v (hspared h)
      bump := fun d _ _ h => view_bump d (hspared h)
      mot := fun d x => view_setMot d n x
      srv := fun d x => view_setSrv d n x
      cur := fun d x => view_setCur d n x
      stp := fun d x => view_setStp d n x
      trip := fun _ _ j cause stop hj he => view_laterStop_cluster he j n n cause stop hj
      free := fun _ _ => rfl
      frames := fun _ _ => rfl }

namespace AxisApart
section
variable {β : Type} {φ : Dev → β} {n : Nat} (h : AxisApart n φ)
include h

theorem osb (d : Dev) {o c : Nat} (b : Nat) (v : Bool) (hs : o < 64 ∧ c < 256 ∧ (c ≠ 1 ∨ o ≠ 0x1D ∧ o ≠ 0x24 ∧ o ≠ 9)) :
    φ (Machine.osb d (ax n o) c b v) = φ d := h.os d _ hs
theorem osf (d : Dev) {o c : Nat} (v : F32) (hs : o < 64 ∧ c < 256 ∧ (c ≠ 1 ∨ o ≠ 0x1D ∧ o ≠ 0x24 ∧ o ≠ 9)) :
    φ (Machine.osf d (ax n o) c v) = φ d := h.os d _ hs
theorem osi (w : Nat) (d : Dev) {o c : Nat} (v : Int) (hs : o < 64 ∧ c < 256 ∧ (c ≠ 1 ∨ o ≠ 0x1D ∧ o ≠ 0x24 ∧ o ≠ 9)) :
    φ (Machine.osi w d (ax n o) c v) = φ d := h.os d _ hs

theorem servoInputs (d : Dev) : φ (servoInputs d n) = φ d := by
  unfold Machine.servoInputs
  dsimp only
  split
  · exact h.mot ..
  · exact same_ite (same_ite (h.mot ..) (h.mot ..)) (h.mot ..)

theorem acceptSample (d : Dev) (tc cs : Int) : φ (acceptSample d n tc cs).1 = φ d := by
  unfold Machine.acceptSample
  split
  · rfl
  · have hrestored (x : Int) : φ (match (Machine.mot d n).restore with
        | some p => setMot (Machine.osi 64 d (ax n 0x24) 4 (p - x)) n { Machine.mot d n with restore := none }
        | none => d) = φ d := by
      split
      · exact (h.mot ..).trans (h.osi _ _ _ (by decide))
      · rfl
    dsimp only
    refine same_ite_fst (h.bump _ (by decide)) ?_
    refine (h.osb _ _ _ (by decide)).trans ((h.srv ..).trans ?_)
    exact same_ite (hrestored _) ((h.osf _ _ (by decide)).trans (hrestored _))

theorem loadAngle (d : Dev) (tc cs : Int) : φ (loadAngle d n tc cs) = φ d := by
  have hslow : φ (if f32Le (cgf d (ax n 0x1F) 0x16) (f32Mul (f32Abs (ogf d (ax n 0x24) 2)) (f32c (mkRat 1 1024))) then d
      else Machine.osb (setCur d n { Machine.cur d n with valid := false }) (ax n 0x1F) 0x13 7 false) = φ d :=
    same_ite rfl ((h.osb _ _ _ (by decide)).trans (h.cur ..))
  unfold Machine.loadAngle
  dsimp only
  generalize (if f32Le (cgf d (ax n 0x1F) 0x16) (f32Mul (f32Abs (ogf d (ax n 0x24) 2)) (f32c (mkRat 1 1024))) then d
    else Machine.osb (setCur d n { Machine.cur d n with valid := false }) (ax n 0x1F) 0x13 7 false) = e at hslow
  split
  · exact hslow
  · refine same_ite hslow (same_ite ?_ ?_)
    · rw [h.osb _ _ _ (by decide), h.cur, hslow]
    · rw [h.osf _ _ (by decide), h.osb _ _ _ (by decide), h.cur, hslow]

/-! The current loop. -/

theorem clearPhaseBits (d : Dev) : φ (clearPhaseBits d n) = φ d := by
  unfold Machine.clearPhaseBits
  dsimp only
  rw [h.osb _ _ _ (by decide), h.osb _ _ _ (by decide), h.osb _ _ _ (by decide), h.osb _ _ _ (by decide)]

theorem stageTrip (d : Dev) (cause : Nat) : φ (stageTrip d n cause) = φ d :=
  (h.trip d _ 3 cause 2 (by decide) (h.cur ..)).trans (h.cur ..)

theorem stageCheck (d : Dev) (w : Bytes) : φ (stageCheck d n w).1 = φ d := by
  unfold Machine.stageCheck
  dsimp only
  refine same_step (h.stageTrip ..) (same_step (h.stageTrip ..) (same_step ?_ ?_))
  · rw [h.stageTrip, h.osb _ _ _ (by decide)]
  · rw [h.cur, h.osb _ _ _ (by decide)]

theorem currentLoss (d : Dev) : φ (currentLoss d n) = φ d := by
  have hoff : φ (Machine.osb (setCur d n { Machine.cur d n with gates := false }) (ax n 0x1F) 0x13 5 false) = φ d :=
    (h.osb _ _ _ (by decide)).trans (h.cur ..)
  exact (h.trip d _ 2 2 2 (by decide) hoff).trans hoff

theorem missedPhase (d : Dev) (sumBad : Bool) : φ (missedPhase d n sumBad) = φ d := by
  unfold Machine.missedPhase
  dsimp only
  refine same_step (h.currentLoss _) (same_step (h.bump _ (by decide)) ?_)
  rw [h.bump _ (by decide), h.osb _ _ _ (by decide), h.cur]

theorem free_or {c : Prop} [Decidable c] (d : Dev) (w v : Nat) : φ (if c then freeVal d w else (v, d)).2 = φ d := by
  split
  · exact h.free d w
  · rfl

theorem currentRun (d : Dev) (w : Bytes) (mid : Int) : φ (currentRun d n w mid) = φ d := by
  unfold Machine.currentRun
  dsimp only
  refine same_step (h.bump _ (by decide)) (same_step (h.bump _ (by decide)) ?_)
  rw [h.osb _ _ _ (by decide), h.osb _ _ _ (by decide), h.osf _ _ (by decide), h.osf _ _ (by decide), h.osf _ _ (by decide),
    h.osf _ _ (by decide), h.osf _ _ (by decide), h.cur, h.free_or, h.free_or, h.free_or]

theorem currentPhase (d : Dev) (w : Option Bytes) (ok : Bool) : φ (currentPhase d n w ok) = φ d := by
  have hbegun (x : F32) (y : Nat) : φ (setCur (Machine.clearPhaseBits (Machine.osf d (ax n 0x1F) 0x0D x) n) n
      { Machine.cur (Machine.clearPhaseBits (Machine.osf d (ax n 0x1F) 0x0D x) n) n with apply := y }) = φ d := by
    rw [h.cur, h.clearPhaseBits, h.osf _ _ (by decide)]
  cases w with
  | none =>
    unfold Machine.currentPhase
    dsimp only
    rw [h.osb _ _ _ (by decide)]
    refine same_skip (h.cur ..) ?_
    rw [h.missedPhase, h.cur, hbegun]
  | some x =>
    unfold Machine.currentPhase
    dsimp only
    rw [h.osb _ _ _ (by decide)]
    refine same_skip (h.cur ..) (same_ite ?_ (same_step (h.currentRun ..) ?_))
    · rw [h.missedPhase, h.cur, h.stageCheck, h.osb _ _ _ (by decide)]
      exact same_step (h.bump _ (by decide)) (hbegun ..)
    · rw [h.cur, h.cur, h.stageCheck, h.osb _ _ _ (by decide)]
      exact same_step (h.bump _ (by decide)) (hbegun ..)

theorem freezeWindow (d : Dev) : φ (freezeWindow d n) = φ d := by
  unfold Machine.freezeWindow
  dsimp only
  rw [h.stp, h.cur, h.frames]

theorem tightAxis (d : Dev) (k : Nat) : φ (tightAxis d n k) = φ d := by
  unfold Machine.tightAxis
  dsimp only
  refine same_ite ?_ (same_ite ?_ (same_ite (h.loadAngle ..) rfl))
  · rw [h.freezeWindow, h.currentPhase, h.servoInputs, h.acceptSample]
  · rw [h.servoInputs, h.acceptSample]
end
end AxisApart

section
variable {t : Bool}

/-! ### Feedback -/

@[simp] theorem view_servoInputs (d : Dev) (n : Nat) : view t (servoInputs d n) = view t d := (view_axisApart t n).servoInputs d
@[simp] theorem view_acceptSample (d : Dev) (n : Nat) (tc cs : Int) : view t (acceptSample d n tc cs).1 = view t d :=
  (view_axisApart t n).acceptSample d tc cs
@[simp] theorem view_loadAngle (d : Dev) (n : Nat) (tc cs : Int) : view t (loadAngle d n tc cs) = view t d := (view_axisApart t n).loadAngle d tc cs
@[simp] theorem view_currentPhase (d : Dev) (n : Nat) (w : Option Bytes) (ok : Bool) : view t (currentPhase d n w ok) = view t d :=
  (view_axisApart t n).currentPhase d w ok
@[simp] theorem view_freezeWindow (d : Dev) (n : Nat) : view t (freezeWindow d n) = view t d := (view_axisApart t n).freezeWindow d
@[simp] theorem view_tightAxis (d : Dev) (n k : Nat) : view t (tightAxis d n k) = view t d := (view_axisApart t n).tightAxis d k

@[simp] theorem view_baseInputs (d : Dev) (n : Nat) : view t (baseInputs d n) = view t d := by
  unfold baseInputs
  dsimp only
  exact view_ite (by simp) (by simp)

@[simp] theorem view_trackPulse (d : Dev) (n i : Nat) (tc : Int) : view t (trackPulse d n i tc) = view t d := by
  unfold trackPulse
  dsimp only
  rw [view_setSrv, view_osb _ _ _ (by simp), view_osb _ _ _ (by simp), view_osf _ _ (by simp)]
  split
  · exact view_ite (by simp) rfl
  · rfl

@[simp] theorem view_trackRing (d : Dev) (n : Nat) (tc : Int) : view t (trackRing d n tc) = view t d := by
  unfold trackRing
  dsimp only
  rw [view_setSrv, view_osb _ _ _ (by simp)]
  refine view_ite ?_ ?_
  · rw [view_bump _ (by simp)]
    exact view_ite rfl (by simp)
  · exact view_ite rfl (by simp)

@[simp] theorem view_stepperAccept (d : Dev) (n : Nat) (cs : Int) : view t (stepperAccept d n cs) = view t d := by
  unfold stepperAccept
  split
  · rfl
  · dsimp only
    refine view_ite ?_ ?_
    · rw [view_bump _ (by simp), view_osb _ _ _ (by simp), view_osi _ _ _ (by simp), view_setStp, view_setMot, view_osi _ _ _ (by simp)]
    · rw [view_osb _ _ _ (by simp), view_osi _ _ _ (by simp), view_setStp, view_setMot, view_osi _ _ _ (by simp)]

@[simp] theorem view_stepperTrack (d : Dev) (n : Nat) (cs : Int) : view t (stepperTrack d n cs) = view t d := by
  unfold stepperTrack
  dsimp only
  exact view_ite (by simp) (by simp)

@[simp] theorem view_trackAxis (d : Dev) (n k : Nat) : view t (trackAxis d n k).1 = view t d := by
  unfold trackAxis
  dsimp only
  split
  · split
    · simp
    · simp
  split
  · simp
  split
  · simp
  split
  · simp
  · rfl

@[simp] theorem view_padInputs (d : Dev) (n : Nat) : view t (padInputs d n) = view t d := by
  unfold padInputs
  split
  · dsimp only
    split
    · rw [view_padWrite, view_padWrite]
    · rw [view_padWrite]
  · dsimp only
    split
    · rw [view_padWrite]
    · rfl

@[simp] theorem view_padRefs (d : Dev) (n : Nat) : view t (padRefs d n) = view t d := by
  unfold padRefs
  rw [view_padWrite]

/-! ### The loops -/

@[simp] theorem view_schedule (d : Dev) (n : Nat) : view t (schedule d n) = view t d := by
  unfold schedule
  dsimp only
  rw [view_osb _ _ _ (by simp), view_os _ _ (by simp), view_osf _ _ (by simp)]
  refine view_foldl _ (fun e g hg => view_osf e _ ?_) d
  have hg' := List.mem_range.1 hg
  by_cases h : g = 0
  · rw [h]
    exact spared_axis n (by decide) (by decide) fun _ => by decide
  · exact spared_sub _ (by omega) (by omega)

@[simp] theorem view_idleServo (d : Dev) (n : Nat) : view t (idleServo d n) = view t d := by
  unfold idleServo
  dsimp only
  rw [view_setSrv, view_osb _ _ _ (by simp), view_osb _ _ _ (by simp), view_osf _ _ (by simp), view_osf _ _ (by simp), view_osf _ _ (by simp),
    view_schedule]

@[simp] theorem view_cascade (d : Dev) (n : Nat) : view t (cascade d n) = view t d := by
  unfold cascade
  dsimp only
  refine view_step (view_laterStop_49 _ _ _ _ rfl) ?_
  rw [view_setSrv]
  refine view_step (view_bump _ (by simp)) (view_step (view_bump _ (by simp)) (view_step (view_osb _ _ _ (by simp)) ?_))
  rw [view_osb _ _ _ (by simp), view_osb _ _ _ (by simp)]
  refine view_step ((view_osf _ _ (by simp)).trans (view_osf _ _ (by simp))) ?_
  rw [view_osf _ _ (by simp), view_osf _ _ (by simp), view_osf _ _ (by simp), view_schedule]

@[simp] theorem view_servoPhase (d : Dev) (n : Nat) : view t (servoPhase d n) = view t d := by
  unfold servoPhase
  exact view_ite (by simp) (by simp)

/-! ### Steppers -/

@[simp] theorem view_stepperTarget (d : Dev) (n : Nat) : view t (stepperTarget d n) = view t d := by
  unfold stepperTarget
  dsimp only
  refine view_ite ?_ (by simp)
  rw [view_osb _ _ _ (by simp), view_osi _ _ _ (by simp), view_setStp]
  split
  · rfl
  · rfl

@[simp] theorem view_adaptCurrent (d : Dev) (n : Nat) (accepted : Bool) : view t (adaptCurrent d n accepted) = view t d := by
  unfold adaptCurrent
  dsimp only
  rw [view_osb _ _ _ (by simp), view_osb _ _ _ (by simp)]
  refine view_ite ?_ ?_
  · rw [view_osf _ _ (by simp), view_osf _ _ (by simp), view_setStp, view_osf _ _ (by simp)]
  · rw [view_osf _ _ (by simp), view_osf _ _ (by simp), view_osf _ _ (by simp), view_setStp, view_osf _ _ (by simp)]

@[simp] theorem view_stallNow (d : Dev) (n : Nat) : view false (stallNow d n) = view false d := by
  unfold stallNow
  dsimp only
  refine (view_laterStop_49 (d := _) _ _ _ _ ?_).trans ?_
  · rw [view_osb _ _ _ (by simp)]
  · rw [view_osb _ _ _ (by simp)]
    refine view_step ?_ ?_
    · rw [view_osb _ _ _ (by simp), view_setStp]
    · rw [view_bump _ (by simp), view_osb _ _ _ (by simp)]

@[simp] theorem view_stepperPhase (d : Dev) (n : Nat) : view false (stepperPhase d n) = view false d := by
  unfold stepperPhase
  dsimp only
  refine view_step (view_stallNow ..) ?_
  rw [view_stepperTarget]
  exact view_step (view_adaptCurrent ..) (view_setStp ..)

@[simp] theorem view_localPhase (d : Dev) (n : Nat) : view t (localPhase d n) = view t d := by
  unfold localPhase
  dsimp only
  rw [view_osi _ _ _ (by simp), view_osi _ _ _ (by simp)]

@[simp] theorem view_axisPhase (d : Dev) (n : Nat) (ok : Bool) : view false (axisPhase d n ok) = view false d := by
  unfold axisPhase
  dsimp only
  exact view_ite (by simp) (view_ite (by simp) (view_ite (by simp) (view_ite (by simp) rfl)))

/-! ### Emulation outputs -/

@[simp] theorem view_emuUpdate (d : Dev) (m : Nat) : view t (emuUpdate d m) = view t d := by
  unfold emuUpdate
  dsimp only
  refine view_ite (by simp) (view_ite rfl ?_)
  split
  · simp
  · refine view_step ?_ ?_
    · rw [view_later _ _ _ (by decide), view_bump _ (by simp)]
    · rw [view_osb _ _ _ ?_, view_osb _ _ _ (by simp), view_osb _ _ _ (by simp), view_osi _ _ _ (by simp), view_setEmu]
      simp

end

end Sys2Proof.Machine
end

section
/-! ## What acquisition and the pair leave as they were at an instant -/
namespace Sys2Proof.Machine

section
variable {t : Bool}

/-! ### Acquisition -/

theorem spared_acq {a : Nat} (ha : a < 4) {o : Nat} (ho : o < 16) (c : Nat) (hc : c < 256) : Spared t (acqObj a o) c := by
  by_cases h : c = 1
  · rw [h]
    exact spared_below (by unfold acqObj; omega)
  · exact spared_sub _ h hc

end

/-- A look at the device that no part of the acquisition engine changes, as long as its primitives do not. -/
structure AcqApart {β : Type} (φ : Dev → β) : Prop where
  acq : ∀ d x, φ { d with acq := x } = φ d
  free : ∀ d w, φ (freeVal d w).2 = φ d
  load : ∀ d v, φ (os d 0x3600 2 v) = φ d
  os : ∀ d {a o c : Nat} v, a < 4 → o < 16 → c < 256 → φ (os d (acqObj a o) c v) = φ d
  bump : ∀ d {a o c : Nat}, a < 4 → o < 16 → c < 256 → φ (bump d (acqObj a o) c) = φ d
  bumpBy : ∀ d {a o c : Nat} n, a < 4 → o < 16 → c < 256 → φ (bumpBy d (acqObj a o) c n) = φ d
  number : ∀ d, φ (number d).1 = φ d
  log : ∀ d b c v, φ (log d b c v) = φ d

theorem view_acqApart (t : Bool) : AcqApart (view t) where
  acq _ _ := rfl
  free _ _ := rfl
  load d v := view_os d v (by simp)
  os d _ _ _ v ha ho hc := view_os d v (spared_acq ha ho _ hc)
  bump d _ _ _ ha ho hc := view_bump d (spared_acq ha ho _ hc)
  bumpBy d _ _ _ n ha ho hc := view_bumpBy d n (spared_acq ha ho _ hc)
  number d := view_number d
  log d b c v := view_log d b c v

namespace AcqApart
section
variable {β : Type} {φ : Dev → β} (h : AcqApart φ) {a : Nat} (ha : a < 4)
include h

theorem setAset (d : Dev) (a : Nat) (m : SetSt) : φ (setAset d a m) = φ d := h.acq d _

theorem onRec (d : Dev) (num : Nat) (f : Record → Record) : φ (onRec d num f) = φ d := h.acq d _

theorem writeUnit (d : Dev) (a : Nat) (u : Bytes) (last : Bool) : φ (writeUnit d a u last) = φ d := by
  unfold Machine.writeUnit
  dsimp only
  split
  · exact (h.acq _ _).trans (h.onRec ..)
  · exact h.onRec ..

theorem tapSet (d : Dev) (a : Nat) (τ : Int) (tight : Bool) : φ (tapSet d a τ tight).1 = φ d := h.setAset ..

theorem rearmSample (d : Dev) (a : Nat) (τ : Int) (vals : Option (List Int)) : φ (rearmSample d a τ vals) = φ d := by
  unfold Machine.rearmSample
  dsimp only
  exact same_step (h.setAset ..) (h.setAset ..)

theorem placeGap {e : Dev} (d : Dev) (a : Nat) (g : GapRun) (he : φ e = φ d) : φ (Machine.placeGap e a g) = φ d := by
  unfold Machine.placeGap
  dsimp only
  refine same_ite ?_ ?_
  · rw [h.onRec, h.writeUnit, h.setAset, he]
  · rw [h.setAset, he]

theorem flushGap (d : Dev) (a : Nat) : φ (flushGap d a) = φ d := by
  unfold Machine.flushGap
  split
  · exact h.placeGap d a _ rfl
  · rfl

theorem codePre (d : Dev) (a : Nat) : φ (codePre d a) = φ d := by
  unfold Machine.codePre
  dsimp only
  rw [h.onRec, same_foldl _ fun e u _ => h.writeUnit e a u false, h.setAset]

theorem makeRoom (a n : Nat) : ∀ (fuel : Nat) (d : Dev), φ (makeRoom d a n fuel).1 = φ d := by
  intro fuel
  induction fuel with
  | zero => exact fun _ => rfl
  | succ fuel ih =>
    intro d
    unfold Machine.makeRoom
    split
    · rfl
    · split
      · rfl
      · exact (ih _).trans (h.acq d _)

theorem trimPre (d : Dev) (a : Nat) : φ (trimPre d a) = φ d := h.setAset ..

theorem showLoad (d : Dev) : φ (showLoad d) = φ d := by
  unfold Machine.showLoad
  dsimp only
  exact same_ite (h.load ..) ((h.load ..).trans (h.free d 16))

include ha

theorem ensureStart (d : Dev) (τ : Int) : φ (ensureStart d a τ) = φ d := by
  unfold Machine.ensureStart
  refine same_ite rfl ?_
  dsimp only
  rw [h.setAset, h.bumpBy _ _ ha (by decide) (by decide), h.writeUnit]

theorem dropSamples (d : Dev) (first : Int) (len reason : Nat) : φ (dropSamples d a first len reason) = φ d := by
  have hbump : φ (Machine.bumpBy d (acqObj a 4) 4 len) = φ d := h.bumpBy _ _ ha (by decide) (by decide)
  unfold Machine.dropSamples
  dsimp only
  generalize Machine.bumpBy d (acqObj a 4) 4 len = b at hbump
  have hseen : φ (if (aset b a).gapSeen then b else Machine.log (Machine.setAset b a { aset b a with gapSeen := true }) 3 1 (a + 256 * reason)) = φ d :=
    same_skip ((h.log ..).trans (h.setAset ..)) hbump
  generalize (if (aset b a).gapSeen then b else Machine.log (Machine.setAset b a { aset b a with gapSeen := true }) 3 1 (a + 256 * reason)) = e at hseen
  split
  · refine same_ite ?_ ?_
    · rw [h.setAset, hseen]
    · rw [h.setAset, h.placeGap d a _ hseen]
  · rw [h.setAset, hseen]

theorem closeGroup (d : Dev) : φ (closeGroup d a) = φ d := by
  unfold Machine.closeGroup
  dsimp only
  split
  · rfl
  · refine same_ite (h.setAset ..) (same_ite (same_ite ?_ (same_ite ?_ ?_)) (same_ite ?_ ?_))
    · rw [h.dropSamples ha, h.makeRoom, h.setAset]
    · rw [h.dropSamples ha, h.bump _ ha (by decide) (by decide), h.makeRoom, h.setAset]
    · rw [h.onRec, h.writeUnit, h.setAset, h.flushGap, h.makeRoom, h.setAset]
    · rw [h.dropSamples ha, h.makeRoom, h.setAset]
    · rw [h.setAset, h.flushGap, h.makeRoom, h.setAset]

theorem fireSet (d : Dev) (τ : Int) (fr : Firing) : φ (fireSet d a τ fr) = φ d := by
  have hnumber : φ (Machine.number d).1 = φ d := h.number d
  unfold Machine.fireSet
  dsimp only
  generalize (Machine.number d).1 = q at hnumber
  have hown : φ (if fr.own then Machine.bump q (acqObj a 4) 1 else q) = φ d := same_step (h.bump _ ha (by decide) (by decide)) hnumber
  generalize (if fr.own then Machine.bump q (acqObj a 4) 1 else q) = e at hown
  have hbit : φ (if bit fr.cause 2 then Machine.bump e (acqObj a 4) 2 else e) = φ d := same_step (h.bump _ ha (by decide) (by decide)) hown
  generalize (if bit fr.cause 2 then Machine.bump e (acqObj a 4) 2 else e) = f at hbit
  refine same_step ?_ ?_
  · rw [h.flushGap, h.dropSamples ha]
  · rw [h.writeUnit, h.onRec, h.os _ _ ha (by decide) (by decide), h.setAset, h.codePre, h.flushGap, hbit]

theorem endRecord (d : Dev) (cause : Nat) : φ (endRecord d a cause) = φ d := by
  have hclosed : φ (Machine.flushGap (Machine.closeGroup (Machine.ensureStart d a (instantAt d.time.kc)) a) a) = φ d := by
    rw [h.flushGap, h.closeGroup ha, h.ensureStart ha]
  unfold Machine.endRecord
  dsimp only
  generalize Machine.flushGap (Machine.closeGroup (Machine.ensureStart d a (instantAt d.time.kc)) a) a = e at hclosed
  have hcoded : φ (if inPost e a then e else Machine.codePre e a) = φ d := same_skip (h.codePre ..) hclosed
  generalize (if inPost e a then e else Machine.codePre e a) = f at hcoded
  split
  · exact hcoded
  · rw [h.os _ _ ha (by decide) (by decide), h.writeUnit, hcoded]

theorem acqIdle (d : Dev) : φ (acqIdle d a) = φ d := by
  unfold Machine.acqIdle
  rw [h.showLoad, h.os _ _ ha (by decide) (by decide), h.setAset]

theorem takeSample (d : Dev) (τ : Int) (vals : Option (List Int)) : φ (takeSample d a τ vals) = φ d := by
  unfold Machine.takeSample
  extract_lets started x i c1 acq c2 inGap fr st cleared fired P ovr dropped xDropped xFired sampled shown ended again xEnded
  have hcleared : φ cleared = φ d := (h.setAset ..).trans (h.ensureStart ha ..)
  have hfired : φ fired = φ d := same_step (h.fireSet ha ..) hcleared
  have hsampled : φ sampled = φ d := by
    refine same_ite hfired ?_
    split
    · exact (h.setAset ..).trans ((h.dropSamples ha ..).trans ((h.closeGroup ha ..).trans hfired))
    · exact same_step (h.closeGroup ha ..) ((h.setAset ..).trans hfired)
  have hshown : φ shown = φ d := (h.os _ _ ha (by decide) (by decide)).trans hsampled
  have hended : φ ended = φ d := (h.endRecord ha ..).trans hshown
  refine same_ite (same_ite ?_ ?_) (same_ite ?_ (same_step (h.trimPre ..) hshown))
  · rw [h.os _ _ ha (by decide) (by decide), h.setAset, hended]
  · rw [h.acqIdle ha, hended]
  · rw [h.trimPre, h.os _ _ ha (by decide) (by decide), hshown]

theorem setOccurs (d : Dev) (τ : Int) (tight : Bool) : φ (setOccurs d a τ tight) = φ d := by
  unfold Machine.setOccurs
  extract_lets n k x j cleared sumIt times occurred xOccurred
  have hcleared : φ cleared = φ d := same_step (h.setAset ..) rfl
  have hoccurred : φ occurred = φ d := by
    refine same_ite ?_ hcleared
    split
    next e vs htap =>
    have htapped : φ e = φ d := by
      have htap' := h.tapSet cleared a τ tight
      rw [htap] at htap'
      exact htap'.trans hcleared
    refine same_ite htapped ?_
    dsimp only
    refine same_ite (same_ite ?_ ?_) ?_
    · rw [h.rearmSample, h.setAset, h.setAset, h.bumpBy _ _ ha (by decide) (by decide), htapped]
    · rw [h.takeSample ha, h.setAset, h.setAset, h.bumpBy _ _ ha (by decide) (by decide), htapped]
    · rw [h.setAset, h.bumpBy _ _ ha (by decide) (by decide), htapped]
  exact same_skip (h.setAset ..) hoccurred

omit ha in
theorem acqInstant (d : Dev) (half : Bool) : φ (acqInstant d half) = φ d := by
  unfold Machine.acqInstant
  refine same_ite rfl (same_foldl _ (fun e a ha => ?_) d)
  have ha' := List.mem_range.1 ha
  dsimp only
  exact same_ite rfl (same_ite (same_step (h.setOccurs ha' e _ _) rfl) (same_ite (h.setOccurs ha' e _ _) (same_step (h.setAset ..) rfl)))
end
end AcqApart

section
variable {t : Bool}

@[simp] theorem view_acqInstant (d : Dev) (half : Bool) : view t (acqInstant d half) = view t d := (view_acqApart t).acqInstant d half

/-! ### The pair's digests and the transfer of state -/

theorem view_pair (d : Dev) (p : PairSt) : view t { d with pair := p } = view t d := rfl

@[simp] theorem view_servePair (d : Dev) : view t (servePair d) = view t d := by
  rw [servePair_frame]
  rfl

@[simp] theorem view_queueLink (d : Dev) (typ : Nat) (full : Bool) (size : Nat) (b : Bytes) : view t (queueLink d typ full size b) = view t d := by
  unfold queueLink
  split
  · rfl
  · rfl

@[simp] theorem view_sendDigests (d : Dev) : view t (sendDigests d) = view t d := by
  unfold sendDigests
  dsimp only
  refine view_ite ?_ rfl
  rw [view_sendPair, view_pair]

@[simp] theorem view_sendUnits : ∀ (fuel : Nat) (d : Dev), view t (sendUnits fuel d) = view t d := by
  intro fuel
  induction fuel with
  | zero => exact fun _ => rfl
  | succ fuel ih =>
    intro d
    unfold sendUnits
    split
    · rfl
    · refine view_ite rfl ?_
      dsimp only
      rw [ih, view_servePair, view_queueLink, view_pair]

@[simp] theorem view_transferStep (d : Dev) : view t (transferStep d) = view t d := by
  have hpaid : view t { d with pair := { d.pair with debt := d.pair.debt - 10240 } } = view t d := view_pair d _
  unfold transferStep
  generalize ({ d with pair := { d.pair with debt := d.pair.debt - 10240 } } : Dev) = e at hpaid
  dsimp only
  refine view_ite hpaid (view_ite (view_ite ?_ ?_) (view_step (view_sendDigests _) hpaid))
  · rw [view_sendDigests, hpaid]
  · rw [view_sendUnits, hpaid]

@[simp] theorem view_setPairState (d : Dev) (st : Nat) : view t (setPairState d st) = view t d := by
  unfold setPairState
  refine view_ite rfl ?_
  rw [view_log, view_os _ _ (by simp)]

@[simp] theorem view_withdraw (d : Dev) : view t (withdraw d) = view t d := by
  unfold withdraw
  refine view_ite ?_ rfl
  unfold noAnnounce
  rw [view_sendPair, view_os _ _ (by simp), view_pair]

@[simp] theorem view_startTransfer (d : Dev) : view t (startTransfer d) = view t d := by
  have hstate : view t (setPairState (withdraw d) 4) = view t d := by simp
  unfold startTransfer
  generalize setPairState (withdraw d) 4 = e at hstate
  dsimp only
  rw [view_os _ _ (by simp), view_os _ _ (by simp), view_pair, hstate]

@[simp] theorem view_diverge (d : Dev) (k : Nat) : view t (diverge d k) = view t d := by
  have htold : view t (later (os (bump d 0x3C02 1) 0x3C01 0x0C k) 160 0 (k % 2 ^ 32)) = view t d := by
    rw [view_later _ _ _ (by decide), view_os _ _ (by simp), view_bump _ (by simp)]
  unfold diverge
  generalize later (os (bump d 0x3C02 1) 0x3C01 0x0C k) 160 0 (k % 2 ^ 32) = e at htold
  dsimp only
  exact view_ite ((view_startTransfer _).trans htold) (view_step (view_pair _ _) htold)

@[simp] theorem view_compareDigests (d : Dev) (k : Nat) : view t (compareDigests d k) = view t d := by
  unfold compareDigests
  split
  · next a b _ _ =>
    have hleft : view t { d with pair := { d.pair with mine := d.pair.mine.filter (fun p => k < p.1), theirs := d.pair.theirs.filter (fun p => k < p.1) } } =
      view t d := view_pair d _
    generalize ({ d with pair := { d.pair with mine := d.pair.mine.filter (fun p => k < p.1), theirs := d.pair.theirs.filter (fun p => k < p.1) } } : Dev) = e
      at hleft
    dsimp only
    refine view_ite hleft (view_ite (view_step (view_os _ _ (by simp)) hleft) ?_)
    rw [view_diverge, hleft]
  · rfl

@[simp] theorem view_formDigests (d : Dev) : view t (formDigests d) = view t d := by
  unfold formDigests
  dsimp only
  rw [view_compareDigests, view_sendPair, view_pair]
end

end Sys2Proof.Machine
end

section
/-! ## What the profile unit leaves as it was -/
namespace Sys2Proof.Machine

/-! ### Stops and references -/

@[simp] theorem view_startStop (d : Dev) (n k : Nat) (cat : StopCat) : view false (startStop d n k cat) = view false d := by
  unfold startStop
  dsimp only
  rw [view_showAxis, view_os _ _ (by simp), view_setMot, view_retireBlend]

@[simp] theorem view_applyStop (d : Dev) (n k : Nat) (cat : StopCat) (cause seq : Nat) : view false (applyStop d n k cat cause seq) = view false d := by
  unfold applyStop
  dsimp only
  refine view_ite (view_ite (view_ite (by simp) (by simp)) rfl) (view_ite ?_ (view_ite (by simp) rfl))
  rw [view_setCause, view_setMot, view_startStop, view_homeAbort]

@[simp] theorem view_takeDemands (d : Dev) (n k : Nat) (late : Bool) : view false (takeDemands d n k late) = view false d := by
  unfold takeDemands
  dsimp only
  split
  · rfl
  · rw [view_applyStop, view_setMot]

@[simp] theorem view_setRefs (d : Dev) (n : Nat) (r : Int × Rat × Rat) : view false (setRefs d n r) = view false d := by
  unfold setRefs
  rw [view_osf _ _ (by simp), view_osf _ _ (by simp), view_osi _ _ _ (by simp)]

@[simp] theorem view_gearRefs (d : Dev) (n k : Nat) (e : QEntry) (g : GearRun) : view false (gearRefs d n k e g) = view false d := by
  unfold gearRefs
  dsimp only
  rw [view_setRefs, view_setMot]

@[simp] theorem view_latchGear (d : Dev) (k : Nat) : view false (latchGear d k) = view false d := by
  unfold latchGear
  refine view_foldl _ (fun e n _ => ?_) d
  split
  · simp
  · rfl

@[simp] theorem view_profRefs (d : Dev) (n k : Nat) : view false (profRefs d n k) = view false d := by
  unfold profRefs
  dsimp only
  split
  · simp
  · split
    · simp
    · simp

@[simp] theorem view_latchPlain (d : Dev) (k : Nat) : view false (latchPlain d k) = view false d := by
  unfold latchPlain
  exact view_foldl _ (fun e n _ => view_step (view_profRefs ..) rfl) d

@[simp] theorem view_latchRefs (d : Dev) (k : Nat) : view false (latchRefs d k) = view false d := by
  unfold latchRefs
  refine view_ite ?_ rfl
  dsimp only
  rw [view_latchGear, view_latchPlain, view_foldl _ fun e n _ => view_takeDemands e n (k - 1) true]

/-! ### Commands -/

@[simp] theorem view_enableAxis (d : Dev) (n : Nat) : view false (enableAxis d n).1 = view false d := by
  unfold enableAxis
  dsimp only
  refine view_ite_fst rfl (view_ite_fst rfl (view_ite_fst rfl ?_))
  rw [view_showAxis, view_os _ _ (by simp)]
  refine view_step (view_osf _ _ (by simp)) ?_
  rw [view_setStp, view_setCur, view_osb _ _ _ (by simp), view_osb _ _ _ (by simp), view_osb _ _ _ (by simp), view_setCause, view_setMot, view_setRefs]

@[simp] theorem view_disableCmd (d : Dev) (n : Nat) : view false (disableCmd d n).1 = view false d := by
  unfold disableCmd
  exact view_ite_fst (view_axisOff ..) rfl

@[simp] theorem view_activate (d : Dev) (n k : Nat) (pred : Option QEntry) : view false (activate d n k pred) = view false d := by
  have hmoving : view false (os d (ax n 9) 1 2) = view false d := view_os _ _ (by simp)
  unfold activate
  generalize os d (ax n 9) 1 2 = b at hmoving
  split
  · rfl
  · dsimp only
    refine view_ite ?_ (view_ite ?_ (view_ite (view_ite ?_ ?_) ?_))
    · rw [view_setMot, hmoving]
    · rw [view_setMot, hmoving]
    · rw [view_setCause, view_startStop, view_setMot, hmoving]
    · rw [view_setMot, hmoving]
    · refine view_ite ?_ ?_
      · rw [view_setMot, hmoving]
      · rw [view_setMot, hmoving]

@[simp] theorem view_appendEntry (d : Dev) (n k : Nat) : view false (appendEntry d n k).1 = view false d := by
  have hno : view false (bump d (ax n 0x2D) 1) = view false d := view_bump _ (by simp)
  unfold appendEntry
  dsimp only
  refine view_ite_fst hno (view_ite_fst hno (view_ite_fst hno (view_ite_fst hno (view_ite_fst hno (view_ite_fst ?_ ?_)))))
  · rw [view_showAxis, view_activate, view_osb _ _ _ (by simp), view_setMot]
  · rw [view_showAxis, view_setMot]

@[simp] theorem view_hostStop (d : Dev) (n k : Nat) (cat : StopCat) (seq : Nat) : view false (hostStop d n k cat seq).1 = view false d := by
  unfold hostStop
  dsimp only
  exact view_ite_fst rfl (view_ite_fst (view_applyStop ..) rfl)

@[simp] theorem view_entryDone (d : Dev) (n k : Nat) : view false (entryDone d n k) = view false d := by
  unfold entryDone
  split
  · rfl
  · next e q _ =>
    dsimp only
    cases q with
    | nil => dsimp only; rw [view_showAxis, view_setRefs, view_os _ _ (by simp), view_bump _ (by simp), view_setMot]
    | cons x q => dsimp only; rw [view_showAxis, view_activate, view_bump _ (by simp), view_setMot]

@[simp] theorem view_resumeAxis (d : Dev) (n k : Nat) : view false (resumeAxis d n k).1 = view false d := by
  unfold resumeAxis
  refine view_ite_fst rfl (view_ite_fst rfl ?_)
  split
  · rfl
  · dsimp only
    refine view_ite_fst rfl (view_ite_fst ?_ ?_)
    · rw [view_entryDone, view_os _ _ (by simp), view_osb _ _ _ (by simp)]
    · rw [view_showAxis, view_activate, view_osb _ _ _ (by simp)]

@[simp] theorem view_flushQueue (d : Dev) (n : Nat) : view false (flushQueue d n).1 = view false d := by
  unfold flushQueue
  refine view_ite_fst rfl ?_
  rw [view_showAxis, view_os _ _ (by simp), view_setMot]

@[simp] theorem view_homeLatch (d : Dev) (n : Nat) (home plat : Int) : view false (homeLatch d n home plat) = view false d := by
  unfold homeLatch
  dsimp only
  rw [view_osb _ _ _ (by simp), view_osb _ _ _ (by simp), view_osi _ _ _ (by simp),
    view_foldl _ fun e m _ => view_step (view_setEmu ..) rfl, view_setMot]
  refine view_ite ?_ ?_
  · rw [view_setChan, view_setSrv, view_osi _ _ _ (by simp), view_osi _ _ _ (by simp)]
  · rw [view_setStp, view_setSrv, view_osi _ _ _ (by simp), view_osi _ _ _ (by simp)]

@[simp] theorem view_homeAxis (d : Dev) (n : Nat) : view false (homeAxis d n).1 = view false d := by
  have hbegun : view false (osb (os (os d (ax n 0x29) 2 0) (ax n 0x29) 4 0) (ax n 9) 4 9 false) = view false d := by simp
  unfold homeAxis
  generalize osb (os (os d (ax n 0x29) 2 0) (ax n 0x29) 4 0) (ax n 9) 4 9 false = b at hbegun
  dsimp only
  refine view_ite_fst rfl (view_ite_fst rfl (view_ite_fst ?_ ?_))
  · rw [view_os _ _ (by simp), view_homeLatch, hbegun]
  · rw [view_showAxis, view_os _ _ (by simp), view_setMot, hbegun]

@[simp] theorem view_acknowledgeAxis (d : Dev) (n : Nat) : view false (acknowledgeAxis d n).1 = view false d := by
  unfold acknowledgeAxis
  dsimp only
  refine view_ite_fst (view_ite_fst ?_ ?_) (view_ite_fst ?_ rfl)
  · rw [view_osb _ _ _ (by simp), view_setMot]
  · rw [view_os _ _ (by simp), view_osb _ _ _ (by simp), view_setMot]
  · rw [view_osb _ _ _ (by simp), view_setMot]

@[simp] theorem view_doCommand (d : Dev) (n k code seq : Nat) : view false (doCommand d n k code seq).1 = view false d := by
  unfold doCommand
  refine view_ite_fst rfl (view_ite_fst rfl (view_ite_fst (view_enableAxis ..) (view_ite_fst (view_disableCmd ..) (view_ite_fst (view_appendEntry ..)
    (view_ite_fst (view_hostStop ..) (view_ite_fst (view_hostStop ..) (view_ite_fst (view_resumeAxis ..) (view_ite_fst (view_flushQueue ..)
    (view_ite_fst (view_homeAxis ..) (view_ite_fst (view_acknowledgeAxis ..) rfl))))))))))

@[simp] theorem view_takeCommand (d : Dev) (n k : Nat) : view false (takeCommand d n k) = view false d := by
  unfold takeCommand
  dsimp only
  refine view_ite rfl (view_ite (view_os _ _ (by simp)) ?_)
  rw [view_os _ _ (by simp), view_doCommand, view_number]

end Sys2Proof.Machine
end

section
/-! ## What the items of an axis leave as they were -/
namespace Sys2Proof.Machine

@[simp] theorem view_sampleInputs (d : Dev) (n k : Nat) : view false (sampleInputs d n k).1 = view false d := rfl

@[simp] theorem view_setHead (d : Dev) (n : Nat) (f : QEntry → QEntry) : view false (setHead d n f) = view false d := by
  unfold setHead
  split
  · simp
  · rfl

@[simp] theorem view_livePhase (d : Dev) (n k : Nat) (phi : Int) : view false (livePhase d n k phi) = view false d := by
  unfold livePhase
  split
  · refine view_ite ?_ rfl
    dsimp only
    rw [view_osb _ _ _ (by simp), view_setMot, view_setHead]
  · rfl

@[simp] theorem view_takeLivePhase (d : Dev) (n k : Nat) : view false (takeLivePhase d n k) = view false d := by
  unfold takeLivePhase
  split
  · rw [view_livePhase, view_setMot]
  · rfl

@[simp] theorem view_limitStop (d : Dev) (n k : Nat) (neg : Bool) : view false (limitStop d n k neg) = view false d := by
  unfold limitStop
  refine view_ite ?_ rfl
  dsimp only
  rw [view_applyStop, view_event, view_bump _ (by simp)]

@[simp] theorem view_softLimit (d : Dev) (n k : Nat) : view false (softLimit d n k) = view false d := by
  unfold softLimit
  refine view_ite ?_ rfl
  rw [view_osb _ _ _ (by simp), view_applyStop]

/-! ### Entries -/

@[simp] theorem view_jointPlain (d : Dev) (n k : Nat) : view false (jointPlain d n k) = view false d := by
  unfold jointPlain
  dsimp only
  split
  · exact view_step (view_bump _ (by simp)) (view_osb _ _ _ (by simp))
  · simp
  · rfl

@[simp] theorem view_filletStart (d : Dev) (n k : Nat) : view false (filletStart d n k) = view false d := by
  unfold filletStart
  dsimp only
  split
  · refine view_ite (view_ite rfl (view_ite rfl (view_ite (view_step (view_bump _ (by simp)) ?_) rfl))) rfl
    rw [view_osb _ _ _ (by simp), view_setMot]
  · rfl

@[simp] theorem view_countDown (d : Dev) (n k : Nat) : view false (countDown d n k) = view false d := view_setHead ..

@[simp] theorem view_moveProgress (d : Dev) (n k : Nat) : view false (moveProgress d n k) = view false d := by
  have hdone (e : Dev) : view false (entryDone (jointPlain e n k) n k) = view false e := by rw [view_entryDone, view_jointPlain]
  unfold moveProgress
  extract_lets e
  have hretired : view false e = view false d := by
    dsimp only [e]
    split
    · exact view_step (view_retireBlend ..) rfl
    · rfl
  clear_value e
  dsimp only
  split
  · exact hretired
  · refine view_ite (view_step (hdone e) hretired) (view_ite (view_ite ((hdone e).trans hretired) ((view_filletStart ..).trans hretired)) (view_ite ?_
      (view_ite ?_ (view_ite ((view_countDown ..).trans hretired) (view_step (view_setHead ..) hretired)))))
    · exact view_ite (view_ite (view_step (view_setHead ..) hretired) ((hdone e).trans hretired)) (view_ite ((view_countDown ..).trans hretired)
        (view_step (view_setHead ..) hretired))
    · refine view_step (hdone _) ?_
      split
      · rw [view_osb _ _ _ (by simp), hretired]
      · exact hretired

/-! ### Homing -/

@[simp] theorem view_homeStop (d : Dev) (n k : Nat) (h : HomeRun) (phase : Nat) : view false (homeStop d n k h phase) = view false d := by
  unfold homeStop
  dsimp only
  rw [view_setMot]

@[simp] theorem view_homeReverse (d : Dev) (n k : Nat) (h : HomeRun) : view false (homeReverse d n k h) = view false d := by
  unfold homeReverse
  rw [view_homeStop, view_os _ _ (by simp)]

theorem view_homeFail {d : Dev} (hb : Benign (view false d)) (n k result : Nat) : view false (homeFail d n k result) = view false d := by
  have haborted : view false (homeAbort d n result) = view false d := view_homeAbort ..
  unfold homeFail
  dsimp only
  generalize homeAbort d n result = e at haborted
  have hbe : Benign (view false e) := haborted ▸ hb
  have hc := hbe.cluster n
  have hraised : view false (raise e (49 + 4 * cluster e n) 3 n).1 = view false d := (view_raise hbe _ _ (by omega)).trans haborted
  generalize raise e (49 + 4 * cluster e n) 3 n = r at hraised
  refine view_ite hraised (view_ite ?_ ?_)
  · rw [view_setCause, view_axisOff, hraised]
  · rw [view_showAxis, view_setCause, view_os _ _ (by simp), view_setMot, hraised]

theorem view_homeEdge {d : Dev} (hb : Benign (view false d)) (n k : Nat) (neg : Bool) : view false (homeEdge d n k neg) = view false d := by
  unfold homeEdge
  split
  · rfl
  · exact view_ite (view_ite (view_homeStop ..) (view_homeReverse ..)) (view_homeFail hb n k 3)

@[simp] theorem view_homeGo (d : Dev) (n k : Nat) (h : HomeRun) : view false (homeGo d n k h) = view false d := by
  unfold homeGo
  dsimp only
  refine view_ite (view_setMot ..) ?_
  split
  · simp
  · rw [view_setRefs, view_os _ _ (by simp), view_os _ _ (by simp), view_setMot]

theorem view_homeProgress {d : Dev} (hb : Benign (view false d)) (n k : Nat) (edge : Bool) : view false (homeProgress d n k edge) = view false d := by
  unfold homeProgress
  split
  · rfl
  · next h0 _ =>
    extract_lets h was e m lim
    have he : view false e = view false d := view_setMot ..
    have hstop {e' : Dev} (h' : HomeRun) (ph : Nat) (hv : view false e' = view false e) : view false (homeStop e' n k h' ph) = view false d :=
      (view_homeStop ..).trans (hv.trans he)
    have hgo (h' : HomeRun) : view false (homeGo e n k h') = view false d := (view_homeGo ..).trans he
    refine view_ite ((view_homeFail (he ▸ hb) ..).trans he) (view_ite he (view_ite (view_ite (hgo _) he) (view_ite ?_ (view_ite ?_ (view_ite ?_ he)))))
    · refine view_ite (view_ite (hstop _ _ rfl) ((view_homeReverse ..).trans he)) (view_ite (hstop _ _ rfl) (view_ite ?_ (view_ite (hgo _) he)))
      split
      · exact hstop _ _ (view_homeLatch ..)
      · exact view_ite (hgo _) he
    · refine view_ite (view_ite he ((view_setMot ..).trans he)) (view_ite ?_ he)
      exact hstop _ _ (view_homeLatch ..)
    · split
      · exact hstop _ _ (view_homeLatch ..)
      · exact he

theorem view_progress {d : Dev} (hb : Benign (view false d)) (n k : Nat) (edge : Bool) : view false (progress d n k edge) = view false d := by
  unfold progress
  dsimp only
  refine view_ite (view_moveProgress ..) (view_ite (view_ite ?_ rfl) (view_ite (view_homeProgress hb n k edge) rfl))
  rw [view_setRefs, view_os _ _ (by simp), view_setMot]

theorem view_profileItems {d : Dev} (hb : Benign (view false d)) (n k : Nat) : view false (profileItems d n k) = view false d := by
  have hsampled : view false (sampleInputs (takeDemands d n k false) n k).1 = view false d := by simp
  unfold profileItems
  generalize sampleInputs (takeDemands d n k false) n k = r at hsampled
  have hedge (e : Dev) (he : view false e = view false d) (on neg : Bool) :
      view false (if !on then e else if axState e n = 5 then homeEdge e n k neg else limitStop e n k neg) = view false d :=
    view_ite he (view_ite ((view_homeEdge (he.symm ▸ hb) n k neg).trans he) ((view_limitStop ..).trans he))
  dsimp only
  rw [view_showAxis]
  have hall := hedge _ (hedge r.1 hsampled r.2.1 false) r.2.2 true
  refine (view_progress ?_ n k _).trans ?_
  · rw [view_takeLivePhase, view_takeCommand, view_softLimit, hall]
    exact hb
  · rw [view_takeLivePhase, view_takeCommand, view_softLimit, hall]

theorem view_profilePhase {d : Dev} (hb : Benign (view false d)) (k : Nat) : view false (profilePhase d k) = view false d := by
  unfold profilePhase
  dsimp only
  rw [view_foldl _ fun e n _ => view_takeCommand e n k]
  exact view_foldl_of (P := Benign) _ (fun e he n _ => view_ite (view_profileItems he n k) (view_takeCommand e n k)) hb

end Sys2Proof.Machine
end

section
/-! ## The control instant (R16, R34) -/
namespace Sys2Proof.Machine

/-! ### Its phases -/

/-- The inputs of the instant are closed and the lines publish. -/
def inputsClosed (d : Dev) : Dev :=
  let k := d.time.k
  let d := { d with time := { d.time with kc := k } }
  let d := if ready d 31 && pairState d != 0 then agreeBlocks d (List.range 8) else d
  let d := (List.range 8).foldl (fun d g => closeRing d g false) d
  (publishing d k).foldl publishLine d

/-- The bound axes take their samples, and which of them a ring gave one. -/
def axesTracked (d : Dev) (k : Nat) : Dev × List Nat :=
  (phaseAxes d).foldl (fun (a : Dev × List Nat) n => let t := trackAxis a.1 n k; (t.1, if t.2 then a.2 ++ [n] else a.2)) (d, [])

/-- References, pulse inputs and feedback. -/
def feedbackTaken (d : Dev) (k : Nat) : Dev × List Nat :=
  let d := latchRefs d k
  let d := if pairRole d = 2 && paired d then d else (List.range 16).foldl (fun d i => pulseInstant d i k) d
  let d := if ready d 31 then sendLocal d else d
  axesTracked d k

/-- Profiles, loops and outputs, acquisition and the pair. -/
def loopsRun (r : Dev × List Nat) (k : Nat) : Dev :=
  let d := (phaseAxes r.1).foldl padInputs r.1
  let d := profilePhase d k
  let d := (phaseAxes d).foldl padRefs d
  let d := (phaseAxes d).foldl (fun d n => axisPhase d n (r.2.contains n)) d
  let d := ((phaseAxes d).filter (fun n => onRing (kind d n))).foldl freezeWindow d
  let d := (List.range 8).foldl emuUpdate d
  let d := acqInstant d false
  let d := if ready d 31 && pairState d != 0 then transferStep (formDigests d) else d
  let d := occur d 2 0
  (List.range 8).foldl (fun d g => if sending d g && mouldTight (mould d g) then occur d 4 g else d) d

theorem controlPhase_eq (d : Dev) : controlPhase d = loopsRun (feedbackTaken (keepLast (enforce (inputsClosed d))) d.time.k) d.time.k := rfl

theorem view_inputsClosed (d : Dev) : view false (inputsClosed d) = view false { d with time := { d.time with kc := d.time.k } } := by
  unfold inputsClosed
  dsimp only
  generalize ({ d with time := { d.time with kc := d.time.k } } : Dev) = a
  refine (view_foldl (f := publishLine) _ (fun e l hl => view_publishLine e (List.mem_range.1 (List.mem_filter.1 hl).1)) _).trans ?_
  rw [view_foldl _ fun e g hg => view_closeRing e (List.mem_range.1 hg) false]
  exact view_step (view_agreeBlocks ..) rfl

theorem view_axesTracked (d : Dev) (k : Nat) : view false (axesTracked d k).1 = view false d :=
  foldl_invariant (I := fun a : Dev × List Nat => view false a.1 = view false d) (fun a n h => (view_trackAxis a.1 n k).trans h) _ (d, []) rfl

theorem view_feedbackTaken (d : Dev) (k : Nat) : view false (feedbackTaken d k).1 = view false d := by
  unfold feedbackTaken
  dsimp only
  rw [view_axesTracked]
  refine view_step (view_sendLocal _) (view_skip ?_ (view_latchRefs ..))
  exact view_foldl _ (fun e i hi => view_pulseInstant e (List.mem_range.1 hi) k) _

theorem view_loopsRun {r : Dev × List Nat} (hb : Benign (view false r.1)) (k : Nat) : view false (loopsRun r k) = view false r.1 := by
  have hpads : view false ((phaseAxes r.1).foldl padInputs r.1) = view false r.1 := view_foldl _ (fun e n _ => view_padInputs e n) _
  unfold loopsRun
  generalize (phaseAxes r.1).foldl padInputs r.1 = a at hpads
  have hprofile : view false (profilePhase a k) = view false r.1 := (view_profilePhase (hpads.symm ▸ hb) k).trans hpads
  dsimp only
  rw [view_foldl _ fun e g _ => view_step (view_occur ..) rfl, view_occur]
  refine view_step ((view_transferStep _).trans (view_formDigests _)) ?_
  rw [view_acqInstant, view_foldl _ fun e m _ => view_emuUpdate e m, view_foldl _ fun e n _ => view_freezeWindow e n,
    view_foldl _ fun e n _ => view_axisPhase e n _, view_foldl _ fun e n _ => view_padRefs e n, hprofile]

theorem view_enforce (d : Dev) : view false (enforce d) = view false { d with inForce := d.objs } := by
  unfold enforce
  dsimp only
  rw [view_followSource, view_foldl _ fun e n _ => view_rebind e n]

/-! ### The axes' objects until the values take effect -/

/-- The objects of the axes are as before. -/
def AxesKept (a b : Dev) : Prop := ∀ k, 0x800000 ≤ k → tget objDefault b.objs k = tget objDefault a.objs k

namespace AxesKept
theorem refl (a : Dev) : AxesKept a a := fun _ _ => rfl
theorem trans {a b c : Dev} (h : AxesKept a b) (h' : AxesKept b c) : AxesKept a c := fun k hk => (h' k hk).trans (h k hk)
theorem of_objs {a b : Dev} (h : b.objs = a.objs) : AxesKept a b := fun _ _ => by rw [h]
theorem of_kept {a b : Dev} {l : List Nat} (h : ObjsKept a b l) (hl : ∀ k ∈ l, k < 0x800000) : AxesKept a b := fun k hk => h k fun hm => by
  have := hl k hm
  omega
theorem os (a : Dev) {i c : Nat} (v : Nat) (hi : okey i c < 0x800000) : AxesKept a (Machine.os a i c v) :=
  .of_kept (l := [okey i c]) ((ObjsKept.refl a _).os i c v (by simp)) (by simpa using hi)
theorem foldl {α : Type} {f : Dev → α → Dev} {xs : List α} (hf : ∀ d, ∀ x ∈ xs, AxesKept d (f d x)) (d : Dev) : AxesKept d (xs.foldl f d) := by
  induction xs generalizing d with
  | nil => exact refl d
  | cons x xs ih => exact (hf d x (by simp)).trans (ih (fun d y hy => hf d y (by simp [hy])) _)
end AxesKept

theorem bumpBy_axesKept (d : Dev) {i c : Nat} (n : Nat) (hi : okey i c < 0x800000) : AxesKept d (bumpBy d i c n) := by
  unfold bumpBy
  dsimp only
  split
  · exact .refl d
  · split
    · exact .os d _ hi
    · exact (AxesKept.os d _ hi).trans (.of_objs rfl)

theorem agreeBlocks_axesKept (d : Dev) (rings : List Nat) : AxesKept d (agreeBlocks d rings) := by
  have hbump (e : Dev) : AxesKept e (bump e 0x3C02 7) := .of_kept (bump_kept e 0x3C02 7) (by decide)
  have hexcl (e : Dev) (g j : Nat) : AxesKept e (excludeBlock e g j) := (hbump e).trans (.of_objs rfl)
  unfold agreeBlocks
  dsimp only
  split
  · refine AxesKept.trans (.foldl (fun e p _ => ?_) d) (.of_objs (by rw [sendPair_frame]))
    split
    · exact hexcl e p.1 p.2
    · exact hbump e
  split
  · split
    · refine .foldl (fun e p _ => ?_) d
      split
      · exact hexcl e p.1 p.2
      · exact .refl e
    · exact .refl d
  · exact .refl d

theorem closeRing_axesKept (d : Dev) {g : Nat} (hg : g < 8) (half : Bool) : AxesKept d (closeRing d g half) := by
  have hs := (sgb_index (show g < 12 by omega)).2.1
  have hmiss (e : Dev) (j : Nat) : AxesKept e (segFault (bumpBy e (sgb g + 9) 5 (winCount (mould e g) j)) g j) := by
    refine (bumpBy_axesKept e (i := sgb g + 9) (c := 5) (winCount (mould e g) j) (by unfold okey; omega)).trans ?_
    unfold segFault
    dsimp only
    split
    · exact .refl _
    · exact .of_objs rfl
  unfold closeRing
  split
  · exact .refl d
  · refine .foldl (fun e j _ => ?_) d
    dsimp only
    split
    · exact .refl e
    split
    · split
      · exact .refl e
      · exact .of_objs rfl
    · split
      · exact hmiss e j
      · exact (hmiss e j).trans (.of_objs rfl)

theorem publishLine_axesKept (d : Dev) {l : Nat} (hl : l < 4) : AxesKept d (publishLine d l) := by
  unfold publishLine
  refine .foldl (fun e p hp => ?_) d
  have hp' : p.1 < 1024 := by
    obtain ⟨q, -, rfl⟩ := List.mem_map.1 hp
    exact Nat.mod_lt _ (by decide)
  have hkey (c : Nat) (hc : c < 256) : okey (fnx l p.1 2) c < 0x800000 := by unfold okey fnx; omega
  have hwords : AxesKept e ((List.range 16).foldl (fun d i => os d (fnx l p.1 2) (i + 1) (wordAt p.2 i)) e) :=
    .foldl (fun e i hi => .os e _ (hkey _ (by have := List.mem_range.1 hi; omega))) e
  exact (hwords.trans (.os _ _ (hkey _ (by decide)))).trans (.os _ _ (hkey _ (by decide)))

theorem inputsClosed_axesKept (d : Dev) : AxesKept d (inputsClosed d) := by
  unfold inputsClosed
  dsimp only
  refine AxesKept.trans (b := { d with time := { d.time with kc := d.time.k } }) (.of_objs rfl) ?_
  generalize ({ d with time := { d.time with kc := d.time.k } } : Dev) = a
  have hagreed : AxesKept a (if ready a 31 && pairState a != 0 then agreeBlocks a (List.range 8) else a) := by
    split
    · exact agreeBlocks_axesKept a (List.range 8)
    · exact .refl a
  exact hagreed.trans ((AxesKept.foldl (fun e g hg => closeRing_axesKept e (List.mem_range.1 hg) false) _).trans
    (.foldl (fun e l hl => publishLine_axesKept e (List.mem_range.1 (List.mem_filter.1 hl).1)) _))

theorem showIsland_axesKept (d : Dev) (i : IslandSt) : AxesKept d (showIsland d i) :=
  .foldl (fun e o ho => .os e _ (by
    have hall : ∀ o ∈ [(0x3A03, 1), (0x3A03, 3), (0x3A20, 0), (0x3A22, 0), (0x3A23, 0), (0x3A24, 0)], okey o.1 o.2 < 0x800000 := by decide
    exact hall o ho)) d

theorem view_showIsland (d : Dev) (i : IslandSt) : view false (showIsland d i) = view false d := by
  refine view_foldl _ (fun e o ho => view_os e _ ?_) d
  have hall : ∀ o ∈ [(0x3A03, 1), (0x3A03, 3), (0x3A20, 0), (0x3A22, 0), (0x3A23, 0), (0x3A24, 0)], Spared false o.1 o.2 := by
    unfold Spared
    decide
  exact hall o ho

end Sys2Proof.Machine
end

section
/-! ## The tight control instant (R77) -/
namespace Sys2Proof.Machine

/-! ### An axis whose part is left alone -/

/-- What the units keep of an axis. -/
def axisRest (m : Nat) (d : Dev) : MotionSt × ServoSt × CurrentSt × StepperSt := (mot d m, srv d m, cur d m, stp d m)

section
variable {m n : Nat}

theorem rest_bump (d : Dev) (i c : Nat) : axisRest m (bump d i c) = axisRest m d := by
  rw [bump_frame]
  rfl

theorem rest_bumpBy (d : Dev) (i c x : Nat) : axisRest m (bumpBy d i c x) = axisRest m d := by
  unfold bumpBy
  dsimp only
  exact same_ite rfl (same_ite rfl rfl)

theorem rest_setMot (d : Dev) (x : MotionSt) (h : m ≠ n) : axisRest m (setMot d n x) = axisRest m d := by
  have hmot : mot (setMot d n x) m = mot d m := (tget_tput ..).trans (if_neg h)
  unfold axisRest
  rw [hmot]
  rfl

theorem rest_setSrv (d : Dev) (x : ServoSt) (h : m ≠ n) : axisRest m (setSrv d n x) = axisRest m d := by
  have hsrv : srv (setSrv d n x) m = srv d m := (tget_tput ..).trans (if_neg h)
  unfold axisRest
  rw [hsrv]
  rfl

theorem rest_setCur (d : Dev) (x : CurrentSt) (h : m ≠ n) : axisRest m (setCur d n x) = axisRest m d := by
  have hcur : cur (setCur d n x) m = cur d m := (tget_tput ..).trans (if_neg h)
  unfold axisRest
  rw [hcur]
  rfl

theorem rest_setStp (d : Dev) (x : StepperSt) (h : m ≠ n) : axisRest m (setStp d n x) = axisRest m d := by
  have hstp : stp (setStp d n x) m = stp d m := (tget_tput ..).trans (if_neg h)
  unfold axisRest
  rw [hstp]
  rfl

theorem rest_occur (d : Dev) (kind g : Nat) : axisRest m (occur d kind g) = axisRest m d := by
  obtain ⟨u, hu, -⟩ := occur_points d kind g
  rw [hu]
  rfl

theorem rest_ringApart (m : Nat) : RingApart (axisRest m) where
  pair _ _ := rfl
  send d typ b := by
    rw [sendPair_frame]
    rfl
  emit _ _ := rfl
  seg _ _ _ := rfl
  head _ _ _ _ := rfl
  ungiven d := rest_bump d _ _
  missed d _ n _ := rest_bumpBy d _ _ n
  report _ _ _ _ := rfl

theorem rest_axisApart (h : m ≠ n) : AxisApart n (axisRest m) where
  os _ _ _ _ _ := rfl
  bump d _ _ _ := rest_bump d _ _
  mot d x := rest_setMot d x h
  srv d x := rest_setSrv d x h
  cur d x := rest_setCur d x h
  stp d x := rest_setStp d x h
  trip _ _ _ _ _ _ _ := rfl
  free _ _ := rfl
  frames _ _ := rfl

theorem rest_acqApart (m : Nat) : AcqApart (axisRest m) where
  acq _ _ := rfl
  free _ _ := rfl
  load _ _ := rfl
  os _ _ _ _ _ _ _ _ := rfl
  bump d _ _ _ _ _ _ := rest_bump d _ _
  bumpBy d _ _ _ x _ _ _ := rest_bumpBy d _ _ x
  number d := by
    rw [(number_noted d).frame]
    rfl
  log d b c v := by
    rw [(log_noted d b c v).frame]
    rfl
end

/-! ### The rings of axes are not changed before their loops run -/

theorem axisSeg_kept {a b : Dev} (h : AxesKept a b) (n : Nat) : axisSeg b n = axisSeg a n := by
  have hog (c : Nat) : og b (ax n 1) c = og a (ax n 1) c := h _ (by unfold okey ax; omega)
  unfold axisSeg
  rw [hog, hog]

/-! ### The phase of a tight instant -/

/-- The inputs of the tight rings are closed. -/
def tightInputs (d : Dev) : Dev :=
  let gs := tightRings d
  let d := if ready d 31 && pairState d != 0 then forgetBlocks (agreeBlocks d gs) gs else d
  gs.foldl (fun d g => closeRing d g true) d

/-- The axes of the rings, of those of their clusters that are ready. -/
def axesOn (d : Dev) (gs : List Nat) : List Nat :=
  (phaseAxes d).filter (fun n => match axisSeg d n with | some g => gs.contains g | none => false)

/-- The windows of the ring begin again, and a ring that sends gets its frame. -/
def tightSent (d : Dev) (g : Nat) : Dev :=
  let d := clearWindows d g true
  if ringSends d g then sendRing d g true none false else d

/-- What a tight instant does at its time. -/
def tightPhase (d : Dev) (k : Nat) : Dev :=
  let d := { d with time := { d.time with kt := k } }
  let gs := tightRings d
  let d := tightInputs d
  let d := (axesOn d gs).foldl (fun d n => tightAxis d n k) d
  let d := acqInstant d true
  let d := gs.foldl tightSent d
  gs.foldl (fun d g => occur d 4 g) d

theorem execTight_eq (s : State) : exec .tightControlInstant s = .next (upd s (fun d =>
    if !ready d 4 || d.time.kt = d.time.k || d.time.kc = d.time.k then d
    else tightPhase (advanceSeg d (d.time.k * unitCycle + 12000 * unitNs)) d.time.k)) := rfl

theorem tightRings_below {d : Dev} {g : Nat} (h : g ∈ tightRings d) : g < 8 := List.mem_range.1 (List.mem_filter.1 h).1

theorem tightInputs_axesKept (d : Dev) : AxesKept d (tightInputs d) := by
  unfold tightInputs
  dsimp only
  have hagreed : AxesKept d (if ready d 31 && pairState d != 0 then forgetBlocks (agreeBlocks d (tightRings d)) (tightRings d) else d) := by
    split
    · exact (agreeBlocks_axesKept d (tightRings d)).trans (.of_objs rfl)
    · exact .refl d
  exact hagreed.trans (.foldl (fun e g hg => closeRing_axesKept e (tightRings_below hg) true) _)

theorem advanceSeg_frame (d : Dev) (x : Nat) : advanceSeg d x = { d with time := (advanceSeg d x).time } := advance_frame d _

theorem advanceSeg_instants (d : Dev) (x : Nat) : (advanceSeg d x).time.k = d.time.k ∧ (advanceSeg d x).time.kc = d.time.kc := by
  unfold advanceSeg advance
  split
  · exact ⟨rfl, rfl⟩
  · exact ⟨rfl, rfl⟩

section
variable {β : Type} {φ : Dev → β}

theorem RingApart.tightInputs (h : RingApart φ) (d : Dev) : φ (tightInputs d) = φ d := by
  unfold Machine.tightInputs
  dsimp only
  rw [same_foldl _ fun e g hg => h.closeRing e (tightRings_below hg) true]
  exact same_ite ((h.forgetBlocks ..).trans (h.agreeBlocks ..)) rfl

theorem RingApart.tightSent (h : RingApart φ) (d : Dev) (g : Nat) : φ (tightSent d g) = φ d :=
  same_step (h.sendRing ..) (h.clearWindows ..)

/-- A look at the device that the axes of the rings do not change is as it was when the instant was taken. -/
theorem tightPhase_same (hr : RingApart φ) (ha : AcqApart φ) (ho : ∀ d g, φ (occur d 4 g) = φ d) (d : Dev) (k : Nat)
    (hx : ∀ e n, axisSeg d n ≠ none → φ (tightAxis e n k) = φ e) : φ (tightPhase d k) = φ { d with time := { d.time with kt := k } } := by
  have hring (n : Nat) : axisSeg (tightInputs { d with time := { d.time with kt := k } }) n = axisSeg d n :=
    axisSeg_kept ((AxesKept.of_objs rfl).trans (tightInputs_axesKept { d with time := { d.time with kt := k } })) n
  unfold tightPhase
  dsimp only
  rw [same_foldl _ fun e g _ => ho e g, same_foldl _ fun e g _ => hr.tightSent e g, ha.acqInstant]
  refine (same_foldl _ (fun e n hn => ?_) _).trans (hr.tightInputs _)
  have hon := (List.mem_filter.1 hn).2
  refine hx e n fun hnone => ?_
  rw [hring, hnone] at hon
  exact Bool.false_ne_true hon
end

theorem view_tightPhase (d : Dev) (k : Nat) : view true (tightPhase d k) = view true { d with time := { d.time with kt := k } } :=
  tightPhase_same (view_ringApart true) (view_acqApart true) (fun e g => view_occur e 4 g) d k fun e n _ => view_tightAxis e n k

theorem rest_tightPhase {d : Dev} {m : Nat} (hm : axisSeg d m = none) (k : Nat) : axisRest m (tightPhase d k) = axisRest m d :=
  tightPhase_same (rest_ringApart m) (rest_acqApart m) (fun e g => rest_occur e 4 g) d k fun e n hn =>
    (rest_axisApart fun hmn => hn (by rw [← hmn]; exact hm)).tightAxis e k

/-! ### The statement's clauses -/

theorem watched_tight {n o : Nat} (ho : o = 0x24 ∨ o = 9) : watched true (okey (ax n o) 1) = true := by
  unfold watched okey ax
  simp
  omega

/-- The axes' references and states show in the view of a tight instant. -/
theorem og_of_view {a b : Dev} (h : view true b = view true a) (n : Nat) {o : Nat} (ho : o = 0x24 ∨ o = 9) : og b (ax n o) 1 = og a (ax n o) 1 := by
  have hv := congrFun (congrArg View.values h) (okey (ax n o) 1)
  have hval (d : Dev) : (view true d).values (okey (ax n o) 1) = og d (ax n o) 1 := if_pos (watched_tight ho)
  rw [hval, hval] at hv
  exact hv

theorem tightControlInstant_leaves {s : State} (h4 : ready s.dev 4 = true) (hkc : s.dev.time.kc ≠ s.dev.time.k) (hkt : s.dev.time.kt ≠ s.dev.time.k) :
    Leaves .tightControlInstant s (fun d => d.time.kt = s.dev.time.k ∧ d.time.kc = s.dev.time.kc ∧ d.time.k = s.dev.time.k ∧
      d.inForce = s.dev.inForce ∧ (∀ n : Ax, pRef d n.val = pRef s.dev n.val ∧ axState d n.val = axState s.dev n.val) ∧
      ∀ n : Ax, axisSeg s.dev n.val = none → mot d n.val = mot s.dev n.val ∧ srv d n.val = srv s.dev n.val ∧
        cur d n.val = cur s.dev n.val ∧ stp d n.val = stp s.dev n.val) := by
  refine .of_upd (execTight_eq s) ?_
  rw [if_neg (by simp [h4, hkc, hkt])]
  have hframe := advanceSeg_frame s.dev (s.dev.time.k * unitCycle + 12000 * unitNs)
  obtain ⟨hk', hkc'⟩ := advanceSeg_instants s.dev (s.dev.time.k * unitCycle + 12000 * unitNs)
  have hforce : (advanceSeg s.dev (s.dev.time.k * unitCycle + 12000 * unitNs)).inForce = s.dev.inForce := by rw [hframe]
  generalize advanceSeg s.dev (s.dev.time.k * unitCycle + 12000 * unitNs) = a at hframe hk' hkc' hforce
  have hview := view_tightPhase a s.dev.time.k
  have hobj (n : Nat) {o : Nat} (ho : o = 0x24 ∨ o = 9) : og (tightPhase a s.dev.time.k) (ax n o) 1 = og s.dev (ax n o) 1 := by
    rw [og_of_view hview n ho, hframe]
    rfl
  refine ⟨congrArg View.kt hview, (congrArg View.kc hview).trans hkc', (congrArg View.k hview).trans hk', ?_, fun n => ⟨?_, hobj n (.inr rfl)⟩,
    fun n hn => ?_⟩
  · exact (congrArg View.inForce hview).trans hforce
  · exact congrArg (sgn 64) (hobj n (.inl rfl))
  · have hrest : axisRest n.val (tightPhase a s.dev.time.k) = axisRest n.val s.dev := by
      rw [rest_tightPhase (by rw [hframe]; exact hn), hframe]
      rfl
    simpa [axisRest] using hrest

end Sys2Proof.Machine
end

section
/-! ## The control instant of a cycle (R16, R34) -/
namespace Sys2Proof.Machine

theorem Benign.of_values {v w : View} (h : Benign v) (e : w.values = v.values) : Benign w :=
  ⟨fun src hs => by rw [e]; exact h.reset src hs, fun n => by rw [e]; exact h.clusters n⟩

/-! ### The control phase -/

/-- The control phase in view: its cycle, and the values in force. -/
def controlView (d : Dev) (force : Table Nat) : View := ⟨d.time.k, d.time.k, d.time.kt, force, watchedValues false d, fun _ => False⟩

theorem Steady.enforced {d e : Dev} {force : Table Nat} (h : Steady (controlView d force) e) :
    Steady (controlView d e.objs) { e with inForce := e.objs } := ⟨h.k, h.kc, h.kt, rfl, h.values, h.known⟩

theorem begun_steady {d : Dev} (hempty : d.fc.todo = []) : Steady (controlView d d.inForce) { d with time := { d.time with kc := d.time.k } } :=
  ⟨rfl, rfl, rfl, rfl, rfl, fun r hr => absurd hr (by rw [hempty]; exact List.not_mem_nil)⟩

theorem controlPhase_steady {d : Dev} (hb : Benign (view false d)) (hempty : d.fc.todo = []) :
    Steady (controlView d (inputsClosed d).objs) (controlPhase d) := by
  have hb' (force : Table Nat) : Benign (controlView d force) := hb.of_values rfl
  have hclosed := (begun_steady hempty).of_view (hb' _) (view_inputsClosed d)
  rw [controlPhase_eq]
  generalize inputsClosed d = e at hclosed
  have hfed : Steady (controlView d e.objs) (feedbackTaken (keepLast (enforce e)) d.time.k).1 :=
    hclosed.enforced.of_view (hb' _) (by rw [view_feedbackTaken, view_keepLast, view_enforce])
  exact hfed.of_view (hb' _) (view_loopsRun (hfed.benign (hb' _)) d.time.k)

/-! ### The instant -/

theorem execControl_eq (s : State) : exec .controlInstant s = .next (if !ready s.dev 4 || s.dev.time.kc = s.dev.time.k then s else
    takeDeviceImage (upd (activateImage (upd s (fun d => advanceSeg d (s.dev.time.k * unitCycle + 28000 * unitNs))))
      (fun d => controlPhase (showIsland d (activateImage (upd s (fun d => advanceSeg d (s.dev.time.k * unitCycle + 28000 * unitNs)))).isl)))) := rfl

theorem activateImage_none {s : State} (h : s.dev.host.pending = none) : activateImage s = s := by
  unfold activateImage
  rw [h]

theorem view_takeDeviceImage (s : State) : view false (takeDeviceImage s).dev = view false s.dev := by
  unfold takeDeviceImage
  dsimp only
  rw [view_bumpBy _ _ (by simp)]
  rfl

theorem showIsland_todo (d : Dev) (i : IslandSt) : (showIsland d i).fc.todo = d.fc.todo :=
  same_foldl (φ := fun e : Dev => e.fc.todo) (f := fun e (o : Nat × Nat) => os e o.1 o.2 (islandNumber i o.1 o.2))
    [(0x3A03, 1), (0x3A03, 3), (0x3A20, 0), (0x3A22, 0), (0x3A23, 0), (0x3A24, 0)] (fun _ _ _ => rfl) d

theorem watchedValues_of_objs {t : Bool} {a b : Dev} (h : b.objs = a.objs) : watchedValues t b = watchedValues t a := by
  unfold watchedValues
  rw [h]

theorem benign_of_objs {d : Dev} (hreset : ∀ src, src < 256 → bit (og d (0x3900 + src) 1) 3 = false) (hclusters : ∀ n, cluster d n < 8) :
    Benign (view false d) :=
  ⟨fun src h => by rw [values_reaction false d h]; exact hreset src h, fun n => by rw [values_cluster]; exact hclusters n⟩

theorem k_of_view {t : Bool} {a b : Dev} (h : view t b = view t a) : b.time.k = a.time.k := congrArg View.k h
theorem kc_of_view {t : Bool} {a b : Dev} (h : view t b = view t a) : b.time.kc = a.time.kc := congrArg View.kc h
theorem inForce_of_view {t : Bool} {a b : Dev} (h : view t b = view t a) : b.inForce = a.inForce := congrArg View.inForce h

/-- The control phase and its reports: the objects at the closing of the inputs are in force. -/
theorem controlPhase_upd {s : State} (hb : Benign (view false s.dev)) (hempty : s.dev.fc.todo = []) :
    Steady (controlView (showIsland s.dev s.isl) (inputsClosed (showIsland s.dev s.isl)).objs)
      (upd s (fun d => controlPhase (showIsland d s.isl))).dev := by
  have hb' : Benign (view false (showIsland s.dev s.isl)) := (view_showIsland s.dev s.isl).symm ▸ hb
  have hphase := controlPhase_steady hb' ((showIsland_todo ..).trans hempty)
  have hv : Benign (controlView (showIsland s.dev s.isl) (inputsClosed (showIsland s.dev s.isl)).objs) := hb'.of_values rfl
  exact upd_steady hv hphase

theorem inputsClosed_axes (d : Dev) (i : IslandSt) {idx : Nat} (sub : Nat) (h : 0x8000 ≤ idx) :
    tget objDefault (inputsClosed (showIsland d i)).objs (okey idx sub) = og d idx sub :=
  ((showIsland_axesKept d i).trans (inputsClosed_axesKept (showIsland d i))) (okey idx sub) (by unfold okey; omega)

/-- The control instant from its own time on: the values written before it are in force. -/
theorem controlInstant_inForce {s t : State} (ht : t = takeDeviceImage (upd s (fun d => controlPhase (showIsland d s.isl))))
    (hb : Benign (view false s.dev)) (hempty : s.dev.fc.todo = []) : t.dev.time.kc = s.dev.time.k ∧ t.dev.time.k = s.dev.time.k ∧
      ∀ idx sub, 0x8000 ≤ idx → tget objDefault t.dev.inForce (okey idx sub) = og s.dev idx sub := by
  have hsteady := controlPhase_upd hb hempty
  have hview := view_takeDeviceImage (upd s (fun d => controlPhase (showIsland d s.isl)))
  rw [← ht] at hview
  have hk := k_of_view (view_showIsland s.dev s.isl)
  have haxes (idx sub : Nat) := inputsClosed_axes s.dev s.isl (idx := idx) sub
  generalize upd s (fun d => controlPhase (showIsland d s.isl)) = u at hview hsteady
  generalize inputsClosed (showIsland s.dev s.isl) = closed at hsteady haxes
  generalize showIsland s.dev s.isl = shown at hk hsteady
  refine ⟨(kc_of_view hview).trans (hsteady.kc.trans hk), (k_of_view hview).trans (hsteady.k.trans hk), fun idx sub hi => ?_⟩
  rw [inForce_of_view hview, hsteady.inForce]
  exact haxes idx sub hi

theorem controlInstant_completes {s : State} (hs : Settled s) (h4 : ready s.dev 4 = true) (hkc : s.dev.time.kc ≠ s.dev.time.k)
    (hp : s.dev.host.pending = none) (hb : Benign (view false s.dev)) :
    ∃ t, exec .controlInstant s = .next t ∧ t.dev.time.kc = s.dev.time.k ∧ t.dev.time.k = s.dev.time.k ∧
      ∀ idx sub, 0x8000 ≤ idx → tget objDefault t.dev.inForce (okey idx sub) = og s.dev idx sub := by
  have hrun := execControl_eq s
  have hframe := advanceSeg_frame s.dev (s.dev.time.k * unitCycle + 28000 * unitNs)
  obtain ⟨hk, -⟩ := advanceSeg_instants s.dev (s.dev.time.k * unitCycle + 28000 * unitNs)
  have hobjs : (advanceSeg s.dev (s.dev.time.k * unitCycle + 28000 * unitNs)).objs = s.dev.objs := by rw [hframe]
  have htodo : (advanceSeg s.dev (s.dev.time.k * unitCycle + 28000 * unitNs)).fc.todo = [] := by
    rw [hframe]
    exact hs.1
  have hclear : (advanceSeg s.dev (s.dev.time.k * unitCycle + 28000 * unitNs)).power.cleared = false := by
    rw [hframe]
    exact hs.2
  have hpend : (advanceSeg s.dev (s.dev.time.k * unitCycle + 28000 * unitNs)).host.pending = none := by
    rw [hframe]
    exact hp
  rw [if_neg (by simp [h4, hkc]), upd_settled s _ htodo hclear] at hrun
  generalize advanceSeg s.dev (s.dev.time.k * unitCycle + 28000 * unitNs) = a at hrun hk hobjs htodo hpend
  rw [activateImage_none (s := { s with dev := a }) hpend] at hrun
  have hba : Benign (view false a) := hb.of_values (watchedValues_of_objs hobjs)
  obtain ⟨hkc', hk', hforce⟩ := controlInstant_inForce (s := { s with dev := a }) rfl hba htodo
  refine ⟨_, hrun, hkc'.trans hk, hk'.trans hk, fun idx sub hi => (hforce idx sub hi).trans ?_⟩
  exact congrArg (fun o => tget objDefault o (okey idx sub)) hobjs

/-- An instant whose time is not due idles. -/
theorem tightControlInstant_idles {s : State} (hs : Settled s) (h : ready s.dev 4 = false ∨ s.dev.time.kt = s.dev.time.k ∨ s.dev.time.kc = s.dev.time.k) :
    Idles .tightControlInstant s := .of_upd hs (execTight_eq s) (if_pos (by rcases h with h | h | h <;> simp [h]))

theorem controlInstant_idles {s : State} (h : ready s.dev 4 = false ∨ s.dev.time.kc = s.dev.time.k) : Idles .controlInstant s :=
  (execControl_eq s).trans (by rw [if_pos (by rcases h with h | h <;> simp [h])])

/-- Settles O36: the loops of both instants are followed by what they leave alone, the view of the device and the parts of the other axes. -/
theorem controlInstantsRunOncePerCycle : Obligations.ControlInstantsRunOncePerCycle := by
  unfold Obligations.ControlInstantsRunOncePerCycle
  intro s hs
  refine ⟨fun h => ⟨controlInstant_idles h, tightControlInstant_idles hs (h.imp_right .inr)⟩, fun h4 hkc hp hreset hclusters => ?_,
    fun hkt => tightControlInstant_idles hs (.inr (.inl hkt)), fun h4 hkc hkt => tightControlInstant_leaves h4 hkc hkt⟩
  exact controlInstant_completes hs h4 hkc hp (benign_of_objs hreset hclusters)

end Sys2Proof.Machine
end
